-- ==== Sys2Proof/Word.lean ====
section
/-! DEFINITION. The word types of the TLU3200 and their plainest operations. -/

namespace Sys2Proof

/-- One byte. -/
abbrev Byte := BitVec 8

/-- One 32-bit register of a window (R17). -/
abbrev Word32 := BitVec 32

/-- One 64-bit thread register (R211). -/
abbrev Word64 := BitVec 64

/-- One 128-bit action word. -/
abbrev Word128 := BitVec 128

end Sys2Proof
end

