-- ==== Sys2Proof/Syntax.lean ====
section
/-! DEFINITION. The commands of the TLU3200 block: one constructor for each row of the opcode table
(the part's steps, spec/95_what_each_step_holds.md), with the operands the row needs. A command is a
write or a read of a register, an operation of a unit, or an event on a pin or a wire. -/

namespace Sys2Proof

/-- A packet's name in the model (the spec gives packets no number). -/
abbrev Pid := Nat

/-- An output's name in the model. -/
abbrev Oid := Nat

/-- A thread: 72 threads of each of 24 Quires, numbered 72 times the Quire, plus 8 times the Leaf
position, plus the thread (R14, R172). -/
abbrev Tid := Fin 1728

/-- A register window of a Gathering that exists (R14). -/
abbrev Win := Fin 430

/-- One of the four lanes of Tedder, Windrow, Kettle, Drover or Finisher. -/
abbrev Lane := Fin 4

/-- An internal port: 0 to 31 Ethernet, 32 to 35 internal (R46). -/
abbrev Port := Fin 36

/-- An Ethernet port (R14). -/
abbrev EthPort := Fin 32

/-- A thread register g0 to g31 (R4). -/
abbrev Reg := Fin 32

/-- A function of the PCIe endpoint: 0 the physical one, 1 to 63 the virtual ones (R433). -/
abbrev Func := Fin 64

/-- A sender of mailbox commands: a function, or 64 for the board controller (R465). -/
abbrev Src := Fin 65

/-- A request source of the memory controllers that has requests of its own waiting (R36): a thread's queue to one memory
space, or a queue pair's. -/
inductive MemSrc where
  | thread (t : Tid) (sp : BitVec 2)
  | queuePair (q : Fin 256)
  deriving DecidableEq, Repr

/-- A memory scheduler (R389): a pseudo-channel of buffer memory, or a rank of table memory, numbered 4 times the channel
plus the select of R383. -/
inductive SchedId where
  | buffer (pc : Fin 64)
  | table (rank : Fin 48)
  deriving DecidableEq, Repr

/-- A JTAG instruction of the test port (R476); `other` is any instruction the limits of R476 turn into BYPASS. -/
inductive JtagIns where
  | idcode
  | bypass
  | samplePreload
  | extest
  | other (ir : BitVec 8)
  deriving DecidableEq, Repr

/-- A register: of a Gathering's window, or of a function's BAR0 (R434). -/
inductive RegAddr where
  | unit (w : Win) (off : BitVec 16)
  | bar0 (f : Func) (off : BitVec 26)
  deriving DecidableEq, Repr

/-- What a port's PCS and FEC tell: the link, the high symbol error ratio, and the FEC codewords corrected and uncorrectable since they
told last (R341). -/
structure LinkTold where
  up : Bool
  hiSer : Bool
  corrected : BitVec 32
  bad : BitVec 32
  deriving DecidableEq, Repr

/-- What the pattern checker of a lane tells: whether it is locked, and the bit and PAM4 symbol errors since it told last (R347). -/
structure PrbsTold where
  lock : Bool
  bits : BitVec 32
  symbols : BitVec 32
  deriving DecidableEq, Repr

/-- Ones written to W1C bits, and those of the bits whose source asserts again in the cycle of the write (R8). -/
structure OnesWritten where
  bits : BitVec 32
  again : BitVec 32
  deriving DecidableEq, Repr

/-- One command of the block, one constructor for each row of spec/opcode_table.json. -/
inductive Instr where
  /-- UCB_NOP -/
  | ucbNop (w : Win)
  /-- UCB_START -/
  | ucbStart (w : Win)
  /-- UCB_DRAIN -/
  | ucbDrain (w : Win)
  /-- UCB_STOP -/
  | ucbStop (w : Win)
  /-- UCB_RESET -/
  | ucbReset (w : Win)
  /-- UCB_UPDATE -/
  | ucbUpdate (w : Win)
  /-- UCB_RESUME -/
  | ucbResume (w : Win)
  /-- UCB_BIND_SPARE -/
  | ucbBindSpare (w : Win)
  /-- STARTING_END -/
  | startingEnd (w : Win) (selfTest : Bool)
  /-- QUIESCE_DONE -/
  | quiesceDone (w : Win)
  /-- UPDATE_DONE -/
  | updateDone (w : Win)
  /-- DRAIN_TIMEOUT -/
  | drainTimeout (w : Win)
  /-- HARDWARE_FAILURE -/
  | hardwareFailure (w : Win)
  /-- REGISTER_WRITE -/
  | registerWrite (reg : RegAddr) (val : BitVec 32) (again : BitVec 32)
  /-- RESERVED_ACCESS -/
  | reservedAccess (w : Fin 512) (off : BitVec 16) (size : BitVec 4) (write : Bool)
  /-- RC_READ -/
  | rcRead (reg : RegAddr) (arriving : BitVec 32)
  /-- PARSE_BEGIN -/
  | parseBegin (p : Pid)
  /-- RECORD_HANDOFF -/
  | recordHandoff (p : Pid)
  /-- GRAPH_SWITCH -/
  | graphSwitch
  /-- GRAPH_SWITCH_DONE -/
  | graphSwitchDone
  /-- STANDBY_LOAD_DONE -/
  | standbyLoadDone
  /-- FRAG_PENDING_TIMEOUT -/
  | fragPendingTimeout (p : Pid)
  /-- FRAG_AGE_OUT -/
  | fragAgeOut (entry : Nat)
  /-- CLASSIFY_BEGIN -/
  | classifyBegin (p : Pid)
  /-- STAGE_RESULT -/
  | stageResult (p : Pid)
  /-- WINDROW_LANE_OUTPUT -/
  | windrowLaneOutput (n : Lane)
  /-- EXC_BUCKET_REFILL -/
  | excBucketRefill
  /-- WINDROW_IND_READ -/
  | windrowIndRead
  /-- WINDROW_IND_WRITE -/
  | windrowIndWrite
  /-- LING_READ -/
  | lingRead (x : Fin 4) (db : BitVec 5) (index : BitVec 15)
  /-- LING_WRITE -/
  | lingWrite (x : Fin 4) (db : BitVec 5) (index : BitVec 15)
  /-- LING_INVALIDATE -/
  | lingInvalidate (x : Fin 4) (db : BitVec 5) (index : BitVec 15)
  /-- LING_WRITE_ACTION -/
  | lingWriteAction (x : Fin 4) (db : BitVec 5) (index : BitVec 15)
  /-- LING_SEARCH -/
  | lingSearch (x : Fin 4) (db : BitVec 5)
  /-- LING_NEXT_MATCH -/
  | lingNextMatch (x : Fin 4) (db : BitVec 5) (index : BitVec 15)
  /-- LING_MOVE_BLOCK -/
  | lingMoveBlock (x : Fin 4) (db : BitVec 5) (index : BitVec 15) (dir : BitVec 2)
  /-- LING_MOVE_STEP -/
  | lingMoveStep (db : BitVec 5)
  /-- LING_SPARE_COPY_STEP -/
  | lingSpareCopyStep
  /-- WARREN_LOOKUP -/
  | warrenLookup (e : Fin 4) (table : BitVec 4) (peek : Bool)
  /-- WARREN_INSERT -/
  | warrenInsert (e : Fin 4) (table : BitVec 4) (static : Bool)
  /-- WARREN_UPDATE -/
  | warrenUpdate (e : Fin 4) (table : BitVec 4) (static : Bool)
  /-- WARREN_DELETE -/
  | warrenDelete (e : Fin 4) (table : BitVec 4)
  /-- WARREN_READ_INDEX -/
  | warrenReadIndex (e : Fin 4) (table : BitVec 4)
  /-- WARREN_WRITE_INDEX -/
  | warrenWriteIndex (e : Fin 4) (table : BitVec 4) (static : Bool) (valid : Bool)
  /-- WARREN_COMPARE_WRITE -/
  | warrenCompareWrite (e : Fin 4) (table : BitVec 4)
  /-- WARREN_CMD_DONE -/
  | warrenCmdDone (e : Fin 4)
  /-- WARREN_THREAD_POST -/
  | warrenThreadPost (t : Tid)
  /-- WARREN_THREAD_COMPLETE -/
  | warrenThreadComplete (t : Tid)
  /-- BUCKET_OWNERSHIP_GRANT -/
  | bucketOwnershipGrant
  /-- DISPLACEMENT_MOVE -/
  | displacementMove (table : BitVec 4)
  /-- LEARN_SERVE -/
  | learnServe
  /-- MOVE_SERVE -/
  | moveServe
  /-- LEARN_WAIT_EXPIRY -/
  | learnWaitExpiry (p : Pid)
  /-- AGE_SWEEP_VISIT -/
  | ageSweepVisit (table : BitVec 4)
  /-- ROOT_TASK_CREATE -/
  | rootTaskCreate (n : Lane)
  /-- INTAKE_STALL_RETRY -/
  | intakeStallRetry (n : Lane)
  /-- HELD_TASK_DISPATCH -/
  | heldTaskDispatch
  /-- QUOTA_RELEASE -/
  | quotaRelease (tenant : BitVec 14)
  /-- EMIT -/
  | kettleEmit (t : Tid)
  /-- DROP -/
  | kettleDrop (t : Tid)
  /-- FORK -/
  | kettleFork (t : Tid)
  /-- FORK_STATUS -/
  | forkStatus (t : Tid)
  /-- RELEASE_BEGIN -/
  | releaseBegin (od : BitVec 16)
  /-- RELEASE_DELIVER -/
  | releaseDeliver (pos : Nat)
  /-- HEAD_TIMEOUT -/
  | headTimeout (od : BitVec 16)
  /-- DEBUG_HELD -/
  | debugHeld (od : BitVec 16)
  /-- PROMPT_EVENT_ENTRY -/
  | promptEventEntry (t : Tid)
  /-- FORCED_BOUNDARY -/
  | forcedBoundary (t : Tid)
  /-- TIMER_FIRE -/
  | timerFire (t : Tid)
  /-- WFE_WAKE -/
  | wfeWake (t : Tid)
  /-- WAITT_TIMEOUT -/
  | waittTimeout (t : Tid)
  /-- TAKE_WAKE -/
  | takeWake (t : Tid)
  /-- SEV_DELIVERY -/
  | sevDelivery (t : Tid)
  /-- FAULT_RECORD -/
  | faultRecord (t : Tid)
  /-- AUTO_RESTART -/
  | autoRestart (t : Tid)
  /-- QUIET_DEADLOCK -/
  | quietDeadlock (q : Fin 24)
  /-- DEADLOCK_ESCALATION -/
  | deadlockEscalation (q : Fin 24)
  /-- RESTART -/
  | threadRestart (q : Fin 24) (n : BitVec 7)
  /-- CLEAR_RECORD -/
  | clearRecord (q : Fin 24) (n : BitVec 7)
  /-- HALT -/
  | dbgHalt (t : Tid)
  /-- DEBUG_HALT_ENTRY -/
  | debugHaltEntry (t : Tid)
  /-- RESUME -/
  | dbgResume (t : Tid)
  /-- STEP -/
  | dbgStep (t : Tid)
  /-- RESET_THREAD -/
  | resetThread (t : Tid)
  /-- ASYNC_COMPLETION -/
  | asyncCompletion (t : Tid) (sp : BitVec 2)
  /-- ADD -/
  | add (t : Tid) (gd : Reg) (gs : Reg) (gt : Reg)
  /-- SUB -/
  | sub (t : Tid) (gd : Reg) (gs : Reg) (gt : Reg)
  /-- NEG -/
  | neg (t : Tid) (gd : Reg) (gs : Reg)
  /-- ABS -/
  | abs (t : Tid) (gd : Reg) (gs : Reg)
  /-- AND -/
  | and (t : Tid) (gd : Reg) (gs : Reg) (gt : Reg)
  /-- OR -/
  | or (t : Tid) (gd : Reg) (gs : Reg) (gt : Reg)
  /-- XOR -/
  | xor (t : Tid) (gd : Reg) (gs : Reg) (gt : Reg)
  /-- NOR -/
  | nor (t : Tid) (gd : Reg) (gs : Reg) (gt : Reg)
  /-- ANDN -/
  | andn (t : Tid) (gd : Reg) (gs : Reg) (gt : Reg)
  /-- ORN -/
  | orn (t : Tid) (gd : Reg) (gs : Reg) (gt : Reg)
  /-- XNOR -/
  | xnor (t : Tid) (gd : Reg) (gs : Reg) (gt : Reg)
  /-- CMOVZ -/
  | cmovz (t : Tid) (gd : Reg) (gs : Reg) (gt : Reg)
  /-- CMOVN -/
  | cmovn (t : Tid) (gd : Reg) (gs : Reg) (gt : Reg)
  /-- SLT -/
  | slt (t : Tid) (gd : Reg) (gs : Reg) (gt : Reg)
  /-- SLTU -/
  | sltu (t : Tid) (gd : Reg) (gs : Reg) (gt : Reg)
  /-- SEQ -/
  | seq (t : Tid) (gd : Reg) (gs : Reg) (gt : Reg)
  /-- SNE -/
  | sne (t : Tid) (gd : Reg) (gs : Reg) (gt : Reg)
  /-- MIN -/
  | min (t : Tid) (gd : Reg) (gs : Reg) (gt : Reg)
  /-- MAX -/
  | max (t : Tid) (gd : Reg) (gs : Reg) (gt : Reg)
  /-- MINU -/
  | minu (t : Tid) (gd : Reg) (gs : Reg) (gt : Reg)
  /-- MAXU -/
  | maxu (t : Tid) (gd : Reg) (gs : Reg) (gt : Reg)
  /-- SLL -/
  | sll (t : Tid) (gd : Reg) (gs : Reg) (gt : Reg)
  /-- SRL -/
  | srl (t : Tid) (gd : Reg) (gs : Reg) (gt : Reg)
  /-- SRA -/
  | sra (t : Tid) (gd : Reg) (gs : Reg) (gt : Reg)
  /-- ROL -/
  | rol (t : Tid) (gd : Reg) (gs : Reg) (gt : Reg)
  /-- ROR -/
  | ror (t : Tid) (gd : Reg) (gs : Reg) (gt : Reg)
  /-- MUL -/
  | mul (t : Tid) (gd : Reg) (gs : Reg) (gt : Reg)
  /-- MULH -/
  | mulh (t : Tid) (gd : Reg) (gs : Reg) (gt : Reg)
  /-- MULHU -/
  | mulhu (t : Tid) (gd : Reg) (gs : Reg) (gt : Reg)
  /-- MULHSU -/
  | mulhsu (t : Tid) (gd : Reg) (gs : Reg) (gt : Reg)
  /-- DIV -/
  | div (t : Tid) (gd : Reg) (gs : Reg) (gt : Reg)
  /-- DIVU -/
  | divu (t : Tid) (gd : Reg) (gs : Reg) (gt : Reg)
  /-- REM -/
  | rem (t : Tid) (gd : Reg) (gs : Reg) (gt : Reg)
  /-- REMU -/
  | remu (t : Tid) (gd : Reg) (gs : Reg) (gt : Reg)
  /-- CLZ -/
  | clz (t : Tid) (gd : Reg) (gs : Reg)
  /-- CTZ -/
  | ctz (t : Tid) (gd : Reg) (gs : Reg)
  /-- POPC -/
  | popc (t : Tid) (gd : Reg) (gs : Reg)
  /-- REV -/
  | rev (t : Tid) (gd : Reg) (gs : Reg)
  /-- REV4 -/
  | rev4 (t : Tid) (gd : Reg) (gs : Reg)
  /-- REV2 -/
  | rev2 (t : Tid) (gd : Reg) (gs : Reg)
  /-- ADDW -/
  | addw (t : Tid) (gd : Reg) (gs : Reg) (gt : Reg)
  /-- SUBW -/
  | subw (t : Tid) (gd : Reg) (gs : Reg) (gt : Reg)
  /-- NEGW -/
  | negw (t : Tid) (gd : Reg) (gs : Reg)
  /-- ABSW -/
  | absw (t : Tid) (gd : Reg) (gs : Reg)
  /-- SLLW -/
  | sllw (t : Tid) (gd : Reg) (gs : Reg) (gt : Reg)
  /-- SRLW -/
  | srlw (t : Tid) (gd : Reg) (gs : Reg) (gt : Reg)
  /-- SRAW -/
  | sraw (t : Tid) (gd : Reg) (gs : Reg) (gt : Reg)
  /-- ROLW -/
  | rolw (t : Tid) (gd : Reg) (gs : Reg) (gt : Reg)
  /-- RORW -/
  | rorw (t : Tid) (gd : Reg) (gs : Reg) (gt : Reg)
  /-- MULW -/
  | mulw (t : Tid) (gd : Reg) (gs : Reg) (gt : Reg)
  /-- DIVW -/
  | divw (t : Tid) (gd : Reg) (gs : Reg) (gt : Reg)
  /-- DIVUW -/
  | divuw (t : Tid) (gd : Reg) (gs : Reg) (gt : Reg)
  /-- REMW -/
  | remw (t : Tid) (gd : Reg) (gs : Reg) (gt : Reg)
  /-- REMUW -/
  | remuw (t : Tid) (gd : Reg) (gs : Reg) (gt : Reg)
  /-- ADDI -/
  | addi (t : Tid) (gd : Reg) (gs : Reg) (imm : BitVec 16)
  /-- ADDIW -/
  | addiw (t : Tid) (gd : Reg) (gs : Reg) (imm : BitVec 16)
  /-- ANDI -/
  | andi (t : Tid) (gd : Reg) (gs : Reg) (imm : BitVec 16)
  /-- ORI -/
  | ori (t : Tid) (gd : Reg) (gs : Reg) (imm : BitVec 16)
  /-- XORI -/
  | xori (t : Tid) (gd : Reg) (gs : Reg) (imm : BitVec 16)
  /-- SLTI -/
  | slti (t : Tid) (gd : Reg) (gs : Reg) (imm : BitVec 16)
  /-- SLTIU -/
  | sltiu (t : Tid) (gd : Reg) (gs : Reg) (imm : BitVec 16)
  /-- SEQI -/
  | seqi (t : Tid) (gd : Reg) (gs : Reg) (imm : BitVec 16)
  /-- SLLI -/
  | slli (t : Tid) (gd : Reg) (gs : Reg) (cnt : BitVec 6)
  /-- SRLI -/
  | srli (t : Tid) (gd : Reg) (gs : Reg) (cnt : BitVec 6)
  /-- SRAI -/
  | srai (t : Tid) (gd : Reg) (gs : Reg) (cnt : BitVec 6)
  /-- RORI -/
  | rori (t : Tid) (gd : Reg) (gs : Reg) (cnt : BitVec 6)
  /-- SLLIW -/
  | slliw (t : Tid) (gd : Reg) (gs : Reg) (cnt : BitVec 6)
  /-- SRLIW -/
  | srliw (t : Tid) (gd : Reg) (gs : Reg) (cnt : BitVec 6)
  /-- SRAIW -/
  | sraiw (t : Tid) (gd : Reg) (gs : Reg) (cnt : BitVec 6)
  /-- RORIW -/
  | roriw (t : Tid) (gd : Reg) (gs : Reg) (cnt : BitVec 6)
  /-- MOVZ -/
  | movz (t : Tid) (gd : Reg) (imm : BitVec 16) (hw : BitVec 2)
  /-- MOVK -/
  | movk (t : Tid) (gd : Reg) (imm : BitVec 16) (hw : BitVec 2)
  /-- MOVN -/
  | movn (t : Tid) (gd : Reg) (imm : BitVec 16) (hw : BitVec 2)
  /-- EXTU -/
  | extu (t : Tid) (gd : Reg) (gs : Reg) (pos : BitVec 6) (lenm1 : BitVec 6)
  /-- EXTS -/
  | exts (t : Tid) (gd : Reg) (gs : Reg) (pos : BitVec 6) (lenm1 : BitVec 6)
  /-- INS -/
  | ins (t : Tid) (gd : Reg) (gs : Reg) (pos : BitVec 6) (lenm1 : BitVec 6)
  /-- BEQ -/
  | beq (t : Tid) (gs : Reg) (gt : Reg) (a : Bool) (off : BitVec 12)
  /-- BNE -/
  | bne (t : Tid) (gs : Reg) (gt : Reg) (a : Bool) (off : BitVec 12)
  /-- BLT -/
  | blt (t : Tid) (gs : Reg) (gt : Reg) (a : Bool) (off : BitVec 12)
  /-- BGE -/
  | bge (t : Tid) (gs : Reg) (gt : Reg) (a : Bool) (off : BitVec 12)
  /-- BLTU -/
  | bltu (t : Tid) (gs : Reg) (gt : Reg) (a : Bool) (off : BitVec 12)
  /-- BGEU -/
  | bgeu (t : Tid) (gs : Reg) (gt : Reg) (a : Bool) (off : BitVec 12)
  /-- BBC -/
  | bbc (t : Tid) (gs : Reg) (bit : BitVec 6) (a : Bool) (off : BitVec 13)
  /-- BBS -/
  | bbs (t : Tid) (gs : Reg) (bit : BitVec 6) (a : Bool) (off : BitVec 13)
  /-- J -/
  | j (t : Tid) (off : BitVec 26)
  /-- JAL -/
  | jal (t : Tid) (off : BitVec 26)
  /-- JR -/
  | jr (t : Tid) (gs : Reg)
  /-- JALR -/
  | jalr (t : Tid) (gd : Reg) (gs : Reg)
  /-- LDL -/
  | ldl (t : Tid) (gd : Reg) (gs : Reg) (sz : BitVec 2) (sx : Bool) (be : Bool) (off : BitVec 12)
  /-- STL -/
  | stl (t : Tid) (gt : Reg) (gs : Reg) (sz : BitVec 2) (be : Bool) (off : BitVec 12)
  /-- LDA -/
  | lda (t : Tid) (gd : Reg) (gs : Reg) (ev : BitVec 5) (sp : BitVec 2) (sz : BitVec 2) (off : BitVec 6)
  /-- STA -/
  | sta (t : Tid) (gt : Reg) (gs : Reg) (ev : BitVec 5) (e : Bool) (sp : BitVec 2) (sz : BitVec 2) (off : BitVec 6)
  /-- AMOSWAP -/
  | amoswap (t : Tid) (gd : Reg) (gs : Reg) (gt : Reg) (ev : BitVec 5) (sp : BitVec 2) (wd : Bool)
  /-- AMOADD -/
  | amoadd (t : Tid) (gd : Reg) (gs : Reg) (gt : Reg) (ev : BitVec 5) (sp : BitVec 2) (wd : Bool)
  /-- AMOAND -/
  | amoand (t : Tid) (gd : Reg) (gs : Reg) (gt : Reg) (ev : BitVec 5) (sp : BitVec 2) (wd : Bool)
  /-- AMOOR -/
  | amoor (t : Tid) (gd : Reg) (gs : Reg) (gt : Reg) (ev : BitVec 5) (sp : BitVec 2) (wd : Bool)
  /-- AMOXOR -/
  | amoxor (t : Tid) (gd : Reg) (gs : Reg) (gt : Reg) (ev : BitVec 5) (sp : BitVec 2) (wd : Bool)
  /-- AMOMAXU -/
  | amomaxu (t : Tid) (gd : Reg) (gs : Reg) (gt : Reg) (ev : BitVec 5) (sp : BitVec 2) (wd : Bool)
  /-- AMOMINU -/
  | amominu (t : Tid) (gd : Reg) (gs : Reg) (gt : Reg) (ev : BitVec 5) (sp : BitVec 2) (wd : Bool)
  /-- AMOCAS -/
  | amocas (t : Tid) (gd : Reg) (gs : Reg) (gt : Reg) (ev : BitVec 5) (sp : BitVec 2) (wd : Bool)
  /-- XLD -/
  | xld (t : Tid) (gl : Reg) (gs : Reg) (ev : BitVec 5) (sp : BitVec 2) (lenm1 : BitVec 6)
  /-- XST -/
  | xst (t : Tid) (gl : Reg) (gs : Reg) (ev : BitVec 5) (sp : BitVec 2) (lenm1 : BitVec 6)
  /-- WFE -/
  | wfe (t : Tid) (gd : Reg) (gm : Reg)
  /-- WAITT -/
  | waitt (t : Tid) (gd : Reg) (gt : Reg) (gm : Reg)
  /-- SEV -/
  | sev (t : Tid) (gt : Reg)
  /-- TAKE -/
  | take (t : Tid) (gd : Reg)
  /-- FENCE -/
  | fence (t : Tid)
  /-- ERET -/
  | eret (t : Tid)
  /-- RDTIME -/
  | rdtime (t : Tid) (gd : Reg)
  /-- MFT -/
  | mft (t : Tid) (gd : Reg) (tcr : BitVec 5)
  /-- MTT -/
  | mtt (t : Tid) (tcr : BitVec 5) (gs : Reg)
  /-- CHW -/
  | chw (t : Tid) (w : BitVec 5) (gs : Reg)
  /-- CHPOST -/
  | chpost (t : Tid) (target : BitVec 5)
  /-- BKPT -/
  | bkpt (t : Tid)
  /-- SACQ -/
  | sacq (t : Tid) (gd : Reg) (gs : Reg) (ev : BitVec 5)
  /-- STRY -/
  | stry (t : Tid) (gd : Reg) (gs : Reg) (ev : BitVec 5)
  /-- SREL -/
  | srel (t : Tid) (gs : Reg)
  /-- LOCK_HANDOFF -/
  | lockHandoff (l : BitVec 13)
  /-- CPOP -/
  | cpop (t : Tid) (cp : BitVec 3) (fn : BitVec 8) (cd : BitVec 5) (cs : BitVec 5) (ct : BitVec 5)
  /-- MTC -/
  | mtc (t : Tid) (cp : BitVec 3) (g : Reg) (cr : BitVec 5) (part : BitVec 2)
  /-- MFC -/
  | mfc (t : Tid) (g : Reg) (cp : BitVec 3) (cr : BitVec 5) (part : BitVec 2)
  /-- BCB -/
  | bcb (t : Tid) (cp : BitVec 3) (sense : Bool) (a : Bool) (off : BitVec 12)
  /-- CPOP_END -/
  | cpopEnd (t : Tid) (cp : BitVec 3)
  /-- CONTEXT_SWITCH -/
  | contextSwitch (q : Fin 24)
  /-- CONTEXT_PIN_EXPIRY -/
  | contextPinExpiry (q : Fin 24) (ctx : Fin 72)
  /-- SAVE_PORT_BEAT -/
  | savePortBeat (q : Fin 24) (cp : BitVec 2) (we : Bool) (ctx : Fin 72) (beat : BitVec 5) (data : BitVec 256)
  /-- AWL_MOV -/
  | awlMov (t : Tid) (cd : BitVec 5) (cs : BitVec 5) (ct : BitVec 5)
  /-- AWL_XOR -/
  | awlXor (t : Tid) (cd : BitVec 5) (cs : BitVec 5) (ct : BitVec 5)
  /-- AWL_AND -/
  | awlAnd (t : Tid) (cd : BitVec 5) (cs : BitVec 5) (ct : BitVec 5)
  /-- AWL_OR -/
  | awlOr (t : Tid) (cd : BitVec 5) (cs : BitVec 5) (ct : BitVec 5)
  /-- AWL_CSUM -/
  | awlCsum (t : Tid) (cd : BitVec 5) (cs : BitVec 5) (ct : BitVec 5)
  /-- AWL_CRC32C -/
  | awlCrc32c (t : Tid) (cd : BitVec 5) (cs : BitVec 5) (ct : BitVec 5)
  /-- AWL_CRC32 -/
  | awlCrc32 (t : Tid) (cd : BitVec 5) (cs : BitVec 5) (ct : BitVec 5)
  /-- AWL_CLMUL -/
  | awlClmul (t : Tid) (cd : BitVec 5) (cs : BitVec 5) (ct : BitVec 5)
  /-- AWL_EXT -/
  | awlExt (t : Tid) (cd : BitVec 5) (cs : BitVec 5) (ct : BitVec 5)
  /-- AWL_INS -/
  | awlIns (t : Tid) (cd : BitVec 5) (cs : BitVec 5) (ct : BitVec 5)
  /-- AWL_SHUF -/
  | awlShuf (t : Tid) (cd : BitVec 5) (cs : BitVec 5) (ct : BitVec 5)
  /-- AWL_BSWAP -/
  | awlBswap (t : Tid) (cd : BitVec 5) (cs : BitVec 5) (ct : BitVec 5)
  /-- AWL_POPC -/
  | awlPopc (t : Tid) (cd : BitVec 5) (cs : BitVec 5) (ct : BitVec 5)
  /-- AWL_CMPEQ8 -/
  | awlCmpeq8 (t : Tid) (cd : BitVec 5) (cs : BitVec 5) (ct : BitVec 5)
  /-- KEYSEL -/
  | keysel (t : Tid) (cd : BitVec 5) (cs : BitVec 5) (ct : BitVec 5)
  /-- GCM_INIT -/
  | gcmInit (t : Tid) (cd : BitVec 5) (cs : BitVec 5) (ct : BitVec 5)
  /-- GCM_AAD -/
  | gcmAad (t : Tid) (cd : BitVec 5) (cs : BitVec 5) (ct : BitVec 5)
  /-- GCM_ENC -/
  | gcmEnc (t : Tid) (cd : BitVec 5) (cs : BitVec 5) (ct : BitVec 5)
  /-- GCM_DEC -/
  | gcmDec (t : Tid) (cd : BitVec 5) (cs : BitVec 5) (ct : BitVec 5)
  /-- GCM_TAG -/
  | gcmTag (t : Tid) (cd : BitVec 5) (cs : BitVec 5) (ct : BitVec 5)
  /-- GCM_CHECK -/
  | gcmCheck (t : Tid) (cd : BitVec 5) (cs : BitVec 5) (ct : BitVec 5)
  /-- CCP_INIT -/
  | ccpInit (t : Tid) (cd : BitVec 5) (cs : BitVec 5) (ct : BitVec 5)
  /-- CCP_AAD -/
  | ccpAad (t : Tid) (cd : BitVec 5) (cs : BitVec 5) (ct : BitVec 5)
  /-- CCP_ENC -/
  | ccpEnc (t : Tid) (cd : BitVec 5) (cs : BitVec 5) (ct : BitVec 5)
  /-- CCP_DEC -/
  | ccpDec (t : Tid) (cd : BitVec 5) (cs : BitVec 5) (ct : BitVec 5)
  /-- CCP_TAG -/
  | ccpTag (t : Tid) (cd : BitVec 5) (cs : BitVec 5) (ct : BitVec 5)
  /-- CCP_CHECK -/
  | ccpCheck (t : Tid) (cd : BitVec 5) (cs : BitVec 5) (ct : BitVec 5)
  /-- SHA256_INIT -/
  | sha256Init (t : Tid) (cd : BitVec 5) (cs : BitVec 5) (ct : BitVec 5)
  /-- SHA256_BLOCK -/
  | sha256Block (t : Tid) (cd : BitVec 5) (cs : BitVec 5) (ct : BitVec 5)
  /-- SHA256_FINAL -/
  | sha256Final (t : Tid) (cd : BitVec 5) (cs : BitVec 5) (ct : BitVec 5)
  /-- SHA512_INIT -/
  | sha512Init (t : Tid) (cd : BitVec 5) (cs : BitVec 5) (ct : BitVec 5)
  /-- SHA512_BLOCK -/
  | sha512Block (t : Tid) (cd : BitVec 5) (cs : BitVec 5) (ct : BitVec 5)
  /-- SHA512_FINAL -/
  | sha512Final (t : Tid) (cd : BitVec 5) (cs : BitVec 5) (ct : BitVec 5)
  /-- HMAC_INIT -/
  | hmacInit (t : Tid) (cd : BitVec 5) (cs : BitVec 5) (ct : BitVec 5)
  /-- CLASP_STATUS -/
  | claspStatus (t : Tid) (cd : BitVec 5) (cs : BitVec 5) (ct : BitVec 5)
  /-- CUSTOM_INSTRUCTION -/
  | customInstruction (t : Tid) (fn : BitVec 10) (gd : Reg) (gs : Reg) (gt : Reg)
  /-- MICRO_ATOMICITY -/
  | microAtomicity (t : Tid)
  /-- FNV64_K -/
  | fnv64K (t : Tid) (k : BitVec 3) (gd : Reg) (gs : Reg) (gt : Reg)
  /-- ADDS -/
  | adds (t : Tid) (gd : Reg) (gs : Reg) (gt : Reg)
  /-- SUBS -/
  | subs (t : Tid) (gd : Reg) (gs : Reg) (gt : Reg)
  /-- ADDSU -/
  | addsu (t : Tid) (gd : Reg) (gs : Reg) (gt : Reg)
  /-- SUBSU -/
  | subsu (t : Tid) (gd : Reg) (gs : Reg) (gt : Reg)
  /-- ADDSW -/
  | addsw (t : Tid) (gd : Reg) (gs : Reg) (gt : Reg)
  /-- SUBSW -/
  | subsw (t : Tid) (gd : Reg) (gs : Reg) (gt : Reg)
  /-- ADDSUW -/
  | addsuw (t : Tid) (gd : Reg) (gs : Reg) (gt : Reg)
  /-- SUBSUW -/
  | subsuw (t : Tid) (gd : Reg) (gs : Reg) (gt : Reg)
  /-- FINDB -/
  | findb (t : Tid) (gd : Reg) (gs : Reg) (gt : Reg)
  /-- FINDNB -/
  | findnb (t : Tid) (gd : Reg) (gs : Reg) (gt : Reg)
  /-- CNTB -/
  | cntb (t : Tid) (gd : Reg) (gs : Reg) (gt : Reg)
  /-- MINB -/
  | minb (t : Tid) (gd : Reg) (gs : Reg) (gt : Reg)
  /-- MAXB -/
  | maxb (t : Tid) (gd : Reg) (gs : Reg) (gt : Reg)
  /-- ADDB -/
  | addb (t : Tid) (gd : Reg) (gs : Reg) (gt : Reg)
  /-- SUBB -/
  | subb (t : Tid) (gd : Reg) (gs : Reg) (gt : Reg)
  /-- SADB -/
  | sadb (t : Tid) (gd : Reg) (gs : Reg) (gt : Reg)
  /-- PDEP -/
  | pdep (t : Tid) (gd : Reg) (gs : Reg) (gt : Reg)
  /-- PEXT -/
  | pext (t : Tid) (gd : Reg) (gs : Reg) (gt : Reg)
  /-- BREV -/
  | brev (t : Tid) (gd : Reg) (gs : Reg) (gt : Reg)
  /-- CLMUL -/
  | clmul (t : Tid) (gd : Reg) (gs : Reg) (gt : Reg)
  /-- CLMULH -/
  | clmulh (t : Tid) (gd : Reg) (gs : Reg) (gt : Reg)
  /-- POPCAND -/
  | popcand (t : Tid) (gd : Reg) (gs : Reg) (gt : Reg)
  /-- SELB -/
  | selb (t : Tid) (gd : Reg) (gs : Reg) (gt : Reg)
  /-- PARITY -/
  | parity (t : Tid) (gd : Reg) (gs : Reg) (gt : Reg)
  /-- LCSUM -/
  | lcsum (t : Tid) (gd : Reg) (gs : Reg) (gt : Reg)
  /-- LCRC32C -/
  | lcrc32c (t : Tid) (gd : Reg) (gs : Reg) (gt : Reg)
  /-- LFILL -/
  | lfill (t : Tid) (gd : Reg) (gs : Reg) (gt : Reg)
  /-- LCOPY -/
  | lcopy (t : Tid) (gd : Reg) (gs : Reg) (gt : Reg)
  /-- LCMP -/
  | lcmp (t : Tid) (gd : Reg) (gs : Reg) (gt : Reg)
  /-- LFIND -/
  | lfind (t : Tid) (gd : Reg) (gs : Reg) (gt : Reg)
  /-- LSWAP16 -/
  | lswap16 (t : Tid) (gd : Reg) (gs : Reg) (gt : Reg)
  /-- LSWAP32 -/
  | lswap32 (t : Tid) (gd : Reg) (gs : Reg) (gt : Reg)
  /-- CSUMADJ -/
  | csumadj (t : Tid) (gd : Reg) (gs : Reg) (gt : Reg)
  /-- CSUMADJ32 -/
  | csumadj32 (t : Tid) (gd : Reg) (gs : Reg) (gt : Reg)
  /-- IPV4CSUM -/
  | ipv4csum (t : Tid) (gd : Reg) (gs : Reg) (gt : Reg)
  /-- MACHASH -/
  | machash (t : Tid) (gd : Reg) (gs : Reg) (gt : Reg)
  /-- PREFIXEQ -/
  | prefixeq (t : Tid) (gd : Reg) (gs : Reg) (gt : Reg)
  /-- MASKLEN -/
  | masklen (t : Tid) (gd : Reg) (gs : Reg) (gt : Reg)
  /-- EUI64 -/
  | eui64 (t : Tid) (gd : Reg) (gs : Reg) (gt : Reg)
  /-- SUBSAT0 -/
  | subsat0 (t : Tid) (gd : Reg) (gs : Reg) (gt : Reg)
  /-- STILE_FORCE -/
  | stileForce (l : BitVec 13)
  /-- HOST_STILE_ACQUIRE -/
  | hostStileAcquire (f : Fin 65) (l : BitVec 13)
  /-- HOST_STILE_TRY -/
  | hostStileTry (f : Fin 65) (l : BitVec 13)
  /-- HOST_STILE_RELEASE -/
  | hostStileRelease (f : Fin 65) (l : BitVec 13)
  /-- HOST_STILE_CPL_READ -/
  | hostStileCplRead (f : Fin 65)
  /-- QUIRE_WIN_READ -/
  | quireWinRead (q : Fin 24)
  /-- QUIRE_WIN_WRITE -/
  | quireWinWrite (q : Fin 24)
  /-- FIRST_CELL_ADMISSION -/
  | firstCellAdmission (n : Port)
  /-- CELL_ALLOCATION -/
  | cellAllocation (p : Pid)
  /-- RX_WAIT_RELEASE -/
  | rxWaitRelease (n : Port)
  /-- POOL_READY -/
  | poolReady (pool : Fin 64)
  /-- REF_INCREMENT -/
  | refIncrement (h : BitVec 32)
  /-- REF_DECREMENT -/
  | refDecrement (h : BitVec 32)
  /-- DROVER_TAKE_OUTPUT -/
  | droverTakeOutput
  /-- DROVER_SELECT -/
  | droverSelect (n : Lane)
  /-- SHAPER_REFILL -/
  | shaperRefill (level : Fin 5) (index : BitVec 17)
  /-- PFC_RESEND -/
  | pfcResend (p : EthPort)
  /-- MAC_CONTROL_FRAME -/
  | macControlFrame (p : EthPort) (frame : List Byte)
  /-- PAUSE_EXPIRY -/
  | pauseExpiry (p : EthPort) (q : Fin 8)
  /-- PAUSE_STORM -/
  | pauseStorm (p : EthPort) (q : Fin 8)
  /-- DROVER_FLUSH -/
  | droverFlush (queue : BitVec 17)
  /-- DROVER_IND_READ -/
  | droverIndRead
  /-- DROVER_IND_WRITE -/
  | droverIndWrite
  /-- DROVER_IND_READ_CLEAR -/
  | droverIndReadClear
  /-- LINK_CHANGE -/
  | linkChange (p : EthPort) (up : LinkTold)
  /-- RX_WINDOW_DELIVERY -/
  | rxWindowDelivery (p : EthPort) (wire : List Byte) (whole : Bool) (fcsOk : Bool) (sfd : BitVec 64)
  /-- RX_BYTES_DELIVERY -/
  | rxBytesDelivery (p : EthPort) (wire : List Byte)
  /-- RX_FRAME_END -/
  | rxFrameEnd (p : EthPort) (fcsOk : Bool) (cut : Bool)
  /-- MAC_TRANSMIT -/
  | macTransmit (p : EthPort)
  /-- PORT_RECAL_GO -/
  | portRecalGo (p : EthPort)
  /-- RECAL_DONE -/
  | recalDone (p : EthPort) (signal : Bool)
  /-- FINISHER_TAKE_OUTPUT -/
  | finisherTakeOutput (n : Lane)
  /-- CELL_READ_COMPLETE -/
  | cellReadComplete (o : Oid)
  /-- END -/
  | editEnd (o : Oid)
  /-- DELETE -/
  | editDelete (o : Oid)
  /-- INSERT -/
  | editInsert (o : Oid)
  /-- REPLACE -/
  | editReplace (o : Oid)
  /-- CSUM_DIFF -/
  | editCsumDiff (o : Oid)
  /-- IPV4_CSUM -/
  | editIpv4Csum (o : Oid)
  /-- TSTAMP -/
  | editTstamp (o : Oid)
  /-- TRUNCATE -/
  | editTruncate (o : Oid)
  /-- RECIRC -/
  | editRecirc (o : Oid)
  /-- INTERNAL_PORT_OUTPUT -/
  | internalPortOutput (n : Fin 4)
  /-- SHEAF_REPORT -/
  | sheafReport
  /-- MINUTE_BOUNDARY -/
  | minuteBoundary
  /-- RECORD_FREEZE -/
  | recordFreeze
  /-- CLOSE_COMPLETE -/
  | closeComplete
  /-- RICK_UPDATE -/
  | rickUpdate
  /-- RICK_WRITE_BACK -/
  | rickWriteBack (slot : Nat)
  /-- MEMORY_REQUEST -/
  | memoryRequest (src : MemSrc)
  /-- COMMAND_SLOT -/
  | commandSlot (ch : SchedId)
  /-- REFRESH_TICK -/
  | refreshTick (ch : SchedId)
  /-- GENERATOR_RESEED -/
  | generatorReseed (w : Win)
  /-- IDLE_TIMER_EXPIRY -/
  | idleTimerExpiry (ch : SchedId) (bank : BitVec 6)
  /-- PANIC_ENTRY -/
  | panicEntry (k : Fin 2)
  /-- PANIC_EXIT -/
  | panicExit (k : Fin 2)
  /-- SELF_REFRESH_ENTRY -/
  | selfRefreshEntry (w : Win)
  /-- SELF_REFRESH_EXIT -/
  | selfRefreshExit (w : Win)
  /-- CH_RETRAIN -/
  | chRetrain (w : Win)
  /-- RETRAIN_DONE -/
  | retrainDone (w : Win) (ok : Bool)
  /-- SCRUB_STEP -/
  | scrubStep (target : Fin 11) (w : Win) (inst : BitVec 7) (addr : BitVec 40)
  /-- LAP_OVERDUE -/
  | lapOverdue (target : Fin 11)
  /-- OVERLAY_ARM -/
  | overlayArm (w : BitVec 9) (inst : BitVec 7)
  /-- LOG_CLEAR -/
  | logClear (w : BitVec 9) (inst : BitVec 7) (entry : BitVec 4)
  /-- HARD_QUEUE_POP -/
  | hardQueuePop
  /-- ROUND_REFILL -/
  | roundRefill
  /-- MB_DOORBELL -/
  | mbDoorbell (f : Func) (tail : BitVec 16)
  /-- MB_RSP_HEAD_WRITE -/
  | mbRspHeadWrite (f : Func) (head : BitVec 16)
  /-- MB_RING_ENABLE -/
  | mbRingEnable (f : Func)
  /-- MB_ENTRY_FETCH -/
  | mbEntryFetch (f : Func) (pcieErr : Bool)
  /-- GET_INFO -/
  | getInfo (f : Src)
  /-- GET_STATE -/
  | getState (f : Src)
  /-- QP_CREATE -/
  | qpCreate (f : Src)
  /-- QP_DESTROY -/
  | qpDestroy (f : Src)
  /-- QP_ASSIGN -/
  | qpAssign (f : Src)
  /-- DMA_WINDOW_SET -/
  | dmaWindowSet (f : Src)
  /-- FUNC_BIND -/
  | funcBind (f : Src)
  /-- CREDIT_SET -/
  | creditSet (f : Src)
  /-- BMC_BUF_READ -/
  | bmcBufRead (f : Src)
  /-- UCB_COMMAND -/
  | ucbCommand (f : Src)
  /-- UCB_READ -/
  | ucbRead (f : Src)
  /-- REG_READ -/
  | regRead (f : Src)
  /-- REG_WRITE -/
  | regWrite (f : Src)
  /-- BIND_SPARE -/
  | mbBindSpare (f : Src)
  /-- PORT_SET -/
  | portSet (f : Src)
  /-- PORT_GET -/
  | portGet (f : Src)
  /-- PORT_RECAL -/
  | mbPortRecal (f : Src)
  /-- PORT_TEST -/
  | portTest (f : Src)
  /-- MACSEC_SET -/
  | macsecSet (f : Src)
  /-- IMAGE_STAGE -/
  | imageStage (f : Src)
  /-- IMAGE_RELEASE -/
  | imageRelease (f : Src)
  /-- IMAGE_LIST -/
  | imageList (f : Src)
  /-- SHEET_ROLL -/
  | sheetRoll (f : Src)
  /-- GRAPH_LOAD -/
  | graphLoad (f : Src)
  /-- CLASS_WRITE -/
  | classWrite (f : Src)
  /-- LING_COMMAND -/
  | lingCommand (f : Src)
  /-- BLOCK_ASSIGN -/
  | blockAssign (f : Src)
  /-- WARREN_COMMAND -/
  | warrenCommand (f : Src)
  /-- TABLE_SET -/
  | tableSet (f : Src)
  /-- WARREN_SET -/
  | warrenSet (f : Src)
  /-- NODE_SET -/
  | nodeSet (f : Src)
  /-- NODE_GET -/
  | nodeGet (f : Src)
  /-- POLICER_SET -/
  | policerSet (f : Src)
  /-- QUEUE_STATS -/
  | queueStats (f : Src)
  /-- QUEUE_FLUSH -/
  | queueFlush (f : Src)
  /-- PFC_SET -/
  | pfcSet (f : Src)
  /-- RECORD_GET -/
  | recordGet (f : Src)
  /-- PROOF_GET -/
  | proofGet (f : Src)
  /-- COUNTER_GET -/
  | counterGet (f : Src)
  /-- RICK_GET -/
  | rickGet (f : Src)
  /-- LEDGER_SET -/
  | ledgerSet (f : Src)
  /-- WRAP_KEYS -/
  | wrapKeys (f : Src)
  /-- KEY_INSTALL -/
  | keyInstall (f : Src)
  /-- KEY_REVOKE -/
  | keyRevoke (f : Src)
  /-- KEY_LIST -/
  | keyList (f : Src)
  /-- ATTEST -/
  | attest (f : Src)
  /-- OWNER_ENROL -/
  | ownerEnrol (f : Src)
  /-- DEBUG_ENABLE -/
  | debugEnable (f : Src)
  /-- SECURITY_GET -/
  | securityGet (f : Src)
  /-- SENSOR_READ -/
  | sensorRead (f : Src)
  /-- ECC_LOG_GET -/
  | eccLogGet (f : Src)
  /-- REPAIR_RECORD -/
  | repairRecord (f : Src)
  /-- CHANNEL_RETRAIN -/
  | channelRetrain (f : Src)
  /-- EVENT_ROUTE -/
  | eventRoute (f : Src)
  /-- EVENT_RAISE -/
  | eventRaise (f : Src)
  /-- EVENT_GET -/
  | eventGet (f : Src)
  /-- TIME_GET -/
  | timeGet (f : Src)
  /-- TIME_ADJUST -/
  | timeAdjust (f : Src)
  /-- TIME_SOURCE -/
  | timeSource (f : Src)
  /-- FUNCTION_LEVEL_RESET -/
  | functionLevelReset (f : Func)
  /-- PCIE_PERST -/
  | pciePerst
  /-- QP_DOORBELL -/
  | qpDoorbell (q : Fin 256) (tail : BitVec 16)
  /-- QP_CQ_HEAD_WRITE -/
  | qpCqHeadWrite (q : Fin 256) (head : BitVec 16)
  /-- DMA_TX -/
  | dmaTx (q : Fin 256)
  /-- DMA_RX_BUF -/
  | dmaRxBuf (q : Fin 256)
  /-- DMA_MEM_READ -/
  | dmaMemRead (q : Fin 256) (pcieErr : Bool)
  /-- DMA_MEM_WRITE -/
  | dmaMemWrite (q : Fin 256) (pcieErr : Bool)
  /-- DESCRIPTOR_COMPLETE -/
  | descriptorComplete (q : Fin 256)
  /-- PORT32_OUTPUT -/
  | port32Output
  /-- RX_STALL_TIMEOUT -/
  | rxStallTimeout (q : Fin 256)
  /-- SUP_MEM_READ -/
  | supMemRead (t : Tid)
  /-- SUP_MEM_WRITE -/
  | supMemWrite (t : Tid)
  /-- BAR2_READ -/
  | bar2Read (f : Func) (off : BitVec 34)
  /-- SPINE_RESTART -/
  | spineRestart
  /-- BMC_COMMAND -/
  | bmcCommand (bytes : List Byte)
  /-- EVENT_ASSERT -/
  | eventAssert (src : BitVec 10)
  /-- COALESCE_GAP_END -/
  | coalesceGapEnd (src : BitVec 10)
  /-- EVENT_STUCK -/
  | eventStuck (src : BitVec 10)
  /-- EVT_STATUS_CLEAR -/
  | evtStatusClear (viewer : Src) (k : BitVec 5) (bits : OnesWritten)
  /-- EVT_MASK_WRITE -/
  | evtMaskWrite (viewer : Src) (k : BitVec 5) (bits : BitVec 32)
  /-- TIME_STEP_GO -/
  | timeStepGo
  /-- PPS_EDGE -/
  | ppsEdge
  /-- REF_LOST -/
  | refLost
  /-- PPS_LOST -/
  | ppsLost
  /-- PPS_OUT -/
  | ppsOut
  /-- BOOT -/
  | boot (flashA : List Byte) (flashB : List Byte) (selfTest : Bool)
  /-- TAMPER -/
  | tamper
  /-- CHALLENGE_EXPIRY -/
  | challengeExpiry
  /-- RAIL_GOOD -/
  | railGood (r : Fin 8)
  /-- RAIL_LOST -/
  | railLost (r : Fin 8)
  /-- SYS_RESET -/
  | sysReset
  /-- FALLOW_PORT_START -/
  | fallowPortStart
  /-- FALLOW_FRAME -/
  | fallowFrame (p : EthPort) (frame : List Byte)
  /-- FALLOW_AGE -/
  | fallowAge (key : Nat)
  /-- FALLOW_HANDOVER -/
  | fallowHandover
  /-- FALLOW_PORT_SWITCH -/
  | fallowPortSwitch (p : EthPort)
  /-- FALLOW_STOP -/
  | fallowStop
  /-- SPINE_UP_TIMEOUT -/
  | spineUpTimeout
  /-- SENSOR_SAMPLE -/
  | sensorSample (sites : List (BitVec 32))
  /-- GPIO_INPUT_CHANGE -/
  | gpioInputChange (n : Fin 16) (level : Bool)
  /-- GPIO_FILTER_ACCEPT -/
  | gpioFilterAccept (n : Fin 16)
  /-- GPIO_GAP_END -/
  | gpioGapEnd (n : Fin 16)
  /-- REF_LOCK -/
  | refLock (freq : BitVec 32)
  /-- SLEW_END -/
  | slewEnd
  /-- PCIE_LINK_CHANGE -/
  | pcieLinkChange (up : Bool)
  /-- JTAG_INSTRUCTION -/
  | jtagInstruction (ins : JtagIns)
  /-- SUP_DMA_COMPLETE -/
  | supDmaComplete (t : Tid)
  /-- MSIX_UNMASK -/
  | msixUnmask (f : Func) (vector : BitVec 8) (whole : Bool)
  /-- CAPTURE_READ -/
  | captureRead (sheaf : Bool)
  /-- PRBS_LOCK_CHANGE -/
  | prbsLockChange (p : EthPort) (lane : Fin 8) (lock : PrbsTold)
  deriving DecidableEq, Repr

end Sys2Proof
end

