-- ==== Sys2Proof/Decode.lean ====
section
/-! DEFINITION. The command that a word spells by the bits of spec/opcode_table.json: no row of that table has bits, so no word
spells one. (The words of Leaf instructions, 08, are read in Machine/Leaf.lean from the encodings of Machine/Operands.lean.) -/

namespace Sys2Proof

/-- The command spelled by the `nbits` bits `w`, numbered as the table numbers them: none, since the table gives no row bits. -/
def decodeTableWord (_nbits _w : Nat) : Option Instr := none

end Sys2Proof
end

