-- ==== Sys2Proof/Config.lean ====
section
/-! DEFINITION. What an implementation fixes, and the values the spec leaves open: opaque constants, which nothing in Lean
can evaluate. -/

namespace Sys2Proof

/-- A value the spec leaves open: applied to the model's counter of free values (log 1). -/
opaque Config.freeValue : Nat → Nat

/-- The first microaddress of the ROM routine of Tooling function n, n below 48 (09; the spec gives no ROM content). -/
opaque Config.romRoutine : Nat → Nat

/-- The microword at a ROM microaddress (R276; the spec gives no ROM content). -/
opaque Config.romWord : Nat → BitVec 32

/-- Whether a calibration step of a memory falls in a round: by the round and the resource, 0 buffer memory, 1 table memory (R423; the spec gives no
period). -/
opaque Config.recalDue : Nat → Nat → Bool

/-- The MAC address of an Ethernet port, the source address of the MAC Control frames it sends (R333; the spec gives none). -/
opaque Config.macAddress : Nat → Nat

/-- What a parse reads of a frame byte beyond its window (R55; the spec states no value). -/
opaque Config.beyondWindow : Nat → Byte

/-- The data bit whose column of a SEC-DED code equals a mask of check bits, if one does (R402, R414; the spec gives no code's columns). Class,
then mask. -/
opaque Config.eccColumn : Nat → Nat → Option Nat

/-- What the symbol code of table memory corrects for check bits that differ by a mask: the exclusive or it applies to the data of the line, or
nothing where the error is uncorrectable (R402; the spec gives no code). -/
opaque Config.eccCorrection : Nat → Option Nat

/-- How far Fallow lets the frames it takes run ahead of 800 Gb/s, in bits, and of 1.2 Gpps, in fifths of a frame (R503; the spec gives no
interval over which it measures). -/
opaque Config.fallowBurst : Nat × Nat

/-- The size in bytes of a memory whose size the spec does not give, by window and instance (R407, entry 9). -/
opaque Config.memorySize : Nat → Nat → Nat

/-- The byte address at which a unit keeps an item of its own state, where the spec gives no layout (R402): by 128 times the window plus the
memory instance, then by item. -/
opaque Config.stateAddr : Nat → Nat → Nat

/-- The device, 0 to 9, to which the symbol code of table memory confines an error, by the check bits in which a line differs (R402, R408). -/
opaque Config.errorDevice : Nat → Nat

/-- The SRAM macros that a memory instance is made of, by window and instance, the macro in which a byte of it lies, and the spare rows and columns
that the fuse map has used in a macro (R415; the spec gives no floor plan). -/
opaque Config.macros : Nat → Nat → Nat
opaque Config.macroOf : Nat → Nat → Nat → Nat
opaque Config.fusedSpares : Nat → Nat → Nat → Nat × Nat

/-- The refreshes the memory's standard lets be postponed and pulled in (R392): table memory or not, fine granularity mode or
not. -/
opaque Config.refreshLimits : Bool → Bool → Nat × Nat

/-- A channel's sampling generator (R395; the spec gives no algorithm): the content after a sample, and the sample it gives. -/
opaque Config.generatorNext : BitVec 64 → BitVec 64
opaque Config.generatorSample : BitVec 64 → Nat

/-- The DeviceID public keys of the part, the P-384 point before the ML-DSA-87 key (R468). -/
opaque Config.identityKeys : List Byte

/-- A signature of a message under a key of the device and an algorithm (0 ECDSA P-384, 1 ML-DSA-87). Keys: 1 the DeviceID keys,
else the attestation pair of a CDI, whose little-endian number is two less (R467, R469). -/
opaque Config.sign : Nat → Nat → List Byte → List Byte

/-- Whether a signature verifies under a signer and an algorithm (R472, R491). Signers: 0 to 3 Faristoa's keys, else the owner keys of a digest,
whose little-endian number is five less. -/
opaque Config.verify : Nat → Nat → List Byte → List Byte → Bool

/-- The two public keys in an owner's certificate, none where it is none; whether both its signatures are proof of possession;
and whether its transfer signatures verify under the owner keys of a digest, none where it carries none (R477; the spec gives
no layout). -/
opaque Config.certKeys : List Byte → Option (List Byte)
opaque Config.certProof : List Byte → Bool
opaque Config.certTransfer : List Byte → List Byte → Option Bool

/-- The certificates of the device (R467), as the attestation report and WRAP_KEYS carry them: for the state's CDI. -/
opaque Config.certChain : List Byte → List Byte
opaque Config.wrapChain : List Byte

/-- The ML-KEM-1024 decapsulation and the ECDH P-384 x-coordinate under the device's wrapping keys (R480). -/
opaque Config.kemSecret : List Byte → List Byte
opaque Config.ecSecret : List Byte → List Byte

/-- A draw of the true random number generator: 32 bytes, by the model's counter (R488). -/
opaque Config.random : Nat → List Byte

/-- The DICE layer-0 CDI, the digest of the boot ROM, and the image key (R467, R469, R486). -/
opaque Config.cdi0 : List Byte
opaque Config.romDigest : List Byte
opaque Config.imageKey : List Byte

/-- The 256 bytes of a Clasp context's image that hold its hidden state, as a number, by what it holds (R259, R269; the spec gives no form). -/
opaque Config.hiddenImage : List (List Byte) → Nat

/-- What the payload of a Sheet set holds (R175; no layout given): program words by word address, and its four addresses: supervisor
entry and handler, worker entry and handler. -/
opaque Config.sheetSet : List Byte → List (Nat × BitVec 32) × (Nat × Nat × Nat × Nat)

/-- What the payload of a microcode patch or owner microcode image holds (R277; no layout given): words by microaddress, and
register values by their offset in the Quire's window (decode entries and match registers). -/
opaque Config.microcode : Nat → List Byte → List (Nat × BitVec 32) × List (Nat × BitVec 32)

/-- The Faristoa key indices that an image of Faristoa revokes, as a mask (19; the spec does not say where the image names them). -/
opaque Config.revokes : List Byte → Nat

/-- Where in Spine's staging store the image of a handle lies (log 37). -/
opaque Config.stagingPlace : Nat → Nat

/-- Whether Spine's staging store lies in table memory, or in buffer memory: which of the two FIRMWARE_LOAD tokens a load from it draws
(R423, R474). DESIGN CHOICE (log 96): the spec does not say where it lies. -/
opaque Config.stagingInTable : Bool

/-- The two candidate buckets of an entry of Fallow's learning table, by its key (R502; no hash given). -/
opaque Config.fallowBuckets : Nat → Nat × Nat

/-- The customer logic of coprocessor c of a TLU3200-C, 4 to 7: its register count, its parts per register and its
identifier (R273); none where none is attached. -/
opaque Config.customLogic : Nat → Option (Nat × Nat × Nat)

end Sys2Proof
end

