-- ==== Sys2Proof/Machine/State.lean ====
section
/-! DEFINITION. The state of the TLU3200 block: plain data, every piece of state spec/ gives the machine. Registers of the
register maps live in one store keyed by window and offset; what a unit holds beside them stands in the unit's own
structure. `State.reset` is the machine right after device reset. -/

namespace Sys2Proof.Machine

/-- Why a step can stop with a fault. No meaning of this model raises one: every access that the spec calls out has an
effect the spec gives. -/
inductive Fault where
  /-- Raised by nothing: kept so that the type has a name for an access outside every window, which no operand can
  name. Safe. -/
  | noSuchWindow
  deriving DecidableEq, Repr

/-- Why a step can be refused. -/
inductive Refusal where
  /-- Raised by an arm of `exec` whose command has no meaning yet, with its mnemonic. Safe. -/
  | notModelled (mnemonic : String)
  deriving DecidableEq, Repr

/-- A sparse table: pairs of a number and a value, in rising order of the number, at most one for each number. -/
abbrev SMap (α : Type) := List (Nat × α)

/-! ### Gatherings (01) -/

/-- The states of R19, in the code order of UCB_STATE. -/
inductive GState where
  | absent | off | starting | inService | quiescing | quiet | updating | failed
  deriving DecidableEq, Repr

/-- The roles of R15, in the code order of UCB_STATE. -/
inductive Role where
  | bound | spare | retired
  deriving DecidableEq, Repr

/-- The commands of UCB_CTRL but NOP, which is no command (R539). -/
inductive UcbCmd where
  | start | drain | stop | reset | update | resume | bindSpare
  deriving DecidableEq, Repr

/-- A tipping-in in progress of a group (R513, R112): the positions, how many rows a Ling copy has done, and whether the spare has
been started. -/
structure TipJob where
  target : Nat
  spare : Nat
  rows : Nat
  begun : Bool
  deriving DecidableEq, Repr

/-- What a Gathering holds beside its registers: its own logic's state, its role, the TIME cycle at which the own
state was entered, the command in progress (busy, R540), a tipping-in in progress, what R542 found at START, 0 where nothing is to
be written, and whether this QUIESCING has passed its limit, so that only RESET ends it (R22). -/
structure Gath where
  own : GState
  role : Role
  entered : Nat
  cmd : Option UcbCmd
  tip : Option TipJob
  found : Nat
  timedOut : Bool
  deriving DecidableEq, Repr

/-! ### Device time (18) -/

/-- The time unit: device time in ns, the 10^-9 ns fraction not yet a whole ns, the TIME cycles since device reset, the
slew still to be taken up in half ns (R460), whether it has been LOCKED since its source was selected (R462), the flags of R462,
the TIME cycle of the latest accepted edge, the whole seconds TIME_PPS_OUT has shown, and since it rose the cycle at which it falls
(R464). -/
structure TimeSt where
  ns : Word64
  frac : Nat
  cycles : Nat
  slewHalf : Nat
  wasLocked : Bool
  refOk : Bool
  ppsOk : Bool
  lastPps : Option Nat
  seconds : Nat
  ppsFall : Option Nat
  deriving DecidableEq, Repr

/-! ### Packets, Tedder (02), Windrow (03) -/

/-- Where a packet is (R28). `rx`: admitted and not yet parsed. `handed`: in its Windrow lane. `gone`: it has ended, and only
references hold its cells. -/
inductive Place where
  | rx | parsed | handed | classifying | laneOut | kettle | gone
  deriving DecidableEq, Repr

/-- The generation of a fragment entry that a non-first fragment is bound to (R69): none found, or its key and
generation. `notLooked`: no lookup was made. -/
inductive FragBind where
  | notLooked
  | noEntry
  | bound (key : Nat) (gen : Nat)
  deriving DecidableEq, Repr

/-- A check that needs the frame's length, kept from the parse for the moment of R49 (R63): the node's place in parse
order, and which check with its numbers. -/
inductive LenCheck where
  | totLen (node total start : Nat)
  | payLen (node pay after : Nat)
  | udpLen (node len payload : Nat)
  | l2Len (node field after : Nat)
  deriving DecidableEq, Repr

/-- Where a header ends at which R66 stopped a parse: at a byte of the frame, or a header whose length is read beyond the window: its
start and its node entry, from which the frame gives the length (R55 step 2). -/
inductive StopEnd where
  | at (stop : Nat)
  | read (start : Nat) (entry : List Byte)
  deriving DecidableEq, Repr

/-- A parse as far as it has gone or as it ended (R55 to R67): the next node and header start, the parse record, the
flags, what has been counted, the reasons raised by (place of the node, code), the checks left for R49, the
header end at which R66 stopped it with the place of that node, the limit flag it was truncated under, the
payload ends of R61 and of R62's L4 checks, the first datagram's end (R64), the addresses of the latest IPv6 header, and
the fragment facts of R69. -/
structure Walk where
  pos : Nat
  node : Nat
  nodes : Nat
  last : Nat
  record : List Byte
  flags : Nat
  present : Nat
  vlan : Nat
  mpls : Nat
  tunnel : Nat
  reasons : List (Nat × Nat)
  lenChecks : List LenCheck
  stopEnd : Option (Nat × StopEnd)
  limit : Option Nat
  extEnd : Option Nat
  inExt : Bool
  l4End : Option Nat
  udpEnd : Option Nat
  behindFrag : Bool
  tinyEnd : Option Nat
  firstIp : Option Nat
  v6addrs : Nat
  fragSeen : Bool
  fragFirst : Bool
  fragLater : Bool
  fragV6 : Bool
  fragKey : Nat
  ctx : Nat
  deep : Bool
  bank : Bool
  window : Nat
  malAction : Nat
  truncAction : Nat
  fragMissAction : Nat
  deriving DecidableEq, Repr

/-- A packet in the device, from the first cell of its frame to the end of its last reference: its ingress port and
priority, its timestamp, its bytes as received without the FCS, whether the frame is complete (R543), the context its
injecting descriptor names (R50), its handle (R299), where it is, its parse, the exception code Tedder forces (R67, R81), its
classification record (R80), the stage it is in with that stage's key (R83), whether the profile has ended, the
fragment binding, the time its output began to wait (R70), its wait for a learn verdict (R138): its end and the verdict, 0 while
none is there, 1 to 5 as R133 lists them, 6 once the wait is over; the stage slot as the stage began (R93); and whether
it met a bad action word or jump, which its lane output counts (R87, R95). -/
structure Packet where
  port : Nat
  prio : Nat
  ts : Word64
  bytes : List Byte
  complete : Bool
  descCtx : Option Nat
  handle : Option Nat
  place : Place
  parse : Option Walk
  record : List Byte
  exc : Option Nat
  fragBind : FragBind
  fragFirstKey : Option Nat
  fragMissAction : Nat
  profile : Nat
  stage : Nat
  stageKey : List Byte
  profileDone : Bool
  md : BitVec 512
  waitSince : Option Nat
  learnWait : Option (Nat × Nat)
  arrived : Nat
  stageSlot : List Word32 := []
  badAct : Bool := false
  engine : Option Nat := none
  deriving DecidableEq, Repr

/-- An entry of the fragment table (R69 to R72): its generation, whether it is VALID, the classification record it holds,
the device time of its creation, its life in ms and the port of its packet. -/
structure FragEntry where
  gen : Nat
  valid : Bool
  record : BitVec 512
  created : Nat
  ageMs : Nat
  deriving DecidableEq, Repr

/-- Tedder beyond its registers: the two graph banks (R52, R545), whether a switch is on its way to the lanes, a standby
load that waits for it (R58), and the fragment table by key with its next generation. -/
structure TedderSt where
  bank0 : List Byte
  bank1 : List Byte
  seenActive : Bool
  loadWaiting : Option (List Byte)
  frags : SMap FragEntry
  nextGen : Nat
  deriving DecidableEq, Repr

/-- An indirect command captured at go (R541): its op, its address register and its data registers. -/
structure IndCmd where
  op : Nat
  addr : Word32
  data : List Word32
  deriving DecidableEq, Repr

/-- Windrow beyond its registers: the direct store (16-byte action words by entry), the range store (32-byte entries),
the exception buckets by tenant (tokens in units of 1/1000 packet), the indirect commands captured and waiting, per lane the packets
in the order received (R76), and the TIME cycle of the latest refill of the buckets (R89). -/
structure WindrowSt where
  direct : SMap Word128
  range : SMap (BitVec 256)
  excTokens : SMap Nat
  ind : List IndCmd
  lanes : SMap (List Nat)
  refilled : Nat
  deriving DecidableEq, Repr

/-! ### Loft (11) -/

/-- The metadata word of one cell (R301). -/
structure CellMeta where
  tenant : Nat
  refs : Nat
  port : Nat
  prio : Nat
  last : Bool
  head : Bool
  alloc : Bool
  next : Nat
  deriving DecidableEq, Repr

/-- A pool's stack of free cells (R302, R303): the indices pushed by frees, top first, and below them the first `rest`
cells of the range, pushed in ascending order and never yet taken; `ready` once every cell has been pushed. -/
structure PoolStack where
  pushed : List Nat
  rest : Nat
  ready : Bool
  deriving DecidableEq, Repr

/-- Loft beyond its registers: the cells' metadata by pointer, each pool's free stack, the cells in use by (port,
priority), the cells charged by (tenant, pool), the deferred list of R517, each a pool and an index, and what the registers of tenants' classes
and caps held before writes that packets in flight do not see, oldest first: offset, the first packet that sees the write, the value before. -/
structure LoftSt where
  cells : SMap CellMeta
  poolStacks : SMap PoolStack
  usage : SMap Nat
  used : SMap Nat
  deferred : List (Nat × Nat)
  former : List (Nat × Nat × Word32)
  deriving DecidableEq, Repr

/-! ### Sheaf reports (14) -/

/-- One event of R550 on its way to Sheaf: its tenant, its device time, the counters it touches with what each adds, and
the flow of Rick it also counts for (R374). -/
structure Report where
  tenant : Nat
  ts : Word64
  adds : List (Nat × Nat)
  rick : Option Nat
  deriving DecidableEq, Repr

/-! ### Ling (04) -/

/-- One row of a bank and its shadow (R97, R110): data, care, valid and the stored parity bit; then the shadow's copies. -/
structure LingRow where
  data : BitVec 160
  care : BitVec 160
  valid : Bool
  parity : Bool
  sdata : BitVec 160
  scare : BitVec 160
  svalid : Bool
  deriving DecidableEq, Repr

/-- A MOVE_BLOCK in progress (R107): the entry copied next and whether entries move down, the copies left, where the new
entry goes, and the entries moved so far. -/
structure LingMove where
  src : Nat
  down : Bool
  left : Nat
  place : Nat
  moved : Nat
  deriving DecidableEq, Repr

/-- A command captured at go (R103): op, dir, database, index, data, care and action words, its move once begun, and whether go was written
while Ling took no new work (R22). -/
structure LingCmd where
  op : Nat
  dir : Nat
  db : Nat
  index : Nat
  data : BitVec 640
  care : BitVec 640
  act : Word128
  move : Option LingMove
  late : Bool := false
  deriving DecidableEq, Repr

/-- Ling beyond its registers: rows and action words by 4,096 times the bank position plus the row, each block's commands,
the first in progress, the entries lost and not yet read, by 4,096 times the slot plus the row, the holder of each block (R444; 255 is
Spine; log 5), and the slot that a spare copy fills (R112). -/
structure LingSt where
  rows : SMap LingRow
  acts : SMap Word128
  blocks : SMap (List LingCmd)
  lost : List Nat
  holders : SMap Nat
  copying : List Nat
  deriving DecidableEq, Repr

/-! ### Warren (05) -/

/-- A bucket line of the cache (R122): its memory, its address there, its bytes, and whether they are newer than memory's. -/
structure WarrenLine where
  table : Bool
  addr : Nat
  data : List Byte
  dirty : Bool
  deriving DecidableEq, Repr

/-- How a Warren command or learn ended: its result or verdict code, entry index, the entry's flag bits of WARREN_STATUS, action
word and key. -/
structure WarrenEnd where
  code : Nat
  index : Nat
  flags : Nat
  action : Word128
  key : List Byte
  deriving DecidableEq, Repr

/-- A breadth-first search for a displacement path under way (R127): the buckets read so far, those still to be expanded, each with its bytes as
read and the moves that lead to it, latest first, and the way of the first of them that comes next. -/
structure WarrenHunt where
  seen : List Nat
  todo : List (Nat × List Byte × List (Nat × Nat × Nat))
  way : Nat
  deriving DecidableEq, Repr

/-- One writer's or reader's work at Warren: a command captured at go (R125), a thread's command (R129) or a learn or move
(R133). `who`: 0 to 3 the block of an engine, 4 the learn engine, 8 plus a thread. `op`: R125, 16 a learn, 17 a move.
Then: the engine that performs it, the buckets it owns (R126), the Warren tokens drawn for the writes that come next (R143), the displacement
moves left, from the free end (bucket and way, to bucket and way), the place the new entry then takes (R127), and how it ended. For
threads: dst, event, tenant and ts. For learns: the port and the packet that waits, and event 1 for a copy of the handover from Fallow (R506).
Last: whether a bucket was read from memory, the search
for a path under way and the path it found, what a LOOKUP found whose hit bit is still to be set, the buckets it has read, the bucket whose
token for a read is drawn, and whether it waits for its turn to displace entries (R126, R143). -/
structure WarrenJob where
  who : Nat
  op : Nat
  table : Nat
  index : Nat
  key : List Byte
  data : Word128
  cmp : Word64
  static : Bool
  peek : Bool
  valid : Bool
  engine : Option Nat
  owns : List Nat
  drawn : Nat
  path : List (Nat × Nat × Nat × Nat)
  place : Option (Nat × Nat)
  ended : Option WarrenEnd
  dst : Nat
  event : Nat
  tenant : Nat
  ts : Word64
  port : Nat
  pid : Option Nat
  fromMem : Bool := false
  hunt : Option WarrenHunt := none
  plan : List (Nat × Nat × Nat × Nat) := []
  found : Option WarrenEnd := none
  read : List Nat := []
  paid : Option Nat := none
  turn : Bool := false
  deriving DecidableEq, Repr

/-- A table's age sweep (R140 to R143): the bucket visited next, the device time from which the visits of this lap are due, the time its lap
began, whether the lap was reported late, whether a token for the next read is drawn, and, once the bucket is read, its ways still to be
dealt with, each with the hit bit it had. -/
structure WarrenSweep where
  next : Nat
  base : Nat
  began : Nat
  late : Bool := false
  paid : Bool := false
  todo : Option (List (Nat × Bool)) := none
  deriving DecidableEq, Repr

/-- A bucket of which Warren has read some lines from memory and not all (R421): its memory and address, the bytes so far, and whether a line of
them was uncorrectable. -/
structure WarrenFill where
  table : Bool
  addr : Nat
  data : List Byte
  bad : Bool
  deriving DecidableEq, Repr

/-- Warren beyond its registers: the pinned cache, the cached lines, least recently used first, the commands of each engine's
block and of each thread, the pending store, oldest first (R135), the writers waiting for ownership, in order of arrival, with their
tables and buckets (R126), the learn tokens in 1/1000 learn with the time of their count, the age sweeps by table, the holder of each block
(R444; 255 is Spine; log 5), and the buckets being read. -/
structure WarrenSt where
  pin : List Host.Cell
  lines : List WarrenLine
  blocks : SMap (List WarrenJob)
  threads : SMap (List WarrenJob)
  learns : List WarrenJob
  waitq : List (Nat × Nat × List Nat)
  tokens : Nat
  tokensAt : Nat
  age : SMap WarrenSweep
  holders : SMap Nat
  fills : List WarrenFill := []
  deriving DecidableEq, Repr


/-! ### Kettle (06) -/

/-- A task (R152): the position it belongs to and its node, its parent's node, tenant, order domain, Sheet entry, budget,
arguments, header bytes of its window and records, how many children it has forked, the join of R162 (thread, event,
the forking task), the Leaf it is bound to, the thread that took it, the slots it has used, and whether it waits in its
tenant's quota list (R156), the ts and packet its reports name, and its place in
the order of arrival on the ready lists. -/
structure Task where
  pos : Nat
  node : Nat
  parent : Nat
  child : Bool
  tenant : Nat
  od : Nat
  entry : Nat
  budget : Nat
  args : List Word64
  hdr : List Byte
  frameLen : Nat
  forks : Nat
  join : Option (Nat × Nat × Nat)
  leaf : Option Nat
  taken : Option Nat
  slots : Nat
  quotaWait : Bool
  ts : Word64
  pid : Nat
  arrived : Nat
  deriving DecidableEq, Repr

/-- An output on its way from Kettle to the wire: its packet, its tenant, its queue, whether it is the mirror copy with
its truncation (64-byte units), its edit script, its record, whether it is an exception packet, its length after the edit, and the
ingress timestamp of its packet. -/
structure OutDesc where
  pid : Nat
  tenant : Nat
  queue : Nat
  mirrorTrunc : Option Nat
  script : List Byte
  md : BitVec 512
  exc : Bool
  len : Nat
  ts : Word64
  deriving DecidableEq, Repr

/-- A position of an order domain (R163): its packet, tenant and order domain, the next node number, the nodes not yet
ended, whether the packet's own reference is still held, the mirror copy, the outputs by node, the reason it was dropped for, the drops of its nodes to report, whether
its release has begun, the cycle it became head, and its packet's ingress timestamp, length and record, which its drops report. -/
structure Position where
  pid : Nat
  tenant : Nat
  od : Nat
  nextNode : Nat
  live : List Nat
  ownRef : Bool
  mirror : Option OutDesc
  outs : List (Nat × OutDesc)
  dropped : Option Nat
  nodeDrops : List Nat
  releasing : Bool
  headSince : Option Nat
  ts : Word64
  len : Nat
  md : BitVec 512
  deriving DecidableEq, Repr

/-- A packet handed to a Kettle lane and not yet given a position (R88, R146): whether the packet itself goes on or only
its mirror copy, and the exception queue it is sent to. `stalled`: R157 step 4 or R169 held it. -/
structure Intake where
  pid : Nat
  alive : Bool
  exception : Option Nat
  mirror : Option OutDesc
  stalled : Bool
  deriving DecidableEq, Repr

/-- Kettle beyond its registers: tasks by number (the order of their creation), positions by number (the order of their
arrival), the tokens held by each tenant, each tenant's task count, the affinity map by order domain (Leaf number
9 times the Quire plus the position), the packet at each lane's intake, the
positions whose release has begun, in that order, and the next numbers. -/
structure KettleSt where
  tasks : SMap Task
  positions : SMap Position
  tokens : SMap Nat
  taskCount : SMap Nat
  affinity : SMap Nat
  intake : SMap Intake
  releaseQ : List Nat
  nextTask : Nat
  nextPos : Nat
  nextSeq : Nat
  deriving DecidableEq, Repr

/-! ### Commons (17) -/

/-- The Commons agents (R419 to R421): tokens left this round, and the tokens that waiting indivisible work holds with the source whose
work it is, by 5 times the class plus the resource; the classes that waited in the round that runs; each class's run of rounds in which it
waited; the rounds begun; and, of each Gathering's load from the staging store under way, the lines whose tokens are drawn (R474). -/
structure CommonsSt where
  tokens : SMap Nat
  held : SMap (Nat × Nat)
  waited : SMap Bool
  runs : SMap Nat
  round : Nat
  loads : SMap Nat
  deriving DecidableEq, Repr

/-! ### ECC (16) -/

/-- A codeword whose check bits or whose bytes as the model holds them differ from what was stored (R402 to R406): the window and
instance of its memory, its byte address in the instance, the check bits in which it differs, whether it is poisoned, the
exclusive or between the bytes held and the bytes that a correctable read returns, and the check bits in which a fault of the memory itself
makes every content of it differ: zero where it has none (R411). -/
structure EccErr where
  win : Nat
  inst : Nat
  addr : Nat
  mask : Nat
  poison : Bool
  flip : Nat
  stuck : Nat
  deriving DecidableEq, Repr

/-- One entry of a memory instance's log (R407). -/
structure LogEntry where
  addr : Nat
  syndrome : Nat
  count : Nat
  ucor : Bool
  hard : Bool
  deriving DecidableEq, Repr

/-- The log of one memory instance (R407): its eight entries and its totals, corrected, uncorrected, overflow. -/
structure InstLog where
  entries : SMap LogEntry
  corrected : Nat
  uncorrected : Nat
  overflow : Nat
  deriving DecidableEq, Repr

/-- A hard error queued for repair (R411, R418): kind, window, instance, address, mask. -/
structure RepairEntry where
  kind : Nat
  win : Nat
  inst : Nat
  addr : Nat
  info : Nat
  deriving DecidableEq, Repr

/-- ECC and Mower beyond the registers: the codewords in error, the logs by 128 times the window plus the instance, the
summary entries by place, the repair queue, and per scrub target the time its lap began, whether its overdue event was raised and
the codewords visited (window, instance, address); the repairs that units have applied (R417, R418); the codewords read corrected and not
yet written back (window, instance, address), each with whether another write has been performed since (R410); and the repair entries that Spine
has taken from the queue for its records (R416). -/
structure MowerSt where
  errs : List EccErr
  logs : SMap InstLog
  summary : SMap (BitVec 128)
  hardQueue : List RepairEntry
  lapStart : SMap Nat
  lapLate : SMap Bool
  lapSeen : SMap (List (Nat × Nat × Nat))
  repaired : List RepairEntry
  back : List ((Nat × Nat × Nat) × Bool)
  collected : List RepairEntry
  deriving DecidableEq, Repr

/-! ### Memory controllers (15) -/

/-- A performed request: the data a read returns, whether it ends with an uncorrectable error (R384, R405), and which of its bytes that error
is about: the offset and length of each stretch of data sent poisoned, or of a write not performed. -/
structure MemDone where
  data : List Byte
  bad : Bool
  poison : List (Nat × Nat)
  deriving DecidableEq, Repr

/-- A request of a source on its way to buffer or table memory (R390): its number, which memory, its address and length, the
data of a write, the operation of an atomic (operation, operand, comparand, whether 64 bits wide), its activity class,
whether it has been held under R399 or counted as waiting under R398, and how many bytes of it have been issued and what they returned (R421). -/
structure MemReq where
  id : Nat
  table : Bool
  addr : Nat
  len : Nat
  write : Option (List Byte)
  amo : Option (Nat × Word64 × Word64 × Bool)
  cls : Option Nat
  held : Bool
  waited : Bool
  done : Nat
  got : MemDone
  deriving DecidableEq, Repr

/-- A request in a channel queue (R389): the request's number, whether it writes, whether it is a real-time read, its bank and
row, the columns left, when it entered, whether an activate was made for it, its region of table memory (16: buffer memory; R388), its
first and last byte as channel addresses, which tell what it must not pass (R390), and whether a forced operation has held it back (R397). -/
structure ChReq where
  id : Nat
  write : Bool
  rt : Bool
  bank : Nat
  row : Nat
  cols : Nat
  entered : Nat
  act : Bool
  region : Nat
  lo : Nat
  hi : Nat
  held : Bool
  deriving DecidableEq, Repr

/-- An open bank (R386 to R388): its row, its latest column access, the policy and idle value of that access, and whether its
timer has reached zero. -/
structure BankSt where
  row : Nat
  touched : Nat
  compat : Bool
  idle : Nat
  expired : Bool
  deriving DecidableEq, Repr

/-- A neighbour-row refresh pending (R394): its bank, its row, when it was marked, and the radius then. -/
structure NrrMark where
  bank : Nat
  row : Nat
  marked : Nat
  radius : Nat
  deriving DecidableEq, Repr

/-- A command scheduler (R389, R392 to R394): its queue, its open banks, its refresh debt, whether it drains writes, and the
neighbour-row refreshes pending. -/
structure SchedSt where
  queue : List ChReq
  banks : SMap BankSt
  debt : Int
  draining : Bool
  nrr : List NrrMark
  deriving DecidableEq, Repr

/-- A channel: in self-refresh and since when, when its queues became empty, and its sampling generator with when it was last seeded (R395). -/
structure ChanSt where
  selfRefresh : Option Nat
  idleSince : Nat
  gen : Word64
  seeded : Nat
  deriving DecidableEq, Repr

/-- The memory controllers beyond their registers: buffer memory by its address, and table memory by channel and channel address (2^38 times
the channel plus the address, R382), the requests waiting by source (4 times the
thread plus its space, 8,192 plus the queue pair, or from 16,384 on a unit's request of an address), the requests performed by number, the schedulers (buffer 0 to 63,
table 64 plus the rank), the channels by window, since when each stack is in panic, with the cycles counted, and the next
request number. -/
structure MemSt where
  buffer : List Host.Cell
  table : List Host.Cell
  waiting : SMap (List MemReq)
  done : SMap MemDone
  scheds : SMap SchedSt
  chans : SMap ChanSt
  panicSince : SMap Nat
  panicCounted : SMap Nat
  nextId : Nat
  deriving DecidableEq, Repr

/-! ### Ports, MACsec and Finisher (13) -/

/-- A MACsec security association (R349): its SAK, salt, SSCI, SCI, next PN to send or lowest acceptable PN, the owner's key
id, and whether its threshold event has been raised. -/
structure MacsecSa where
  sak : List Byte
  salt : List Byte
  ssci : Word32
  sci : Word64
  pn : Nat
  keyId : List Byte
  warned : Bool
  deriving DecidableEq, Repr

/-- The MACsec association that a frame on its way in came under (R351): its slot, the frame's PN, the slot's generation, and the
association as it stood when the frame began, so that an install takes effect between two frames (R349). -/
structure RxSec where
  slot : Nat
  pn : Nat
  gen : Nat
  sa : MacsecSa
  deriving DecidableEq, Repr

/-- A frame at a port on its way into Loft (R543): the bytes received from the wire, the bytes delivered (no FCS, no
SecTAG), its timestamp, whether its last bytes are delivered, the context its descriptor names, the packet it became,
the Sheaf counter of the reason it was dropped for, if it is discarded as it arrives, whether it was told to WAIT (R304), the MACsec
association it came under, whether it found no token (R308), and the queue pair and descriptor that sent it (R445). -/
structure RxFrame where
  wire : List Byte
  bytes : List Byte
  ts : Word64
  whole : Bool
  descCtx : Option Nat
  pid : Option Nat
  refused : Option Nat
  waitTold : Bool
  sec : Option RxSec
  noToken : Bool
  qp : Option (Nat × Nat)
  deriving DecidableEq, Repr

/-- A port beyond its registers: the frames being received, oldest first (R306), the MAC Control frames to send (R333),
the frames sent on the wire, the outputs handed over and not yet sent, the SAs by slot (0 to 3 transmit, 4 + 4 times
the receive channel + AN) and the slots' generations (R481, R483), per priority the device time at which a received pause ends and since when it runs, and when
each priority's XOFF frame was last due (R333; entry 8 is that of PAUSE mode). -/
structure PortSt where
  rx : List RxFrame
  ctl : List (List Byte)
  wireOut : List (List Byte)
  txq : List Nat
  sas : SMap MacsecSa
  saGens : SMap Nat
  pauseEnd : SMap Nat
  pauseSince : SMap Nat
  pfcSent : SMap Nat
  deriving DecidableEq, Repr

/-! ### Drover (12) -/

/-- What a node holds beside its entry (R328 to R332): whether it is in its parent's ring with its deficit, round and place
of entry, its own ring's round number, the entry its shaper applies, the committed and peak tokens in units of 2^-16
byte, the fractions carried in 1/8000 of that unit, and the device time of its latest refill. -/
structure NodeDyn where
  inRing : Bool
  deficit : Int
  round : Nat
  seq : Nat
  ringRound : Nat
  applied : BitVec 256
  cTok : Int
  pTok : Int
  cFrac : Nat
  pFrac : Nat
  last : Nat
  deriving DecidableEq, Repr

/-- The exact buckets of a policer (R323), in 1/8000 byte, and the device time of its latest use. -/
structure PolDyn where
  tc : Int
  tp : Int
  last : Nat
  deriving DecidableEq, Repr

/-- Where an output is: queued in Drover, selected for Finisher, with Finisher waiting for its cells, being edited, or edited
and waiting for its MAC or internal port. -/
inductive OutPlace where
  | queued | selected | finisher | editing | edited
  deriving DecidableEq, Repr

/-- An output from its admission by Drover to its end: its descriptor, its port, L (R324), its tenant node, where it is, the
frame as edited so far, the place in the script, the number of its real-time reads, the TSTAMP data to apply (R357) and the context of RECIRC. -/
structure Output where
  desc : OutDesc
  port : Nat
  len : Int
  tnode : Nat
  place : OutPlace
  frame : List Byte
  opPos : Nat
  readId : Option Nat
  tstamp : Option (Nat × Nat × Nat)
  recirc : Option Nat
  deriving DecidableEq, Repr

/-- Drover beyond its registers: node and policer entries (R319) and queue statistics, the nodes' and policers' running
state, the queues' outputs, the outputs handed over by Kettle and not yet taken, with a mark on the first of a position,
and the colour decided for the position being taken, the outputs by number, and the outputs selected and not yet
taken by Finisher, by lane. -/
structure DroverSt where
  nodes : SMap (BitVec 256)
  policers : SMap (BitVec 256)
  stats : SMap (BitVec 256)
  dyn : SMap NodeDyn
  pol : SMap PolDyn
  queues : SMap (List Nat)
  handed : List (Bool × OutDesc)
  colour : Nat
  outs : SMap Output
  selected : SMap (List Nat)
  seq : Nat
  nextOut : Nat
  deriving DecidableEq, Repr

/-! ### Sheaf and Rick (14) -/

/-- The previous record (R549): its first minute and span, the end of its last covered minute, the settle time it took there,
whether it is frozen, the device time of its freeze (R371), and the lines its close has written (R363). -/
structure PrevRecord where
  first : Nat
  span : Nat
  endTime : Nat
  settle : Nat
  frozen : Bool
  freezeTime : Nat
  written : Nat
  /-- The signatures of its root record, made as the first root line is written, and whether there were keys to make them (R371, R469). -/
  sigs : Option (Bool × List Byte × List Byte) := none
  deriving DecidableEq, Repr

/-- One update of a flow of Rick (R374 to R376). -/
structure RickUpdate where
  flow : Nat
  minute : Nat
  late : Bool
  tenant : Nat
  ts : Word64
  pkts : Nat
  bytes : Nat
  drops : Nat
  deriving DecidableEq, Repr

/-- Sheaf and Rick beyond their registers: the banks' counters by 64 times the tenant plus the counter, which bank the current
record holds, c and its span, the utc offset in force, its changes, the latest first, each with its time, the offset before it and the last
minute before it, the previous record, the leaf hash of each tenant's previous record, the hash of the previous root record, Rick's cache by slot
address, its queue, and the captured upper half of SHEAF_QUERY_DATA (log 4). -/
structure SheafSt where
  bank0 : SMap Word64
  bank1 : SMap Word64
  curBank : Bool
  c : Nat
  span : Nat
  utc : Nat
  eras : List (Nat × Nat × Nat)
  prev : Option PrevRecord
  chains : SMap (List Byte)
  rootPrev : Option (List Byte)
  cache : SMap (BitVec 256)
  queue : List RickUpdate
  queryHi : Word32
  deriving DecidableEq, Repr

/-! ### Leaf threads (07, 08) -/

/-- A result on its way (R225): the number of its instruction, the number of the first instruction that sees it, and where it
goes: 0 to 31 a general register, 32 + n thread control register n, 64 the flags v and dz. -/
structure Pend where
  no : Nat
  due : Nat
  dst : Nat
  val : Word64
  deriving DecidableEq, Repr

/-- What a thread waits for (R173): WFE, WAITT and TAKE with their operands, FENCE, or the acceptance of a post. -/
inductive Wait where
  | none
  | wfe (gd : Nat) (mask : Word32)
  | waitt (gd : Nat) (mask : Word32) (gt : Word64)
  | take (gd : Nat)
  | fence
  | post (target : Nat)
  deriving DecidableEq, Repr

/-- The kinds of outstanding operations (R228). -/
inductive OpKind where
  | load | store | amo | xld | xst | lock | warren | fork | dma
  deriving DecidableEq, Repr

/-- An outstanding operation (R228): its number (of its memory request, or the model's own), the number of its instruction,
its kind, space, destination register, event bit, remote address, length, local address, word, what it carries (the data of a
write, or of a packet read), and for AMO the operation, operand and comparand; the packet read, and for a lock its number. -/
structure LeafOp where
  id : Nat
  no : Nat
  kind : OpKind
  sp : Nat
  dst : Nat
  ev : Option Nat
  addr : Nat
  len : Nat
  loc : Nat
  word : Word32
  data : List Byte
  amo : Option (Nat × Word64 × Word64)
  pid : Nat
  deriving DecidableEq, Repr

/-- Why a thread is stopped (R195, R200): what its fault record says, whether the record has been written,
and whether an automatic restart follows (R198). -/
structure FaultInfo where
  kind : Nat
  async : Bool
  handler : Bool
  hadTask : Bool
  tenant : Nat
  od : Nat
  node : Nat
  insn : Word32
  pc : Nat
  detail : Word64
  time : Word64
  recorded : Bool
  restart : Bool
  deriving DecidableEq, Repr

/-- One bank of routine state of a Tooling lane (R274): t0 to t7, OPS, OPT, OPD, RES, IMM, LINK, the next microaddress, whether the
routine started in the owner store, the microcycles run since its instruction last issued and the slots charged for them, and the stores
held in its segment (R279): whether in Quire shared memory, the address, the bytes. `left`: of a device-defined function, the slots it
still takes (R282). -/
structure Routine where
  t : List Word64
  ops : Word64
  opt : Word64
  opd : Word64
  res : Word64
  imm : Word64
  link : Word64
  upc : Nat
  owner : Bool
  ran : Nat
  paid : Nat
  stores : List (Bool × Nat × List Byte)
  left : Option Nat
  fails : Option Nat := none
  deriving DecidableEq, Repr

/-! ### Coprocessors (09) -/

/-- An accepted request that waits its turn in its context (R255 to R257): a CPOP with its function and register fields, the tenant and the
time of its task, the generation its key slot had as it was accepted (R268), and its result writes once it runs: registers with their
values; or an MTC accepted behind one: the part it writes of register `cd`, and the value. -/
structure CpOp where
  fn : Nat
  cd : Nat
  cs : Nat
  ct : Nat
  tenant : Option Nat
  ts : Word64
  gen : Nat
  mtc : Option (Nat × Word64)
  writes : Option (List (Nat × Nat))
  deriving DecidableEq, Repr

/-- A context of a coprocessor (R254): its registers, and the requests that have not taken effect, oldest first: a CPOP, and what was
accepted behind it (R255). -/
structure CpCtx where
  regs : SMap Nat
  ops : List CpOp
  deriving DecidableEq, Repr

/-- One of Clasp's computations in a context (R269): whether its INIT has begun it, the key it began with, its IV, and the bytes absorbed so
far: associated data, and ciphertext or message. -/
structure ClaspSum where
  begun : Bool
  key : Option (List Byte)
  iv : List Byte
  aad : List Byte
  data : List Byte
  deriving DecidableEq, Repr

/-- One that has not begun. -/
def ClaspSum.zero : ClaspSum := ⟨false, none, [], [], []⟩

/-- The hidden state of a Clasp context (R268, R269): the selected slot with its generation, the status bits, and the computations of GCM, of
CCP, of SHA-256 and HMAC, and of SHA-512. -/
structure ClaspHidden where
  sel : Option (Nat × Nat)
  status : Nat
  gcm : ClaspSum
  ccp : ClaspSum
  sha256 : ClaspSum
  sha512 : ClaspSum
  deriving DecidableEq, Repr

/-- The hidden state of a context that has been reset (R258). -/
def ClaspHidden.zero : ClaspHidden := ⟨none, 0, .zero, .zero, .zero, .zero⟩

/-- A thread (R211): what chapters 07 to 09 give it. `pc`: the next instruction, or the wait instruction it waits in.
`after`: while `inDelay`, where control passes after the delay slot, if the branch was taken. `issued`: how many
instructions it has issued. `stalled`: its latest slot went to an instruction that stalls unissued (R228, R259). `joins`: its children with
join_en that have not ended; `joinEnded`: one of its task's has (R201). `reqSince`: since when an entry or halt
waits for a boundary (R188). `quietSince`: since when it is quiet (R201).
`haltedSince`: since when it is halted (R166). `sevs`: the SEV
words it has sent and not yet delivered (R184). `orphans`: the DMA posts it made before its latest reset that have not ended (R210).
`notBefore`: the earliest cycle of its first instruction (R205). -/
structure Thread where
  started : Bool
  regs : SMap Word64
  pend : List Pend
  issued : Nat
  pc : Nat
  inDelay : Bool
  after : Option Nat
  annul : Bool
  flags : Word64
  events : Word32
  prompt : Word32
  evec : Nat
  epc : Nat
  handler : Bool
  forced : Bool
  timer : Word64
  tctl : Word64
  mpc : Option Nat
  bank0 : SMap Word64
  bank1 : SMap Word64
  mem : List Host.Cell
  wait : Wait
  stalled : Bool
  ops : List LeafOp
  orphans : List LeafOp
  sevs : List Nat
  task : Option Nat
  joins : List Nat
  joinEnded : Bool
  nmi : Bool
  haltReq : Bool
  halted : Bool
  haltForced : Bool
  step : Bool
  fault : Option FaultInfo
  reqSince : Option Nat
  quietSince : Option Nat
  haltedSince : Option Nat
  notBefore : Nat
  routine0 : Option Routine
  routine1 : Option Routine
  micro : Bool
  awl : CpCtx
  clasp : CpCtx
  hidden : ClaspHidden
  custom : SMap CpCtx
  deriving DecidableEq, Repr

/-- A thread that has never started: all zero (R210, R258). -/
def Thread.zero : Thread where
  started := false
  regs := []
  pend := []
  issued := 0
  pc := 0
  inDelay := false
  after := Option.none
  annul := false
  flags := 0
  events := 0
  prompt := 0
  evec := 0
  epc := 0
  handler := false
  forced := false
  timer := 0
  tctl := 0
  mpc := Option.none
  bank0 := []
  bank1 := []
  mem := []
  wait := Wait.none
  stalled := false
  ops := []
  orphans := []
  sevs := []
  task := Option.none
  joins := []
  joinEnded := false
  nmi := false
  haltReq := false
  halted := false
  haltForced := false
  step := false
  fault := Option.none
  reqSince := Option.none
  quietSince := Option.none
  haltedSince := Option.none
  notBefore := 0
  routine0 := Option.none
  routine1 := Option.none
  micro := false
  awl := ⟨[], []⟩
  clasp := ⟨[], []⟩
  hidden := ClaspHidden.zero
  custom := []

/-- A Quire beyond its registers: its supervisor Leaf (R16), its Sheet set's four addresses once one is loaded (R175), shared
memory, program store by word address, patch RAM and owner control store by microaddress, tenant profiles by window and
tenant map (R283); Clasp's resident contexts, least recently used first, with the end of each pin, the switches waiting, by
context in the order of their first RETRY, and its operations in order of acceptance, by context (R259, R270); the
beginning of the latest quiet spell that was detected, and since when an episode is open, with whether it was escalated
(R202, R203). -/
structure QuireSt where
  sup : Nat
  entries : Option (Nat × Nat × Nat × Nat)
  shared : List Host.Cell
  program : SMap Word32
  patch : SMap Word32
  owner : SMap Word32
  profiles : SMap Word128
  tenantMap : SMap Nat
  resident : List Nat
  pins : SMap Nat
  switchQ : List Nat
  claspQ : List Nat
  deadSeen : Option Nat
  episode : Option (Nat × Bool)
  deriving DecidableEq, Repr

/-- A Quire that has loaded nothing. -/
def QuireSt.zero : QuireSt := ⟨0, none, [], [], [], [], [], [], [], [], [], [], none, none⟩

/-- A slot of the key store (R268, R482): tenant, algorithm and key of what it holds, and its generation. The trust engine
keeps the master copy, which every Quire's store equals between operations. -/
structure KeySlot where
  held : Option (Nat × Nat × List Byte)
  gen : Nat
  deriving DecidableEq, Repr

/-! ### Stile (10) -/

/-- A queued wait of a lock: the holder word of the requester (R289), and the number of the thread's operation. -/
structure StileWait where
  who : Nat
  op : Nat
  deriving DecidableEq, Repr

/-- The writes that a departed holder still has under way (R296): memory requests by number and, of a thread that goes on, its writes issued
before the departure, named by how many instructions it had issued. -/
structure LockWrites where
  ids : List Nat
  before : Option Nat
  deriving DecidableEq, Repr

/-- A lock (R289): its holder, its waiters, its abandoned flag, whether the holder's grant carried ABANDONED, the grants on their way to those
it was handed on to, with whether they carry ABANDONED (R294), and what its departed holder still writes (R296). -/
structure LockSt where
  holder : Option Nat
  queue : List StileWait
  abandoned : Bool
  carried : Bool
  grants : List (StileWait × Bool)
  leaving : Option LockWrites
  deriving DecidableEq, Repr

/-- A free lock. -/
def LockSt.free : LockSt := ⟨none, [], false, false, [], none⟩

/-- Stile beyond its registers: the locks, the requests that wait at their requesters while it is QUIET (R298), and the
completions of the requester ports, by port (0 to 63 the functions, 64 Spine). -/
structure StileSt where
  locks : SMap LockSt
  ports : SMap (List Word64)
  held : List (Nat × Nat × Nat × Nat)
  late : SMap (List Word64)
  deriving DecidableEq, Repr


/-! ### Trust (19) -/

/-- The security states of R489, in code order. -/
inductive SecState where
  | unowned | owned | debug | locked
  deriving DecidableEq, Repr

/-- A staged image (R472, R474): its kind, its bytes, and the owner digest under whose keys it verified, empty where Faristoa or the device
itself signed it. -/
structure Image where
  kind : Nat
  bytes : List Byte
  owner : List Byte
  deriving DecidableEq, Repr

/-- The trust engine beyond its registers: the security state and, in DEBUG, the scope of the token (R491); the fuses: the owner
digests written (R477), the rollback counters (R473) and the revoked Faristoa keys; the debug challenge with the TIME cycle of its
drawing (R488); the CDI that the attestation pair comes from (R469); whether tamper erased the device keys (R490); the staged
images by handle and the next handle; the images each Gathering runs, by window, each with its kind (R19), and those that UPDATE gave it
for its next START (R178); the sequence of the latest soft repair record signed (R416). -/
structure TrustSt where
  sec : SecState
  scope : Nat
  banks : List (List Byte)
  counters : SMap Nat
  revoked : Nat
  challenge : Option (List Byte × Nat)
  cdi : List Byte
  erased : Bool
  images : SMap Image
  nextHandle : Nat
  running : SMap (List (Nat × Image))
  updated : SMap (List (Nat × Image))
  recordSeq : Nat
  deriving DecidableEq, Repr

/-! ### Spine, functions, queue pairs (18) -/

/-- A DMA window of a function (DMA_WINDOW_SET). -/
structure DmaWin where
  space : Nat
  flags : Nat
  base : Nat
  size : Nat
  deriving DecidableEq, Repr

/-- A command taken from a request ring or from the reduced mailbox and not answered (R439, R440, R465): its entry, whether its
function byte is wrong, and for a command that goes on in steps how far it is, with the numbers it keeps. -/
structure Taken where
  entry : List Byte
  bad : Bool
  phase : Nat
  notes : List Nat
  deriving DecidableEq, Repr

/-- A function of the PCIe endpoint, or (number 64) the board controller's path: the tenant bound to it (R44), stile_ovf
(R438), its mailbox page (R439 to R442), whether its rings restart once in_flight has drained, the commands taken, its DMA
windows (R450), BAR2_TENANT and RICK_VIEW (R452), and its MSI-X state: the vectors unmasked, the vectors pending, each with the source it is pending
for, whether the function itself is unmasked (R455), with the message words of its table by 4 times the vector plus the word; and whether an error has
stopped its ring (R442). -/
structure FuncSt where
  bound : Option Nat
  stileOvf : Bool
  reqBase : Word64
  rspBase : Word64
  en : Bool
  err : Bool
  rej : Bool
  reqLog : Nat
  rspLog : Nat
  reqTail : Nat
  reqHead : Nat
  rspTail : Nat
  rspHead : Nat
  credits : Nat
  restart : Bool
  taken : List Taken
  windows : SMap DmaWin
  bar2Tenant : Nat
  rickView : Nat
  unmasked : SMap Bool
  pendingVec : List (Nat × Nat)
  msixOn : Bool
  msix : SMap Word32
  stopped : Bool
  deriving DecidableEq, Repr

/-- A descriptor fetched and not completed (R446, R448): its index, whether it posts a receive buffer, irq and cookie, its host address
and length as posted, the request it made of memory, and its end: status, length, last, output queue. -/
structure QpDesc where
  index : Nat
  rx : Bool
  irq : Bool
  cookie : Nat
  host : Nat
  len : Nat
  req : Option Nat
  ended : Option (Nat × Nat × Bool × Nat)
  deriving DecidableEq, Repr

/-- A queue pair (R445 to R449): the function it is assigned to, its kind (0 disabled), Quire, rings, context and stall time as
created; descriptors posted and fetched, completions consumed and written since QP_CREATE; whether it is stalled; its
descriptors not completed, in ring order; and since when an output waits for room. -/
structure QpSt where
  owner : Option Nat
  kind : Nat
  quire : Nat
  sqBase : Word64
  cqBase : Word64
  sqLog : Nat
  cqLog : Nat
  ctx : Nat
  stallUs : Nat
  sqTail : Nat
  sqHead : Nat
  cqHead : Nat
  written : Nat
  stalled : Bool
  descs : List QpDesc
  fullSince : Option Nat
  deriving DecidableEq, Repr

/-- A queue pair after device reset: assigned to no function, disabled (log 10). -/
def QpSt.zero : QpSt := ⟨none, 0, 0, 0, 0, 0, 0, 0, 0, 0, 0, 0, 0, false, [], none⟩

/-- Spine and the PCIe endpoint beyond the functions: whether Spine answers mailboxes, whether its ROM waits for a Folio or runs
one up (R499), the slot, the running Folio, and during a switch-over the Folio being left, with the TIME cycle at which the new
one began to run (R519, R520); whether the PCIe link is up; host memory as the device reads and writes it; the BMC's latest response
and its response buffer (R465, R466); Spine's SRAM (R519); the writes of host memory that the endpoint has sent poisoned, each as its address and
length, and whether the completion of the latest BAR2 read was (R405, R450). -/
structure SpineSt where
  up : Bool
  rom : Bool
  slotB : Bool
  folio : Option Image
  leaving : Option (Image × Nat)
  link : Bool
  host : List Host.Cell
  bmcResp : List Byte
  bmcBuf : List Byte
  sram : List Host.Cell
  poisoned : List (Nat × Nat)
  readPoison : Bool
  deriving DecidableEq, Repr

/-- A function after device reset: unbound, its windows disabled, 32 credits for the physical function and 4 for a virtual one
(MB_CREDIT; log 10), every MSI-X vector masked (log 11). -/
def funcReset (f : Nat) : FuncSt where
  bound := none
  stileOvf := false
  reqBase := 0
  rspBase := 0
  en := false
  err := false
  rej := false
  reqLog := 6
  rspLog := 6
  reqTail := 0
  reqHead := 0
  rspTail := 0
  rspHead := 0
  credits := if f = 0 then 32 else 4
  restart := false
  taken := []
  windows := []
  bar2Tenant := 0
  rickView := 0
  unmasked := []
  pendingVec := []
  msixOn := false
  msix := []
  stopped := false


/-! ### Fallow (20), the board's pins, rails and sensors (20, 21) -/

/-- Fallow beyond its registers (R501 to R508): the learning table by pvid times 2^48 plus MAC address, each entry with its port, the
TIME cycle of its latest refresh and its bucket; each port's queue and whose turn its MAC is on (true: Finisher's); the remainders of the
counters; the frames held at a port's switch; the entries still to be copied in a handover; whether it ended by STOP; and the cycle at which
it took its latest frame, with the bits and the fifths of frames by which it was then ahead of its rate (R503). -/
structure FallowSt where
  table : SMap (Nat × Nat × Nat)
  queues : SMap (List (List Byte))
  turn : SMap Bool
  rem : SMap Nat
  held : SMap (List RxFrame)
  copies : List Nat
  stopped : Bool
  meter : Nat × Nat × Nat
  deriving DecidableEq, Repr

/-- A GPIO input (R532, R533): its level and the TIME cycle at which it took it, its filtered level asserted or not, the end of its gap,
and whether an assertion was coalesced in it. -/
structure GpioSt where
  level : Bool
  since : Nat
  asserted : Bool
  gapEnd : Option Nat
  coalesced : Bool
  deriving DecidableEq, Repr

/-- An input of the board that nothing drives: low. -/
def GpioSt.zero : GpioSt := ⟨false, 0, false, none, false⟩

/-- A DIMM as its SPD describes it (R379): x4 devices or not, their density in Gb, the ranks, whether devices are stacked, the speed grade
in MT/s, and whether every device supports directed refresh management. -/
structure Dimm where
  x4 : Bool
  density : Nat
  ranks : Nat
  stacked : Bool
  speed : Nat
  drfm : Bool
  deriving DecidableEq, Repr

/-- The board and the AON domain: the strap levels and the straps latched (DEVICE_STRAP's bits 8 to 0 of R496), the rails that are
good, whether the straps are still to be latched and whether none was latched since VDD_AON became good (R496), whether the trust chain is
due (R475), the TIME cycle of power-good, the temperature of each site in thousandths of a degree and
each rail in millivolts, whether the latest sample was 120 °C or more, THERM_TRIP_N driven with whether it has cooled (R536), the thermal
conditions asserted (R535), the GPIO inputs, the JTAG instruction in force, and the DIMMs in the sockets of each table memory channel
(R379; log 9), and the TIME cycle in which the count of SYS_CLK_25M after AON power-good ends (R528; log 116). -/
structure BoardSt where
  straps : Nat
  latched : Nat
  railsGood : List Bool
  latchDue : Bool
  unlatched : Bool
  bootDue : Bool
  powerAt : Nat
  sites : List Word32
  volts : List Nat
  hot : Bool
  trip : Bool
  cooled : Bool
  warn : Bool
  crit : Bool
  gpio : SMap GpioSt
  jtag : JtagIns
  dimms : SMap (List Dimm)
  countEnd : Nat
  deriving DecidableEq, Repr


/-! ### Events (18) -/

/-- Event delivery beyond its registers (R453 to R456): assertions waiting to be taken, the sources whose level is seen
asserted and since when, the end of each source's gap, the sources coalesced in it, the deliveries made to Spine, and the MSI-X
messages posted (function, vector). -/
structure EventSt where
  raised : List Nat
  level : SMap Nat
  gapEnd : SMap Nat
  coalesced : List Nat
  toSpine : List Nat
  messages : List (Nat × Nat)
  deriving DecidableEq, Repr

/-- The state of the block. -/
structure State where
  /-- The commands that are waiting, first in first out (the row's cut). -/
  pending : List Instr
  /-- The model's own counter of free values (log 1). -/
  fresh : Nat
  /-- The model's own: the value the latest read returned to its reader (log 2). -/
  readData : BitVec 256
  /-- The part variant (R1, R3; log 3). -/
  variant : BitVec 4
  /-- The registers of every window, by window times 65,536 plus offset; an unlisted one holds its reset value (R9). -/
  regs : SMap Word32
  /-- What each Gathering holds beside its registers, by window; unlisted: `gathReset` (R15, R19). -/
  gath : SMap Gath
  /-- The time unit (R459 to R464). -/
  time : TimeSt
  /-- Event delivery (R453 to R458). -/
  ev : EventSt
  /-- Reports on their way to Sheaf, oldest first (R367). -/
  reports : List Report
  /-- The packets in the device, by the model's number. -/
  packets : SMap Packet
  /-- The model's next packet number. -/
  nextPid : Nat
  /-- Tedder (R46 to R75, R545). -/
  tedder : TedderSt
  /-- Windrow (R76 to R95, R546). -/
  windrow : WindrowSt
  /-- Loft (R299 to R316). -/
  loft : LoftSt
  /-- Kettle (R146 to R171). -/
  kettle : KettleSt
  /-- The ports, 0 to 31 Ethernet and 32 to 35 internal (R339 to R352). -/
  ports : SMap PortSt
  /-- Drover and the outputs in Finisher (R317 to R338, R353 to R359). -/
  drover : DroverSt
  /-- The Commons agents (R419 to R428). -/
  commons : CommonsSt
  /-- Memory errors, their logs and Mower (R402 to R418). -/
  mower : MowerSt
  /-- Buffer and table memory and their controllers (R379 to R401). -/
  mem : MemSt
  /-- Sheaf and Rick (R360 to R378). -/
  sheaf : SheafSt
  /-- Ling (R96 to R113). -/
  ling : LingSt
  /-- Warren (R114 to R145). -/
  warren : WarrenSt
  /-- The Leaf threads, by number; unlisted: never started (R172 to R253). -/
  threads : SMap Thread
  /-- The Quires, by number; unlisted: nothing loaded. -/
  quires : SMap QuireSt
  /-- The key slots (R268, R482); unlisted: empty, generation 0 (log 8). -/
  keys : SMap KeySlot
  /-- Stile (R289 to R298). -/
  stile : StileSt
  /-- The trust engine (R467 to R492; log 12). -/
  trust : TrustSt
  /-- The functions of the PCIe endpoint, 0 to 63 (R433 to R441); unlisted: as after reset (log 10). -/
  funcs : SMap FuncSt
  /-- The queue pairs, 0 to 255 (R445 to R451); unlisted: disabled (log 10). -/
  qps : SMap QpSt
  /-- Spine, the PCIe link and the board controller's path (R429 to R466). -/
  spine : SpineSt
  /-- Fallow (R501 to R508). -/
  fallow : FallowSt
  /-- The board and the AON domain (R493 to R497, R523 to R536; log 13, 14). -/
  board : BoardSt
  deriving DecidableEq, Repr

/-- The machine right after device reset (R9). -/
def State.reset : State where
  pending := []
  fresh := 0
  readData := 0
  variant := 0
  regs := []
  gath := []
  time := ⟨0, 0, 0, 0, false, false, false, none, 0, none⟩
  ev := ⟨[], [], [], [], [], []⟩
  reports := []
  packets := []
  nextPid := 0
  tedder := ⟨[], [], false, none, [], 0⟩
  windrow := ⟨[], [], [], [], [], 0⟩
  loft := ⟨[], [], [], [], [], []⟩
  kettle := ⟨[], [], [], [], [], [], [], 0, 0, 0⟩
  ports := []
  drover := ⟨[], [], [], [], [], [], [], 0, [], [], 0, 0⟩
  commons := ⟨[], [], [], [], 0, []⟩
  mower := ⟨[], [], [], [], [], [], [], [], [], []⟩
  mem := ⟨[], [], [], [], [], [], [], [], 0⟩
  sheaf := ⟨[], [], false, 0, 1, 0x25, [], none, [], none, [], [], 0⟩
  ling := ⟨[], [], [], [], [], []⟩
  warren := ⟨[], [], [], [], [], [], 1024000, 0, [], [], []⟩
  threads := []
  quires := []
  keys := []
  stile := ⟨[], [], [], []⟩
  trust := ⟨.unowned, 0, [], [], 0, none, [], false, [], 1, [], [], 0⟩
  funcs := []
  qps := []
  spine := ⟨false, false, false, none, none, false, [], [], [], [], [], false⟩
  fallow := ⟨[], [], [], [], [], [], false, (0, 0, 0)⟩
  board := ⟨0x80, 0x80, List.replicate 8 true, false, false, true, 0, List.replicate 32 25000, [750, 850, 900, 1200, 1100, 1100, 1800, 1800], false, false, false, false, false, [], .bypass, [], 0⟩

/-- The state with its time part changed. -/
def State.modTime (s : State) (f : TimeSt → TimeSt) : State := { s with time := f s.time }

/-- The state with its ev part changed. -/
def State.modEv (s : State) (f : EventSt → EventSt) : State := { s with ev := f s.ev }

/-- The state with its reports part changed. -/
def State.modReports (s : State) (f : List Report → List Report) : State := { s with reports := f s.reports }

/-- The state with its packets part changed. -/
def State.modPackets (s : State) (f : SMap Packet → SMap Packet) : State := { s with packets := f s.packets }

/-- The state with its tedder part changed. -/
def State.modTedder (s : State) (f : TedderSt → TedderSt) : State := { s with tedder := f s.tedder }

/-- The state with its windrow part changed. -/
def State.modWindrow (s : State) (f : WindrowSt → WindrowSt) : State := { s with windrow := f s.windrow }

/-- The state with its loft part changed. -/
def State.modLoft (s : State) (f : LoftSt → LoftSt) : State := { s with loft := f s.loft }

/-- The state with its kettle part changed. -/
def State.modKettle (s : State) (f : KettleSt → KettleSt) : State := { s with kettle := f s.kettle }

/-- The state with its ports part changed. -/
def State.modPorts (s : State) (f : SMap PortSt → SMap PortSt) : State := { s with ports := f s.ports }

/-- The state with its drover part changed. -/
def State.modDrover (s : State) (f : DroverSt → DroverSt) : State := { s with drover := f s.drover }

/-- The state with its commons part changed. -/
def State.modCommons (s : State) (f : CommonsSt → CommonsSt) : State := { s with commons := f s.commons }

/-- The state with its mower part changed. -/
def State.modMower (s : State) (f : MowerSt → MowerSt) : State := { s with mower := f s.mower }

/-- The state with its mem part changed. -/
def State.modMem (s : State) (f : MemSt → MemSt) : State := { s with mem := f s.mem }

/-- The state with its sheaf part changed. -/
def State.modSheaf (s : State) (f : SheafSt → SheafSt) : State := { s with sheaf := f s.sheaf }

/-- The state with its ling part changed. -/
def State.modLing (s : State) (f : LingSt → LingSt) : State := { s with ling := f s.ling }

/-- The state with its warren part changed. -/
def State.modWarren (s : State) (f : WarrenSt → WarrenSt) : State := { s with warren := f s.warren }

/-- The state with its threads part changed. -/
def State.modThreads (s : State) (f : SMap Thread → SMap Thread) : State := { s with threads := f s.threads }

/-- The state with its quires part changed. -/
def State.modQuires (s : State) (f : SMap QuireSt → SMap QuireSt) : State := { s with quires := f s.quires }

/-- The state with its keys part changed. -/
def State.modKeys (s : State) (f : SMap KeySlot → SMap KeySlot) : State := { s with keys := f s.keys }

/-- The state with its stile part changed. -/
def State.modStile (s : State) (f : StileSt → StileSt) : State := { s with stile := f s.stile }

/-- The state with its trust part changed. -/
def State.modTrust (s : State) (f : TrustSt → TrustSt) : State := { s with trust := f s.trust }

/-- The state with its funcs part changed. -/
def State.modFuncs (s : State) (f : SMap FuncSt → SMap FuncSt) : State := { s with funcs := f s.funcs }

/-- The state with its qps part changed. -/
def State.modQps (s : State) (f : SMap QpSt → SMap QpSt) : State := { s with qps := f s.qps }

/-- The state with its spine part changed. -/
def State.modSpine (s : State) (f : SpineSt → SpineSt) : State := { s with spine := f s.spine }

/-- The state with its fallow part changed. -/
def State.modFallow (s : State) (f : FallowSt → FallowSt) : State := { s with fallow := f s.fallow }

/-- The state with its board part changed. -/
def State.modBoard (s : State) (f : BoardSt → BoardSt) : State := { s with board := f s.board }

end Sys2Proof.Machine
end

