-- ==== Sys2Proof/Machine/RegMap.lean ====
section
/-! DEFINITION. The register maps of every kind of Gathering, as the tables of spec/ give them: each register's offset,
its indices, and for each field its bits, its access code, its reset value and the values the table lists (R6, R9,
R11). A reset value that depends on the register's index or on the board is in `regReset` of Ops.lean. -/

namespace Sys2Proof.Machine

/-- The access codes of R6. -/
inductive Acc where
  | rw | ro | w1c | wo | rc
  deriving DecidableEq, Repr

/-- One field of a register: its bits `hi` to `lo`, its access code, its reset value, and the ranges of values the
field's table lists (none: every value is listed). -/
structure RegField where
  hi : Nat
  lo : Nat
  acc : Acc
  reset : Nat
  legal : List (Nat × Nat)
  deriving DecidableEq, Repr

/-- One register of a window: its offset, the stride and the count of each of its indices, and its fields. -/
structure RegRow where
  base : Nat
  dims : List (Nat × Nat)
  fields : List RegField
  deriving DecidableEq, Repr

/-- UCB_IDENT0, offset 0x0000, identifies the part. (01_gatherings_and_the_packet_walk.md) -/
def rUcbIdent0 : RegRow :=
  ⟨0x0, [], [⟨31, 16, .ro, 0x3200, []⟩, ⟨15, 0, .ro, 0xb0, []⟩]⟩

/-- UCB_IDENT1, offset 0x0004, identifies the variant and the unit. (01_gatherings_and_the_packet_walk.md) -/
def rUcbIdent1 : RegRow :=
  ⟨0x4, [], [⟨31, 28, .ro, 0, []⟩, ⟨23, 16, .ro, 0, []⟩, ⟨15, 8, .ro, 1, []⟩, ⟨7, 0, .ro, 0, []⟩]⟩

/-- UCB_PATH, offset 0x0008, gives the Gathering's own path and window. (01_gatherings_and_the_packet_walk.md) -/
def rUcbPath : RegRow :=
  ⟨0x8, [], [⟨31, 30, .ro, 0, []⟩, ⟨23, 16, .ro, 0, []⟩, ⟨15, 8, .ro, 0, []⟩, ⟨7, 0, .ro, 0, []⟩]⟩

/-- UCB_MEMBERS, offset 0x000C, counts the Gathering's direct members. A unit without members reads zero. (01_gatherings_and_the_packet_walk.md) -/
def rUcbMembers : RegRow :=
  ⟨0xc, [], [⟨31, 24, .ro, 0, []⟩, ⟨23, 16, .ro, 0, []⟩, ⟨15, 8, .ro, 0, []⟩, ⟨7, 0, .ro, 0, []⟩]⟩

/-- UCB_STATE, offset 0x0010, reports the state and role. (01_gatherings_and_the_packet_walk.md) -/
def rUcbState : RegRow :=
  ⟨0x10, [], [⟨8, 8, .ro, 0, []⟩, ⟨7, 6, .ro, 0, []⟩, ⟨3, 0, .ro, 1, []⟩]⟩

/-- UCB_CTRL, offset 0x0014, takes commands. (01_gatherings_and_the_packet_walk.md) -/
def rUcbCtrl : RegRow :=
  ⟨0x14, [], [⟨3, 0, .wo, 0, []⟩]⟩

/-- UCB_CMD_STATUS, offset 0x0018, reports the result of the latest command. (01_gatherings_and_the_packet_walk.md) -/
def rUcbCmdStatus : RegRow :=
  ⟨0x18, [], [⟨31, 31, .ro, 0, []⟩, ⟨30, 30, .ro, 0, []⟩, ⟨27, 24, .ro, 0, []⟩, ⟨23, 16, .ro, 0, []⟩, ⟨15, 0, .ro, 0, []⟩]⟩

/-- UCB_DRAIN_LIMIT, offset 0x001C, sets the drain deadline. (01_gatherings_and_the_packet_walk.md) -/
def rUcbDrainLimit : RegRow :=
  ⟨0x1c, [], [⟨31, 0, .rw, 0x2710, []⟩]⟩

/-- UCB_EVENT_SUMMARY, offset 0x0020, holds the Gathering's event summary. (01_gatherings_and_the_packet_walk.md) -/
def rUcbEventSummary : RegRow :=
  ⟨0x20, [], [⟨8, 8, .w1c, 0, []⟩, ⟨7, 7, .ro, 0, []⟩, ⟨6, 6, .ro, 0, []⟩, ⟨5, 5, .w1c, 0, []⟩, ⟨4, 4, .w1c, 0, []⟩, ⟨3, 3, .w1c, 0, []⟩, ⟨2, 2, .w1c, 0, []⟩, ⟨1, 1, .w1c, 0, []⟩, ⟨0, 0, .w1c, 0, []⟩]⟩

/-- UCB_EVENT_SUMMARY, offset 0x0020, holds the Gathering's event summary. (01_gatherings_and_the_packet_walk.md) -/
def rUcbEventMask : RegRow :=
  ⟨0x24, [], [⟨8, 8, .rw, 0, []⟩, ⟨7, 7, .rw, 0, []⟩, ⟨6, 6, .rw, 0, []⟩, ⟨5, 5, .rw, 0, []⟩, ⟨4, 4, .rw, 0, []⟩, ⟨3, 3, .rw, 0, []⟩, ⟨2, 2, .rw, 0, []⟩, ⟨1, 1, .rw, 0, []⟩, ⟨0, 0, .rw, 0, []⟩]⟩

/-- UCB_REJECT_ADDR, offset 0x0028, records rejected writes. (01_gatherings_and_the_packet_walk.md) -/
def rUcbRejectAddr : RegRow :=
  ⟨0x28, [], [⟨31, 16, .ro, 0, []⟩, ⟨15, 0, .ro, 0, []⟩]⟩

/-- UCB_RESERVED_ACCESS, offset 0x002C, is the reserved-access counter of R12. (01_gatherings_and_the_packet_walk.md) -/
def rUcbReservedAccess : RegRow :=
  ⟨0x2c, [], [⟨31, 0, .rc, 0, []⟩]⟩

/-- UCB_UPDATE_SLOT, offset 0x0030, names an image to be applied. (01_gatherings_and_the_packet_walk.md) -/
def rUcbUpdateSlot : RegRow :=
  ⟨0x30, [], [⟨31, 24, .rw, 0, [(0, 6)]⟩, ⟨15, 0, .rw, 0, []⟩]⟩

/-- UCB_UPDATE_STATUS, offset 0x0034, reports the last UPDATE. (01_gatherings_and_the_packet_walk.md) -/
def rUcbUpdateStatus : RegRow :=
  ⟨0x34, [], [⟨7, 0, .ro, 0, []⟩]⟩

/-- UCB_SPARE_BIND, offset 0x0038, describes a tipping-in. It is RO and reads zero in Gatherings whose members hav (01_gatherings_and_the_packet_walk.md) -/
def rUcbSpareBind : RegRow :=
  ⟨0x38, [], [⟨23, 16, .ro, 0, []⟩, ⟨15, 8, .rw, 0, []⟩, ⟨7, 0, .rw, 0, []⟩]⟩

/-- TEDDER_PORT_CTX_n, offset 0x0100 + 4n, n = 0–35, selects each port's context. (02_tedder_parsing.md) -/
def rTedderPortCtx : RegRow :=
  ⟨0x100, [(4, 36)], [⟨8, 8, .rw, 0, []⟩, ⟨6, 0, .rw, 0, []⟩]⟩

/-- TEDDER_GRAPH_SEL, offset 0x0200, controls the graph banks. (02_tedder_parsing.md) -/
def rTedderGraphSel : RegRow :=
  ⟨0x200, [], [⟨31, 31, .wo, 0, []⟩, ⟨10, 10, .w1c, 0, []⟩, ⟨9, 9, .ro, 0, []⟩, ⟨8, 8, .ro, 0, []⟩, ⟨0, 0, .ro, 0, []⟩]⟩

/-- TEDDER_GRAPH_ID, offset 0x0204, identifies the loaded graphs. (02_tedder_parsing.md) -/
def rTedderGraphId : RegRow :=
  ⟨0x204, [], [⟨31, 16, .ro, 0, []⟩, ⟨15, 0, .ro, 0, []⟩]⟩

/-- TEDDER_FRAG_CFG, offset 0x0210, configures the fragment table. (02_tedder_parsing.md) -/
def rTedderFragCfg : RegRow :=
  ⟨0x210, [], [⟨31, 31, .rw, 1, []⟩, ⟨23, 16, .rw, 8, [(1, 255)]⟩, ⟨15, 0, .rw, 0x7d0, [(1, 65535)]⟩]⟩

/-- TEDDER_FRAG_STATUS, offset 0x0214, reports table occupancy. (02_tedder_parsing.md) -/
def rTedderFragStatus : RegRow :=
  ⟨0x214, [], [⟨16, 0, .ro, 0, []⟩]⟩

/-- TEDDER_FRAG_CNT_k, offset 0x0220 + 4k, k = 0–5, counts fragment table events. k is 0 created, 1 hit, 2 FRAG_NO (02_tedder_parsing.md) -/
def rTedderFragCnt : RegRow :=
  ⟨0x220, [(4, 6)], [⟨31, 0, .rc, 0, []⟩]⟩

/-- TEDDER_EVENT, offset 0x0240, holds Tedder's unit events, which drive unit_event in UCB_EVENT_SUMMARY. (02_tedder_parsing.md) -/
def rTedderEvent : RegRow :=
  ⟨0x240, [], [⟨1, 1, .w1c, 0, []⟩, ⟨0, 0, .w1c, 0, []⟩]⟩

/-- tedderPortCnt (counters, one for each line of the list in the file). (02_tedder_parsing.md) -/
def rTedderPortCnt : RegRow :=
  ⟨0x1000, [(32, 36), (4, 7)], [⟨31, 0, .rc, 0, []⟩]⟩

/-- TEDDER_MAL_CNT_(64p + r), offset 0x4000 + 4(64p + r), p = 0–35, r = 0–63, counts malformed packets per port an (02_tedder_parsing.md) -/
def rTedderMalCnt : RegRow :=
  ⟨0x4000, [(4, 2304)], [⟨31, 0, .rc, 0, []⟩]⟩

/-- WINDROW_CTX_PROF_c, offset 0x0100 + 4c, c = 0–127, maps a parse context to a profile. (03_windrow_classification.md) -/
def rWindrowCtxProf : RegRow :=
  ⟨0x100, [(4, 128)], [⟨5, 0, .rw, 0, []⟩]⟩

/-- WINDROW_PORT_CFG_n, offset 0x0300 + 4n, n = 0–35, sets each port's defaults. (03_windrow_classification.md) -/
def rWindrowPortCfg : RegRow :=
  ⟨0x300, [(4, 36)], [⟨29, 16, .rw, 0, []⟩, ⟨15, 0, .rw, 0, []⟩]⟩

/-- WINDROW_PROF_CFG_p, offset 0x0400 + 4p, p = 0–63, sets each profile's length. (03_windrow_classification.md) -/
def rWindrowProfCfg : RegRow :=
  ⟨0x400, [(4, 64)], [⟨3, 0, .rw, 0, [(0, 12)]⟩]⟩

/-- WINDROW_IND_ADDR, offset 0x0500, selects the entry. (03_windrow_classification.md) -/
def rWindrowIndAddr : RegRow :=
  ⟨0x500, [], [⟨31, 31, .rw, 0, []⟩, ⟨19, 0, .rw, 0, []⟩]⟩

/-- WINDROW_IND_CMD, offset 0x0504, runs the command. busy lasts at most 16 FABRIC cycles. (03_windrow_classification.md) -/
def rWindrowIndCmd : RegRow :=
  ⟨0x504, [], [⟨31, 31, .wo, 0, []⟩, ⟨30, 30, .ro, 0, []⟩, ⟨29, 29, .ro, 0, []⟩, ⟨1, 0, .rw, 0, [(0, 1)]⟩]⟩

/-- WINDROW_IND_DATA_k, offset 0x0510 + 4k, k = 0–7, holds bytes 4k to 4k + 3 of the entry. A direct entry uses k (03_windrow_classification.md) -/
def rWindrowIndData : RegRow :=
  ⟨0x510, [(4, 8)], [⟨31, 0, .rw, 0, []⟩]⟩

/-- WINDROW_DIRECT_CFG_t, offset 0x0600 + 4t, t = 0–31, places a direct table. (03_windrow_classification.md) -/
def rWindrowDirectCfg : RegRow :=
  ⟨0x600, [(4, 32)], [⟨28, 24, .rw, 0, [(0, 20)]⟩, ⟨19, 0, .rw, 0, []⟩]⟩

/-- WINDROW_RANGE_CFG_t, offset 0x0680 + 4t, t = 0–31, places a range set. (03_windrow_classification.md) -/
def rWindrowRangeCfg : RegRow :=
  ⟨0x680, [(4, 32)], [⟨26, 16, .rw, 0, [(0, 1024)]⟩, ⟨12, 0, .rw, 0, []⟩]⟩

/-- windrowCnt (counters, one for each line of the list in the file). (03_windrow_classification.md) -/
def rWindrowCnt : RegRow :=
  ⟨0x700, [(4, 8)], [⟨31, 0, .rc, 0, []⟩]⟩

/-- WINDROW_EVENT, offset 0x0740, holds Windrow's unit events, which drive unit_event in UCB_EVENT_SUMMARY. (03_windrow_classification.md) -/
def rWindrowEvent : RegRow :=
  ⟨0x740, [], [⟨1, 1, .w1c, 0, []⟩, ⟨0, 0, .w1c, 0, []⟩]⟩

/-- WINDROW_MIRROR_m, offset 0x0800 + 4m, m = 0–255, defines mirror session m. (03_windrow_classification.md) -/
def rWindrowMirror : RegRow :=
  ⟨0x800, [(4, 256)], [⟨31, 31, .rw, 0, []⟩, ⟨30, 24, .rw, 0, []⟩, ⟨16, 0, .rw, 0, []⟩]⟩

/-- WINDROW_EXC_CLASS_k, offset 0x1000 + 4k, k = 0–3, sets the exception rate class. (03_windrow_classification.md) -/
def rWindrowExcClass : RegRow :=
  ⟨0x1000, [(4, 4)], [⟨31, 16, .rw, 0x100, []⟩, ⟨15, 0, .rw, 0x64, []⟩]⟩

/-- WINDROW_STAGE_HIT_CNT_(12p + s), offset 0x1800 + 4(12p + s), counts the hits of stage s of profile p. (03_windrow_classification.md) -/
def rWindrowStageHitCnt : RegRow :=
  ⟨0x1800, [(4, 768)], [⟨31, 0, .rc, 0, []⟩]⟩

/-- WINDROW_EXC_TSEL_j, offset 0x2800 + 4j, j = 0–1,023, gives the exception class of tenants 16j to 16j + 15. (03_windrow_classification.md) -/
def rWindrowExcTsel : RegRow :=
  ⟨0x2800, [(4, 1024)], [⟨31, 0, .rw, 0, []⟩]⟩

/-- LING_SLOT_MAP_j, offset 0x0100 + 4j, j = 0–63, reports which bank serves each slot. (04_ling_ternary_memory.md) -/
def rLingSlotMap : RegRow :=
  ⟨0x100, [(4, 64)], [⟨6, 0, .ro, 0, []⟩]⟩

/-- LING_DB_CFG_d, offset 0x0200 + 4d, d = 0–31, defines database d. (04_ling_ternary_memory.md) -/
def rLingDbCfg : RegRow :=
  ⟨0x200, [(4, 32)], [⟨31, 31, .rw, 1, []⟩, ⟨17, 16, .rw, 0, [(0, 2)]⟩, ⟨15, 12, .rw, 0, [(0, 8)]⟩, ⟨5, 0, .rw, 0, []⟩]⟩

/-- LING_DB_STATUS_d, offset 0x0280 + 4d, reports the state of database d. (04_ling_ternary_memory.md) -/
def rLingDbStatus : RegRow :=
  ⟨0x280, [(4, 32)], [⟨31, 31, .ro, 0, []⟩, ⟨15, 0, .ro, 0, []⟩]⟩

/-- LING_DATA_(20x + k), offset 0x0400 + 0x100x + 4k, k = 0–19, holds the data half and the search key of block x. (04_ling_ternary_memory.md) -/
def rLingData : RegRow :=
  ⟨0x400, [(256, 4), (4, 20)], [⟨31, 0, .rw, 0, []⟩]⟩

/-- LING_CARE_(20x + k), offset 0x0450 + 0x100x + 4k, k = 0–19, holds the care half for WRITE and MOVE_BLOCK. (04_ling_ternary_memory.md) -/
def rLingCare : RegRow :=
  ⟨0x450, [(256, 4), (4, 20)], [⟨31, 0, .rw, 0, []⟩]⟩

/-- LING_ACT_(4x + k), offset 0x04A0 + 0x100x + 4k, k = 0–3, holds the action word. (04_ling_ternary_memory.md) -/
def rLingAct : RegRow :=
  ⟨0x4a0, [(256, 4), (4, 4)], [⟨31, 0, .rw, 0, []⟩]⟩

/-- LING_CMD_x, offset 0x04B0 + 0x100x, runs the command. (04_ling_ternary_memory.md) -/
def rLingCmd : RegRow :=
  ⟨0x4b0, [(256, 4)], [⟨31, 31, .wo, 0, []⟩, ⟨27, 24, .rw, 0, [(0, 6)]⟩, ⟨23, 22, .rw, 0, [(0, 2)]⟩, ⟨20, 16, .rw, 0, []⟩, ⟨14, 0, .rw, 0, []⟩]⟩

/-- LING_STATUS_x, offset 0x04B4 + 0x100x, reports the command's outcome. (04_ling_ternary_memory.md) -/
def rLingStatus : RegRow :=
  ⟨0x4b4, [(256, 4)], [⟨31, 31, .ro, 0, []⟩, ⟨23, 16, .ro, 0, []⟩, ⟨15, 15, .ro, 0, []⟩, ⟨14, 14, .ro, 0, []⟩, ⟨13, 13, .ro, 0, []⟩, ⟨12, 12, .ro, 0, []⟩, ⟨7, 0, .ro, 0, []⟩]⟩

/-- LING_RESULT_x, offset 0x04B8 + 0x100x, returns the index and move count. (04_ling_ternary_memory.md) -/
def rLingResult : RegRow :=
  ⟨0x4b8, [(256, 4)], [⟨31, 16, .ro, 0, []⟩, ⟨14, 0, .ro, 0, []⟩]⟩

/-- lingCnt (counters, one for each line of the list in the file). (04_ling_ternary_memory.md) -/
def rLingCnt : RegRow :=
  ⟨0x800, [(4, 9)], [⟨31, 0, .rc, 0, []⟩]⟩

/-- LING_EVENT, offset 0x0840, holds Ling's unit events, which drive unit_event in UCB_EVENT_SUMMARY. (04_ling_ternary_memory.md) -/
def rLingEvent : RegRow :=
  ⟨0x840, [], [⟨3, 3, .w1c, 0, []⟩, ⟨2, 2, .w1c, 0, []⟩, ⟨1, 1, .w1c, 0, []⟩, ⟨0, 0, .w1c, 0, []⟩]⟩

/-- WARREN_CACHE_CFG, offset 0x0100, sets the pinned part of the cache. (05_warren_tables_and_learning.md) -/
def rWarrenCacheCfg : RegRow :=
  ⟨0x100, [], [⟨4, 0, .rw, 0, [(0, 16)]⟩]⟩

/-- WARREN_LEARN_CFG, offset 0x0104, sets the learn rate and wait. (05_warren_tables_and_learning.md) -/
def rWarrenLearnCfg : RegRow :=
  ⟨0x104, [], [⟨31, 25, .rw, 0x64, [(0, 100)]⟩, ⟨24, 12, .rw, 0x400, [(1, 8191)]⟩, ⟨11, 0, .rw, 0x400, []⟩]⟩

/-- WARREN_FLAP_CFG, offset 0x0108, configures FLAPPING. (05_warren_tables_and_learning.md) -/
def rWarrenFlapCfg : RegRow :=
  ⟨0x108, [], [⟨31, 24, .rw, 5, []⟩, ⟨23, 12, .rw, 0x3e8, [(1, 4095)]⟩, ⟨11, 0, .rw, 0x32, [(1, 4095)]⟩]⟩

/-- WARREN_EVENT, offset 0x010C, holds Warren's unit events, which drive unit_event in UCB_EVENT_SUMMARY. (05_warren_tables_and_learning.md) -/
def rWarrenEvent : RegRow :=
  ⟨0x10c, [], [⟨5, 5, .w1c, 0, []⟩, ⟨4, 4, .w1c, 0, []⟩, ⟨3, 3, .w1c, 0, []⟩, ⟨2, 2, .w1c, 0, []⟩, ⟨1, 1, .w1c, 0, []⟩, ⟨0, 0, .w1c, 0, []⟩]⟩

/-- WARREN_LOG, offset 0x0110, captures the latest flapping, learn_fail, check_fail or data_error event. (05_warren_tables_and_learning.md) -/
def rWarrenLog : RegRow :=
  ⟨0x110, [], [⟨31, 30, .ro, 0, []⟩, ⟨29, 26, .ro, 0, []⟩, ⟨25, 0, .ro, 0, []⟩]⟩

/-- warrenCnt (counters, one for each line of the list in the file). (05_warren_tables_and_learning.md) -/
def rWarrenCnt : RegRow :=
  ⟨0x180, [(4, 12)], [⟨31, 0, .rc, 0, []⟩]⟩

/-- WARREN_TBL_CFG_t, offset 0x1000 + 0x100t, t = 0–15, defines table t. (05_warren_tables_and_learning.md) -/
def rWarrenTblCfg : RegRow :=
  ⟨0x1000, [(256, 16)], [⟨31, 30, .rw, 0, []⟩, ⟨29, 29, .rw, 0, []⟩, ⟨28, 24, .rw, 1, [(1, 24)]⟩, ⟨23, 17, .rw, 1, [(1, 127)]⟩, ⟨16, 16, .rw, 0, []⟩, ⟨15, 15, .rw, 0, []⟩, ⟨14, 13, .rw, 0, [(0, 2)]⟩, ⟨12, 12, .rw, 0, []⟩]⟩

/-- WARREN_TBL_BASE_t, offset 0x1004 + 0x100t, places table t. (05_warren_tables_and_learning.md) -/
def rWarrenTblBase : RegRow :=
  ⟨0x1004, [(256, 16)], [⟨29, 0, .rw, 0, []⟩]⟩

/-- WARREN_TBL_POLICY_t, offset 0x1008 + 0x100t, sets aging and the learned port position. (05_warren_tables_and_learning.md) -/
def rWarrenTblPolicy : RegRow :=
  ⟨0x1008, [(256, 16)], [⟨31, 16, .rw, 0x7530, [(1, 65535)]⟩, ⟨5, 0, .rw, 0, [(0, 58)]⟩]⟩

/-- WARREN_TBL_STATUS_t, offset 0x100C + 0x100t, reports table occupancy. (05_warren_tables_and_learning.md) -/
def rWarrenTblStatus : RegRow :=
  ⟨0x100c, [(256, 16)], [⟨26, 0, .ro, 0, []⟩]⟩

/-- WARREN_TBL_LEARN_ACT_(4t + k), offset 0x1010 + 0x100t + 4k, k = 0–3, holds the template action word. (05_warren_tables_and_learning.md) -/
def rWarrenTblLearnAct : RegRow :=
  ⟨0x1010, [(256, 16), (4, 4)], [⟨31, 0, .rw, 0, []⟩]⟩

/-- WARREN_TBL_FAIL_ACT_(4t + k), offset 0x1020 + 0x100t + 4k, k = 0–3, holds the learn-fail action word. (05_warren_tables_and_learning.md) -/
def rWarrenTblFailAct : RegRow :=
  ⟨0x1020, [(256, 16), (4, 4)], [⟨31, 0, .rw, 0, []⟩]⟩

/-- warrenTblCnt (counters, one for each line of the list in the file). (05_warren_tables_and_learning.md) -/
def rWarrenTblCnt : RegRow :=
  ⟨0x1040, [(256, 16), (4, 8)], [⟨31, 0, .rc, 0, []⟩]⟩

/-- WARREN_KEY_k, offset 0x0100 + 4k, k = 0–23, holds key bytes 4k to 4k + 3. (05_warren_tables_and_learning.md) -/
def rWarrenKey : RegRow :=
  ⟨0x100, [(4, 24)], [⟨31, 0, .rw, 0, []⟩]⟩

/-- WARREN_DATA_k, offset 0x0180 + 4k, k = 0–3, holds the action word. (05_warren_tables_and_learning.md) -/
def rWarrenData : RegRow :=
  ⟨0x180, [(4, 4)], [⟨31, 0, .rw, 0, []⟩]⟩

/-- WARREN_CMP_k, offset 0x0190 + 4k, k = 0–1, holds the COMPARE_WRITE comparison value. (05_warren_tables_and_learning.md) -/
def rWarrenCmp : RegRow :=
  ⟨0x190, [(4, 2)], [⟨31, 0, .rw, 0, []⟩]⟩

/-- WARREN_CMD, offset 0x01A0, runs a command. (05_warren_tables_and_learning.md) -/
def rWarrenCmd : RegRow :=
  ⟨0x1a0, [], [⟨31, 31, .wo, 0, []⟩, ⟨27, 24, .rw, 0, []⟩, ⟨23, 20, .rw, 0, []⟩, ⟨19, 19, .rw, 0, []⟩, ⟨18, 18, .rw, 0, []⟩, ⟨17, 17, .rw, 0, []⟩]⟩

/-- WARREN_BUSY, offset 0x01A4, reports progress. (05_warren_tables_and_learning.md) -/
def rWarrenBusy : RegRow :=
  ⟨0x1a4, [], [⟨0, 0, .ro, 0, []⟩]⟩

/-- WARREN_STATUS, offset 0x01A8, reports the outcome. (05_warren_tables_and_learning.md) -/
def rWarrenStatus : RegRow :=
  ⟨0x1a8, [], [⟨19, 14, .ro, 0, []⟩, ⟨13, 13, .ro, 0, []⟩, ⟨12, 12, .ro, 0, []⟩, ⟨11, 11, .ro, 0, []⟩, ⟨10, 10, .ro, 0, []⟩, ⟨9, 9, .ro, 0, []⟩, ⟨7, 0, .ro, 0, []⟩]⟩

/-- WARREN_INDEX, offset 0x01AC, carries the entry index. (05_warren_tables_and_learning.md) -/
def rWarrenIndex : RegRow :=
  ⟨0x1ac, [], [⟨25, 0, .rw, 0, []⟩]⟩

/-- KETTLE_HOLD_CFG, offset 0x0100, sets the limits of R166. (06_kettle_tasks_and_order.md) -/
def rKettleHoldCfg : RegRow :=
  ⟨0x100, [], [⟨31, 16, .rw, 0x64, [(1, 65535)]⟩, ⟨15, 0, .rw, 0x2710, [(1, 65535)]⟩]⟩

/-- KETTLE_BUDGET_k, offset 0x0110 + 4k, k = 0–3, defines budget class k. (06_kettle_tasks_and_order.md) -/
def rKettleBudget : RegRow :=
  ⟨0x110, [(4, 4)], [⟨16, 0, .rw, 0x1000, [(1, 65536)]⟩]⟩

/-- KETTLE_TCLASS_k, offset 0x0200 + 8k, k = 0–15, sets the quota and budget of tenant class k. (06_kettle_tasks_and_order.md) -/
def rKettleTclass : RegRow :=
  ⟨0x200, [(8, 16)], [⟨13, 12, .rw, 0, []⟩, ⟨10, 0, .rw, 0x5e, [(0, 1512)]⟩]⟩

/-- KETTLE_TTOK_k, offset 0x0204 + 8k, k = 0–15, sets the release-buffer reservation and cap of tenant class k. (06_kettle_tasks_and_order.md) -/
def rKettleTtok : RegRow :=
  ⟨0x204, [(8, 16)], [⟨30, 16, .rw, 0, [(0, 16384)]⟩, ⟨14, 0, .rw, 0x400, [(1, 16384)]⟩]⟩

/-- kettleCnt (counters, one for each line of the list in the file). (06_kettle_tasks_and_order.md) -/
def rKettleCnt : RegRow :=
  ⟨0x300, [(4, 12)], [⟨31, 0, .rc, 0, []⟩]⟩

/-- KETTLE_EVENT, offset 0x0380, holds Kettle's unit events, which drive unit_event in UCB_EVENT_SUMMARY. (06_kettle_tasks_and_order.md) -/
def rKettleEvent : RegRow :=
  ⟨0x380, [], [⟨2, 2, .w1c, 0, []⟩, ⟨1, 1, .w1c, 0, []⟩, ⟨0, 0, .w1c, 0, []⟩]⟩

/-- KETTLE_TSEL_j, offset 0x2000 + 4j, j = 0–2,047, gives the class of tenants 8j to 8j + 7. (06_kettle_tasks_and_order.md) -/
def rKettleTsel : RegRow :=
  ⟨0x2000, [(4, 2048)], [⟨31, 0, .rw, 0, []⟩]⟩

/-- QUIRE_FAULT_MAP_k, page offset 0x900 + 4k, k = 0–2, shows valid records. (07_leaf_threads_and_events.md) -/
def rQuireFaultMap : RegRow :=
  ⟨0x1900, [(4, 3)], [⟨31, 0, .ro, 0, []⟩]⟩

/-- QUIRE_SUP_CAUSE, page offset 0x910, gives the supervisor's cause. (07_leaf_threads_and_events.md) -/
def rQuireSupCause : RegRow :=
  ⟨0x1910, [], [⟨1, 1, .w1c, 0, []⟩, ⟨0, 0, .ro, 0, []⟩]⟩

/-- QUIRE_THREAD_CMD, page offset 0x914, acts on one thread. (07_leaf_threads_and_events.md) -/
def rQuireThreadCmd : RegRow :=
  ⟨0x1914, [], [⟨9, 8, .wo, 0, [(0, 2)]⟩, ⟨6, 0, .wo, 0, [(0, 71)]⟩]⟩

/-- QUIRE_FAULT_CFG, page offset 0x918, sets automatic restart. (07_leaf_threads_and_events.md) -/
def rQuireFaultCfg : RegRow :=
  ⟨0x1918, [], [⟨7, 0, .rw, 0, []⟩]⟩

/-- QUIRE_DEADLOCK_CFG, page offset 0x91C, sets the escalation limit. (07_leaf_threads_and_events.md) -/
def rQuireDeadlockCfg : RegRow :=
  ⟨0x191c, [], [⟨31, 0, .rw, 0x3e8, []⟩]⟩

/-- QUIRE_DEADLOCK_STATUS, page offset 0x920, reports detections. (07_leaf_threads_and_events.md) -/
def rQuireDeadlockStatus : RegRow :=
  ⟨0x1920, [], [⟨31, 31, .ro, 0, []⟩, ⟨15, 0, .rc, 0, []⟩]⟩

/-- QUIRE_FAULT_CNT_k, page offset 0x940 + 4k, k = 0–7, counts faults of kind k + 1. (07_leaf_threads_and_events.md) -/
def rQuireFaultCnt : RegRow :=
  ⟨0x1940, [(4, 8)], [⟨31, 0, .rc, 0, []⟩]⟩

/-- QUIRE_EVENT, window offset 0x0100, holds the Quire's unit events, which drive unit_event in UCB_EVENT_SUMMARY. (07_leaf_threads_and_events.md) -/
def rQuireEvent : RegRow :=
  ⟨0x100, [], [⟨1, 1, .w1c, 0, []⟩, ⟨0, 0, .w1c, 0, []⟩]⟩

/-- QUIRE_SEV_DROP_CNT, window offset 0x0104, counts discarded SEVs. (07_leaf_threads_and_events.md) -/
def rQuireSevDropCnt : RegRow :=
  ⟨0x104, [], [⟨31, 0, .rc, 0, []⟩]⟩

/-- LEAF_DBG_CTRL, Leaf window offset 0x0100, takes debug commands. (07_leaf_threads_and_events.md) -/
def rLeafDbgCtrl : RegRow :=
  ⟨0x100, [], [⟨10, 8, .wo, 0, []⟩, ⟨3, 0, .wo, 0, [(0, 4)]⟩]⟩

/-- LEAF_DBG_STATUS, Leaf window offset 0x0104, reports thread states. (07_leaf_threads_and_events.md) -/
def rLeafDbgStatus : RegRow :=
  ⟨0x104, [], [⟨31, 24, .ro, 0, []⟩, ⟨23, 16, .ro, 0, []⟩, ⟨15, 8, .ro, 0, []⟩, ⟨0, 0, .w1c, 0, []⟩]⟩

/-- LEAF_DBG_SEL, Leaf window offset 0x0108, selects what LEAF_DBG_DATA returns. (07_leaf_threads_and_events.md) -/
def rLeafDbgSel : RegRow :=
  ⟨0x108, [], [⟨10, 8, .rw, 0, []⟩, ⟨7, 0, .rw, 0, [(0, 51)]⟩]⟩

/-- LEAF_DBG_DATA_k, Leaf window offset 0x0110 + 4k, k = 0–1, holds bits 32k + 31:32k of the item. (07_leaf_threads_and_events.md) -/
def rLeafDbgData : RegRow :=
  ⟨0x110, [(4, 2)], [⟨31, 0, .ro, 0, []⟩]⟩

/-- CP_ATTACH, offset 0x2000, reports which coprocessors are attached. (09_coprocessors_and_tooling.md) -/
def rCpAttach : RegRow :=
  ⟨0x2000, [], [⟨7, 0, .ro, 0, []⟩]⟩

/-- CP_IDENT_c, offset 0x2010 + 4(c − 4), c = 4–7, identifies customer logic. It reads zero where none is attached (09_coprocessors_and_tooling.md) -/
def rCpIdent : RegRow :=
  ⟨0x2010, [(4, 4)], [⟨31, 16, .ro, 0, []⟩, ⟨9, 8, .ro, 0, []⟩, ⟨5, 0, .ro, 0, []⟩]⟩

/-- CLASP_CNT_k, offset 0x2040 + 4k, k = 0–3, counts Clasp activity. k is 0 operations committed, 1 context switch (09_coprocessors_and_tooling.md) -/
def rClaspCnt : RegRow :=
  ⟨0x2040, [(4, 4)], [⟨31, 0, .rc, 0, []⟩]⟩

/-- TOOLING_VERSION, offset 0x2100, identifies the microcode loaded. (09_coprocessors_and_tooling.md) -/
def rToolingVersion : RegRow :=
  ⟨0x2100, [], [⟨31, 16, .ro, 0x100, []⟩, ⟨15, 0, .ro, 0, []⟩]⟩

/-- TOOLING_DECODE_n, offset 0x2200 + 4n, n = 0–63, holds decode entry n. (09_coprocessors_and_tooling.md) -/
def rToolingDecode : RegRow :=
  ⟨0x2200, [(4, 64)], [⟨31, 31, .ro, 1, []⟩, ⟨25, 16, .ro, 0, []⟩, ⟨15, 0, .ro, 0, []⟩]⟩

/-- TOOLING_DECODE_n for n from 48 to 63, the entries a patch image or Spine sets. (09_coprocessors_and_tooling.md) -/
def rToolingDecodeRw : RegRow :=
  ⟨0x22c0, [(4, 16)], [⟨31, 31, .rw, 0, []⟩, ⟨25, 16, .rw, 0, []⟩, ⟨15, 0, .rw, 0, []⟩]⟩

/-- TOOLING_MATCH_m, offset 0x2300 + 4m, m = 0–31, holds match register m. It is set by the patch image. (09_coprocessors_and_tooling.md) -/
def rToolingMatch : RegRow :=
  ⟨0x2300, [(4, 32)], [⟨31, 31, .ro, 0, []⟩, ⟨29, 16, .ro, 0, []⟩, ⟨8, 0, .ro, 0, []⟩]⟩

/-- TOOLING_CNT_k, offset 0x2380 + 4k, k = 0–3, counts Tooling activity. k is 0 custom instructions completed, 1 i (09_coprocessors_and_tooling.md) -/
def rToolingCnt : RegRow :=
  ⟨0x2380, [(4, 4)], [⟨31, 0, .rc, 0, []⟩]⟩

/-- QUIRE_WIN_ADDR, offset 0x0200, selects the entry. (10_stile_locks_and_tenant_windows.md) -/
def rQuireWinAddr : RegRow :=
  ⟨0x200, [], [⟨31, 31, .rw, 0, []⟩, ⟨13, 0, .rw, 0, []⟩]⟩

/-- QUIRE_WIN_CMD, offset 0x0204, runs the command. busy lasts at most 8 LEAF cycles. (10_stile_locks_and_tenant_windows.md) -/
def rQuireWinCmd : RegRow :=
  ⟨0x204, [], [⟨31, 31, .wo, 0, []⟩, ⟨30, 30, .ro, 0, []⟩, ⟨0, 0, .rw, 0, []⟩]⟩

/-- QUIRE_WIN_DATA_k, offset 0x0210 + 4k, k = 0–3, holds bytes 4k to 4k + 3 of a window entry. A tenant map entry (10_stile_locks_and_tenant_windows.md) -/
def rQuireWinData : RegRow :=
  ⟨0x210, [(4, 4)], [⟨31, 0, .rw, 0, []⟩]⟩

/-- STILE_QUERY_SEL, offset 0x0100, selects the lock reported by the two registers after it. (10_stile_locks_and_tenant_windows.md) -/
def rStileQuerySel : RegRow :=
  ⟨0x100, [], [⟨12, 0, .rw, 0, []⟩]⟩

/-- STILE_QUERY_STATE, offset 0x0104, reports the selected lock. (10_stile_locks_and_tenant_windows.md) -/
def rStileQueryState : RegRow :=
  ⟨0x104, [], [⟨31, 31, .ro, 0, []⟩, ⟨30, 30, .ro, 0, []⟩, ⟨12, 0, .ro, 0, []⟩]⟩

/-- STILE_QUERY_HOLDER, offset 0x0108, identifies the selected lock's holder. (10_stile_locks_and_tenant_windows.md) -/
def rStileQueryHolder : RegRow :=
  ⟨0x108, [], [⟨19, 0, .ro, 0, []⟩]⟩

/-- STILE_FORCE, offset 0x010C, frees one lock under R296. (10_stile_locks_and_tenant_windows.md) -/
def rStileForceReg : RegRow :=
  ⟨0x10c, [], [⟨31, 31, .wo, 0, []⟩, ⟨12, 0, .wo, 0, []⟩]⟩

/-- stileCnt (counters, one for each line of the list in the file). (10_stile_locks_and_tenant_windows.md) -/
def rStileCnt : RegRow :=
  ⟨0x200, [(4, 9)], [⟨31, 0, .rc, 0, []⟩]⟩

/-- STILE_EVENT, offset 0x0240, holds Stile's unit events, which drive unit_event in UCB_EVENT_SUMMARY. (10_stile_locks_and_tenant_windows.md) -/
def rStileEvent : RegRow :=
  ⟨0x240, [], [⟨3, 3, .w1c, 0, []⟩, ⟨2, 2, .w1c, 0, []⟩, ⟨1, 1, .w1c, 0, []⟩, ⟨0, 0, .w1c, 0, []⟩]⟩

/-- STILE_LOCK_CFG_n, offset 0x2000 + 4n, n = 0–8,191, configures lock n. (10_stile_locks_and_tenant_windows.md) -/
def rStileLockCfg : RegRow :=
  ⟨0x2000, [(4, 8192)], [⟨31, 30, .rw, 0, []⟩, ⟨13, 0, .rw, 0, []⟩]⟩

/-- LOFT_POOL_CFG_p, offset 0x0100 + 0x10p, p = 0–63, configures pool p. (11_loft_buffers.md) -/
def rLoftPoolCfg : RegRow :=
  ⟨0x100, [(16, 64)], [⟨31, 30, .rw, 0, [(0, 2)]⟩, ⟨29, 29, .rw, 0, []⟩, ⟨28, 23, .rw, 0, []⟩, ⟨15, 0, .rw, 0x500, []⟩]⟩

/-- LOFT_POOL_BASE_p, offset 0x0104 + 0x10p, places the range. (11_loft_buffers.md) -/
def rLoftPoolBase : RegRow :=
  ⟨0x104, [(16, 64)], [⟨27, 0, .rw, 0, []⟩]⟩

/-- LOFT_POOL_SIZE_p, offset 0x0108 + 0x10p, sizes the range. (11_loft_buffers.md) -/
def rLoftPoolSize : RegRow :=
  ⟨0x108, [(16, 64)], [⟨27, 0, .rw, 0, []⟩]⟩

/-- LOFT_POOL_STATUS_p, offset 0x010C + 0x10p, reports the pool. (11_loft_buffers.md) -/
def rLoftPoolStatus : RegRow :=
  ⟨0x10c, [(16, 64)], [⟨31, 31, .ro, 0, []⟩, ⟨27, 0, .ro, 0, []⟩]⟩

/-- LOFT_HBM_CFG, offset 0x0600, places the buffer memory region. (11_loft_buffers.md) -/
def rLoftHbmCfg : RegRow :=
  ⟨0x600, [], [⟨15, 8, .rw, 0, [(0, 160)]⟩, ⟨7, 0, .rw, 0, [(0, 191)]⟩]⟩

/-- LOFT_EVENT, offset 0x0604, holds Loft's unit events, which drive unit_event in UCB_EVENT_SUMMARY. (11_loft_buffers.md) -/
def rLoftEvent : RegRow :=
  ⟨0x604, [], [⟨3, 3, .w1c, 0, []⟩, ⟨2, 2, .w1c, 0, []⟩, ⟨1, 1, .w1c, 0, []⟩, ⟨0, 0, .w1c, 0, []⟩]⟩

/-- LOFT_LOG, offset 0x0608, holds the handle of the latest refusal under R314. (11_loft_buffers.md) -/
def rLoftLog : RegRow :=
  ⟨0x608, [], [⟨31, 0, .ro, 0, []⟩]⟩

/-- loftCnt (counters, one for each line of the list in the file). (11_loft_buffers.md) -/
def rLoftCnt : RegRow :=
  ⟨0x610, [(4, 8)], [⟨31, 0, .rc, 0, []⟩]⟩

/-- LOFT_TQUERY_SEL, offset 0x0680, selects a tenant and logical pool. (11_loft_buffers.md) -/
def rLoftTquerySel : RegRow :=
  ⟨0x680, [], [⟨21, 16, .rw, 0, []⟩, ⟨13, 0, .rw, 0, []⟩]⟩

/-- LOFT_TQUERY_USED, offset 0x0684, reports the selection's U. Like Kettle's window, the Loft window is kept out (11_loft_buffers.md) -/
def rLoftTqueryUsed : RegRow :=
  ⟨0x684, [], [⟨27, 0, .ro, 0, []⟩]⟩

/-- LOFT_PORT_CFG_n, offset 0x0700 + 4n, n = 0–35, sets the port's priority source and shows XOFF. (11_loft_buffers.md) -/
def rLoftPortCfg : RegRow :=
  ⟨0x700, [(4, 36)], [⟨31, 31, .rw, 1, []⟩, ⟨15, 8, .ro, 0, []⟩, ⟨2, 0, .rw, 0, []⟩]⟩

/-- LOFT_PP_CFG_i, offset 0x0800 + 4i, i = 8n + q, configures (n, q). (11_loft_buffers.md) -/
def rLoftPpCfg : RegRow :=
  ⟨0x800, [(4, 288)], [⟨31, 31, .rw, 0, []⟩, ⟨5, 0, .rw, 0, []⟩]⟩

/-- LOFT_PP_THR_i, offset 0x1000 + 4i, sets the PFC thresholds of (n, q). (11_loft_buffers.md) -/
def rLoftPpThr : RegRow :=
  ⟨0x1000, [(4, 288)], [⟨31, 16, .rw, 0x1000, []⟩, ⟨15, 0, .rw, 0xc00, []⟩]⟩

/-- loftPortDropCnt (counters, one for each line of the list in the file). (11_loft_buffers.md) -/
def rLoftPortDropCnt : RegRow :=
  ⟨0x1800, [(4, 288)], [⟨31, 0, .rc, 0, []⟩]⟩

/-- LOFT_TSEL_j, offset 0x2000 + 4j, j = 0–2,047, gives the class of tenants 8j to 8j + 7. (11_loft_buffers.md) -/
def rLoftTsel : RegRow :=
  ⟨0x2000, [(4, 2048)], [⟨31, 0, .rw, 0, []⟩]⟩

/-- LOFT_TRES_(16p + k), offset 0x4000 + 4(16p + k), sets the reserve of class k in the logical pool of pool p. (11_loft_buffers.md) -/
def rLoftTres : RegRow :=
  ⟨0x4000, [(4, 1024)], [⟨27, 0, .rw, 0, []⟩]⟩

/-- LOFT_TCAP_(16p + k), offset 0x5000 + 4(16p + k), sets its cap and alpha. (11_loft_buffers.md) -/
def rLoftTcap : RegRow :=
  ⟨0x5000, [(4, 1024)], [⟨31, 28, .rw, 7, [(0, 11)]⟩, ⟨27, 0, .rw, 0x4000, []⟩]⟩

/-- DROVER_IND_ADDR, offset 0x0100, selects the entry. (12_drover_scheduling_shaping_policing.md) -/
def rDroverIndAddr : RegRow :=
  ⟨0x100, [], [⟨31, 30, .rw, 0, []⟩, ⟨29, 27, .rw, 0, []⟩, ⟨19, 0, .rw, 0, []⟩]⟩

/-- DROVER_IND_CMD, offset 0x0104, runs the command. busy lasts at most 16 FABRIC cycles. (12_drover_scheduling_shaping_policing.md) -/
def rDroverIndCmd : RegRow :=
  ⟨0x104, [], [⟨31, 31, .wo, 0, []⟩, ⟨30, 30, .ro, 0, []⟩, ⟨29, 29, .ro, 0, []⟩, ⟨1, 0, .rw, 0, [(0, 2)]⟩]⟩

/-- DROVER_IND_DATA_k, offset 0x0110 + 4k, k = 0–7, holds bytes 4k to 4k + 3 of the entry. (12_drover_scheduling_shaping_policing.md) -/
def rDroverIndData : RegRow :=
  ⟨0x110, [(4, 8)], [⟨31, 0, .rw, 0, []⟩]⟩

/-- DROVER_FLUSH, offset 0x0140, flushes a queue under R337. (12_drover_scheduling_shaping_policing.md) -/
def rDroverFlushReg : RegRow :=
  ⟨0x140, [], [⟨31, 31, .wo, 0, []⟩, ⟨30, 30, .ro, 0, []⟩, ⟨16, 0, .rw, 0, []⟩]⟩

/-- DROVER_EVENT, offset 0x0180, holds Drover's unit events, which drive unit_event in UCB_EVENT_SUMMARY. (12_drover_scheduling_shaping_policing.md) -/
def rDroverEvent : RegRow :=
  ⟨0x180, [], [⟨1, 1, .w1c, 0, []⟩, ⟨0, 0, .w1c, 0, []⟩]⟩

/-- droverCnt (counters, one for each line of the list in the file). (12_drover_scheduling_shaping_policing.md) -/
def rDroverCnt : RegRow :=
  ⟨0x200, [(4, 14)], [⟨31, 0, .rc, 0, []⟩]⟩

/-- DROVER_PFC_CFG_n, offset 0x0400 + 4n, n = 0–31, sets the flow control of Ethernet port n. (12_drover_scheduling_shaping_policing.md) -/
def rDroverPfcCfg : RegRow :=
  ⟨0x400, [(4, 32)], [⟨31, 30, .rw, 0, [(0, 2)]⟩, ⟨29, 16, .rw, 0x64, []⟩, ⟨15, 0, .rw, 0xffff, [(1, 65535)]⟩]⟩

/-- DROVER_PFC_STATUS_n, offset 0x0480 + 4n, n = 0–31, reports received pause. (12_drover_scheduling_shaping_policing.md) -/
def rDroverPfcStatus : RegRow :=
  ⟨0x480, [(4, 32)], [⟨15, 8, .ro, 0, []⟩, ⟨7, 0, .ro, 0, []⟩]⟩

/-- PORT_CFG, offset 0x0100, sets the mode. (13_ports_macsec_and_finisher.md) -/
def rPortCfg : RegRow :=
  ⟨0x100, [], [⟨31, 28, .rw, 3, [(0, 6)]⟩, ⟨27, 27, .rw, 0, []⟩, ⟨13, 0, .rw, 0x2580, [(64, 9600)]⟩]⟩

/-- PORT_STATUS, offset 0x0104, reports the link. (13_ports_macsec_and_finisher.md) -/
def rPortStatus : RegRow :=
  ⟨0x104, [], [⟨15, 8, .ro, 0, []⟩, ⟨3, 3, .ro, 0, []⟩, ⟨2, 2, .ro, 0, []⟩, ⟨1, 1, .ro, 0, []⟩, ⟨0, 0, .ro, 0, []⟩]⟩

/-- PORT_TEST, offset 0x0108, controls test patterns under R347. (13_ports_macsec_and_finisher.md) -/
def rPortTest : RegRow :=
  ⟨0x108, [], [⟨31, 31, .rw, 0, []⟩, ⟨30, 30, .rw, 0, []⟩, ⟨29, 27, .rw, 0, [(0, 5)]⟩, ⟨26, 25, .rw, 0, [(0, 2)]⟩]⟩

/-- PORT_RECAL, offset 0x010C, runs recalibration under R346. (13_ports_macsec_and_finisher.md) -/
def rPortRecal : RegRow :=
  ⟨0x10c, [], [⟨31, 31, .wo, 0, []⟩, ⟨30, 30, .ro, 0, []⟩, ⟨29, 28, .ro, 0, []⟩]⟩

/-- PORT_TS_CFG, offset 0x0110, corrects timestamps for the board. (13_ports_macsec_and_finisher.md) -/
def rPortTsCfg : RegRow :=
  ⟨0x110, [], [⟨15, 8, .rw, 0, []⟩, ⟨7, 0, .rw, 0, []⟩]⟩

/-- PORT_MACSEC_CFG, offset 0x0120, controls MACsec. (13_ports_macsec_and_finisher.md) -/
def rPortMacsecCfg : RegRow :=
  ⟨0x120, [], [⟨31, 31, .rw, 0, []⟩, ⟨30, 30, .rw, 1, []⟩, ⟨29, 28, .rw, 0, []⟩, ⟨27, 0, .rw, 0, []⟩]⟩

/-- PORT_LANE_ERR_i, offset 0x0140 + 4i, i = 0–7, counts checker errors on the port's lane i. (13_ports_macsec_and_finisher.md) -/
def rPortLaneErr : RegRow :=
  ⟨0x140, [(4, 8)], [⟨31, 0, .rc, 0, []⟩]⟩

/-- PORT_EVENT, offset 0x0180, holds the port's unit events, which drive unit_event in UCB_EVENT_SUMMARY. (13_ports_macsec_and_finisher.md) -/
def rPortEvent : RegRow :=
  ⟨0x180, [], [⟨3, 3, .w1c, 0, []⟩, ⟨2, 2, .w1c, 0, []⟩, ⟨1, 1, .w1c, 0, []⟩, ⟨0, 0, .w1c, 0, []⟩]⟩

/-- portCnt (counters, one for each line of the list in the file). (13_ports_macsec_and_finisher.md) -/
def rPortCnt : RegRow :=
  ⟨0x200, [(4, 16)], [⟨31, 0, .rc, 0, []⟩]⟩

/-- finisherCnt (counters, one for each line of the list in the file). (13_ports_macsec_and_finisher.md) -/
def rFinisherCnt : RegRow :=
  ⟨0x100, [(4, 6)], [⟨31, 0, .rc, 0, []⟩]⟩

/-- SHEAF_MINUTE_CFG, offset 0x0100, sets the minute clock. (14_sheaf_and_rick_metering.md) -/
def rSheafMinuteCfg : RegRow :=
  ⟨0x100, [], [⟨31, 24, .rw, 0x25, []⟩, ⟨15, 0, .rw, 0x3e8, [(1, 30000)]⟩]⟩

/-- SHEAF_RING_CFG, offset 0x0104, places the record ring. (14_sheaf_and_rick_metering.md) -/
def rSheafRingCfg : RegRow :=
  ⟨0x104, [], [⟨31, 31, .rw, 0, []⟩, ⟨11, 0, .rw, 0, []⟩]⟩

/-- SHEAF_ROOT_CFG, offset 0x0108, places the root ring. (14_sheaf_and_rick_metering.md) -/
def rSheafRootCfg : RegRow :=
  ⟨0x108, [], [⟨21, 0, .rw, 0, []⟩]⟩

/-- SHEAF_NOW, offset 0x0110, reports c. (14_sheaf_and_rick_metering.md) -/
def rSheafNow : RegRow :=
  ⟨0x110, [], [⟨31, 0, .ro, 0, []⟩]⟩

/-- SHEAF_CLOSED, offset 0x0114, reports the last close. (14_sheaf_and_rick_metering.md) -/
def rSheafClosed : RegRow :=
  ⟨0x114, [], [⟨31, 0, .ro, 0, []⟩]⟩

/-- SHEAF_STATUS, offset 0x0118, reports the close. (14_sheaf_and_rick_metering.md) -/
def rSheafStatus : RegRow :=
  ⟨0x118, [], [⟨1, 1, .ro, 0, []⟩, ⟨0, 0, .ro, 0, []⟩]⟩

/-- SHEAF_QUERY_SEL, offset 0x0120, selects a counter. (14_sheaf_and_rick_metering.md) -/
def rSheafQuerySel : RegRow :=
  ⟨0x120, [], [⟨31, 31, .rw, 0, []⟩, ⟨29, 24, .rw, 0, []⟩, ⟨13, 0, .rw, 0, []⟩]⟩

/-- SHEAF_QUERY_DATA_k, offset 0x0124 + 4k, k = 0–1, returns the counter. A read of k = 0 captures all 64 bits, an (14_sheaf_and_rick_metering.md) -/
def rSheafQueryData : RegRow :=
  ⟨0x124, [(4, 2)], [⟨31, 0, .ro, 0, []⟩]⟩

/-- SHEAF_EVENT, offset 0x0140, holds the unit events, which drive unit_event in UCB_EVENT_SUMMARY. (14_sheaf_and_rick_metering.md) -/
def rSheafEvent : RegRow :=
  ⟨0x140, [], [⟨3, 3, .w1c, 0, []⟩, ⟨2, 2, .w1c, 0, []⟩, ⟨1, 1, .w1c, 0, []⟩, ⟨0, 0, .w1c, 0, []⟩]⟩

/-- sheafCnt (counters, one for each line of the list in the file). (14_sheaf_and_rick_metering.md) -/
def rSheafCnt : RegRow :=
  ⟨0x180, [(4, 6)], [⟨31, 0, .rc, 0, []⟩]⟩

/-- RICK_CFG, offset 0x0200, configures Rick. (14_sheaf_and_rick_metering.md) -/
def rRickCfg : RegRow :=
  ⟨0x200, [], [⟨31, 31, .rw, 0, []⟩, ⟨28, 24, .rw, 0x18, [(1, 24)]⟩, ⟨22, 16, .rw, 0, [(0, 64)]⟩, ⟨8, 0, .rw, 0x80, [(128, 511)]⟩]⟩

/-- RICK_SRC, offset 0x0204, locates the index. (14_sheaf_and_rick_metering.md) -/
def rRickSrc : RegRow :=
  ⟨0x204, [], [⟨5, 0, .rw, 0x10, [(16, 60)]⟩]⟩

/-- RICK_BASE, offset 0x0208, places the Rick ring. (14_sheaf_and_rick_metering.md) -/
def rRickBase : RegRow :=
  ⟨0x208, [], [⟨11, 0, .rw, 0, []⟩]⟩

/-- TMC_REGION_CFG_r, offset 0x0100 + 8r, r = 0–15, configures region r. (15_buffer_and_table_memory.md) -/
def rTmcRegionCfg : RegRow :=
  ⟨0x100, [(8, 16)], [⟨31, 31, .rw, 0, []⟩, ⟨30, 30, .rw, 0, []⟩, ⟨29, 20, .rw, 0x40, []⟩, ⟨19, 15, .rw, 0xc, [(8, 16)]⟩, ⟨11, 0, .rw, 0, []⟩]⟩

/-- TMC_REGION_SIZE_r, offset 0x0104 + 8r, sizes and places region r. (15_buffer_and_table_memory.md) -/
def rTmcRegionSize : RegRow :=
  ⟨0x104, [(8, 16)], [⟨31, 20, .rw, 0, [(0, 3072)]⟩, ⟨7, 0, .rw, 0, []⟩]⟩

/-- TMC_SIZE, offset 0x0180, reports the populated size. (15_buffer_and_table_memory.md) -/
def rTmcSize : RegRow :=
  ⟨0x180, [], [⟨11, 0, .ro, 0, []⟩]⟩

/-- TMC_REF_CFG, offset 0x0200, sets the refresh limits of R392. (15_buffer_and_table_memory.md) -/
def rTmcRefCfg : RegRow :=
  ⟨0x200, [], [⟨31, 28, .rw, 8, [(0, 8)]⟩, ⟨27, 24, .rw, 4, [(0, 8)]⟩, ⟨23, 23, .rw, 0, []⟩]⟩

/-- TMC_REF_CFG, offset 0x0200, sets the refresh limits of R392. (15_buffer_and_table_memory.md) -/
def rBmcRefCfg : RegRow :=
  ⟨0x200, [], [⟨31, 28, .rw, 8, [(0, 8)]⟩, ⟨27, 24, .rw, 4, [(0, 8)]⟩, ⟨23, 23, .ro, 0, []⟩]⟩

/-- TMC_NRR_CFG, offset 0x0204, configures neighbour-row refresh. (15_buffer_and_table_memory.md) -/
def rTmcNrrCfg : RegRow :=
  ⟨0x204, [], [⟨15, 12, .rw, 0xa, [(6, 14)]⟩, ⟨1, 0, .rw, 2, [(1, 2)]⟩]⟩

/-- TMC_NRR_CFG, offset 0x0204, configures neighbour-row refresh. (15_buffer_and_table_memory.md) -/
def rBmcNrrCfg : RegRow :=
  ⟨0x204, [], [⟨15, 12, .rw, 0xa, [(6, 14)]⟩, ⟨1, 0, .rw, 2, [(1, 2)]⟩]⟩

/-- TMC_SR_CFG, offset 0x0208, enables idle self-refresh. (15_buffer_and_table_memory.md) -/
def rTmcSrCfg : RegRow :=
  ⟨0x208, [], [⟨15, 0, .rw, 0, []⟩]⟩

/-- TMC_SR_CFG, offset 0x0208, enables idle self-refresh. (15_buffer_and_table_memory.md) -/
def rBmcSrCfg : RegRow :=
  ⟨0x208, [], [⟨15, 0, .rw, 0, []⟩]⟩

/-- BMC_MAP_CFG, offset 0x0100 of window 281, sets the mapping and page policy. (15_buffer_and_table_memory.md) -/
def rBmcMapCfg : RegRow :=
  ⟨0x100, [], [⟨30, 30, .rw, 0, []⟩, ⟨29, 20, .rw, 0x20, []⟩, ⟨19, 15, .rw, 8, [(8, 13)]⟩]⟩

/-- BMC_RT_CFG, offset 0x0100 of each stack window, sets the panic thresholds. (15_buffer_and_table_memory.md) -/
def rBmcRtCfg : RegRow :=
  ⟨0x100, [], [⟨31, 24, .rw, 8, []⟩, ⟨23, 12, .rw, 0x60, []⟩, ⟨11, 0, .rw, 0x20, []⟩]⟩

/-- BMC_RT_STATUS, offset 0x0104, reports the port. (15_buffer_and_table_memory.md) -/
def rBmcRtStatus : RegRow :=
  ⟨0x104, [], [⟨31, 31, .ro, 0, []⟩, ⟨7, 0, .ro, 0, []⟩]⟩

/-- BMC_RT_CNT_k, offset 0x0110 + 4k, k = 0–2, counts under R397. (15_buffer_and_table_memory.md) -/
def rBmcRtCnt : RegRow :=
  ⟨0x110, [(4, 3)], [⟨31, 0, .rc, 0, []⟩]⟩

/-- TMC_CH_STATUS, offset 0x0100, reports what R379 found. (15_buffer_and_table_memory.md) -/
def rTmcChStatus : RegRow :=
  ⟨0x100, [], [⟨31, 23, .ro, 0, []⟩, ⟨19, 16, .ro, 0, []⟩, ⟨13, 12, .ro, 0, []⟩, ⟨11, 10, .ro, 0, []⟩, ⟨9, 9, .ro, 0, []⟩, ⟨8, 8, .ro, 0, []⟩]⟩

/-- TMC_CH_RETRAIN, offset 0x0104, runs retraining under R399. (15_buffer_and_table_memory.md) -/
def rTmcChRetrain : RegRow :=
  ⟨0x104, [], [⟨31, 31, .wo, 0, []⟩, ⟨30, 30, .ro, 0, []⟩, ⟨29, 28, .ro, 0, []⟩]⟩

/-- TMC_CH_RETRAIN, offset 0x0104, runs retraining under R399. (15_buffer_and_table_memory.md) -/
def rBmcChRetrain : RegRow :=
  ⟨0x104, [], [⟨31, 31, .wo, 0, []⟩, ⟨30, 30, .ro, 0, []⟩, ⟨29, 28, .ro, 0, []⟩]⟩

/-- tmcChCnt (counters, one for each line of the list in the file). (15_buffer_and_table_memory.md) -/
def rTmcChCnt : RegRow :=
  ⟨0x140, [(4, 10)], [⟨31, 0, .rc, 0, []⟩]⟩

/-- bmcChCnt (counters, one for each line of the list in the file). (15_buffer_and_table_memory.md) -/
def rBmcChCnt : RegRow :=
  ⟨0x140, [(4, 10)], [⟨31, 0, .rc, 0, []⟩]⟩

/-- TMC_CH_EVENT, offset 0x0180, holds the channel's unit events, which drive unit_event in UCB_EVENT_SUMMARY. The (15_buffer_and_table_memory.md) -/
def rTmcChEvent : RegRow :=
  ⟨0x180, [], [⟨2, 2, .w1c, 0, []⟩, ⟨1, 1, .w1c, 0, []⟩, ⟨0, 0, .w1c, 0, []⟩]⟩

/-- TMC_CH_EVENT, offset 0x0180, holds the channel's unit events, which drive unit_event in UCB_EVENT_SUMMARY. The (15_buffer_and_table_memory.md) -/
def rBmcChEvent : RegRow :=
  ⟨0x180, [], [⟨2, 2, .w1c, 0, []⟩, ⟨1, 1, .w1c, 0, []⟩, ⟨0, 0, .w1c, 0, []⟩]⟩

/-- MOWER_CFG, offset 0x0100, enables targets. (16_ecc_mower_and_repair.md) -/
def rMowerCfg : RegRow :=
  ⟨0x100, [], [⟨23, 16, .rw, 4, []⟩, ⟨10, 0, .rw, 0x7ff, []⟩]⟩

/-- MOWER_LAP_t, offset 0x0200 + 8t, t = 0–10, reports the last lap. (16_ecc_mower_and_repair.md) -/
def rMowerLap : RegRow :=
  ⟨0x200, [(8, 11)], [⟨31, 31, .ro, 0, []⟩, ⟨30, 0, .ro, 0, []⟩]⟩

/-- MOWER_LAP_LIMIT_t, offset 0x0204 + 8t, sets the lap limit. (16_ecc_mower_and_repair.md) -/
def rMowerLapLimit : RegRow :=
  ⟨0x204, [(8, 11)], [⟨31, 0, .rw, 0, []⟩]⟩

/-- MOWER_LOG_SEL, offset 0x0300, selects a log entry. (16_ecc_mower_and_repair.md) -/
def rMowerLogSel : RegRow :=
  ⟨0x300, [], [⟨31, 31, .wo, 0, []⟩, ⟨24, 16, .rw, 0, []⟩, ⟨14, 8, .rw, 0, []⟩, ⟨3, 0, .rw, 0, [(0, 9)]⟩]⟩

/-- MOWER_LOG_DATA_k, offset 0x0310 + 4k, k = 0–3, and MOWER_SUM_(4e + k), offset 0x0400 + 16e + 4k, e = 0–31, hol (16_ecc_mower_and_repair.md) -/
def rMowerLogData : RegRow :=
  ⟨0x310, [(4, 4)], [⟨31, 0, .ro, 0, []⟩]⟩

/-- MOWER_LOG_DATA_k, offset 0x0310 + 4k, k = 0–3, and MOWER_SUM_(4e + k), offset 0x0400 + 16e + 4k, e = 0–31, hol (16_ecc_mower_and_repair.md) -/
def rMowerSum : RegRow :=
  ⟨0x400, [(4, 128)], [⟨31, 0, .ro, 0, []⟩]⟩

/-- MOWER_SUM_SEQ, offset 0x0600, counts summary entries. (16_ecc_mower_and_repair.md) -/
def rMowerSumSeq : RegRow :=
  ⟨0x600, [], [⟨31, 0, .ro, 0, []⟩]⟩

/-- MOWER_OVL_CTRL, offset 0x0610, arms the overlay. (16_ecc_mower_and_repair.md) -/
def rMowerOvlCtrl : RegRow :=
  ⟨0x610, [], [⟨31, 31, .rw, 0, []⟩, ⟨24, 16, .rw, 0, []⟩, ⟨14, 8, .rw, 0, []⟩]⟩

/-- MOWER_OVL_ADDR_k, offset 0x0614 + 4k, k = 0–1, and MOWER_OVL_MASK_k, offset 0x0620 + 4k, k = 0–3, hold the add (16_ecc_mower_and_repair.md) -/
def rMowerOvlAddr : RegRow :=
  ⟨0x614, [(4, 2)], [⟨31, 0, .rw, 0, []⟩]⟩

/-- MOWER_OVL_ADDR_k, offset 0x0614 + 4k, k = 0–1, and MOWER_OVL_MASK_k, offset 0x0620 + 4k, k = 0–3, hold the add (16_ecc_mower_and_repair.md) -/
def rMowerOvlMask : RegRow :=
  ⟨0x620, [(4, 4)], [⟨31, 0, .rw, 0, []⟩]⟩

/-- MOWER_EVENT, offset 0x0780, holds Mower's unit events, which drive unit_event in UCB_EVENT_SUMMARY. (16_ecc_mower_and_repair.md) -/
def rMowerEvent : RegRow :=
  ⟨0x780, [], [⟨2, 2, .w1c, 0, []⟩, ⟨1, 1, .w1c, 0, []⟩, ⟨0, 0, .w1c, 0, []⟩]⟩

/-- mowerCnt (counters, one for each line of the list in the file). (16_ecc_mower_and_repair.md) -/
def rMowerCnt : RegRow :=
  ⟨0x800, [(4, 6)], [⟨31, 0, .rc, 0, []⟩]⟩

/-- COMMONS_BUDGET_(5c + r), offset 0x0100 + 4(5c + r), c = 0–10, r = 0–4, sets one budget. (17_commons_budgets.md) -/
def rCommonsBudget : RegRow :=
  ⟨0x100, [(4, 55)], [⟨15, 0, .rw, 0, []⟩]⟩

/-- COMMONS_STALL_CNT_c, offset 0x0200 + 4c, c = 0–10, counts exhausted rounds. (17_commons_budgets.md) -/
def rCommonsStallCnt : RegRow :=
  ⟨0x200, [(4, 11)], [⟨31, 0, .rc, 0, []⟩]⟩

/-- COMMONS_DRAWN_CNT_r, offset 0x0240 + 4r, r = 0–4, counts tokens drawn. (17_commons_budgets.md) -/
def rCommonsDrawnCnt : RegRow :=
  ⟨0x240, [(4, 5)], [⟨31, 0, .rc, 0, []⟩]⟩

/-- COMMONS_CFG, offset 0x0280, sets the starvation limit. (17_commons_budgets.md) -/
def rCommonsCfg : RegRow :=
  ⟨0x280, [], [⟨15, 0, .rw, 0x400, []⟩]⟩

/-- COMMONS_EVENT, offset 0x0284, holds Commons' unit events, which drive unit_event in UCB_EVENT_SUMMARY. (17_commons_budgets.md) -/
def rCommonsEvent : RegRow :=
  ⟨0x284, [], [⟨0, 0, .w1c, 0, []⟩]⟩

/-- COMMONS_STARVED, offset 0x0288, shows which classes are in such a run. (17_commons_budgets.md) -/
def rCommonsStarved : RegRow :=
  ⟨0x288, [], [⟨10, 0, .ro, 0, []⟩]⟩

/-- EVT_STATUS_k and EVT_MASK_k, one register per group: (18_spine_mailboxes_and_events.md) -/
def rEvtStatus : RegRow :=
  ⟨0x100, [(4, 32)], [⟨31, 0, .w1c, 0, []⟩]⟩

/-- EVT_STATUS_k and EVT_MASK_k, one register per group: (18_spine_mailboxes_and_events.md) -/
def rEvtMask : RegRow :=
  ⟨0x180, [(4, 32)], [⟨31, 0, .rw, 0xffffffff, []⟩]⟩

/-- EVT_ROUTE_s, window 428 offset 0x1000 + 4s, s = 0–1,023, routes source s. (18_spine_mailboxes_and_events.md) -/
def rEvtRoute : RegRow :=
  ⟨0x1000, [(4, 1024)], [⟨31, 30, .rw, 0, []⟩, ⟨29, 24, .rw, 0, []⟩, ⟨23, 16, .rw, 0, []⟩, ⟨15, 11, .rw, 0, []⟩, ⟨5, 0, .rw, 0, [(0, 23), (63, 63)]⟩]⟩

/-- EVT_LIMIT_s, window 428 offset 0x2000 + 4s, limits source s. (18_spine_mailboxes_and_events.md) -/
def rEvtLimit : RegRow :=
  ⟨0x2000, [(4, 1024)], [⟨31, 16, .rw, 0x3e8, []⟩, ⟨15, 0, .rw, 1, []⟩]⟩

/-- EVT_STUCK_k, window 428 offset 0x0200 + 4k, k = 0–31, and EVT_CNT_k, offset 0x0280 + 4k, k = 0–2: (18_spine_mailboxes_and_events.md) -/
def rEvtStuck : RegRow :=
  ⟨0x200, [(4, 32)], [⟨31, 0, .w1c, 0, []⟩]⟩

/-- EVT_STUCK_k, window 428 offset 0x0200 + 4k, k = 0–31, and EVT_CNT_k, offset 0x0280 + 4k, k = 0–2: (18_spine_mailboxes_and_events.md) -/
def rEvtCnt : RegRow :=
  ⟨0x280, [(4, 3)], [⟨31, 0, .rc, 0, []⟩]⟩

/-- TIME_NOW_k, offset 0x0100 + 4k, k = 0–1, returns device time. A read of k = 0 captures all 64 bits, and the ne (18_spine_mailboxes_and_events.md) -/
def rTimeNow : RegRow :=
  ⟨0x100, [(4, 2)], [⟨31, 0, .ro, 0, []⟩]⟩

/-- TIME_CFG, offset 0x0110, selects the source. (18_spine_mailboxes_and_events.md) -/
def rTimeCfg : RegRow :=
  ⟨0x110, [], [⟨31, 30, .rw, 0, [(0, 2)]⟩, ⟨29, 29, .rw, 0, []⟩, ⟨21, 16, .rw, 0, [(0, 31)]⟩, ⟨15, 0, .rw, 0x3e8, [(1, 65535)]⟩]⟩

/-- TIME_PPS_OFFSET, offset 0x0114, compensates for cable and board delay. (18_spine_mailboxes_and_events.md) -/
def rTimePpsOffset : RegRow :=
  ⟨0x114, [], [⟨31, 0, .rw, 0, []⟩]⟩

/-- TIME_FREQ, offset 0x0118, holds f. (18_spine_mailboxes_and_events.md) -/
def rTimeFreq : RegRow :=
  ⟨0x118, [], [⟨31, 0, .rw, 0, [(0, 500000), (4294467296, 4294967295)]⟩]⟩

/-- TIME_STEP_k, offset 0x0120 + 4k, k = 0–1, holds the step. (18_spine_mailboxes_and_events.md) -/
def rTimeStep : RegRow :=
  ⟨0x120, [(4, 2)], [⟨31, 0, .rw, 0, []⟩]⟩

/-- TIME_CTRL, offset 0x0128, applies the step. (18_spine_mailboxes_and_events.md) -/
def rTimeCtrl : RegRow :=
  ⟨0x128, [], [⟨31, 31, .wo, 0, []⟩, ⟨30, 30, .ro, 0, []⟩]⟩

/-- TIME_STATUS, offset 0x012C, reports R462. (18_spine_mailboxes_and_events.md) -/
def rTimeStatus : RegRow :=
  ⟨0x12c, [], [⟨31, 30, .ro, 0, []⟩, ⟨29, 29, .ro, 0, []⟩, ⟨28, 28, .ro, 0, []⟩]⟩

/-- TIME_PPS_ERR, offset 0x0130, and TIME_SLEW_LEFT, offset 0x0134, report the last edge and the slew. (18_spine_mailboxes_and_events.md) -/
def rTimePpsErr : RegRow :=
  ⟨0x130, [], [⟨31, 0, .ro, 0, []⟩]⟩

/-- TIME_PPS_ERR, offset 0x0130, and TIME_SLEW_LEFT, offset 0x0134, report the last edge and the slew. (18_spine_mailboxes_and_events.md) -/
def rTimeSlewLeft : RegRow :=
  ⟨0x134, [], [⟨31, 0, .ro, 0, []⟩]⟩

/-- timeCnt (counters, one for each line of the list in the file). (18_spine_mailboxes_and_events.md) -/
def rTimeCnt : RegRow :=
  ⟨0x140, [(4, 3)], [⟨31, 0, .rc, 0, []⟩]⟩

/-- SEC_STATE, offset 0x0100, reports the security state. (19_trust_keys_and_attestation.md) -/
def rSecState : RegRow :=
  ⟨0x100, [], [⟨23, 20, .ro, 0, []⟩, ⟨16, 16, .ro, 0, []⟩, ⟨11, 8, .ro, 0, []⟩, ⟨1, 0, .ro, 0, []⟩]⟩

/-- SEC_ROLLBACK_k, offset 0x0110 + 4k, k = 0–3, reports the rollback counters. (19_trust_keys_and_attestation.md) -/
def rSecRollback : RegRow :=
  ⟨0x110, [(4, 4)], [⟨31, 0, .ro, 0, []⟩]⟩

/-- SEC_EVENT, offset 0x0120, holds the trust engine's unit events, which drive unit_event in the device UCB. (19_trust_keys_and_attestation.md) -/
def rSecEvent : RegRow :=
  ⟨0x120, [], [⟨2, 2, .w1c, 0, []⟩, ⟨1, 1, .w1c, 0, []⟩, ⟨0, 0, .w1c, 0, []⟩]⟩

/-- DEVICE_STRAP, offset 0x0200, reports the latched straps. (20_bring_up_fallow_and_live_service.md) -/
def rDeviceStrap : RegRow :=
  ⟨0x200, [], [⟨9, 9, .ro, 0, []⟩, ⟨8, 8, .ro, 0, []⟩, ⟨7, 7, .ro, 0, []⟩, ⟨6, 4, .ro, 0, []⟩, ⟨3, 3, .ro, 0, []⟩, ⟨2, 2, .ro, 0, []⟩, ⟨1, 0, .ro, 0, []⟩]⟩

/-- DEVICE_BOOT, offset 0x0204, reports the boot. (20_bring_up_fallow_and_live_service.md) -/
def rDeviceBoot : RegRow :=
  ⟨0x204, [], [⟨31, 16, .ro, 0, []⟩, ⟨9, 8, .ro, 3, []⟩, ⟨3, 0, .ro, 0, []⟩]⟩

/-- FALLOW_CTRL, offset 0x0400, runs the handover. (20_bring_up_fallow_and_live_service.md) -/
def rFallowCtrl : RegRow :=
  ⟨0x400, [], [⟨31, 31, .wo, 0, []⟩, ⟨30, 30, .ro, 0, []⟩, ⟨1, 0, .rw, 0, [(0, 2)]⟩]⟩

/-- FALLOW_STATUS, offset 0x0404, reports Fallow. Its done bit drives unit_event in the device UCB. (20_bring_up_fallow_and_live_service.md) -/
def rFallowStatus : RegRow :=
  ⟨0x404, [], [⟨31, 30, .ro, 0, []⟩, ⟨29, 28, .ro, 0, []⟩, ⟨27, 27, .w1c, 0, []⟩, ⟨16, 0, .ro, 0, []⟩]⟩

/-- FALLOW_CFG, offset 0x0408, sets aging and the handover table. (20_bring_up_fallow_and_live_service.md) -/
def rFallowCfg : RegRow :=
  ⟨0x408, [], [⟨31, 16, .rw, 0x12c, [(1, 65535)]⟩, ⟨3, 0, .rw, 0, []⟩]⟩

/-- FALLOW_SWITCHED, offset 0x0410, shows switched ports. (20_bring_up_fallow_and_live_service.md) -/
def rFallowSwitched : RegRow :=
  ⟨0x410, [], [⟨31, 0, .ro, 0, []⟩]⟩

/-- FALLOW_PORT_CFG_n, offset 0x0500 + 4n, n = 0–31, configures Fallow port n. A write takes effect for frames who (20_bring_up_fallow_and_live_service.md) -/
def rFallowPortCfg : RegRow :=
  ⟨0x500, [(4, 32)], [⟨31, 31, .rw, 1, []⟩, ⟨11, 0, .rw, 1, [(1, 4094)]⟩]⟩

/-- fallowCnt (counters, one for each line of the list in the file). (20_bring_up_fallow_and_live_service.md) -/
def rFallowCnt : RegRow :=
  ⟨0x800, [(32, 32), (4, 8)], [⟨31, 0, .rc, 0, []⟩]⟩

/-- GPIO_CFG_n, offset 0x0C00 + 0x10n, n = 0–15, configures input n. (21_signals_supplies_and_package.md) -/
def rGpioCfg : RegRow :=
  ⟨0xc00, [(16, 16)], [⟨31, 31, .rw, 0, []⟩, ⟨30, 30, .rw, 1, []⟩, ⟨15, 0, .rw, 0x64, []⟩]⟩

/-- GPIO_GAP_n, offset 0x0C04 + 0x10n, sets the gap. (21_signals_supplies_and_package.md) -/
def rGpioGap : RegRow :=
  ⟨0xc04, [(16, 16)], [⟨23, 0, .rw, 0x3e8, []⟩]⟩

/-- GPIO_CNT_n, offset 0x0C08 + 0x10n, counts coalesced assertions. (21_signals_supplies_and_package.md) -/
def rGpioCnt : RegRow :=
  ⟨0xc08, [(16, 16)], [⟨31, 0, .rc, 0, []⟩]⟩

/-- GPIO_LEVEL, offset 0x0D00, reports filtered levels. (21_signals_supplies_and_package.md) -/
def rGpioLevel : RegRow :=
  ⟨0xd00, [], [⟨15, 0, .ro, 0, []⟩]⟩

/-- DEVICE_THERM_CFG, offset 0x0D10, sets the thresholds of R535. A write with warn_c at or above crit_c, or with (21_signals_supplies_and_package.md) -/
def rDeviceThermCfg : RegRow :=
  ⟨0xd10, [], [⟨15, 8, .rw, 0x64, []⟩, ⟨7, 0, .rw, 0x6e, []⟩]⟩

/-- QUIRE_FAULT_REC_n, page offset 0x20n: the eight words of fault record n (R200, R204). -/
def rQuireFaultRec : RegRow :=
  ⟨0x1000, [(0x20, 72), (4, 8)], [⟨31, 0, .ro, 0, []⟩]⟩

/-- WINDROW_STAGE_(12p + s), offset 0x4000 + 0x300p + 0x40s: the twelve words of a stage slot (R82). -/
def rWindrowStage : RegRow :=
  ⟨0x4000, [(0x300, 64), (0x40, 12), (4, 12)], [⟨31, 0, .rw, 0, []⟩]⟩

/-- MOWER_HARD_STATUS, offset 0x0700: the entries queued for hard repair (16_ecc_mower_and_repair.md). -/
def rMowerHardStatus : RegRow :=
  ⟨0x700, [], [⟨6, 0, .ro, 0, []⟩]⟩

/-- MOWER_HARD_DATA_k, offset 0x0704 + 4k: the oldest queued repair entry (16_ecc_mower_and_repair.md). -/
def rMowerHardData : RegRow :=
  ⟨0x704, [(4, 4)], [⟨31, 0, .ro, 0, []⟩]⟩

/-- WINDROW_EXC_DEST_x, offset 0x0C00 + 4x: the queue for exc_code x, in the layout of WINDROW_MIRROR_m with trunc reserved (03_windrow_classification.md). -/
def rWindrowExcDest : RegRow :=
  ⟨0xc00, [(4, 256)], [⟨31, 31, .rw, 0, []⟩, ⟨16, 0, .rw, 0, []⟩]⟩

/-- The registers of UCB. -/
def regsUCB : List RegRow :=
  [rUcbIdent0, rUcbIdent1, rUcbPath, rUcbMembers, rUcbState, rUcbCtrl,
   rUcbCmdStatus, rUcbDrainLimit, rUcbEventSummary, rUcbEventMask, rUcbRejectAddr, rUcbReservedAccess,
   rUcbUpdateSlot, rUcbUpdateStatus, rUcbSpareBind]

/-- The registers of Tedder. -/
def regsTedder : List RegRow :=
  [rTedderPortCtx, rTedderGraphSel, rTedderGraphId, rTedderFragCfg, rTedderFragStatus, rTedderFragCnt,
   rTedderEvent, rTedderPortCnt, rTedderMalCnt]

/-- The registers of Windrow. -/
def regsWindrow : List RegRow :=
  [rWindrowCtxProf, rWindrowPortCfg, rWindrowProfCfg, rWindrowIndAddr, rWindrowIndCmd, rWindrowIndData,
   rWindrowDirectCfg, rWindrowRangeCfg, rWindrowCnt, rWindrowEvent, rWindrowMirror, rWindrowExcClass,
   rWindrowStageHitCnt, rWindrowExcTsel, rWindrowStage, rWindrowExcDest]

/-- The registers of Ling. -/
def regsLing : List RegRow :=
  [rLingSlotMap, rLingDbCfg, rLingDbStatus, rLingData, rLingCare, rLingAct,
   rLingCmd, rLingStatus, rLingResult, rLingCnt, rLingEvent]

/-- The registers of Warren. -/
def regsWarren : List RegRow :=
  [rWarrenCacheCfg, rWarrenLearnCfg, rWarrenFlapCfg, rWarrenEvent, rWarrenLog, rWarrenCnt,
   rWarrenTblCfg, rWarrenTblBase, rWarrenTblPolicy, rWarrenTblStatus, rWarrenTblLearnAct, rWarrenTblFailAct,
   rWarrenTblCnt]

/-- The registers of WarrenEngine. -/
def regsWarrenEngine : List RegRow :=
  [rWarrenKey, rWarrenData, rWarrenCmp, rWarrenCmd, rWarrenBusy, rWarrenStatus,
   rWarrenIndex]

/-- The registers of Kettle. -/
def regsKettle : List RegRow :=
  [rKettleHoldCfg, rKettleBudget, rKettleTclass, rKettleTtok, rKettleCnt, rKettleEvent,
   rKettleTsel]

/-- The registers of Quire. -/
def regsQuire : List RegRow :=
  [rQuireFaultMap, rQuireSupCause, rQuireThreadCmd, rQuireFaultCfg, rQuireDeadlockCfg, rQuireDeadlockStatus,
   rQuireFaultCnt, rQuireEvent, rQuireSevDropCnt, rCpAttach, rCpIdent, rClaspCnt,
   rToolingVersion, rToolingDecodeRw, rToolingDecode, rToolingMatch, rToolingCnt, rQuireWinAddr,
   rQuireWinCmd, rQuireWinData, rQuireFaultRec]

/-- The registers of Leaf. -/
def regsLeaf : List RegRow :=
  [rLeafDbgCtrl, rLeafDbgStatus, rLeafDbgSel, rLeafDbgData]

/-- The registers of Stile. -/
def regsStile : List RegRow :=
  [rStileQuerySel, rStileQueryState, rStileQueryHolder, rStileForceReg, rStileCnt, rStileEvent,
   rStileLockCfg]

/-- The registers of Loft. -/
def regsLoft : List RegRow :=
  [rLoftPoolCfg, rLoftPoolBase, rLoftPoolSize, rLoftPoolStatus, rLoftHbmCfg, rLoftEvent,
   rLoftLog, rLoftCnt, rLoftTquerySel, rLoftTqueryUsed, rLoftPortCfg, rLoftPpCfg,
   rLoftPpThr, rLoftPortDropCnt, rLoftTsel, rLoftTres, rLoftTcap]

/-- The registers of Drover. -/
def regsDrover : List RegRow :=
  [rDroverIndAddr, rDroverIndCmd, rDroverIndData, rDroverFlushReg, rDroverEvent, rDroverCnt,
   rDroverPfcCfg, rDroverPfcStatus]

/-- The registers of Port. -/
def regsPort : List RegRow :=
  [rPortCfg, rPortStatus, rPortTest, rPortRecal, rPortTsCfg, rPortMacsecCfg,
   rPortLaneErr, rPortEvent, rPortCnt]

/-- The registers of Finisher. -/
def regsFinisher : List RegRow :=
  [rFinisherCnt]

/-- The registers of Sheaf. -/
def regsSheaf : List RegRow :=
  [rSheafMinuteCfg, rSheafRingCfg, rSheafRootCfg, rSheafNow, rSheafClosed, rSheafStatus,
   rSheafQuerySel, rSheafQueryData, rSheafEvent, rSheafCnt, rRickCfg, rRickSrc,
   rRickBase]

/-- The registers of Tmc. -/
def regsTmc : List RegRow :=
  [rTmcRegionCfg, rTmcRegionSize, rTmcSize, rTmcRefCfg, rTmcNrrCfg, rTmcSrCfg]

/-- The registers of Bmc. -/
def regsBmc : List RegRow :=
  [rBmcRefCfg, rBmcNrrCfg, rBmcSrCfg, rBmcMapCfg]

/-- The registers of BmcStack. -/
def regsBmcStack : List RegRow :=
  [rBmcRtCfg, rBmcRtStatus, rBmcRtCnt]

/-- The registers of TmcChannel. -/
def regsTmcChannel : List RegRow :=
  [rTmcChStatus, rTmcChRetrain, rTmcChCnt, rTmcChEvent]

/-- The registers of BmcChannel. -/
def regsBmcChannel : List RegRow :=
  [rBmcChRetrain, rBmcChCnt, rBmcChEvent]

/-- The registers of Mower. -/
def regsMower : List RegRow :=
  [rMowerCfg, rMowerLap, rMowerLapLimit, rMowerLogSel, rMowerLogData, rMowerSum,
   rMowerSumSeq, rMowerOvlCtrl, rMowerOvlAddr, rMowerOvlMask, rMowerEvent, rMowerCnt,
   rMowerHardStatus, rMowerHardData]

/-- The registers of Commons. -/
def regsCommons : List RegRow :=
  [rCommonsBudget, rCommonsStallCnt, rCommonsDrawnCnt, rCommonsCfg, rCommonsEvent, rCommonsStarved]

/-- The registers of Spine. -/
def regsSpine : List RegRow :=
  [rEvtStatus, rEvtMask, rEvtRoute, rEvtLimit, rEvtStuck, rEvtCnt]

/-- The registers of Time. -/
def regsTime : List RegRow :=
  [rTimeNow, rTimeCfg, rTimePpsOffset, rTimeFreq, rTimeStep, rTimeCtrl,
   rTimeStatus, rTimePpsErr, rTimeSlewLeft, rTimeCnt]

/-- The registers of Device. -/
def regsDevice : List RegRow :=
  [rSecState, rSecRollback, rSecEvent, rDeviceStrap, rDeviceBoot, rFallowCtrl,
   rFallowStatus, rFallowCfg, rFallowSwitched, rFallowPortCfg, rFallowCnt, rGpioCfg,
   rGpioGap, rGpioCnt, rGpioLevel, rDeviceThermCfg]

/-- The registers of a Gathering of kind code `kind` beyond its UCB (R14). -/
def regsOfKind (kind : Nat) : List RegRow :=
  match kind with
  | 16 => regsTedder
  | 18 => regsWindrow
  | 12 => regsLing
  | 14 => regsWarren
  | 15 => regsWarrenEngine
  | 20 => regsKettle
  | 3 => regsQuire
  | 4 => regsLeaf
  | 27 => regsStile
  | 24 => regsLoft
  | 22 => regsDrover
  | 6 => regsPort
  | 25 => regsFinisher
  | 26 => regsSheaf
  | 10 => regsTmc
  | 7 => regsBmc
  | 8 => regsBmcStack
  | 11 => regsTmcChannel
  | 9 => regsBmcChannel
  | 29 => regsMower
  | 28 => regsCommons
  | 31 => regsSpine
  | 32 => regsTime
  | 1 => regsDevice
  | _ => []

end Sys2Proof.Machine
end

