-- ==== Sys2Proof/Machine/Ops.lean ====
section
/-! DEFINITION. The named operations every unit is written with: sparse tables and memories, bit fields, byte order, the
registers of a window (R6 to R12), free values, counters, events and reports. -/

namespace Sys2Proof.Machine

/-- The answer of a meaning. -/
abbrev Res := Host.Outcome State Fault Refusal

/-! ### Sparse tables -/

/-- The value at a number, if the table lists it. -/
def SMap.find {α : Type} : SMap α → Nat → Option α
  | [], _ => none
  | (k', v) :: m, k => if k = k' then some v else SMap.find m k

/-- The table without a number. -/
def SMap.erase {α : Type} : SMap α → Nat → SMap α
  | [], _ => []
  | (k', v) :: m, k => if k = k' then SMap.erase m k else (k', v) :: SMap.erase m k

/-- The table with a pair put in its place of the order, before every greater number. -/
def SMap.insert {α : Type} : SMap α → Nat → α → SMap α
  | [], k, v => [(k, v)]
  | (k', v') :: m, k, v => if k < k' then (k, v) :: (k', v') :: m else (k', v') :: SMap.insert m k v

/-- The table with a number's value replaced. -/
def SMap.put {α : Type} (m : SMap α) (k : Nat) (v : α) : SMap α := SMap.insert (SMap.erase m k) k v

/-- The value at a number in a table whose unlisted numbers hold `d`. -/
def SMap.get {α : Type} (d : Nat → α) (m : SMap α) (k : Nat) : α := (SMap.find m k).getD (d k)

/-- Writing a table whose unlisted numbers hold `d`: a value equal to it is not listed. -/
def SMap.set {α : Type} [DecidableEq α] (d : Nat → α) (m : SMap α) (k : Nat) (v : α) : SMap α :=
  if v = d k then SMap.erase m k else SMap.put m k v

/-- The numbers rise strictly. -/
def SMap.sorted {α : Type} : SMap α → Bool
  | [] => true
  | [_] => true
  | (k, _) :: (k', v') :: m => decide (k < k') && SMap.sorted ((k', v') :: m)

/-- The canonical form: rising numbers, and no entry equal to what an unlisted number holds. -/
def SMap.wf {α : Type} [DecidableEq α] (d : Nat → α) (m : SMap α) : Bool :=
  SMap.sorted m && m.all (fun e => decide (e.2 ≠ d e.1))

/-! ### Memories: byte tables whose unlisted addresses read zero -/

/-- What an unlisted address of a memory reads as (log 7). -/
def unlistedByte (_ : Nat) : Byte := 0

/-- The canonical form of a memory. -/
def Memory.wf (m : List Host.Cell) : Bool := SMap.wf unlistedByte m

/-- One byte of a memory. -/
def Memory.read (m : List Host.Cell) (a : Nat) : Byte := SMap.get unlistedByte m a

/-- A memory with one byte written. -/
def Memory.write (m : List Host.Cell) (a : Nat) (b : Byte) : List Host.Cell := SMap.set unlistedByte m a b

/-- `n` bytes of a memory from an address up. -/
def Memory.readBytes (m : List Host.Cell) (a : Nat) : Nat → List Byte
  | 0 => []
  | n + 1 => Memory.read m a :: Memory.readBytes m (a + 1) n

/-- A memory with bytes written from an address up. -/
def Memory.writeBytes (m : List Host.Cell) (a : Nat) : List Byte → List Host.Cell
  | [] => m
  | b :: bs => Memory.writeBytes (Memory.write m a b) (a + 1) bs

/-! ### Bits and bytes -/

/-- Bits `hi` to `lo` of a number. -/
def bitsOf (v hi lo : Nat) : Nat := (v >>> lo) % 2 ^ (hi - lo + 1)

/-- Bits `hi` to `lo` of a register value. -/
def fld (v : Word32) (hi lo : Nat) : Nat := bitsOf v.toNat hi lo

/-- A register value with bits `hi` to `lo` replaced by the low bits of `x`. -/
def putFld (v : Word32) (hi lo x : Nat) : Word32 :=
  let mask : Word32 := BitVec.ofNat 32 ((2 ^ (hi - lo + 1) - 1) <<< lo)
  (v &&& ~~~mask) ||| (BitVec.ofNat 32 (x <<< lo) &&& mask)

/-- Bytes as a little-endian number (R5). -/
def leNat : List Byte → Nat
  | [] => 0
  | b :: bs => b.toNat + 256 * leNat bs

/-- `n` little-endian bytes of a number (R5). -/
def leBytes : Nat → Nat → List Byte
  | 0, _ => []
  | n + 1, v => BitVec.ofNat 8 v :: leBytes n (v / 256)

/-- Bytes as a big-endian number, network order (R5). -/
def beNat (bs : List Byte) : Nat := bs.foldl (fun acc b => acc * 256 + b.toNat) 0

/-- `n` big-endian bytes of a number. -/
def beBytes (n v : Nat) : List Byte := (leBytes n v).reverse

/-- Byte `i` of a list, zero beyond its end. -/
def byteAt (bs : List Byte) (i : Nat) : Byte := bs.getD i 0

/-- `n` bytes of a list from `i`, zero beyond its end. -/
def bytesAt (bs : List Byte) (i n : Nat) : List Byte :=
  let part := (bs.drop i).take n
  part ++ List.replicate (n - part.length) 0

/-- A list with bytes written over it from `i`; nothing is written beyond its end. -/
def patchBytes (bs : List Byte) (i : Nat) (new : List Byte) : List Byte :=
  let new' := new.take (bs.length - i)
  bs.take i ++ new' ++ bs.drop (i + new'.length)

/-- A byte list zero-padded or cut to a length. -/
def fitBytes (bs : List Byte) (n : Nat) : List Byte := bytesAt bs 0 n

/-- The sum of `f` over a list. -/
def sumOf {α : Type} (l : List α) (f : α → Nat) : Nat := l.foldl (fun acc x => acc + f x) 0

/-- A truth value as a bit. -/
def bit (b : Bool) : Nat := if b then 1 else 0

/-! ### The tree of Gatherings (R14) -/

/-- The kind code of a window (R14). -/
def kindOf (w : Nat) : Nat :=
  if w = 0 then 0x01 else if w < 5 then 0x02 else if w < 29 then 0x03 else if w < 245 then 0x04
  else if w < 249 then 0x05 else if w < 281 then 0x06 else if w = 281 then 0x07 else if w < 284 then 0x08
  else if w < 316 then 0x09 else if w = 316 then 0x0A else if w < 329 then 0x0B else if w = 329 then 0x0C
  else if w < 396 then 0x0D else if w = 396 then 0x0E else if w < 401 then 0x0F else if w = 401 then 0x10
  else if w < 406 then 0x11 else if w = 406 then 0x12 else if w < 411 then 0x13 else if w = 411 then 0x14
  else if w < 416 then 0x15 else if w = 416 then 0x16 else if w < 421 then 0x17 else if w < 430 then w - 397
  else 0

/-- The window of Quire `q` (0 to 23, numbered 6s + q). -/
def quireWin (q : Nat) : Nat := 5 + q

/-- The window of Leaf position `l` of Quire `q`. -/
def leafWin (q l : Nat) : Nat := 29 + 9 * q + l

/-- The window of Ethernet port `n`. -/
def portWin (n : Nat) : Nat := 249 + n

/-- The window of buffer memory stack `k`, of its channel `c`, and of table memory channel `c`. -/
def stackWin (k : Nat) : Nat := 282 + k
def bmChannelWin (k c : Nat) : Nat := 284 + 16 * k + c
def tmChannelWin (c : Nat) : Nat := 317 + c

/-- The window of Ling bank `b`, and of Warren engine `e`. -/
def lingBankWin (b : Nat) : Nat := 330 + b
def warrenEngineWin (e : Nat) : Nat := 397 + e

/-- The windows of the groups and single units of the data path and of the management units (R14). -/
def deviceWin : Nat := 0
def bmcWin : Nat := 281
def tmcWin : Nat := 316
def lingWin : Nat := 329
def warrenWin : Nat := 396
def tedderWin : Nat := 401
def windrowWin : Nat := 406
def kettleWin : Nat := 411
def droverWin : Nat := 416
def loftWin : Nat := 421
def finisherWin : Nat := 422
def sheafWin : Nat := 423
def stileWin : Nat := 424
def commonsWin : Nat := 425
def mowerWin : Nat := 426
def pcieWin : Nat := 427
def spineWin : Nat := 428
def timeWin : Nat := 429

/-- The windows of a Gathering's direct members, in ascending position (R14). -/
def membersOf (w : Nat) : List Nat :=
  match kindOf w with
  | 0x01 => [1, 2, 3, 4, 245, 246, 247, 248, 281, 316, 329, 396, 401, 406, 411, 416, 421, 422, 423, 424, 425, 426, 427, 428, 429]
  | 0x02 => (List.range 6).map (fun q => 5 + 6 * (w - 1) + q)
  | 0x03 => (List.range 9).map (fun l => leafWin (w - 5) l)
  | 0x05 => (List.range 8).map (fun p => 249 + 8 * (w - 245) + p)
  | 0x07 => [282, 283]
  | 0x08 => (List.range 16).map (fun c => bmChannelWin (w - 282) c)
  | 0x0A => (List.range 12).map tmChannelWin
  | 0x0C => (List.range 66).map lingBankWin
  | 0x0E => (List.range 4).map warrenEngineWin
  | 0x10 => (List.range 4).map (fun n => 402 + n)
  | 0x12 => (List.range 4).map (fun n => 407 + n)
  | 0x14 => (List.range 4).map (fun n => 412 + n)
  | 0x16 => (List.range 4).map (fun n => 417 + n)
  | _ => []

/-- The window of the Gathering a Gathering is a direct member of; none for the device. -/
def parentOf (w : Nat) : Option Nat :=
  match kindOf w with
  | 0x01 => none
  | 0x03 => some (1 + (w - 5) / 6)
  | 0x04 => some (5 + (w - 29) / 9)
  | 0x06 => some (245 + (w - 249) / 8)
  | 0x08 => some 281
  | 0x09 => some (282 + (w - 284) / 16)
  | 0x0B => some 316
  | 0x0D => some 329
  | 0x0F => some 396
  | 0x11 => some 401
  | 0x13 => some 406
  | 0x15 => some 411
  | 0x17 => some 416
  | _ => some 0

/-- The Gatherings above a Gathering, nearest first (a path has at most three elements, R17). -/
def ancestorsOf (w : Nat) : List Nat :=
  match parentOf w with
  | none => []
  | some a => a :: match parentOf a with
    | none => []
    | some b => b :: match parentOf b with
      | none => []
      | some c => [c]

/-- The unit path of a Gathering (R14). -/
def pathOf (w : Nat) : List Nat :=
  match kindOf w with
  | 0x01 => []
  | 0x02 => [w - 1]
  | 0x03 => [(w - 5) / 6, (w - 5) % 6]
  | 0x04 => [(w - 29) / 54, (w - 29) % 54 / 9, (w - 29) % 9]
  | 0x05 => [4 + (w - 245)]
  | 0x06 => [4 + (w - 249) / 8, (w - 249) % 8]
  | 0x07 => [8]
  | 0x08 => [8, w - 282]
  | 0x09 => [8, (w - 284) / 16, (w - 284) % 16]
  | 0x0A => [9]
  | 0x0B => [9, w - 317]
  | 0x0C => [10]
  | 0x0D => [10, w - 330]
  | 0x0E => [11]
  | 0x0F => [11, w - 397]
  | 0x10 => [12]
  | 0x11 => [12, w - 402]
  | 0x12 => [13]
  | 0x13 => [13, w - 407]
  | 0x14 => [14]
  | 0x15 => [14, w - 412]
  | 0x16 => [15]
  | 0x17 => [15, w - 417]
  | _ => [w - 405]

/-- What a Gathering holds at device reset (R15, UCB_STATE): OFF, bound, but for the spare Leaves and Ling banks. DESIGN CHOICE (log 45):
which Gatherings are fused off or unpopulated is per part; here none is ABSENT at reset. -/
def gathReset (w : Nat) : Gath :=
  let spare := (kindOf w = 0x04 ∧ (w - 29) % 9 = 8) ∨ w = 394 ∨ w = 395
  ⟨.off, if spare then .spare else .bound, 0, none, none, 0, false⟩

/-- What Gathering `w` holds. -/
def State.gathOf (s : State) (w : Nat) : Gath := SMap.get gathReset s.gath w

/-- Gathering `w` with what it holds replaced. -/
def State.setGath (s : State) (w : Nat) (g : Gath) : State := { s with gath := SMap.set gathReset s.gath w g }

/-- Whether a Gathering's own logic is IN_SERVICE. -/
def State.inService (s : State) (w : Nat) : Bool := (s.gathOf w).own = .inService

/-- Whether a Gathering's own logic goes on with the work it holds: IN_SERVICE, or QUIESCING (R22). -/
def State.serving (s : State) (w : Nat) : Bool := s.inService w || decide ((s.gathOf w).own = .quiescing)

/-- The state code of UCB_STATE. -/
def GState.code : GState → Nat
  | .absent => 0 | .off => 1 | .starting => 2 | .inService => 3
  | .quiescing => 4 | .quiet => 5 | .updating => 6 | .failed => 7

/-- The role code of UCB_STATE. -/
def Role.code : Role → Nat
  | .bound => 0 | .spare => 1 | .retired => 2

/-! ### Registers -/

/-- The index numbers that place `off` in a register row: none if the row does not hold that offset. -/
def matchDims : List (Nat × Nat) → Nat → Nat → Option Nat
  | [], rest, idx => if rest = 0 then some idx else none
  | (stride, count) :: ds, rest, idx =>
    if rest / stride < count then matchDims ds (rest % stride) (idx * count + rest / stride) else none

/-- The register of a list that holds offset `off`, with its index. -/
def findIn : List RegRow → Nat → Option (RegRow × Nat)
  | [], _ => none
  | r :: rs, off =>
    if r.base ≤ off then
      match matchDims r.dims (off - r.base) 0 with
      | some i => some (r, i)
      | none => findIn rs off
    else findIn rs off

/-- The register of window `w` at offset `off`, with its index: none is a reserved address (R12, R17). -/
def regAt (w off : Nat) : Option (RegRow × Nat) :=
  if w ≥ 430 then none
  else if off < 0x100 then findIn regsUCB off
  else findIn (regsOfKind (kindOf w)) off

/-- The position of a slot, a lap limit or a budget whose reset value the tables give by index. -/
def lapLimitReset (t : Nat) : Nat := if t = 9 then 3600000 else if t = 10 then 86400000 else 60000

/-- Floor and reset budget of class `c` on resource `r` (0 buffer memory, 1 table memory, 2 Ling, 3 Warren, 4 Loft): R423. -/
def budgetOf (c r : Nat) : Option (Nat × Nat) :=
  match c, r with
  | 0, 2 => some (4, 64)
  | 1, 3 => some (8, 64) | 1, 0 => some (4, 32) | 1, 1 => some (4, 32)
  | 2, 3 => some (16, 256) | 2, 0 => some (8, 128) | 2, 1 => some (8, 128)
  | 3, 2 => some (4, 64) | 3, 3 => some (4, 64) | 3, 0 => some (4, 64) | 3, 1 => some (4, 64)
  | 4, 4 => some (2, 32) | 4, 0 => some (8, 128) | 4, 1 => some (8, 128)
  | 5, 4 => some (16, 256) | 5, 0 => some (16, 1024) | 5, 1 => some (16, 256)
  | 6, 1 => some (2, 64)
  | 7, 1 => some (2, 32)
  | 8, 0 => some (16, 16) | 8, 1 => some (16, 64)
  | 9, 0 => some (4, 256) | 9, 1 => some (4, 256)
  | 10, 0 => some (0, 64) | 10, 1 => some (0, 16)
  | _, _ => none

/-- The reset value of a register whose table gives it by index, by unit or by part. -/
def regResetSpecial (w base idx : Nat) (v : Nat) : Nat :=
  match kindOf w, base with
  | 0x10, 0x100 => if idx = 32 ∨ idx = 33 ∨ idx = 35 then 0x100 else 0
  | 0x12, 0x300 => idx
  | 0x0C, 0x100 => idx
  | 0x03, 0x2200 => 0x80000000 + idx * 0x10000 + (Config.romRoutine idx) % 0x10000
  | 0x1D, 0x204 => lapLimitReset idx
  | 0x1C, 0x100 => match budgetOf (idx / 5) (idx % 5) with
    | some (_, r) => r
    | none => 0
  | _, _ => v

/-- The value a register holds after the reset of its Gathering (R9). -/
def rowReset (w : Nat) (r : RegRow) (idx : Nat) : Nat :=
  regResetSpecial w r.base idx (r.fields.foldl (fun acc f => acc + f.reset * 2 ^ f.lo) 0)

/-- The reset value of the register with a key of the store: its window times 65,536 plus its offset. -/
def regReset (key : Nat) : Word32 :=
  match regAt (key / 65536) (key % 65536) with
  | some (r, i) => BitVec.ofNat 32 (rowReset (key / 65536) r i)
  | none => 0

/-- The register of window `w` at `off`, as its Gathering holds it. -/
def State.reg (s : State) (w off : Nat) : Word32 := SMap.get regReset s.regs (w * 65536 + off)

/-- Bits `hi` to `lo` of that register. -/
def State.rf (s : State) (w off hi lo : Nat) : Nat := fld (s.reg w off) hi lo

/-- The Gathering sets a register of its own. -/
def State.setReg (s : State) (w off : Nat) (v : Word32) : State :=
  { s with regs := SMap.set regReset s.regs (w * 65536 + off) v }

/-- The Gathering sets bits `hi` to `lo` of a register of its own. -/
def State.setRf (s : State) (w off hi lo x : Nat) : State := s.setReg w off (putFld (s.reg w off) hi lo x)

/-- A counter of 32 bits that saturates at 0xFFFF_FFFF rises by `n`. -/
def State.countBy (s : State) (w off n : Nat) : State :=
  s.setReg w off (BitVec.ofNat 32 (min 0xFFFFFFFF ((s.reg w off).toNat + n)))

/-- A counter rises by one. -/
def State.count (s : State) (w off : Nat) : State := s.countBy w off 1

/-! ### Free values (log 1) -/

/-- A value the spec leaves open, of `w` bits: an opaque constant applied to the model's counter, which advances. -/
def State.freeBits (s : State) : Nat := Config.freeValue s.fresh

/-- The counter of free values advances. -/
def State.stepFresh (s : State) : State := { s with fresh := s.fresh + 1 }

/-! ### Events (R453, R454) -/

/-- A source asserts once: the pulse waits for its delivery (EVENT_ASSERT). -/
def State.raise (s : State) (src : Nat) : State := { s with ev := { s.ev with raised := s.ev.raised ++ [src] } }

/-- The registers that hold the unit events of a kind of Gathering (each drives unit_event): offset and its event bits. -/
def eventRegs (kind : Nat) : List (Nat × Word32) :=
  match kind with
  | 0x01 => [(0x120, 7), (0x404, 0x08000000)]
  | 0x03 => [(0x100, 3)]
  | 0x06 => [(0x180, 15)]
  | 0x09 => [(0x180, 7)]
  | 0x0B => [(0x180, 7)]
  | 0x0C => [(0x840, 15)]
  | 0x0E => [(0x10C, 63)]
  | 0x10 => [(0x240, 3)]
  | 0x12 => [(0x740, 3)]
  | 0x14 => [(0x380, 7)]
  | 0x16 => [(0x180, 3)]
  | 0x18 => [(0x604, 15)]
  | 0x1A => [(0x140, 15)]
  | 0x1B => [(0x240, 15)]
  | 0x1C => [(0x284, 1)]
  | 0x1D => [(0x780, 7)]
  | _ => []

/-- unit_event: a unit event of the Gathering is pending. -/
def State.unitEvent (s : State) (w : Nat) : Bool :=
  (eventRegs (kindOf w)).any (fun e => (s.reg w e.1 &&& e.2) ≠ 0)

/-- The event summary of a Gathering that has no members or whose members' events are given (UCB_EVENT_SUMMARY). -/
def State.summaryWith (s : State) (w : Nat) (member : Bool) : Word32 :=
  let v := s.reg w 0x20
  putFld (putFld v 6 6 (bit (s.unitEvent w))) 7 7 (bit member)

/-- Whether some unmasked bit of a Gathering's summary is set (UCB_EVENT_MASK), `depth` levels of members down. -/
def State.contributes (s : State) : Nat → Nat → Bool
  | 0, w => (s.summaryWith w false &&& ~~~(s.reg w 0x24)) ≠ 0
  | d + 1, w => (s.summaryWith w ((membersOf w).any (fun m => State.contributes s d m)) &&& ~~~(s.reg w 0x24)) ≠ 0

/-- UCB_EVENT_SUMMARY of a Gathering. -/
def State.summary (s : State) (w : Nat) : Word32 :=
  s.summaryWith w ((membersOf w).any (fun m => s.contributes 2 m))

/-- An event bit of a unit register sets. -/
def State.setEvent (s : State) (w off b : Nat) : State := s.setReg w off (s.reg w off ||| BitVec.ofNat 32 (1 <<< b))

/-- A bit of UCB_EVENT_SUMMARY sets. -/
def State.setSummary (s : State) (w b : Nat) : State := s.setEvent w 0x20 b

/-- Whether the action word of an entry has values that R85 lists: next 0 to 2, widths up to 64. -/
def actionListed (a : Word128) : Bool :=
  decide (bitsOf a.toNat 62 61 ≠ 3) && decide (bitsOf a.toNat 28 22 ≤ 64) && decide (bitsOf a.toNat 12 6 ≤ 64)

/-- A write is discarded under R11 or R541: cfg_reject sets, the first offset since it was clear is captured, and the
discarded writes are counted (R18). -/
def State.cfgReject (s : State) (w off : Nat) : State :=
  let v := s.reg w 0x28
  let first := fld (s.reg w 0x20) 0 0 = 0
  let v' := putFld (if first then putFld 0 15 0 off else v) 31 16 (min 0xFFFF ((if first then 0 else fld v 31 16) + 1))
  (s.setReg w 0x28 v').setSummary w 0

/-- The states in the order in which a group reports them (R26). -/
def stateOrder : List GState := [.failed, .updating, .starting, .quiescing, .inService, .quiet, .off, .absent]

/-- The bound members of a Gathering. -/
def State.boundOf (s : State) (w : Nat) : List Nat := (membersOf w).filter (fun m => decide ((s.gathOf m).role = .bound))

/-- The state a Gathering reports, and mixed, `d` levels of members down (R26). -/
def State.reportedTo (s : State) : Nat → Nat → GState × Bool
  | 0, w => ((s.gathOf w).own, false)
  | d + 1, w =>
    let all := (s.gathOf w).own :: (s.boundOf w).map (fun m => (State.reportedTo s d m).1)
    if all.all (fun g => decide (g = (s.gathOf w).own)) then ((s.gathOf w).own, false)
    else ((stateOrder.find? (fun g => all.contains g)).getD (s.gathOf w).own, true)

/-- The state a Gathering reports, and mixed (R26). -/
def State.reported (s : State) (w : Nat) : GState × Bool := s.reportedTo 3 w

/-- A Gathering holds `g` now: state_change sets in it and above it wherever the state reported changes. -/
def State.changeGath (s : State) (w : Nat) (g : Gath) : State :=
  let s1 := s.setGath w g
  (w :: ancestorsOf w).foldl (fun (x : State) a => if (s.reported a).1 = (s1.reported a).1 then x else x.setSummary a 3) s1

/-- A Gathering's own logic enters a state; the moment is noted. -/
def State.enterState (s : State) (w : Nat) (g : GState) : State :=
  let old := s.gathOf w
  if old.own = g then s else s.changeGath w { old with own := g, entered := s.time.cycles, timedOut := false }

/-! ### Reports to Sheaf (R364, R550) -/

/-- An event of R550 is reported: its tenant, its ts and the counters it touches. -/
def State.report (s : State) (tenant : Nat) (ts : Word64) (adds : List (Nat × Nat)) : State :=
  { s with reports := s.reports ++ [⟨tenant, ts, adds, none⟩] }

/-- The flow of Rick that a classification record names (R374): none where Rick is off or the record takes no part. -/
def State.rickFlow (s : State) (md : BitVec 512) : Option Nat :=
  let v := s.reg sheafWin 0x200
  let off := 8 * s.rf sheafWin 0x204 5 0
  if fld v 31 31 = 1 ∧ md.toNat.testBit (fld v 8 0) then some (bitsOf md.toNat (off + 31) off) else none

/-- An event of a position, which may also count for a flow of Rick. -/
def State.reportFlow (s : State) (md : BitVec 512) (tenant : Nat) (ts : Word64) (adds : List (Nat × Nat)) : State :=
  { s with reports := s.reports ++ [⟨tenant, ts, adds, s.rickFlow md⟩] }

/-- The billing counter of a diagnostic counter's class (R366). -/
def dropClass (d : Nat) : Nat :=
  if d = 63 ∨ (24 ≤ d ∧ d ≤ 30) then 10 else if d ≤ 38 then 11 else if d = 39 then 12 else if d ≤ 41 then 13
  else if d ≤ 43 then 14 else if d ≤ 48 ∨ d = 59 ∨ d = 60 then 15 else if d ≤ 55 then 16 else 17

/-- A drop event (R366): one diagnostic counter, its billing counter and its bytes. -/
def State.reportDrop (s : State) (tenant : Nat) (ts : Word64) (diag bytes : Nat) : State :=
  s.report tenant ts [(diag, 1), (dropClass diag, 1), (18, bytes)]

/-- A drop event of a position or of an output of it. -/
def State.reportDropFlow (s : State) (md : BitVec 512) (tenant : Nat) (ts : Word64) (diag bytes : Nat) : State :=
  s.reportFlow md tenant ts [(diag, 1), (dropClass diag, 1), (18, bytes)]

/-! ### Lists -/

/-- A list with the first element that holds a property removed. -/
def removeFirst {α : Type} (p : α → Bool) : List α → List α
  | [] => []
  | x :: xs => if p x then xs else x :: removeFirst p xs

/-- A list with its element `i` replaced. -/
def setAt {α : Type} (l : List α) (i : Nat) (x : α) : List α := l.set i x

end Sys2Proof.Machine
end

