-- ==== Sys2Proof/Machine/Crypto.lean ====
section
/-! DEFINITION. The published algorithms the spec names: AES-256 and GCM (FIPS 197, SP 800-38D), SHA-256, SHA-384 and SHA-512
(FIPS 180-4), HMAC (RFC 2104), HKDF (RFC 5869), ChaCha20 and Poly1305 (RFC 8439), CRCs and the ones'-complement sum. -/

namespace Sys2Proof.Machine

/-- Pieces of a long numeral, highest first, 96 hexadecimal digits each but the last, which has `n`. -/
def hexJoin (n : Nat) : List Nat → Nat
  | [] => 0
  | [x] => x
  | x :: xs => x * 2 ^ (4 * (96 * (xs.length - 1) + n)) + hexJoin n xs

/-! ### AES -/

/-- The S-box of FIPS 197: the byte for x at bit 8x. -/
def aesSboxTable : Nat :=
  hexJoin 32 [
    0x16bb54b00f2d99416842e6bf0d89a18cdf2855cee9871e9b948ed9691198f8e19e1dc186b95735610ef6034866b53e70,
    0x8a8bbd4b1f74dde8c6b4a61c2e2578ba08ae7a65eaf4566ca94ed58d6d37c8e779e4959162acd3c25c2406490a3a32e0,
    0xdb0b5ede14b8ee4688902a22dc4f816073195d643d7ea7c41744975fec130ccdd2f3ff1021dab6bcf5389d928f40a351,
    0xa89f3c507f02f94585334d43fbaaefd0cf584c4a39becb6a5bb1fc20ed00d153842fe329b3d63b52a05a6e1b1a2c8309,
    0x75b227ebe28012079a059618c323c7041531d871f1e5a534ccf73f362693fdb7c072a49cafa2d4adf04759fa7dc982ca,
    0x76abd7fe2b670130c56f6bf27b777c63]

/-- SubBytes of one byte. -/
def aesSub (b : Byte) : Byte := BitVec.ofNat 8 (aesSboxTable >>> (8 * b.toNat))

/-- Multiplication by x in the field of AES. -/
def aesXtime (b : Byte) : Byte := (b <<< 1) ^^^ (if b.getLsbD 7 then 0x1B else 0)

/-- The words of the expanded key, the newest first, after `n` more words; `i` is the number of the next word. -/
def aesExpand : Nat → Nat → Byte → List (List Byte) → List (List Byte)
  | 0, _, _, ws => ws
  | n + 1, i, rcon, ws =>
    let prev := ws.headD []
    let t := if i % 8 = 0 then
        let r := ((prev.drop 1) ++ (prev.take 1)).map aesSub
        (r.zipIdx).map (fun e => if e.2 = 0 then e.1 ^^^ rcon else e.1)
      else if i % 8 = 4 then prev.map aesSub else prev
    let w := List.zipWith (· ^^^ ·) (ws.getD 7 []) t
    aesExpand n (i + 1) (if i % 8 = 0 then aesXtime rcon else rcon) (w :: ws)

/-- The fifteen round keys of a 256-bit key, 16 bytes each. -/
def aesRoundKeys (key : List Byte) : List (List Byte) :=
  let ws := (aesExpand 52 8 1 ((List.range 8).map (fun i => bytesAt key (4 * i) 4)).reverse).reverse
  (List.range 15).map (fun r => ((ws.drop (4 * r)).take 4).flatten)

/-- ShiftRows. -/
def aesShift (b : List Byte) : List Byte := (List.range 16).map (fun i => byteAt b ((i + 4 * (i % 4)) % 16))

/-- MixColumns on one column. -/
def aesMixColumn (c : List Byte) : List Byte :=
  (List.range 4).map (fun i =>
    let a := byteAt c i
    let b := byteAt c ((i + 1) % 4)
    aesXtime a ^^^ (aesXtime b ^^^ b) ^^^ byteAt c ((i + 2) % 4) ^^^ byteAt c ((i + 3) % 4))

/-- The bytewise exclusive or of two lists. -/
def xorBytes (a b : List Byte) : List Byte := List.zipWith (· ^^^ ·) a b

/-- The rounds of AES behind the first round key. -/
def aesRounds : List (List Byte) → List Byte → List Byte
  | [], b => b
  | [k], b => xorBytes (aesShift (b.map aesSub)) k
  | k :: ks, b =>
    let t := aesShift (b.map aesSub)
    aesRounds ks (xorBytes ((List.range 4).flatMap (fun c => aesMixColumn (bytesAt t (4 * c) 4))) k)

/-- One block enciphered by AES-256. -/
def aes256 (key block : List Byte) : List Byte :=
  let ks := aesRoundKeys key
  aesRounds (ks.drop 1) (xorBytes block (ks.headD []))

/-! ### GCM -/

/-- The product of GHASH, one bit of `x` at a time from its most significant. -/
def ghashMul : Nat → Nat → Nat → Nat → Nat
  | 0, _, _, z => z
  | n + 1, x, v, z =>
    let z' := if x.testBit n then z ^^^ v else z
    let v' := if v.testBit 0 then (v >>> 1) ^^^ (0xE1 <<< 120) else v >>> 1
    ghashMul n x v' z'

/-- GHASH over whole blocks from a state. -/
def ghashBlocks (h y : Nat) (data : List Byte) : Nat → Nat
  | 0 => y
  | n + 1 => ghashBlocks h (ghashMul 128 (y ^^^ beNat (bytesAt data 0 16)) h 0) (data.drop 16) n

/-- GHASH over bytes, zero-padded to a whole block. -/
def ghash (h y : Nat) (data : List Byte) : Nat := ghashBlocks h y data ((data.length + 15) / 16)

/-- The hash key of GCM. -/
def gcmH (key : List Byte) : Nat := beNat (aes256 key (List.replicate 16 0))

/-- Counter block `n` of a 96-bit IV. -/
def gcmCounter (iv : List Byte) (n : Nat) : List Byte := fitBytes iv 12 ++ beBytes 4 (n % 2 ^ 32)

/-- Data enciphered or deciphered in counter mode from counter `n`. -/
def gcmCtr (key iv : List Byte) : Nat → Nat → List Byte → List Byte
  | 0, _, _ => []
  | fuel + 1, n, data =>
    if data.isEmpty then []
    else xorBytes (data.take 16) (aes256 key (gcmCounter iv n)) ++ gcmCtr key iv fuel (n + 1) (data.drop 16)

/-- Data enciphered or deciphered under GCM: the first data block uses counter 2. -/
def gcmCrypt (key iv data : List Byte) : List Byte := gcmCtr key iv (data.length / 16 + 1) 2 data

/-- The tag of GCM from the GHASH state over data already padded, and the lengths in bytes. -/
def gcmTagOf (key iv : List Byte) (y aadLen dataLen : Nat) : List Byte :=
  let s := ghash (gcmH key) y (beBytes 8 (8 * aadLen) ++ beBytes 8 (8 * dataLen))
  xorBytes (beBytes 16 s) (aes256 key (gcmCounter iv 1))

/-- The tag of GCM over associated data and ciphertext. -/
def gcmTag (key iv aad ct : List Byte) : List Byte :=
  gcmTagOf key iv (ghash (gcmH key) (ghash (gcmH key) 0 aad) ct) aad.length ct.length

/-! ### SHA-2 -/

/-- The round constants of SHA-256: word t at bit 32t. -/
def sha256K : Nat :=
  hexJoin 32 [
    0xc67178f2bef9a3f7a4506ceb90befffa8cc7020884c8781478a5636f748f82ee682e6ff35b9cca4f4ed8aa4a391c0cb3,
    0x34b0bcb52748774c1e376c0819a4c116106aa070f40e3585d6990624d192e819c76c51a3c24b8b70a81a664ba2bfe8a1,
    0x92722c8581c2c92e766a0abb650a735453380d134d2c6dfc2e1b213827b70a851429296706ca6351d5a79147c6e00bf3,
    0xbf597fc7b00327c8a831c66d983e515276f988da5cb0a9dc4a7484aa2de92c6f240ca1cc0fc19dc6efbe4786e49b69c1,
    0xc19bf1749bdc06a780deb1fe72be5d74550c7dc3243185be12835b01d807aa98ab1c5ed5923f82a459f111f13956c25b,
    0xe9b5dba5b5c0fbcf71374491428a2f98]

/-- The round constants of SHA-512: word t at bit 64t. -/
def sha512K : Nat :=
  hexJoin 32 [
    0x6c44198c4a4758175fcb6fab3ad6faec597f299cfc657e2a4cc5d4becb3e42b6431d67c49c100d4c3c9ebe0a15c9bebc,
    0x32caab7b40c7249328db77f523047d841b710b35131c471b113f9804bef90dae0a637dc5a2c898a606f067aa72176fba,
    0xf57d4f7fee6ed178eada7dd6cde0eb1ed186b8c721c0c207ca273eceea26619cc67178f2e372532bbef9a3f7b2c67915,
    0xa4506cebde82bde990befffa23631e288cc702081a6439ec84c87814a1f0ab7278a5636f43172f60748f82ee5defb2fc,
    0x682e6ff3d6b2b8a35b9cca4f7763e3734ed8aa4ae3418acb391c0cb3c5c95a6334b0bcb5e19b48a82748774cdf8eeb99,
    0x1e376c085141ab5319a4c116b8d2d0c8106aa07032bbd1b8f40e35855771202ad69906245565a910d192e819d6ef5218,
    0xc76c51a30654be30c24b8b70d0f89791a81a664bbc423001a2bfe8a14cf1036492722c851482353b81c2c92e47edaee6,
    0x766a0abb3c77b2a8650a73548baf63de53380d139d95b3df4d2c6dfc5ac42aed2e1b21385c26c92627b70a8546d22ffc,
    0x142929670a0e6e7006ca6351e003826fd5a79147930aa725c6e00bf33da88fc2bf597fc7beef0ee4b00327c898fb213f,
    0xa831c66d2db43210983e5152ee66dfab76f988da831153b55cb0a9dcbd41fbd44a7484aa6ea6e4832de92c6f592b0275,
    0x240ca1cc77ac9c650fc19dc68b8cd5b5efbe4786384f25e3e49b69c19ef14ad2c19bf174cf6926949bdc06a725c71235,
    0x80deb1fe3b1696b172be5d74f27b896f550c7dc3d5ffb4e2243185be4ee4b28c12835b0145706fbed807aa98a3030242,
    0xab1c5ed5da6d8118923f82a4af194f9b59f111f1b605d0193956c25bf348b538e9b5dba58189dbbcb5c0fbcfec4d3b2f,
    0x7137449123ef65cd428a2f98d728ae22]

/-- The initial values of SHA-256, SHA-384 and SHA-512. -/
def sha256Init : List Nat := [0x6a09e667, 0xbb67ae85, 0x3c6ef372, 0xa54ff53a, 0x510e527f, 0x9b05688c, 0x1f83d9ab, 0x5be0cd19]
def sha384Init : List Nat :=
  [0xcbbb9d5dc1059ed8, 0x629a292a367cd507, 0x9159015a3070dd17, 0x152fecd8f70e5939,
   0x67332667ffc00b31, 0x8eb44a8768581511, 0xdb0c2e0d64f98fa7, 0x47b5481dbefa4fa4]
def sha512Init : List Nat :=
  [0x6a09e667f3bcc908, 0xbb67ae8584caa73b, 0x3c6ef372fe94f82b, 0xa54ff53a5f1d36f1,
   0x510e527fade682d1, 0x9b05688c2b3e6c1f, 0x1f83d9abfb41bd6b, 0x5be0cd19137e2179]

/-- A rotation right of a word of `w` bits. -/
def rotrN (w x n : Nat) : Nat := ((x >>> n) ||| (x <<< (w - n))) % 2 ^ w

/-- What differs between SHA-256 and SHA-512: the word width, the rounds, the constants and the rotations. -/
structure Sha2 where
  w : Nat
  rounds : Nat
  k : Nat
  big0 : Nat × Nat × Nat
  big1 : Nat × Nat × Nat
  small0 : Nat × Nat × Nat
  small1 : Nat × Nat × Nat

def sha2of256 : Sha2 := ⟨32, 64, sha256K, (2, 13, 22), (6, 11, 25), (7, 18, 3), (17, 19, 10)⟩
def sha2of512 : Sha2 := ⟨64, 80, sha512K, (28, 34, 39), (14, 18, 41), (1, 8, 7), (19, 61, 6)⟩

/-- The two mixing functions: three rotations, or two rotations and a shift. -/
def Sha2.big (c : Sha2) (r : Nat × Nat × Nat) (x : Nat) : Nat := rotrN c.w x r.1 ^^^ rotrN c.w x r.2.1 ^^^ rotrN c.w x r.2.2
def Sha2.small (c : Sha2) (r : Nat × Nat × Nat) (x : Nat) : Nat := rotrN c.w x r.1 ^^^ rotrN c.w x r.2.1 ^^^ (x >>> r.2.2)

/-- The message schedule, newest word first, after `n` more words. -/
def Sha2.schedule (c : Sha2) : Nat → List Nat → List Nat
  | 0, ws => ws
  | n + 1, ws =>
    let x := (c.small c.small1 (ws.getD 1 0) + ws.getD 6 0 + c.small c.small0 (ws.getD 14 0) + ws.getD 15 0) % 2 ^ c.w
    c.schedule n (x :: ws)

/-- One round. -/
def Sha2.round (c : Sha2) (h : List Nat) (kw : Nat) : List Nat :=
  match h with
  | [a, b, cc, d, e, f, g, hh] =>
    let m := 2 ^ c.w
    let ch := (e &&& f) ^^^ ((m - 1 - e) &&& g)
    let t1 := (hh + c.big c.big1 e + ch + kw) % m
    let maj := (a &&& b) ^^^ (a &&& cc) ^^^ (b &&& cc)
    let t2 := (c.big c.big0 a + maj) % m
    [(t1 + t2) % m, a, b, cc, (d + t1) % m, e, f, g]
  | _ => h

/-- The hash state after one block. -/
def Sha2.block (c : Sha2) (h : List Nat) (data : List Byte) : List Nat :=
  let bw := c.w / 8
  let w0 := (List.range 16).map (fun i => beNat (bytesAt data (bw * i) bw))
  let ws := (c.schedule (c.rounds - 16) w0.reverse).reverse
  let kws := ws.zipIdx.map (fun e => e.1 + bitsOf c.k (c.w * e.2 + c.w - 1) (c.w * e.2))
  List.zipWith (fun x y => (x + y) % 2 ^ c.w) h (kws.foldl c.round h)

/-- The hash state after `n` blocks of the data. -/
def Sha2.blocks (c : Sha2) : Nat → List Nat → List Byte → List Nat
  | 0, h, _ => h
  | n + 1, h, data => c.blocks n (c.block h data) (data.drop (2 * c.w))

/-- The padding behind a message of `len` bytes. -/
def Sha2.pad (c : Sha2) (len : Nat) : List Byte :=
  let bb := 2 * c.w
  let lw := c.w / 4
  [0x80] ++ List.replicate ((2 * bb - (len + 1 + lw) % bb) % bb) 0 ++ beBytes lw (8 * len)

/-- The digest words of a message. -/
def Sha2.hash (c : Sha2) (init : List Nat) (m : List Byte) : List Nat :=
  let p := m ++ c.pad m.length
  c.blocks (p.length / (2 * c.w)) init p

/-- SHA-256, SHA-384 and SHA-512 of a message. -/
def sha256 (m : List Byte) : List Byte := (sha2of256.hash sha256Init m).flatMap (beBytes 4)
def sha384 (m : List Byte) : List Byte := ((sha2of512.hash sha384Init m).flatMap (beBytes 8)).take 48
def sha512 (m : List Byte) : List Byte := (sha2of512.hash sha512Init m).flatMap (beBytes 8)

/-- HMAC over a hash of block length `b`. -/
def hmac (hash : List Byte → List Byte) (b : Nat) (key m : List Byte) : List Byte :=
  let k := fitBytes (if b < key.length then hash key else key) b
  hash (k.map (· ^^^ 0x5C) ++ hash (k.map (· ^^^ 0x36) ++ m))

/-- HMAC-SHA-384. -/
def hmac384 (key m : List Byte) : List Byte := hmac sha384 128 key m

/-- The blocks of HKDF's expand step. -/
def hkdfBlocks (prk info : List Byte) : Nat → Nat → List Byte → List Byte
  | 0, _, _ => []
  | n + 1, i, t =>
    let t' := hmac384 prk (t ++ info ++ [BitVec.ofNat 8 i])
    t' ++ hkdfBlocks prk info n (i + 1) t'

/-- HKDF-SHA-384: `n` bytes. -/
def hkdf384 (salt ikm info : List Byte) (n : Nat) : List Byte :=
  (hkdfBlocks (hmac384 salt ikm) info (n / 48 + 1) 1 []).take n

/-! ### ChaCha20 and Poly1305 -/

/-- A quarter round on four words of a state of sixteen. -/
def chachaQr (s : List Nat) (a b c d : Nat) : List Nat :=
  let m := 2 ^ 32
  let rotl (x n : Nat) : Nat := rotrN 32 x (32 - n)
  let va := (s.getD a 0 + s.getD b 0) % m
  let vd := rotl (s.getD d 0 ^^^ va) 16
  let vc := (s.getD c 0 + vd) % m
  let vb := rotl (s.getD b 0 ^^^ vc) 12
  let va := (va + vb) % m
  let vd := rotl (vd ^^^ va) 8
  let vc := (vc + vd) % m
  let vb := rotl (vb ^^^ vc) 7
  (((s.set a va).set b vb).set c vc).set d vd

/-- Two rounds: the columns, then the diagonals. -/
def chachaDouble (s : List Nat) : List Nat :=
  [(0, 4, 8, 12), (1, 5, 9, 13), (2, 6, 10, 14), (3, 7, 11, 15), (0, 5, 10, 15), (1, 6, 11, 12), (2, 7, 8, 13), (3, 4, 9, 14)].foldl
    (fun s q => chachaQr s q.1 q.2.1 q.2.2.1 q.2.2.2) s

/-- Block `n` of the key stream: 64 bytes. -/
def chachaBlock (key nonce : List Byte) (n : Nat) : List Byte :=
  let word (l : List Byte) (i : Nat) : Nat := leNat (bytesAt l (4 * i) 4)
  let s := [0x61707865, 0x3320646e, 0x79622d32, 0x6b206574] ++ (List.range 8).map (word key) ++ [n % 2 ^ 32] ++ (List.range 3).map (word nonce)
  let r := (List.range 10).foldl (fun s _ => chachaDouble s) s
  (List.zipWith (fun x y => (x + y) % 2 ^ 32) r s).flatMap (leBytes 4)

/-- Data enciphered or deciphered with ChaCha20 from block `n`. -/
def chachaCrypt (key nonce : List Byte) : Nat → Nat → List Byte → List Byte
  | 0, _, _ => []
  | fuel + 1, n, data =>
    if data.isEmpty then []
    else xorBytes (data.take 64) (chachaBlock key nonce n) ++ chachaCrypt key nonce fuel (n + 1) (data.drop 64)

/-- The prime of Poly1305. -/
def polyP : Nat := 2 ^ 130 - 5

/-- The r of a one-time key, clamped. -/
def polyR (otk : List Byte) : Nat := leNat (bytesAt otk 0 16) &&& 0x0ffffffc0ffffffc0ffffffc0fffffff

/-- The accumulator after `n` further blocks of up to 16 bytes. -/
def polyBlocks (r : Nat) : Nat → Nat → List Byte → Nat
  | 0, acc, _ => acc
  | n + 1, acc, data =>
    let b := data.take 16
    polyBlocks r n ((acc + leNat b + 2 ^ (8 * b.length)) * r % polyP) (data.drop 16)

/-- Data zero-padded to whole blocks of 16 bytes. -/
def pad16 (data : List Byte) : List Byte := fitBytes data ((data.length + 15) / 16 * 16)

/-- The accumulator over whole padded blocks. -/
def polyAdd (r acc : Nat) (data : List Byte) : Nat := polyBlocks r ((data.length + 15) / 16) acc (pad16 data)

/-- The tag of the AEAD of RFC 8439 from the accumulator over padded associated data and ciphertext, and their lengths. -/
def polyTagOf (otk : List Byte) (acc aadLen dataLen : Nat) : List Byte :=
  let a := polyAdd (polyR otk) acc (leBytes 8 aadLen ++ leBytes 8 dataLen)
  leBytes 16 ((a + leNat (bytesAt otk 16 16)) % 2 ^ 128)

/-! ### CRCs and sums -/

/-- A reflected CRC register after one bit step per bit of `n` bits of the low part. -/
def crcStep (poly : Nat) : Nat → Nat → Nat
  | 0, c => c
  | n + 1, c => crcStep poly n (if c.testBit 0 then (c >>> 1) ^^^ poly else c >>> 1)

/-- A reflected CRC register (polynomial given reflected) after bytes. -/
def crcReflected (poly c : Nat) (data : List Byte) : Nat := data.foldl (fun c b => crcStep poly 8 (c ^^^ b.toNat)) c

/-- CRC-32C of bytes (reflected 0x82F63B78, initial and final inversion). -/
def crc32c (data : List Byte) : Nat := crcReflected 0x82F63B78 0xFFFFFFFF data ^^^ 0xFFFFFFFF

/-- The FCS of a frame: CRC-32 of IEEE 802.3. -/
def crc32 (data : List Byte) : Nat := crcReflected 0xEDB88320 0xFFFFFFFF data ^^^ 0xFFFFFFFF

/-- The ones'-complement sum of 16-bit words folded to 16 bits. -/
def onesFold : Nat → Nat → Nat
  | 0, x => x
  | n + 1, x => if x < 65536 then x else onesFold n (x % 65536 + x / 65536)

/-- The ones'-complement sum of bytes in network order, an odd byte padded with zero. -/
def onesSum (start : Nat) (data : List Byte) : Nat :=
  onesFold 8 ((List.range ((data.length + 1) / 2)).foldl (fun acc i => acc + beNat (bytesAt data (2 * i) 2)) start)

end Sys2Proof.Machine
end

