-- ==== Sys2Proof/Machine/Ecc.lean ====
section
/-! DEFINITION. Error correction on every memory: codewords in error, what a read finds, logs and summaries
(16_ecc_mower_and_repair.md, R402 to R408, R413, R414). A memory instance is named by its window and a local number. -/

namespace Sys2Proof.Machine

/-- The class of a memory instance and its size in bytes; none where the window has no such instance. Classes: 0 S64, 1
S128, 2 TM, 3 BM. The local numbers beyond those R407 gives are the model's. -/
def State.memInstance (s : State) (w inst : Nat) : Option (Nat × Nat) :=
  match kindOf w, inst with
  | 0x03, 0 => some (0, 0x400000)
  | 0x03, 1 => some (0, 0x80000)
  | 0x03, 2 => some (0, 2048 * 8)
  | 0x04, 0 => some (0, 8 * 6144)
  | 0x09, 0 => some (3, 0x30000000)
  | 0x09, 1 => some (3, 0x30000000)
  | 0x0B, 0 => some (2, s.rf w 0x100 31 23 * 0x40000000)
  | 0x0D, 0 => some (1, 4096 * 48)
  | 0x0D, 1 => some (1, 4096 * 16)
  | 0x0E, 0 => some (1, 0x2000000)
  | 0x10, 0 => some (1, Config.memorySize w 0)
  | 0x12, 0 => some (1, 0x1000000)
  | 0x12, 1 => some (1, 8192 * 32)
  | 0x14, 0 => some (1, Config.memorySize w 0)
  | 0x16, 0 => some (1, Config.memorySize w 0)
  | 0x18, 0 => some (1, 393216 * 256)
  | 0x18, 1 => some (1, 393216 * 8)
  | 0x1A, 0 => some (1, 2 * 64 * 16384 * 8)
  | 0x1A, 1 => some (1, 262144 * 32)
  | 0x1F, 0 => some (0, 0x400000)
  | _, _ => none

/-- The instances of a window. -/
def State.instanceCount (s : State) (w : Nat) : Nat := (List.range 4).countP (fun i => (s.memInstance w i).isSome)

/-- The class of a memory instance. -/
def State.memClass (s : State) (w inst : Nat) : Nat := ((s.memInstance w inst).map (·.1)).getD 1

/-- The bytes of a codeword, and the check bits of a class (R402, R413). -/
def codeBytes (cls : Nat) : Nat :=
  match cls with
  | 0 => 8 | 2 => 64 | _ => 16
def checkBits (cls : Nat) : Nat :=
  match cls with
  | 0 => 8 | 2 => 128 | _ => 9

/-- The number of ones of a number below 2^128. -/
def onesOf (v : Nat) : Nat := (List.range 128).countP (fun i => v.testBit i)

/-- Whether a mask is a column of a SEC-DED code: that of a check bit, or of a data bit. -/
def eccIsColumn (cls mask : Nat) : Bool := mask != 0 && (onesOf mask == 1 || (Config.eccColumn cls mask).isSome)

/-- Whether a mask is two columns together. -/
def eccTwoColumns (cls mask : Nat) : Bool := (List.range (2 ^ checkBits cls)).any (fun a => eccIsColumn cls a && eccIsColumn cls (a ^^^ mask))

/-- What a code does with check bits that differ by a mask (R402, R414): none is an uncorrectable error; else what it applies to the data. The column
of a check bit is corrected without touching the data, that of a data bit by flipping that bit; anything else is uncorrectable. Of a symbol code's
answer for more than one bit the spec says nothing. -/
def eccFix (cls mask : Nat) : Option Nat :=
  if onesOf mask ≤ 1 then some 0
  else if cls = 2 then Config.eccCorrection mask
  else if eccTwoColumns cls mask then none
  else (Config.eccColumn cls mask).map (fun j => 2 ^ (j % (8 * codeBytes cls)))

/-- Whether a codeword in error is uncorrectable, and whether a read finds an error in it at all. -/
def State.errFatal (s : State) (e : EccErr) : Bool := e.poison || (eccFix (s.memClass e.win e.inst) e.mask).isNone
def EccErr.shows (e : EccErr) : Bool := e.poison || e.mask != 0

/-- The log of a memory instance. -/
def State.instLog (s : State) (w inst : Nat) : InstLog :=
  SMap.get (fun _ => ⟨[], 0, 0, 0⟩) s.mower.logs (128 * w + inst)
def State.setInstLog (s : State) (w inst : Nat) (l : InstLog) : State :=
  s.modMower (fun m => { m with logs := SMap.set (fun _ => ⟨[], 0, 0, 0⟩) m.logs (128 * w + inst) l })

/-- Mower writes a summary entry (R408). -/
def State.summarise (s : State) (w inst addr : Nat) (ucor hard : Bool) : State :=
  let seq := (s.reg 426 0x600).toNat
  let ms := s.time.ns.toNat / 1000000 % 2 ^ 32
  let e := BitVec.ofNat 128 (w + inst * 2 ^ 16 + (bit ucor + 2 * bit hard) * 2 ^ 24 + ms * 2 ^ 32 + addr * 2 ^ 64)
  (s.modMower (fun m => { m with summary := SMap.put m.summary (seq % 32) e })).setReg 426 0x600 (BitVec.ofNat 32 (seq + 1))

/-- The entry of a log that holds an address, and a free place of it. -/
def InstLog.entryOf (l : InstLog) (addr : Nat) : Option (Nat × LogEntry) := l.entries.find? (fun e => e.2.addr == addr)
def InstLog.freePlace (l : InstLog) : Option Nat := (List.range 8).find? (fun i => (SMap.find l.entries i).isNone)

/-- The repair entry of a hard error (R411, R418). -/
def repairKind (cls : Nat) : Nat :=
  match cls with
  | 2 => 2 | 3 => 3 | _ => 0

/-- An error becomes hard (R411): its entry's bit sets, a summary entry is written, and a repair entry is queued, if there
is room. -/
def State.becomeHard (s : State) (w inst addr : Nat) (ucor : Bool) : State :=
  let s1 := ((s.count 426 0x80C).setEvent 426 0x780 1).summarise w inst addr ucor true
  if s1.mower.hardQueue.length < 64 then
    let e : RepairEntry := ⟨repairKind (s1.memClass w inst), w, inst, addr, 0⟩
    let s2 := s1.modMower (fun m => { m with hardQueue := m.hardQueue ++ [e] })
    s2.setRf 426 0x700 6 0 s2.mower.hardQueue.length
  else (s1.count 426 0x810).setEvent 426 0x780 2

/-- ERROR_LOG: a read at a codeword found an error (R405, R407, R408, R411). -/
def State.logError (s : State) (w inst addr : Nat) (ucor : Bool) (syndrome : Nat) : State :=
  let s0 := s.setSummary w (if ucor then 5 else 4)
  let l := s0.instLog w inst
  let l1 := if ucor then { l with uncorrected := l.uncorrected + 1 } else { l with corrected := l.corrected + 1 }
  let limit := s0.rf 426 0x100 23 16
  match l1.entryOf addr with
  | some (i, e) =>
    let n := min 0xFFFF (e.count + 1)
    let hard := decide (limit ≠ 0 ∧ limit ≤ n) && !e.hard
    let e' : LogEntry := { e with syndrome := syndrome, count := n, ucor := e.ucor || ucor, hard := e.hard || hard }
    let s1 := s0.setInstLog w inst { l1 with entries := SMap.put l1.entries i e' }
    let s2 := if ucor && !e.ucor && !hard then s1.summarise w inst addr e'.ucor e'.hard else s1
    if hard then s2.becomeHard w inst addr e'.ucor else s2
  | none => match l1.freePlace with
    | some i =>
      let hard := decide (limit = 1)
      let e : LogEntry := ⟨addr, syndrome, 1, ucor, hard⟩
      let s1 := (s0.setInstLog w inst { l1 with entries := SMap.put l1.entries i e }).summarise w inst addr ucor false
      if hard then s1.becomeHard w inst addr ucor else s1
    | none => s0.setInstLog w inst { l1 with overflow := l1.overflow + 1 }

/-- The re-read of a codeword that Mower has written back still finds an error: it is hard (R411), once for its log entry. -/
def State.harden (s : State) (w inst addr : Nat) : State :=
  let l := s.instLog w inst
  match l.entryOf addr with
  | some (i, e) =>
    if e.hard then s
    else (s.setInstLog w inst { l with entries := SMap.put l.entries i { e with hard := true } }).becomeHard w inst addr e.ucor
  | none => s.becomeHard w inst addr false

/-- The codewords in error that an access of `len` bytes at `addr` reaches. -/
def State.errsIn (s : State) (w inst addr len : Nat) : List EccErr :=
  let c := codeBytes (s.memClass w inst)
  s.mower.errs.filter (fun e => e.win == w && e.inst == inst && decide (e.addr < addr + len) && decide (addr < e.addr + c))

/-- The syndrome a log holds (R406, R408): of table memory, the device and the subchannel of the line. -/
def State.syndrome (s : State) (e : EccErr) : Nat :=
  if e.poison then 0xFFFFFFFF
  else if s.memClass e.win e.inst = 2 then Config.errorDevice e.mask % 10 + 16 * bitsOf e.addr 6 6
  else e.mask

/-- A read of `len` bytes (R402 to R405): whether an uncorrectable codeword was found, and the state with every error logged. -/
def State.eccRead (s : State) (w inst addr len : Nat) : Bool × State :=
  let es := (s.errsIn w inst addr len).filter EccErr.shows
  (es.any s.errFatal, es.foldl (fun s e => s.logError w inst e.addr (s.errFatal e) (s.syndrome e % 2 ^ 32)) s)

/-- The bytes that a correctable read returns: the correction applied to the data as held (R414). -/
def State.eccFixed (s : State) (w inst addr : Nat) (data : List Byte) : List Byte :=
  (s.errsIn w inst addr data.length).foldl (fun d e =>
    if e.flip = 0 then d
    else d.zipIdx.map (fun b =>
      if e.addr ≤ addr + b.2 ∧ addr + b.2 < e.addr + codeBytes (s.memClass w inst) then
        b.1 ^^^ BitVec.ofNat 8 (e.flip >>> (8 * (addr + b.2 - e.addr)))
      else b.1)) data

/-- OVERLAY_APPLY: a write of a codeword stores check bits that differ by the armed mask, and clears arm (R413). -/
def State.overlayApply (s : State) (w inst addr len : Nat) : State :=
  let v := s.reg 426 0x610
  let cls := s.memClass w inst
  let a := (s.reg 426 0x614).toNat + (s.reg 426 0x618).toNat * 2 ^ 32
  let cw := a / codeBytes cls * codeBytes cls
  if fld v 31 31 = 1 ∧ fld v 24 16 = w ∧ fld v 14 8 = inst ∧ cw < addr + len ∧ addr < cw + codeBytes cls then
    let m := sumOf (List.range 4) (fun k => (s.reg 426 (0x620 + 4 * k)).toNat * 2 ^ (32 * k)) % 2 ^ checkBits cls
    let s1 := s.setRf 426 0x610 31 31 0
    if m = 0 then s1
    else
      let here (e : EccErr) : Bool := e.win == w && e.inst == inst && e.addr == cw
      let old := (s1.mower.errs.find? here).getD ⟨w, inst, cw, 0, false, 0, 0⟩
      let e : EccErr := { old with mask := m ^^^ old.stuck, flip := old.flip ^^^ (eccFix cls m).getD 0 }
      s1.modMower (fun x => { x with errs := x.errs.filter (fun e => !here e) ++ [e] })
  else s

/-- The bits of a codeword's bytes that a write covers. -/
def coveredBits (cw c addr len : Nat) : Nat :=
  sumOf (List.range c) (fun i => if addr ≤ cw + i ∧ cw + i < addr + len then 0xFF * 2 ^ (8 * i) else 0)

/-- An error that still says something of its codeword. -/
def EccErr.left (e : EccErr) : List EccErr := if e.mask = 0 ∧ ¬ e.poison ∧ e.flip = 0 then [] else [e]

/-- What a write leaves of a codeword: written whole, the memory's own fault if it has one; an uncorrectable one written in part is poisoned;
else the bytes not written keep what a read returned (R406). -/
def State.errAfter (s : State) (e : EccErr) (c addr len : Nat) : List EccErr :=
  if addr ≤ e.addr ∧ e.addr + c ≤ addr + len then { e with mask := e.stuck, poison := false, flip := 0 }.left
  else if s.errFatal e then [{ e with poison := true }]
  else { e with mask := e.stuck, flip := e.flip ^^^ (e.flip &&& coveredBits e.addr c addr len) }.left

/-- A write of `len` bytes performed by any source but Mower (R406, R413): a write-back that Mower has under way for one of its codewords is
overtaken (R410); then an armed overlay takes effect. -/
def State.eccWrite (s : State) (w inst addr len : Nat) : State :=
  let es := s.errsIn w inst addr len
  if es.isEmpty ∧ s.rf 426 0x610 31 31 = 0 then s
  else
    let c := codeBytes (s.memClass w inst)
    let late (b : (Nat × Nat × Nat) × Bool) : Bool :=
      b.2 || (b.1.1 == w && b.1.2.1 == inst && decide (b.1.2.2 < addr + len) && decide (addr < b.1.2.2 + c))
    (s.modMower (fun m => { m with
      errs := m.errs.flatMap (fun e => if es.contains e then s.errAfter e c addr len else [e])
      back := m.back.map (fun b => (b.1, late b)) })).overlayApply w inst addr len

/-- An item of a unit's own state, in a memory whose layout the spec does not give, is read, and written: 16 bytes, a codeword. -/
def State.readItem (s : State) (w inst item : Nat) : Bool × State := s.eccRead w inst (Config.stateAddr (128 * w + inst) item) 16
def State.writeItem (s : State) (w inst item : Nat) : State := s.eccWrite w inst (Config.stateAddr (128 * w + inst) item) 16

/-- A codeword is stored with a poison check pattern (R406). -/
def State.poisonWord (s : State) (w inst addr : Nat) : State :=
  let here (e : EccErr) : Bool := e.win == w && e.inst == inst && e.addr == addr
  s.modMower (fun m =>
    { m with errs := m.errs.filter (fun e => !here e) ++ [{ (m.errs.find? here).getD ⟨w, inst, addr, 0, false, 0, 0⟩ with poison := true }] })

/-- The content of an instance's memory is gone, and the errors it held with it. -/
def State.eccForget (s : State) (w inst : Nat) : State :=
  s.modMower (fun m => { m with
    errs := m.errs.flatMap (fun e => if e.win == w && e.inst == inst then { e with mask := e.stuck, poison := false, flip := 0 }.left else [e])
    back := m.back.map (fun b => (b.1, b.2 || (b.1.1 == w && b.1.2.1 == inst))) })

/-- The memory of an instance is written whole, as a reset does: what it held is gone (R406), and an overlay armed for a codeword of it takes effect
(R413). -/
def State.eccClear (s : State) (w inst : Nat) : State :=
  (s.eccForget w inst).overlayApply w inst 0 (((s.memInstance w inst).map (·.2)).getD 0)

/-- Mower's write-back of one codeword: the check bits are fresh again, but for what the memory itself puts wrong (R409). -/
def State.eccRefresh (s : State) (w inst addr : Nat) : State :=
  let here (e : EccErr) : Bool := e.win == w && e.inst == inst && e.addr == addr
  s.modMower (fun m => { m with errs := m.errs.flatMap (fun e => if here e then { e with mask := e.stuck }.left else [e]) })

/-! ### Spares (R415, R417) -/

/-- Whether a repair entry speaks of the place and kind of another. -/
def RepairEntry.same (e r : RepairEntry) : Bool := e.win == r.win && e.inst == r.inst && e.kind == r.kind && e.addr == r.addr

/-- The SRAM macros of an instance: memory channels have none. -/
def State.macrosOf (s : State) (w inst : Nat) : Nat :=
  match s.memInstance w inst with
  | some (cls, _) => if cls < 2 then max 1 (Config.macros w inst) else 0
  | none => 0

/-- The macro in which an address of an instance lies. -/
def State.macroAt (s : State) (w inst addr : Nat) : Nat := Config.macroOf w inst addr % max 1 (s.macrosOf w inst)

/-- The spare rows (kind 0) or columns (kind 1) of a macro that are free: of 4 or 2, those that neither the fuse map nor a repair has taken (R415). -/
def State.sparesLeft (s : State) (w inst m kind : Nat) : Nat :=
  let f := Config.fusedSpares w inst m
  let used := s.mower.repaired.countP (fun e => e.win == w && e.inst == inst && e.kind == kind && !e.info.testBit 2 && s.macroAt w inst e.addr == m)
  (if kind = 0 then 4 - f.1 else 2 - f.2) - used

/-- The spares free in an instance, summed over its macros (R415). -/
def State.sparesOf (s : State) (w inst kind : Nat) : Nat := sumOf (List.range (s.macrosOf w inst)) (fun m => s.sparesLeft w inst m kind)

end Sys2Proof.Machine
end

