-- ==== Sys2Proof/Machine/Commons.lean ====
section
/-! DEFINITION. Commons: the token budgets of background activities (17_commons_budgets.md). -/

namespace Sys2Proof.Machine

/-- The floor of a pair 5 times the class plus the resource: what an agent enforces while Commons is not IN_SERVICE
(R428), and what the first round after device reset holds. -/
def tokenFloor (k : Nat) : Nat :=
  match budgetOf (k / 5) (k % 5) with
  | some (f, _) => f
  | none => 0

/-- The tokens a pair has left in this round. -/
def State.tokensLeft (s : State) (c r : Nat) : Nat := SMap.get tokenFloor s.commons.tokens (5 * c + r)

/-- The tokens that waiting indivisible work of a pair holds, and the source whose work it is (R421). -/
def State.heldBy (s : State) (c r : Nat) : Nat × Nat := SMap.get (fun _ => (0, 0)) s.commons.held (5 * c + r)
def State.tokensHeld (s : State) (c r : Nat) : Nat := (s.heldBy c r).2

/-- A pair's tokens are set. -/
def State.setTokens (s : State) (c r n : Nat) : State :=
  { s with commons := { s.commons with tokens := SMap.set tokenFloor s.commons.tokens (5 * c + r) n } }

/-- A pair's held tokens are set: none are held for no source. -/
def State.setHeld (s : State) (c r who n : Nat) : State :=
  { s with commons := { s.commons with held := SMap.set (fun _ => (0, 0)) s.commons.held (5 * c + r) (if n = 0 then (0, 0) else (who, n)) } }

/-- Class `c` waited in this round (R421). -/
def State.markWaited (s : State) (c : Nat) : State :=
  { s with commons := { s.commons with waited := SMap.set (fun _ => false) s.commons.waited c true } }

/-- A draw of `n` tokens for one step of source `who` (R421). Work whose tokens are not all left holds those that are and waits; while
another source's work holds tokens of the pair, this one waits behind it. The answer says whether the step may be performed. -/
def State.drawFor (s : State) (who c r n : Nat) : Bool × State :=
  let h := s.heldBy c r
  let left := s.tokensLeft c r
  if h.2 ≠ 0 ∧ h.1 ≠ who then (false, s.markWaited c)
  else if n ≤ h.2 + left then
    (true, ((s.setTokens c r (left - (n - h.2))).setHeld c r who 0).countBy commonsWin (0x240 + 4 * r) (n - h.2))
  else (false, (((s.setTokens c r 0).setHeld c r who (h.2 + left)).countBy commonsWin (0x240 + 4 * r) left).markWaited c)

/-- A draw of one token for a piece of work that holds none (R421). -/
def State.draw (s : State) (c r : Nat) : Bool × State := s.drawFor 0 c r 1

/-- Tokens drawn for the pieces of divisible work, as many as there are of the `n` still to be drawn: how many (R421). -/
def State.drawPieces (s : State) (c r n : Nat) : Nat × State :=
  let left := s.tokensLeft c r
  let k := if s.tokensHeld c r = 0 then min n left else 0
  let s1 := (s.setTokens c r (left - k)).countBy commonsWin (0x240 + 4 * r) k
  (k, if k < n then s1.markWaited c else s1)

/-- FIRMWARE_LOAD tokens drawn for `n` lines of the staging store (R474); which memory holds it is not stated. -/
def State.drawLoad (s : State) (n : Nat) : Nat × State :=
  if n = 0 then (0, s) else s.drawPieces 9 (bit Config.stagingInTable) n

/-- The lines of a window's load under way whose tokens are drawn, and they set. -/
def State.loaded (s : State) (w : Nat) : Nat := SMap.get (fun _ => 0) s.commons.loads w
def State.setLoaded (s : State) (w n : Nat) : State :=
  { s with commons := { s.commons with loads := SMap.set (fun _ => 0) s.commons.loads w n } }

/-- The load of `n` lines into a Gathering goes on as far as the tokens reach: whether it is complete (R421, R474). -/
def State.payLoad (s : State) (w n : Nat) : Bool × State :=
  let had := s.loaded w
  let q := s.drawLoad (n - had)
  if had + q.1 < n then (false, q.2.setLoaded w (had + q.1)) else (true, q.2.setLoaded w 0)

/-- The tokens a refill gives a pair: its budget, or its floor while Commons is not IN_SERVICE (R419, R425, R428). -/
def State.refillOf (s : State) (k : Nat) : Nat :=
  if s.inService commonsWin then s.rf commonsWin (0x100 + 4 * k) 15 0 else tokenFloor k

/-- Commons is not IN_SERVICE any more: no pair has more than its floor left in this round (R428). -/
def State.floorTokens (s : State) : State :=
  (List.range 55).foldl (fun (s : State) k => s.setTokens (k / 5) (k % 5) (min (s.tokensLeft (k / 5) (k % 5)) (tokenFloor k))) s

/-- The end of a round for class `c` (COMMONS_STALL_CNT, R421): a class that waited counts the round and its run; a run of
starve_rounds or more raises starved and shows in COMMONS_STARVED. -/
def State.endRoundOf (s : State) (c : Nat) : State :=
  let run := SMap.get (fun _ => 0) s.commons.runs c
  let setRun (s : State) (n : Nat) : State :=
    { s with commons := { s.commons with runs := SMap.set (fun _ => 0) s.commons.runs c n } }
  if SMap.get (fun _ => false) s.commons.waited c then
    let s := (setRun s (run + 1)).count commonsWin (0x200 + 4 * c)
    let limit := s.rf commonsWin 0x280 15 0
    if limit ≠ 0 ∧ limit ≤ run + 1 then (s.setRf commonsWin 0x288 c c 1).setEvent commonsWin 0x284 0 else s
  else (setRun s 0).setRf commonsWin 0x288 c c 0

/-- The channels of a memory: resource 0 buffer memory, 1 table memory. -/
def memoryChannels (r : Nat) : List Nat := if r = 0 then (List.range 32).map (284 + ·) else (List.range 12).map (317 + ·)

/-- The periodic calibration and centring of a memory's channels in service: a step of 16 RECAL tokens, indivisible, as it falls due (R421, R423;
log 95). -/
def State.recalStep (s : State) (r : Nat) : State :=
  if (memoryChannels r).any s.inService ∧ (s.tokensHeld 8 r ≠ 0 ∨ Config.recalDue s.commons.round r = true) then (s.drawFor 0 8 r 16).2 else s

/-- A new round begins: the round that ends is counted, every pair is refilled to its budget (R419), and the memories' calibration goes on. -/
def State.newRound (s : State) : State :=
  let s := (List.range 11).foldl State.endRoundOf s
  let s := (List.range 55).foldl (fun s k => s.setTokens (k / 5) (k % 5) (s.refillOf k)) s
  ({ s with commons := { s.commons with waited := [], round := s.time.ns.toNat / 1024 } }.recalStep 0).recalStep 1

end Sys2Proof.Machine
end

