-- ==== Sys2Proof/Machine/Memory.lean ====
section
/-! DEFINITION. Buffer memory and table memory: mapping, what an access does, queues, command slots, refresh, self-refresh and
retraining (15_buffer_and_table_memory.md). -/

namespace Sys2Proof.Machine

/-! ### Mapping (R381 to R385) -/

/-- The fields of table memory region r (TMC_REGION_CFG, TMC_REGION_SIZE). -/
def State.tmEn (s : State) (r : Nat) : Bool := s.rf tmcWin (0x100 + 8 * r) 31 31 = 1
def State.tmGrain (s : State) (r : Nat) : Nat := 2 ^ s.rf tmcWin (0x100 + 8 * r) 19 15
def State.tmMask (s : State) (r : Nat) : Nat := s.rf tmcWin (0x100 + 8 * r) 11 0
def State.tmSize (s : State) (r : Nat) : Nat := s.rf tmcWin (0x104 + 8 * r) 31 20 * 0x40000000
def State.tmChanBase (s : State) (r : Nat) : Nat := s.rf tmcWin (0x104 + 8 * r) 7 0 * 0x40000000

/-- The enabled regions: they follow each other from region 0 (R381). -/
def State.tmRegions (s : State) : List Nat := (List.range 16).takeWhile s.tmEn

/-- The populated size of table memory (R381). -/
def State.tmPopulated (s : State) : Nat := sumOf s.tmRegions s.tmSize

/-- Where region r begins. -/
def State.tmStart (s : State) (r : Nat) : Nat := sumOf (List.range r) s.tmSize

/-- The region of a table memory address. -/
def State.tmRegionOf (s : State) (a : Nat) : Option Nat :=
  s.tmRegions.find? (fun r => decide (s.tmStart r ≤ a) && decide (a < s.tmStart r + s.tmSize r))

/-- The set bits of a channel mask, ascending. -/
def maskBits (m : Nat) : List Nat := (List.range 24).filter (fun i => m.testBit i)

/-- One piece of an access: the window and instance of its memory, its address there, its length, and its region of table memory, 16 for
buffer memory (R382, R385, R388). -/
structure Piece where
  win : Nat
  inst : Nat
  addr : Nat
  len : Nat
  region : Nat

/-- The page policy of a region now: whether it is the compatibility policy, and the idle value (R386 to R388). -/
def State.pagePolicy (s : State) (region : Nat) : Bool × Nat :=
  let v := if region = 16 then s.reg bmcWin 0x100 else s.reg tmcWin (0x100 + 8 * region)
  (fld v 30 30 = 1, fld v 29 20)

/-- The channel and channel address of a table memory address (R382). -/
def State.tmMap (s : State) (a : Nat) : Option Piece :=
  match s.tmRegionOf a with
  | none => none
  | some r =>
    let g := s.tmGrain r
    let off := a - s.tmStart r
    let chunk := off / g
    let chs := maskBits (s.tmMask r)
    let n := chs.length
    if n = 0 then none
    else some ⟨tmChannelWin (chs.getD (chunk % n) 0), 0, s.tmChanBase r + chunk / n * g + off % g, g - off % g, r⟩

/-- The pseudo-channel and its address of a buffer memory address (R385). -/
def State.bmMap (s : State) (a : Nat) : Option Piece :=
  if 0xC00000000 ≤ a then none
  else
    let g := 2 ^ s.rf bmcWin 0x100 19 15
    let chunk := a / g
    let p := chunk % 64
    some ⟨bmChannelWin (p / 32) (p % 32 / 2), p % 2, chunk / 64 * g + a % g, g - a % g, 16⟩

/-- One address mapped. -/
def State.memMap (s : State) (table : Bool) (a : Nat) : Option Piece := if table then s.tmMap a else s.bmMap a

/-- The pieces of an access of `len` bytes, none for a part that maps nowhere; at most `fuel` pieces. -/
def State.pieces (s : State) (table : Bool) : Nat → Nat → Nat → List (Option Piece)
  | 0, _, _ => []
  | fuel + 1, a, len =>
    if len = 0 then []
    else match s.memMap table a with
      | none => [none]
      | some p =>
        let n := min p.len len
        some { p with len := n } :: s.pieces table fuel (a + n) (len - n)

/-- All pieces of an access: a piece has at least 256 bytes but the first and the last. -/
def State.allPieces (s : State) (table : Bool) (a len : Nat) : List (Option Piece) := s.pieces table (len / 256 + 2) a len

/-! ### What an access does -/

/-- Whether an access can be performed now (R384, R399): some channel may be absent, OFF or FAILED, or may hold requests. -/
inductive MemAvail where
  | ok
  | hold
  | bad
  deriving DecidableEq, Repr

/-- A channel in self-refresh. -/
def chanReset (_ : Nat) : ChanSt := ⟨none, 0, 0, 0⟩
def State.chan (s : State) (w : Nat) : ChanSt := SMap.get chanReset s.mem.chans w
def State.setChan (s : State) (w : Nat) (c : ChanSt) : State := s.modMem (fun m => { m with chans := SMap.set chanReset m.chans w c })

/-- What a channel answers. -/
def State.chanAvail (s : State) (w : Nat) : MemAvail :=
  match (s.gathOf w).own with
  | .inService => .ok
  | .absent => .bad
  | .off => .bad
  | .failed => .bad
  | _ => .hold

/-- What an access is answered. -/
def State.memAvail (s : State) (table : Bool) (a len : Nat) : MemAvail :=
  let ps := s.allPieces table a len
  let ans (p : Option Piece) : MemAvail := match p with
    | none => .bad
    | some q => s.chanAvail q.win
  if ps.any (fun p => ans p = .bad) then .bad
  else if ps.any (fun p => ans p = .hold) then .hold else .ok

/-- Where a channel address of table memory is kept (R382): a channel holds at most 2^38 bytes (R379). -/
def tableCell (w a : Nat) : Nat := 2 ^ 38 * (w - 317) + a

/-- The pieces of an access that map, each with its offset in the access. -/
def offsets : Nat → List (Option Piece) → List (Nat × Piece)
  | _, [] => []
  | n, none :: ps => offsets n ps
  | n, some p :: ps => (n, p) :: offsets (n + p.len) ps

/-- Where the free stack of Loft's region of buffer memory begins, and its size (R300). -/
def State.stackPart (s : State) : Nat × Nat :=
  let n := s.rf loftWin 0x600 15 8 * 1048576
  (s.rf loftWin 0x600 7 0 * 0x10000000 + 264 * n, 4 * n)

/-- Whether an access of buffer memory meets that stack. Which pool's pointers lie where in it, and which are in the cache, the spec does not
say: its bytes are free (log 79). -/
def State.meetsStack (s : State) (table : Bool) (a len : Nat) : Bool :=
  !table && decide (s.stackPart.1 < a + len) && decide (a < s.stackPart.1 + s.stackPart.2)

/-- The bytes of a memory: buffer memory is kept by its addresses, table memory by channel address, which several regions may map in turn. -/
def State.memBytes (s : State) (table : Bool) (a len : Nat) : List Byte :=
  if table then
    fitBytes ((offsets 0 (s.allPieces true a len)).flatMap (fun e => Memory.readBytes s.mem.table (tableCell e.2.win e.2.addr) e.2.len)) len
  else if s.meetsStack table a len then
    (Memory.readBytes s.mem.buffer a len).zipIdx.map (fun b =>
      if s.meetsStack table (a + b.2) 1 then BitVec.ofNat 8 (s.freeBits >>> (8 * b.2)) else b.1)
  else Memory.readBytes s.mem.buffer a len

/-- Bytes are put into a memory. -/
def State.putBytes (s : State) (table : Bool) (a : Nat) (data : List Byte) : State :=
  if table then
    (offsets 0 (s.allPieces true a data.length)).foldl (fun (s : State) e =>
      s.modMem (fun m => { m with table := Memory.writeBytes m.table (tableCell e.2.win e.2.addr) (bytesAt data e.1 e.2.len) })) s
  else s.modMem (fun m => { m with buffer := Memory.writeBytes m.buffer a data })

/-- A read is performed: whether a codeword was uncorrectable, the data as corrected, and the state with the errors logged. -/
def State.memRead (s : State) (table : Bool) (a len : Nat) : Bool × List Byte × State :=
  let ps := offsets 0 (s.allPieces table a len)
  let data := s.memBytes table a len
  let fixed := ps.foldl (fun d e => patchBytes d e.1 (s.eccFixed e.2.win e.2.inst e.2.addr (bytesAt d e.1 e.2.len))) data
  let r := ps.foldl (fun acc e => let q := acc.2.eccRead e.2.win e.2.inst e.2.addr e.2.len; (acc.1 || q.1, q.2)) (false, s)
  (r.1, fixed, if s.meetsStack table a len then r.2.stepFresh else r.2)

/-- A write is performed (R406, R413). -/
def State.memWrite (s : State) (table : Bool) (a : Nat) (data : List Byte) : State :=
  (offsets 0 (s.allPieces table a data.length)).foldl (fun s e => s.eccWrite e.2.win e.2.inst e.2.addr e.2.len) (s.putBytes table a data)

/-! ### Schedulers -/

/-- A scheduler with nothing in it. -/
def schedReset (_ : Nat) : SchedSt := ⟨[], [], 0, false, []⟩

/-- A scheduler, and it replaced. -/
def State.sched (s : State) (k : Nat) : SchedSt := SMap.get schedReset s.mem.scheds k
def State.setSched (s : State) (k : Nat) (x : SchedSt) : State :=
  s.modMem (fun m => { m with scheds := SMap.set schedReset m.scheds k x })

/-- The window of a scheduler's channel, and the schedulers of a channel. -/
def schedWin (k : Nat) : Nat := if k < 64 then bmChannelWin (k / 32) (k % 32 / 2) else tmChannelWin ((k - 64) / 4)
def schedsOf (w : Nat) : List Nat :=
  if kindOf w = 0x09 then let c := w - 284; [2 * c, 2 * c + 1] else (List.range 4).map (fun r => 64 + 4 * (w - 317) + r)

/-- The number of a scheduler. -/
def schedNo (c : SchedId) : Nat :=
  match c with
  | .buffer p => p.val
  | .table r => 64 + r.val

/-- log2 of the ranks of a table memory channel, and its row width (R383, TMC_CH_STATUS). -/
def State.rankLog (s : State) (w : Nat) : Nat :=
  match s.rf w 0x100 13 12 * s.rf w 0x100 11 10 with
  | 4 => 2 | 2 => 1 | _ => 0
def State.rowBits (s : State) (w : Nat) : Nat := if s.rf w 0x100 9 9 = 1 then 17 else 16

/-- Scheduler, bank and row of a channel address (R383, R385). -/
def State.decodeRow (s : State) (w inst a : Nat) : Nat × Nat × Nat :=
  if kindOf w = 0x09 then
    let row := bitsOf a 29 16
    let bg := bitsOf a 13 10 ^^^ bitsOf row 3 0
    let bank := bitsOf a 15 14 ^^^ bitsOf row 5 4
    (2 * (w - 284) + inst, 4 * bg + bank, row)
  else
    let l := s.rankLog w
    let row := (a >>> (19 + l)) % 2 ^ s.rowBits w
    let bg := bitsOf a 9 7 ^^^ bitsOf row 2 0
    let bank := bitsOf a 18 17 ^^^ bitsOf row 4 3
    (64 + 4 * (w - 317) + (a >>> 19) % 2 ^ l, 32 * bitsOf a 6 6 + 4 * bg + bank, row)

/-- The lines of a piece: 64 bytes of table memory, or 32-byte columns of one row of buffer memory taken as one entry for
each 256 bytes. -/
def State.pieceReqs (s : State) (id : Nat) (write rt : Bool) (p : Piece) : List (Nat × ChReq) :=
  let g := if kindOf p.win = 0x09 then 256 else 64
  let first := p.addr / g
  let last := (p.addr + p.len - 1) / g
  (List.range (last + 1 - first)).map (fun i =>
    let a := (first + i) * g
    let d := s.decodeRow p.win p.inst a
    let lo := max a p.addr
    let hi := min (a + g) (p.addr + p.len)
    let cols := if g = 64 then 1 else (hi + 31) / 32 - lo / 32
    (d.1, ⟨id, write, rt, d.2.1, d.2.2, cols, s.time.cycles, false, p.region, lo, hi - 1, false⟩))

/-- A request enters the queues of its channels. -/
def State.enqueuePieces (s : State) (id : Nat) (write rt : Bool) (ps : List Piece) : State :=
  (ps.flatMap (s.pieceReqs id write rt)).foldl (fun s e => let x := s.sched e.1; s.setSched e.1 { x with queue := x.queue ++ [e.2] }) s

/-- Whether a request's reads are all served. -/
def State.served (s : State) (id : Nat) : Bool := s.mem.scheds.all (fun e => e.2.queue.all (fun r => r.write || r.id ≠ id))

/-- The bytes of a write, from its front, whose entries find room in the write queues of 64 entries (R389), after entries already counted. -/
def State.fitting (s : State) : List Nat → List (Nat × ChReq) → Nat
  | _, [] => 0
  | taken, e :: es =>
    if (s.sched e.1).queue.countP (·.write) + taken.count e.1 < 64 then (e.2.hi + 1 - e.2.lo) + s.fitting (e.1 :: taken) es else 0

/-- The bytes of a write of `len` bytes at an address that find room now. -/
def State.writeFits (s : State) (table : Bool) (a len : Nat) : Nat :=
  s.fitting [] (((s.allPieces table a len).filterMap id).flatMap (s.pieceReqs 0 true false))

/-! ### MEMORY_REQUEST (R390, R391) -/

/-- The number of a source's queue. -/
def srcNo (c : MemSrc) : Nat :=
  match c with
  | .thread t sp => 4 * t.val + sp.toNat
  | .queuePair q => 8192 + q.val

/-- The requests of a source that wait. -/
def State.memWaiting (s : State) (k : Nat) : List MemReq := SMap.get (fun _ => []) s.mem.waiting k
def State.setWaiting (s : State) (k : Nat) (l : List MemReq) : State :=
  s.modMem (fun m => { m with waiting := SMap.set (fun _ => []) m.waiting k l })

/-- A request as it is issued. -/
def newReq (table : Bool) (a len : Nat) (write : Option (List Byte)) (amo : Option (Nat × Word64 × Word64 × Bool)) (cls : Option Nat) : MemReq :=
  ⟨0, table, a, len, write, amo, cls, false, false, 0, ⟨[], false, []⟩⟩

/-- A source issues a request: it waits behind the source's earlier ones. The answer is its number. -/
def State.issueMem (s : State) (k : Nat) (r : MemReq) : Nat × State :=
  let id := s.mem.nextId
  (id, (s.modMem (fun m => { m with nextId := id + 1 })).setWaiting k (s.memWaiting k ++ [{ r with id := id }]))

/-- The value an atomic operation leaves (R239): 0 swap, 1 add, 2 and, 3 or, 4 exclusive or, 5 unsigned maximum, 6 unsigned
minimum, 7 compare and swap. -/
def amoResult (op : Nat) (old opnd cmp : Nat) (n : Nat) : Nat :=
  let m := 2 ^ (8 * n)
  match op with
  | 0 => opnd % m
  | 1 => (old + opnd) % m
  | 2 => old &&& (opnd % m)
  | 3 => old ||| (opnd % m)
  | 4 => old ^^^ (opnd % m)
  | 5 => max old (opnd % m)
  | 6 => min old (opnd % m)
  | _ => if old = cmp % m then opnd % m else old

/-- What a read with an uncorrectable error answers (R405): the data of each 64-byte line that has none; where one has, the data is sent
poisoned, and its bytes are free. -/
def spoil (bad : Nat → Nat → Bool) (free a : Nat) (data : List Byte) : List Byte :=
  (List.range ((a + data.length - 1) / 64 + 1 - a / 64)).flatMap (fun i =>
    let lo := max a (64 * (a / 64 + i))
    let n := min (a + data.length) (64 * (a / 64 + i) + 64) - lo
    if bad lo n then leBytes n (free >>> (512 * i)) else bytesAt data (lo - a) n)

/-- What the next bytes of a request return, after its first `n`. -/
def MemDone.join (d : MemDone) (n : Nat) (e : MemDone) : MemDone :=
  ⟨d.data ++ e.data, d.bad || e.bad, d.poison ++ e.poison.map (fun p => (n + p.1, p.2))⟩

/-- The stretches of a read's data that are sent poisoned: the 64-byte lines with an uncorrectable error (R405). -/
def spoiled (bad : Nat → Nat → Bool) (a len : Nat) : List (Nat × Nat) :=
  (List.range ((a + len - 1) / 64 + 1 - a / 64)).filterMap (fun i =>
    let lo := max a (64 * (a / 64 + i))
    let n := min (a + len) (64 * (a / 64 + i) + 64) - lo
    if bad lo n then some (lo - a, n) else none)

/-- A request is answered. -/
def State.answerMem (s : State) (r : MemReq) (d : MemDone) : State := s.modMem (fun m => { m with done := SMap.put m.done r.id d })

/-- A write is performed: its bytes, and its place in the channel queues. -/
def State.writeNow (s : State) (table : Bool) (a id : Nat) (data : List Byte) : State :=
  (s.memWrite table a data).enqueuePieces id true false ((s.allPieces table a data.length).filterMap (fun p => p))

/-- A read is performed: what it answers, and its place in the channel queues. -/
def State.readNow (s : State) (table : Bool) (a len id : Nat) : MemDone × State :=
  let q := s.memRead table a len
  let ps := (s.allPieces table a len).filterMap (fun p => p)
  let bad (a n : Nat) : Bool := (s.memRead table a n).1
  if q.1 then (⟨spoil bad s.freeBits a q.2.1, true, spoiled bad a len⟩, q.2.2.stepFresh.enqueuePieces id false false ps)
  else (⟨q.2.1, false, []⟩, q.2.2.enqueuePieces id false false ps)

/-- A request is performed: its data effect, its place in the channel queues, and its answer. An atomic reads and writes its bytes. -/
def State.performMem (s : State) (r : MemReq) : State :=
  let ps := (s.allPieces r.table r.addr r.len).filterMap id
  let note (s : State) (d : MemDone) : State := s.answerMem r d
  match r.write, r.amo with
  | some data, _ => note (s.writeNow r.table r.addr r.id data) r.got
  | none, some (op, opnd, cmp, _) =>
    let q := s.memRead r.table r.addr r.len
    let s1 := q.2.2.enqueuePieces r.id false false ps
    if q.1 then note s1 ⟨[], true, [(0, r.len)]⟩
    else note (s1.writeNow r.table r.addr r.id (leBytes r.len (amoResult op (leNat q.2.1) opnd.toNat cmp.toNat r.len))) ⟨q.2.1, false, []⟩
  | none, none =>
    let q := s.readNow r.table r.addr r.len r.id
    note q.2 (r.got.join r.done q.1)

/-- The channels of `len` bytes of a request, each once. -/
def State.channelsOf (s : State) (r : MemReq) (len : Nat) : List Nat :=
  (((s.allPieces r.table r.addr len).filterMap id).map (·.win)).eraseDups

/-- A held request counts once on each of its channels (R399). -/
def State.countHeld (s : State) (r : MemReq) (len : Nat) : State :=
  ((s.channelsOf r len).filter (fun w => decide (s.chanAvail w = .hold))).foldl (fun s w => s.count w 0x164) s

/-- The channels of a request that are in self-refresh by an idle entry (R398). -/
def State.sleeping (s : State) (r : MemReq) (len : Nat) : List Nat := (s.channelsOf r len).filter (fun w => (s.chan w).selfRefresh.isSome)

/-- The first request of a source is let to its channels, for its first `len` bytes, or waits for one that holds requests or sleeps, and is counted
once as it begins to wait (R384, R398, R399). -/
def State.gateMem (s : State) (k : Nat) (r : MemReq) (len : Nat) (rest : List MemReq) : MemAvail × State :=
  match s.memAvail r.table r.addr len with
  | .bad => (.bad, s)
  | .hold => (.hold, if r.held then s else (s.countHeld r len).setWaiting k ({ r with held := true } :: rest))
  | .ok =>
    let z := s.sleeping r len
    if z.isEmpty then (.ok, s)
    else (.hold, if r.waited then s
      else (z.foldl (fun (s : State) w => s.count w 0x160) s).setWaiting k ({ r with waited := true } :: rest))

/-- The 64-byte lines of a stretch. -/
def linesOf (a n : Nat) : Nat := if n = 0 then 0 else (a + n - 1) / 64 + 1 - a / 64

/-- The bytes of a request, from its front, for whose lines its class has tokens now (R391, R421). -/
def State.paidFor (s : State) (r : MemReq) : Nat :=
  match r.cls with
  | none => r.len
  | some c =>
    let res := if r.table then 1 else 0
    if s.tokensHeld c res ≠ 0 then 0 else min r.len (64 * (r.addr / 64 + s.tokensLeft c res) - r.addr)

/-- The tokens of the first `n` bytes of a request are drawn; a class that cannot pay for all of it waits (R391, R421). -/
def State.payLines (s : State) (k : Nat) (r : MemReq) (n : Nat) : State :=
  match r.cls with
  | none => s
  | some c =>
    let s1 := if n = 0 then s else (s.drawFor (k + 1) c (if r.table then 1 else 0) (linesOf r.addr n)).2
    if s.paidFor r < r.len then s1.markWaited c else s1

/-- The first `n` bytes of the first request of a source enter its channel queues; what is left goes on waiting (R389, R390). -/
def State.enterMem (s : State) (k : Nat) (r : MemReq) (rest : List MemReq) (n : Nat) : State :=
  if r.len ≤ n then (s.setWaiting k rest).performMem r
  else if n = 0 ∨ r.amo.isSome then s
  else match r.write with
    | some data => (s.writeNow r.table r.addr r.id (data.take n)).setWaiting k
        ({ r with addr := r.addr + n, len := r.len - n, write := some (data.drop n), done := r.done + n } :: rest)
    | none =>
      let q := s.readNow r.table r.addr n r.id
      q.2.setWaiting k ({ r with addr := r.addr + n, len := r.len - n, done := r.done + n, got := r.got.join r.done q.1 } :: rest)

/-- The first `n` bytes of a host DMA request are not performed, and the rest of the transfer goes on (R384, R405): a read sends them poisoned, with
free content. -/
def State.skipMem (s : State) (k : Nat) (r : MemReq) (rest : List MemReq) (n : Nat) : State :=
  let got := r.got.join r.done ⟨if r.write.isSome then [] else leBytes n s.freeBits, true, [(0, n)]⟩
  let s1 := if r.write.isSome then s else s.stepFresh
  if r.len ≤ n then (s1.setWaiting k rest).answerMem r got
  else s1.setWaiting k ({ r with addr := r.addr + n, len := r.len - n, write := r.write.map (·.drop n), done := r.done + n, got := got } :: rest)

/-- The bytes of a request that are answered together: all of it, but for host DMA the stretch from its front whose channels all answer, or none
of whose do (R405). -/
def State.frontLen (s : State) (k : Nat) (r : MemReq) : Nat :=
  let ps := s.allPieces r.table r.addr r.len
  let bad (p : Option Piece) : Bool := match p with
    | none => true
    | some q => decide (s.chanAvail q.win = .bad)
  if k < 8192 then r.len
  else match ps with
    | [] => r.len
    | p :: _ =>
      let front := ps.takeWhile (fun q => bad q == bad p)
      if bad p ∧ front.any (·.isNone) then r.len
      else sumOf (front.filterMap (fun q => q)) (fun q => q.len)

/-- MEMORY_REQUEST: the oldest request of a source is performed, or waits for its channel, for self-refresh to end, for tokens or for room;
each line goes as it draws its token (R384, R390, R391, R398, R399, R421). -/
def execMemoryRequest (src : MemSrc) (s : State) : Res :=
  let k := srcNo src
  match s.memWaiting k with
  | [] => .next s
  | r :: rest =>
    let front := s.frontLen k r
    match s.gateMem k r front rest with
    | (.bad, s1) => .next (if k < 8192 then (s1.setWaiting k rest).answerMem r ⟨[], true, [(0, r.len)]⟩ else s1.skipMem k r rest front)
    | (.hold, s1) => .next s1
    | (.ok, s1) =>
      let part := { r with len := front }
      let n := if r.write.isNone && r.amo.isNone then s1.paidFor part else min (s1.paidFor part) (s1.writeFits r.table r.addr front)
      .next ((s1.payLines k part n).enterMem k r rest n)

/-! ### Requests of the units

Warren, Sheaf, Rick, Spine and the host's windows ask for memory one line or slot at a time. What one of them asks for in one Commons activity
comes from one source (R36), whose waiting request holds its later ones (R390). -/

/-- A source of R36 beside threads and queue pairs: Spine, a Commons activity of a unit, and what a unit does for packets and threads, which is
no activity: there each address counts as a source of its own (log 81). -/
inductive UnitSrc where
  | spine
  | activity (w cls : Nat)
  | packets (table : Bool) (a : Nat)
  deriving DecidableEq, Repr

/-- The number of such a source's queue. -/
def unitNo (u : UnitSrc) : Nat :=
  match u with
  | .spine => 16384
  | .activity w c => 16385 + 16 * w + c
  | .packets table a => 32768 + 2 * a + bit table

/-- Whether a request that waits is the one named. -/
def MemReq.isFor (r : MemReq) (table write : Bool) (a len : Nat) : Bool :=
  r.table == table && r.addr == a && r.len == len && r.write.isSome == write

/-- Whether a waiting request of a unit could now go to its channels. -/
def State.unitGoes (s : State) (r : MemReq) : Bool :=
  match s.memAvail r.table r.addr r.len with
  | .bad => true
  | .hold => false
  | .ok => (s.sleeping r r.len).isEmpty && (r.write.isNone || decide (r.len ≤ s.writeFits r.table r.addr r.len))

/-- A unit's request is let to its channels, or waits: behind the earlier ones of its source, for its channels, and a write for room. Earlier
ones that may go by now, and are not asked for again, hold nothing back. -/
def State.unitGate (s : State) (u : UnitSrc) (table write : Bool) (a len : Nat) : MemAvail × State :=
  let k := unitNo u
  let r0 := newReq table a len (if write then some [] else none) none none
  match (s.memWaiting k).dropWhile (fun r => !r.isFor table write a len && s.unitGoes r) with
  | r :: rest =>
    if r.isFor table write a len then go k r rest
    else (.hold, s.setWaiting k (if rest.any (fun x => x.isFor table write a len) then r :: rest else r :: rest ++ [r0]))
  | [] => go k r0 []
where
  /-- The request is the source's first. -/
  go (k : Nat) (r : MemReq) (rest : List MemReq) : MemAvail × State :=
    match s.gateMem k r len rest with
    | (.bad, s1) => (.bad, s1.setWaiting k rest)
    | (.hold, s1) => (.hold, s1)
    | (.ok, s1) => if write ∧ s1.writeFits table a len < len then (.hold, s1.setWaiting k (r :: rest)) else (.ok, s1.setWaiting k rest)

/-- A unit's read is performed, and enters the channel queues. -/
def State.unitGet (s : State) (table : Bool) (a len : Nat) : Bool × List Byte × State :=
  let r := s.memRead table a len
  let id := s.mem.nextId
  (r.1, r.2.1, (r.2.2.modMem (fun m => { m with nextId := id + 1 })).enqueuePieces id false false
    ((s.allPieces table a len).filterMap (fun p => p)))

/-- A unit's write is performed, and enters the channel queues. -/
def State.unitPut (s : State) (table : Bool) (a : Nat) (data : List Byte) : State :=
  let id := s.mem.nextId
  (s.modMem (fun m => { m with nextId := id + 1 })).writeNow table a id data

/-! ### COMMAND_SLOT (R386 to R389, R392 to R394) -/

/-- Fields of the refresh and neighbour-row registers of a scheduler's controller. -/
def ctrlWin (k : Nat) : Nat := if k < 64 then bmcWin else tmcWin
def State.postponeLimit (s : State) (k : Nat) : Nat :=
  min (s.rf (ctrlWin k) 0x200 31 28) (Config.refreshLimits (decide (64 ≤ k)) (s.rf (ctrlWin k) 0x200 23 23 = 1)).1
def State.pullinLimit (s : State) (k : Nat) : Nat :=
  min (s.rf (ctrlWin k) 0x200 27 24) (Config.refreshLimits (decide (64 ≤ k)) (s.rf (ctrlWin k) 0x200 23 23 = 1)).2

/-- Whether the refresh is forced (R393). -/
def State.refreshForced (s : State) (k : Nat) : Bool :=
  decide (((max 1 (s.postponeLimit k) : Nat) : Int) ≤ (s.sched k).debt)

/-- The counter c of a scheduler's channel rises. -/
def State.countCh (s : State) (k c : Nat) : State := s.count (schedWin k) (0x140 + 4 * c)

/-- NEIGHBOUR_ROW_REFRESH_MARK: an activate is counted, and where the sample that the channel's generator gives marks it, with probability
2^-k, a neighbour-row refresh is pending (R394, R395). -/
def State.markNrr (s : State) (k bank row : Nat) : State :=
  let w := schedWin k
  let c := s.chan w
  let hit := Config.generatorSample c.gen % 2 ^ s.rf (ctrlWin k) 0x204 15 12 = 0
  let s1 := (s.setChan w { c with gen := Config.generatorNext c.gen }).countCh k 0
  let x := s1.sched k
  if hit then s1.setSched k { x with nrr := x.nrr ++ [⟨bank, row, s.time.cycles, s.rf (ctrlWin k) 0x204 1 0⟩] } else s1

/-- A bank is closed; every bank is closed. -/
def State.closeBank (s : State) (k bank : Nat) : State :=
  let x := s.sched k
  s.setSched k { x with banks := SMap.erase x.banks bank }
def State.closeAll (s : State) (k : Nat) : State := let x := s.sched k; s.setSched k { x with banks := [] }

/-- An all-bank refresh: the debt falls by one, counted under counter `c`. -/
def State.refreshAll (s : State) (k c : Nat) : State :=
  let x := s.sched k
  (s.setSched k { x with debt := x.debt - 1 }).countCh k c

/-- A pending neighbour-row refresh is issued: its bank is closed first; without directed refresh management the neighbours
are activated in turn (R394). -/
def State.issueNrr (s : State) (k : Nat) (e : NrrMark) (forced : Bool) : State :=
  let x := s.sched k
  if (SMap.find x.banks e.bank).isSome then s.closeBank k e.bank
  else
    let s1 := (s.setSched k { x with nrr := x.nrr.erase e }).countCh k 5
    let s2 := if forced then s1.countCh k 6 else s1
    let w := schedWin k
    let rows := if k < 64 then 12288 else 2 ^ s.rowBits w
    let near := (List.range (2 * e.radius + 1)).filter
      (fun i => decide (e.radius ≤ e.row + i) && decide (e.row + i < rows + e.radius) && decide (i ≠ e.radius))
    if 64 ≤ k ∧ s.rf w 0x100 8 8 = 1 then s2 else near.foldl (fun s i => s.markNrr k e.bank (e.row + i - e.radius)) s2

/-- The requests of a list without the first with a number, bank and row. -/
def dropReq (r : ChReq) (q : List ChReq) : List ChReq := removeFirst (fun x => decide (x = r)) q

/-- A request replaced in its queue. -/
def putReq (r r' : ChReq) (q : List ChReq) : List ChReq := q.map (fun x => if x = r then r' else x)

/-- A bank open on the row of a request, under the policy its region has now (R388). -/
def State.openBank (s : State) (r : ChReq) : BankSt :=
  ⟨r.row, s.time.cycles, (s.pagePolicy r.region).1, (s.pagePolicy r.region).2, false⟩

/-- One column access of a request to its open row (R386 to R388). -/
def State.column (s : State) (k : Nat) (r : ChReq) : State :=
  let x := s.sched k
  let b := s.openBank r
  let s1 := if r.act then s else s.countCh k 1
  let q := if r.cols ≤ 1 then dropReq r x.queue else putReq r { r with cols := r.cols - 1, act := true } x.queue
  let banks := if b.idle = 0 ∧ ¬ b.compat then SMap.erase x.banks r.bank else SMap.put x.banks r.bank b
  let s2 := s1.setSched k { s1.sched k with queue := q, banks := banks }
  if (schedsOf (schedWin k)).all (fun j => (s2.sched j).queue.isEmpty) then
    s2.setChan (schedWin k) { s2.chan (schedWin k) with idleSince := s.time.cycles }
  else s2

/-- The next command for a request: a column access, a precharge of its bank, or an activate. -/
def State.serve (s : State) (k : Nat) (r : ChReq) : State :=
  let x := s.sched k
  match SMap.find x.banks r.bank with
  | some b => if b.row = r.row then s.column k r else s.closeBank k r.bank
  | none =>
    match x.nrr.find? (fun e => e.bank == r.bank) with
    | some e => s.issueNrr k e false
    | none =>
      let s1 := s.setSched k { x with banks := SMap.put x.banks r.bank (s.openBank r), queue := putReq r { r with act := true } x.queue }
      s1.markNrr k r.bank r.row

/-- Whether a request hits an open row. -/
def SchedSt.hits (x : SchedSt) (r : ChReq) : Bool := ((SMap.find x.banks r.bank).map (·.row)) == some r.row

/-- Whether a scheduler works off its writes (R389 item 4). -/
def SchedSt.writeMode (x : SchedSt) : Bool :=
  let n := x.queue.countP (·.write)
  decide (48 ≤ n) || (x.draining && decide (16 < n))

/-- Whether a request may go: a read only behind every request already in the queue that writes a byte of it (R390). -/
def SchedSt.mayGo (x : SchedSt) (r : ChReq) : Bool :=
  r.write || !(x.queue.takeWhile (fun y => decide (y ≠ r))).any (fun y => y.write && decide (y.lo ≤ r.hi) && decide (r.lo ≤ y.hi))

/-- Item 2 of R389: a real-time read of a stack in panic. -/
def State.panicRead (s : State) (k : Nat) : Option ChReq :=
  let x := s.sched k
  if k < 64 ∧ s.rf (282 + k / 32) 0x104 31 31 = 1 then x.queue.find? (fun r => r.rt && x.mayGo r) else none

/-- Items 4 to 7 of R389: the request served next. -/
def State.nextReq (s : State) (k : Nat) : Option ChReq :=
  let x := s.sched k
  let first (p : ChReq → Bool) : Option ChReq := x.queue.find? (fun r => x.mayGo r && p r)
  (if x.writeMode then first (·.write) else none) <|> first (fun r => decide (r.entered + 2000 ≤ s.time.cycles)) <|> first x.hits
    <|> first (fun _ => true)

/-- The real-time reads that a forced operation of a buffer memory pseudo-channel holds back count, each once (R397). -/
def State.holdBack (s : State) (k : Nat) : State :=
  let x := s.sched k
  let n := x.queue.countP (fun r => r.rt && !r.held)
  if 64 ≤ k ∨ n = 0 then s
  else (s.setSched k { x with queue := x.queue.map (fun r => { r with held := r.held || r.rt }) }).countBy (282 + k / 32) 0x118 n

/-- The idle time after which a channel enters self-refresh, 0 for never (TMC_SR_CFG, BMC_SR_CFG). -/
def State.idleUs (s : State) (w : Nat) : Nat := s.rf (if kindOf w = 0x09 then bmcWin else tmcWin) 0x208 15 0

/-- Whether a channel's idle entry has begun: its queues have been empty for idle_us (R398). -/
def State.entryBegun (s : State) (w : Nat) : Bool :=
  decide (s.idleUs w ≠ 0) && s.inService w && (schedsOf w).all (fun k => (s.sched k).queue.isEmpty)
    && decide ((s.chan w).idleSince + 1000 * s.idleUs w ≤ s.time.cycles)

/-- Whether nothing under R389 could issue in a scheduler's command slot, pulling a refresh in included. -/
def State.slotIdle (s : State) (k : Nat) : Bool :=
  let x := s.sched k
  !s.refreshForced k && x.nrr.isEmpty && x.queue.isEmpty && x.banks.all (fun b => !b.2.expired)
    && decide (x.debt < 1) && decide (x.debt ≤ -((s.pullinLimit k : Nat) : Int))

/-- COMMAND_SLOT: a scheduler issues the first item of R389; the timing of the memory is not modelled. A channel that drains completes what
is queued (R399); one whose idle entry has begun precharges its banks and issues the refreshes it owes (R398). -/
def execCommandSlot (ch : SchedId) (s : State) : Res :=
  let k := schedNo ch
  let x := s.sched k
  let w := schedWin k
  if !s.serving w ∨ (s.chan w).selfRefresh.isSome then .next s
  else
    let s0 := s.setSched k { x with draining := x.writeMode }
    if s.refreshForced k then
      if x.banks.isEmpty then .next ((s0.holdBack k).refreshAll k 2) else .next ((s0.holdBack k).closeAll k)
    else match x.nrr.find? (fun e => decide (e.marked + 2000 ≤ s.time.cycles)), s.panicRead k, x.nrr, s.nextReq k with
      | some e, _, _, _ => .next ((s0.holdBack k).issueNrr k e true)
      | none, some r, _, _ => .next (s0.serve k r)
      | none, none, e :: _, _ => .next (s0.issueNrr k e false)
      | none, none, [], some r => .next (s0.serve k r)
      | none, none, [], none => match x.banks.find? (fun b => b.2.expired) with
        | some b => .next (s0.closeBank k b.1)
        | none =>
          if s.entryBegun w ∧ ¬ x.banks.isEmpty then .next (s0.closeAll k)
          else if x.debt < 1 ∧ (s.entryBegun w ∨ x.debt ≤ -((s.pullinLimit k : Nat) : Int)) then .next s0
          else if ¬ x.banks.isEmpty then .next (s0.closeAll k)
          else .next (s0.refreshAll k (if 1 ≤ x.debt then 3 else 4))

/-- REFRESH_TICK: the debt rises by one; a debt that reaches P forces refreshes (R392, R393). None runs in self-refresh
(R401). -/
def execRefreshTick (ch : SchedId) (s : State) : Res :=
  let k := schedNo ch
  let w := schedWin k
  if !s.serving w ∨ (s.chan w).selfRefresh.isSome then .next s
  else
    let x := s.sched k
    let s1 := s.setSched k { x with debt := x.debt + 1 }
    if s1.refreshForced k then .next ((s1.holdBack k).setEvent w 0x180 0) else .next s1

/-- A write of a REF_CFG that lowers P to D or below forces a refresh (R393). -/
def State.postponeSet (s : State) (table : Bool) (before : Nat → Bool) : State :=
  let ks := if table then (List.range 48).map (64 + ·) else List.range 64
  (ks.filter (fun k => s.serving (schedWin k) && (s.chan (schedWin k)).selfRefresh.isNone && s.refreshForced k && !before k)).foldl
    (fun (s : State) k => (s.holdBack k).setEvent (schedWin k) 0x180 0) s

/-- A channel's generator is seeded from the true random number generator: its content is free (R395). -/
def State.reseed (s : State) (w : Nat) : State :=
  (s.setChan w { s.chan w with gen := BitVec.ofNat 64 s.freeBits, seeded := s.time.cycles }).stepFresh

/-- GENERATOR_RESEED: a channel's generator is seeded again when a second has passed (R395); one that is ABSENT, OFF or FAILED has none. -/
def execGeneratorReseed (w : Win) (s : State) : Res :=
  let v := w.val
  if (kindOf v = 0x09 ∨ kindOf v = 0x0B) ∧ s.chanAvail v ≠ .bad ∧ (s.chan v).seeded + 1000000000 ≤ s.time.cycles then .next (s.reseed v)
  else .next s

/-- The idle time of a bank in ns: its value in cycles of 1.2 GHz or 1.6 GHz. -/
def idleNs (k idle : Nat) : Nat := if k < 64 then (idle * 10 + 11) / 12 else (idle * 10 + 15) / 16

/-- IDLE_TIMER_EXPIRY: the timer of an open bank under the native policy reaches zero (R386, R387). -/
def execIdleTimerExpiry (ch : SchedId) (bank : BitVec 6) (s : State) : Res :=
  let k := schedNo ch
  let x := s.sched k
  match SMap.find x.banks bank.toNat with
  | some b =>
    if ¬ b.compat ∧ b.touched + idleNs k b.idle ≤ s.time.cycles then
      .next (s.setSched k { x with banks := SMap.put x.banks bank.toNat { b with expired := true } })
    else .next s
  | none => .next s

/-! ### Panic (R396, R397) -/

/-- The HBMC cycles of a panic are counted up to now: 6 for each 5 ns. -/
def State.panicSync (s : State) (k : Nat) : State :=
  match SMap.find s.mem.panicSince k with
  | none => s
  | some t =>
    let c := (s.time.cycles - t) * 6 / 5
    let done := SMap.get (fun _ => 0) s.mem.panicCounted k
    (s.countBy (282 + k) 0x114 (c - done)).modMem (fun m => { m with panicCounted := SMap.put m.panicCounted k c })

/-- Whether some channel of a stack works out of self-refresh. -/
def State.stackAwake (s : State) (k : Nat) : Bool :=
  (List.range 16).any (fun c => s.serving (bmChannelWin k c) && (s.chan (bmChannelWin k c)).selfRefresh.isNone)

/-- A stack's panic ends with the stack, or as its last channel enters self-refresh (R401). -/
def State.endPanic (s : State) (k : Nat) : State :=
  ((s.panicSync k).setRf (282 + k) 0x104 31 31 0).modMem (fun m =>
    { m with panicSince := SMap.erase m.panicSince k, panicCounted := SMap.erase m.panicCounted k })

/-! ### Self-refresh and retraining (R398 to R400) -/

/-- Whether no neighbour-row refresh of a channel is pending: command slots issue them before the channel sleeps (R389). -/
def State.nrrDone (s : State) (w : Nat) : Bool := (schedsOf w).all (fun k => (s.sched k).nrr.isEmpty)

/-- A channel's banks are precharged and its owed refreshes issued; its schedulers start again at debt 0. -/
def State.quietScheds (s : State) (w : Nat) : State :=
  (schedsOf w).foldl (fun s k => let x := s.sched k
                                 let n := x.debt.toNat
                                 (s.setSched k { x with banks := [], debt := 0 }).countBy w 0x14C n) s

/-- A channel is in self-refresh. -/
def State.enterSelfRefresh (s : State) (w : Nat) : State :=
  let s1 := (s.quietScheds w).setChan w { s.chan w with selfRefresh := some s.time.cycles }
  let k := (w - 284) / 16
  if kindOf w = 0x09 ∧ !s1.stackAwake k then s1.endPanic k else s1

/-- SELF_REFRESH_ENTRY: a channel whose queues have been empty for idle_us enters self-refresh; a request that came before the
entry point cancels it (R398). -/
def execSelfRefreshEntry (w : Win) (s : State) : Res :=
  let v := w.val
  if kindOf v ≠ 0x09 ∧ kindOf v ≠ 0x0B then .next s
  else
    let idle := s.idleUs v
    let c := s.chan v
    let reqs := (schedsOf v).flatMap (fun k => (s.sched k).queue)
    if idle = 0 ∨ !s.inService v ∨ c.selfRefresh.isSome then .next s
    else match reqs with
      | [] => if c.idleSince + 1000 * idle ≤ s.time.cycles ∧ s.nrrDone v then .next (s.enterSelfRefresh v) else .next s
      | r :: _ =>
        if c.idleSince + 1000 * idle ≤ r.entered then
          .next ((s.count v 0x15C).setChan v { c with idleSince := s.time.cycles })
        else .next s

/-- SELF_REFRESH_EXIT: a channel in self-refresh by an idle entry exits; the debt restarts at 0 (R398). -/
def execSelfRefreshExit (w : Win) (s : State) : Res :=
  let c := s.chan w.val
  if c.selfRefresh.isSome ∧ s.inService w.val then
    .next (s.setChan w.val { c with selfRefresh := none, idleSince := s.time.cycles })
  else .next s

/-- CH_RETRAIN: a go of CH_RETRAIN: taken in QUIET, refused elsewhere (R399). -/
def execChRetrain (w : Win) (s : State) : Res :=
  let v := w.val
  if kindOf v ≠ 0x09 ∧ kindOf v ≠ 0x0B then .next s
  else if (s.gathOf v).own = .quiet then .next ((s.setRf v 0x104 30 30 1).setRf v 0x104 29 28 0)
  else .next (s.setRf v 0x104 29 28 3)

end Sys2Proof.Machine
end

