-- ==== Sys2Proof/Machine/Sheaf.lean ====
section
/-! DEFINITION. Sheaf and Rick: minutes, reports, closes, the record ring, flow slots (14_sheaf_and_rick_metering.md). -/

namespace Sys2Proof.Machine

/-! ### Minutes (R360, R549) -/

/-- The minute of a device time under an offset; times before the offset fall in minute 0. -/
def minuteUnder (utc t : Nat) : Nat := (t - 1000000000 * utc) / 60000000000

/-- The minute of a device time under the offset that was in force at it: `utc` since the latest of these changes (R360). -/
def eraMinute : List (Nat × Nat × Nat) → Nat → Nat → Nat
  | [], utc, t => minuteUnder utc t
  | (since, before, floor) :: rest, utc, t => if t < since then eraMinute rest before t else max floor (minuteUnder utc t)

/-- The minute of a device time, with the offset in force at that time (R360). -/
def State.minuteOf (s : State) (t : Nat) : Nat := eraMinute s.sheaf.eras s.sheaf.utc t

/-- Sheaf's registers that show the records: SHEAF_NOW and SHEAF_STATUS. -/
def State.showSheaf (s : State) : State :=
  let active := match s.sheaf.prev with
    | some p => p.frozen
    | none => false
  ((s.setReg sheafWin 0x110 (BitVec.ofNat 32 s.sheaf.c)).setRf sheafWin 0x118 1 1 (bit active)).setRf sheafWin 0x118 0 0
    (bit (decide (1 < s.sheaf.span)))

/-- The counters of a bank, and a bank replaced. -/
def State.sheafBank (s : State) (b : Bool) : SMap Word64 := if b then s.sheaf.bank1 else s.sheaf.bank0
def State.setSheafBank (s : State) (b : Bool) (m : SMap Word64) : State :=
  s.modSheaf (fun x => if b then { x with bank1 := m } else { x with bank0 := m })

/-- Where counter i of a tenant lies in instance 0 of Sheaf's memories: bank after bank, tenant after tenant. -/
def counterPlace (b : Bool) (tenant i : Nat) : Nat := 8 * (bit b * 2 ^ 20 + 64 * tenant + i)

/-- Counter i of a tenant in a bank, and a value added to it. -/
def State.sheafCounter (s : State) (b : Bool) (tenant i : Nat) : Word64 := SMap.get (fun _ => 0) (s.sheafBank b) (64 * tenant + i)
def State.addCounter (s : State) (b : Bool) (tenant i v : Nat) : State :=
  (s.setSheafBank b (SMap.set (fun _ => 0) (s.sheafBank b) (64 * tenant + i) (s.sheafCounter b tenant i + BitVec.ofNat 64 v))).eccWrite
    sheafWin 0 (counterPlace b tenant i) 8

/-! ### Reports (R361, R364, R374) -/

/-- Where a report lands (R361): its bank, the first minute of its record, and whether case 4 applies. -/
def State.attribute (s : State) (ts : Nat) : Bool × Nat × Bool :=
  let r := s.minuteOf ts
  let x := s.sheaf
  let last := x.c + x.span - 1
  if x.c ≤ r ∧ r ≤ last then (x.curBank, x.c, false)
  else match x.prev with
    | none => if r = last + 1 then (!x.curBank, r, false) else (x.curBank, x.c, true)
    | some p => if p.first ≤ r ∧ r < p.first + p.span ∧ ¬ p.frozen then (!x.curBank, p.first, false) else (x.curBank, x.c, true)

/-- An update of Rick is queued, or lost (R374, R377). -/
def State.queueRick (s : State) (b : Bool) (u : RickUpdate) : State :=
  if s.rf sheafWin 0x200 22 16 * 1048576 ≤ u.flow then s.addCounter b u.tenant 62 1
  else if 65536 ≤ s.sheaf.queue.length then (s.addCounter b u.tenant 62 1).setEvent sheafWin 0x140 3
  else s.modSheaf (fun x => { x with queue := x.queue ++ [u] })

/-- What a report's counters say to Rick (R375). -/
def rickOf (r : Report) (flow minute : Nat) (late : Bool) : Option RickUpdate :=
  let v (i : Nat) : Option Nat := (r.adds.find? (fun a => a.1 == i)).map (·.2)
  match v 0, v 18 with
  | some n, _ => some ⟨flow, minute, late, r.tenant, r.ts, n, (v 1).getD 0, 0⟩
  | none, some _ => some ⟨flow, minute, late, r.tenant, r.ts, 0, 0, 1⟩
  | none, none => none

/-- A report is applied (R361). SHEAF_CNT counts one report for each counter an event adds to. -/
def State.applyReport (s : State) (r : Report) : State :=
  match s.attribute r.ts.toNat with
  | (b, minute, late) =>
    let n := r.adds.length
    let s1 := r.adds.foldl (fun s a => s.addCounter b r.tenant a.1 a.2) (s.countBy sheafWin 0x180 n)
    let s2 := if late then ((s1.addCounter b r.tenant 23 1).countBy sheafWin 0x184 n).setEvent sheafWin 0x140 2 else s1
    match r.rick with
    | none => s2
    | some flow => match rickOf r flow minute late with
      | some u => s2.queueRick b u
      | none => s2

/-- The counters that a report adds to are read: whether one is uncorrectable (R405). -/
def State.readCounters (s : State) (r : Report) : Bool × State :=
  r.adds.foldl (fun acc a =>
    let q := acc.2.eccRead sheafWin 0 (counterPlace (s.attribute r.ts.toNat).1 r.tenant a.1) 8
    (acc.1 || q.1, q.2)) (false, s)

/-- The oldest report is counted (R361, R367). -/
def State.sheafReport (s : State) : Res :=
  match s.reports with
  | [] => .next s
  | r :: rest => .next ({ s with reports := rest }.applyReport r)

/-! ### Boundaries and freezes (R361, R362) -/

/-- The end of the current record's last covered minute. -/
def State.recordEnd (s : State) : Nat := (s.sheaf.c + s.sheaf.span) * 60000000000 + 1000000000 * s.sheaf.utc

/-- A boundary passes: a new record opens in the other bank, or the minute merges; then a new offset is in force (R360,
R362). -/
def State.passBoundary (s : State) : State :=
  let e := s.recordEnd
  let settle := s.rf sheafWin 0x100 15 0 * 1000000
  let utc := s.rf sheafWin 0x100 31 24
  let step (x : SheafSt) : SheafSt := match x.prev with
    | none => { x with prev := some ⟨x.c, x.span, e, settle, false, 0, 0, none⟩, curBank := !x.curBank, c := x.c + x.span, span := 1 }
    | some _ => { x with span := x.span + 1 }
  let s1 := s.modSheaf step
  let s2 := if utc = s1.sheaf.utc then s1
            else s1.modSheaf (fun x => { x with eras := (e, x.utc, x.c + x.span - 1) :: x.eras, utc := utc })
  s2.showSheaf

/-- MINUTE_BOUNDARY: device time has passed the end of the last covered minute (R362). -/
def execMinuteBoundary (s : State) : Res :=
  if s.recordEnd ≤ s.time.ns.toNat then .next s.passBoundary else .next s

/-- RECORD_FREEZE: the previous record freezes, at the device time that its root record carries, and its close begins (R361, R363, R371). -/
def execRecordFreeze (s : State) : Res :=
  match s.sheaf.prev with
  | some p =>
    if ¬ p.frozen ∧ p.endTime + p.settle ≤ s.time.ns.toNat then
      .next (s.modSheaf (fun x => { x with prev := some { p with frozen := true, freezeTime := s.time.ns.toNat } })).showSheaf
    else .next s
  | none => .next s

/-! ### Closes (R363, R368 to R372) -/

/-- Where the record of a tenant for a minute lies, and the root record of a minute (R372). -/
def State.recordAddr (s : State) (tenant minute : Nat) : Nat :=
  s.rf sheafWin 0x104 11 0 * 0x40000000 + 256 * (16384 * (minute % 129600) + tenant)
def State.rootAddr (s : State) (minute : Nat) : Nat := s.rf sheafWin 0x108 21 0 * 0x100000 + 16384 * (minute % 129600)

/-- Whether a stretch of table memory shares a byte with region r. -/
def State.tmMeets (s : State) (r base len : Nat) : Bool :=
  decide (s.tmStart r < base + len) && decide (base < s.tmStart r + s.tmSize r)

/-- The channels of the record ring and of the root ring, 129,600 minutes each (R372): those of every region that a ring meets. -/
def State.ringChannels (s : State) : List Nat :=
  let rs := s.tmRegions.filter (fun r => s.tmMeets r (s.recordAddr 0 0) (129600 * 4194304) || s.tmMeets r (s.rootAddr 0) (129600 * 16384))
  rs.flatMap (fun r => (maskBits (s.tmMask r)).map tmChannelWin)

/-- Whether closes write their records (SHEAF_RING_CFG.en). -/
def State.ringOn (s : State) : Bool := s.rf sheafWin 0x104 31 31 = 1

/-- Whether a close may progress: Sheaf is IN_SERVICE or QUIESCING, and so are all channels of the rings where it writes (R363). -/
def State.closeRuns (s : State) : Bool := s.serving sheafWin && (!s.ringOn || s.ringChannels.all s.inService)

/-- Whether a close cannot be written: some of its bytes lie in no enabled region (R369). -/
def State.closeLost (s : State) (first : Nat) : Bool :=
  s.ringOn && ((s.allPieces true (s.recordAddr 0 first) 4194304).any (·.isNone) || (s.allPieces true (s.rootAddr first) 16384).any (·.isNone))

/-- The device_id (R468). -/
def deviceId : List Byte := sha384 Config.identityKeys

/-- The minute record of a tenant (R368). -/
def State.minuteRecord (s : State) (b : Bool) (p : PrevRecord) (tenant : Nat) : List Byte :=
  let prev := SMap.find s.sheaf.chains tenant
  let v (i : Nat) : Nat := (s.sheafCounter b tenant i).toNat
  let active := (List.range 64).any (fun i => decide (v i ≠ 0))
  let flags := bit prev.isNone + 2 * bit (decide (v 23 ≠ 0)) + 4 * bit (decide (1 < p.span)) + 8 * bit active
  leBytes 2 tenant ++ [1, BitVec.ofNat 8 flags] ++ leBytes 4 p.first ++ leBytes 2 p.span ++ List.replicate 6 0
    ++ fitBytes (prev.getD []) 48 ++ (List.range 24).flatMap (fun i => leBytes 8 (v i))

/-- The leaf hash of a record (R369), and the hash of an inner node (R370). -/
def leafHash (r : List Byte) : List Byte := sha384 (0 :: r)
def nodeHash (l r : List Byte) : List Byte := sha384 (1 :: (l ++ r))

/-- One level of the minute tree. -/
def treeLevel : List (List Byte) → List (List Byte)
  | l :: r :: rest => nodeHash l r :: treeLevel rest
  | rest => rest

/-- A tree `n` levels high over leaf hashes. -/
def treeUp : Nat → List (List Byte) → List (List Byte)
  | 0, l => l
  | n + 1, l => treeUp n (treeLevel l)

/-- Bytes 0x0000 to 0x00FF of the root record: what is signed (R371). -/
def State.rootHead (s : State) (p : PrevRecord) (root : List Byte) : List Byte :=
  let prev := s.sheaf.rootPrev
  [1, BitVec.ofNat 8 (bit prev.isNone), 0, 0] ++ leBytes 4 p.first ++ leBytes 2 p.span ++ List.replicate 6 0 ++ fitBytes root 48
    ++ fitBytes (prev.getD []) 48 ++ deviceId ++ leBytes 8 p.freezeTime ++ List.replicate 88 0

/-- A signature by the attestation pair, which the CDI determines (R467, R469); in LOCKED it is zero (R487, R490). -/
def State.attestSign (s : State) (alg : Nat) (msg : List Byte) : List Byte :=
  if s.trust.sec = .locked then [] else Config.sign (2 + leNat s.trust.cdi) alg msg

/-- The signatures of a root record: those made when its first line was written, which a later pair leaves as they are (R469), or those made now;
and whether they are signatures (R487). -/
def State.rootSigs (s : State) (p : PrevRecord) (head : List Byte) : Bool × List Byte × List Byte :=
  p.sigs.getD (decide (s.trust.sec ≠ .locked), s.attestSign 0 head, s.attestSign 1 head)

/-- The root record of a minute. -/
def State.rootRecord (s : State) (p : PrevRecord) (groups : List (List Byte)) : List Byte :=
  let head := s.rootHead p ((treeUp 7 groups).headD [])
  let sigs := s.rootSigs p head
  head ++ fitBytes sigs.2.1 96 ++ fitBytes sigs.2.2 4627 ++ List.replicate 141 0
    ++ groups.flatMap (fun g => fitBytes g 48) ++ List.replicate 0x1400 0

/-- The records of a close, in tenant order; its record frozen, its bank is the one that the current record does not hold (R549). -/
def State.closeRecords (s : State) (p : PrevRecord) : List (List Byte) :=
  (List.range 16384).map (fun t => s.minuteRecord (!s.sheaf.curBank) p t)

/-- The group hashes of a close, and its root record. -/
def State.closeGroups (s : State) (p : PrevRecord) : List (List Byte) := treeUp 7 ((s.closeRecords p).map leafHash)
def State.closeRoot (s : State) (p : PrevRecord) : List Byte := s.rootRecord p (s.closeGroups p)

/-- A close about to write the first line of its root record makes the signatures (R371, R469). -/
def State.closeSigned (s : State) (p : PrevRecord) : PrevRecord :=
  if p.written = 65536 ∧ p.sigs.isNone then { p with sigs := some (s.rootSigs p (s.rootHead p ((treeUp 7 (s.closeGroups p)).headD []))) } else p

/-- The table memory lines a close writes: 4 for each record, then the 256 of the root record (R363, R368, R371). -/
def closeLines : Nat := 16384 * 4 + 256

/-- Line i of a close: its address and its bytes (R372). -/
def State.closeLine (s : State) (p : PrevRecord) (i : Nat) : Nat × List Byte :=
  if i < 65536 then (s.recordAddr (i / 4) p.first + 64 * (i % 4), bytesAt (s.minuteRecord (!s.sheaf.curBank) p (i / 4)) (64 * (i % 4)) 64)
  else (s.rootAddr p.first + 64 * (i - 65536), bytesAt (s.closeRoot p) (64 * (i - 65536)) 64)

/-- A close has written everything: each record's leaf hash becomes its tenant's chain. A close that could not be written starts every chain
again (R369). -/
def State.endClose (s : State) (p : PrevRecord) : State :=
  if !s.ringOn then s
  else if s.closeLost p.first then s.modSheaf (fun x => { x with chains := [], rootPrev := none })
  else
    let s1 := if (s.rootSigs p []).1 then s.count sheafWin 0x18C else s
    s1.modSheaf (fun x => { x with chains := (List.range 16384).zip ((s.closeRecords p).map leafHash),
                                   rootPrev := some (sha384 ((s.closeRoot p).take 256)) })

/-- Whether a close has nothing more to write. -/
def State.closeWritten (s : State) (p : PrevRecord) : Bool := !s.ringOn || decide (closeLines ≤ p.written) || s.closeLost p.first

/-- CLOSE_COMPLETE: the close has written everything, and its bank is zeroed; a close that may not progress stalls (R363). -/
def execCloseComplete (s : State) : Res :=
  match s.sheaf.prev with
  | none => .next s
  | some p =>
    if ¬ p.frozen then .next s
    else if !s.closeRuns then .next (s.setEvent sheafWin 0x140 1)
    else if !s.closeWritten p then .next s
    else
      let b := !s.sheaf.curBank
      let s1 := ((s.endClose p).setSheafBank b []).eccWrite sheafWin 0 (counterPlace b 0 0) (8 * 2 ^ 20)
      let s2 := s1.modSheaf (fun x => { x with prev := none })
      .next (((s2.setReg sheafWin 0x114 (BitVec.ofNat 32 p.first)).count sheafWin 0x188).setEvent sheafWin 0x140 0).showSheaf

/-- A close writes its lines in turn, each for one SHEAF_CLOSE token, until its channels have no room or it has no tokens; at most `fuel`
lines (R363, R391). -/
def State.writeLines (s : State) (p : PrevRecord) : Nat → State
  | 0 => s
  | fuel + 1 =>
    if s.closeWritten p then s
    else
      let q := s.closeSigned p
      let l := s.closeLine q p.written
      match s.unitGate (.activity sheafWin 7) true true l.1 64 with
      | (.ok, s1) => match s1.drawFor 0 7 1 1 with
        | (true, s2) =>
          let p' := { q with written := p.written + 1 }
          ((s2.unitPut true l.1 l.2).modSheaf (fun x => { x with prev := some p' })).writeLines p' fuel
        | (false, s2) => s2
      | (_, s1) => s1

/-- A close goes on with what SHEAF_CLOSE has in this round, or stalls (R363, R421). -/
def State.closeProgress (s : State) : State :=
  match s.sheaf.prev with
  | none => s
  | some p =>
    if ¬ p.frozen then s
    else if !s.closeRuns then s.setEvent sheafWin 0x140 1
    else s.writeLines p closeLines

/-! ### Rick (R374 to R377) -/

/-- Where the slot of a flow for a minute lies (R375). -/
def State.rickSlot (s : State) (flow minute : Nat) : Nat :=
  s.rf sheafWin 0x208 11 0 * 0x40000000
    + 32 * (s.rf sheafWin 0x200 22 16 * 1048576 * (minute % (60 * s.rf sheafWin 0x200 28 24)) + flow)

/-- Fields of a slot. -/
def rickBits (v : BitVec 256) (hi lo : Nat) : Nat := bitsOf v.toNat hi lo

/-- The bytes of a slot, and a slot of its bytes. -/
def slotBytes (v : BitVec 256) : List Byte := leBytes 32 v.toNat
def slotOf (b : List Byte) : BitVec 256 := BitVec.ofNat 256 (leNat b)

/-- A slot with its check code. -/
def sealSlot (v : BitVec 256) : BitVec 256 :=
  let body := (slotBytes v).take 28
  slotOf (body ++ leBytes 4 (crc32c body))

/-- Whether a slot's check code holds. -/
def slotOk (v : BitVec 256) : Bool := sealSlot v == v

/-- A slot after an update: fields minute, tenant, flags, rx_pkts, rx_bytes, drops. -/
def bumpSlot (v : BitVec 256) (u : RickUpdate) (restarted : Bool) : BitVec 256 :=
  let flags := rickBits v 55 48 ||| bit u.late ||| 2 * bit restarted
  sealSlot (BitVec.ofNat 256 (u.minute % 2 ^ 32 + u.tenant * 2 ^ 32 + flags * 2 ^ 48
    + (rickBits v 103 64 + u.pkts) % 2 ^ 40 * 2 ^ 64 + (rickBits v 151 104 + u.bytes) % 2 ^ 48 * 2 ^ 104
    + (rickBits v 191 152 + u.drops) % 2 ^ 40 * 2 ^ 152))

/-- An update is applied to its slot as read (R376). -/
def State.rickApply (s : State) (a : Nat) (v : BitVec 256) (u : RickUpdate) : State :=
  let b := (s.attribute u.ts.toNat).1
  let put (s : State) (w : BitVec 256) : State := (s.modSheaf (fun x => { x with cache := SMap.put x.cache a w })).writeItem sheafWin 1 a
  if rickBits v 31 0 ≠ u.minute % 2 ^ 32 then
    put ((s.applyReport ⟨u.tenant, u.ts, [(22, 1)], none⟩).count sheafWin 0x190) (bumpSlot 0 u false)
  else if !slotOk v then put (s.count sheafWin 0x194) (bumpSlot 0 u true)
  else if rickBits v 45 32 ≠ u.tenant then (s.addCounter b u.tenant 62 1).setEvent sheafWin 0x140 3
  else put s (bumpSlot v u false)

/-- The oldest update is applied to its slot, in the cache or read from table memory; it waits while the cache
is full or its channel holds requests (R376, R377). -/
def State.rickNext (s : State) : Res :=
  match s.sheaf.queue with
  | [] => .next s
  | u :: rest =>
    let a := s.rickSlot u.flow u.minute
    let s1 := s.modSheaf (fun x => { x with queue := rest })
    match SMap.find s.sheaf.cache a with
    | some v => .next (s1.rickApply a v u)
    | none =>
      if 262144 ≤ s.sheaf.cache.length then .next s
      else match s.unitGate (.packets true a) true false a 32 with
        | (.hold, s2) => .next s2
        | (.bad, s2) =>
          .next (((s2.modSheaf (fun x => { x with queue := rest })).addCounter (s.attribute u.ts.toNat).1 u.tenant 62 1).setEvent sheafWin 0x140 3)
        | (.ok, s2) =>
          let r := (s2.modSheaf (fun x => { x with queue := rest })).unitGet true a 32
          .next (r.2.2.rickApply a (if r.1 then 0 else slotOf r.2.1) u)

/-- RICK_WRITE_BACK: a cached slot is written to table memory, with a RICK_WRITE token (R377). Where its write is not performed (R384), the slot
is lost with its updates, and counts as RICK_LOST (log 111). -/
def execRickWriteBack (slot : Nat) (s : State) : Res :=
  match SMap.find s.sheaf.cache slot with
  | none => .next s
  | some v =>
    match s.unitGate (.activity sheafWin 6) true true slot 32 with
    | (.bad, s1) =>
      .next (((s1.modSheaf (fun x => { x with cache := SMap.erase x.cache slot })).addCounter s.sheaf.curBank (rickBits v 45 32) 62 1).setEvent
        sheafWin 0x140 3)
    | (.ok, s1) => match s1.drawFor 0 6 1 1 with
      | (false, s2) => .next s2
      | (true, s2) => .next ((s2.unitPut true slot (slotBytes v)).modSheaf (fun x => { x with cache := SMap.erase x.cache slot }))
    | (_, s1) => .next s1

end Sys2Proof.Machine
end

