-- ==== Sys2Proof/Machine/DeviceTime.lean ====
section
/-! DEFINITION. The time unit (18, R459 to R464): device time, its steps and slews, its sources, its events and its pin
TIME_PPS_OUT; and the passing of one TIME cycle. -/

namespace Sys2Proof.Machine

/-- A register of 32 bits read as a signed number (R5). -/
def signed (v : Word32) : Int := v.toInt

/-- A signed number as a register of 32 bits. -/
def unsigned (i : Int) : Word32 := BitVec.ofInt 32 i

/-- TIME_CFG.source. -/
def State.timeSource (s : State) : Nat := s.rf timeWin 0x110 31 30

/-- The sync state of R462. -/
def State.sync (s : State) : Nat :=
  match s.timeSource with
  | 1 => s.rf timeWin 0x110 29 29
  | 2 => if s.time.refOk ∧ s.time.ppsOk then 1 else if s.time.wasLocked then 2 else 3
  | _ => 0

/-- TIME_STATUS shows R462, and a time unit that is LOCKED in source 2 has been so. -/
def State.showTime (s : State) : State :=
  let s1 := s.modTime (fun t => { t with wasLocked := t.wasLocked || (decide (s.timeSource = 2) && t.refOk && t.ppsOk) })
  s1.setReg timeWin 0x12C (BitVec.ofNat 32 (s1.sync * 2 ^ 30 + bit s1.time.refOk * 2 ^ 29 + bit s1.time.ppsOk * 2 ^ 28))

/-- TIME_SLEW_LEFT shows what is still to be taken up, a half ns counted as one (log 16), saturating. -/
def State.showSlew (s : State) : State :=
  s.setReg timeWin 0x134 (BitVec.ofNat 32 (min 0xFFFFFFFF ((s.time.slewHalf + 1) / 2)))

/-- Device time goes on to `ns` and a fraction; a minute boundary of R360 that it passes raises EV_TIME_MINUTE (R463). -/
def State.reach (s : State) (ns frac : Nat) : State :=
  let s1 := s.modTime (fun t => { t with ns := BitVec.ofNat 64 ns, frac := frac })
  if s.minuteOf s.time.ns.toNat ≠ s.minuteOf ns then s1.raise 852 else s1

/-- One cycle of TIME (R459, R460): 1 ns plus f, or 0.5 ns while a slew is taken up; TIME_PPS_OUT falls 100 ms after it rose. -/
def idleStep (s : State) : State :=
  let gain := if s.time.slewHalf = 0 then (1000000000 + signed (s.reg timeWin 0x118)).toNat else 500000000
  let total := s.time.frac + gain
  let s1 := s.reach (s.time.ns.toNat + total / 1000000000) (total % 1000000000)
  let s2 := s1.modTime (fun t => { t with
    cycles := t.cycles + 1
    ppsFall := t.ppsFall.filter (fun c => decide (t.cycles + 1 < c)) })
  if s.time.slewHalf = 0 then s2 else (s2.modTime (fun t => { t with slewHalf := t.slewHalf - 1 })).showSlew

/-- A step of `d` ns (R460), combined with the slew still to be taken up. -/
def State.stepTime (s : State) (d : Int) : State :=
  if d = 0 then s
  else
    let net : Int := 2 * d - s.time.slewHalf
    let left := (-net).toNat
    let total := s.time.frac + net.toNat * 500000000
    let s1 := s.modTime (fun t => { t with slewHalf := left })
    let s2 := s1.reach (s.time.ns.toNat + total / 1000000000) (total % 1000000000)
    ((s2.setRf timeWin 0x128 30 30 (bit (decide (left ≠ 0)))).showSlew.count timeWin 0x148).raise 851

/-- Whether a step lies within the bounds of R460. -/
def stepLegal (d : Int) : Bool := decide (-1000000000 ≤ d) && decide (d ≤ 2 ^ 50)

/-- TIME_STEP as written. -/
def State.stepWritten (s : State) : Int := ((s.reg timeWin 0x124) ++ (s.reg timeWin 0x120) : BitVec 64).toInt

/-- TIME_STEP_GO: the step in TIME_STEP is applied, or its go is discarded (R11). -/
def execTimeStepGo (s : State) : Res :=
  .next (if stepLegal s.stepWritten then s.stepTime s.stepWritten else s.cfgReject timeWin 0x128)

/-- SLEW_END: with nothing left to take up, slewing reads 0. -/
def execSlewEnd (s : State) : Res := .next (if s.time.slewHalf = 0 then s.setRf timeWin 0x128 30 30 0 else s)

/-- The nearest whole multiple of 10^9 ns. -/
def nearestSecond (t : Int) : Int := (t + 500000000) / 1000000000 * 1000000000

/-- In source 2, pps_ok clears once no edge has been accepted for 1,100 ms (R462). -/
def State.ppsLate (s : State) : State :=
  let due : Bool := match s.time.lastPps with
    | some c => decide (c + 1100000000 ≤ s.time.cycles)
    | none => false
  if s.timeSource = 2 ∧ s.time.ppsOk ∧ due then (s.modTime (fun t => { t with ppsOk := false })).showTime.raise 849
  else s

/-- PPS_EDGE: in source 2 a rising edge is accepted within the window and corrects device time, or is rejected; the input reads inactive while
VDD_IO is not good (R494). -/
def execPpsEdge (s0 : State) : Res :=
  let s := s0.ppsLate
  if s.timeSource ≠ 2 ∨ !s.board.railsGood.getD 6 false then .next s
  else
    let t : Int := s.time.ns.toNat - signed (s.reg timeWin 0x114)
    let e := t - nearestSecond t
    if e.natAbs ≤ s.rf timeWin 0x110 15 0 then
      let s1 := ((s.setReg timeWin 0x130 (unsigned e)).count timeWin 0x140).raise 848
      let s2 := s1.modTime (fun x => { x with ppsOk := true, lastPps := some x.cycles })
      .next ((s2.stepTime (-e)).showTime)
    else .next (s.count timeWin 0x144)

/-- PPS_LOST: 1,100 ms without an accepted edge. -/
def execPpsLost (s : State) : Res := .next s.ppsLate

/-- REF_LOST: no edge of TIME_10M_IN for 1 µs; f holds its last value. -/
def execRefLost (s : State) : Res :=
  if s.timeSource = 2 ∧ s.time.refOk then .next ((s.modTime (fun t => { t with refOk := false })).showTime.raise 850)
  else .next s

/-- REF_LOCK: source 2 sets the f that follows the reference, which is within the range of R459. -/
def execRefLock (freq : BitVec 32) (s : State) : Res :=
  if s.timeSource = 2 ∧ (signed freq).natAbs ≤ 500000 then
    .next (((s.setReg timeWin 0x118 freq).modTime (fun t => { t with refOk := true })).showTime)
  else .next s

/-- PPS_OUT: the pin rises once for the whole seconds that device time has reached since it last rose. -/
def execPpsOut (s : State) : Res :=
  let sec := s.time.ns.toNat / 1000000000
  if sec ≤ s.time.seconds then .next s
  else .next (s.modTime (fun t => { t with seconds := sec, ppsFall := some (t.cycles + 100000000) }))

/-- The source is selected (R461, R462): the time unit has not been LOCKED since. -/
def State.selectSource (s : State) : State :=
  (s.modTime (fun t => { t with wasLocked := false, refOk := false, ppsOk := false, lastPps := none })).showTime

end Sys2Proof.Machine
end

