-- ==== Sys2Proof/Machine/Loft.lean ====
section
/-! DEFINITION. Loft: cells, pools, admission, references, and the priority flow control frames that XOFF sends
(11_loft_buffers.md, and R333 of 12). The meanings of Loft's commands are in `LoftCommands.lean`. -/

namespace Sys2Proof.Machine

/-! ### Ports -/

/-- A port with nothing in it. -/
def portEmpty (_ : Nat) : PortSt := ⟨[], [], [], [], [], [], [], [], []⟩

/-- Port `n` beyond its registers. -/
def State.port (s : State) (n : Nat) : PortSt := SMap.get portEmpty s.ports n

/-- Port `n` replaced. -/
def State.setPort (s : State) (n : Nat) (p : PortSt) : State := { s with ports := SMap.set portEmpty s.ports n p }

/-- Bits of a register of Ethernet port n's window. -/
def State.prf (s : State) (n off hi lo : Nat) : Nat := s.rf (portWin n) off hi lo

/-- Whether the link of Ethernet port n is up. -/
def State.linkUp (s : State) (n : Nat) : Bool := s.prf n 0x104 0 0 = 1

/-- The state of an Ethernet port's own logic. -/
def State.portState (s : State) (n : Nat) : GState := (s.gathOf (portWin n)).own

/-- The generation of a MACsec slot of a port (R481). -/
def State.saGen (s : State) (n slot : Nat) : Nat := SMap.get (fun _ => 0) (s.port n).saGens slot

/-- The default tenant of a port (R42). -/
def State.defaultTenant (s : State) (n : Nat) : Nat := s.rf windrowWin (0x300 + 4 * n) 29 16

/-- The speed of an Ethernet port in Gb/s, by its mode (R339). -/
def State.portSpeed (s : State) (n : Nat) : Nat :=
  match s.rf (portWin n) 0x100 31 28 with
  | 1 => 25 | 2 => 50 | 3 => 100 | 4 => 200 | 5 => 400 | 6 => 800 | _ => 0

/-- A MAC Control frame of port `n` with its opcode and parameters, padded to 60 bytes (IEEE 802.3 Annex 31; the port's own
MAC address is not given by the spec: `Config.macAddress`). -/
def macControlFrame (n op : Nat) (params : List Byte) : List Byte :=
  fitBytes ([0x01, 0x80, 0xC2, 0x00, 0x00, 0x01] ++ beBytes 6 (Config.macAddress n) ++ [0x88, 0x08]
    ++ beBytes 2 op ++ params) 60

/-- The PFC frame of port `n` for the priorities of a mask with their times (IEEE 802.1Qbb). -/
def pfcFrame (n mask : Nat) (time : Nat → Nat) : List Byte :=
  macControlFrame n 0x0101 (beBytes 2 mask ++ (List.range 8).flatMap (fun q => beBytes 2 (if mask.testBit q then time q else 0)))

/-- The PAUSE frame of port `n` (IEEE 802.3 Annex 31B). -/
def pauseFrame (n t : Nat) : List Byte := macControlFrame n 0x0001 (beBytes 2 t)

/-- The XOFF bits of port `n` (LOFT_PORT_CFG). -/
def State.xoffBits (s : State) (n : Nat) : Nat := s.rf loftWin (0x700 + 4 * n) 15 8

/-- A MAC Control frame waits at port `n` to be sent, ahead of the outputs (R333). A port in QUIET sends nothing (R345), nor does one
without link; the frame is counted when the MAC sends it. -/
def State.sendControl (s : State) (n : Nat) (frame : List Byte) : State :=
  if s.serving (portWin n) && s.linkUp n then
    let p := s.port n
    s.setPort n { p with ctl := p.ctl ++ [frame] }
  else s

/-- The XOFF frames of the schedules `qs` of port `n` are due now: the next ones follow from here (R333). -/
def State.xoffDue (s : State) (n : Nat) (qs : List Nat) : State :=
  let p := s.port n
  s.setPort n { p with pfcSent := qs.foldl (fun (m : SMap Nat) q => SMap.put m q s.time.cycles) p.pfcSent }

/-- The priorities of a mask. -/
def prios (mask : Nat) : List Nat := (List.range 8).filter mask.testBit

/-- XOFF of Ethernet port `n` changed from the bits `old` to the bits it has now: R333 sends the frame its mode asks for, one for all the
priorities that changed. -/
def State.pfcChange (s : State) (n old : Nat) : State :=
  let now := s.xoffBits n
  let cfg := s.reg droverWin (0x400 + 4 * n)
  let changed := Nat.xor now old
  if n ≥ 32 ∨ now = old then s
  else
    let s1 := s.xoffDue n (prios (changed &&& now) ++ if old = 0 then [8] else [])
    match fld cfg 31 30 with
    | 1 => if old = 0 ∨ now = 0 then s1.sendControl n (pauseFrame n (if now = 0 then 0 else fld cfg 15 0)) else s1
    | 2 => s1.sendControl n (pfcFrame n changed (fun q => if now.testBit q then fld cfg 15 0 else 0))
    | _ => s1

/-! ### Pools (R302, R303) -/

def State.poolMem (s : State) (p : Nat) : Nat := s.rf loftWin (0x100 + 16 * p) 31 30
def State.poolSpills (s : State) (p : Nat) : Bool := s.rf loftWin (0x100 + 16 * p) 29 29 = 1
def State.poolSpill (s : State) (p : Nat) : Nat := s.rf loftWin (0x100 + 16 * p) 28 23
def State.poolHeadroom (s : State) (p : Nat) : Nat := s.rf loftWin (0x100 + 16 * p) 15 0
def State.poolBase (s : State) (p : Nat) : Nat := s.rf loftWin (0x104 + 16 * p) 27 0
def State.poolSize (s : State) (p : Nat) : Nat := s.rf loftWin (0x108 + 16 * p) 27 0

/-- A pool's free stack. -/
def State.poolStack (s : State) (p : Nat) : PoolStack := SMap.get (fun _ => ⟨[], 0, false⟩) s.loft.poolStacks p

/-- A pool's free stack replaced. -/
def State.setStack (s : State) (p : Nat) (k : PoolStack) : State :=
  { s with loft := { s.loft with poolStacks := SMap.set (fun _ => ⟨[], 0, false⟩) s.loft.poolStacks p k } }

/-- The free cells of one pool (LOFT_POOL_STATUS). -/
def State.poolFree (s : State) (p : Nat) : Nat := (s.poolStack p).pushed.length + (s.poolStack p).rest

/-- The free count F of the logical pool that pool `p` heads (R302). -/
def State.logicalFree (s : State) (p : Nat) : Nat :=
  s.poolFree p + if s.poolSpills p then s.poolFree (s.poolSpill p) else 0

/-- Whether the logical pool that pool `p` heads is ready (R303). -/
def State.logicalReady (s : State) (p : Nat) : Bool :=
  (s.poolStack p).ready && (!s.poolSpills p || (s.poolStack (s.poolSpill p)).ready)

/-- The pool that names pool `p` as its spill pool, or `p` itself: the head of its logical pool. -/
def State.logicalHead (s : State) (p : Nat) : Nat :=
  ((List.range 64).find? (fun h => s.poolSpills h && s.poolSpill h == p)).getD p

/-- A cell pointer (R299). -/
def cellPtr (mem idx : Nat) : Nat := if mem = 2 then 0x80000000 + idx else idx

/-- The pool whose range holds a cell (R313). -/
def State.poolOfCell (s : State) (ptr : Nat) : Option Nat :=
  let mem := if ptr ≥ 0x80000000 then 2 else 1
  let idx := ptr % 0x10000000
  (List.range 64).find? (fun p => s.poolMem p == mem && decide (s.poolBase p ≤ idx ∧ idx < s.poolBase p + s.poolSize p))

/-- The next cell a pool gives: the top of its stack, and the stack without it. -/
def PoolStack.pop (k : PoolStack) (base : Nat) : Option (Nat × PoolStack) :=
  match k.pushed with
  | i :: is => some (i, { k with pushed := is })
  | [] => if k.rest = 0 then none else some (base + k.rest - 1, { k with rest := k.rest - 1 })

/-- The buffer memory address of a cell (R300). -/
def State.cellAddr (s : State) (ptr : Nat) : Nat := s.rf loftWin 0x600 7 0 * 0x10000000 + 256 * (ptr % 0x10000000)

/-- Whether the memory of a cell takes allocations now: on chip, or its channel is IN_SERVICE (R517). -/
def State.cellServed (s : State) (ptr : Nat) : Bool :=
  if ptr < 0x80000000 then true
  else match s.bmMap (s.cellAddr ptr) with
    | some p => s.inService p.win
    | none => true

/-- A cell is taken from a pool's stack. A cell at the top whose channel is out of service goes to the deferred list while that has
room (R517). -/
def State.popStack (s : State) (p : Nat) : Nat → Option (Nat × State)
  | 0 => none
  | fuel + 1 => match (s.poolStack p).pop (s.poolBase p) with
    | some (i, k) =>
      let ptr := cellPtr (s.poolMem p) i
      if s.cellServed ptr ∨ 65536 ≤ s.loft.deferred.length then some (ptr, s.setStack p k)
      else State.popStack ((s.setStack p k).modLoft (fun l => { l with deferred := l.deferred ++ [(p, i)] })) p fuel
    | none => none

/-- A cell is taken from a pool. -/
def State.popPool (s : State) (p : Nat) : Option (Nat × State) := s.popStack p 65537

/-- The deferred cells whose channel is IN_SERVICE again return to their stacks (R517). -/
def State.undefer (s : State) : State :=
  s.loft.deferred.foldl (fun (s : State) e =>
    if s.cellServed (cellPtr (s.poolMem e.1) e.2) then
      let k := s.poolStack e.1
      (s.setStack e.1 { k with pushed := e.2 :: k.pushed }).modLoft (fun l => { l with deferred := l.deferred.erase e })
    else s) s

/-- A cell is taken from the logical pool that pool `p` heads: its own stack first, then its spill pool (R302). -/
def State.popLogical (s : State) (p : Nat) : Option (Nat × State) :=
  match s.popPool p with
  | some r => some r
  | none => if s.poolSpills p then s.popPool (s.poolSpill p) else none

/-- Every cell of a pool's range is pushed, in ascending order, and the pool is ready (R303). -/
def State.fillPool (s : State) (p : Nat) : State := s.setStack p ⟨[], s.poolSize p, true⟩

/-! ### Tenants' cells -/

/-- The class of a tenant (LOFT_TSEL). -/
def State.loftClass (s : State) (t : Nat) : Nat := s.rf loftWin (0x2000 + 4 * (t / 8)) (4 * (t % 8) + 3) (4 * (t % 8))

/-- Reserve, cap and alpha of class `k` in the logical pool of pool `p` (LOFT_TRES, LOFT_TCAP). -/
def State.loftReserve (s : State) (p k : Nat) : Nat := s.rf loftWin (0x4000 + 4 * (16 * p + k)) 27 0
def State.loftCap (s : State) (p k : Nat) : Nat := s.rf loftWin (0x5000 + 4 * (16 * p + k)) 27 0
def State.loftAlpha (s : State) (p k : Nat) : Nat := s.rf loftWin (0x5000 + 4 * (16 * p + k)) 31 28

/-- A register of tenants' classes, reserves or caps as packet `pid` finds it: a write takes effect for packets whose first cell arrives
after it (11, Registers). -/
def State.loftThen (s : State) (pid off : Nat) : Word32 :=
  match s.loft.former.find? (fun e => decide (e.1 = off) && decide (pid < e.2.1)) with
  | some e => e.2.2
  | none => s.reg loftWin off

/-- The cap of a tenant in the logical pool of pool `p` as packet `pid` finds it. -/
def State.capThen (s : State) (pid p t : Nat) : Nat :=
  let k := fld (s.loftThen pid (0x2000 + 4 * (t / 8))) (4 * (t % 8) + 3) (4 * (t % 8))
  fld (s.loftThen pid (0x5000 + 4 * (16 * p + k))) 27 0

/-- A register of tenants' classes or caps has been written: what it held before is kept for the packets in flight. -/
def State.keepFormer (s : State) (off : Nat) (old : Word32) : State :=
  let live (bound : Nat) : Bool := s.packets.any (fun e => decide (e.1 < bound))
  s.modLoft (fun l => { l with former := (l.former ++ [(off, s.nextPid, old)]).filter (fun e => live e.2.1) })

/-- The cells of pool `p` that a tenant holds, and their number set. -/
def State.poolUsed (s : State) (t p : Nat) : Nat := SMap.get (fun _ => 0) s.loft.used (64 * t + p)
def State.setPoolUsed (s : State) (t p n : Nat) : State :=
  { s with loft := { s.loft with used := SMap.set (fun _ => 0) s.loft.used (64 * t + p) n } }

/-- The cells U a tenant holds in the logical pool that pool `p` heads, as the pools stand now (R302, R304). -/
def State.loftUsed (s : State) (t p : Nat) : Nat :=
  s.poolUsed t p + if s.poolSpills p then s.poolUsed t (s.poolSpill p) else 0

/-- The cells in use on (n, q) (R310). -/
def State.loftUsage (s : State) (n q : Nat) : Nat := SMap.get (fun _ => 0) s.loft.usage (8 * n + q)

/-- The cells in use on (n, q) are set. -/
def State.setLoftUsage (s : State) (n q v : Nat) : State :=
  { s with loft := { s.loft with usage := SMap.set (fun _ => 0) s.loft.usage (8 * n + q) v } }

/-- owed of R304: what the tenants' reserves are still due in the logical pool of pool `p`. With no reserve set nothing is
owed; otherwise it is the sum over all tenants. -/
def State.loftOwed (s : State) (p : Nat) : Nat :=
  if (List.range 16).all (fun k => s.loftReserve p k == 0) then 0
  else sumOf (List.range 16384) (fun t => s.loftReserve p (s.loftClass t) - s.loftUsed t p)

/-! ### Admission (R304) -/

/-- What admission decides of a frame. -/
inductive Admission where
  | admitted
  | wait
  | refuse (reason : Nat)
  deriving DecidableEq, Repr

/-- The Tedder lane of a port (R46). -/
def laneOf (n : Nat) : Nat := if n < 32 then n / 8 else n - 32

/-- The packets in classification in lane `n` (R78). -/
def State.windrowLane (s : State) (n : Nat) : List Nat := SMap.get (fun _ => []) s.windrow.lanes n

/-- Whether the input of Windrow lane `n` takes no packet: it or its group is not IN_SERVICE, or it holds 512 (R78). -/
def State.windrowStalled (s : State) (n : Nat) : Bool :=
  !s.inService windrowWin || !s.inService (407 + n) || decide (512 ≤ (s.windrowLane n).length)

/-- Whether the lane of port `n` is stalled (R47, R49, R169). -/
def State.laneStalled (s : State) (n : Nat) : Bool :=
  !s.inService tedderWin || !s.inService (402 + laneOf n) || s.windrowStalled (laneOf n)

/-- Whether (n, q) is lossless, and the pool it selects. -/
def State.lossless (s : State) (n q : Nat) : Bool := s.rf loftWin (0x800 + 4 * (8 * n + q)) 31 31 = 1
def State.ppPool (s : State) (n q : Nat) : Nat := s.rf loftWin (0x800 + 4 * (8 * n + q)) 5 0

/-- The decision of R304 at the first cell of a frame on (n, q). Reasons: 0 POOL_LIMIT, 1 TENANT_LIMIT, 2 LANE_STALL,
4 POOL_DISABLED (LOFT_PORT_DROP_CNT). -/
def State.admission (s : State) (n q : Nat) : Admission :=
  let p := s.ppPool n q
  let t := s.defaultTenant n
  let k := s.loftClass t
  let u := s.loftUsed t p
  let f := s.logicalFree p
  let r := s.loftReserve p k
  let c := s.loftCap p k
  let a := s.loftAlpha p k
  let fs : Int := (f : Int) - s.poolHeadroom p - s.loftOwed p
  if s.laneStalled n || !s.inService loftWin then
    if s.lossless n q then .wait else .refuse 2
  else if !s.logicalReady p then .refuse 4
  else if f ≤ s.poolHeadroom p then .refuse 0
  else if u < r then .admitted
  else if u < c ∧ fs > 0 ∧ (a = 0 ∨ ((u : Int) - r) * 128 < fs * 2 ^ a) then .admitted
  else .refuse 1

/-- The ingress priority of a frame on port `n` (11, Admission). -/
def State.ingressPrio (s : State) (n : Nat) (bytes : List Byte) : Nat :=
  let tpid := beNat (bytesAt bytes 12 2)
  if s.rf loftWin (0x700 + 4 * n) 31 31 = 1 ∧ (tpid = 0x8100 ∨ tpid = 0x88A8) ∧ 15 ≤ bytes.length then
    (byteAt bytes 14).toNat / 32
  else s.rf loftWin (0x700 + 4 * n) 2 0

/-! ### XOFF (R310) -/

/-- A frame that has been neither admitted nor refused. -/
def RxFrame.open (f : RxFrame) : Bool := f.pid.isNone && f.refused.isNone

/-- Whether a frame on (n, q) waits in the port's receive buffer (R306). -/
def State.frameWaits (s : State) (n q : Nat) : Bool :=
  (s.port n).rx.any (fun f => f.waitTold && f.open && s.ingressPrio n f.bytes == q)

/-- Whether XOFF of (n, q) asserts now, and whether it clears (R310). A lossy priority has none. -/
def State.xoffAsserts (s : State) (n q : Nat) : Bool :=
  s.lossless n q &&
    (decide (s.rf loftWin (0x1000 + 4 * (8 * n + q)) 31 16 ≤ s.loftUsage n q) || s.frameWaits n q || !s.inService loftWin)
def State.xoffClears (s : State) (n q : Nat) : Bool :=
  !s.lossless n q ||
    (decide (s.loftUsage n q ≤ s.rf loftWin (0x1000 + 4 * (8 * n + q)) 15 0) && !s.frameWaits n q && s.inService loftWin)

/-- XOFF of (n, q) is asserted, cleared or kept under R310; a new assertion is counted. -/
def State.noteXoff (s : State) (n q : Nat) : State :=
  if !(s.xoffBits n).testBit q && s.xoffAsserts n q then (s.setRf loftWin (0x700 + 4 * n) (8 + q) (8 + q) 1).count loftWin 0x62C
  else if (s.xoffBits n).testBit q && s.xoffClears n q then s.setRf loftWin (0x700 + 4 * n) (8 + q) (8 + q) 0
  else s

/-- XOFF of (n, q) is brought up to date, and the port sends what R333 asks. -/
def State.updateXoff (s : State) (n q : Nat) : State := (s.noteXoff n q).pfcChange n (s.xoffBits n)

/-- XOFF of every priority of port `n` is brought up to date: what changes at once shares one frame (R333). -/
def State.updatePortXoff (s : State) (n : Nat) : State :=
  ((List.range 8).foldl (fun (s : State) q => s.noteXoff n q) s).pfcChange n (s.xoffBits n)

/-- XOFF of every priority of every port is brought up to date. -/
def State.updateAllXoff (s : State) : State := (List.range 36).foldl State.updatePortXoff s

/-! ### Cells (R301, R312 to R315) -/

/-- A cell never used: alloc 0. -/
def cellFree (_ : Nat) : CellMeta := ⟨0, 0, 0, 0, false, false, false, 0⟩

/-- The metadata word of a cell. -/
def State.cell (s : State) (ptr : Nat) : CellMeta := SMap.get cellFree s.loft.cells ptr


/-- The metadata word as a number (R301). -/
def CellMeta.word (c : CellMeta) : Nat :=
  c.next % 2 ^ 32 + bit c.alloc * 2 ^ 32 + bit c.head * 2 ^ 33 + bit c.last * 2 ^ 34 + c.prio % 8 * 2 ^ 35 + c.port % 64 * 2 ^ 38
    + c.refs % 64 * 2 ^ 44 + c.tenant % 16384 * 2 ^ 50

/-- The buffer memory address of the metadata word of a cell of buffer memory: behind the 256 × N bytes of the region's cells (R300). -/
def State.metaAddr (s : State) (ptr : Nat) : Nat :=
  s.rf loftWin 0x600 7 0 * 0x10000000 + 256 * (s.rf loftWin 0x600 15 8 * 1048576) + 8 * (ptr % 0x10000000)

/-- Where the metadata word of a cell lies, as the window, instance and address of its memory: instance 1 of Loft's memories for an on-chip
cell; for a cell of buffer memory, its channel (R300). -/
def State.metaPlace (s : State) (ptr : Nat) : Option (Nat × Nat × Nat) :=
  if ptr < 0x80000000 then some (loftWin, 1, 8 * ptr) else (s.bmMap (s.metaAddr ptr)).map (fun p => (p.win, p.inst, p.addr))

/-- An access of the packet path to a channel that holds requests, or that sleeps, counts as held or as waiting (R398, R399); how long it
waits is timing. -/
def State.touchChannel (s : State) (w : Nat) : State :=
  match s.chanAvail w with
  | .hold => s.count w 0x164
  | .ok => if (s.chan w).selfRefresh.isSome then s.count w 0x160 else s
  | .bad => s

/-- A cell's metadata word replaced; that of a cell of buffer memory is written there, where its channel performs requests (R300, R384). -/
def State.setCell (s : State) (ptr : Nat) (c : CellMeta) : State :=
  let s1 : State := { s with loft := { s.loft with cells := SMap.set cellFree s.loft.cells ptr c } }
  if ptr < 0x80000000 then s1.eccWrite loftWin 1 (8 * ptr) 8
  else match s.bmMap (s.metaAddr ptr) with
    | some p => if s.chanAvail p.win = .bad then s1 else (s1.touchChannel p.win).memWrite false (s.metaAddr ptr) (leBytes 8 c.word)
    | none => s1

/-- The bytes of a cell are written (R300, R406, R413): those of a cell of buffer memory are its content there, and the write enters its
channel's queue where that has room. -/
def State.storeCell (s : State) (ptr : Nat) (data : List Byte) : State :=
  if ptr < 0x80000000 then s.eccWrite loftWin 0 (256 * ptr) 256
  else match s.bmMap (s.cellAddr ptr) with
    | some p =>
      let s1 := ((s.touchChannel p.win).putBytes false (s.cellAddr ptr) data).eccWrite p.win p.inst p.addr 256
      let id := s1.mem.nextId
      if s1.writeFits false (s.cellAddr ptr) 256 < 256 then s1
      else (s1.modMem (fun m => { m with nextId := id + 1 })).enqueuePieces id true false [{ p with len := 256 }]
    | none => s

/-- The metadata word of a cell is read: whether it is uncorrectable (R315), as one on a channel that is OFF or FAILED is (R384), and the
state with its errors logged (R405). -/
def State.readMeta (s : State) (ptr : Nat) : Bool × State :=
  match s.metaPlace ptr with
  | some m =>
    if ptr < 0x80000000 then s.eccRead m.1 m.2.1 m.2.2 8
    else if s.chanAvail m.1 = .bad then (true, s) else (s.touchChannel m.1).eccRead m.1 m.2.1 m.2.2 8
  | none => (false, s)

/-- Whether the metadata word of a cell holds an uncorrectable error (R315). -/
def State.cellBad (s : State) (ptr : Nat) : Bool := (s.readMeta ptr).1

/-- A cell becomes the newest cell of a packet charged to `tenant` on (n, q), with its bytes: `prev` is the packet's last cell so far. -/
def State.addCell (s : State) (tenant n q : Nat) (prev : Option Nat) (ptr : Nat) (data : List Byte) : State :=
  let p := (s.poolOfCell ptr).getD 0
  let s := (s.storeCell ptr data).setCell ptr ⟨tenant, if prev.isNone then 1 else 0, n, q, true, prev.isNone, true, 0⟩
  let s := match prev with
    | some l => s.setCell l { s.cell l with last := false, next := ptr }
    | none => s
  let s := s.setPoolUsed tenant p (s.poolUsed tenant p + 1)
  let s := s.setLoftUsage n q (s.loftUsage n q + 1)
  s.count loftWin (if ptr ≥ 0x80000000 then 0x614 else 0x610)

/-- The cells of a packet as they can be followed in chain order, at most `fuel` of them, and the cell with uncorrectable metadata at which
the chain ended, if there is one (R315). -/
def State.chain (s : State) : Nat → Nat → List Nat × Option Nat
  | 0, _ => ([], none)
  | fuel + 1, ptr =>
    if s.cellBad ptr then ([], some ptr)
    else if (s.cell ptr).last then ([ptr], none)
    else
      let r := s.chain fuel (s.cell ptr).next
      (ptr :: r.1, r.2)

/-- The whole chain of a packet, from its handle. -/
def State.chainOf (s : State) (handle : Nat) : List Nat × Option Nat := s.chain (s.loft.cells.length + 1) handle

/-- The cells that stand in a chain from a cell on, readable or not. -/
def State.linked (s : State) : Nat → Nat → List Nat
  | 0, _ => []
  | fuel + 1, ptr => if (s.cell ptr).last then [ptr] else ptr :: s.linked fuel (s.cell ptr).next

/-- The cells allocated to a packet, from its handle. -/
def State.cellsOf (s : State) (handle : Nat) : List Nat := s.linked (s.loft.cells.length + 1) handle

/-- The bytes of the i-th cell of a packet as a read returns them: those of buffer memory as they stand there (R300), with what their code
corrects (R404). -/
def State.cellData (s : State) (p : Packet) (i ptr : Nat) : List Byte :=
  let part := bytesAt p.bytes (256 * i) (min 256 (p.bytes.length - 256 * i))
  if ptr < 0x80000000 then s.eccFixed loftWin 0 (256 * ptr) part
  else match s.bmMap (s.cellAddr ptr) with
    | some m => s.eccFixed m.win m.inst m.addr (Memory.readBytes s.mem.buffer (s.cellAddr ptr) part.length)
    | none => part

/-- The bytes of a packet as its cells give them. -/
def State.packetData (s : State) (p : Packet) : List Byte :=
  match p.handle with
  | some h => (s.chainOf h).1.zipIdx.flatMap (fun c => s.cellData p c.2 c.1)
  | none => p.bytes

/-- The cells of a packet whose bytes have changed, as more of its frame came, are written again. -/
def State.restore (s : State) (h : Nat) (old new : List Byte) : State :=
  (s.cellsOf h).zipIdx.foldl (fun (s : State) c =>
    let part (b : List Byte) : List Byte := bytesAt b (256 * c.2) (min 256 (b.length - 256 * c.2))
    if part old = part new then s else s.storeCell c.1 (part new)) s

/-- A chain is followed: the metadata words read are looked at for errors (R405). -/
def State.followChain (s : State) (handle : Nat) : State :=
  let r := s.chainOf handle
  (r.1 ++ r.2.toList).foldl (fun (s : State) p => (s.readMeta p).2) s

/-- One cell is freed (R313): alloc cleared, its pointer pushed, its tenant, logical pool and usage credited. -/
def State.freeCell (s : State) (tenant : Nat) (ptr : Nat) : State :=
  let c := s.cell ptr
  let s := s.setCell ptr { c with alloc := false }
  match s.poolOfCell ptr with
  | none => s
  | some p =>
    let k := s.poolStack p
    let s := s.setStack p { k with pushed := (ptr % 0x10000000) :: k.pushed }
    let s := s.setPoolUsed tenant p (s.poolUsed tenant p - 1)
    let s := s.setLoftUsage c.port c.prio (s.loftUsage c.port c.prio - 1)
    s.updateXoff c.port c.prio

/-- Every cell of the chain of a handle is freed, in chain order (R313); those from an uncorrectable metadata word on leak, and are counted
(R315). -/
def State.freeChain (s : State) (handle : Nat) : State :=
  let t := (s.cell handle).tenant
  let r := s.chainOf handle
  let s1 := r.1.foldl (fun (s : State) ptr => s.freeCell t ptr) (s.followChain handle)
  match r.2 with
  | some bad => (s1.countBy loftWin 0x628 (s.cellsOf bad).length).setEvent loftWin 0x604 2
  | none => s1

/-- The two refusals of R314: a free cell (double free) or a cell that is no head. -/
def State.refuseFree (s : State) (handle : Nat) : State :=
  let s := s.setReg loftWin 0x608 (BitVec.ofNat 32 handle)
  if (s.cell handle).alloc then s.count loftWin 0x624
  else (s.count loftWin 0x620).setEvent loftWin 0x604 0

/-- Whether a handle names an allocated head cell. -/
def State.isHead (s : State) (handle : Nat) : Bool := (s.cell handle).alloc && (s.cell handle).head

/-- A reference is taken (R312, R313). -/
def State.refInc (s : State) (handle : Nat) : State :=
  if s.isHead handle then s.setCell handle { s.cell handle with refs := (s.cell handle).refs + 1 } else s.refuseFree handle

/-- A reference is released; the last one frees the chain (R313, R314). -/
def State.refDec (s : State) (handle : Nat) : State :=
  if s.isHead handle then
    if (s.cell handle).refs ≤ 1 then s.freeChain handle
    else s.setCell handle { s.cell handle with refs := (s.cell handle).refs - 1 }
  else s.refuseFree handle

/-! ### Packets -/

/-- Packet `pid`. -/
def State.packet (s : State) (pid : Nat) : Option Packet := SMap.find s.packets pid

/-- A packet is put into the table. -/
def State.setPacket (s : State) (pid : Nat) (p : Packet) : State := { s with packets := SMap.put s.packets pid p }

/-- A packet's own reference is released (R312) and it has ended: it stays in the table only while other references hold
its cells. -/
def State.endPacket (s : State) (pid : Nat) : State :=
  match s.packet pid with
  | none => s
  | some p =>
    let s := s.setPacket pid { p with place := .gone }
    match p.handle with
    | none => { s with packets := SMap.erase s.packets pid }
    | some h =>
      let s := s.refDec h
      if (s.cell h).alloc then s else { s with packets := SMap.erase s.packets pid }

/-- A reference to a packet's cells is released by a holder other than the packet itself (R312). -/
def State.releaseRef (s : State) (pid : Nat) : State :=
  match s.packet pid with
  | some p => match p.handle with
    | some h =>
      let s := s.refDec h
      if p.place = .gone ∧ ¬ (s.cell h).alloc then { s with packets := SMap.erase s.packets pid } else s
    | none => s
  | none => s

/-- A reference to a packet's cells is taken (R312). -/
def State.takeRef (s : State) (pid : Nat) : State :=
  match s.packet pid with
  | some p => match p.handle with
    | some h => s.refInc h
    | none => s
  | none => s

/-- A packet is dropped before it takes a position, under a diagnostic counter, against a tenant (R366): the drop is
reported, and Loft frees its cells. -/
def State.dropPacket (s : State) (pid tenant diag : Nat) : State :=
  match s.packet pid with
  | some p => (s.reportDrop tenant p.ts diag p.bytes.length).endPacket pid
  | none => s

/-- A refusal by Loft is counted on its port and, once the frame's length is known, in Sheaf against the default tenant
(R304). A lossless frame refused for a reason of R304 or for NO_CELL sets pfc_late (R311). -/
def State.countRefusal (s : State) (n q r : Nat) : State :=
  let s := (s.count loftWin (0x1800 + 4 * (8 * n + r))).count loftWin 0x61C
  if s.lossless n q ∧ r < 5 then s.setEvent loftWin 0x604 1 else s

/-- The Sheaf counter of Loft's refusal reason `r` (R366). -/
def loftDiag (r : Nat) : Nat := 31 + r

/-- The class of Commons that admission on a port draws on (R308). -/
def loftTokenClass (n : Nat) : Option Nat := if n = 32 then some 5 else if n = 34 then some 4 else none

/-- A cell is taken for a packet on (n, q), with its token where the port needs one (R308): the cell, or none with the reason
that there was no token (true) or no cell (false). A token is one cell admitted (R420), so none is drawn where there is no cell. -/
def State.takeCell (s : State) (n q : Nat) : Option Nat × Bool × State :=
  match s.popLogical (s.ppPool n q) with
  | none => (none, false, s)
  | some (ptr, s') => match loftTokenClass n with
    | none => (some ptr, false, s')
    | some c => match s'.draw c 4 with
      | (true, s'') => (some ptr, false, s'')
      | (false, _) => (none, true, (s.draw c 4).2)

end Sys2Proof.Machine
end

