-- ==== Sys2Proof/Machine/Parse.lean ====
section
/-! DEFINITION. Tedder's walk over the head of a frame: the parse graph image, the checks, the nesting limits and the parse
record (R50 to R67, R73, R74, R544). The meanings of Tedder's commands are in `Tedder.lean`. -/

namespace Sys2Proof.Machine

/-! ### The parse graph image (R52, R53) -/

/-- The declared length of field `n` (R53). -/
def fieldLen (g : List Byte) (n : Nat) : Nat := (byteAt g n).toNat % 32

/-- The place of field `n` in the parse record (R53). -/
def fieldPos (g : List Byte) (n : Nat) : Nat := 0x40 + sumOf (List.range n) (fieldLen g)

/-- The offset of context entry `c` and of node entry `t`. -/
def ctxAt (c : Nat) : Nat := 0x1000 + 32 * c
def nodeAt (t : Nat) : Nat := 0x2000 + 32 * t

/-- Byte `i` of an image as a number. -/
def gb (g : List Byte) (i : Nat) : Nat := (byteAt g i).toNat

/-- Bits `hi` to `lo` of byte `i` of an image. -/
def gbits (g : List Byte) (i hi lo : Nat) : Nat := bitsOf (gb g i) hi lo

/-- Whether context `c` is a deep-parse context, and its window in bytes (R51, R545). -/
def ctxDeep (g : List Byte) (c : Nat) : Bool := gbits g (ctxAt c + 1) 0 0 = 1
def ctxWindow (g : List Byte) (c : Nat) : Nat := if ctxDeep g c then 64 * gbits g (ctxAt c + 2) 3 0 else 128

/-- The default action of a reason code (R62): 1 DROP, 2 EXCEPTION. -/
def defaultAction (r : Nat) : Nat := if r = 0 ∨ r = 2 ∨ r = 0x0F ∨ r ≥ 0x20 then 2 else 1

/-- The mal_action field of context `c` (R53). -/
def malField (g : List Byte) (c : Nat) : Nat := leNat (bytesAt g (ctxAt c + 8) 16)

/-- The action of a mal_action field for reason code `r` (R54). -/
def malActionOf (field r : Nat) : Nat :=
  let a := bitsOf field (2 * r + 1) (2 * r)
  if a = 0 then defaultAction r else a

/-- The actions of context `c` on PARSE_TRUNCATED and FRAG_MISS (R54): default EXCEPTION. -/
def truncActionOf (g : List Byte) (c : Nat) : Nat :=
  let a := gbits g (ctxAt c + 3) 1 0
  if a = 0 then 2 else a
def fragMissActionOf (g : List Byte) (c : Nat) : Nat :=
  let a := gbits g (ctxAt c + 3) 3 2
  if a = 0 then 2 else a

/-- The limits of a context kind: VLAN tags, MPLS labels, tunnel levels (R51). -/
def vlanLimit (deep : Bool) : Nat := if deep then 8 else 2
def mplsLimit (deep : Bool) : Nat := if deep then 16 else 4
def tunnelLimit (deep : Bool) : Nat := if deep then 3 else 1

/-! ### Reading the window -/

/-- Frame byte `i` as the parse reads it: a byte beyond the window is one the spec gives no value. -/
def rdByte (win : List Byte) (i : Nat) : Nat := if i < win.length then gb win i else (Config.beyondWindow i).toNat

/-- `n` bytes from `i` as a network-order number. -/
def rdBe (win : List Byte) (i : Nat) : Nat → Nat
  | 0 => 0
  | n + 1 => rdBe win i n * 256 + rdByte win (i + n)

/-- The ones'-complement sum of the 16-bit words of a header, folded (RFC 1071). -/
def headerSum (words : List Nat) : Nat :=
  let t := words.foldl (· + ·) 0
  let t := t % 65536 + t / 65536
  let t := t % 65536 + t / 65536
  t % 65536 + t / 65536

/-! ### One node (R55) -/

/-- The header length at `pos` by a node entry (R55 step 2, R60): none where a byte the length is read from lies beyond the bytes at
hand. -/
def headerLen (entry win : List Byte) (pos : Nat) : Option Nat :=
  let need (off v : Nat) : Option Nat := if pos + off < win.length then some v else none
  match gb entry 2 with
  | 1 => some 14
  | 2 => need 0 (4 * (rdByte win pos % 16))
  | 3 => some 40
  | 4 => some 8
  | 5 => some 8
  | 6 => need 12 (4 * (rdByte win (pos + 12) / 16))
  | 7 =>
    let f := rdByte win pos
    need 0 (4 + 4 * (bitsOf f 7 7 + bitsOf f 5 5 + bitsOf f 4 4))
  | 8 => some 8
  | _ =>
    let width := gbits entry 6 7 4
    let fixed := gb entry 4
    if width = 0 then some fixed
    else
      let off := gb entry 5
      let lsb := gbits entry 6 2 0
      let high := if off = 0 then 0 else rdByte win (pos + off - 1)
      let v := ((high * 256 + rdByte win (pos + off)) >>> lsb) % 2 ^ width
      need off (fixed + v <<< gbits entry 7 1 0)

/-- The end of a header at which R66 stopped a parse, in the whole frame. DEDUCED (log 53): a header whose length byte lies beyond the
frame runs past it. -/
def StopEnd.inFrame (frame : List Byte) : StopEnd → Nat
  | .at e => e
  | .read start entry => match headerLen entry frame start with
    | some len => start + len
    | none => frame.length + 1

/-- The four extracts of a node (R55 step 4, R56). -/
def extracts (g win : List Byte) (node pos : Nat) (w : Walk) : Walk :=
  (List.range 4).foldl (fun w x =>
    let o := nodeAt node + 0x18 + 2 * x
    let field := gbits g (o + 1) 5 0
    let len := fieldLen g field
    let src := pos + gb g o
    if gbits g (o + 1) 7 7 = 1 ∧ len ≠ 0 ∧ src + len ≤ win.length then
      { w with record := patchBytes w.record (fieldPos g field) (bytesAt win src len),
               present := Nat.lor w.present (1 <<< field) }
    else w) w

/-- The reject rule of a node (R55 step 5): its reason, if it fires. DESIGN CHOICE (log 54): bits of reject_value above reject_width do not
count. -/
def rejectOf (g win : List Byte) (node pos : Nat) : List Nat :=
  let n := nodeAt node
  if gbits g (n + 0xF) 7 7 = 0 then []
  else
    let width := gbits g (n + 0x12) 5 0
    let v := (rdBe win (pos + gb g (n + 0x10)) 4 >>> gbits g (n + 0x11) 4 0) % 2 ^ width
    let eq := v = leNat (bytesAt g (n + 0x14) 4) % 2 ^ width
    if eq ≠ (gbits g (n + 0x13) 0 0 = 1) then [gbits g (n + 0xF) 5 0] else []

/-- The next node of a node (R55 step 7). DESIGN CHOICE (log 54): with sel_width 0 there is no selector, so no transition matches. -/
def nextNode (g win : List Byte) (node pos : Nat) : Nat :=
  let n := nodeAt node
  let width := gbits g (n + 9) 5 0
  let sel := (rdBe win (pos + gb g (n + 8)) 4 >>> gbits g (n + 0xA) 4 0) % 2 ^ width
  let base := leNat (bytesAt g (n + 0xC) 2) % 2048
  let entries := (List.range (gb g (n + 0xE))).map (fun i => 0x4000 + 8 * (base + i))
  if width = 0 then gb g (n + 0xB)
  else match entries.find? (fun e => leNat (bytesAt g e 4) == sel) with
    | some e => gb g (e + 4)
    | none => gb g (n + 0xB)

/-! ### Checks (R60 to R63, R544) -/

/-- What a check adds to a walk. -/
structure Checked where
  walk : Walk
  codes : List Nat
  deriving DecidableEq, Repr

/-- A code list for a condition. -/
def codeIf (b : Bool) (c : Nat) : List Nat := if b then [c] else []

/-- ETH (check 1). -/
def checkEth (win : List Byte) (pos place : Nat) (w : Walk) : Checked :=
  let l := rdBe win (pos + 12) 2
  let w := if l < 0x600 then { w with lenChecks := w.lenChecks ++ [.l2Len place l (pos + 14)] } else w
  ⟨w, codeIf (rdByte win (pos + 6) % 2 = 1) 0x1E⟩

/-- The header bytes an L4 protocol needs in a first fragment whose L4 header begins at `l4` with `pay` bytes (R544). -/
def tinyNeeds (win : List Byte) (proto l4 pay : Nat) : Nat :=
  if proto = 6 then (if pay > 12 then max 20 (4 * (rdByte win (l4 + 12) / 16)) else 20)
  else if proto = 17 then 8 else if proto = 1 then 8 else if proto = 132 then 12 else 0

/-- IPV4 (check 2) with a header of `len` bytes. DESIGN CHOICE (log 54): of two IP headers of one tunnel level, the nearer one decides whether
an L4 header is behind a fragmented one (R544). -/
def checkIpv4 (domain : Nat) (win : List Byte) (pos place len : Nat) (w : Walk) : Checked :=
  let tot := rdBe win (pos + 2) 2
  let ff := rdBe win (pos + 6) 2
  let off := ff % 8192
  let more := ff.testBit 13
  let proto := rdByte win (pos + 9)
  let src := rdBe win (pos + 12) 4
  let dst := rdBe win (pos + 16) 4
  let pay := tot - len
  let frag := off ≠ 0 ∨ more
  let first := off = 0 ∧ more
  let handled := frag ∧ ¬ w.fragSeen
  let w := { w with lenChecks := w.lenChecks ++ [.totLen place tot pos], inExt := false,
                    l4End := some (pos + tot), behindFrag := decide frag,
                    firstIp := w.firstIp.orElse (fun _ => some (pos + tot)) }
  let w := if handled then
      { w with fragSeen := true, fragFirst := decide first, fragLater := decide (off ≠ 0), fragV6 := false,
               fragKey := ((((0 * 256 + domain) * 2 ^ 128 + src) * 2 ^ 128 + dst) * 2 ^ 40) + proto * 65536 + rdBe win (pos + 4) 2 }
    else w
  let words := (List.range (len / 2)).map (fun i => rdBe win (pos + 2 * i) 2)
  ⟨w, codeIf (rdByte win pos / 16 ≠ 4) 0x03 ++ codeIf (rdByte win pos % 16 < 5) 0x04 ++ codeIf (tot < len) 0x05
    ++ codeIf (headerSum words ≠ 0xFFFF) 0x07 ++ codeIf (frag ∧ off * 8 + pay > 65535) 0x08
    ++ codeIf (first ∧ pay < tinyNeeds win proto (pos + len) pay) 0x09
    ++ codeIf (src / 2 ^ 28 = 14 ∨ src = 0xFFFFFFFF) 0x1C ++ codeIf (src / 2 ^ 24 = 127 ∨ dst / 2 ^ 24 = 127) 0x1F⟩

/-- IPV6 (check 3). -/
def checkIpv6 (win : List Byte) (pos place : Nat) (w : Walk) : Checked :=
  let pay := rdBe win (pos + 4) 2
  let src := rdBe win (pos + 8) 16
  let dst := rdBe win (pos + 24) 16
  let stop := if pay = 0 then none else some (pos + 40 + pay)
  let w := { w with extEnd := stop, inExt := true, l4End := stop, behindFrag := false, tinyEnd := none,
                    v6addrs := src * 2 ^ 128 + dst,
                    lenChecks := w.lenChecks ++ (if pay = 0 then [] else [.payLen place pay (pos + 40)]),
                    firstIp := w.firstIp.orElse (fun _ => stop) }
  ⟨w, codeIf (rdByte win pos / 16 ≠ 6) 0x0A ++ codeIf (pay = 0) 0x0F ++ codeIf (src / 2 ^ 120 = 0xFF) 0x1D
    ++ codeIf (src = 1 ∨ dst = 1) 0x1F⟩

/-- IPV6_FRAG (check 4). -/
def checkIpv6Frag (domain : Nat) (win : List Byte) (pos : Nat) (w : Walk) : Checked :=
  let ff := rdBe win (pos + 2) 2
  let off := ff / 8
  let more := ff % 2 = 1
  let frag := off ≠ 0 ∨ more
  let first := off = 0 ∧ more
  let handled := frag ∧ ¬ w.fragSeen
  let tooMany := match w.extEnd with
    | some e => decide (frag ∧ off * 8 + (e - (pos + 8)) > 65535)
    | none => false
  let w := if frag then { w with behindFrag := true, tinyEnd := if first then w.extEnd else none } else w
  let w := if handled then
      { w with fragSeen := true, fragFirst := decide first, fragLater := decide (off ≠ 0), fragV6 := true,
               fragKey := ((1 * 256 + domain) * 2 ^ 256 + w.v6addrs) * 2 ^ 40 + rdBe win (pos + 4) 4 }
    else w
  ⟨w, codeIf tooMany 0x0D⟩

/-- UDP (check 5). -/
def checkUdp (win : List Byte) (pos place : Nat) (w : Walk) : Checked :=
  let len := rdBe win (pos + 4) 2
  let later := match w.l4End with
    | some e => if w.behindFrag then [] else [.udpLen place len (e - pos)]
    | none => []
  ⟨{ w with lenChecks := w.lenChecks ++ later, udpEnd := some (pos + len) }, codeIf (len < 8) 0x10⟩

/-- TCP (check 6) with a header of `len` bytes. -/
def checkTcp (win : List Byte) (pos len : Nat) (w : Walk) : Checked :=
  let past := match w.l4End with
    | some e => !w.behindFrag && decide (e < pos + len)
    | none => false
  let fl := rdByte win (pos + 13)
  ⟨w, codeIf (len < 20) 0x12 ++ codeIf past 0x13 ++ codeIf (fl % 4 = 3) 0x14⟩

/-- GENEVE (check 9). -/
def checkGeneve (win : List Byte) (pos : Nat) (w : Walk) : Checked :=
  let b := rdByte win pos
  let past := match w.udpEnd with
    | some e => decide (e < pos + 8 + 4 * (b % 64))
    | none => false
  ⟨w, codeIf (b / 64 ≠ 0) 0x17 ++ codeIf past 0x18⟩

/-- SRH (check 10). -/
def checkSrh (win : List Byte) (pos : Nat) (w : Walk) : Checked :=
  let lastEntry := rdByte win (pos + 4)
  ⟨w, codeIf (rdByte win (pos + 1) < 2 * (lastEntry + 1)) 0x19 ++ codeIf (rdByte win (pos + 3) > lastEntry + 1) 0x1A⟩

/-- The check of a node (R60). -/
def checkNode (g win : List Byte) (node pos place len : Nat) (w : Walk) : Checked :=
  let domain := gb g (ctxAt w.ctx + 4)
  match gb g (nodeAt node + 2) with
  | 1 => checkEth win pos place w
  | 2 => checkIpv4 domain win pos place len w
  | 3 => checkIpv6 win pos place w
  | 4 => checkIpv6Frag domain win pos w
  | 5 => checkUdp win pos place w
  | 6 => checkTcp win pos len w
  | 7 => ⟨w, codeIf (rdByte win (pos + 1) % 8 > 1) 0x15⟩
  | 8 => ⟨w, codeIf (rdByte win pos / 8 % 2 = 0) 0x16⟩
  | 9 => checkGeneve win pos w
  | 10 => checkSrh win pos w
  | _ => ⟨w, []⟩

/-- Whether a recorded payload end lies before a header's end. -/
def endsPast (stop : Option Nat) (headerEnd : Nat) : Bool :=
  match stop with
  | some e => decide (e < headerEnd)
  | none => false

/-- The extension-chain rules behind an IPv6 header, before the node's own check (R61, R544): an extension header beyond
the payload end, and the first node of the same tunnel level after a first fragment's extension headers. -/
def chainCheck (g : List Byte) (node pos len : Nat) (w : Walk) : Checked :=
  let n := nodeAt node
  let tunnel : Bool := gbits g n 2 2 = 1
  let ext : Bool := (gb g (n + 2) == 0 || gb g (n + 2) == 4) && !tunnel
  if ext then ⟨w, codeIf (w.inExt && endsPast w.extEnd (pos + len)) 0x0C⟩
  else ⟨{ w with inExt := false, tinyEnd := none }, codeIf (!tunnel && endsPast w.tinyEnd (pos + len)) 0x0E⟩

/-- The nesting limit that parsing a node would break (R65), as its flag bit. DESIGN CHOICE (log 54): where one node breaks several limits
the order is NODE, TAG, LABEL, TUNNEL, then WINDOW; a node with valid 0 whose tag, label or tunnel bit meets its limit breaks that limit and is
not parsed; and it has no header, so it breaks no WINDOW_LIMIT wherever it begins. -/
def limitOf (g : List Byte) (node : Nat) (w : Walk) : Option Nat :=
  let n := nodeAt node
  if w.nodes = 24 then some 7
  else if gbits g n 3 3 = 1 ∧ w.vlan = vlanLimit w.deep then some 8
  else if gbits g n 4 4 = 1 ∧ w.mpls = mplsLimit w.deep then some 9
  else if gbits g n 2 2 = 1 ∧ w.tunnel = tunnelLimit w.deep then some 10
  else none

/-- One node is parsed (R55): the walk after it, and whether parsing goes on. DESIGN CHOICE (log 54): LEN_ZERO goes by the node's own terminal
bit, also on the IP node of a non-first fragment (R62, R69); a header of length zero that begins exactly at the window's end neither starts nor
ends beyond it, and is parsed (R65). -/
def parseNode (g win : List Byte) (w : Walk) : Walk × Bool :=
  let node := w.node
  let n := nodeAt node
  let pos := w.pos
  match limitOf g node w with
  | some f => ({ w with limit := some f }, false)
  | none =>
    if gbits g n 0 0 = 0 then
      ({ w with nodes := w.nodes + 1, last := node, reasons := w.reasons ++ [(w.nodes, 0)] }, false)
    else
      let place := w.nodes
      let entry := bytesAt g n 32
      let len? := headerLen entry win pos
      let len := len?.getD 0
      if len?.isNone ∨ win.length < pos + len then
        ({ w with stopEnd := some (place, if len?.isNone then .read pos entry else .at (pos + len)) }, false)
      else
        let tunnel := gbits g n 2 2
        let w := { w with nodes := w.nodes + 1, last := node, vlan := w.vlan + gbits g n 3 3,
                          mpls := w.mpls + gbits g n 4 4, tunnel := w.tunnel + tunnel }
        let w := if tunnel = 1 then { w with l4End := none, behindFrag := false } else w
        let w := if gbits g (n + 1) 7 7 = 1 then
            { w with record := patchBytes w.record (0x20 + 2 * gbits g (n + 1) 3 0) (leBytes 2 pos) }
          else w
        let w := extracts g win node pos w
        let c1 := chainCheck g node pos len w
        let c2 := checkNode g win node pos place len c1.walk
        let terminal : Bool := gbits g n 1 1 = 1
        let codes := c1.codes ++ c2.codes ++ rejectOf g win node pos ++ codeIf (!terminal && len == 0) 0x02
        let w := { c2.walk with reasons := c2.walk.reasons ++ codes.map (fun c => (place, c)) }
        let w := if gbits g (n + 3) 7 7 = 1 then { w with flags := Nat.lor w.flags (1 <<< gbits g (n + 3) 5 0) } else w
        if !codes.isEmpty || terminal || w.fragLater then (w, false)
        else ({ w with node := nextNode g win node pos, pos := pos + len }, true)

/-- The walk of a frame head, at most `fuel` nodes (R65: the 25th node is never parsed). -/
def walkNodes (g win : List Byte) : Nat → Walk → Walk
  | 0, w => w
  | fuel + 1, w =>
    match parseNode g win w with
    | (w', true) => walkNodes g win fuel w'
    | (w', false) => w'

/-- The walk before its first node. -/
def walkStart (g : List Byte) (bank : Bool) (ctx port : Nat) (ts : Word64) (windowLen : Nat) : Walk :=
  let deep := ctxDeep g ctx
  { pos := 0, node := gb g (ctxAt ctx), nodes := 0, last := 0,
    record := BitVec.ofNat 8 port :: BitVec.ofNat 8 (ctx + if deep then 128 else 0) :: List.replicate 22 0
      ++ leBytes 8 ts.toNat ++ List.replicate 24 0xFF ++ List.replicate 200 0,
    flags := (if deep then 64 else 0) + (if bank then 8192 else 0), present := 0, vlan := 0, mpls := 0, tunnel := 0,
    reasons := [], lenChecks := [], stopEnd := none, limit := none, extEnd := none, inExt := false, l4End := none,
    udpEnd := none, behindFrag := false, tinyEnd := none, firstIp := none, v6addrs := 0, fragSeen := false,
    fragFirst := false, fragLater := false, fragV6 := false, fragKey := 0, ctx := ctx, deep := deep, bank := bank,
    window := windowLen, malAction := malField g ctx, truncAction := truncActionOf g ctx, fragMissAction := fragMissActionOf g ctx }

/-- A whole parse of a window (R55 to R66). -/
def parseWindow (g : List Byte) (bank : Bool) (ctx port : Nat) (ts : Word64) (win : List Byte) : Walk :=
  walkNodes g win 25 (walkStart g bank ctx port ts win.length)

/-! ### The record at the moment of R49 -/

/-- Whether a length check fails for a frame length (R544). -/
def LenCheck.fails (frameLen : Nat) : LenCheck → Option (Nat × Nat)
  | .totLen node total start => if start + total > frameLen then some (node, 0x06) else none
  | .payLen node pay after => if after + pay > frameLen then some (node, 0x0B) else none
  | .udpLen node len payload => if len ≠ payload then some (node, 0x11) else none
  | .l2Len node field after =>
    if field > frameLen - after ∨ (field < frameLen - after ∧ frameLen > 60) then some (node, 0x1B) else none

/-- The reason recorded of several: the earliest node, and within it the lowest code (R63). -/
def firstReason : List (Nat × Nat) → Option Nat
  | [] => none
  | rs => (rs.foldl (fun (acc : Option (Nat × Nat)) r =>
      match acc with
      | none => some r
      | some a => if r.1 < a.1 ∨ (r.1 = a.1 ∧ r.2 < a.2) then some r else some a) none).map (·.2)

/-- All reasons of a parse once the frame is whole (R63, R66). -/
def Walk.allReasons (w : Walk) (frame : List Byte) : List (Nat × Nat) :=
  w.reasons ++ w.lenChecks.filterMap (LenCheck.fails frame.length)
    ++ match w.stopEnd with
      | some (place, e) => if e.inFrame frame > frame.length then [(place, 1)] else []
      | none => []

/-- The limit flag of a truncated parse (R65, R66). -/
def Walk.truncFlag (w : Walk) (frame : List Byte) : Option Nat :=
  match w.limit, w.stopEnd with
  | some f, _ => some f
  | none, some (_, e) => if e.inFrame frame > frame.length then none else some 11
  | none, none => none

/-- What a parse comes to at R49: the finished record, the malformed reason, whether it was truncated and padded. -/
structure ParseEnd where
  record : List Byte
  reason : Option Nat
  truncated : Bool
  pad : Nat
  deriving DecidableEq, Repr

/-- The parse record of R73 for the whole frame, with the flags of R74 (the FRAG flags as Tedder sets them). -/
def Walk.finish (w : Walk) (frame : List Byte) (noEntry : Bool) : ParseEnd :=
  let frameLen := frame.length
  let reason := firstReason (w.allReasons frame)
  let tr := w.truncFlag frame
  let pad := match w.firstIp with
    | some e => frameLen - e
    | none => 0
  let f := Nat.lor w.flags (bit tr.isSome + 2 * bit reason.isSome + 4 * bit w.fragFirst + 8 * bit w.fragLater
    + 16 * bit noEntry + 32 * bit (decide (pad ≠ 0)) + 4096 * bit (w.fragV6 && (w.fragFirst || w.fragLater)))
  let f := match tr with
    | some b => Nat.lor f (1 <<< b)
    | none => f
  let r := w.record
  let r := patchBytes r 2 [BitVec.ofNat 8 ((reason.getD 0) + 128 * bit reason.isSome), BitVec.ofNat 8 w.nodes]
  let r := patchBytes r 4 (leBytes 2 frameLen ++ leBytes 2 w.window ++ leBytes 8 f)
  let r := patchBytes r 0x10 ([BitVec.ofNat 8 w.vlan, BitVec.ofNat 8 w.mpls, BitVec.ofNat 8 w.tunnel, BitVec.ofNat 8 w.last]
    ++ leBytes 2 pad)
  ⟨patchBytes r 0x38 (leBytes 8 w.present), reason, tr.isSome, pad⟩

end Sys2Proof.Machine
end

