-- ==== Sys2Proof/Machine/GraphCheck.lean ====
section
/-! DEFINITION. The rules that a parse graph must keep to be staged (02, R52, R53, R57, R551). -/

namespace Sys2Proof.Machine

/-- A rule of R57: whether it is broken, and the image offset it names. -/
abbrev GraphRule := Bool × Nat

/-- A field that must be zero: bits hi to lo of byte i. -/
def mustZero (g : List Byte) (i hi lo : Nat) : GraphRule := (decide (gbits g i hi lo ≠ 0), i)

/-- The field declarations: no reserved value, at most 192 bytes in all, zero bytes up to the context table (R52, R53). -/
def declRules (g : List Byte) : List GraphRule :=
  (List.range 64).map (fun n => (decide (16 < gb g n), n))
    ++ (List.range 64).map (fun n => (decide (192 < sumOf (List.range (n + 1)) (fieldLen g)), n))
    ++ [((bytesAt g 0x42 0xFBE).any (· != 0), 0x42)]

/-- A context entry (R51, R53). -/
def ctxRules (g : List Byte) (c : Nat) : List GraphRule :=
  let i := ctxAt c
  let deep := ctxDeep g c
  let w := gbits g (i + 2) 3 0
  [mustZero g (i + 1) 7 1, (if deep then decide (w < 2 ∨ 8 < w) else decide (w ≠ 2), i + 2), mustZero g (i + 2) 7 4, mustZero g (i + 3) 7 4,
   ((bytesAt g (i + 5) 3).any (· != 0), i + 5), ((bytesAt g (i + 0x18) 8).any (· != 0), i + 0x18),
   (decide (gbits g (nodeAt (gb g i)) 0 0 = 0), i),
   (deep && decide (8 < (List.range (c + 1)).countP (fun d => ctxDeep g d)), i + 1)]

/-- A node's fields that no enable bit governs. DEDUCED (log 54): len_off is a byte of which the layout lists 0 to 63, so 64 to 255 are reserved
encodings, though R551's list of what is refused whatever an enable holds does not name them. -/
def nodeRules (g : List Byte) (t : Nat) : List GraphRule :=
  let i := nodeAt t
  let width := gbits g (i + 6) 7 4
  [mustZero g i 7 5, mustZero g (i + 1) 6 4, (gbits g (i + 1) 7 7 == 1 && decide (11 < gbits g (i + 1) 3 0), i + 1), (decide (10 < gb g (i + 2)), i + 2),
   mustZero g (i + 3) 6 6, (gbits g (i + 3) 7 7 == 1 && decide (gbits g (i + 3) 5 0 < 16), i + 3), (decide (63 < gb g (i + 5)), i + 5),
   (gb g (i + 5) == 0 && decide (8 - gbits g (i + 6) 2 0 < width), i + 5), (decide (8 < width), i + 6), mustZero g (i + 6) 3 3, mustZero g (i + 7) 7 2,
   (decide (32 < gb g (i + 9)), i + 9), mustZero g (i + 0xA) 7 5, mustZero g (i + 0xD) 7 3, (decide (64 < gb g (i + 0xE)), i + 0xE)]

/-- A node's reject rule and extracts (R551). -/
def nodeEnableRules (g : List Byte) (t : Nat) : List GraphRule :=
  let i := nodeAt t
  let rej := gbits g (i + 0xF) 7 7 == 1
  let width := gbits g (i + 0x12) 5 0
  let ext (x : Nat) : List GraphRule :=
    let j := i + 0x19 + 2 * x
    [mustZero g j 6 6, (gbits g j 7 7 == 1 && fieldLen g (gbits g j 5 0) == 0, j)]
  [mustZero g (i + 0xF) 6 6, (rej && decide (gbits g (i + 0xF) 5 0 < 0x20), i + 0xF), mustZero g (i + 0x11) 7 5, mustZero g (i + 0x12) 7 6,
   (rej && decide (width = 0 ∨ 32 < width), i + 0x12), mustZero g (i + 0x13) 7 1] ++ (List.range 4).flatMap ext

/-- A node's transitions: within the table, no value above its selector (R57). -/
def transRules (g : List Byte) (t : Nat) : List GraphRule :=
  let i := nodeAt t
  let base := leNat (bytesAt g (i + 0xC) 2) % 2048
  let n := gb g (i + 0xE)
  (decide (2048 < base + n), i + 0xC) ::
    (List.range (min n 64)).map (fun k => (decide (2 ^ gb g (i + 9) ≤ leNat (bytesAt g (0x4000 + 8 * (base + k)) 4)), 0x4000 + 8 * (base + k)))

/-- Every rule of R57 for a graph, part by part in the order of the image. DESIGN CHOICE (log 54): the missing bytes of a payload shorter than
32 KiB read as zero, and the bytes of a longer one past 32 KiB must be zero. -/
def graphRules (g : List Byte) : List GraphRule :=
  declRules g ++ (List.range 128).flatMap (ctxRules g)
    ++ (List.range 256).flatMap (fun t => nodeRules g t ++ nodeEnableRules g t ++ transRules g t)
    ++ (List.range 2048).map (fun k => ((bytesAt g (0x4000 + 8 * k + 5) 3).any (· != 0), 0x4000 + 8 * k + 5))
    ++ [((g.drop 0x8000).any (· != 0), 0x8000)]

/-- The image offset of the first rule that a graph breaks. -/
def graphFault (g : List Byte) : Option Nat := ((graphRules g).find? (·.1)).map (·.2)

end Sys2Proof.Machine
end

