-- ==== Sys2Proof/Machine/Queues.lean ====
section
/-! DEFINITION. Host memory as the device reads and writes it, the functions, and the queue pairs' descriptors and completions
(18, R445 to R450). -/

namespace Sys2Proof.Machine

/-- A function's part of the state, and it replaced. -/
def State.func (s : State) (f : Nat) : FuncSt := SMap.get funcReset s.funcs f
def State.setFunc (s : State) (f : Nat) (x : FuncSt) : State := s.modFuncs (fun m => SMap.set funcReset m f x)

/-- Whether the device reaches host memory: the endpoint is IN_SERVICE, or completes in QUIESCING what it holds (R22), and its link is up. -/
def State.hostUp (s : State) : Bool := s.serving pcieWin && s.spine.link

/-- Whether the endpoint takes new work: entries, descriptors, outputs. -/
def State.hostTakes (s : State) : Bool := s.inService pcieWin && s.spine.link

/-- Bytes of host memory read and written. -/
def State.hostRead (s : State) (a n : Nat) : List Byte := Memory.readBytes s.spine.host a n
def State.hostWrite (s : State) (a : Nat) (data : List Byte) : State := s.modSpine (fun x => { x with host := Memory.writeBytes x.host a data })

/-- Data is written into host memory, stretches of it poisoned: offset and length (R405, R450). -/
def State.hostWritePoisoned (s : State) (a : Nat) (data : List Byte) (poison : List (Nat × Nat)) : State :=
  (s.hostWrite a data).modSpine (fun x => { x with poisoned := x.poisoned ++ poison.map (fun p => (a + p.1, p.2)) })

/-! ### Queue pairs -/

/-- Queue pair q, and it replaced. -/
def State.qp (s : State) (q : Nat) : QpSt := SMap.get (fun _ => QpSt.zero) s.qps q
def State.setQp (s : State) (q : Nat) (x : QpSt) : State := s.modQps (fun m => SMap.set (fun _ => QpSt.zero) m q x)

/-- The next descriptor posted and not fetched, with its index; none while there is none, or host memory is out of reach. -/
def State.nextDesc (s : State) (q : Nat) : Option (Nat × List Byte) :=
  let x := s.qp q
  if x.kind = 0 ∨ x.kind = 3 ∨ x.sqHead % 65536 = x.sqTail ∨ !s.hostTakes then none
  else some (x.sqHead % 65536, s.hostRead (x.sqBase.toNat + 64 * (x.sqHead % 2 ^ x.sqLog)) 64)

/-- Fields of a descriptor. -/
def descOp (d : List Byte) : Nat := (byteAt d 0).toNat % 16
def descCtxOf (d : List Byte) : Nat := leNat (bytesAt d 2 2)
def descLen (d : List Byte) : Nat := leNat (bytesAt d 4 4)
def descHost (d : List Byte) : Nat := leNat (bytesAt d 8 8)
def descDev (d : List Byte) : Nat := leNat (bytesAt d 0x10 8)

/-- Whether the reserved bytes and bits of a descriptor are zero. -/
def descClean (d : List Byte) : Bool :=
  decide ((byteAt d 0).toNat < 32) && byteAt d 1 == 0 && (bytesAt d 0x1C 36).all (· == 0)
    && decide (descOp d = 1 ∨ descCtxOf d = 0) && decide (descOp d ≠ 1 ∨ bitsOf (descCtxOf d) 14 7 = 0)

/-- A descriptor as its queue pair keeps it. -/
def qpDescOf (index : Nat) (d : List Byte) (req : Option Nat) (ended : Option (Nat × Nat × Bool × Nat)) : QpDesc :=
  ⟨index, descOp d == 2, (byteAt d 0).getLsbD 4, leNat (bytesAt d 0x18 4), descHost d, descLen d, req, ended⟩

/-- A descriptor is fetched. -/
def State.takeDesc (s : State) (q : Nat) (x : QpDesc) : State :=
  s.setQp q { s.qp q with sqHead := (s.qp q).sqHead + 1, descs := (s.qp q).descs ++ [x] }

/-- The oldest descriptor with an index that has not ended ends: status, length, last, output queue. -/
def State.endDesc (s : State) (q index status len : Nat) (last : Bool) (queue : Nat) : State :=
  let x := s.qp q
  let go := fun (acc : List QpDesc × Bool) (d : QpDesc) =>
    if !acc.2 && d.index == index && d.ended.isNone then (acc.1 ++ [{ d with ended := some (status, len, last, queue) }], true)
    else (acc.1 ++ [d], acc.2)
  s.setQp q { x with descs := (x.descs.foldl go ([], false)).1 }

/-- Loft has decided on the first cell of a frame: the descriptor that sent it ends, with OK or REFUSED (R445). -/
def State.frameSent (s : State) (f : RxFrame) (status : Nat) : State :=
  match f.qp with
  | some (q, i) => s.endDesc q i status (if status = 0 then f.bytes.length else 0) false 0
  | none => s

/-- The completion entries that a queue pair's ring has room for (R448). -/
def QpSt.room (x : QpSt) : Nat := 2 ^ x.cqLog - (x.written + 65536 - x.cqHead) % 65536

/-- A completion entry is written whole, with its phase; the queue pair's event is raised where the descriptor asks (R448). -/
def State.writeCompletion (s : State) (q : Nat) (d : QpDesc) (e : Nat × Nat × Bool × Nat) : State :=
  let x := s.qp q
  let phase := if x.written.testBit x.cqLog then 0 else 1
  let entry := leBytes 2 d.index ++ leBytes 1 e.1 ++ leBytes 1 (phase + 2 * bit e.2.2.1) ++ leBytes 4 e.2.1 ++ leBytes 4 d.cookie ++ leBytes 4 e.2.2.2
  let s1 := (s.hostWrite (x.cqBase.toNat + 16 * (x.written % 2 ^ x.cqLog)) entry).setQp q { x with written := x.written + 1 }
  if d.irq then s1.raise (576 + q) else s1

/-- DESCRIPTOR_COMPLETE: the descriptors that have ended are completed in ring order, as far as the ring has room. -/
def State.completeAll (s : State) (q : Nat) : Nat → State
  | 0 => s
  | fuel + 1 => match (s.qp q).descs with
    | d :: rest => match d.ended with
      | some e =>
        if (s.qp q).room = 0 then s
        else State.completeAll ((s.writeCompletion q d e).setQp q { (s.writeCompletion q d e).qp q with descs := rest }) q fuel
      | none => s
    | [] => s

end Sys2Proof.Machine
end

