-- ==== Sys2Proof/Machine/LoftCommands.lean ====
section
/-! DEFINITION. The meanings of Loft's commands (R303 to R315): admission, cell allocation, waits, pool fills, references. -/

namespace Sys2Proof.Machine

/-- A frame that has left the receive buffer of port `n`: its entry is replaced, or removed. -/
def State.setRxHead (s : State) (n : Nat) (pick : RxFrame → Bool) (f : Option RxFrame) : State :=
  let p := s.port n
  let go := fun (acc : List RxFrame × Bool) (g : RxFrame) =>
    if !acc.2 && pick g then (acc.1 ++ f.toList, true) else (acc.1 ++ [g], acc.2)
  s.setPort n { p with rx := (p.rx.foldl go ([], false)).1 }


/-- The oldest frame of port `n` not yet decided on (R307: admission follows arrival order). -/
def State.openFrame (s : State) (n : Nat) : Option RxFrame := (s.port n).rx.find? RxFrame.open

/-- A refusal of the oldest open frame of port `n`: it takes no cell; a frame that is whole leaves at once and is reported,
a longer one is discarded as it arrives (R304). -/
def State.refuseFrame (s : State) (n : Nat) (f : RxFrame) (r : Nat) : State :=
  let q := s.ingressPrio n f.bytes
  let s := (s.countRefusal n q r).frameSent f 6
  let s := if f.whole then
      (s.setRxHead n RxFrame.open none).reportDrop (s.defaultTenant n) f.ts (loftDiag r) f.bytes.length
    else s.setRxHead n RxFrame.open (some { f with refused := some (loftDiag r) })
  s.updateXoff n q

/-- A packet as it stands when its first cell has been admitted. -/
def newPacket (n q : Nat) (f : RxFrame) (handle arrived : Nat) : Packet :=
  { port := n, prio := q, ts := f.ts, bytes := f.bytes, complete := false, descCtx := f.descCtx, handle := some handle,
    place := .rx, parse := none, record := [], exc := none, fragBind := .notLooked, fragFirstKey := none,
    fragMissAction := 0, profile := 0, stage := 0, stageKey := [], profileDone := false, md := 0, waitSince := none,
    learnWait := none, arrived := arrived }

/-- The cells a packet of a length occupies (R299). -/
def cellsFor (len : Nat) : Nat := (len + 255) / 256

/-- A packet is dropped mid-frame with NO_CELL: its cells are freed, headroom sets (R305); the rest of its frame is
discarded, and the drop is reported when the frame's length is known. -/
def State.dropNoCell (s : State) (pid : Nat) (p : Packet) : State :=
  let s := (s.countRefusal p.port p.prio 3).setEvent loftWin 0x604 3
  let mine := fun (f : RxFrame) => f.pid == some pid
  match (s.port p.port).rx.find? mine with
  | some f =>
    if f.whole then
      ((s.setRxHead p.port mine none).reportDrop (s.defaultTenant p.port) p.ts (loftDiag 3) f.bytes.length).endPacket pid
    else (s.setRxHead p.port mine (some { f with pid := none, refused := some (loftDiag 3) })).endPacket pid
  | none => (s.reportDrop (s.defaultTenant p.port) p.ts (loftDiag 3) p.bytes.length).endPacket pid

/-- A further cell of a packet is allocated (R305); when the frame is whole and every byte has its cell, the frame is
complete (R543). -/
def State.moreCell (s : State) (pid : Nat) : State :=
  match s.packet pid with
  | none => s
  | some p =>
    match p.handle with
    | none => s
    | some h =>
      let chain := s.cellsOf h
      if p.complete ∨ p.place = .gone ∨ cellsFor p.bytes.length ≤ chain.length then s
      else
        match s.takeCell p.port p.prio with
        | (none, true, s') => s'
        | (none, false, s') => s'.dropNoCell pid p
        | (some ptr, _, s') =>
          (s'.addCell (s.cell h).tenant p.port p.prio chain.getLast? ptr (bytesAt p.bytes (256 * chain.length) (min 256 (p.bytes.length - 256 * chain.length)))).updateXoff
            p.port p.prio

/-- A frame whose last byte is delivered and has its cell is complete: it leaves the receive buffer (R543). -/
def State.completeIfWhole (s : State) (pid : Nat) : State :=
  match s.packet pid with
  | none => s
  | some p =>
    let mine := fun (f : RxFrame) => f.pid == some pid
    match p.handle, (s.port p.port).rx.find? mine with
    | some h, some f =>
      if f.whole ∧ p.place ≠ .gone ∧ cellsFor p.bytes.length ≤ (s.cellsOf h).length then
        (s.setPacket pid { p with complete := true }).setRxHead p.port mine none
      else s
    | _, _ => s

/-- The oldest open frame of port `n` is admitted (R304): its first cell is taken and charged to the port's default tenant,
and it becomes a packet; the cells of a frame delivered whole are allocated with it. -/
def State.admitFrame (s : State) (n : Nat) (f : RxFrame) : State :=
  let q := s.ingressPrio n f.bytes
  match s.takeCell n q with
  | (none, true, s') => s'.setRxHead n RxFrame.open (some { f with noToken := true, waitTold := false })
  | (none, false, s') => s'.refuseFrame n f 3
  | (some ptr, _, s') =>
    let pid := s'.nextPid
    let s := (s'.addCell (s'.defaultTenant n) n q none ptr (f.bytes.take 256)).count loftWin 0x618
    let s := ({ s with nextPid := pid + 1 }.setPacket pid (newPacket n q f ptr s.time.cycles)).frameSent f 0
    let s := s.setRxHead n RxFrame.open (some { f with pid := some pid, waitTold := false, noToken := false })
    let s := if f.whole then (List.range (cellsFor f.bytes.length)).foldl (fun s _ => s.moreCell pid) s else s
    (s.completeIfWhole pid).updateXoff n q

/-- Loft decides on a frame (R304, R306). -/
def State.decideFrame (s : State) (n : Nat) (f : RxFrame) : State :=
  let q := s.ingressPrio n f.bytes
  match s.admission n q with
  | .wait => (s.setRxHead n RxFrame.open (some { f with waitTold := true })).updateXoff n q
  | .refuse r => s.refuseFrame n f r
  | .admitted => s.admitFrame n f

/-- FIRST_CELL_ADMISSION: the oldest frame of port `n` whose window has been delivered is decided on (R304). -/
def execFirstCellAdmission (n : Port) (s : State) : Res :=
  match s.openFrame n.val with
  | some f => if f.waitTold || f.noToken then .next s else .next (s.decideFrame n.val f)
  | none => .next s

/-- CELL_ALLOCATION: a further cell of packet `p` is allocated, or it is dropped with NO_CELL (R305). -/
def execCellAllocation (p : Pid) (s : State) : Res := .next ((s.moreCell p).completeIfWhole p)

/-- RX_WAIT_RELEASE: the condition that a frame of port `n` waited for has cleared: it is admitted (R306). A frame whose
condition still holds goes on waiting. -/
def execRxWaitRelease (n : Port) (s : State) : Res :=
  match s.openFrame n.val with
  | some f =>
    if f.waitTold || f.noToken then
      match s.admission n.val (s.ingressPrio n.val f.bytes) with
      | .wait => .next s
      | .refuse _ => .next (s.decideFrame n.val { f with waitTold := false, noToken := false })
      | .admitted => .next ((s.admitFrame n.val { f with waitTold := false }).updateXoff n.val (s.ingressPrio n.val f.bytes))
    else .next s
  | none => .next s

/-- POOL_READY: the last cell of a pool being filled has been pushed (R303). -/
def execPoolReady (pool : Fin 64) (s : State) : Res :=
  if s.poolMem pool.val ≠ 0 ∧ ¬ (s.poolStack pool.val).ready then .next (s.fillPool pool.val) else .next s

/-- REF_INCREMENT: a holder takes a reference to the packet of a handle (R312, R313). -/
def execRefIncrement (h : BitVec 32) (s : State) : Res := .next (s.refInc h.toNat)

/-- Packets that have ended are forgotten once their cells are freed. -/
def State.forgetGone (s : State) (h : Nat) : State :=
  if (s.cell h).alloc then s
  else { s with packets := s.packets.filter (fun e => !(e.2.place == .gone && e.2.handle == some h)) }

/-- REF_DECREMENT: a holder releases its reference (R313), or the release is refused (R314). -/
def execRefDecrement (h : BitVec 32) (s : State) : Res := .next ((s.refDec h.toNat).forgetGone h.toNat)

end Sys2Proof.Machine
end

