-- ==== Sys2Proof/Machine/Kettle.lean ====
section
/-! DEFINITION. Kettle: positions, tasks, dispatch, quotas, tokens and release (06_kettle_tasks_and_order.md), and the
meanings of its commands that name no thread. A Leaf is numbered 9 times its Quire plus its position. -/

namespace Sys2Proof.Machine

/-! ### Parts -/

/-- A task, a position. -/
def State.task (s : State) (k : Nat) : Option Task := SMap.find s.kettle.tasks k
def State.position (s : State) (k : Nat) : Option Position := SMap.find s.kettle.positions k

/-- A task, a position replaced. -/
def State.setTask (s : State) (k : Nat) (t : Task) : State := { s with kettle := { s.kettle with tasks := SMap.put s.kettle.tasks k t } }
def State.setPosition (s : State) (k : Nat) (p : Position) : State :=
  { s with kettle := { s.kettle with positions := SMap.put s.kettle.positions k p } }

/-- The quota class of a tenant (KETTLE_TSEL). -/
def State.kettleClass (s : State) (t : Nat) : Nat := s.rf kettleWin (0x2000 + 4 * (t / 8)) (4 * (t % 8) + 3) (4 * (t % 8))

/-- Quota, budget, reserve and cap of a class. -/
def State.quotaOf (s : State) (k : Nat) : Nat := s.rf kettleWin (0x200 + 8 * k) 10 0
def State.budgetOfClass (s : State) (k : Nat) : Nat := s.rf kettleWin (0x110 + 4 * s.rf kettleWin (0x200 + 8 * k) 13 12) 16 0
def State.tokenReserve (s : State) (k : Nat) : Nat := s.rf kettleWin (0x204 + 8 * k) 30 16
def State.tokenCap (s : State) (k : Nat) : Nat := s.rf kettleWin (0x204 + 8 * k) 14 0

/-- The tokens a tenant has in use, and its tasks on ready lists or taken (R156, R157). -/
def State.tokensOf (s : State) (t : Nat) : Nat := SMap.get (fun _ => 0) s.kettle.tokens t
def State.taskCountOf (s : State) (t : Nat) : Nat := SMap.get (fun _ => 0) s.kettle.taskCount t
def State.setTokensOf (s : State) (t n : Nat) : State :=
  { s with kettle := { s.kettle with tokens := SMap.set (fun _ => 0) s.kettle.tokens t n } }
def State.setTaskCountOf (s : State) (t n : Nat) : State :=
  { s with kettle := { s.kettle with taskCount := SMap.set (fun _ => 0) s.kettle.taskCount t n } }

/-- The tokens that tenants other than `t` are owed (R157 step 2). -/
def State.tokensOwed (s : State) (t : Nat) : Nat :=
  if (List.range 16).all (fun k => s.tokenReserve k == 0) then 0
  else sumOf (List.range 16384) (fun u => if u = t then 0 else s.tokenReserve (s.kettleClass u) - s.tokensOf u)

/-- What R157 answers a packet of tenant `t`. -/
inductive TokenAnswer where
  | take | refuse | stall
  deriving DecidableEq, Repr

/-- R157. -/
def State.tokenFor (s : State) (t : Nat) : TokenAnswer :=
  let k := s.kettleClass t
  let u := s.tokensOf t
  let f := 16384 - s.kettle.positions.length
  if u < s.tokenReserve k ∧ 0 < f then .take
  else if u < s.tokenCap k ∧ s.tokensOwed t < f then .take
  else if s.tokenCap k ≤ u then .refuse
  else .stall

/-! ### Dispatch (R153) -/

/-- Whether a Leaf is eligible for tasks. -/
def State.leafEligible (s : State) (leaf : Nat) : Bool :=
  let q := leaf / 9
  let g := s.gathOf (leafWin q (leaf % 9))
  let u := s.gathOf (quireWin q)
  decide (g.role = .bound) && decide (g.own = .inService) && decide (u.own = .inService)
    && !(decide (u.cmd = some .drain) || decide (u.cmd = some .update) || decide (u.cmd = some .start))

/-- The waiting count of a Leaf, and the length of a Quire's ready list (R149). -/
def State.waitingOf (s : State) (leaf : Nat) : Nat := s.kettle.tasks.countP (fun e => e.2.leaf == some leaf && e.2.taken.isNone)
def State.readyList (s : State) (q : Nat) : Nat :=
  s.kettle.tasks.countP (fun e => (e.2.leaf.map (· / 9)) == some q && e.2.taken.isNone)

/-- The first of least weight in a list. -/
def leastBy (f : Nat → Nat) : List Nat → Option Nat
  | [] => none
  | x :: xs => match leastBy f xs with
    | none => some x
    | some y => if f y < f x then some y else some x

/-- The eligible Leaf of a Quire with the least waiting count, the lowest position first. -/
def State.leastLeaf (s : State) (q : Nat) : Option Nat :=
  leastBy s.waitingOf (((List.range 9).map (fun l => 9 * q + l)).filter s.leafEligible)

/-- A Quire's load: the waiting count of its eligible Leaves. -/
def State.quireLoad (s : State) (q : Nat) : Nat :=
  sumOf (((List.range 9).map (fun l => 9 * q + l)).filter s.leafEligible) s.waitingOf

/-- The eligible Quire with the least load whose list is not full. -/
def State.leastQuire (s : State) : Option Nat :=
  leastBy s.quireLoad ((List.range 24).filter (fun q => (s.leastLeaf q).isSome && decide (s.readyList q < 512)))

/-- The Leaf that R153 chooses for a task of an order domain; none holds it in the store. -/
def State.chooseLeaf (s : State) (od : Nat) : Option Nat :=
  let near := match SMap.find s.kettle.affinity od with
    | none => none
    | some l =>
      if s.leafEligible l && decide (s.waitingOf l < 4) && decide (s.readyList (l / 9) < 512) then some l
      else match s.leastLeaf (l / 9) with
        | some m => if decide (s.waitingOf m < 4) && decide (s.readyList (l / 9) < 512) then some m else none
        | none => none
  match near with
  | some l => some l
  | none => match s.leastQuire with
    | some q => s.leastLeaf q
    | none => none

/-- Whether an older task than `k` is held in the store (it is dispatched first). -/
def State.olderHeld (s : State) (k : Nat) : Bool :=
  s.kettle.tasks.any (fun e => decide (e.1 < k) && e.2.leaf.isNone && e.2.taken.isNone && !e.2.quotaWait)

/-- A task is bound to a Leaf and placed on its ready list; it counts for its tenant (R156). -/
def State.bindTask (s : State) (k : Nat) (t : Task) (leaf : Nat) : State :=
  let n := s.kettle.nextSeq
  let s := (s.setTask k { t with leaf := some leaf, quotaWait := false, arrived := n }).modKettle (fun x => { x with nextSeq := n + 1 })
  let s := s.modKettle (fun x => { x with affinity := SMap.put x.affinity t.od leaf })
  s.setTaskCountOf t.tenant (s.taskCountOf t.tenant + 1)

/-- A task is bound to the Leaf of R153, or held in the store. -/
def State.place (s : State) (k : Nat) : State :=
  match s.task k with
  | none => s
  | some t =>
    if s.olderHeld k then s.setTask k { t with quotaWait := false }
    else match s.chooseLeaf t.od with
      | some l => s.bindTask k t l
      | none => s.setTask k { t with quotaWait := false }

/-- Whether a task that is not yet on a list waits for its tenant's quota (R156): a root whose tenant's count is at its quota, or that an
older root of the tenant's list comes before. -/
def State.rootWaits (s : State) (k : Nat) (t : Task) : Bool :=
  !t.child && (decide (s.quotaOf (s.kettleClass t.tenant) ≤ s.taskCountOf t.tenant)
    || s.kettle.tasks.any (fun e => decide (e.1 < k) && e.2.quotaWait && e.2.tenant == t.tenant))

/-- A task is dispatched: it waits for its tenant's quota (R156), or is placed (R153). -/
def State.dispatch (s : State) (k : Nat) : State :=
  match s.task k with
  | none => s
  | some t => if s.rootWaits k t then s.setTask k { t with quotaWait := true } else s.place k

/-- The tasks on ready lists that hold a property, the oldest on its list first. -/
def State.listed (s : State) (which : Task → Bool) : List (Nat × Task) :=
  let put (e : Nat × Task) (l : List (Nat × Task)) : List (Nat × Task) :=
    l.takeWhile (fun x => decide (x.2.arrived ≤ e.2.arrived)) ++ e :: l.dropWhile (fun x => decide (x.2.arrived ≤ e.2.arrived))
  (s.kettle.tasks.filter (fun e => e.2.leaf.isSome && e.2.taken.isNone && which e.2)).foldr put []

/-- A descriptor leaves its ready list and is placed as if it were new (R155). -/
def State.rebindTask (s : State) (k : Nat) (t : Task) : State :=
  ((s.setTask k { t with leaf := none }).setTaskCountOf t.tenant (s.taskCountOf t.tenant - 1)).place k

/-- DESCRIPTOR_REBIND: waiting descriptors are bound anew, one after the other in the order of their list (R155). -/
def State.rebind (s : State) (which : Task → Bool) : State :=
  (s.listed which).foldl (fun (s : State) e => s.rebindTask e.1 e.2) s

/-! ### Positions (R163 to R167) -/

/-- Whether a position is complete (R163). -/
def Position.complete (p : Position) : Bool := p.dropped.isSome || p.live.isEmpty

/-- The head of an order domain: its earliest position whose release has not begun. -/
def State.headOf (s : State) (od : Nat) : Option (Nat × Position) :=
  s.kettle.positions.find? (fun e => e.2.od == od && !e.2.releasing)

/-- The head of an order domain notes since when it is head (R166). -/
def State.noteHead (s : State) (od : Nat) : State :=
  match s.headOf od with
  | some (k, p) => if p.headSince.isNone then s.setPosition k { p with headSince := some s.time.cycles } else s
  | none => s

/-- The KETTLE_CNT index of a position drop's reason, as its Sheaf counter. -/
def kettleDropCnt (diag : Nat) : Nat := if diag = 44 then 5 else if diag = 47 then 6 else if diag = 48 then 7 else 11

/-- A task that no thread has taken is removed: it never runs (R167). -/
def State.removeUntaken (s : State) (k : Nat) (t : Task) : State :=
  let s := if t.leaf.isSome then s.setTaskCountOf t.tenant (s.taskCountOf t.tenant - 1) else s
  let s := s.modKettle (fun x => { x with tasks := SMap.erase x.tasks k })
  if t.child then s.releaseRef t.pid else s

/-- A position is dropped under a Sheaf counter (R166, R167): once, with its outputs and untaken descriptors. -/
def State.dropPosition (s : State) (k diag : Nat) : State :=
  match s.position k with
  | none => s
  | some p =>
    if p.dropped.isSome ∨ p.releasing then s
    else
      let s := s.count kettleWin (0x300 + 4 * kettleDropCnt diag)
      let s := if diag = 47 then s.setEvent kettleWin 0x380 0 else if diag = 48 then s.setEvent kettleWin 0x380 1 else s
      let s := if p.mirror.isSome then s.releaseRef p.pid else s
      let s := s.setPosition k { p with dropped := some diag, outs := [], mirror := none }
      s.kettle.tasks.foldl (fun s e => if e.2.pos == k && e.2.taken.isNone then s.removeUntaken e.1 e.2 else s) s

/-- A position whose release has begun, but whose outputs Drover has not taken, is dropped: RESET of Loft has taken its packet's cells (R316). -/
def State.dropReleasing (s : State) (k diag : Nat) : State :=
  match s.position k with
  | none => s
  | some p =>
    if p.dropped.isSome ∨ !p.releasing then s
    else (s.count kettleWin (0x300 + 4 * kettleDropCnt diag)).setPosition k { p with dropped := some diag, outs := [], mirror := none }

/-- A node ends: its slots are reported, its tenant's count falls, its reference is released, and its position counts it
out (R163, R165). -/
def State.endTask (s : State) (k : Nat) : State :=
  match s.task k with
  | none => s
  | some t =>
    let s := s.report t.tenant t.ts [(4, t.slots), (7, 1)]
    let s := s.setTaskCountOf t.tenant (s.taskCountOf t.tenant - 1)
    let s := s.modKettle (fun x => { x with tasks := SMap.erase x.tasks k })
    let s := if t.child then s.releaseRef t.pid else s
    match s.position t.pos with
    | some p => s.setPosition t.pos { p with live := p.live.filter (· ≠ t.node) }
    | none => s

/-! ### Commands -/

/-- The tenant and order domain of a classification record (R80). -/
def mdTenant (md : BitVec 512) : Nat := (md.extractLsb' 0 14).toNat
def mdOd (md : BitVec 512) : Nat := (md.extractLsb' 16 16).toNat
def mdEntry (md : BitVec 512) : Nat := (md.extractLsb' 32 12).toNat

/-- Bits of a classification record. -/
def mdBits (md : BitVec 512) (hi lo : Nat) : Nat := bitsOf md.toNat hi lo

/-- A packet without task whose position holds only its exception output. -/
def excOut (i : Intake) (p : Packet) (q : Nat) : OutDesc :=
  { pid := i.pid, tenant := mdTenant p.md, queue := q, mirrorTrunc := none, script := [], md := p.md, exc := true, len := p.bytes.length, ts := p.ts }

/-- The root task of a packet at position `k` (R152, R168). -/
def State.rootTask (s : State) (k : Nat) (i : Intake) (p : Packet) : Task :=
  { pos := k, node := 0, parent := 0, child := false, tenant := mdTenant p.md, od := mdOd p.md, entry := mdEntry p.md,
    budget := s.budgetOfClass (s.kettleClass (mdTenant p.md)), args := [0, 0, 0, 0], hdr := p.bytes.take 512,
    frameLen := p.bytes.length, forks := 0, join := none, leaf := none, taken := none, slots := 0, quotaWait := false,
    ts := p.ts, pid := i.pid, arrived := 0 }

/-- Whether a packet at the intake needs a task (R148). -/
def Intake.needsTask (i : Intake) : Bool := i.alive && i.exception.isNone

/-- The outputs a position holds from its creation: an exception packet's own (R148). -/
def Intake.outs (i : Intake) (p : Packet) : List (Nat × OutDesc) :=
  match i.alive, i.exception with
  | true, some q => [(0, excOut i p q)]
  | _, _ => []

/-- The position of a packet as it is created. -/
def newPosition (i : Intake) (p : Packet) : Position :=
  { pid := i.pid, tenant := mdTenant p.md, od := mdOd p.md, nextNode := 1, live := if i.needsTask then [0] else [],
    ownRef := i.alive, mirror := i.mirror, outs := i.outs p, dropped := none, nodeDrops := [], releasing := false,
    headSince := none, ts := p.ts, len := p.bytes.length, md := p.md }

/-- A root task is created and dispatched. -/
def State.createRoot (s : State) (t : Task) : State :=
  let n := s.kettle.nextTask
  let s1 := (s.modKettle (fun k => { k with nextTask := n + 1 })).count kettleWin 0x300
  (s1.setTask n t).dispatch n

/-- A packet takes its position (R146, R148): its token, its root task if it needs one, and its place in the order. -/
def State.takePosition (s : State) (lane : Nat) (i : Intake) (p : Packet) : State :=
  let t := mdTenant p.md
  let k := s.kettle.nextPos
  let s1 := s.modKettle (fun x => { x with nextPos := k + 1, intake := SMap.erase x.intake lane })
  let s2 := ((s1.setPosition k (newPosition i p)).setTokensOf t (s1.tokensOf t + 1)).writeItem kettleWin 0 k
  let s3 := (s2.reportFlow p.md t p.ts [(0, 1), (1, p.bytes.length)]).noteHead (mdOd p.md)
  if i.needsTask then s3.createRoot (s3.rootTask k i p) else s3

/-- The packet at a lane's intake leaves without a position: KETTLE_CAP (R157 step 3). -/
def State.refuseIntake (s : State) (lane : Nat) (i : Intake) (p : Packet) : State :=
  let s := s.modKettle (fun k => { k with intake := SMap.erase k.intake lane })
  let s := (s.count kettleWin 0x310).reportDrop (mdTenant p.md) p.ts 38 p.bytes.length
  let s := if i.mirror.isSome then s.releaseRef i.pid else s
  if i.alive then s.endPacket i.pid else s

/-- A lane takes the packet at its intake, or stalls (R146, R157, R169), while the lane and the group serve what they hold (R22, R170). -/
def State.intakeStep (s : State) (lane : Nat) : State :=
  match SMap.find s.kettle.intake lane with
  | none => s
  | some i =>
    match s.packet i.pid with
    | none => s
    | some p =>
      if !s.serving kettleWin || !s.serving (412 + lane) then s
      else
        let stall (s : State) : State :=
          (s.modKettle (fun k => { k with intake := SMap.put k.intake lane { i with stalled := true } })).count kettleWin 0x328
        match s.tokenFor (mdTenant p.md) with
        | .refuse => s.refuseIntake lane i p
        | .stall => stall s
        | .take =>
          if i.alive && i.exception.isNone && decide (28672 ≤ s.kettle.tasks.length) then stall s
          else s.takePosition lane i p

/-- ROOT_TASK_CREATE: lane `n` takes the packet at its intake (R146). -/
def execRootTaskCreate (n : Lane) (s : State) : Res :=
  match SMap.find s.kettle.intake n.val with
  | some i => if i.stalled then .next s else .next (s.intakeStep n.val)
  | none => .next s

/-- INTAKE_STALL_RETRY: a stalled lane tries again in the next FABRIC cycle (R157 step 4, R169). -/
def execIntakeStallRetry (n : Lane) (s : State) : Res :=
  match SMap.find s.kettle.intake n.val with
  | some i => if i.stalled then .next (s.intakeStep n.val) else .next s
  | none => .next s

/-- HELD_TASK_DISPATCH: the oldest task held in the store is dispatched (R153). -/
def execHeldTaskDispatch (s : State) : Res :=
  match s.kettle.tasks.find? (fun e => e.2.leaf.isNone && e.2.taken.isNone && !e.2.quotaWait) with
  | some e => .next (s.dispatch e.1)
  | none => .next s

/-- QUOTA_RELEASE: the oldest root task in a tenant's quota list is dispatched once the tenant's count is below its quota
(R156). -/
def execQuotaRelease (tenant : BitVec 14) (s : State) : Res :=
  let t := tenant.toNat
  if s.taskCountOf t < s.quotaOf (s.kettleClass t) then
    match s.kettle.tasks.find? (fun e => e.2.quotaWait && e.2.tenant == t) with
    | some e => .next (s.dispatch e.1)
    | none => .next s
  else .next s

/-- RELEASE_BEGIN: the head position of an order domain, once complete, begins its release (R163). -/
def execReleaseBegin (od : BitVec 16) (s : State) : Res :=
  match s.headOf od.toNat with
  | some (k, p) =>
    if p.complete then
      let s := s.setPosition k { p with releasing := true }
      .next ((s.modKettle (fun x => { x with releaseQ := x.releaseQ ++ [k] })).noteHead od.toNat)
    else .next s
  | none => .next s

/-- Whether all the nodes of a position dropped: it hands nothing to Drover (R164). -/
def Position.allDropped (p : Position) : Bool := p.outs.isEmpty && !p.nodeDrops.isEmpty

/-- The outputs of a position in the order of R164: the mirror copy, then the nodes' in ascending number. -/
def Position.outputs (p : Position) : List OutDesc :=
  if p.allDropped then [] else p.mirror.toList ++ (List.range 16).flatMap (fun n => (p.outs.filter (fun e => e.1 = n)).map (·.2))

/-- The outputs of the earliest position being released reach Drover, each with its reference to the packet's cells (R312),
and the position ends (R163 to R165). While Drover takes no outputs the release waits (R338). -/
def State.releaseDeliver (s : State) (pos : Nat) : Res :=
  match s.kettle.releaseQ, s.position pos with
  | k :: rest, some p =>
    let outs := p.outputs
    if k ≠ pos ∨ (outs ≠ [] ∧ ¬ s.inService droverWin) then .next s
    else
      let s := s.modKettle (fun x => { x with releaseQ := rest, positions := SMap.erase x.positions pos })
      let s := s.setTokensOf p.tenant (s.tokensOf p.tenant - 1)
      let s := (s.count kettleWin 0x308).countBy kettleWin 0x30C outs.length
      let handed := outs.zipIdx.map (fun e => (e.2 == 0, e.1))
      let s := s.modDrover (fun d => { d with handed := d.handed ++ handed })
      let s := (outs.filter (fun o => o.mirrorTrunc.isNone)).foldl (fun (s : State) o => s.takeRef o.pid) s
      let s := (p.nodeDrops ++ p.dropped.toList).foldl (fun s d => s.reportDropFlow p.md p.tenant p.ts d p.len) s
      let s := if p.allDropped && p.mirror.isSome then s.releaseRef p.pid else s
      let s := (outs.filter (·.exc)).foldl (fun s _ => s.report p.tenant p.ts [(9, 1)]) s
      .next (if p.ownRef then s.endPacket p.pid else s)
  | _, _ => .next s

end Sys2Proof.Machine
end

