-- ==== Sys2Proof/Machine/Drover.lean ====
section
/-! DEFINITION. Drover: nodes, policers, admission to queues, rings, shapers and received pauses
(12_drover_scheduling_shaping_policing.md). A node is named by its level times 131,072 plus its index; level 5 stands for
the four lanes. The meanings of Drover's commands are in `DroverCommands.lean`. -/

namespace Sys2Proof.Machine

/-! ### Node entries (R319) -/

/-- The name of a node. -/
def nodeKey (level i : Nat) : Nat := level * 131072 + i

/-- The nodes of a level (R317). -/
def nodeCount (level : Nat) : Nat :=
  match level with
  | 0 => 36 | 1 => 2048 | 2 => 16384 | 3 => 65536 | 4 => 131072 | _ => 0

/-- The reset entry of a node: adjust 0x18 at level 0. -/
def nodeReset (k : Nat) : BitVec 256 := if k < 131072 then BitVec.ofNat 256 (0x18 * 2 ^ 192) else 0

/-- The entry of a node, and bits `hi` to `lo` of it, counted from bit 0 of byte 0. -/
def State.nodeEntry (s : State) (k : Nat) : BitVec 256 := SMap.get nodeReset s.drover.nodes k
def entBits (e : BitVec 256) (hi lo : Nat) : Nat := bitsOf e.toNat hi lo
def State.nodeBits (s : State) (k hi lo : Nat) : Nat := entBits (s.nodeEntry k) hi lo

/-- A number of `w` bits read as two's complement. -/
def signedOf (w v : Nat) : Int := if v < 2 ^ (w - 1) then (v : Int) else (v : Int) - 2 ^ w

/-- The refill interval in ns that an entry selects. -/
def refillNs (e : BitVec 256) : Nat :=
  match entBits e 26 25 with
  | 0 => 128 | 1 => 1024 | 2 => 8192 | _ => 65536

/-- The bits of a node entry that software writes, by level. -/
def nodeMask (level : Nat) : Nat :=
  let r (hi lo : Nat) : Nat := (2 ^ (hi - lo + 1) - 1) * 2 ^ lo
  let common := r 16 0 + r 26 24 + r 46 32 + r 83 64 + r 95 95 + r 115 96 + r 127 127 + r 147 128 + r 179 160
  match level with
  | 0 => common + r 199 192
  | 2 => common + r 205 192 + r 207 207 + r 222 208
  | 4 => common + r 211 192 + r 243 224 + r 251 248
  | _ => common

/-- The parent of a node: at level 0 its lane (R317, R318). -/
def State.parentNode (s : State) (k : Nat) : Nat :=
  if k < 131072 then nodeKey 5 (laneOf k) else nodeKey (k / 131072 - 1) (s.nodeBits k 16 0)

/-- A queue and its ancestors, from the queue up to its port node. -/
def State.nodePath (s : State) (q : Nat) : List Nat :=
  let k4 := nodeKey 4 q
  let k3 := s.parentNode k4
  let k2 := s.parentNode k3
  let k1 := s.parentNode k2
  [k4, k3, k2, k1, s.parentNode k1]

/-- The port of a queue (R318). -/
def State.queuePort (s : State) (q : Nat) : Nat := (s.nodePath q).getLastD 0

/-- The tenant node of a queue. -/
def State.queueTenantNode (s : State) (q : Nat) : Nat := (s.nodePath q).getD 2 0

/-- A node's running state as no step has touched it. -/
def dynReset (k : Nat) : NodeDyn := ⟨false, 0, 0, 0, 0, nodeReset k, 0, 0, 0, 0, 0⟩

/-- A node's running state. -/
def State.node (s : State) (k : Nat) : NodeDyn := SMap.get dynReset s.drover.dyn k

/-- A node's running state replaced. -/
def State.setNode (s : State) (k : Nat) (d : NodeDyn) : State :=
  s.modDrover (fun x => { x with dyn := SMap.set dynReset x.dyn k d })

/-! ### Outputs -/

/-- Output `o`, and an output replaced. -/
def State.output (s : State) (o : Nat) : Option Output := SMap.find s.drover.outs o
def State.setOutput (s : State) (o : Nat) (x : Output) : State :=
  s.modDrover (fun d => { d with outs := SMap.put d.outs o x })

/-- An output leaves the table. -/
def State.eraseOutput (s : State) (o : Nat) : State := s.modDrover (fun d => { d with outs := SMap.erase d.outs o })

/-- The outputs queued in a queue, oldest first. -/
def State.queued (s : State) (q : Nat) : List Nat := SMap.get (fun _ => []) s.drover.queues q
def State.setQueued (s : State) (q : Nat) (l : List Nat) : State :=
  s.modDrover (fun d => { d with queues := SMap.set (fun _ => []) d.queues q l })

/-- D of a queue: the bytes of L queued (R325). -/
def State.queueDepth (s : State) (q : Nat) : Int :=
  (s.queued q).foldl (fun acc o => acc + ((s.output o).map (·.len)).getD 0) 0

/-- The outputs of a port selected and not yet gone from Finisher (R328). -/
def State.portOutputs (s : State) (n : Nat) : Nat :=
  s.drover.outs.countP (fun e => e.2.port == n && decide (e.2.place ≠ .queued))

/-- The counters of a queue's statistics entry rise: outputs, bytes, drops. -/
def State.countQueue (s : State) (q outs : Nat) (bytes : Int) (drops : Nat) : State :=
  s.modDrover (fun d =>
    let e := SMap.get (fun _ => (0 : BitVec 256)) d.stats q
    let add (lo : Nat) (v : Int) : Nat := (BitVec.ofInt 64 ((bitsOf e.toNat (lo + 63) lo : Int) + v)).toNat * 2 ^ lo
    { d with stats := SMap.set (fun _ => 0) d.stats q (BitVec.ofNat 256 (add 0 outs + add 64 bytes + add 128 drops)) })

/-! ### Shapers (R331, R332) -/

/-- The tokens of a full bucket of a burst field, in units of 2^-16 byte. -/
def burstTok (b : Nat) : Int := (64 * b * 65536 : Nat)

/-- One bucket after `n` refills under an entry: it was enabled under the old entry or starts full; then it gains and is
capped at its burst. Rate field at `rlo`, enable bit at `en`, burst field at `blo`. -/
def refillBucket (old new : BitVec 256) (rlo en blo n : Nat) (tok : Int) (frac : Nat) : Int × Nat :=
  if entBits new en en = 0 then (tok, frac)
  else
    let cap := burstTok (entBits new (blo + 19) blo)
    if entBits old en en = 0 then (cap, 0)
    else
      let acc := frac + n * entBits new (rlo + 19) rlo * refillNs new * 65536
      (min cap (tok + (acc / 8000 : Nat)), acc % 8000)

/-- The refills that device time has passed since a node's latest (R331), under its present entry (R332). -/
def State.refillNode (s : State) (k now : Nat) : State :=
  let d := s.node k
  let e := s.nodeEntry k
  let i := refillNs e
  let n := now / i - d.last / i
  if n = 0 then s
  else
    let c := refillBucket d.applied e 64 95 128 n d.cTok d.cFrac
    let p := refillBucket d.applied e 96 127 160 n d.pTok d.pFrac
    s.setNode k { d with applied := e, cTok := c.1, cFrac := c.2, pTok := p.1, pFrac := p.2, last := now }

/-- Whether a node's bucket is enabled: by its entry, and since a refill (R332). -/
def State.bucketOn (s : State) (k en : Nat) : Bool :=
  s.nodeBits k en en = 1 && entBits (s.node k).applied en en = 1

/-- Every enabled bucket of a node holds zero or more tokens. -/
def State.tokensOk (s : State) (k : Nat) : Bool :=
  (!s.bucketOn k 95 || decide (0 ≤ (s.node k).cTok)) && (!s.bucketOn k 127 || decide (0 ≤ (s.node k).pTok))

/-- L is taken from every enabled bucket of a node, and from its deficit (R329, R331). -/
def State.chargeNode (s : State) (len : Int) (k : Nat) : State :=
  let d := s.node k
  let t := len * 65536
  s.setNode k { d with deficit := d.deficit - len, cTok := if s.bucketOn k 95 then d.cTok - t else d.cTok,
                       pTok := if s.bucketOn k 127 then d.pTok - t else d.pTok }

/-! ### Received pauses (R334 to R336) -/

/-- Whether a received pause for (n, q) runs. -/
def State.pauseRuns (s : State) (n q : Nat) : Bool := s.rf droverWin (0x480 + 4 * n) (8 + q) (8 + q) = 1

/-- Whether priority q of port n is paused (R335). -/
def State.paused (s : State) (n q : Nat) : Bool :=
  decide (n < 32) && s.pauseRuns n q && decide (s.rf droverWin (0x480 + 4 * n) q q = 0)

/-! ### Rings (R328 to R330) -/

/-- The children in a node's ring, by name. -/
def State.ring (s : State) (k : Nat) : List (Nat × NodeDyn) :=
  s.drover.dyn.filter (fun e => e.2.inRing && s.parentNode e.1 == k)

/-- Whether one child stands before another in a ring (R329). -/
def ringBefore (a b : NodeDyn) : Bool := decide (a.round < b.round) || (decide (a.round = b.round) && decide (a.seq < b.seq))

/-- The head of a list of children. -/
def ringHead : List (Nat × NodeDyn) → Option (Nat × NodeDyn)
  | [] => none
  | e :: es => match ringHead es with
    | none => some e
    | some f => if ringBefore f.2 e.2 then some f else some e

/-- The round of the child at the head becomes the parent's round number; an empty ring keeps it. -/
def State.noteRound (s : State) (k : Nat) : State :=
  match ringHead (s.ring k) with
  | some e => let d := s.node k; s.setNode k { d with ringRound := e.2.round }
  | none => s

/-- Whether a node may be in its parent's ring (R328). Ports 32 to 35 have no Gathering; Finisher must be IN_SERVICE (R359). -/
def State.nodeReady (s : State) (k : Nat) : Bool :=
  let work := if nodeKey 4 0 ≤ k then !(s.queued (k - nodeKey 4 0)).isEmpty else !(s.ring k).isEmpty
  let pfc := decide (nodeKey 4 0 ≤ k) && decide (s.nodeBits k 251 251 = 1)
    && s.paused (s.queuePort (k - nodeKey 4 0)) (s.nodeBits k 250 248)
  let port := decide (131072 ≤ k) || (decide (s.portOutputs k < 4) && (decide (32 ≤ k) || s.inService (portWin k))
    && s.inService finisherWin)
  work && s.tokensOk k && !pfc && port

/-- A child enters its parent's ring: the parent's round, a deficit of zero, the last place of that round (R330); or leaves
it and loses its deficit. -/
def State.setInRing (s : State) (k : Nat) (b : Bool) : State :=
  let p := s.parentNode k
  let d := s.node k
  let r := (s.node p).ringRound
  let d' := if b then { d with inRing := true, deficit := 0, round := r, seq := s.drover.seq }
            else { d with inRing := false, deficit := 0 }
  ((s.setNode k d').modDrover (fun x => { x with seq := x.seq + 1 })).noteRound p

/-- A node joins or leaves its parent's ring as R328 asks, and so do its ancestors; `fuel` levels up. -/
def State.settleUp (s : State) : Nat → Nat → State
  | 0, _ => s
  | fuel + 1, k =>
    let s1 := if s.nodeReady k = (s.node k).inRing then s else s.setInRing k (s.nodeReady k)
    if k < 131072 then s1 else s1.settleUp fuel (s1.parentNode k)

/-- A node and its ancestors are settled. -/
def State.settleNode (s : State) (k : Nat) : State := s.settleUp 5 k

/-- Port node n is settled. -/
def State.settlePort (s : State) (n : Nat) : State := s.settleNode n

/-- Every port node is settled: after a change of Finisher or of ports. -/
def State.settlePorts (s : State) : State := (List.range 36).foldl State.settlePort s

/-- The queues of port n that obey received pauses are settled. -/
def State.settlePfc (s : State) (n : Nat) : State :=
  (s.drover.queues.filter (fun e => s.nodeBits (nodeKey 4 e.1) 251 251 == 1 && s.queuePort e.1 == n)).foldl
    (fun s e => s.settleNode (nodeKey 4 e.1)) s

/-- The selection of R329 in one ring: the head with a deficit above zero, after the quanta given on the way. -/
def State.pick (s : State) : Nat → Nat → Option (Nat × State)
  | 0, _ => none
  | fuel + 1, p =>
    match ringHead (s.ring p) with
    | none => none
    | some (c, d) =>
      if 0 < d.deficit then some (c, s)
      else
        let d' := { d with deficit := d.deficit + 64 * s.nodeBits c 46 32, round := d.round + 1, seq := s.drover.seq }
        let s1 := ((s.setNode c d').modDrover (fun x => { x with seq := x.seq + 1 })).noteRound p
        s1.pick fuel p

/-- Enough passes for one ring: a pass gives a child at least 64 bytes. -/
def State.pickFuel (s : State) (p : Nat) : Nat := sumOf (s.ring p) (fun e => (-e.2.deficit).toNat / 64 + 2) + 1

/-- The selection through the levels, from a lane's ring down to a queue: the nodes chosen, queue first. -/
def State.pickPath (s : State) : Nat → Nat → List Nat → Option (List Nat × State)
  | 0, _, acc => some (acc, s)
  | n + 1, p, acc =>
    match s.pick (s.pickFuel p) p with
    | some (c, s1) => s1.pickPath n c (c :: acc)
    | none => none

/-! ### Policers (R322 to R327) -/

/-- A policer's entry, its running state, and both replaced. -/
def State.polEntry (s : State) (i : Nat) : BitVec 256 := SMap.get (fun _ => 0) s.drover.policers i
def State.polDyn (s : State) (i : Nat) : PolDyn := SMap.get (fun _ => ⟨0, 0, 0⟩) s.drover.pol i
def State.setPol (s : State) (i : Nat) (d : PolDyn) : State :=
  s.modDrover (fun x => { x with pol := SMap.set (fun _ => ⟨0, 0, 0⟩) x.pol i d })

/-- The burst sizes of a policer entry, in 1/8000 byte. -/
def polCbs (e : BitVec 256) : Int := ((entBits e 87 64 * 8000 : Nat) : Int)
def polPbs (e : BitVec 256) : Int := ((entBits e 119 96 * 8000 : Nat) : Int)

/-- The buckets at device time t under an entry (R323). -/
def polBring (e : BitVec 256) (d : PolDyn) (t : Nat) : PolDyn :=
  let el : Int := (t : Int) - d.last
  ⟨min (polCbs e) (d.tc + entBits e 19 0 * el), min (polPbs e) (d.tp + entBits e 51 32 * el), t⟩

/-- One use of a policer for B bytes: the colour and the buckets after it (R323). Colours: 0 green, 1 yellow, 2 red. -/
def polUse (e : BitVec 256) (d : PolDyn) (t b pre : Nat) : Nat × PolDyn :=
  let d := polBring e d t
  let pre := if entBits e 89 89 = 1 then min pre 2 else 0
  let c : Int := ((b * 8000 : Nat) : Int)
  if pre = 2 ∨ d.tp < c then (2, d)
  else if pre = 1 ∨ d.tc < c then (1, { d with tp := d.tp - c })
  else (0, { d with tp := d.tp - c, tc := d.tc - c })

/-! ### Drops -/

/-- The DROVER_CNT index of a Sheaf drop counter. -/
def droverDropCnt (diag : Nat) : Nat :=
  match diag with
  | 49 => 4 | 50 => 5 | 51 => 6 | 52 => 7 | 53 => 8 | 54 => 8 | _ => 9

/-- The drop of an output is reported under a Sheaf counter, against its tenant (R326, R358). -/
def State.tellOutDrop (s : State) (d : OutDesc) (len : Int) (diag : Nat) : State :=
  s.reportDropFlow d.md d.tenant d.ts diag (BitVec.ofInt 64 len).toNat

/-- An output that holds its packet's cells is dropped: reported, its Loft reference released (R312, R326). -/
def State.reportOutDrop (s : State) (d : OutDesc) (len : Int) (diag : Nat) : State := (s.tellOutDrop d len diag).releaseRef d.pid

/-- An output is dropped by Drover: counted, also at its queue where R324, R325 or R337 drops it. -/
def State.droverDrop (s : State) (d : OutDesc) (len : Int) (diag : Nat) : State :=
  let s1 := s.count droverWin (0x200 + 4 * droverDropCnt diag)
  (if diag = 60 then s1 else s1.countQueue d.queue 0 0 1).reportOutDrop d len diag

/-- L of an output: its edited length plus the adjust of its port node (R324). -/
def State.outLen (s : State) (d : OutDesc) : Int :=
  (d.len : Int) + signedOf 8 (s.nodeBits (s.queuePort d.queue) 199 192)

/-- The checks of R325, in their order: the reason of the first that fails, as its Sheaf counter. -/
def State.queueCheck (s : State) (d : OutDesc) (len : Int) (colour : Nat) : Option Nat :=
  let k := nodeKey 4 d.queue
  let t := s.queueTenantNode d.queue
  let limit : Int := ((256 * (if colour = 1 then s.nodeBits k 243 224 else s.nodeBits k 211 192) : Nat) : Int)
  let cap := 64 * s.nodeBits t 222 208
  if (s.nodePath d.queue).any (fun n => s.nodeBits n 24 24 == 0) then some 52
  else if s.nodeBits t 205 192 ≠ d.tenant ∧ s.nodeBits t 207 207 = 0 then some 51
  else if limit < s.queueDepth d.queue + len then some 50
  else if cap ≠ 0 ∧ cap ≤ s.drover.outs.countP (fun e => e.2.tnode == t && decide (e.2.place = .queued)) then some 53
  else if 1048576 ≤ s.drover.outs.countP (fun e => decide (e.2.place = .queued)) then some 54
  else none

/-- An output is admitted to its queue (R325, R330). -/
def State.enqueue (s : State) (d : OutDesc) (len : Int) : State :=
  let o := s.drover.nextOut
  let x : Output := { desc := d, port := s.queuePort d.queue, len := len, tnode := s.queueTenantNode d.queue,
                      place := .queued, frame := [], opPos := 0, readId := none, tstamp := none, recirc := none }
  let s1 := (s.modDrover (fun y => { y with nextOut := o + 1 })).setOutput o x
  (s1.setQueued d.queue (s1.queued d.queue ++ [o])).settleNode (nodeKey 4 d.queue)

/-- An output is coloured and checked into its queue (R324, R325). -/
def State.placeOutput (s : State) (d : OutDesc) (colour : Nat) (redPass : Bool) : State :=
  let len := s.outLen d
  if colour = 2 ∧ ¬ redPass then s.droverDrop d len 49
  else
    let c := if colour = 2 then 1 else colour
    match s.queueCheck d len c with
    | some diag =>
      let s1 := if diag = 54 then s.setEvent droverWin 0x180 1 else s
      s1.droverDrop d len diag
    | none => s.enqueue d len

/-- Every output queued in a queue is dropped under a Sheaf counter. -/
def State.flushQueue (s : State) (q diag : Nat) : State :=
  let drop (s : State) (o : Nat) : State :=
    match s.output o with
    | some x => (s.eraseOutput o).droverDrop x.desc x.len diag
    | none => s
  let s1 := (s.queued q).foldl drop s
  (s1.setQueued q []).settleNode (nodeKey 4 q)

end Sys2Proof.Machine
end

