-- ==== Sys2Proof/Machine/DroverCommands.lean ====
section
/-! DEFINITION. The meanings of Drover's commands (12_drover_scheduling_shaping_policing.md). -/

namespace Sys2Proof.Machine

/-- Device time as the FABRIC domain reads it (R32): the time unit's own count. -/
def State.fabricTime (s : State) : Nat := s.time.ns.toNat

/-! ### From Kettle to a queue -/

/-- The position of an output is policed, if its record asks for it and the policer is in use (R322, R323): the colour. -/
def State.policePosition (s : State) (d : OutDesc) : Nat × State :=
  let i := mdBits d.md 67 48
  let e := s.polEntry i
  if mdBits d.md 68 68 = 0 ∨ entBits e 88 88 = 0 then (0, s)
  else
    let len := ((s.packet d.pid).map (·.bytes.length)).getD 0
    let r := polUse e (s.polDyn i) s.fabricTime (len + 4) (mdBits d.md 70 69)
    let s1 := (s.setPol i r.2).count droverWin (0x204 + 4 * r.1)
    (r.1, s1.report d.tenant d.ts [(19 + r.1, 1)])

/-- red_pass of the policer of an output. -/
def State.redPass (s : State) (d : OutDesc) : Bool := entBits (s.polEntry (mdBits d.md 67 48)) 90 90 = 1

/-- DROVER_TAKE_OUTPUT: the oldest output handed over goes on (R321): with the first of a position the position is policed, and the output
is checked into its queue. Kettle hands over nothing while the group is not IN_SERVICE (R338); what it had handed over before goes on. -/
def execDroverTakeOutput (s : State) : Res :=
  match s.drover.handed with
  | [] => .next s
  | (first, d) :: rest =>
    if !s.serving droverWin then .next s
    else
      let s1 := (s.modDrover (fun x => { x with handed := rest })).count droverWin 0x200
      let r := if first then s1.policePosition d else (s1.drover.colour, s1)
      let s2 := r.2.modDrover (fun x => { x with colour := r.1 })
      .next (s2.placeOutput d (if d.mirrorTrunc.isSome then 0 else r.1) (s2.redPass d))

/-! ### Selection (R329) -/

/-- Whether lane n drains because the whole group does (R338). -/
def State.drainsWithGroup (s : State) (n : Nat) : Bool :=
  decide ((s.gathOf droverWin).own = .quiescing) && decide ((s.gathOf droverWin).entered ≤ (s.gathOf (417 + n)).entered)

/-- The outputs of lane n handed to Finisher that have not left it. -/
def State.laneInFinisher (s : State) (n : Nat) : Nat :=
  s.drover.outs.countP (fun e => decide (laneOf e.2.port = n) && decide (e.2.place ≠ .queued))

/-- Whether lane n selects, the group serving: it is IN_SERVICE, or it drains with the group, or alone and outputs of it have not yet left
Finisher (R338). -/
def State.laneSelects (s : State) (n : Nat) : Bool :=
  s.serving droverWin && (s.inService (417 + n)
    || (s.serving (417 + n) && (s.drainsWithGroup n || decide (0 < s.laneInFinisher n))))

/-- The outputs of lane n handed over and not yet taken by Finisher. -/
def State.selectedOf (s : State) (n : Nat) : List Nat := SMap.get (fun _ => []) s.drover.selected n

/-- An output is handed to Finisher (R326, R329, R331): the nodes of its path are charged, and it is counted and reported. -/
def State.handOver (s : State) (n : Nat) (path : List Nat) (q o : Nat) (x : Output) : State :=
  let s1 := path.foldl (fun s k => s.chargeNode x.len k) (s.setQueued q ((s.queued q).drop 1))
  let s2 := ((s1.setOutput o { x with place := .selected }).countQueue q 1 x.len 0).writeItem droverWin 0 n
  let s3 := s2.modDrover (fun d => { d with selected := SMap.put d.selected n (s2.selectedOf n ++ [o]) })
  let s4 := (s3.count droverWin 0x234).report x.desc.tenant x.desc.ts [(2, 1), (3, (BitVec.ofInt 64 x.len).toNat)]
  s4.settleNode (nodeKey 4 q)

/-- Lane n makes one selection and hands the output to Finisher (R329, R330). -/
def State.droverSelect (s : State) (n : Lane) : Res :=
  if !s.laneSelects n.val then .next s
  else
    match s.pickPath 5 (nodeKey 5 n.val) [] with
    | some (k :: path, s1) =>
      let q := k - nodeKey 4 0
      match s1.queued q with
      | o :: _ => match s1.output o with
        | some x => .next (s1.handOver n.val (k :: path) q o x)
        | none => .next s1
      | [] => .next s1
    | _ => .next s

/-- SHAPER_REFILL: a node's buckets gain what the refills that device time has passed give (R331, R332). -/
def execShaperRefill (level : Fin 5) (index : BitVec 17) (s : State) : Res :=
  if nodeCount level.val ≤ index.toNat then .next s
  else
    let k := nodeKey level.val index.toNat
    .next ((s.refillNode k s.fabricTime).settleNode k)

/-! ### Flow control (R333 to R336) -/

/-- The time in ns of a number of quanta at a speed in Gb/s, rounded up. -/
def quantaNs (q speed : Nat) : Nat := if speed = 0 then 0 else (q * 512 + speed - 1) / speed

/-- Half the time in ns of a number of quanta, rounded up: tx_quanta / 2 quanta (R333). -/
def halfQuantaNs (q speed : Nat) : Nat := if speed = 0 then 0 else (q * 256 + speed - 1) / speed

/-- The schedules of port n whose frame is due again: the priorities under XOFF, or entry 8 in PAUSE mode (R333). -/
def State.resendDue (s : State) (n : Nat) : List Nat :=
  let cfg := s.reg droverWin (0x400 + 4 * n)
  let x := s.xoffBits n
  let due (q : Nat) : Bool :=
    decide ((SMap.find (s.port n).pfcSent q).getD 0 + halfQuantaNs (fld cfg 15 0) (s.portSpeed n) ≤ s.time.cycles)
  match fld cfg 31 30 with
  | 1 => if x ≠ 0 ∧ due 8 then [8] else []
  | 2 => (prios x).filter due
  | _ => []

/-- The mode of port n was written while XOFF holds: in a mode that has just begun the port sends its frame at once, since XOFF holds and none of
that mode's has been sent (R333; DEDUCED, log 109). -/
def State.pfcModeSet (s : State) (n old : Nat) : State :=
  let cfg := s.reg droverWin (0x400 + 4 * n)
  let x := s.xoffBits n
  let tx := fld cfg 15 0
  if x = 0 ∨ fld cfg 31 30 = old then s
  else match fld cfg 31 30 with
    | 1 => (s.xoffDue n [8]).sendControl n (pauseFrame n tx)
    | 2 => (s.xoffDue n (prios x)).sendControl n (pfcFrame n x (fun _ => tx))
    | _ => s

/-- PFC_RESEND: while XOFF holds, the frame is sent again each time tx_quanta / 2 quanta have passed (R333). -/
def execPfcResend (p : EthPort) (s : State) : Res :=
  let n := p.val
  let tx := s.rf droverWin (0x400 + 4 * n) 15 0
  match s.resendDue n with
  | [] => .next s
  | q :: qs =>
    let frame := if q = 8 then pauseFrame n tx else pfcFrame n (sumOf (q :: qs) (fun k => 2 ^ k)) (fun _ => tx)
    .next ((s.xoffDue n (q :: qs)).sendControl n frame)

/-- A received pause of (n, q) ends; its storm state clears (R336). -/
def State.endPause (s : State) (n q : Nat) : State :=
  let p := s.port n
  let s1 := s.setPort n { p with pauseEnd := SMap.erase p.pauseEnd q, pauseSince := SMap.erase p.pauseSince q }
  ((s1.setRf droverWin (0x480 + 4 * n) (8 + q) (8 + q) 0).setRf droverWin (0x480 + 4 * n) q q 0).settlePfc n

/-- A received time pauses (n, q) from now, or ends its pause (R334). -/
def State.receivePause (s : State) (n q quanta : Nat) : State :=
  if quanta = 0 then s.endPause n q
  else
    let p := s.port n
    let since := (SMap.find p.pauseSince q).getD s.time.cycles
    let s1 := s.setPort n { p with pauseEnd := SMap.put p.pauseEnd q (s.time.cycles + quantaNs quanta (s.portSpeed n)),
                                   pauseSince := SMap.put p.pauseSince q since }
    (s1.setRf droverWin (0x480 + 4 * n) (8 + q) (8 + q) 1).settlePfc n

/-- A received MAC Control frame is obeyed as the port's mode asks, or ignored (R334). -/
def State.obeyControl (s : State) (n : Nat) (frame : List Byte) : State :=
  let op := beNat (bytesAt frame 14 2)
  let mode := s.rf droverWin (0x400 + 4 * n) 31 30
  if mode = 1 ∧ op = 0x0001 then
    ((List.range 8).foldl (fun s q => s.receivePause n q (beNat (bytesAt frame 16 2))) s).count droverWin 0x22C
  else if mode = 2 ∧ op = 0x0101 then
    let v := beNat (bytesAt frame 16 2)
    ((List.range 8).foldl (fun s q => if v.testBit q then s.receivePause n q (beNat (bytesAt frame (18 + 2 * q) 2)) else s) s).count
      droverWin 0x22C
  else s

/-- PAUSE_EXPIRY: a received pause time has run out (R334). -/
def execPauseExpiry (p : EthPort) (q : Fin 8) (s : State) : Res :=
  match SMap.find (s.port p.val).pauseEnd q.val with
  | some t => if t ≤ s.time.cycles then .next (s.endPause p.val q.val) else .next s
  | none => .next s

/-- PAUSE_STORM: a priority has stayed paused for longer than storm_ms: its pause is ignored from now on (R336). -/
def execPauseStorm (p : EthPort) (q : Fin 8) (s : State) : Res :=
  let n := p.val
  let limit := s.rf droverWin (0x400 + 4 * n) 29 16
  match SMap.find (s.port n).pauseSince q.val with
  | some since =>
    if limit ≠ 0 ∧ s.paused n q.val ∧ since + limit * 1000000 < s.time.cycles then
      let s1 := ((s.setRf droverWin (0x480 + 4 * n) q.val q.val 1).count droverWin 0x230).setEvent droverWin 0x180 0
      .next (s1.settlePfc n)
    else .next s
  | none => .next s

/-! ### Flushes and indirect commands -/

/-- DROVER_FLUSH: every output queued in the named queue is discarded (R337). The flush takes no time, so busy reads 0 after
it. -/
def execDroverFlush (queue : BitVec 17) (s : State) : Res :=
  .next ((s.setRf droverWin 0x140 16 0 queue.toNat).flushQueue queue.toNat 55)

/-- The eight data registers as an entry, and an entry put into them. -/
def State.indData (s : State) (w base : Nat) : BitVec 256 :=
  BitVec.ofNat 256 (sumOf (List.range 8) (fun k => (s.reg w (base + 4 * k)).toNat * 2 ^ (32 * k)))
def State.setIndData (s : State) (w base : Nat) (v : BitVec 256) : State :=
  (List.range 8).foldl (fun s k => s.setReg w (base + 4 * k) (BitVec.ofNat 32 (bitsOf v.toNat (32 * k + 31) (32 * k)))) s

/-- The queue statistics entry: its counters, D and the outputs queued. -/
def State.statsEntry (s : State) (q : Nat) : BitVec 256 :=
  let e := SMap.get (fun _ => (0 : BitVec 256)) s.drover.stats q
  BitVec.ofNat 256 (bitsOf e.toNat 191 0 + (BitVec.ofInt 32 (s.queueDepth q)).toNat * 2 ^ 192 + (s.queued q).length * 2 ^ 224)

/-- The policer entry as it reads: with the whole bytes of its buckets and its latest update (R326). -/
def State.polRead (s : State) (i : Nat) : BitVec 256 :=
  let d := s.polDyn i
  let w (v : Int) : Nat := (BitVec.ofInt 32 (v.fdiv 8000)).toNat
  BitVec.ofNat 256 (bitsOf (s.polEntry i).toNat 127 0 + w d.tc * 2 ^ 128 + w d.tp * 2 ^ 160 + (d.last % 2 ^ 64) * 2 ^ 192)

/-- Whether any queue of a node's subtree holds an output (R320). -/
def State.subtreeBusy (s : State) (k : Nat) : Bool :=
  s.drover.queues.any (fun e => !e.2.isEmpty && (s.nodePath e.1).contains k)

/-- Whether a node write is a reserved encoding (R319, R320). -/
def State.nodeRejects (s : State) (level k : Nat) (e : BitVec 256) : Bool :=
  let q := entBits e 46 32
  decide (q = 0 ∨ 16384 < q ∨ 800000 < entBits e 83 64 ∨ 800000 < entBits e 115 96)
    || (decide (level ≠ 0) && decide (nodeCount (level - 1) ≤ entBits e 16 0))
    || (decide (level = 2) && decide (16384 < entBits e 222 208))
    || (decide (level = 4) && decide (entBits e 211 192 < entBits e 243 224))
    || (decide (level ≠ 0) && decide (entBits e 16 0 ≠ s.nodeBits k 16 0) && s.subtreeBusy k)

/-- A node entry is written (R319, R332): shaper changes wait for the node's next refill; a bucket disabled is off at once. -/
def State.writeNode (s : State) (level k : Nat) (e : BitVec 256) : State :=
  let s1 := s.refillNode k s.fabricTime
  let e' := BitVec.ofNat 256 (e.toNat &&& nodeMask level)
  let d := s1.node k
  let off (bit : Nat) (a : BitVec 256) : BitVec 256 :=
    if entBits e' bit bit = 0 then a &&& ~~~(BitVec.ofNat 256 (2 ^ bit)) else a
  let s2 := s1.setNode k { d with applied := off 127 (off 95 d.applied), last := s.fabricTime }
  (s2.modDrover (fun x => { x with nodes := SMap.set nodeReset x.nodes k e' })).settleNode k

/-- Whether a policer write is a reserved encoding (R326, R327). -/
def polRejects (e : BitVec 256) : Bool :=
  decide (800000 < entBits e 19 0 ∨ 800000 < entBits e 51 32 ∨ entBits e 51 32 < entBits e 19 0)
    || (decide (entBits e 88 88 = 1) && decide (entBits e 87 64 = 0 ∨ entBits e 119 96 = 0))

/-- A policer entry is written: old rates up to now, new values, buckets clamped; both full when en rises (R323, R327). -/
def State.writePol (s : State) (i : Nat) (e : BitVec 256) : State :=
  let old := s.polEntry i
  let r (hi lo : Nat) : Nat := (2 ^ (hi - lo + 1) - 1) * 2 ^ lo
  let e' := BitVec.ofNat 256 (e.toNat &&& (r 19 0 + r 51 32 + r 90 64 + r 119 96))
  let d := polBring old (s.polDyn i) s.fabricTime
  let d' := if entBits old 88 88 = 0 ∧ entBits e' 88 88 = 1 then { d with tc := polCbs e', tp := polPbs e' }
            else { d with tc := min d.tc (polCbs e'), tp := min d.tp (polPbs e') }
  (s.setPol i d').modDrover (fun x => { x with policers := SMap.set (fun _ => 0) x.policers i e' })

/-- The counters of a queue's statistics are zeroed. -/
def State.clearStats (s : State) (q : Nat) : State :=
  s.modDrover (fun x => { x with stats := SMap.erase x.stats q })

/-- One indirect command of Drover, op 0 read, 1 write, 2 read and clear (R541): what it may not do is rejected, an index
beyond its target sets range_err. -/
def State.droverIndirect (s : State) (op : Nat) : State :=
  let a := s.reg droverWin 0x100
  let target := fld a 31 30
  let level := fld a 29 27
  let i := fld a 19 0
  let data := s.indData droverWin 0x110
  let bad := decide (target = 3) || (decide (target = 0) && decide (4 < level)) || (decide (op = 1) && decide (target = 2))
    || (decide (op = 2) && decide (target ≠ 2)) || decide (2 < op)
  let size := if target = 0 then nodeCount level else if target = 1 then 1048576 else 131072
  let k := nodeKey level i
  let s0 := s.setRf droverWin 0x104 1 0 op
  if bad then (s0.setRf droverWin 0x104 29 29 0).cfgReject droverWin 0x104
  else if size ≤ i then s0.setRf droverWin 0x104 29 29 1
  else
    let s1 := s0.setRf droverWin 0x104 29 29 0
    match op, target with
    | 1, 0 => if s1.nodeRejects level k data then s1.cfgReject droverWin 0x104 else s1.writeNode level k data
    | 1, _ => if polRejects data then s1.cfgReject droverWin 0x104 else s1.writePol i data
    | _, 0 => s1.setIndData droverWin 0x110 (s1.nodeEntry k)
    | _, 1 => s1.setIndData droverWin 0x110 (s1.polRead i)
    | 2, _ => (s1.setIndData droverWin 0x110 (s1.statsEntry i)).clearStats i
    | _, _ => s1.setIndData droverWin 0x110 (s1.statsEntry i)

/-- DROVER_IND_READ: a go with op read (R541). -/
def execDroverIndRead (s : State) : Res := .next (s.droverIndirect 0)

/-- DROVER_IND_WRITE: a go with op write (R541). -/
def execDroverIndWrite (s : State) : Res := .next (s.droverIndirect 1)

/-- DROVER_IND_READ_CLEAR: a go with op read and clear (R541). -/
def execDroverIndReadClear (s : State) : Res := .next (s.droverIndirect 2)

end Sys2Proof.Machine
end

