-- ==== Sys2Proof/Machine/Fallow.lean ====
section
/-! DEFINITION. Fallow's parts that the units it shares a path with read: its ports, queues and counters (20, R501 to R508). -/

namespace Sys2Proof.Machine


/-- FALLOW_STATUS.state: 0 OFF, 1 FORWARDING, 2 HANDING_OVER, 3 DONE. -/
def State.fallowState (s : State) : Nat := s.rf deviceWin 0x404 31 30

/-- Whether Fallow forwards (R505). -/
def State.fallowRuns (s : State) : Bool := s.fallowState = 1 ∨ s.fallowState = 2

/-- The entries of the learning table: one that was not refreshed for two age_s periods is no longer there, whether or not its removal has
come (R502). -/
def State.fallowLive (s : State) : SMap (Nat × Nat × Nat) :=
  let limit := 2000000000 * s.rf deviceWin 0x408 31 16
  s.fallow.table.filter (fun e => decide (s.time.cycles < e.2.2.1 + limit))

/-- The entries that should be gone go. -/
def State.fallowAged (s : State) : State :=
  let l := s.fallowLive
  s.modFallow (fun x => { x with table := l, copies := x.copies.filter (fun k => l.any (fun e => e.1 == k)) })

/-- FALLOW_PORT_CFG.en, its pvid, and FALLOW_SWITCHED of a port. -/
def State.fallowEn (s : State) (n : Nat) : Bool := s.rf deviceWin (0x500 + 4 * n) 31 31 = 1
def State.fallowPvid (s : State) (n : Nat) : Nat := s.rf deviceWin (0x500 + 4 * n) 11 0
def State.fallowSwitched (s : State) (n : Nat) : Bool := s.rf deviceWin 0x410 n n = 1

/-- A Fallow port (R501). -/
def State.fallowPort (s : State) (n : Nat) : Bool :=
  s.fallowEn n && decide (s.portState n = .inService) && s.linkUp n

/-- Whether the frames received on a port are Fallow's: until it is switched, or moved after a STOP (R507, R508). -/
def State.fallowOwns (s : State) (n : Nat) : Bool :=
  decide (n < 32) && s.fallowEn n && !s.fallowSwitched n && (s.fallowRuns || (decide (s.fallowState = 3) && s.fallow.stopped))

/-- The frames queued for a port, and they replaced. -/
def State.fallowQueue (s : State) (n : Nat) : List (List Byte) := SMap.get (fun _ => []) s.fallow.queues n
def State.setFallowQueue (s : State) (n : Nat) (l : List (List Byte)) : State :=
  s.modFallow (fun x => { x with queues := SMap.set (fun _ => []) x.queues n l })

/-- The cells of a frame. -/
def frameCells (f : List Byte) : Nat := (f.length + 255) / 256

/-- Fallow's cells in use: by its queues, and by the frames it holds at a switch (R503, R507). -/
def State.fallowCells (s : State) : Nat :=
  sumOf s.fallow.queues (fun e => sumOf e.2 frameCells) + sumOf s.fallow.held (fun e => sumOf e.2 (fun f => frameCells f.bytes))

/-- Whether Fallow owns its on-chip cells and its part of the Warren cache (R505). -/
def State.fallowHolds (s : State) : Bool := s.fallowRuns || (decide (s.fallowState = 3) && !s.fallow.queues.isEmpty)

/-- A counter of R504 rises by an amount in bytes or frames: whole units are shown, the remainder is kept. -/
def State.fallowCount (s : State) (n k amount : Nat) : State :=
  let unit := if k = 0 ∨ k = 2 then 256 else 16
  let i := 8 * n + k
  let total := SMap.get (fun _ => 0) s.fallow.rem i + amount
  (s.modFallow (fun x => { x with rem := SMap.set (fun _ => 0) x.rem i (total % unit) })).countBy deviceWin (0x800 + 4 * i) (total / unit)

/-- A STOP has finished once the queues are empty (R508). -/
def State.settleStop (s : State) : State :=
  if s.fallow.stopped ∧ s.fallowState = 3 ∧ s.rf deviceWin 0x404 29 28 ≠ 3 ∧ s.fallow.queues = [] then
    ((s.setRf deviceWin 0x404 29 28 3).setRf deviceWin 0x404 27 27 1).setRf deviceWin 0x400 30 30 0
  else s

/-- The oldest frame of a port's Fallow queue leaves it; its MAC's turn passes to Finisher (R506). -/
def State.takeFallow (s : State) (n : Nat) (f : List Byte) (rest : List (List Byte)) : State :=
  let s1 := (s.setFallowQueue n rest).modFallow (fun x => { x with turn := SMap.set (fun _ => false) x.turn n (!rest.isEmpty) })
  ((s1.fallowCount n 2 f.length).fallowCount n 3 1).settleStop

end Sys2Proof.Machine
end

