-- ==== Sys2Proof/Machine/Ports.lean ====
section
/-! DEFINITION. Ethernet ports: the MAC's receive and transmit sides, MACsec, links, recalibration
(13_ports_macsec_and_finisher.md). -/

namespace Sys2Proof.Machine

/-! ### Parts -/

/-- A frame is dropped at the MAC (R342): counted on the port and in Sheaf against the default tenant. -/
def State.dropMac (s : State) (n cnt diag : Nat) (ts : Word64) (len : Nat) : State :=
  (s.count (portWin n) (0x200 + 4 * cnt)).reportDrop (s.defaultTenant n) ts diag len

/-- The PORT_CNT index of a MAC drop's Sheaf counter. -/
def macDropCnt (diag : Nat) : Nat :=
  match diag with
  | 24 => 1 | 25 => 2 | 26 => 3 | 27 => 5 | 28 => 8 | 29 => 6 | 30 => 7 | _ => 15

/-- The EtherType of a frame. -/
def etherType (f : List Byte) : Nat := beNat (bytesAt f 12 2)

/-! ### MACsec (R349 to R351) -/

/-- Where the secure data of a frame with a SecTAG begins: behind the SCI where the tag carries one (SC), else where it would stand
(IEEE 802.1AE). -/
def secHead (wire : List Byte) : Nat := if (byteAt wire 14).getLsbD 5 then 28 else 20

/-- The secure data of a frame, as far as its bytes have come: as many as SL gives where the tag gives a short length, with the ICV and
padding behind them; else all but the last 16, which may be the ICV and are held back (IEEE 802.1AE). -/
def secBody (wire : List Byte) : List Byte :=
  let rest := wire.drop (secHead wire)
  let sl := (byteAt wire 15).toNat % 64
  rest.take (if sl = 0 then rest.length - 16 else sl)

/-- The SA in a slot: 0 to 3 transmit, 4 + 4 times the receive channel + AN. -/
def State.sa (s : State) (n slot : Nat) : Option MacsecSa := SMap.find (s.port n).sas slot

/-- An SA replaced. -/
def State.setSa (s : State) (n slot : Nat) (a : MacsecSa) : State :=
  let p := s.port n
  s.setPort n { p with sas := SMap.put p.sas slot a }

/-- The receive slot of an SCI and AN. -/
def State.rxSlot (s : State) (n sci an : Nat) : Option Nat :=
  ((s.port n).sas.find? (fun e => decide (4 ≤ e.1) && decide (e.1 % 4 = an) && e.2.sci.toNat == sci)).map (·.1)

/-- The 96-bit IV of GCM-AES-XPN-256: the salt with the SSCI and the 64-bit PN. -/
def xpnIv (a : MacsecSa) (pn : Nat) : List Byte := xorBytes (fitBytes a.salt 12) (beBytes 4 a.ssci.toNat ++ beBytes 8 pn)

/-- The 64-bit PN of a received frame, recovered from its low 32 bits against the lowest acceptable PN (IEEE 802.1AE). -/
def recoverPn (lowest lo : Nat) : Nat :=
  let hi := lowest / 2 ^ 32
  if lowest % 2 ^ 32 ≥ 2 ^ 31 ∧ lo < 2 ^ 31 then (hi + 1) * 2 ^ 32 + lo else hi * 2 ^ 32 + lo

/-- The lowest acceptable PN of an SA (R351); `pn` is one above the highest PN received. -/
def State.lowestPn (s : State) (n : Nat) (a : MacsecSa) : Nat := a.pn - s.prf n 0x120 27 0

/-- What the checks of R351 before delivery give: admitted as it is, dropped, or under an SA with a PN. -/
inductive SecCheck where
  | plain
  | drop (diag : Nat)
  | secured (x : RxSec)
  deriving DecidableEq, Repr

/-- The SCI of a received SecTAG (IEEE 802.1AE; PRESUMED, log 73): the one it carries; from an end station the source address with port
identifier 1, or 0 for a single copy broadcast; else that of the one receive channel in use. A tag of another version has none. -/
def State.rxSci (s : State) (n : Nat) (wire : List Byte) : Option Nat :=
  let tci := (byteAt wire 14).toNat
  if tci.testBit 7 then none
  else if tci.testBit 5 then some (beNat (bytesAt wire 20 8))
  else if tci.testBit 6 then some (beNat (bytesAt wire 6 6) * 65536 + (1 - bit (tci.testBit 4)))
  else match (((s.port n).sas.filter (fun e => decide (4 ≤ e.1))).map (fun e => e.2.sci.toNat)).eraseDups with
    | [sci] => some sci
    | _ => none

/-- MACSEC_CHECK up to the ICV (R351). -/
def State.secCheck (s : State) (n : Nat) (wire : List Byte) : SecCheck :=
  if s.prf n 0x120 31 31 = 0 ∨ etherType wire = 0x888E then .plain
  else if etherType wire ≠ 0x88E5 then (if s.prf n 0x120 30 30 = 1 then .drop 27 else .plain)
  else match (s.rxSci n wire).bind (fun sci => s.rxSlot n sci ((byteAt wire 14).toNat % 4)) with
    | none => .drop 28
    | some slot => match s.sa n slot with
      | none => .drop 28
      | some a => .secured ⟨slot, recoverPn (s.lowestPn n a) (beNat (bytesAt wire 16 4)), s.saGen n slot, a⟩

/-- The frame without SecTAG and ICV, as far as its bytes have come. -/
def secPlain (a : MacsecSa) (pn : Nat) (wire : List Byte) : List Byte :=
  wire.take 12 ++ (if (byteAt wire 14).getLsbD 3 then gcmCrypt a.sak (xpnIv a pn) (secBody wire) else secBody wire)

/-- Whether the ICV of a whole frame holds. -/
def secIcvOk (a : MacsecSa) (pn : Nat) (wire : List Byte) : Bool :=
  let head := wire.take (secHead wire)
  let body := secBody wire
  let icv := bytesAt wire (secHead wire + body.length) 16
  if (byteAt wire 14).getLsbD 3 then gcmTag a.sak (xpnIv a pn) head body == icv
  else gcmTag a.sak (xpnIv a pn) (head ++ body) [] == icv

/-- A frame received under an SA raises the highest PN received, unless the slot has a new one. -/
def State.notePn (s : State) (n : Nat) (x : RxSec) : State :=
  match s.sa n x.slot with
  | some a => if s.saGen n x.slot = x.gen then s.setSa n x.slot { a with pn := max a.pn (x.pn + 1) } else s
  | none => s

/-- The bytes of a frame that Loft may have, of the wire bytes received so far. -/
def plainOf (sec : Option RxSec) (wire : List Byte) : List Byte :=
  match sec with
  | none => wire
  | some x => secPlain x.sa x.pn wire

/-! ### Receive (R342, R543, R345) -/

/-- The cells that a frame on its way in has. -/
def State.rxCells (s : State) (f : RxFrame) : List Nat :=
  match (f.pid.bind s.packet).bind (fun p => p.handle) with
  | some h => s.cellsOf h
  | none => []

/-- The bytes in a port's receive buffer ahead of admission (R306): those of its frames that have no cell yet (R308). -/
def State.rxHeld (s : State) (n : Nat) : Nat :=
  sumOf ((s.port n).rx.filter (fun f => f.refused.isNone)) (fun f => f.bytes.length - 256 * (s.rxCells f).length)

/-- A frame joins a port's receive buffer; one that finds no room is dropped with RX_OVERFLOW (R306). -/
def State.bufferFrame (s : State) (n : Nat) (f : RxFrame) : State :=
  let p := s.port n
  if 32768 < s.rxHeld n + f.bytes.length then
    let s1 := s.countRefusal n (s.ingressPrio n f.bytes) 5
    if f.whole then s1.reportDrop (s.defaultTenant n) f.ts (loftDiag 5) f.bytes.length
    else s1.setPort n { p with rx := p.rx ++ [{ f with refused := some (loftDiag 5) }] }
  else s.setPort n { p with rx := p.rx ++ [f] }

/-- Whether a frame with an SFD at device time `sfd` was in progress when the port left IN_SERVICE (R345). -/
def State.inProgressAtDrain (s : State) (n : Nat) (sfd : Nat) : Bool :=
  let g := s.gathOf (portWin n)
  decide (g.own = .quiescing) && decide (s.time.cycles - g.entered < s.time.ns.toNat - sfd)

/-- A frame dropped with the reason of a Sheaf counter: at once if it is whole, else as it arrives. Counter 64 stands for
a MAC Control frame, which is consumed, and 65 for a frame that Fallow takes. -/
def State.rxDrop (s : State) (n diag : Nat) (f : RxFrame) : State :=
  if f.whole then s.dropMac n (macDropCnt diag) diag f.ts f.wire.length
  else
    let p := s.port n
    s.setPort n { p with rx := p.rx ++ [{ f with refused := some diag }] }

/-- A frame whose first bytes are ready for delivery (R342, R351): checked, then delivered or dropped. -/
def State.rxFirst (s : State) (n : Nat) (f : RxFrame) (fcsOk : Bool) : State :=
  let max := s.prf n 0x100 13 0
  if f.whole ∧ ¬ fcsOk then s.rxDrop n 24 f
  else if f.whole ∧ f.wire.length < 60 then s.rxDrop n 25 f
  else if max < f.wire.length + 4 then s.rxDrop n 26 f
  else if etherType f.wire = 0x8808 then
    if f.whole then (s.count (portWin n) 0x210).obeyControl n f.wire else s.rxDrop n 64 f
  else match s.secCheck n f.wire with
    | .drop d => s.rxDrop n d f
    | .plain =>
      let s1 := if f.whole then s.count (portWin n) 0x200 else s
      s1.bufferFrame n { f with bytes := f.wire }
    | .secured x =>
      if f.whole ∧ ¬ secIcvOk x.sa x.pn f.wire then s.rxDrop n 29 f
      else if x.pn < s.lowestPn n x.sa then s.rxDrop n 30 f
      else
        let f' := { f with bytes := secPlain x.sa x.pn f.wire, sec := some x }
        if f.whole then ((s.notePn n x).count (portWin n) 0x200).bufferFrame n f' else s.bufferFrame n f'

/-- Whether test patterns and loopback of port n take effect (R347). -/
def State.testRuns (s : State) (n : Nat) : Bool := decide (s.portState n = .quiet) || decide (s.portState n = .off)

/-- Whether port n is looped back: it receives what it sends, and nothing from the pins (R347). -/
def State.loopedBack (s : State) (n : Nat) : Bool := s.testRuns n && decide (s.prf n 0x108 26 25 ≠ 0)

/-- Whether the MAC of port n receives from the pins (R342, R347). -/
def State.macReceives (s : State) (n : Nat) : Bool :=
  s.linkUp n && !s.loopedBack n
    && (decide (s.portState n = .inService) || decide (s.portState n = .quiescing) || decide (s.portState n = .quiet))

/-- A frame that a draining or quiet port discards: counted there and in Sheaf (R345). Such a port is no Fallow port (R501). -/
def State.drainFrame (s : State) (n : Nat) (f : RxFrame) : State := s.rxDrop n 63 f

/-- The first bytes of a frame, or all of it, on a port that Fallow owns: a frame that fails a check of R342 is dropped by the MAC and counted as
on any port, since Fallow never receives it (DEDUCED, log 108); Fallow's own frame comes with FALLOW_FRAME. One that still arrives is marked 65
until its end. -/
def State.fallowFirst (s : State) (n : Nat) (f : RxFrame) (fcsOk : Bool) : State :=
  if f.whole ∧ ¬ fcsOk then s.rxDrop n 24 f
  else if f.whole ∧ f.wire.length < 60 then s.rxDrop n 25 f
  else if s.prf n 0x100 13 0 < f.wire.length + 4 then s.rxDrop n 26 f
  else if f.whole then s
  else s.rxDrop n 65 f

/-- RX_WINDOW_DELIVERY: a frame's window, or a whole frame, is ready for delivery (R543). `wire` is what came from the wire
without the FCS; `sfd` is the device time of its first bit at the pins (R348). -/
def execRxWindowDelivery (p : EthPort) (wire : List Byte) (whole fcsOk : Bool) (sfd : BitVec 64) (s : State) : Res :=
  let n := p.val
  let ts := sfd + BitVec.ofInt 64 (signedOf 8 (s.prf n 0x110 7 0))
  let f : RxFrame := ⟨wire, [], ts, whole, none, none, none, false, none, false, none⟩
  if !s.macReceives n then .next s
  else if s.portState n = .inService ∨ s.inProgressAtDrain n sfd.toNat then
    .next (if s.fallowOwns n then s.fallowFirst n f fcsOk else s.rxFirst n f fcsOk)
  else .next (s.drainFrame n f)

/-- The frame of port n that is still arriving, and the port's frames without it. -/
def State.arriving (s : State) (n : Nat) : Option RxFrame := (s.port n).rx.find? (fun f => !f.whole)

/-- The frame still arriving is replaced, or leaves. -/
def State.setArriving (s : State) (n : Nat) (f : Option RxFrame) : State := s.setRxHead n (fun g => !g.whole) f

/-- A frame still arriving is dropped at the MAC: what Loft holds of it is freed, the rest is discarded (R543). -/
def State.dropArriving (s : State) (n diag : Nat) (f : RxFrame) : State :=
  let s1 := match f.pid with
    | some pid => s.endPacket pid
    | none => s
  (s1.setArriving n (some { f with pid := none, refused := some diag })).updatePortXoff n

/-- The packet that a frame became takes the frame's bytes, and so do its cells. -/
def State.packetBytes (s : State) (pid : Option Nat) (bytes : List Byte) : State :=
  match pid with
  | none => s
  | some k => match s.packet k with
    | some p => (p.handle.elim s (fun h => s.restore h p.bytes bytes)).setPacket k { p with bytes := bytes }
    | none => s

/-- RX_BYTES_DELIVERY: later bytes of a cut-through frame (R543). -/
def execRxBytesDelivery (p : EthPort) (wire : List Byte) (s : State) : Res :=
  let n := p.val
  match s.arriving n with
  | none => .next s
  | some f =>
    let w := f.wire ++ wire
    let b := plainOf f.sec w
    let f' := { f with wire := w, bytes := b }
    let long := s.prf n 0x100 13 0 < w.length + 4
    if f.refused.isSome ∧ ¬ ((f.refused = some 64 ∨ f.refused = some 65) ∧ long) then .next (s.setArriving n (some f'))
    else if long then .next (s.dropArriving n 26 f')
    else
      let s1 := (s.setArriving n (some f')).packetBytes f.pid b
      if f.pid.isNone ∧ 32768 < s1.rxHeld n then
        .next (((s1.countRefusal n (s1.ingressPrio n b) 5).setArriving n (some { f' with refused := some (loftDiag 5) })).updatePortXoff n)
      else .next s1

/-- The report of a frame dropped as it arrived, now that its length is known. -/
def State.reportArrived (s : State) (n diag : Nat) (f : RxFrame) (fcsOk : Bool) : State :=
  let s1 := s.setArriving n none
  if diag = 64 then
    if fcsOk then (s1.count (portWin n) 0x210).obeyControl n f.wire else s1.dropMac n 1 24 f.ts f.wire.length
  else if diag = 65 then (if fcsOk then s1 else s1.dropMac n 1 24 f.ts f.wire.length)
  else if (31 ≤ diag ∧ diag ≤ 36) ∨ diag = 60 then s1.reportDrop (s1.defaultTenant n) f.ts diag f.bytes.length
  else s1.dropMac n (macDropCnt diag) diag f.ts f.wire.length

/-- A frame that fails a check at its end is removed from Loft and counted (R543). -/
def State.failArrived (s : State) (n diag : Nat) (f : RxFrame) : State :=
  let s1 := match f.pid with
    | some pid => s.endPacket pid
    | none => s
  ((s1.setArriving n none).dropMac n (macDropCnt diag) diag f.ts f.wire.length).updatePortXoff n

/-- A frame that passes its last checks is whole; when its bytes have their cells it is complete (R543). -/
def State.finishArrived (s : State) (n : Nat) (f : RxFrame) : State :=
  let s1 := (s.setArriving n (some { f with whole := true })).count (portWin n) 0x200
  let s2 := match f.sec with
    | some x => s1.notePn n x
    | none => s1
  match f.pid with
  | some pid => s2.completeIfWhole pid
  | none => s2

/-- RX_FRAME_END: the last bit of a cut-through frame's FCS, or a cut by loss of link (R543). -/
def execRxFrameEnd (p : EthPort) (fcsOk cut : Bool) (s : State) : Res :=
  let n := p.val
  match s.arriving n with
  | none => .next s
  | some f =>
    let ok := fcsOk && !cut
    match f.refused with
    | some d => .next (s.reportArrived n d f ok)
    | none =>
      if !ok then .next (s.failArrived n 24 f)
      else match f.sec with
        | none => .next (s.finishArrived n f)
        | some x => if secIcvOk x.sa x.pn f.wire then .next (s.finishArrived n f) else .next (s.failArrived n 29 f)

/-- MAC_CONTROL_FRAME: a MAC Control frame arrives whole, without its FCS: it is consumed and obeyed as the mode asks (R334,
R342); a draining port discards it (R345). -/
def execMacControlFrame (p : EthPort) (frame : List Byte) (s : State) : Res :=
  let n := p.val
  let f : RxFrame := ⟨frame, [], s.time.ns, true, none, none, none, false, none, false, none⟩
  if !s.macReceives n ∨ etherType frame ≠ 0x8808 then .next s
  else if s.portState n = .inService then .next (if s.fallowOwns n then s.count (portWin n) 0x210 else s.rxFirst n f true)
  else .next (s.drainFrame n f)

/-! ### Outputs of a port -/

/-- The outputs of port n in Finisher: handed over by Drover, and not yet sent or dropped (R344, R359). -/
def State.heldOutputs (s : State) (n : Nat) : List (Nat × Output) :=
  s.drover.outs.filter (fun e => decide (e.2.port = n) && decide (e.2.place ≠ .queued))

/-- An output ends at Finisher or a MAC: it leaves the table and the lists of its lane and port, and the port node is settled (R328). -/
def State.leaveOutput (s : State) (o : Nat) (x : Output) : State :=
  let p := s.port x.port
  let lane := laneOf x.port
  let s1 := (s.eraseOutput o).setPort x.port { p with txq := p.txq.filter (· ≠ o) }
  (s1.modDrover (fun d =>
    { d with selected := SMap.set (fun _ => []) d.selected lane ((s1.selectedOf lane).filter (· ≠ o)) })).settlePort x.port

/-- Whether an output holds its reference to its packet's cells: until Finisher has read them (R312). -/
def Output.holdsCells (x : Output) : Bool := decide (x.place ≠ .editing) && decide (x.place ≠ .edited)

/-- Finisher or a MAC drops an output with the reason of a Sheaf counter (R358). -/
def State.finisherDrop (s : State) (o : Nat) (x : Output) (diag : Nat) : State :=
  let s1 := match diag with
    | 56 => s.count (portWin x.port) 0x228
    | 58 => (s.count (portWin x.port) 0x22C).setEvent (portWin x.port) 0x180 2
    | 57 => s.count finisherWin 0x10C
    | 59 => s.count finisherWin 0x110
    | _ => s.count finisherWin 0x114
  let s2 := s1.tellOutDrop x.desc x.len diag
  (if x.holdsCells then s2.releaseRef x.desc.pid else s2).leaveOutput o x

/-- The outputs that Finisher holds for port n are discarded with the reason of a Sheaf counter (R344, R359). -/
def State.discardPort (s : State) (n diag : Nat) : State :=
  (s.heldOutputs n).foldl (fun (s : State) e => s.finisherDrop e.1 e.2 diag) s

/-- What the PCS and FEC of a port tell (R341): the high symbol error ratio, and the FEC codewords corrected and uncorrectable since they
last told; a mode without FEC has none. -/
def State.pcsTells (s : State) (n : Nat) (hiSer : Bool) (corrected bad : Nat) : State :=
  let w := portWin n
  let noFec := s.prf n 0x100 31 28 = 1 ∧ s.prf n 0x100 27 27 = 1
  let s1 := s.setRf w 0x104 3 3 (bit hiSer)
  if noFec then s1 else (s1.countBy w 0x230 corrected).countBy w 0x234 bad

/-- link_up of port n changes (R344). block_lock and align hold with the link; without it the spec states neither, and they are free. -/
def State.linkChanges (s : State) (n : Nat) (up : Bool) : State :=
  let w := portWin n
  let s1 := (s.setRf w 0x104 0 0 (bit up)).setEvent w 0x180 0
  if up then s1.setRf w 0x104 2 1 3
  else
    let s2 := ((s1.setRf w 0x104 2 1 (s1.freeBits % 4)).stepFresh).count w 0x238
    let s3 := (List.range 8).foldl (fun s q => s.endPause n q) s2
    let p := s3.port n
    (s3.setPort n { p with ctl := [] }).discardPort n 56

/-- LINK_CHANGE: the PCS of port n tells its link state, its symbol error ratio and its FEC's codewords (R341, R344). -/
def execLinkChange (p : EthPort) (up : LinkTold) (s : State) : Res :=
  let n := p.val
  let live := s.portState n = .inService ∨ s.portState n = .quiescing ∨ s.portState n = .quiet
  if ¬ live ∨ s.prf n 0x100 31 28 = 0 then .next s
  else
    let s1 := s.pcsTells n up.hiSer up.corrected.toNat up.bad.toNat
    .next (if s1.linkUp n = up.up then s1 else s1.linkChanges n up.up)

/-! ### Transmit (R343, R350, R357) -/

/-- The ones'-complement change of a checksum field (CSUM_DIFF of R354). -/
def csumDiff (udp : Bool) (hc d : Nat) : Nat :=
  if udp ∧ hc = 0 then 0
  else
    let r := 0xFFFF - onesFold 4 ((0xFFFF - hc) + d)
    if udp ∧ r = 0 then 0xFFFF else r

/-- The field TSTAMP writes: format, egress time, ingress time, what stands there. -/
def tstampField (fmt t ingress old : Nat) : List Byte :=
  match fmt with
  | 0 => beBytes 8 (t % 2 ^ 64)
  | 1 => beBytes 6 (t / 1000000000 % 2 ^ 48) ++ beBytes 4 (t % 1000000000)
  | _ => beBytes 8 ((BitVec.ofInt 64 ((old : Int) + ((t : Int) - ingress) * 65536)).toNat)

/-- TSTAMP at the MAC (R357): the field, and the checksum corrected for the change. -/
def applyTstamp (frame : List Byte) (ts : Nat × Nat × Nat) (t ingress : Nat) : List Byte :=
  let fmt := ts.1
  let off := ts.2.1
  let cs := ts.2.2
  let n := if fmt = 1 then 10 else 8
  let old := bytesAt frame off n
  let new := tstampField fmt t ingress (beNat old)
  let f1 := patchBytes frame off new
  if cs = 0xFFFF then f1
  else
    let diff := onesFold 8 (onesSum 0 new + sumOf (List.range (n / 2)) (fun i => 0xFFFF - beNat (bytesAt old (2 * i) 2)))
    let d := if off % 2 = cs % 2 then diff else diff % 256 * 256 + diff / 256
    patchBytes f1 cs (beBytes 2 (csumDiff true (beNat (bytesAt f1 cs 2)) d))

/-- A frame protected under a transmit SA (R350): the SecTAG with the SCI, enciphered from the byte behind it, with the ICV. -/
def macsecProtect (a : MacsecSa) (an : Nat) (f : List Byte) : List Byte :=
  let body := f.drop 12
  let sl := if body.length < 48 then body.length else 0
  let head := f.take 12 ++ [0x88, 0xE5, BitVec.ofNat 8 (0x2C + an), BitVec.ofNat 8 sl] ++ beBytes 4 (a.pn % 2 ^ 32) ++ beBytes 8 a.sci.toNat
  let ct := gcmCrypt a.sak (xpnIv a a.pn) body
  head ++ ct ++ gcmTag a.sak (xpnIv a a.pn) head ct

/-- PN_THRESHOLD: the next PN of a transmit SA reached its threshold: pn_threshold sets, once per installed SA (R350). -/
def State.pnThreshold (s : State) (n slot : Nat) : State :=
  match s.sa n slot with
  | some a =>
    if 0xFFFFFFFF00000000 ≤ a.pn ∧ ¬ a.warned then
      (s.setSa n slot { a with warned := true }).setEvent (portWin n) 0x180 1
    else s
  | none => s

/-- A frame goes out on the wire: padded to 60 bytes, with its FCS (R343). -/
def State.wireSend (s : State) (n : Nat) (f : List Byte) : State :=
  let g := if f.length < 60 then fitBytes f 60 else f
  let p := s.port n
  s.setPort n { p with wireOut := p.wireOut ++ [g ++ leBytes 4 (crc32 g)] }

/-- An output is sent: TSTAMP, then MACsec, then the wire (R350, R357). -/
def State.transmit (s : State) (n o : Nat) (x : Output) : State :=
  let t := ((s.time.ns.toNat : Int) + signedOf 8 (s.prf n 0x110 15 8)).toNat
  let f := match x.tstamp with
    | some ts => applyTstamp x.frame ts t x.desc.ts.toNat
    | none => x.frame
  let done (s : State) : State := (s.count (portWin n) 0x224).leaveOutput o x
  if s.prf n 0x120 31 31 = 0 ∨ etherType f = 0x888E ∨ etherType f = 0x8808 then done (s.wireSend n f)
  else
    let an := s.prf n 0x120 29 28
    match s.sa n an with
    | some a =>
      if 2 ^ 64 ≤ a.pn then s.finisherDrop o x 58
      else done (((s.setSa n an { a with pn := a.pn + 1 }).pnThreshold n an).wireSend n (macsecProtect a an f))
    | none => s.finisherDrop o x 58

/-- MAC_TRANSMIT: port p sends its next frame: a waiting MAC Control frame first (R333), else its next edited output; without
link the outputs are discarded (R344). -/
def execMacTransmit (p : EthPort) (s : State) : Res :=
  let n := p.val
  if s.portState n ≠ .inService ∧ s.portState n ≠ .quiescing then .next s
  else if !s.linkUp n then .next (s.discardPort n 56)
  else match (s.port n).ctl with
    | c :: cs => let q := s.port n; .next (((s.setPort n { q with ctl := cs }).wireSend n c).count droverWin 0x228)
    | [] =>
      let ready : Option (Nat × Output) := match (s.port n).txq with
        | o :: _ => match s.output o with
          | some x => if x.place = .edited then some (o, x) else none
          | none => none
        | [] => none
      let mine := SMap.get (fun _ => false) s.fallow.turn n
      match s.fallowQueue n, ready with
      | f :: rest, none => .next (((s.takeFallow n f rest).count (portWin n) 0x224).wireSend n f)
      | f :: rest, some (o, x) =>
        if mine ∧ s.fallowState ≠ 1 then .next ((s.modFallow (fun y => { y with turn := SMap.set (fun _ => false) y.turn n false })).transmit n o x)
        else .next (((s.takeFallow n f rest).count (portWin n) 0x224).wireSend n f)
      | [], some (o, x) => if s.fallowState = 1 ∧ s.fallowOwns n then .next s else .next (s.transmit n o x)
      | [], none => .next s

/-! ### Recalibration and patterns -/

/-- PORT_RECAL_GO: a go of PORT_RECAL: taken in QUIET, refused elsewhere (R346). -/
def execPortRecalGo (p : EthPort) (s : State) : Res :=
  let w := portWin p.val
  if s.portState p.val = .quiet then .next ((s.setRf w 0x10C 30 30 1).setRf w 0x10C 29 28 0)
  else .next (s.setRf w 0x10C 29 28 3)

/-- RECAL_DONE: a recalibration ends, with or without a signal (R346). -/
def execRecalDone (p : EthPort) (signal : Bool) (s : State) : Res :=
  let w := portWin p.val
  if s.rf w 0x10C 30 30 = 1 then
    .next (((s.setRf w 0x10C 30 30 0).setRf w 0x10C 29 28 (if signal then 1 else 2)).setEvent w 0x180 3)
  else .next s

/-- The test pattern on the lanes of a port, by its code in PORT_TEST, while its generator takes effect (R347). -/
def State.lanePattern (s : State) (n : Nat) : Option Nat :=
  if s.testRuns n && decide (s.prf n 0x108 31 31 = 1) then some (s.prf n 0x108 29 27) else none

/-- Whether the pattern of a port is a PAM4 one, whose errors count by symbol (R347): PRBS13Q, PRBS31Q and SSPRQ. -/
def State.pam4Pattern (s : State) (n : Nat) : Bool := decide (2 ≤ s.prf n 0x108 29 27) && decide (s.prf n 0x108 29 27 ≤ 4)

/-- A checker that does not check has no lock (R347): its port left QUIET and OFF, or chk_en is 0. -/
def State.settleLock (s : State) (n : Nat) : State :=
  if s.prf n 0x108 30 30 = 1 ∧ s.testRuns n then s else s.setRf (portWin n) 0x104 15 8 0

/-- PRBS_LOCK_CHANGE: the checker of a lane of the port, while it checks, tells whether it has lock, and the wrong bits and symbols since it
last told, which PORT_LANE_ERR counts (R347). Behind the near-end loopback it checks the port's own generator, which makes no errors. -/
def execPrbsLockChange (p : EthPort) (lane : Fin 8) (lock : PrbsTold) (s : State) : Res :=
  let n := p.val
  let w := portWin n
  let own := s.prf n 0x108 26 25 = 1
  let locked := if own then (s.lanePattern n).isSome else lock.lock
  let errors := if own then 0 else if s.pam4Pattern n then lock.symbols.toNat else lock.bits.toNat
  if s.prf n 0x108 30 30 = 1 ∧ s.testRuns n then
    .next ((s.setRf w 0x104 (8 + lane.val) (8 + lane.val) (bit locked)).countBy w (0x140 + 4 * lane.val) errors)
  else .next s

end Sys2Proof.Machine
end

