-- ==== Sys2Proof/Machine/Finisher.lean ====
section
/-! DEFINITION. Finisher: outputs taken from Drover, cells read, edit scripts (13_ports_macsec_and_finisher.md, R353 to
R359). -/

namespace Sys2Proof.Machine

/-- Whether Finisher works on the outputs it holds (R359). -/
def State.finisherRuns (s : State) : Bool :=
  s.inService finisherWin || decide ((s.gathOf finisherWin).own = .quiescing)

/-- Whether Finisher discards the outputs of a port: an Ethernet port that is out of service or has no link (R344). -/
def State.portDead (s : State) (n : Nat) : Bool :=
  decide (n < 32) && (decide (s.portState n = .off) || decide (s.portState n = .failed)
    || (decide (s.portState n = .inService) && !s.linkUp n))

/-- The cells of a packet, and whether its chain broke (R315). -/
def State.packetCells (s : State) (pid : Nat) : List Nat × Bool :=
  match s.packet pid with
  | some p => match p.handle with
    | some h => ((s.chainOf h).1, (s.chainOf h).2.isSome)
    | none => ([], false)
  | none => ([], true)

/-- The pieces of the cells of a packet that lie in buffer memory. -/
def State.cellPieces (s : State) (pid : Nat) : List (Option Piece) :=
  ((s.packetCells pid).1.filter (fun c => decide (0x80000000 ≤ c))).map (fun c => s.bmMap (s.cellAddr c) |>.map (fun p => { p with len := 256 }))

/-- What the channels of a packet's buffer memory cells answer (R384, R401). -/
def State.cellsAvail (s : State) (pid : Nat) : MemAvail :=
  let ans (p : Option Piece) : MemAvail := match p with
    | none => .bad
    | some q => s.chanAvail q.win
  let l := (s.cellPieces pid).map ans
  if l.contains .bad then .bad else if l.contains .hold then .hold else .ok

/-- The real-time reads of an output's cells enter the queues of their pseudo-channels (R396), or wait at the front end for a channel that
holds requests or sleeps, and are counted as they begin to wait (R398, R399, R401). -/
def State.issueRealTime (s : State) (o : Nat) (x : Output) (first : Bool) : State :=
  let y := { x with place := .finisher }
  let ps := (s.cellPieces x.desc.pid).filterMap (fun p => p)
  let ws := (ps.map (·.win)).eraseDups
  let held := ws.filter (fun w => decide (s.chanAvail w = .hold))
  let asleep := ws.filter (fun w => decide (s.chanAvail w = .ok) && (s.chan w).selfRefresh.isSome)
  if s.cellsAvail x.desc.pid = .ok ∧ asleep.isEmpty then
    let id := s.mem.nextId
    ((s.modMem (fun m => { m with nextId := id + 1 })).setOutput o { y with readId := some id }).enqueuePieces id false true ps
  else
    let s1 := s.setOutput o y
    if first then asleep.foldl (fun (s : State) w => s.count w 0x160) (held.foldl (fun (s : State) w => s.count w 0x164) s1) else s1

/-- The bytes of an output's cells that lie in a stack, and the columns of its reads that its pseudo-channels have still to serve. -/
def State.stackBytes (s : State) (k pid : Nat) : Nat :=
  sumOf ((s.cellPieces pid).filterMap (fun p => p)) (fun p => if (p.win - 284) / 16 = k then p.len else 0)
def State.columnsLeft (s : State) (k id : Nat) : Nat :=
  sumOf (List.range 32) (fun j => sumOf (s.sched (32 * k + j)).queue (fun r => if r.rt ∧ r.id = id then r.cols else 0))

/-- The bytes that the prefetch buffer of a stack holds, at most 128 KiB: those of cells read through its real-time port for outputs that Finisher has
still to edit (R396, log 40). -/
def State.prefetched (s : State) (k : Nat) : Nat :=
  min 131072 (sumOf s.drover.outs (fun e => match e.2.readId with
    | some id => if e.2.place = .finisher then s.stackBytes k e.2.desc.pid - 32 * s.columnsLeft k id else 0
    | none => 0))

/-- PANIC_ENTRY: the prefetch buffer of stack k holds less than low_kib (R396). None is entered in self-refresh (R401). -/
def execPanicEntry (k : Fin 2) (s : State) : Res :=
  let w := 282 + k.val
  if s.rf w 0x104 31 31 = 1 ∨ 1024 * s.rf w 0x100 11 0 ≤ s.prefetched k.val ∨ !s.stackAwake k.val then .next s
  else .next (((s.setRf w 0x104 31 31 1).count w 0x110).modMem (fun m => { m with panicSince := SMap.put m.panicSince k.val s.time.cycles,
                                                                                  panicCounted := SMap.put m.panicCounted k.val 0 }))

/-- PANIC_EXIT: the buffer holds high_kib or more, and the minimum has passed (R396). -/
def execPanicExit (k : Fin 2) (s : State) : Res :=
  let w := 282 + k.val
  match SMap.find s.mem.panicSince k.val with
  | some t =>
    if 1024 * s.rf w 0x100 23 12 ≤ s.prefetched k.val ∧ t + 64 * s.rf w 0x100 31 24 ≤ s.time.cycles then .next (s.endPanic k.val) else .next s
  | none => .next s

/-- FINISHER_TAKE_OUTPUT: Finisher takes the next output that lane n handed over and has its cells read (R359). -/
def execFinisherTakeOutput (n : Lane) (s : State) : Res :=
  if !s.finisherRuns then .next s
  else match s.selectedOf n.val with
    | [] => .next s
    | o :: rest =>
      let s1 := s.modDrover (fun d => { d with selected := SMap.set (fun _ => []) d.selected n.val rest })
      match s1.output o with
      | none => .next s1
      | some x =>
        let p := s1.port x.port
        let s2 := (s1.issueRealTime o x true).setPort x.port { p with txq := p.txq ++ [o] }
        if s2.portDead x.port then .next (s2.finisherDrop o x 56) else .next s2

/-- The codewords of a cell are read (R315, R405): whether one is uncorrectable, and the state with its errors logged. An
on-chip cell lies in instance 0 of Loft's memories. -/
def State.readCell (s : State) (ptr : Nat) : Bool × State :=
  if ptr < 0x80000000 then s.eccRead loftWin 0 (256 * ptr) 256
  else match s.bmMap (s.cellAddr ptr) with
    | some p => s.eccRead p.win p.inst p.addr 256
    | none => (true, s)

/-- The cells of a packet are read. -/
def State.readCells (s : State) (ptrs : List Nat) : Bool × State :=
  ptrs.foldl (fun acc p => let r := acc.2.readCell p; (acc.1 || r.1, r.2)) (false, s)

/-- A stretch of a packet's cells is read by a thread or for its header copy, the chain followed from the head: whether one of them is
uncorrectable or lies beyond unreadable metadata, and the state with its errors logged (R315, R405). -/
def State.readPacket (s : State) (pid first n : Nat) : Bool × State :=
  let c := s.packetCells pid
  let got := (c.1.drop first).take n
  let r := (((s.packet pid).bind (·.handle)).elim s s.followChain).readCells got
  (r.1 || (c.2 && decide (got.length < n)), r.2)

/-- The script has ended: the output waits for its MAC or internal port. -/
def State.editDone (s : State) (o : Nat) (x : Output) : State :=
  (s.setOutput o { x with place := .edited }).count finisherWin 0x100

/-- The cells of an output have been read: its frame, as they give it, stands to be edited; a mirror copy is cut to trunc × 64 bytes (R356). -/
def State.beginEdit (s : State) (o : Nat) (x : Output) (frame : List Byte) : State :=
  match x.desc.mirrorTrunc with
  | some t =>
    let cut := t ≠ 0 ∧ 64 * t < frame.length
    let s1 := if cut then s.count finisherWin 0x104 else s
    s1.editDone o { x with frame := if cut then frame.take (64 * t) else frame }
  | none =>
    if x.desc.script.isEmpty then s.editDone o { x with frame := frame }
    else s.setOutput o { x with frame := frame, place := .editing, opPos := 0 }

/-- CELL_READ_COMPLETE: the cells of output `o` have been read, and its reference to them is released (R312); an uncorrectable one, or one
on a channel that is OFF or FAILED, drops the output (R358, R384). Reads that a held channel has not taken, or that are not yet served, are still
awaited (R399). -/
def execCellReadComplete (o : Oid) (s : State) : Res :=
  match s.output o with
  | none => .next s
  | some x =>
    if x.place ≠ .finisher ∨ !s.finisherRuns then .next s
    else match s.packet x.desc.pid, x.readId with
      | none, _ => .next (s.finisherDrop o x 59)
      | some p, id =>
        if s.cellsAvail x.desc.pid = .bad then .next (s.finisherDrop o x 59)
        else match id with
          | none => if s.cellsAvail x.desc.pid = .hold then .next s else .next (s.issueRealTime o x false)
          | some id =>
            if !s.served id then .next s
            else
              let c := s.packetCells x.desc.pid
              let r := (p.handle.elim s s.followChain).readCells c.1
              if c.2 || r.1 then .next (r.2.finisherDrop o x 59) else .next ((r.2.beginEdit o x (s.packetData p)).releaseRef x.desc.pid)

/-! ### Edit scripts (R353, R354) -/

/-- The header word of the operation a script is at. -/
def Output.header (x : Output) : Nat := leNat (bytesAt x.desc.script x.opPos 4)
def Output.op (x : Output) : Nat := bitsOf x.header 3 0
def Output.off (x : Output) : Nat := bitsOf x.header 15 4
def Output.opLen (x : Output) : Nat := bitsOf x.header 24 16

/-- The bytes of data that stand behind a header (R354), and their length padded to words. -/
def dataLen (op len : Nat) : Nat :=
  match op with
  | 2 => len | 3 => len | 4 => 4 | 6 => 4 | _ => 0
def dataWords (op len : Nat) : Nat := (dataLen op len + 3) / 4 * 4

/-- The data of the operation. -/
def Output.data (x : Output) : List Byte := bytesAt x.desc.script (x.opPos + 4) (dataLen x.op x.opLen)

/-- The output behind the operation it is at. -/
def Output.advance (x : Output) : Output := { x with opPos := x.opPos + 4 + dataWords x.op x.opLen }

/-- An operation of output `o` is applied if its script is at that operation; an END, or the end of script_len, ends the
script. -/
def State.editStep (s : State) (o op : Nat) (f : Output → Output) : State :=
  match s.output o with
  | none => s
  | some x =>
    if x.place ≠ .editing ∨ x.op ≠ op ∨ !s.finisherRuns then s
    else
      let y := (f x).advance
      if op = 0 ∨ y.desc.script.length ≤ y.opPos then s.editDone o y else s.setOutput o y

/-- END: ends the script. -/
def execEditEnd (o : Oid) (s : State) : Res := .next (s.editStep o 0 id)

/-- DELETE: removes len bytes from off. -/
def execEditDelete (o : Oid) (s : State) : Res :=
  .next (s.editStep o 1 (fun x => { x with frame := x.frame.take x.off ++ x.frame.drop (x.off + x.opLen) }))

/-- INSERT: inserts the data before off. -/
def execEditInsert (o : Oid) (s : State) : Res :=
  .next (s.editStep o 2 (fun x => { x with frame := x.frame.take x.off ++ x.data ++ x.frame.drop x.off }))

/-- REPLACE: overwrites the bytes from off with the data. -/
def execEditReplace (o : Oid) (s : State) : Res :=
  .next (s.editStep o 3 (fun x => { x with frame := patchBytes x.frame x.off x.data }))

/-- CSUM_DIFF: the 16-bit field at off becomes ~(~HC + d). -/
def execEditCsumDiff (o : Oid) (s : State) : Res :=
  .next (s.editStep o 4 (fun x =>
    let w := leNat x.data
    { x with frame := patchBytes x.frame x.off (beBytes 2 (csumDiff (w.testBit 16) (beNat (bytesAt x.frame x.off 2)) (bitsOf w 15 0))) }))

/-- IPV4_CSUM: the header checksum is recomputed over IHL × 4 bytes; nothing is written if the header does not fit (R548). -/
def ipv4Csum (frame : List Byte) (off : Nat) : List Byte :=
  let ihl := (byteAt frame off).toNat % 16
  if ihl < 5 ∨ min frame.length 768 < off + 4 * ihl then frame
  else
    let h := patchBytes (bytesAt frame off (4 * ihl)) 10 [0, 0]
    patchBytes frame (off + 10) (beBytes 2 (0xFFFF - onesSum 0 h))
def execEditIpv4Csum (o : Oid) (s : State) : Res :=
  .next (s.editStep o 5 (fun x => { x with frame := ipv4Csum x.frame x.off }))

/-- TSTAMP: the MAC is to write the egress time (R357). -/
def execEditTstamp (o : Oid) (s : State) : Res :=
  .next (s.editStep o 6 (fun x => { x with tstamp := some (x.opLen, x.off, bitsOf (leNat x.data) 15 0) }))

/-- TRUNCATE: cuts the frame to off bytes if it is longer. -/
def execEditTruncate (o : Oid) (s : State) : Res :=
  .next (s.editStep o 7 (fun x => { x with frame := x.frame.take x.off }))

/-- RECIRC: the descriptor context for ports 33 and 35. -/
def execEditRecirc (o : Oid) (s : State) : Res :=
  .next (s.editStep o 8 (fun x => { x with recirc := some (x.off % 128) }))

/-! ### Ports 33 and 35 (R352) -/

/-- A looped or recirculated frame enters the receive buffer of port n as a new frame, or finds no room. -/
def State.loopFrame (s : State) (n o : Nat) (x : Output) : State :=
  if 32768 - s.rxHeld n < x.frame.length then
    if n = 35 then s.finisherDrop o x 57 else s
  else
    let f : RxFrame := ⟨x.frame, x.frame, s.time.ns, true, x.recirc, none, none, false, none, false, none⟩
    ((s.bufferFrame n f).count finisherWin 0x108).leaveOutput o x

/-- The next output of a port that is ready to leave Finisher. -/
def State.readyOutput (s : State) (n : Nat) : Option (Nat × Output) :=
  match (s.port n).txq with
  | o :: _ => match s.output o with
    | some x => if x.place = .edited then some (o, x) else none
    | none => none
  | [] => none

end Sys2Proof.Machine
end

