-- ==== Sys2Proof/Machine/Operands.lean ====
section
/-! DEFINITION. The instruction words of a Leaf: the formats of R220, which words are undefined (R221, R222), which may not
stand in a delay slot (R232), and the readings of immediates and offsets. -/

namespace Sys2Proof.Machine

/-! ### Formats (R220) -/

/-- A word of its fields' sum. -/
def wordOf (n : Nat) : Word32 := BitVec.ofNat 32 n

/-- Format R. -/
def encR (major gd gs gt func : Nat) : Word32 := wordOf (major * 2 ^ 26 + gd * 2 ^ 21 + gs * 2 ^ 16 + gt * 2 ^ 11 + func)

/-- Format I. -/
def encI (major gd gs imm : Nat) : Word32 := wordOf (major * 2 ^ 26 + gd * 2 ^ 21 + gs * 2 ^ 16 + imm)

/-- Format W. -/
def encW (gd hw op imm : Nat) : Word32 := wordOf (0x0A * 2 ^ 26 + gd * 2 ^ 21 + hw * 2 ^ 19 + op * 2 ^ 17 + imm)

/-- Format F. -/
def encF (gd gs op pos lenm1 : Nat) : Word32 :=
  wordOf (0x0B * 2 ^ 26 + gd * 2 ^ 21 + gs * 2 ^ 16 + op * 2 ^ 14 + pos * 2 ^ 8 + lenm1 * 4)

/-- Format B. -/
def encB (gs gt cond a off : Nat) : Word32 :=
  wordOf (0x10 * 2 ^ 26 + gs * 2 ^ 21 + gt * 2 ^ 16 + cond * 2 ^ 13 + a * 2 ^ 12 + off)

/-- Format BB. -/
def encBB (gs bit sense a off : Nat) : Word32 :=
  wordOf (0x11 * 2 ^ 26 + gs * 2 ^ 21 + bit * 2 ^ 15 + sense * 2 ^ 14 + a * 2 ^ 13 + off)

/-- Format J. -/
def encJ (major off : Nat) : Word32 := wordOf (major * 2 ^ 26 + off)

/-- Format L. -/
def encL (major g gs sz sx be off : Nat) : Word32 :=
  wordOf (major * 2 ^ 26 + g * 2 ^ 21 + gs * 2 ^ 16 + sz * 2 ^ 14 + sx * 2 ^ 13 + be * 2 ^ 12 + off)

/-- Format M. -/
def encM (major g gs ev e sp sz off : Nat) : Word32 :=
  wordOf (major * 2 ^ 26 + g * 2 ^ 21 + gs * 2 ^ 16 + ev * 2 ^ 11 + e * 2 ^ 10 + sp * 2 ^ 8 + sz * 2 ^ 6 + off)

/-- Format A. -/
def encA (gd gs gt ev op sp wd : Nat) : Word32 :=
  wordOf (0x1C * 2 ^ 26 + gd * 2 ^ 21 + gs * 2 ^ 16 + gt * 2 ^ 11 + ev * 2 ^ 6 + op * 2 ^ 3 + sp * 2 + wd)

/-- Format X. -/
def encX (major gl gs ev sp lenm1 : Nat) : Word32 :=
  wordOf (major * 2 ^ 26 + gl * 2 ^ 21 + gs * 2 ^ 16 + ev * 2 ^ 11 + sp * 2 ^ 9 + lenm1 * 2 ^ 3)

/-- Format CO. -/
def encCO (cp fn cd cs ct : Nat) : Word32 :=
  wordOf (0x38 * 2 ^ 26 + cp * 2 ^ 23 + fn * 2 ^ 15 + cd * 2 ^ 10 + cs * 2 ^ 5 + ct)

/-- Format CM. -/
def encCM (major cp g cr part : Nat) : Word32 :=
  wordOf (major * 2 ^ 26 + cp * 2 ^ 23 + g * 2 ^ 18 + cr * 2 ^ 13 + part * 2 ^ 11)

/-- Format CB. -/
def encCB (cp sense a off : Nat) : Word32 := wordOf (0x3B * 2 ^ 26 + cp * 2 ^ 23 + sense * 2 ^ 22 + a * 2 ^ 21 + off)

/-- Format CX: function fn of 10 bits, its top bit in the major opcode (R221). -/
def encCX (fn gd gs gt : Nat) : Word32 :=
  wordOf ((0x3C + fn / 512) * 2 ^ 26 + gd * 2 ^ 21 + gs * 2 ^ 16 + gt * 2 ^ 11 + fn % 512 * 4)

/-! ### Readings -/

/-- A signed field of n bits (R220). -/
def sextNat (n v : Nat) : Int := if v < 2 ^ (n - 1) then v else (v : Int) - 2 ^ n

/-- A 16-bit immediate, sign-extended and zero-extended (R234). -/
def simm (i : BitVec 16) : Word64 := i.signExtend 64
def zimm (i : BitVec 16) : Word64 := i.zeroExtend 64

/-- An instruction address from a base and a signed word offset, modulo the program store (R212, R230). -/
def branchTarget (pc n off : Nat) : Nat := ((pc : Int) + 4 * sextNat n off).emod 0x80000 |>.toNat

/-- The bytes of a size code (R220). -/
def sizeOf (sz : Nat) : Nat := 2 ^ sz

/-! ### Undefined words (R221, R222) -/

/-- The SPECIAL functions of R233. -/
def specialKnown (func gt : Nat) : Bool :=
  if func ∈ [0x002, 0x003, 0x028, 0x029, 0x02A, 0x02B, 0x02C, 0x02D, 0x042, 0x043] then gt = 0
  else func ≤ 0x014 ∨ (0x018 ≤ func ∧ func ≤ 0x01C) ∨ (0x020 ≤ func ∧ func ≤ 0x02D) ∨ (0x040 ≤ func ∧ func ≤ 0x043)
    ∨ (0x058 ≤ func ∧ func ≤ 0x05C) ∨ func = 0x060 ∨ (0x064 ≤ func ∧ func ≤ 0x067)

/-- The SYSTEM functions of R246 with their unused fields zero. -/
def systemKnown (func gd gs gt : Nat) : Bool :=
  match func with
  | 0x001 => gt = 0
  | 0x002 => true
  | 0x003 => gd = 0 ∧ gt = 0
  | 0x004 => gs = 0 ∧ gt = 0
  | 0x005 => gd = 0 ∧ gs = 0 ∧ gt = 0
  | 0x006 => gd = 0 ∧ gs = 0 ∧ gt = 0
  | 0x007 => gs = 0 ∧ gt = 0
  | 0x008 => gs = 0 ∧ gt < 12
  | 0x009 => gd = 0 ∧ gt < 12
  | 0x00A => gd = 0 ∧ gt < 8
  | 0x00B => gd = 0 ∧ gs = 0 ∧ gt < 3
  | 0x00C => gd = 0 ∧ gs = 0 ∧ gt = 0
  | 0x010 => true
  | 0x011 => true
  | 0x012 => gd = 0 ∧ gt = 0
  | _ => false

/-- Whether a word is a defined instruction: its major, its function, its reserved fields and reserved values (R222). What
depends on more than the word is checked at the instruction. -/
def leafKnown (w : Word32) : Bool :=
  let f (hi lo : Nat) : Nat := fld w hi lo
  let m := f 31 26
  if m = 0x00 then specialKnown (f 10 0) (f 15 11)
  else if m ≤ 0x08 then true
  else if m = 0x09 then f 8 6 ≤ 3 ∧ f 15 10 = 0
  else if m = 0x0A then f 18 17 ≠ 3 ∧ f 16 16 = 0
  else if m = 0x0B then f 15 14 ≠ 3 ∧ f 1 0 = 0
  else if m = 0x10 then f 15 13 ≤ 5
  else if m = 0x11 ∨ m = 0x12 ∨ m = 0x13 then true
  else if m = 0x14 then f 15 11 = 0 ∧ ((f 10 0 = 0 ∧ f 25 21 = 0) ∨ f 10 0 = 1)
  else if m = 0x18 then ¬ (f 12 12 = 1 ∧ f 15 14 = 0) ∧ ¬ (f 13 13 = 1 ∧ f 15 14 = 3)
  else if m = 0x19 then ¬ (f 12 12 = 1 ∧ f 15 14 = 0) ∧ f 13 13 = 0
  else if m = 0x1A then f 10 10 = 1
  else if m = 0x1B then f 9 8 ≠ 3
  else if m = 0x1C then f 2 1 ≠ 3
  else if m = 0x1D then f 2 0 = 0
  else if m = 0x1E then f 2 0 = 0 ∧ f 10 9 ≠ 3
  else if m = 0x20 then systemKnown (f 10 0) (f 25 21) (f 20 16) (f 15 11)
  else if m = 0x38 then true
  else if m = 0x39 ∨ m = 0x3A then f 10 0 = 0
  else if m = 0x3B then f 20 12 = 0
  else if m = 0x3C ∨ m = 0x3D then f 1 0 = 0
  else false

/-- Whether a word must not stand in a delay slot (R232). -/
def noDelaySlot (w : Word32) : Bool :=
  let m := fld w 31 26
  decide (0x10 ≤ m ∧ m ≤ 0x14) || m == 0x3B || m == 0x3C || m == 0x3D
    || (m == 0x20 && [0x001, 0x002, 0x004, 0x005, 0x006, 0x00B].contains (fld w 10 0))

end Sys2Proof.Machine
end

