-- ==== Sys2Proof/Machine/Flags.lean ====
section
/-! DEFINITION. The results of arithmetic with the flags V and DZ they set (R233 to R236): operands are read as integers,
the exact result is computed and narrowed, and V is their difference. -/

namespace Sys2Proof.Machine

/-- A result with the flags it sets. -/
structure Flagged where
  val : Word64
  v : Bool
  dz : Bool
  deriving DecidableEq, Repr

/-- A result that sets no flag. -/
def plain (x : Word64) : Flagged := ⟨x, false, false⟩

/-- Whether an exact signed result does not fit n bits. -/
def overflows (n : Nat) (x : Int) : Bool := decide ((BitVec.ofInt n x).toInt ≠ x)

/-- A signed result narrowed to n bits and sign-extended to 64 (R235). -/
def narrow (n : Nat) (x : Int) : Word64 := (BitVec.ofInt n x).signExtend 64

/-- A result that may overflow (V). -/
def signedOut (n : Nat) (x : Int) : Flagged := ⟨narrow n x, overflows n x, false⟩

/-- The low n bits of a register. -/
def lowBits (n : Nat) (x : Word64) : BitVec n := x.setWidth n

/-- ADD, SUB, NEG, ABS and MUL at width n. -/
def addF (n : Nat) (a b : Word64) : Flagged := signedOut n ((lowBits n a).toInt + (lowBits n b).toInt)
def subF (n : Nat) (a b : Word64) : Flagged := signedOut n ((lowBits n a).toInt - (lowBits n b).toInt)
def negF (n : Nat) (a : Word64) : Flagged := signedOut n (-(lowBits n a).toInt)
def absF (n : Nat) (a : Word64) : Flagged := signedOut n ((lowBits n a).toInt.natAbs : Int)
def mulF (n : Nat) (a b : Word64) : Flagged := signedOut n ((lowBits n a).toInt * (lowBits n b).toInt)

/-- DIV and REM at width n: a zero divisor sets DZ, with every bit of the quotient 1 and the dividend as remainder. -/
def divF (n : Nat) (a b : Word64) : Flagged :=
  if (lowBits n b).toInt = 0 then ⟨BitVec.allOnes 64, false, true⟩
  else signedOut n ((lowBits n a).toInt.tdiv (lowBits n b).toInt)
def remF (n : Nat) (a b : Word64) : Flagged :=
  if (lowBits n b).toInt = 0 then ⟨narrow n (lowBits n a).toInt, false, true⟩
  else ⟨narrow n ((lowBits n a).toInt.tmod (lowBits n b).toInt), overflows n ((lowBits n a).toInt.tdiv (lowBits n b).toInt), false⟩

/-- DIVU and REMU at width n. -/
def divuF (n : Nat) (a b : Word64) : Flagged :=
  if (lowBits n b).toNat = 0 then ⟨BitVec.allOnes 64, false, true⟩
  else plain (narrow n ((lowBits n a).toNat / (lowBits n b).toNat : Nat))
def remuF (n : Nat) (a b : Word64) : Flagged :=
  if (lowBits n b).toNat = 0 then ⟨narrow n (lowBits n a).toInt, false, true⟩
  else plain (narrow n ((lowBits n a).toNat % (lowBits n b).toNat : Nat))

/-- The high halves of products (R233). -/
def mulhV (a b : Word64) : Word64 := BitVec.ofInt 64 ((a.toInt * b.toInt) / 2 ^ 64)
def mulhuV (a b : Word64) : Word64 := BitVec.ofNat 64 (a.toNat * b.toNat / 2 ^ 64)
def mulhsuV (a b : Word64) : Word64 := BitVec.ofInt 64 ((a.toInt * (b.toNat : Int)) / 2 ^ 64)

/-- Shifts and rotations at width n by a full 64-bit count (R235), sign-extended. -/
def sllV (n : Nat) (a c : Word64) : Word64 := (if n ≤ c.toNat then 0#n else lowBits n a <<< c.toNat).signExtend 64
def srlV (n : Nat) (a c : Word64) : Word64 := (if n ≤ c.toNat then 0#n else lowBits n a >>> c.toNat).signExtend 64
def sraV (n : Nat) (a c : Word64) : Word64 := ((lowBits n a).sshiftRight (min c.toNat n)).signExtend 64
def rolV (n : Nat) (a c : Word64) : Word64 := ((lowBits n a).rotateLeft (c.toNat % n)).signExtend 64
def rorV (n : Nat) (a c : Word64) : Word64 := ((lowBits n a).rotateRight (c.toNat % n)).signExtend 64

/-- A truth value as a register. -/
def boolV (b : Bool) : Word64 := if b then 1 else 0

/-- Leading zeros, trailing zeros and ones (R233). -/
def clzV (a : Word64) : Word64 := BitVec.ofNat 64 (((List.range 64).takeWhile (fun i => !a.getLsbD (63 - i))).length)
def ctzV (a : Word64) : Word64 := BitVec.ofNat 64 (((List.range 64).takeWhile (fun i => !a.getLsbD i)).length)
def popcV (a : Word64) : Word64 := BitVec.ofNat 64 ((List.range 64).countP (fun i => a.getLsbD i))

/-- The low n bytes reversed, zero-extended (REV, REV4, REV2). -/
def revV (n : Nat) (a : Word64) : Word64 := BitVec.ofNat 64 (leNat (leBytes n a.toNat).reverse)

/-- Bit fields (R234): EXTU, EXTS and INS. -/
def extuV (a : Word64) (pos len : Nat) : Word64 := BitVec.ofNat 64 ((a.toNat >>> pos) % 2 ^ len)
def extsV (a : Word64) (pos len : Nat) : Word64 := (BitVec.ofNat len (a.toNat >>> pos)).signExtend 64
def insV (d a : Word64) (pos len : Nat) : Word64 :=
  let mask : Word64 := BitVec.ofNat 64 ((2 ^ len - 1) <<< pos)
  (d &&& ~~~mask) ||| (BitVec.ofNat 64 (a.toNat <<< pos) &&& mask)

/-- Bits 16hw + 15 to 16hw replaced (MOVK). -/
def movkV (d : Word64) (imm : BitVec 16) (hw : Nat) : Word64 := insV d (zimm imm) (16 * hw) 16

end Sys2Proof.Machine
end

