-- ==== Sys2Proof/Machine/Tedder.lean ====
section
/-! DEFINITION. The meanings of Tedder's commands (02_tedder_parsing.md): parses, hand-over to Windrow, graph banks and the
fragment table. -/

namespace Sys2Proof.Machine

/-- The parse graph of a bank (R52, R545: an empty bank reads zero). -/
def State.graphBank (s : State) (b : Bool) : List Byte := if b then s.tedder.bank1 else s.tedder.bank0

/-- A bank takes a graph image. -/
def State.setGraphBank (s : State) (b : Bool) (g : List Byte) : State :=
  { s with tedder := if b then { s.tedder with bank1 := g } else { s.tedder with bank0 := g } }

/-- The graph_id of an image (R52). -/
def graphId (g : List Byte) : Nat := leNat (bytesAt g 0x40 2)

/-- Device time as the FABRIC domain reads it (R32): the time unit's own count. -/
def State.now (s : State) : Nat := s.time.ns.toNat

/-- The bank the lanes parse with: the active one once they have seen the switch (R58). -/
def State.activeBank (s : State) : Bool := s.tedder.seenActive

/-- The context of a packet's parse (R50). -/
def State.packetCtx (s : State) (p : Packet) : Nat :=
  let v := s.reg tedderWin (0x100 + 4 * p.port)
  match p.descCtx with
  | some c => if fld v 8 8 = 1 then c % 128 else fld v 6 0
  | none => fld v 6 0

/-- PARSE_BEGIN: a lane parses the window of an admitted packet (R55), with the context and the bank of this moment
(R58, R59). Nothing happens before the window is there. -/
def execParseBegin (p : Pid) (s : State) : Res :=
  match s.packet p with
  | some k =>
    let ctx := s.packetCtx k
    let bank := s.activeBank
    let g := s.graphBank bank
    let want := ctxWindow g ctx
    if k.place = .rx ∧ (k.complete ∨ want ≤ k.bytes.length) ∧ s.serving tedderWin ∧ s.serving (402 + laneOf k.port) then
      let w := parseWindow g bank ctx k.port k.ts (k.bytes.take want)
      .next (s.setPacket p { k with place := .parsed, parse := some w, fragMissAction := w.fragMissAction })
    else .next s
  | none => .next s

/-- Whether a packet is the oldest of its port in its Tedder lane: a port's packets leave in the order Loft admitted them, those of other ports
in any (R33, R46, R49). -/
def State.oldestInTedder (s : State) (pid : Nat) (k : Packet) : Bool :=
  s.packets.all (fun e => decide (pid ≤ e.1) || decide (e.2.port ≠ k.port)
    || !(decide (e.2.place = .rx) || decide (e.2.place = .parsed)))

/-- The live entries of the fragment table (R71). -/
def State.fragLive (s : State) (key : Nat) : Option FragEntry :=
  match SMap.find s.tedder.frags key with
  | some e => if s.now < e.created + e.ageMs * 1000000 then some e else none
  | none => none

/-- The fragment step as a packet leaves Tedder (R69, R72): a first fragment creates or replaces its entry, a non-first one
is bound to the generation it finds; a first one to its own. The flag says FRAG_NO_ENTRY. DEDUCED (log 105): enable counts as it stands when the
packet leaves, and an entry that replaces another counts as replaced and not also as created. -/
def State.fragLeave (s : State) (w : Walk) : FragBind × Option Nat × Bool × State :=
  let enabled := s.rf tedderWin 0x210 31 31 = 1
  if ¬ enabled ∨ ¬ (w.fragFirst ∨ w.fragLater) then (.notLooked, none, false, s)
  else if w.fragLater then
    match s.fragLive w.fragKey with
    | some e => (.bound w.fragKey e.gen, none, false, s.count tedderWin 0x224)
    | none => (.noEntry, none, false, s)
  else
    let live := (s.fragLive w.fragKey).isSome
    let had := (SMap.find s.tedder.frags w.fragKey).isSome
    if ¬ live ∧ ¬ had ∧ 65536 ≤ s.tedder.frags.length then (.notLooked, none, true, s.count tedderWin 0x228)
    else
      let e : FragEntry := ⟨s.tedder.nextGen, false, 0, s.now, s.rf tedderWin 0x210 15 0⟩
      let s := if had ∧ ¬ live then s.count tedderWin 0x234 else s
      let s := { s with tedder := { s.tedder with frags := SMap.put s.tedder.frags w.fragKey e, nextGen := s.tedder.nextGen + 1 } }
      let s := (s.writeItem tedderWin 0 w.fragKey).count tedderWin (if live then 0x22C else 0x220)
      let s := s.setRf tedderWin 0x214 16 0 s.tedder.frags.length
      let s := if ¬ had ∧ s.tedder.frags.length = 65536 then s.setEvent tedderWin 0x240 0 else s
      (.bound w.fragKey e.gen, some w.fragKey, false, s)

/-- The fragment table is read for a packet that looks into it: whether the entry is uncorrectable (R405). -/
def State.fragRead (s : State) (w : Walk) : Bool × State :=
  if s.rf tedderWin 0x210 31 31 = 1 ∧ (w.fragFirst ∨ w.fragLater) then s.readItem tedderWin 0 w.fragKey else (false, s)

/-- Tedder's counters, once per packet (R75). -/
def State.countParsed (s : State) (port : Nat) (w : Walk) (e : ParseEnd) (dropped : Bool) : State :=
  let c (b : Bool) (k : Nat) (s : State) : State := if b then s.count tedderWin (0x1000 + 0x20 * port + 4 * k) else s
  let s := c true 0 s
  let s := c w.deep 1 s
  let s := c e.truncated 2 s
  let s := c e.reason.isSome 3 s
  let s := c dropped 4 s
  let s := c (decide (e.pad ≠ 0)) 6 s
  match e.reason with
  | some r => s.count tedderWin (0x4000 + 4 * (64 * port + r))
  | none => s

/-- The most severe of two actions, DROP before EXCEPTION before CONTINUE (R67). -/
def severer (a b : Nat) : Nat := min a b

/-- RECORD_HANDOFF: the parse has ended and the frame is complete (R49): the checks that need its length are made, and the
packet is handed to its Windrow lane or dropped (R67, R68). A packet that is not the oldest of its port there, or whose
Windrow lane takes nothing, stays. -/
def execRecordHandoff (p : Pid) (s : State) : Res :=
  match s.packet p with
  | some k =>
    match k.parse with
    | some w =>
      if k.place ≠ .parsed ∨ ¬ k.complete ∨ ¬ s.oldestInTedder p k then .next s
      else
        let e := w.finish k.bytes false
        let mal := match e.reason with
          | some r => malActionOf w.malAction r
          | none => 3
        let tr := if e.truncated then w.truncAction else 3
        if severer mal tr = 1 then
          .next ((s.countParsed k.port w e true).dropPacket p (s.defaultTenant k.port) 39)
        else if s.windrowStalled (laneOf k.port) then .next s
        else if (s.fragRead w).1 then .next (((s.fragRead w).2.countParsed k.port w e true).dropPacket p (s.defaultTenant k.port) 59)
        else
          match (s.fragRead w).2.fragLeave w with
          | (fb, ffk, noEntry, s') =>
            let e := w.finish k.bytes noEntry
            let exc := if mal = 2 then e.reason else if tr = 2 then some 0x40 else none
            let s := s'.countParsed k.port w e false
            let s := s.setPacket p { k with place := .handed, record := e.record, exc := exc, fragBind := fb, fragFirstKey := ffk }
            let lane := laneOf k.port
            .next { s with windrow := { s.windrow with lanes := SMap.set (fun _ => []) s.windrow.lanes lane (s.windrowLane lane ++ [p]) } }
    | none => .next s
  | none => .next s

/-- GRAPH_SWITCH: a write of switch (R58): refused while the standby bank holds no graph or a switch is pending. The bank that was active
becomes the standby bank, with the graph it holds, if any (R545). -/
def execGraphSwitch (s : State) : Res :=
  let v := s.reg tedderWin 0x200
  if fld v 8 8 = 0 ∨ fld v 9 9 = 1 then .next (s.setRf tedderWin 0x200 10 10 1)
  else
    let ids := s.reg tedderWin 0x204
    let held : Nat := bit (!(s.graphBank (fld v 0 0 = 1)).isEmpty)
    let s := s.setReg tedderWin 0x200 (putFld (putFld (putFld v 9 9 1) 8 8 held) 0 0 (1 - fld v 0 0))
    .next (s.setReg tedderWin 0x204 (putFld (putFld ids 31 16 (fld ids 15 0)) 15 0 (fld ids 31 16)))

/-- A graph is written into both banks, by START or UPDATE of the group (R545). -/
def State.loadBothBanks (s : State) (g : List Byte) : State :=
  (((s.setGraphBank false g).setGraphBank true g).setRf tedderWin 0x200 8 8 1).setReg tedderWin 0x204 (BitVec.ofNat 32 (graphId g * 65536 + graphId g))

/-- A graph is loaded into the standby bank (R58). -/
def State.loadStandby (s : State) (g : List Byte) : State :=
  let standby := s.rf tedderWin 0x200 0 0 = 0
  ((s.setGraphBank standby g).setRf tedderWin 0x200 8 8 1).setRf tedderWin 0x204 15 0 (graphId g)

/-- GRAPH_SWITCH_DONE: every lane has seen the switch: switch_pending clears, and a standby load that waited is made
(R58). -/
def execGraphSwitchDone (s : State) : Res :=
  if s.rf tedderWin 0x200 9 9 = 1 then
    let s := { s with tedder := { s.tedder with seenActive := s.rf tedderWin 0x200 0 0 = 1 } }
    .next ((s.setRf tedderWin 0x200 9 9 0).setEvent tedderWin 0x240 1)
  else .next s

/-- STANDBY_LOAD_DONE: a standby load that is under way ends, unless a switch is pending (R58). -/
def execStandbyLoadDone (s : State) : Res :=
  match s.tedder.loadWaiting with
  | some g =>
    if s.rf tedderWin 0x200 9 9 = 1 then .next s
    else .next ({ s with tedder := { s.tedder with loadWaiting := none } }.loadStandby g)
  | none => .next s

/-- FRAG_AGE_OUT: an entry whose life has ended leaves the table (R71). -/
def execFragAgeOut (entry : Nat) (s : State) : Res :=
  match SMap.find s.tedder.frags entry with
  | some e =>
    if e.created + e.ageMs * 1000000 ≤ s.now then
      let s := { s with tedder := { s.tedder with frags := SMap.erase s.tedder.frags entry } }
      .next ((s.count tedderWin 0x234).setRf tedderWin 0x214 16 0 s.tedder.frags.length)
    else .next s
  | none => .next s

end Sys2Proof.Machine
end

