-- ==== Sys2Proof/Machine/Warren.lean ====
section
/-! DEFINITION. Warren: hashed tables, their cache, lookups, ownership, inserts with displacement, and the learn engine's rules
(05_warren_tables_and_learning.md). The commands' meanings stand in WarrenCommands. -/

namespace Sys2Proof.Machine

/-! ### Tables (R114 to R119) -/

/-- WARREN_TBL_CFG_t and its fields. -/
def State.wtCfg (s : State) (t hi lo : Nat) : Nat := s.rf warrenWin (0x1000 + 0x100 * t) hi lo
def State.wtPlace (s : State) (t : Nat) : Nat := s.wtCfg t 31 30
def State.wtSize (s : State) (t : Nat) : Nat := if s.wtCfg t 29 29 = 1 then 128 else 64
def State.wtBuckets (s : State) (t : Nat) : Nat := 2 ^ s.wtCfg t 28 24
def State.wtKeyLen (s : State) (t : Nat) : Nat := s.wtCfg t 23 17
def State.wtBase (s : State) (t : Nat) : Nat := s.rf warrenWin (0x1004 + 0x100 * t) 29 0 * 4096

/-- Where bucket b of a table begins (R116). -/
def State.wtAddr (s : State) (t b : Nat) : Nat := s.wtBase t + b * (4 * s.wtSize t)

/-- A counter of a table, and of Warren. -/
def State.wtCount (s : State) (t k : Nat) : State := s.count warrenWin (0x1040 + 0x100 * t + 4 * k)
def State.wCount (s : State) (k : Nat) : State := s.count warrenWin (0x180 + 4 * k)

/-- WARREN_LOG captures an event: its cause, the table and the index. -/
def State.wLog (s : State) (cause t index : Nat) : State :=
  s.setReg warrenWin 0x110 (BitVec.ofNat 32 (cause * 2 ^ 30 + t * 2 ^ 26 + index))

/-- CRC-32C with another initial value (R116, R119). -/
def crc32cFrom (init : Nat) (data : List Byte) : Nat := crcReflected 0x82F63B78 init data ^^^ 0xFFFFFFFF

/-- The key of a table: cut or zero-padded to key_len bytes. -/
def State.wtKey (s : State) (t : Nat) (key : List Byte) : List Byte := fitBytes key (s.wtKeyLen t)

/-- The candidate buckets of a key (R116). -/
def State.candidates (s : State) (t : Nat) (key : List Byte) : Nat × Nat :=
  let k := s.wtKey t key
  let n := s.wtBuckets t
  let b0 := crc32c (0 :: BitVec.ofNat 8 t :: k) % n
  let b1 := crc32c (1 :: BitVec.ofNat 8 t :: k) % n
  (b0, if b1 = b0 then b0 ^^^ 1 else b1)

/-- Flag bit i of an entry (R118). -/
def entFlag (e : List Byte) (i : Nat) : Bool := (byteAt e 0).getLsbD i

/-- An entry with flag bit i set to a value. -/
def entSetFlag (e : List Byte) (i : Nat) (v : Bool) : List Byte :=
  let m : Byte := 1 <<< i
  patchBytes e 0 [if v then byteAt e 0 ||| m else byteAt e 0 &&& ~~~m]

/-- Fields of an entry. -/
def entPort (e : List Byte) : Nat := (byteAt e 1).toNat % 64
def entAction (e : List Byte) : Word128 := BitVec.ofNat 128 (leNat (bytesAt e 0x10 16))
def entKey (e : List Byte) : List Byte := e.drop 0x20

/-- The check code of an entry in bucket b of table t (R119). -/
def entCheck (t b : Nat) (e : List Byte) : Nat :=
  crc32cFrom ((t <<< 27) ^^^ b) ((byteAt e 0 &&& 0xDB) :: byteAt e 1 :: e.drop 0x10)

/-- The flag bits of WARREN_STATUS for an entry. -/
def entStatus (e : List Byte) : Nat :=
  bit (entFlag e 0) * 2 ^ 9 + bit (entFlag e 1) * 2 ^ 10 + bit (entFlag e 2) * 2 ^ 11 + bit (entFlag e 3) * 2 ^ 12
    + bit (entFlag e 5) * 2 ^ 13 + entPort e * 2 ^ 14

/-- A new entry: flags byte, port, action word and key (R118, R125, R134). -/
def newEntry (size : Nat) (static learned : Bool) (port : Nat) (action : Word128) (key : List Byte) : List Byte :=
  let flags := 1 + 2 * bit static + 4 + 8 * bit learned + 16 * bit (size = 128)
  fitBytes (leBytes 1 flags ++ leBytes 15 port ++ leBytes 16 action.toNat ++ key) size

/-! ### Buckets and the cache (R121 to R123) -/

/-- What reading buckets is answered: done (with a bucket read from memory or not), a wait for memory or tokens, or an
uncorrectable error in the named bucket. -/
inductive WRead where
  | ok (fromMem : Bool)
  | wait
  | bad (bucket : Nat)

/-- The cached line of an address. -/
def State.wLine (s : State) (table : Bool) (a : Nat) : Option WarrenLine :=
  s.warren.lines.find? (fun l => l.table == table && l.addr == a)

/-- An uncorrectable error in a bucket (R123). -/
def State.wBad (s : State) (t b : Nat) : State := ((s.wCount 11).setEvent warrenWin 0x10C 5).wLog 3 t (4 * b)

/-- The table and bucket that a line of the cache holds. -/
def State.lineBucket (s : State) (l : WarrenLine) : Nat × Nat :=
  let t := ((List.range 16).find? (fun t => decide (s.wtPlace t = (if l.table then 2 else 1)) && decide (s.wtBase t ≤ l.addr)
    && decide (l.addr < s.wtAddr t (s.wtBuckets t)))).getD 0
  (t, (l.addr - s.wtBase t) / (4 * s.wtSize t))

/-- A dirty line is written back to its memory, or waits to be (false); where its channel is OFF or FAILED the write is not performed and is
an uncorrectable error (R122, R384, R390). -/
def State.wStore (s : State) (l : WarrenLine) : Bool × State :=
  if !l.dirty then (true, s)
  else match s.unitGate (.packets l.table l.addr) l.table true l.addr l.data.length with
    | (.bad, s1) => (true, s1.wBad (s1.lineBucket l).1 (s1.lineBucket l).2)
    | (.hold, s1) => (false, s1)
    | (.ok, s1) => (true, s1.unitPut l.table l.addr l.data)

/-- The bytes of the unpinned part of the cache. -/
def State.wCapacity (s : State) : Nat := (32 - s.rf warrenWin 0x100 4 0 - (if s.fallowHolds then 4 else 0)) * 0x100000

/-- The least recently used lines leave, dirty ones written back, until the unpinned part has room for `n` bytes more (R122); false where a
line still waits to be written. -/
def State.wEvict (s : State) (n : Nat) : Nat → Bool × State
  | 0 => (true, s)
  | fuel + 1 =>
    if s.wCapacity < sumOf s.warren.lines (fun l => l.data.length) + n then
      match s.warren.lines with
      | [] => (true, s)
      | l :: rest => match s.wStore l with
        | (false, s1) => (false, s1)
        | (true, s1) => (s1.modWarren (fun w => { w with lines := rest })).wEvict n fuel
    else (true, s)

/-- Every dirty line that may be written now is written back (DRAIN, R122). -/
def State.wWriteBack (s : State) : State :=
  (s.warren.lines.filter (·.dirty)).foldl (fun (s : State) l => match s.wStore l with
    | (true, s1) => s1.modWarren (fun w => { w with lines := w.lines.map (fun x => if x = l then { x with dirty := false } else x) })
    | (false, s1) => s1) s

/-- The bucket being read at an address, as far as it is read, and it replaced. -/
def State.wFill (s : State) (table : Bool) (a : Nat) : WarrenFill :=
  (s.warren.fills.find? (fun f => f.table == table && f.addr == a)).getD ⟨table, a, [], false⟩
def State.dropFill (s : State) (table : Bool) (a : Nat) : State :=
  s.modWarren (fun w => { w with fills := w.fills.filter (fun f => f.table != table || f.addr != a) })
def State.setFill (s : State) (f : WarrenFill) : State := (s.dropFill f.table f.addr).modWarren (fun w => { w with fills := w.fills ++ [f] })

/-- Who reads for Warren: a writer of a Commons class at a window of its own, or, with none, Windrow and threads, which draw no tokens. -/
abbrev WSource := Option (Nat × Nat)

/-- The source of R36 that a reader is, and its token for one line of a memory (R391, R420). -/
def unitOf (src : WSource) (table : Bool) (a : Nat) : UnitSrc :=
  match src with
  | none => .packets table a
  | some (w, c) => .activity w c
def State.wLineToken (s : State) (src : WSource) (table : Bool) : Bool × State :=
  match src with
  | none => (true, s)
  | some (_, c) => s.draw c (bit table)

/-- The lines of a bucket of `n` bytes at an address are read in turn, each as its token is drawn (R421): whether all are read by now. -/
def State.fillOn (s : State) (src : WSource) (table : Bool) (a n : Nat) : Nat → Bool × State
  | 0 => (decide (n ≤ (s.wFill table a).data.length), s)
  | fuel + 1 =>
    let f := s.wFill table a
    let at' := a + f.data.length
    if n ≤ f.data.length then (true, s)
    else match s.unitGate (unitOf src table a) table false at' 64 with
      | (.bad, s1) => (s1.setFill { f with data := f.data ++ List.replicate 64 0, bad := true }).fillOn src table a n fuel
      | (.hold, s1) => (false, s1)
      | (.ok, s1) => match s1.wLineToken src table with
        | (false, s2) => (false, s2)
        | (true, s2) =>
          let r := s2.unitGet table at' 64
          (r.2.2.setFill { f with data := f.data ++ r.2.1, bad := f.bad || r.1 }).fillOn src table a n fuel

/-- Bucket b of table t is read into reach: pinned, cached, or allocated once its lines are read from memory (R122, R420, R421). -/
def State.wLoad (s : State) (t b : Nat) (src : WSource) : WRead × State :=
  let a := s.wtAddr t b
  let n := 4 * s.wtSize t
  if s.wtPlace t = 3 then
    let r := s.eccRead warrenWin 0 a n
    if r.1 then (.bad b, r.2.wBad t b) else (.ok false, r.2)
  else
    let table := decide (s.wtPlace t = 2)
    match s.wLine table a with
    | some l => (.ok false, s.modWarren (fun w => { w with lines := w.lines.erase l ++ [l] }))
    | none => match s.fillOn src table a n 8 with
      | (false, s1) => (.wait, s1)
      | (true, s1) =>
        let f := s1.wFill table a
        if f.bad then (.bad b, (s1.dropFill table a).wBad t b)
        else match s1.wEvict n (s1.warren.lines.length + 1) with
          | (false, s2) => (.wait, s2)
          | (true, s2) => (.ok true, (s2.dropFill table a).modWarren (fun w => { w with lines := w.lines ++ [⟨table, a, f.data, false⟩] }))

/-- The buckets of a list are read in turn, without tokens. -/
def State.wLoadAll (s : State) (t : Nat) (mem : Bool) : List Nat → WRead × State
  | [] => (.ok mem, s)
  | b :: bs => match s.wLoad t b none with
    | (.ok m, s1) => s1.wLoadAll t (mem || m) bs
    | r => r

/-- Whether a read of a bucket would have to wait for its memory. -/
def State.wHolds (s : State) (t b : Nat) : Bool :=
  let table := decide (s.wtPlace t = 2)
  decide (s.wtPlace t ≠ 3) && (s.wLine table (s.wtAddr t b)).isNone
    && decide (s.memAvail table (s.wtAddr t b) (4 * s.wtSize t) = .hold)

/-- The bytes of a bucket in reach. -/
def State.wBucket (s : State) (t b : Nat) : List Byte :=
  let a := s.wtAddr t b
  let n := 4 * s.wtSize t
  if s.wtPlace t = 3 then Memory.readBytes s.warren.pin a n
  else match s.wLine (decide (s.wtPlace t = 2)) a with
    | some l => l.data
    | none => List.replicate n 0

/-- Way w of bucket b. -/
def State.way (s : State) (t b w : Nat) : List Byte := bytesAt (s.wBucket t b) (w * s.wtSize t) (s.wtSize t)

/-- The lowest-numbered free way of a bucket. -/
def State.freeWay (s : State) (t b : Nat) : Option Nat := (List.range 4).find? (fun w => !entFlag (s.way t b w) 0)

/-- A bucket's bytes are replaced in the cache. -/
def State.wPut (s : State) (t b : Nat) (data : List Byte) : State :=
  let a := s.wtAddr t b
  if s.wtPlace t = 3 then
    (s.modWarren (fun w => { w with pin := Memory.writeBytes w.pin a data })).eccWrite warrenWin 0 a data.length
  else
    let table := decide (s.wtPlace t = 2)
    s.modWarren (fun w => { w with lines := w.lines.map (fun l => if l.table == table && l.addr == a then { l with data := data, dirty := true } else l) })

/-- A way is written whole, with its check code, and the table's entries are counted (R40, R119). -/
def State.setWay (s : State) (t b w : Nat) (e : List Byte) : State :=
  let had := bit (entFlag (s.way t b w) 0)
  let e' := patchBytes e 4 (leBytes 4 (entCheck t b e))
  let s1 := s.wPut t b (patchBytes (s.wBucket t b) (w * s.wtSize t) e')
  let off := 0x100C + 0x100 * t
  s1.setRf warrenWin off 26 0 (s1.rf warrenWin off 26 0 + bit (entFlag e 0) - had)

/-- A hit bit is set or cleared at the cache; the check code does not cover it (R119, R124). -/
def State.setHit (s : State) (t b w : Nat) (v : Bool) : State :=
  s.wPut t b (patchBytes (s.wBucket t b) (w * s.wtSize t) (entSetFlag (s.way t b w) 2 v))

/-- A way whose check code fails is invalidated (R123). -/
def State.checkFail (s : State) (t b w : Nat) : State :=
  let s1 := s.setWay t b w (entSetFlag (s.way t b w) 0 false)
  ((s1.wCount 10).setEvent warrenWin 0x10C 3).wLog 2 t (4 * b + w)

/-- The way that holds a key in the buckets in reach; ways with a wrong check code are invalidated on the way (R117, R123). -/
def State.findKey (s : State) (t : Nat) (key : List Byte) (bs : List Nat) : Option (Nat × Nat) × State :=
  (bs.flatMap (fun b => (List.range 4).map (fun w => (b, w)))).foldl (fun (acc : Option (Nat × Nat) × State) p =>
    let e := acc.2.way t p.1 p.2
    if acc.1.isSome || !entFlag e 0 || bytesAt e 0x20 (acc.2.wtKeyLen t) != key then acc
    else if leNat (bytesAt e 4 4) = entCheck t p.1 e then (some p, acc.2)
    else (none, acc.2.checkFail t p.1 p.2)) (none, s)

/-! ### Engines and lookups (R120, R124, R144) -/

/-- The engine that serves the requesters of engine e: the next IN_SERVICE one, if any (R144). -/
def State.warrenRoute (s : State) (e : Nat) : Option Nat :=
  ((List.range 4).map (fun k => (e + k) % 4)).find? (fun x => s.inService (warrenEngineWin x))

/-- The engine that takes a new request of a requester of engine e which has requests in flight at the engines of a list: none while one of
them is another engine (R36, R144). -/
def State.routeFor (s : State) (e : Nat) (flying : List Nat) : Option Nat :=
  (s.warrenRoute e).filter (fun x => flying.all (· == x))

/-- Whether a packet's Warren lookup is in flight at an engine. -/
def Packet.atEngine (p : Packet) : Bool := p.place == .classifying && p.learnWait.isNone && p.engine.isSome

/-- The engines at which Windrow lane n has lookups in flight. -/
def State.laneFlying (s : State) (n : Nat) : List Nat :=
  (s.packets.filter (fun e => decide (laneOf e.2.port = n) && e.2.atEngine)).filterMap (fun e => e.2.engine)

/-- What a lookup is answered. -/
inductive WLook where
  | wait
  | bad
  | miss
  | hit (index : Nat) (entry : List Byte)

/-- A lookup of a key with the buckets read; `learning` is R124's learning lookup (R121 to R124). -/
def State.lookupKey (s : State) (t : Nat) (key : List Byte) (peek learning : Bool) : WLook × State :=
  let k := s.wtKey t key
  let c := s.candidates t k
  if s.wHolds t c.1 || s.wHolds t c.2 then (.wait, s) else
  match s.wLoadAll t false [c.1, c.2] with
  | (.wait, s1) => (.wait, s1)
  | (.bad _, s1) => (.bad, s1.wtCount t 0)
  | (.ok m, s1) =>
    let s2 := s1.wtCount t 0
    let s3 := if m then s2.wtCount t 2 else s2
    match s3.findKey t k [c.1, c.2] with
    | (none, s4) => (.miss, s4)
    | (some (b, w), s4) =>
      let e := s4.way t b w
      let s5 := s4.wtCount t 1
      (.hit (4 * b + w) e, if peek ∨ (s.wtCfg t 12 12 = 1 ∧ !learning) then s5 else s5.setHit t b w true)

/-- A lookup by Windrow lane n at the engine that accepted it, or at the one that accepts it now; a table that is disabled holds nothing. -/
def State.warrenLookup (s : State) (n : Nat) (engine : Option Nat) (t : Nat) (key : List Byte) (learning : Bool) : WLook × State :=
  if s.wtPlace t = 0 then (.miss, s)
  else match engine <|> s.routeFor n (s.laneFlying n) with
    | none => (.wait, s)
    | some _ => s.lookupKey t key false learning

/-! ### Writers (R125 to R128) -/

/-- New work for a table: nothing of it is done. -/
def newJob (who op table : Nat) (key : List Byte) : WarrenJob :=
  { who := who, op := op, table := table, index := 0, key := key, data := 0, cmp := 0, static := false, peek := false, valid := false,
    engine := none, owns := [], drawn := 0, path := [], place := none, ended := none, dst := 0, event := 0, tenant := 0, ts := 0, port := 0,
    pid := none }

/-- The work in front for a writer, and it replaced; a front that is done is taken off. -/
def State.wQueue (s : State) (who : Nat) : List WarrenJob :=
  if who < 4 then SMap.get (fun _ => []) s.warren.blocks who
  else if who = 4 then s.warren.learns
  else SMap.get (fun _ => []) s.warren.threads (who - 8)
def State.setQueue (s : State) (who : Nat) (l : List WarrenJob) : State :=
  s.modWarren (fun w =>
    if who < 4 then { w with blocks := SMap.set (fun _ => []) w.blocks who l }
    else if who = 4 then { w with learns := l }
    else { w with threads := SMap.set (fun _ => []) w.threads (who - 8) l })
def State.wFront (s : State) (who : Nat) : Option WarrenJob := (s.wQueue who).head?
def State.setFront (s : State) (j : WarrenJob) : State := s.setQueue j.who (j :: (s.wQueue j.who).drop 1)

/-- Every piece of work in front of a queue. -/
def State.wFronts (s : State) : List WarrenJob :=
  ((List.range 5).map s.wFront ++ s.warren.threads.map (fun e => e.2.head?)).filterMap id

/-- Whether some other writer owns one of the buckets, or waits for one since before (R126). Writer 5 is the age sweep, of each table. -/
def State.wConflict (s : State) (who t : Nat) (bs : List Nat) : Bool :=
  s.wFronts.any (fun j => j.who != who && j.table == t && j.owns.any bs.contains)
    || (s.warren.waitq.takeWhile (fun q => q.1 != who || q.2.1 != t)).any (fun q => q.2.1 == t && q.2.2.any bs.contains)

/-- Work that gives up what it owns reads anew once it owns it again (R126). -/
def WarrenJob.giveUp (j : WarrenJob) : WarrenJob := { j with owns := [], read := [], drawn := 0, hunt := none }

/-- A writer takes ownership of buckets, or waits for it behind those that came before it, giving up what it owned. -/
def State.wOwn (s : State) (j : WarrenJob) (bs : List Nat) : Bool × State :=
  if bs.all j.owns.contains then (true, s)
  else if s.wConflict j.who j.table bs then
    let j' := j.giveUp
    let s1 := s.setFront j'
    if s1.warren.waitq.any (fun q => q.1 == j.who) then (false, s1)
    else (false, s1.modWarren (fun w => { w with waitq := w.waitq ++ [(j.who, j.table, bs)] }))
  else (true, (s.setFront { j with owns := bs }).modWarren (fun w => { w with waitq := w.waitq.filter (fun q => q.1 != j.who) }))

/-- The Commons class of a piece of work (R143): none for threads; a copy of the handover from Fallow is TABLE_UPDATE's (R506). -/
def WarrenJob.cls (j : WarrenJob) : Option Nat :=
  if j.who < 4 then some 3 else if j.who = 4 then some (if j.event = 1 then 3 else 2) else none

/-- Who reads memory for a piece of work: its engine's block, or the learn engine, which stands in the group. -/
def WarrenJob.source (j : WarrenJob) : WSource := j.cls.map (fun c => (if j.who < 4 then warrenEngineWin j.who else warrenWin, c))

/-- The work in front is changed. -/
def State.modFront (s : State) (who : Nat) (f : WarrenJob → WarrenJob) : State :=
  match s.wFront who with
  | some j => s.setFront (f j)
  | none => s

/-- One Warren token for the work in front (R143). -/
def State.wDrawOne (s : State) (who : Nat) : Bool × State :=
  match (s.wFront who).bind (·.cls) with
  | some c => s.draw c 3
  | none => (true, s)

/-- Warren tokens for `need` ways that the work in front writes next, drawn one by one and kept until all are there (R143). -/
def State.wDraw (s : State) (who : Nat) : Nat → Bool × State
  | 0 => (true, s.modFront who (fun j => { j with drawn := 0 }))
  | need + 1 => match s.wFront who with
    | none => (true, s)
    | some j =>
      if 0 < j.drawn then
        match (s.setFront { j with drawn := j.drawn - 1 }).wDraw who need with
        | (false, s1) => (false, s1.modFront who (fun k => { k with drawn := k.drawn + 1 }))
        | r => r
      else match s.wDrawOne who with
        | (false, s1) => (false, s1)
        | (true, s1) => match s1.wDraw who need with
          | (false, s2) => (false, s2.modFront who (fun k => { k with drawn := k.drawn + 1 }))
          | r => r

/-- Whether a bucket is in reach. -/
def State.wInReach (s : State) (t b : Nat) : Bool :=
  decide (s.wtPlace t = 3) || (s.wLine (decide (s.wtPlace t = 2)) (s.wtAddr t b)).isSome

/-- The work in front reads the buckets of a list, each with a token drawn for it as it is read (R143); one that it has read and that is still in
reach is not read again. -/
def State.wReads (s : State) (who t : Nat) : List Nat → WRead × State
  | [] => (.ok false, s)
  | b :: bs => match s.wFront who with
    | none => (.ok false, s)
    | some j =>
      if j.read.contains b && s.wInReach t b then s.wReads who t bs
      else match (if j.paid = some b then (true, s) else s.wDrawOne who) with
        | (false, s1) => (.wait, s1)
        | (true, s1) => match (s1.modFront who (fun k => { k with paid := some b })).wLoad t b j.source with
          | (.ok m, s2) =>
            (s2.modFront who (fun k => { k with paid := none, read := b :: k.read.erase b, fromMem := k.fromMem || m })).wReads who t bs
          | (.bad x, s2) => (.bad x, s2.modFront who (fun k => { k with paid := none }))
          | r => r

/-- The work in front ends: it owns nothing any more. -/
def State.wEnd (s : State) (j : WarrenJob) (x : WarrenEnd) : State :=
  s.setFront { j.giveUp with path := [], place := none, plan := [], found := none, paid := none, ended := some x }

/-- An end with no entry, and one with the entry at (b, w). -/
def endCode (code : Nat) : WarrenEnd := ⟨code, 0, 0, 0, []⟩
def endEntry (code b w : Nat) (e : List Byte) : WarrenEnd := ⟨code, 4 * b + w, entStatus e, entAction e, entKey e⟩

/-- How a displacement search stands (R127): a path, none, a wait for a token or for memory, or an uncorrectable error. -/
inductive HuntEnd where
  | path (moves : List (Nat × Nat × Nat × Nat))
  | none
  | wait (h : WarrenHunt)
  | bad

/-- The other candidate bucket of an entry in bucket b. -/
def State.otherOf (s : State) (t b : Nat) (e : List Byte) : Option Nat :=
  let c := s.candidates t (bytesAt e 0x20 (s.wtKeyLen t))
  if c.1 = b then some c.2 else if c.2 = b then some c.1 else Option.none

/-- The moves of a path that ends in free way f of bucket o, from its free end: `p` holds the ways on the path, latest first. -/
def pathMoves (o f : Nat) (p : List (Nat × Nat × Nat)) : List (Nat × Nat × Nat × Nat) :=
  (p.zip ((o, f) :: p.map (fun m => (m.1, m.2.1)))).map (fun e => (e.1.1, e.1.2.1, e.2.1, e.2.2))

/-- The breadth-first search for the first shortest path of at most 8 moves (R127), one way at a time; each bucket that it reads takes a
token (R143). It goes by the buckets as it read them. -/
def State.huntOn (s : State) (who t : Nat) : Nat → WarrenHunt → HuntEnd × State
  | 0, _ => (.none, s)
  | fuel + 1, h => match h.todo with
    | [] => (.none, s)
    | (b, data, path) :: rest =>
      if h.way = 4 ∨ 8 ≤ path.length then s.huntOn who t fuel { h with todo := rest, way := 0 }
      else match s.otherOf t b (bytesAt data (h.way * s.wtSize t) (s.wtSize t)) with
        | Option.none => s.huntOn who t fuel { h with way := h.way + 1 }
        | some o =>
          if h.seen.contains o then s.huntOn who t fuel { h with way := h.way + 1 }
          else match s.wReads who t [o] with
            | (.wait, s1) => (.wait h, s1)
            | (.bad _, s1) => (.bad, s1)
            | (.ok _, s1) =>
              let p := (b, h.way, o) :: path
              match s1.freeWay t o with
              | some f => (.path (pathMoves o f p), s1)
              | Option.none => s1.huntOn who t fuel ⟨h.seen ++ [o], h.todo ++ [(o, s1.wBucket t o, p)], h.way + 1⟩

/-- Whether another insert with displacement runs in the table (R126). -/
def State.displacing (s : State) (who t : Nat) : Bool :=
  s.wFronts.any (fun j => j.who != who && j.table == t && (!j.path.isEmpty || !j.plan.isEmpty || j.hunt.isSome))

/-- The buckets that a path takes with the candidate buckets of its new entry. -/
def pathBuckets (b0 b1 : Nat) (moves : List (Nat × Nat × Nat × Nat)) : List Nat := (b0 :: b1 :: moves.map (fun m => m.2.2.1)).eraseDups

/-- Whether a path still holds in the table as it is: it ends in a free way, and each entry on it may move as the path says. -/
def State.pathHolds (s : State) (t : Nat) (moves : List (Nat × Nat × Nat × Nat)) : Bool :=
  moves.all (fun m => entFlag (s.way t m.1 m.2.1) 0 && decide (s.otherOf t m.1 (s.way t m.1 m.2.1) = some m.2.2.1))
    && (moves.head?.map (fun m => !entFlag (s.way t m.2.2.1 m.2.2.2) 0)).getD false

/-- The learn engine finds no way for a key, or cannot: FAILED, counted and logged (R133, R138). -/
def State.learnFailed (s : State) (j : WarrenJob) : State :=
  ((((s.wtCount j.table 6).wCount 5).setEvent warrenWin 0x10C 1).wLog 1 j.table (4 * (s.candidates j.table j.key).1)).wEnd j (endCode 5)

/-- Work ends with a command's code, or, the learn engine's, with FAILED: an uncorrectable error in a bucket, or a table that is disabled, leaves
it no way (DEDUCED, log 102). -/
def State.wStop (s : State) (j : WarrenJob) (code : Nat) : State := if j.op < 16 then s.wEnd j (endCode code) else s.learnFailed j

/-- No way is found: NO_ROOM, or FAILED (R125, R138). -/
def State.noRoom (s : State) (j : WarrenJob) : State := if j.op < 16 then (s.wtCount j.table 6).wEnd j (endCode 3) else s.learnFailed j

/-- Whether R541 lets a block's command write: its captured action word is listed. Threads' commands and learns are no indirect commands. -/
def WarrenJob.mayWrite (j : WarrenJob) : Bool := decide (4 ≤ j.who) || actionListed j.data

/-- A command of a block whose action word carries a reserved encoding is not performed: cfg_reject is raised for WARREN_CMD, and it ends with
its status left as it was (R541; code 256, log 51). -/
def State.wRefuse (s : State) (j : WarrenJob) : State := (s.cfgReject (warrenEngineWin j.who) 0x1A0).wEnd j (endCode 256)

/-- A path is taken up: all its buckets are owned and read anew (R126), and the moves then begin; a path that no longer holds is searched for
again. R541's check comes before the first move. -/
def State.takePath (s : State) (j : WarrenJob) (b0 b1 : Nat) : State :=
  let bs := pathBuckets b0 b1 j.plan
  match s.wOwn j bs with
  | (false, s1) => s1
  | (true, s1) => match s1.wReads j.who j.table bs with
    | (.wait, s2) => s2
    | (.bad _, s2) => s2.wStop j 8
    | (.ok _, s2) =>
      if !s2.pathHolds j.table j.plan then s2.modFront j.who (fun k => { k with owns := [b0, b1], read := [b0, b1], plan := [], hunt := Option.none })
      else if !j.mayWrite then s2.wRefuse j
      else s2.modFront j.who (fun k =>
        { k with owns := bs, plan := [], hunt := Option.none, path := j.plan, place := j.plan.getLast?.map (fun m => (m.1, m.2.1)) })

/-- A new entry is put in its place, and counted. -/
def State.placeNew (s : State) (j : WarrenJob) (e : List Byte) (b w : Nat) : State :=
  let s1 := (s.setWay j.table b w e).wtCount j.table 3
  let s2 := if j.op < 16 then s1 else s1.wCount 0
  s2.wEnd j (endEntry (if j.op < 16 then 0 else 1) b w e)

/-- The template action word of a table with the learned port in its place (R134). -/
def State.learnAction (s : State) (t port : Nat) (act : Word128) : Word128 :=
  let lo := 64 + s.rf warrenWin (0x1008 + 0x100 * t) 5 0
  let mask : Word128 := 63 <<< lo
  (act &&& ~~~mask) ||| (BitVec.ofNat 128 port <<< lo)

/-- The template action word of a table. -/
def State.learnTemplate (s : State) (t base : Nat) : Word128 :=
  BitVec.ofNat 128 (sumOf (List.range 4) (fun k => (s.reg warrenWin (base + 0x100 * t + 4 * k)).toNat * 2 ^ (32 * k)))

/-- The entry that an insert or a creation writes. -/
def State.jobEntry (s : State) (j : WarrenJob) : List Byte :=
  let key := s.wtKey j.table j.key
  if j.op < 16 then newEntry (s.wtSize j.table) j.static false 0 j.data key
  else newEntry (s.wtSize j.table) false true j.port (s.learnAction j.table j.port (s.learnTemplate j.table 0x1010)) key

/-- A key that is absent is added: in a free way of its candidate buckets, or by displacement (R127). An insert that must wait its turn in the
table (R126) owns nothing meanwhile, so that the one before it can end. The candidate buckets are owned and read. -/
def State.addKey (s : State) (j : WarrenJob) (b0 b1 : Nat) : State :=
  let e := s.jobEntry j
  let into (b w : Nat) : State :=
    if !j.mayWrite then s.wRefuse j
    else match s.wDrawOne j.who with
      | (true, s1) => s1.placeNew j e b w
      | (false, s1) => s1
  match s.freeWay j.table b0, s.freeWay j.table b1 with
  | some w, _ => into b0 w
  | Option.none, some w => into b1 w
  | Option.none, Option.none =>
    if s.displacing j.who j.table then s.setFront { j.giveUp with turn := true }
    else if !j.plan.isEmpty then s.takePath j b0 b1
    else
      let h := j.hunt.getD ⟨[b0, b1], [(b0, s.wBucket j.table b0, []), (b1, s.wBucket j.table b1, [])], 0⟩
      match s.huntOn j.who j.table 300000 h with
      | (.wait h1, s1) => s1.modFront j.who (fun k => { k with hunt := some h1 })
      | (.bad, s1) => s1.wStop j 8
      | (.none, s1) => s1.noRoom j
      | (.path moves, s1) =>
        let k := { j with plan := moves, hunt := Option.none, read := [b0, b1] }
        (s1.setFront k).takePath k b0 b1

/-- A move of a key to another port (R136): the new entry with its verdict, and the counter it counts in. T is in
milliseconds; the comparisons are signed, of 32 bits. -/
def State.moveEntry (s : State) (t T port : Nat) (e : List Byte) : Nat × Nat × List Byte :=
  let window := s.rf warrenWin 0x108 23 12
  let hold := s.rf warrenWin 0x108 11 0
  let limit := s.rf warrenWin 0x108 31 24
  let since (x : Nat) : Int := (BitVec.ofNat 32 T - BitVec.ofNat 32 x).toInt
  let ft := leNat (bytesAt e 8 4)
  if entFlag e 1 then (4, 3, e)
  else if entFlag e 5 ∧ since ft < 0 then (4, 4, e)
  else
    let e1 := if entFlag e 5 then patchBytes (entSetFlag e 5 false) 2 [0] else e
    let n := (byteAt e1 2).toNat
    let moved (x : List Byte) : List Byte :=
      patchBytes (patchBytes x 1 (leBytes 1 port)) 0x10 (leBytes 16 (s.learnAction t port (entAction e)).toNat)
    if n = 0 ∨ (window : Int) ≤ since ft then (2, 2, moved (patchBytes (patchBytes e1 8 (leBytes 4 T)) 2 [1]))
    else if limit = 0 ∨ n < limit then (2, 2, moved (patchBytes e1 2 (leBytes 1 (n + 1))))
    else (4, 4, patchBytes (entSetFlag e1 5 true) 8 (leBytes 4 (T + 100 * hold)))

/-- The learn engine serves a key that is present (R133, R136, R137). -/
def State.serveLearn (s : State) (j : WarrenJob) (b w : Nat) : State :=
  let e := s.way j.table b w
  if entPort e = j.port then (s.wCount 1).wEnd j (endEntry 3 b w e)
  else
    let r := s.moveEntry j.table (s.now / 1000000) j.port e
    if r.2.2 = e then (s.wCount r.2.1).wEnd j (endEntry r.1 b w e)
    else match s.wDrawOne j.who with
      | (false, s1) => s1
      | (true, s1) =>
        let s2 := (s1.setWay j.table b w r.2.2).wCount r.2.1
        let s3 := if r.1 = 4 then (s2.setEvent warrenWin 0x10C 0).wLog 0 j.table (4 * b + w) else s2
        s3.wEnd j (endEntry r.1 b w r.2.2)

/-- A write to the way that holds the key of a command: UPDATE, DELETE, COMPARE_WRITE (R125). -/
def State.changeKey (s : State) (j : WarrenJob) (b w : Nat) : State :=
  let e := s.way j.table b w
  if j.op = 6 ∧ (entAction e).toNat / 2 ^ 64 ≠ j.cmp.toNat then s.wEnd j (endEntry 4 b w e)
  else if j.op = 2 ∧ !j.mayWrite then s.wRefuse j
  else
    let act : Word128 := if j.op = 6 then BitVec.ofNat 128 ((entAction e).toNat % 2 ^ 64 + j.data.toNat / 2 ^ 64 * 2 ^ 64) else j.data
    let e' := if j.op = 3 then entSetFlag e 0 false
              else patchBytes (entSetFlag (if j.op = 2 then entSetFlag e 1 j.static else e) 2 true) 0x10 (leBytes 16 act.toNat)
    match s.wDrawOne j.who with
    | (false, s1) => s1
    | (true, s1) =>
      let s2 := s1.setWay j.table b w e'
      (if j.op = 3 then s2.wtCount j.table 4 else s2).wEnd j (endEntry 0 b w e')

/-- WRITE_INDEX with valid 1: the way is in a candidate bucket and the key is in no other way (R125). INDEX is its input and stays. -/
def State.writeIndex (s : State) (j : WarrenJob) (found : Option (Nat × Nat)) : State :=
  let b := j.index / 4
  let w := j.index % 4
  match found with
  | some p => if p ≠ (b, w) then s.wEnd j (endEntry 2 b w (s.way j.table p.1 p.2)) else go b w
  | Option.none => go b w
where
  /-- The write. -/
  go (b w : Nat) : State :=
    if !j.mayWrite then s.wRefuse j
    else match s.wDrawOne j.who with
    | (false, s1) => s1
    | (true, s1) =>
      let e := newEntry (s.wtSize j.table) j.static false 0 j.data (s.wtKey j.table j.key)
      (s1.setWay j.table b w e).wEnd j (endEntry 0 b w e)

/-- The ways of a list that hold a key with a wrong check code are invalidated, up to the first that holds it with a right one, each with a token
for the write (R123, R143); false where one waits for its token. -/
def State.purgeWays (s : State) (who t : Nat) (k : List Byte) : List (Nat × Nat) → Bool × State
  | [] => (true, s)
  | (b, w) :: ws =>
    let e := s.way t b w
    if !entFlag e 0 || bytesAt e 0x20 (s.wtKeyLen t) != k then s.purgeWays who t k ws
    else if leNat (bytesAt e 4 4) = entCheck t b e then (true, s)
    else match s.wDrawOne who with
      | (false, s1) => (false, s1)
      | (true, s1) => (s1.checkFail t b w).purgeWays who t k ws

/-- The ways of a list of buckets, in the order of a search. -/
def waysOf (bs : List Nat) : List (Nat × Nat) := bs.flatMap (fun b => (List.range 4).map (fun w => (b, w)))

/-- The work of a command, a learn or a move over its candidate buckets, owned and read (R125, R133). -/
def State.wWork (s : State) (j : WarrenJob) (b0 b1 : Nat) : State :=
  match s.purgeWays j.who j.table (s.wtKey j.table j.key) (waysOf [b0, b1]) with
  | (false, s1) => s1
  | (true, s0) => match s0.findKey j.table (s0.wtKey j.table j.key) [b0, b1] with
  | (found, s1) =>
    if j.op = 5 then s1.writeIndex j found
    else match found with
      | some (b, w) =>
        if j.op = 1 then s1.wEnd j (endEntry 2 b w (s1.way j.table b w))
        else if 16 ≤ j.op then s1.serveLearn j b w
        else s1.changeKey j b w
      | Option.none =>
        if j.op = 1 ∨ 16 ≤ j.op then s1.addKey j b0 b1
        else s1.wEnd j (endCode 1)

/-- A way named by its index: READ_INDEX, and WRITE_INDEX with valid 0 (R125). -/
def State.wIndexWork (s : State) (j : WarrenJob) : State :=
  let b := j.index / 4
  let w := j.index % 4
  match s.wReads j.who j.table [b] with
  | (.wait, s1) => s1
  | (.bad _, s1) => s1.wEnd j (endCode 8)
  | (.ok _, s1) =>
    let e := s1.way j.table b w
    if j.op = 4 then s1.wEnd j (endEntry 0 b w e)
    else match s1.wDrawOne j.who with
      | (false, s2) => s2
      | (true, s2) =>
        let e' := entSetFlag e 0 false
        let s3 := s2.setWay j.table b w e'
        (if entFlag e 0 then s3.wtCount j.table 4 else s3).wEnd j (endEntry 0 b w e')

/-- The buckets a writer must own before it reads the way it changes: none for the readers. -/
def State.wNeeds (s : State) (j : WarrenJob) : List Nat :=
  if j.op = 0 ∨ j.op = 4 then []
  else if j.op = 5 ∧ !j.valid then [j.index / 4]
  else let c := s.candidates j.table j.key; pathBuckets c.1 c.2 j.plan

/-- The hit bit of what a LOOKUP found is set, if the way still holds the key (R124), and the command ends. -/
def State.wHitDone (s : State) (j : WarrenJob) (x : WarrenEnd) : State :=
  match s.wReads j.who j.table [x.index / 4] with
  | (.wait, s1) => s1
  | (.bad _, s1) => s1.wEnd j x
  | (.ok _, s1) =>
    let e := s1.way j.table (x.index / 4) (x.index % 4)
    if entFlag e 0 ∧ entKey e = x.key then match s1.wDrawOne j.who with
      | (false, s2) => s2
      | (true, s2) => (s2.setHit j.table (x.index / 4) (x.index % 4) true).wEnd j x
    else s1.wEnd j x

/-- A LOOKUP of a command block or a thread (R125): two buckets read, and one written when its hit bit is set. -/
def State.wLookupWork (s : State) (j : WarrenJob) : State :=
  let c := s.candidates j.table j.key
  match j.found with
  | some x => s.wHitDone j x
  | Option.none => match s.wReads j.who j.table [c.1, c.2] with
    | (.wait, s1) => s1
    | (.bad _, s1) => s1.wEnd j (endCode 8)
    | (.ok _, s1) => match s1.purgeWays j.who j.table (s1.wtKey j.table j.key) (waysOf [c.1, c.2]) with
      | (false, s2) => s2
      | (true, s2) =>
        let mem := ((s2.wFront j.who).map (·.fromMem)).getD false
        match (if mem then s2.wtCount j.table 2 else s2).lookupKey j.table j.key true false with
        | (.hit i e, s3) =>
          let x := endEntry 0 (i / 4) (i % 4) e
          if j.peek ∨ s.wtCfg j.table 12 12 = 1 then s3.wEnd j x
          else (s3.modFront j.who (fun k => { k with found := some x })).wHitDone { j with found := some x } x
        | (_, s3) => s3.wEnd j (endCode 1)

/-- The engines at which the requester of a writer has work in flight: the block of engine e, or the threads of Signature e (R120). -/
def State.jobsFlying (s : State) (who : Nat) : List Nat :=
  (if who < 4 then s.wQueue who
   else (s.warren.threads.filter (fun e => decide (e.1 / 432 = (who - 8) / 432))).flatMap (·.2)).filterMap
    (fun j => if j.ended.isNone then j.engine else Option.none)

/-- The engine that takes new work of a writer: the learn engine stands in the group (R133, R144). -/
def State.engineFor (s : State) (who : Nat) : Option Nat :=
  if who = 4 then (if s.serving warrenWin then some 0 else Option.none)
  else s.routeFor (if who < 4 then who else (who - 8) / 432) (s.jobsFlying who)

/-- The work in front of a queue goes as far as it can: to its end, to a displacement path (DISPLACEMENT_MOVE), or to a wait for
an engine, for ownership, for memory or for tokens. -/
def State.warrenAdvance (s : State) (who : Nat) : State :=
  match s.wFront who with
  | Option.none => s
  | some j0 =>
    if j0.ended.isSome ∨ !j0.path.isEmpty ∨ (j0.turn ∧ s.displacing who j0.table) then s
    else
      match j0.engine <|> s.engineFor who with
      | Option.none => s
      | some x =>
        let j := { j0 with engine := some x, turn := false }
        let s1 := s.setFront j
        if s.wtPlace j.table = 0 then s1.wStop j 7
        else if (j.op = 4 ∨ j.op = 5) ∧ 4 * s.wtBuckets j.table ≤ j.index then s1.wEnd j (endCode 6)
        else if j.op = 0 then s1.wLookupWork j
        else if j.op = 4 then s1.wIndexWork j
        else
          let c := s1.candidates j.table j.key
          if j.op = 5 ∧ j.valid ∧ j.index / 4 ≠ c.1 ∧ j.index / 4 ≠ c.2 then s1.wEnd j (endCode 5)
          else match s1.wOwn j (s1.wNeeds j) with
            | (false, s2) => s2
            | (true, s2) =>
              let j' := { j with owns := s1.wNeeds j }
              if j.op = 5 ∧ !j.valid then s2.wIndexWork j'
              else match s2.wReads who j.table [c.1, c.2] with
                | (.wait, s3) => s3
                | (.bad _, s3) => s3.wStop j' 8
                | (.ok _, s3) => match s3.wFront who with
                  | some j3 => s3.wWork j3 c.1 c.2
                  | Option.none => s3

end Sys2Proof.Machine
end

