-- ==== Sys2Proof/Machine/Leaf.lean ====
section
/-! DEFINITION. Leaf threads: registers and distances, local memory, boundaries, issue, faults (07_leaf_threads_and_events.md,
08_leaf_instruction_set.md). The slots of R172 are not enforced: a command stands for a slot of its thread. -/

namespace Sys2Proof.Machine

/-! ### Parts -/

/-- Quire, Leaf position, thread, and Leaf number of a thread. -/
def tidQuire (t : Nat) : Nat := t / 72
def tidPos (t : Nat) : Nat := t % 72 / 8
def tidThr (t : Nat) : Nat := t % 8
def tidLeaf (t : Nat) : Nat := 9 * (t / 72) + t % 72 / 8
def tidLeafWin (t : Nat) : Nat := leafWin (tidQuire t) (tidPos t)

/-- Thread t, and what Quire q holds. -/
def State.thread (s : State) (t : Nat) : Thread := SMap.get (fun _ => Thread.zero) s.threads t
def State.quire (s : State) (q : Nat) : QuireSt := SMap.get (fun _ => QuireSt.zero) s.quires q
def State.setQuire (s : State) (q : Nat) (x : QuireSt) : State := s.modQuires (fun m => SMap.set (fun _ => QuireSt.zero) m q x)

/-- Whether a thread is its Quire's supervisor (R16, R175). -/
def State.isSup (s : State) (t : Nat) : Bool := tidThr t == 0 && tidPos t == (s.quire (tidQuire t)).sup

/-- The supervisor thread of a Quire. -/
def State.supOf (s : State) (q : Nat) : Nat := 72 * q + 8 * (s.quire q).sup

/-- Whether an entry is due (R187). -/
def Thread.wantEntry (th : Thread) (sup : Bool) : Bool :=
  !th.handler && th.fault.isNone && !th.halted && (decide (th.events &&& th.prompt ≠ 0) || (sup && th.nmi))

/-- Whether a thread is quiet (R201). -/
def Thread.quiet (th : Thread) : Bool :=
  let w := match th.wait with
    | .wfe _ _ => true
    | _ => false
  th.started && !th.halted && th.fault.isNone && w && !th.tctl.getLsbD 0 && th.ops.isEmpty && !th.joinEnded

/-- The thread notes since when an entry or halt waits for a boundary, and since when it is quiet. -/
def Thread.noted (th : Thread) (now : Nat) (sup : Bool) : Thread :=
  { th with reqSince := if th.wantEntry sup || th.haltReq then some (th.reqSince.getD now) else none,
            quietSince := if th.quiet then some (th.quietSince.getD now) else none,
            haltedSince := if th.halted then some (th.haltedSince.getD now) else none }

/-- Thread t replaced. -/
def State.setThread (s : State) (t : Nat) (th : Thread) : State :=
  let th' := th.noted s.time.cycles (s.isSup t)
  s.modThreads (fun m => SMap.set (fun _ => Thread.zero) m t th')

/-- Thread t changed. -/
def State.modThread (s : State) (t : Nat) (f : Thread → Thread) : State := s.setThread t (f (s.thread t))

/-- The task a thread holds. -/
def State.heldTask (s : State) (t : Nat) : Option (Nat × Task) :=
  match (s.thread t).task with
  | some k => (s.task k).map (fun x => (k, x))
  | none => none

/-- A thread holds no task any more: it has no children either. -/
def Thread.noTask (th : Thread) : Thread := { th with task := none, joins := [], joinEnded := false }

/-- Children that are gone leave the joins of their parents, which note that one has ended (R201). -/
def State.cleanJoins (s : State) : State :=
  s.threads.foldl (fun (s : State) e =>
    if e.2.joins.any (fun k => (s.task k).isNone) then
      s.modThread e.1 (fun th => { th with joins := th.joins.filter (fun k => (s.task k).isSome), joinEnded := true })
    else s) s

/-- A position is dropped under a Sheaf counter (R166, R167). -/
def State.dropPos (s : State) (k diag : Nat) : State := (s.dropPosition k diag).cleanJoins

/-! ### Registers and distances (R211, R213, R225) -/

/-- A general register: g0 reads zero. -/
def Thread.g (th : Thread) (r : Nat) : Word64 := if r = 0 then 0 else SMap.get (fun _ => 0) th.regs r

/-- A general register receives a value at once: a write to g0 is discarded. -/
def Thread.setG (th : Thread) (r : Nat) (v : Word64) : Thread :=
  if r = 0 then th else { th with regs := SMap.set (fun _ => 0) th.regs r v }

/-- An event bit is set (R179). -/
def Thread.setEv (th : Thread) (b : Nat) : Thread := { th with events := th.events ||| BitVec.ofNat 32 (1 <<< b) }

/-- A write of MTT takes effect under the access codes (R213). -/
def Thread.writeTcr (th : Thread) (n : Nat) (v : Word64) : Thread :=
  match n with
  | 0 => { th with flags := v &&& 0x303 }
  | 1 => { th with events := th.events &&& ~~~(v.setWidth 32) }
  | 2 => { th with prompt := v.setWidth 32 }
  | 3 => { th with evec := (v &&& 0x7FFFC).toNat }
  | 6 => { th with timer := v }
  | 7 => { th with tctl := v &&& 0x1F01 }
  | _ => th

/-- A result lands: an earlier writer's result of the same register that is still on its way is discarded (R225). -/
def Thread.landOne (th : Thread) (p : Pend) : Thread :=
  let rest := th.pend.filter (fun q => q ≠ p)
  if p.dst < 32 then { (th.setG p.dst p.val) with pend := rest.filter (fun q => !(q.dst == p.dst && decide (q.no < p.no))) }
  else if p.dst < 64 then { th with pend := rest }.writeTcr (p.dst - 32) p.val
  else { th with pend := rest, flags := th.flags ||| p.val }

/-- The result that lands first of those that instruction j sees. -/
def Thread.nextDue (th : Thread) (j : Nat) : Option Pend :=
  th.pend.foldl (fun acc p =>
    if j < p.due then acc
    else match acc with
      | none => some p
      | some q => if p.due < q.due ∨ (p.due = q.due ∧ p.no < q.no) then some p else some q) none

/-- Every result that instruction j sees lands, in order. -/
def Thread.landN : Nat → Nat → Thread → Thread
  | 0, _, th => th
  | n + 1, j, th => match th.nextDue j with
    | some p => Thread.landN n j (th.landOne p)
    | none => th
def Thread.land (th : Thread) (j : Nat) : Thread := Thread.landN th.pend.length j th

/-- Every result lands, at a forced boundary or a fault (R188, R195): no distance is above 18. -/
def Thread.landAll (th : Thread) : Thread := th.land (th.issued + 32)

/-- A result of the instruction being issued, with its distance (R224). -/
def Thread.result (th : Thread) (dst d : Nat) (v : Word64) : Thread :=
  if dst = 0 then th else { th with pend := th.pend ++ [⟨th.issued, th.issued + d, dst, v⟩] }

/-- A result with its flags. -/
def Thread.resultF (th : Thread) (r d : Nat) (x : Flagged) : Thread :=
  let th := th.result r d x.val
  if x.v || x.dz then th.result 64 d (BitVec.ofNat 64 (bit x.v + 2 * bit x.dz)) else th

/-- The result of a wait that has ended: the wait is the latest instruction issued (R225). -/
def Thread.waitResult (th : Thread) (r : Nat) (v : Word64) : Thread :=
  if r = 0 then th else { th with pend := th.pend ++ [⟨th.issued - 1, th.issued, r, v⟩] }

/-- An asynchronous result of instruction no reaches its register (R226): results of earlier instructions for the register
are discarded. -/
def Thread.asyncResult (th : Thread) (no r : Nat) (v : Word64) : Thread :=
  { (th.setG r v) with pend := th.pend.filter (fun q => !(q.dst == r && decide (q.no < no))) }

/-- The thread's holder word of kind thread (R289): also bits 16:5 of THR_ID and of a SEV's target. -/
def tidWord (t : Nat) : Nat := tidQuire t / 6 * 2 ^ 15 + tidQuire t % 6 * 2 ^ 12 + tidPos t * 2 ^ 8 + tidThr t * 2 ^ 5

/-- How many operations are outstanding (R228): DMA posts are none of them. -/
def Thread.outstanding (th : Thread) : Nat := th.ops.countP (fun o => o.kind ≠ .dma)

/-- What MFT reads (R213). -/
def State.readTcr (s : State) (t : Nat) (th : Thread) (n : Nat) : Word64 :=
  match n with
  | 0 => th.flags
  | 1 => th.events.setWidth 64
  | 2 => th.prompt.setWidth 64
  | 3 => BitVec.ofNat 64 th.evec
  | 4 => BitVec.ofNat 64 th.epc
  | 5 => BitVec.ofNat 64 (bit th.handler + 2 * bit th.forced)
  | 6 => th.timer
  | 7 => th.tctl
  | 8 => match th.mpc with
    | some a => BitVec.ofNat 64 (0x10000 + a)
    | none => 0
  | 9 =>
    let k := match s.heldTask t with
      | some (_, x) => 2 ^ 19 + x.tenant * 2 ^ 20
      | none => 0
    BitVec.ofNat 64 (tidWord t + bit (s.isSup t) * 2 ^ 18 + k)
  | 10 => match s.heldTask t with
    | some (_, x) => BitVec.ofNat 64 (min x.slots 65536)
    | none => 0
  | 11 => BitVec.ofNat 64 th.outstanding
  | _ => 0

/-! ### Local memory (R214, R215, R237, R244) -/

/-- Where a thread's local memory lies in its Leaf's memory instance. -/
def localBase (t : Nat) : Nat := 6144 * tidThr t

/-- Local bytes are read: whether a codeword was uncorrectable, the bytes, and the state with the errors logged. -/
def State.localRead (s : State) (t a n : Nat) : Bool × List Byte × State :=
  let r := s.eccRead (tidLeafWin t) 0 (localBase t + a) n
  (r.1, s.eccFixed (tidLeafWin t) 0 (localBase t + a) (Memory.readBytes (s.thread t).mem a n), r.2)

/-- Local bytes are written. -/
def State.localWrite (s : State) (t a : Nat) (data : List Byte) : State :=
  (s.modThread t (fun th => { th with mem := Memory.writeBytes th.mem a data })).eccWrite (tidLeafWin t) 0 (localBase t + a) data.length

/-- Whether a local access lies in the thread's local memory, and whether it may store there (R150, R214). -/
def localOk (a n : Nat) : Bool := decide (a + n ≤ 0x1800)
def localStoreOk (a n : Nat) : Bool := decide (0x200 ≤ a) && localOk a n

/-- A memory of given bytes. -/
def memoryOf (bs : List Byte) : List Host.Cell :=
  (bs.zipIdx.filter (fun b => b.1 ≠ 0)).map (fun b => (b.2, b.1))

/-! ### Boundaries and issue (R172 to R174, R187, R188) -/

/-- Whether a Leaf runs a thread: the supervisor keeps running in QUIET (R510). -/
def State.leafRuns (s : State) (t : Nat) : Bool :=
  let g := s.gathOf (tidLeafWin t)
  decide (g.own = .inService) || decide (g.own = .quiescing) || (decide (g.own = .quiet) && s.isSup t)

/-- Whether a Leaf takes page commands and its threads are counted: bound and IN_SERVICE (R201, R205). -/
def State.leafServes (s : State) (t : Nat) : Bool :=
  decide ((s.gathOf (tidLeafWin t)).role = .bound) && s.inService (tidLeafWin t)

/-- A thread as its next boundary finds it: what its next instruction sees has landed. -/
def Thread.landed (th : Thread) : Thread :=
  match th.wait with
  | .none => th.land th.issued
  | _ => th

/-- Whether a thread waits. -/
def Thread.waits (th : Thread) : Bool :=
  match th.wait with
  | .none => false
  | _ => true

/-- Whether a thread is at a quiet boundary (R188): one that waits, or that stalls elsewhere than in a delay slot, is (log 59). -/
def Thread.atBoundary (th : Thread) : Bool :=
  th.waits || (!th.inDelay && !th.micro && (th.stalled || th.pend.all (fun p => decide (p.due ≤ th.issued))))

/-- Whether a boundary is forced now: 256 thread slots, 1,024 ns, after the request (R188). -/
def State.forcedDue (s : State) (th : Thread) : Bool :=
  !th.inDelay && !th.micro && (match th.reqSince with
    | some r => decide (r + 1024 ≤ s.time.cycles)
    | none => false)

/-- Whether a thread makes its way at all: started, its Leaf runs, neither stopped nor halted. -/
def State.threadLive (s : State) (t : Nat) : Bool :=
  let th := s.thread t
  th.started && s.leafRuns t && th.fault.isNone && !th.halted && decide (th.notBefore ≤ s.time.cycles)

/-- Whether a thread issues an instruction in its slot (R173). -/
def State.canIssue (s : State) (t : Nat) : Bool :=
  let th := (s.thread t).landed
  s.threadLive t && !th.waits && !((th.wantEntry (s.isSup t) || th.haltReq) && (th.atBoundary || s.forcedDue th))

/-- The word at an instruction address (R212). -/
def State.fetch (s : State) (t pc : Nat) : Word32 := SMap.get (fun _ => 0) (s.quire (tidQuire t)).program (pc / 4)

/-- What an instruction does in its slot: it goes on to the next instruction, or it is a branch with its target, whether it is
taken and whether its delay slot is annulled; it jumps without a delay slot; it holds its thread at its own address; it
is under way still, with its further slots charged; it faults with a kind and a detail; or it does not issue. -/
inductive LeafAct where
  | next (s : State)
  | branch (s : State) (target : Nat) (taken annul : Bool)
  | jump (s : State) (target : Nat)
  | hold (s : State)
  | keep (s : State)
  | fault (s : State) (kind detail : Nat)
  | stall (s : State)

/-- The kinds of fault (R200). -/
def fUNDEF : Nat := 1
def fNOCP : Nat := 2
def fDOMAIN : Nat := 3
def fDATA : Nat := 4
def fBUDGET : Nat := 5
def fTRAPV : Nat := 6
def fTRAPDZ : Nat := 7
def fMICRO : Nat := 8

/-- `n` slots are used (R174): they count for the task that the thread held as they began. -/
def State.charge (s : State) (task : Option Nat) (n : Nat) : State :=
  match task with
  | some k => match s.task k with
    | some x => s.setTask k { x with slots := x.slots + n }
    | none => s
  | none => s

/-- A thread stops with a fault (R195): the results of its earlier instructions reach their registers. -/
def State.stopThread (s : State) (t kind : Nat) (async : Bool) (insn : Word32) (detail : Nat) : State :=
  let th := (s.thread t).landAll
  let k := s.heldTask t
  let info : FaultInfo := ⟨kind, async, th.handler, k.isSome, (k.map (·.2.tenant)).getD 0, (k.map (·.2.od)).getD 0,
    (k.map (·.2.node)).getD 0, insn, th.pc, BitVec.ofNat 64 detail, s.time.ns, false, false⟩
  s.setThread t { th with fault := some info, wait := .none, stalled := false, micro := false, step := false }

/-- Control after an instruction that is no branch (R212, R229). -/
def Thread.goOn (th : Thread) : Thread :=
  { th with pc := (if th.inDelay then th.after.getD (th.pc + 4) else th.pc + 4) % 0x80000, inDelay := false, after := none, annul := false }

/-- Control after a branch: its delay slot comes next. -/
def Thread.branched (th : Thread) (target : Nat) (taken annul : Bool) : Thread :=
  { th with pc := (th.pc + 4) % 0x80000, inDelay := true, after := if taken then some target else none, annul := annul && !taken }

/-- A thread that STEP let go halts again once its instruction is done, after the delay slot of a branch (R208). A HALT written
meanwhile is met by that halt. -/
def Thread.stepped (th : Thread) : Thread :=
  if th.step && !th.inDelay then { th with step := false, halted := true, haltReq := false, haltForced := false, forced := false } else th

/-- An instruction has been issued; one that waits is not done yet. -/
def Thread.counted (th : Thread) : Thread :=
  let th := { th with issued := th.issued + 1 }
  if th.waits then th else th.stepped

/-- An episode of quiet deadlock ends when a counted thread other than the supervisor issues (R203). -/
def State.endEpisode (s : State) (t : Nat) : State :=
  let q := s.quire (tidQuire t)
  if q.episode.isSome && s.leafServes t && !s.isSup t then s.setQuire (tidQuire t) { q with episode := none } else s

/-- What the slot of an instruction leaves. -/
def settleAct (t : Nat) (w : Word32) (task : Option Nat) : LeafAct → State
  | .next s1 => ((s1.charge task 1).modThread t (fun th => th.goOn.counted)).endEpisode t
  | .branch s1 target taken annul => ((s1.charge task 1).modThread t (fun th => (th.branched target taken annul).counted)).endEpisode t
  | .jump s1 target => ((s1.charge task 1).modThread t (fun th => { th with pc := target }.counted)).endEpisode t
  | .hold s1 => ((s1.charge task 1).modThread t Thread.counted).endEpisode t
  | .fault s1 kind detail =>
    if kind = fBUDGET then s1.stopThread t kind false w detail else ((s1.charge task 1).endEpisode t).stopThread t kind false w detail
  | .keep s1 => s1.endEpisode t
  | .stall s1 => s1

/-- The instruction of word w at a thread's address is issued: first the checks of R168, R196, R222, R232 and R253, then its body. -/
def State.issue (s : State) (t : Nat) (th : Thread) (pw : Word32) (body : State → Thread → LeafAct) : State :=
  let k := s.heldTask t
  let s0 := s.setThread t th
  let act : LeafAct :=
    if k.any (fun x => decide (x.2.budget ≤ x.2.slots)) then .fault s fBUDGET ((k.map (·.2.slots)).getD 0)
    else if th.inDelay && th.annul then .next s0
    else
      let r := s.eccRead (quireWin (tidQuire t)) 1 th.pc 4
      if r.1 then .fault r.2 fDATA th.pc
      else if !leafKnown pw then .fault r.2 fUNDEF 0
      else if th.inDelay && noDelaySlot pw then .fault r.2 fUNDEF 0
      else body (r.2.setThread t th) th
  match act with
  | .stall s1 => s1.setThread t { s.thread t with stalled := true }
  | a => settleAct t pw th.task a

/-- A row of the instruction set: thread t issues it if it can issue and the instruction at its address is the row's, or is a
word that no row spells. -/
def State.leafRun (s : State) (t : Nat) (w : Word32) (body : State → Thread → LeafAct) : Res :=
  if !s.canIssue t then .next s
  else
    let th := { (s.thread t).landed with stalled := false }
    let pw := s.fetch t th.pc
    if pw ≠ w && leafKnown pw then .next s else .next (s.issue t th pw body)

/-- An instruction that only writes a general register (R224). -/
def State.regOp (s : State) (t : Nat) (w : Word32) (gd d : Nat) (f : Thread → Word64) : Res :=
  s.leafRun t w (fun s th => .next (s.setThread t (th.result gd d (f th))))

/-- An instruction that may set V or DZ (R233 to R236). -/
def State.flagOp (s : State) (t : Nat) (w : Word32) (gd d : Nat) (f : Thread → Flagged) : Res :=
  s.leafRun t w (fun s th =>
    let x := f th
    if x.dz && th.flags.getLsbD 9 then .fault s fTRAPDZ 0
    else if x.v && th.flags.getLsbD 8 then .fault s fTRAPV 0
    else .next (s.setThread t (th.resultF gd d x)))

/-! ### Entries and halts (R187 to R190, R207) -/

/-- A thread makes its entry (R187): the wait it was in is abandoned, and one slot is used. -/
def State.enterHandler (s : State) (t : Nat) (th : Thread) (forced : Bool) : State :=
  let th := if forced then th.landAll else th
  let nmi := th.nmi && !s.isSup t
  (s.setThread t { th with
    epc := th.pc, handler := true, forced := forced, pc := th.evec, wait := .none, stalled := false, nmi := nmi, micro := false }).charge th.task 1

/-- A thread halts (R207). -/
def State.haltThread (s : State) (t : Nat) (th : Thread) (forced : Bool) : State :=
  let th := if forced then th.landAll else th
  s.setThread t { th with
    halted := true, haltReq := false, haltForced := forced, forced := forced, wait := .none, stalled := false, step := false, micro := false }

/-- PROMPT_EVENT_ENTRY: a thread at a quiet boundary makes the entry that is due (R187). A halt that is also due comes first. -/
def execPromptEventEntry (t : Tid) (s : State) : Res :=
  let th := (s.thread t.val).landed
  if s.threadLive t.val && th.wantEntry (s.isSup t.val) && th.atBoundary && !th.haltReq then .next (s.enterHandler t.val th false)
  else .next s

/-- FORCED_BOUNDARY: no quiet boundary came within 256 thread slots: the entry or halt takes this one (R188). -/
def execForcedBoundary (t : Tid) (s : State) : Res :=
  let th := (s.thread t.val).landed
  if s.threadLive t.val && !th.atBoundary && s.forcedDue th then
    if th.haltReq then .next (s.haltThread t.val th true)
    else if th.wantEntry (s.isSup t.val) then .next (s.enterHandler t.val th true)
    else .next s
  else .next s

/-- DEBUG_HALT_ENTRY: a thread with a halt requested halts at a quiet boundary (R207). -/
def execDebugHaltEntry (t : Tid) (s : State) : Res :=
  let th := (s.thread t.val).landed
  if s.threadLive t.val && th.haltReq && th.atBoundary then .next (s.haltThread t.val th false) else .next s

/-- TIMER_FIRE: the comparator sets the event bit and disarms (R182). -/
def execTimerFire (t : Tid) (s : State) : Res :=
  let th := (s.thread t.val).landed
  if th.started && s.leafRuns t.val && th.tctl.getLsbD 0 && decide (th.timer.toNat ≤ s.time.ns.toNat) then
    .next (s.setThread t.val { (th.setEv (bitsOf th.tctl.toNat 12 8)) with tctl := th.tctl &&& ~~~1 })
  else .next s

end Sys2Proof.Machine
end

