-- ==== Sys2Proof/Machine/Stile.lean ====
section
/-! DEFINITION. Stile: queued locks (10_stile_locks_and_tenant_windows.md, R289 to R298), and the requester ports of the
functions and of Spine (R437, R438). -/

namespace Sys2Proof.Machine

/-! ### Locks and holders (R289, R290) -/

/-- Lock l, and it replaced. -/
def State.lock (s : State) (l : Nat) : LockSt := SMap.get (fun _ => LockSt.free) s.stile.locks l
def State.setLock (s : State) (l : Nat) (x : LockSt) : State :=
  s.modStile (fun m => { m with locks := SMap.set (fun _ => LockSt.free) m.locks l x })

/-- A counter of Stile rises. -/
def State.stileCount (s : State) (k : Nat) : State := s.count stileWin (0x200 + 4 * k)

/-- The holder word of Spine and of a function; port 64 is Spine's (R289, R437). -/
def portWord (f : Nat) : Nat := if f = 64 then 2 ^ 18 else 2 * 2 ^ 18 + f / 32 * 2 ^ 16 + f % 32

/-- The kind of a holder word, its thread, its port. -/
def whoKind (w : Nat) : Nat := w / 2 ^ 18
def whoThread (w : Nat) : Nat := 72 * (6 * bitsOf w 16 15 + bitsOf w 14 12) + 8 * bitsOf w 11 8 + bitsOf w 7 5
def whoPort (w : Nat) : Nat := if whoKind w = 1 then 64 else 32 * bitsOf w 16 16 + bitsOf w 4 0

/-- Whether a lock's class admits a requester (R290). -/
def State.lockAdmits (s : State) (l w : Nat) : Bool :=
  let v := s.reg stileWin (0x2000 + 4 * l)
  let thr := whoKind w == 0
  match fld v 31 30 with
  | 0 => false
  | 1 =>
    if thr then !s.isSup (whoThread w) && ((s.heldTask (whoThread w)).map (·.2.tenant)) == some (fld v 13 0)
    else whoKind w == 2 && decide (0 < whoPort w) && (s.func (whoPort w)).bound == some (fld v 13 0)
  | 2 => if thr then s.isSup (whoThread w) else whoKind w == 1 || whoPort w == 0
  | _ => true

/-- The word that an acquisition ends with (R291). -/
def grantWord (result lock : Nat) (abandoned : Bool) : Nat :=
  lock + (if result = 0 then 2 ^ 16 + bit abandoned * 2 ^ 17 else 0) + result * 2 ^ 20

/-- The completions a port holds, at most 8 (R438), and those that wait for room in it. -/
def State.stilePort (s : State) (f : Nat) : List Word64 := SMap.get (fun _ => []) s.stile.ports f
def State.stileLate (s : State) (f : Nat) : List Word64 := SMap.get (fun _ => []) s.stile.late f

/-- A port holds the first 8 of these completions, and the others wait in their order. -/
def State.setStilePort (s : State) (f : Nat) (l : List Word64) : State :=
  s.modStile (fun m => { m with ports := SMap.set (fun _ => []) m.ports f (l.take 8), late := SMap.set (fun _ => []) m.late f (l.drop 8) })

/-- An outstanding operation of a thread ends: register, then event (R39). -/
def State.endOp (s : State) (t : Nat) (o : LeafOp) (vals : List (Nat × Word64)) : State :=
  s.modThread t (fun th =>
    let th := vals.foldl (fun (th : Thread) v => th.asyncResult o.no v.1 v.2) th
    let th := { th with ops := removeFirst (fun x => decide (x = o)) th.ops, stalled := false }
    match o.ev with
    | some b => th.setEv b
    | none => th)

/-- An acquisition completes at its requester. A completion for which a port has no room waits for a read of the port: R438 holds the port to
8 and discards requests, never a completion (DEDUCED, log 106). -/
def State.stileAnswer (s : State) (w op word : Nat) : State :=
  if whoKind w = 0 then
    match (s.thread (whoThread w)).ops.find? (fun o => o.kind == .lock && o.no == op) with
    | some o => s.endOp (whoThread w) o [(o.dst, BitVec.ofNat 64 word)]
    | none => s
  else s.setStilePort (whoPort w) (s.stilePort (whoPort w) ++ s.stileLate (whoPort w) ++ [BitVec.ofNat 64 (2 ^ 31 + word % 2 ^ 24)])

/-! ### Acquisition and release (R292 to R295) -/

/-- The queued waits of a requester, and of all. -/
def State.waitsOf (s : State) (w : Nat) : Nat := sumOf s.stile.locks (fun e => e.2.queue.countP (fun x => x.who == w))
def State.waitsAll (s : State) : Nat := sumOf s.stile.locks (fun e => e.2.queue.length)

/-- The outcome of an acquisition: a result of R291, or none where it joins the queue (R292). -/
def State.stileOutcome (s : State) (w gs : Nat) (try' : Bool) : Option Nat :=
  let l := gs % 8192
  let x := s.lock l
  if 8192 ≤ gs then some 4
  else if !s.lockAdmits l w then some 3
  else if x.holder = some w ∧ x.leaving.isNone then some 2
  else if x.holder.isNone then some 0
  else if try' then some 1
  else if 4 ≤ s.waitsOf w ∨ 4096 ≤ s.waitsAll then some 5
  else none

/-- The counters and events of an outcome. -/
def State.noteOutcome (s : State) (r : Nat) : State :=
  match r with
  | 0 => s.stileCount 0
  | 2 => s.stileCount 8
  | 3 => s.stileCount 4
  | 4 => s.stileCount 7
  | 5 => (s.stileCount 6).setEvent stileWin 0x240 2
  | _ => s

/-- An acquisition is settled. -/
def State.stileAcquire (s : State) (w gs op : Nat) (try' : Bool) : State :=
  let l := gs % 8192
  let x := s.lock l
  match s.stileOutcome w gs try' with
  | none => s.setLock l { x with queue := x.queue ++ [⟨w, op⟩] }
  | some r =>
    let s1 := if r = 0 then s.setLock l { x with holder := some w, carried := x.abandoned } else s
    (s1.noteOutcome r).stileAnswer w op (grantWord r l x.abandoned)

/-- A lock passes to its first waiter, whose grant is then on its way, or becomes free. -/
def LockSt.pass (x : LockSt) : LockSt :=
  match x.queue with
  | w :: rest => { x with holder := some w.who, queue := rest, carried := x.abandoned, grants := x.grants ++ [(w, x.abandoned)], leaving := none }
  | [] => { x with holder := none, carried := false, leaving := none }

/-- A lock is released after a grant: the flag that the grant carried clears (R295). -/
def LockSt.release (x : LockSt) : LockSt := { x with abandoned := x.abandoned && !x.carried }.pass

/-- A release (R295). A lock that its departed holder's writes still hold back is freed once they are complete, and not before (R296;
log 71). -/
def State.stileRelease (s : State) (w gs : Nat) : State :=
  let l := gs % 8192
  let x := s.lock l
  if !s.lockAdmits l w then s.stileCount 4
  else match x.holder with
    | none => s.stileCount 3
    | some h =>
      let s1 := if x.leaving.isSome then s else s.setLock l x.release
      if h = w then s1 else (s1.stileCount 2).setEvent stileWin 0x240 0

/-- A thread's release has been performed: its operation ends (R228). -/
def State.releaseDone (s : State) (w op : Nat) : State :=
  if whoKind w ≠ 0 then s
  else match (s.thread (whoThread w)).ops.find? (fun o => o.kind == .lock && o.no == op && o.ev.isNone) with
    | some o => s.endOp (whoThread w) o []
    | none => s

/-- A request is performed: 0 SACQ, 1 STRY, 2 SREL. -/
def State.stilePerform (s : State) (w kind gs op : Nat) : State :=
  if kind = 2 then (s.stileRelease w gs).releaseDone w op else s.stileAcquire w gs op (kind == 1)

/-- A request reaches Stile; while Stile is not IN_SERVICE it waits at its requester (R298). -/
def State.stileRequest (s : State) (w kind gs op : Nat) : State :=
  if s.inService stileWin then s.stilePerform w kind gs op
  else s.modStile (fun m => { m with held := m.held ++ [(w, kind, gs, op)] })

/-- The requests that waited are performed, in order (RESUME, START). -/
def State.stileServeHeld (s : State) : State :=
  s.stile.held.foldl (fun (s : State) r => s.stilePerform r.1 r.2.1 r.2.2.1 r.2.2.2) (s.modStile (fun m => { m with held := [] }))

/-! ### Departures (R296 to R298) -/

/-- A lock is freed as abandoned. -/
def State.abandon (s : State) (l : Nat) : State :=
  ((s.setLock l { s.lock l with abandoned := true }.pass).stileCount 5).setEvent stileWin 0x240 1

/-- The memory requests of a thread that write and have not been performed, also those it issued before an earlier reset. -/
def State.threadWrites (s : State) (t : Nat) : List Nat :=
  [1, 2].flatMap (fun sp =>
    ((SMap.get (fun _ => []) s.mem.waiting (4 * t + sp)).filter (fun r => r.write.isSome || r.amo.isSome)).map (·.id))

/-- The writes that a departing holder still has under way: a thread's that have been accepted and not performed (R296). -/
def State.leavingWrites (s : State) (w : Nat) : List Nat := if whoKind w = 0 then s.threadWrites (whoThread w) else []

/-- A holder goes away: its queued waits are removed, and each lock it holds, or has departed from, is freed as abandoned, once its writes
are performed. -/
def State.depart (s : State) (w : Nat) : State :=
  let ids := s.leavingWrites w
  let s1 := s.modStile (fun m => { m with held := m.held.filter (fun r => r.1 ≠ w) })
  s1.stile.locks.foldl (fun (s : State) e =>
    let x := s.lock e.1
    let x1 := { x with queue := x.queue.filter (fun q => q.who ≠ w), grants := x.grants.filter (fun g => g.1.who ≠ w) }
    if x.holder = some w then
      if ids.isEmpty then (s.setLock e.1 x1).abandon e.1 else s.setLock e.1 { x1 with leaving := some ⟨ids, none⟩ }
    else if x1 ≠ x then s.setLock e.1 x1 else s) s1

/-- Whether a memory request has been performed. -/
def State.memDone (s : State) (id : Nat) : Bool := s.mem.waiting.all (fun e => e.2.all (fun r => r.id ≠ id))

/-- Whether an operation writes memory (R243). -/
def LeafOp.writes (o : LeafOp) : Bool := o.kind == .store || o.kind == .xst || o.kind == .amo

/-- Whether the writes of a lock's departed holder are complete (R296). -/
def State.writesDone (s : State) (x : LockSt) (w : LockWrites) : Bool :=
  w.ids.all s.memDone && (match w.before, x.holder with
    | some n, some h => !(s.thread (whoThread h)).ops.any (fun o => o.writes && decide (o.no < n))
    | _, _ => true)

/-- LOCK_HANDOFF: a lock handed on is granted to its waiter (R294); a lock whose holder went away is freed once its writes are
complete (R296). -/
def execLockHandoff (l : BitVec 13) (s : State) : Res :=
  let x := s.lock l.toNat
  match x.grants, x.leaving with
  | g :: rest, _ =>
    let s1 := s.setLock l.toNat { x with grants := rest }
    .next (((s1.stileCount 0).stileCount 1).stileAnswer g.1.who g.1.op (grantWord 0 l.toNat g.2))
  | [], some w => if s.writesDone x w then .next (s.abandon l.toNat) else .next s
  | [], none => .next s

/-- A held lock is freed as abandoned, a thread's once its earlier writes are complete (R296). -/
def State.forceFree (s : State) (l : Nat) : State :=
  let x := s.lock l
  match x.holder, x.leaving with
  | some h, none =>
    let th := s.thread (whoThread h)
    if whoKind h = 0 ∧ (th.ops.any LeafOp.writes ∨ s.leavingWrites h ≠ []) then
      s.setLock l { x with leaving := some ⟨s.leavingWrites h, some th.issued⟩ }
    else s.abandon l
  | _, _ => s

/-- STILE_FORCE: the lock is freed as abandoned if it is held (R296). -/
def State.stileForce (s : State) (l : Nat) : State :=
  if (s.lock l).holder.isSome then (s.forceFree l).setEvent stileWin 0x240 3 else s

def execStileForce (l : BitVec 13) (s : State) : Res := .next (s.stileForce l.toNat)

/-- RESET of Stile: every queued wait, and every grant on its way, completes with ABORTED, and every lock is free (R298). -/
def State.stileReset (s : State) : State :=
  let ws := s.stile.locks.flatMap (fun e => (e.2.grants.map (·.1) ++ e.2.queue).map (fun w => (e.1, w)))
  ws.foldl (fun (s : State) e => s.stileAnswer e.2.who e.2.op (grantWord 6 e.1 false)) (s.modStile (fun m => { m with locks := [] }))

/-! ### Requester ports (R437, R438) -/

/-- A request written to a port: it is discarded while 8 completions are unread. -/
def State.portRequest (s : State) (f kind l : Nat) : State :=
  if 8 ≤ (s.stilePort f).length then
    if f = 64 then s else s.setFunc f { s.func f with stileOvf := true }
  else s.stileRequest (portWord f) kind l 0

/-- HOST_STILE_ACQUIRE, HOST_STILE_TRY, HOST_STILE_RELEASE: requests of a function's port, or of Spine's. -/
def execHostStileAcquire (f : Fin 65) (l : BitVec 13) (s : State) : Res := .next (s.portRequest f.val 0 l.toNat)
def execHostStileTry (f : Fin 65) (l : BitVec 13) (s : State) : Res := .next (s.portRequest f.val 1 l.toNat)
def execHostStileRelease (f : Fin 65) (l : BitVec 13) (s : State) : Res := .next (s.portRequest f.val 2 l.toNat)

/-- A read of a port's completions: the oldest is returned and removed. -/
def State.portRead (s : State) (f : Nat) : Word64 × State :=
  match s.stilePort f with
  | c :: rest => (c, s.setStilePort f (rest ++ s.stileLate f))
  | [] => (0, s)

/-- HOST_STILE_CPL_READ: R438. -/
def execHostStileCplRead (f : Fin 65) (s : State) : Res :=
  let r := s.portRead f.val
  .next { r.2 with readData := r.1.setWidth 256 }

end Sys2Proof.Machine
end

