-- ==== Sys2Proof/Machine/Coproc.lean ====
section
/-! DEFINITION. The coprocessors: Awl, Clasp and customer logic, their contexts, and what their functions compute
(09_coprocessors_and_tooling.md, R254 to R273). An accepted request is committed in the same step. -/

namespace Sys2Proof.Machine

/-! ### Contexts (R254 to R258) -/

/-- The context of coprocessor c of a thread, and it replaced. -/
def Thread.cp (th : Thread) (c : Nat) : CpCtx :=
  if c = 0 then th.awl else if c = 1 then th.clasp else SMap.get (fun _ => ⟨[], []⟩) th.custom c
def Thread.setCp (th : Thread) (c : Nat) (x : CpCtx) : Thread :=
  if c = 0 then { th with awl := x } else if c = 1 then { th with clasp := x }
  else { th with custom := SMap.set (fun _ => ⟨[], []⟩) th.custom c x }

/-- A register of a context, and it written. -/
def CpCtx.r (x : CpCtx) (n : Nat) : Nat := SMap.get (fun _ => 0) x.regs n
def CpCtx.setR (x : CpCtx) (n v : Nat) : CpCtx := { x with regs := SMap.set (fun _ => 0) x.regs n v }

/-- Part p of a register written. -/
def CpCtx.putPart (x : CpCtx) (n p : Nat) (v : Word64) : CpCtx :=
  let old := x.r n
  x.setR n (old - bitsOf old (64 * p + 63) (64 * p) * 2 ^ (64 * p) + v.toNat * 2 ^ (64 * p))

/-- An MTC that waited takes effect. -/
def CpCtx.mtc (x : CpCtx) (o : CpOp) : CpCtx :=
  match o.mtc with
  | some (p, v) => x.putPart o.cd p v
  | none => x

/-- What MFC reads: each MTC has been committed, also one behind a CPOP that has not ended (R256). -/
def CpCtx.seen (x : CpCtx) : CpCtx := x.ops.foldl CpCtx.mtc x

/-- Result registers are written. -/
def CpCtx.apply (x : CpCtx) (ws : List (Nat × Nat)) : CpCtx := ws.foldl (fun (x : CpCtx) w => x.setR w.1 w.2) x

/-- The oldest CPOP of a context ends with its results; the MTCs accepted between it and the next take effect in their order (R255). -/
def CpCtx.finish (x : CpCtx) (ws : List (Nat × Nat)) : CpCtx :=
  let rest := x.ops.drop 1
  let y := (rest.takeWhile (fun o => o.mtc.isSome)).foldl CpCtx.mtc (x.apply ws)
  { y with ops := rest.dropWhile (fun o => o.mtc.isSome) }

/-- The registers and the parts of a coprocessor; none where it is not attached (R2, R223, R254). -/
def State.cpFile (s : State) (c : Nat) : Option (Nat × Nat) :=
  match c with
  | 0 => some (16, 2)
  | 1 => some (8, 4)
  | 2 => none
  | 3 => none
  | _ => if s.variant = 2 then (Config.customLogic c).map (fun x => (x.1, x.2.1)) else none

/-! ### Awl (R267) -/

/-- Bytes of an Awl register. -/
def awlBytes (v : Nat) : List Byte := leBytes 16 v

/-- The carry-less product of n bits of a and b. -/
def clmulNat (n a b : Nat) : Nat := (List.range n).foldl (fun acc i => if b.testBit i then acc ^^^ (a <<< i) else acc) 0

/-- The functions that take ct as a number. -/
def awlImm (fn : Nat) : Bool := fn == 5 || fn == 6

/-- Whether a CPOP of Awl is defined: a field that names a register names one of its file, also where the function does not use it
(R248). -/
def awlKnown (fn cd cs ct : Nat) : Bool :=
  decide (fn ≤ 0x0D) && decide (cd < 16) && decide (cs < 16) && (awlImm fn || decide (ct < 16))

/-- What cd receives: from the values of cd, cs and ct, the field ct, and a free value for what R267 does not state (a CRC
over bytes beyond the register, a field of more than 64 bits). -/
def awlResult (fn d c x imm free : Nat) : Nat :=
  match fn with
  | 0x00 => c
  | 0x01 => c ^^^ x
  | 0x02 => c &&& x
  | 0x03 => c ||| x
  | 0x04 => onesSum (d % 65536) (awlBytes c)
  | 0x05 => if imm < 16 then crcReflected 0x82F63B78 (d % 2 ^ 32) ((awlBytes c).take (imm + 1)) else free % 2 ^ 32
  | 0x06 => if imm < 16 then crcReflected 0xEDB88320 (d % 2 ^ 32) ((awlBytes c).take (imm + 1)) else free % 2 ^ 32
  | 0x07 => clmulNat 64 (c % 2 ^ 64) (x % 2 ^ 64)
  | 0x08 => if bitsOf x 14 8 < 64 then bitsOf c (bitsOf x 6 0 + bitsOf x 14 8) (bitsOf x 6 0) else free % 2 ^ 64
  | 0x09 =>
    let len := bitsOf x 14 8 + 1
    let mask := (2 ^ len - 1) <<< bitsOf x 6 0
    ((d ||| mask) ^^^ mask ||| (c % 2 ^ len) <<< bitsOf x 6 0) % 2 ^ 128
  | 0x0A => leNat ((awlBytes x).map (fun b => if b.getLsbD 7 then 0 else byteAt (awlBytes c) (b.toNat % 16)))
  | 0x0B => leNat (awlBytes c).reverse
  | 0x0C => onesOf c
  | _ => sumOf (List.range 16) (fun i => if byteAt (awlBytes c) i = byteAt (awlBytes x) i then 2 ^ i else 0)

/-- Whether a function's result is free for its operands. -/
def awlOpen (fn x imm : Nat) : Bool := (awlImm fn && decide (16 ≤ imm)) || (fn == 8 && decide (64 ≤ bitsOf x 14 8))

/-! ### Clasp (R268 to R272) -/

/-- A key slot, and it replaced. -/
def State.keySlot (s : State) (k : Nat) : KeySlot := SMap.get (fun _ => ⟨none, 0⟩) s.keys k
def State.setKeySlot (s : State) (k : Nat) (x : KeySlot) : State := s.modKeys (fun m => SMap.set (fun _ => ⟨none, 0⟩) m k x)

/-- Bytes of a Clasp register. -/
def claspBytes (v : Nat) : List Byte := leBytes 32 v

/-- How many registers from cs a function reads, and from cd it writes, none for an undefined function. -/
def claspShape (fn : Nat) : Option (Nat × Nat) :=
  if fn = 0x00 ∨ fn = 0x01 ∨ fn = 0x02 ∨ fn = 0x08 ∨ fn = 0x09 then some (1, 0)
  else if fn = 0x03 ∨ fn = 0x04 ∨ fn = 0x06 ∨ fn = 0x0A ∨ fn = 0x0B ∨ fn = 0x0D then some (1, 1)
  else if fn = 0x05 ∨ fn = 0x0C ∨ fn = 0x12 ∨ fn = 0x1F then some (0, 1)
  else if fn = 0x10 ∨ fn = 0x14 ∨ fn = 0x18 then some (0, 0)
  else if fn = 0x11 then some (2, 0)
  else if fn = 0x15 then some (4, 0)
  else if fn = 0x16 then some (0, 2)
  else none

/-- The functions that take ct as a number: those with a length (R269). -/
def claspImm (fn : Nat) : Bool := [0x02, 0x03, 0x04, 0x09, 0x0A, 0x0B].contains fn

/-- Whether a CPOP of Clasp is defined: its registers do not run past k7 (R269), and a field that names a register names one of its
file, also where the function does not use it (R248). -/
def claspKnown (fn cd cs ct : Nat) : Bool :=
  match claspShape fn with
  | some (r, w) => decide (cs + max 1 r ≤ 8) && decide (cd + max 1 w ≤ 8) && (claspImm fn || decide (ct < 8))
  | none => false

/-- Whether a function needs a key (R269): GCM, CCP and the begin of HMAC. -/
def claspNeedsKey (fn : Nat) : Bool := (decide (1 ≤ fn) && decide (fn ≤ 0x0D)) || fn == 0x18

/-- The key a context has selected: none selected, gone (its generation changed), or its bytes. -/
inductive ClaspKey where
  | noKey | gone | key (k : List Byte)
  deriving DecidableEq, Repr

/-- R268. -/
def State.claspKey (s : State) (h : ClaspHidden) : ClaspKey :=
  match h.sel with
  | none => .noKey
  | some (slot, gen) =>
    if (s.keySlot slot).gen ≠ gen then .gone
    else match (s.keySlot slot).held with
      | some (_, _, k) => .key k
      | none => .gone

/-- The key stream of a context from byte n on, for len bytes. -/
def claspStream (ccp : Bool) (key iv : List Byte) (n len : Nat) : List Byte :=
  let z := List.replicate (n + len) (0 : Byte)
  (if ccp then chachaCrypt key iv ((n + len) / 64 + 1) 1 z else gcmCrypt key iv z).drop n

/-- The tag of a computation. -/
def claspTag (ccp : Bool) (key : List Byte) (c : ClaspSum) : List Byte :=
  if ccp then
    let otk := (chachaBlock key c.iv 0).take 32
    polyTagOf otk (polyAdd (polyR otk) (polyAdd (polyR otk) 0 c.aad) c.data) c.aad.length c.data.length
  else gcmTag key c.iv c.aad c.data

/-- The computation that a function works on, and it replaced. -/
def ClaspHidden.sum (h : ClaspHidden) (fn : Nat) : ClaspSum :=
  if fn < 8 then h.gcm else if fn < 0x10 then h.ccp else if fn < 0x14 ∨ fn = 0x18 then h.sha256 else h.sha512
def ClaspHidden.setSum (h : ClaspHidden) (fn : Nat) (c : ClaspSum) : ClaspHidden :=
  if fn < 8 then { h with gcm := c } else if fn < 0x10 then { h with ccp := c }
  else if fn < 0x14 ∨ fn = 0x18 then { h with sha256 := c } else { h with sha512 := c }

/-- Whether a function's output has no stated value: its computation has not begun (R269; log 66). -/
def claspOpen (fn : Nat) (c : ClaspSum) : Bool :=
  !c.begun && [0x03, 0x04, 0x05, 0x06, 0x0A, 0x0B, 0x0C, 0x0D, 0x12, 0x16].contains fn

/-- How many bits a function's output has; `len`: the bytes named by ct. -/
def claspWidth (fn len : Nat) : Nat :=
  if fn = 0x05 ∨ fn = 0x0C then 128 else if fn = 0x06 ∨ fn = 0x0D then 1 else if fn = 0x12 then 256 else if fn = 0x16 then 512 else 8 * len

/-- The output of a function as a number (R269). `inp`: the bytes named by ct of k[cs], `tag`: bytes 0 to 15 of k[cs]. -/
def claspOut (fn : Nat) (inp tag : List Byte) (c : ClaspSum) : Nat :=
  let ccp := decide (8 ≤ fn) && decide (fn ≤ 0x0D)
  let key := c.key.getD []
  if fn = 0x05 ∨ fn = 0x0C then leNat (claspTag ccp key c)
  else if fn = 0x06 ∨ fn = 0x0D then bit (tag == claspTag ccp key c)
  else if fn = 0x12 then leNat (match c.key with
    | some k => hmac sha256 64 k c.data
    | none => sha256 c.data)
  else if fn = 0x16 then leNat (sha512 c.data)
  else leNat (xorBytes inp (claspStream ccp key c.iv c.data.length inp.length))

/-- A computation after a function (R269): `key`: the key selected, `src`: the bytes from k[cs] on, `out`: the function's output. -/
def claspAfter (fn : Nat) (key src inp : List Byte) (out : Nat) (c : ClaspSum) : ClaspSum :=
  match fn with
  | 0x01 => ⟨true, some key, src.take 12, [], []⟩
  | 0x08 => ⟨true, some key, src.take 12, [], []⟩
  | 0x02 => { c with aad := c.aad ++ inp }
  | 0x09 => { c with aad := c.aad ++ inp }
  | 0x03 => { c with data := c.data ++ leBytes inp.length out }
  | 0x0A => { c with data := c.data ++ leBytes inp.length out }
  | 0x04 => { c with data := c.data ++ inp }
  | 0x0B => { c with data := c.data ++ inp }
  | 0x10 => ⟨true, none, [], [], []⟩
  | 0x14 => ⟨true, none, [], [], []⟩
  | 0x18 => ⟨true, some key, [], [], []⟩
  | 0x11 => { c with data := c.data ++ src }
  | 0x15 => { c with data := c.data ++ src }
  | 0x12 => .zero
  | 0x16 => .zero
  | _ => c

/-- A Clasp operation as it runs on a context (R268, R269): what it writes, and the hidden state it leaves. The ct of a KEYSEL is the slot. -/
def State.claspRun (s : State) (o : CpOp) (x : CpCtx) (h : ClaspHidden) : List (Nat × Nat) × ClaspHidden :=
  let shape := (claspShape o.fn).getD (0, 0)
  let put (v : Nat) : List (Nat × Nat) := (List.range shape.2).map (fun i => (o.cd + i, v / 2 ^ (256 * i) % 2 ^ 256))
  let src := (List.range shape.1).flatMap (fun i => claspBytes (x.r (o.cs + i)))
  let inp := src.take (o.ct + 1)
  let c := h.sum o.fn
  let run (key : List Byte) : List (Nat × Nat) × ClaspHidden :=
    let out := if claspOpen o.fn c then s.freeBits % 2 ^ claspWidth o.fn (o.ct + 1) else claspOut o.fn inp (src.take 16) c
    let h1 := h.setSum o.fn (claspAfter o.fn key src inp out c)
    (put out, if (o.fn = 0x06 ∨ o.fn = 0x0D) ∧ out = 0 then { h1 with status := h1.status ||| 2 } else h1)
  if o.fn = 0x00 then ([], { h with sel := some (o.ct, o.gen) })
  else if o.fn = 0x1F then (put h.status, h)
  else match s.claspKey h with
    | .gone => (put 0, { h with status := h.status ||| 1 })
    | .noKey => if claspNeedsKey o.fn then (put 0, { h with status := h.status ||| 4 }) else run []
    | .key k => run k

/-- The bytes an operation reports to Sheaf (R272). -/
def claspReport (fn len : Nat) : Nat :=
  if claspImm fn then len
  else if fn = 0x11 then 64 else if fn = 0x15 then 128 else 0

/-- Context number of a thread, and the thread of a context (R255). -/
def ctxOf (t : Nat) : Nat := t % 72
def ctxThread (q c : Nat) : Nat := 72 * q + c

/-- The oldest operation of a Quire's Clasp begins to run, if it has not (R270). -/
def State.claspStart (s : State) (q : Nat) : State :=
  match (s.quire q).claspQ with
  | [] => s
  | c :: _ =>
    let t := ctxThread q c
    let th := s.thread t
    match th.clasp.ops with
    | o :: rest =>
      if o.writes.isSome then s
      else
        let r := s.claspRun o th.clasp th.hidden
        let bad : Bool := match s.claspKey th.hidden with
          | .gone => o.fn != 0x00 && o.fn != 0x1F
          | .noKey => claspNeedsKey o.fn
          | .key _ => false
        let s1 := s.setThread t { th with clasp := { th.clasp with ops := { o with writes := some r.1 } :: rest }, hidden := r.2 }
        let s2 := if claspOpen o.fn (th.hidden.sum o.fn) then s1.stepFresh else s1
        if bad then s2.count (quireWin q) 0x204C else s2
    | [] => s

/-- What a hidden state holds, as bytes. -/
def ClaspSum.parts (c : ClaspSum) : List (List Byte) := [leBytes 1 (bit c.begun), c.key.getD [], c.iv, c.aad, c.data]
def ClaspHidden.parts (h : ClaspHidden) : List (List Byte) :=
  let sel := match h.sel with
    | some (slot, gen) => leBytes 2 slot ++ leBytes 8 gen
    | none => []
  sel :: leBytes 1 h.status :: (h.gcm.parts ++ h.ccp.parts ++ h.sha256.parts ++ h.sha512.parts)

/-- Where the image of Clasp context n lies in Quire shared memory (R260). -/
def claspSave (n : Nat) : Nat := 0x3F6000 + 0x200 * n

/-- The image of a context that Clasp does not hold becomes zero. -/
def State.clearSave (s : State) (q n : Nat) : State :=
  let x := s.quire q
  if x.resident.contains n then s
  else
    let keep (c : Host.Cell) : Bool := decide (c.1 < claspSave n) || decide (claspSave n + 512 ≤ c.1)
    (s.setQuire q { x with shared := x.shared.filter keep }).eccWrite (quireWin q) 0 (claspSave n) 512

/-- A thread's contexts on every coprocessor are reset (R258): zero, with nothing pending. -/
def State.cpReset (s : State) (t : Nat) : State :=
  let q := tidQuire t
  let x := s.quire q
  let s1 := s.modThread t (fun th => { th with awl := ⟨[], []⟩, clasp := ⟨[], []⟩, hidden := .zero, custom := [] })
  let s2 := s1.setQuire q { x with claspQ := x.claspQ.filter (· ≠ ctxOf t), switchQ := x.switchQ.filter (· ≠ ctxOf t) }
  (s2.clearSave q (ctxOf t)).claspStart q

end Sys2Proof.Machine
end

