-- ==== Sys2Proof/Machine/LeafMemory.lean ====
section
/-! DEFINITION. What a thread reaches beyond its registers: local memory, the remote spaces with their tenant windows, the
supervisor page, thread reset and restart (R204, R205, R210, R214 to R219, R237 to R244, R283 to R285). -/

namespace Sys2Proof.Machine

/-! ### Tenant windows (R216, R217, R283 to R285) -/

/-- Fields of a window entry. -/
def winBase (v : Word128) : Nat := bitsOf v.toNat 39 0 * 256
def winSize (v : Word128) : Nat := bitsOf v.toNat 103 64 * 256
def winSpace (v : Word128) : Nat := bitsOf v.toNat 113 112
def winR (v : Word128) : Bool := v.getLsbD 116
def winW (v : Word128) : Bool := v.getLsbD 117
def winEn (v : Word128) : Bool := v.getLsbD 119

/-- The bytes of a space (R216). -/
def State.spaceSize (s : State) (sp : Nat) : Nat :=
  match sp with
  | 0 => 0x400000
  | 1 => 0xC00000000
  | 2 => min s.tmPopulated 0x30000000000
  | _ => 0x4000

/-- The profile a thread's accesses are checked against (R283). -/
def State.profileOf (s : State) (t : Nat) : Option Nat :=
  if s.isSup t then some 0
  else match s.heldTask t with
    | some (_, x) =>
      let p := SMap.get (fun _ => 0) (s.quire (tidQuire t)).tenantMap x.tenant
      if p = 0 then none else some p
    | none => none

/-- Whether one enabled window of a profile covers an access (R284). -/
def State.windowCovers (s : State) (q p sp a n : Nat) (r w : Bool) : Bool :=
  (List.range 16).any (fun i =>
    let v := SMap.get (fun _ => 0) (s.quire q).profiles (16 * p + i)
    winEn v && winSpace v == sp && decide (winBase v ≤ a) && decide (a + n ≤ winBase v + winSize v) && (!r || winR v) && (!w || winW v))

/-- Whether an access to a remote space is performed (R217 to R219, R285). -/
def State.accessOk (s : State) (t sp a n : Nat) (r w : Bool) : Bool :=
  if s.spaceSize sp < a + n then false
  else if sp = 3 then (s.heldTask t).isSome
  else if sp = 0 ∧ 0x3FF000 ≤ a then s.isSup t
  else if sp = 0 ∧ 0x3A0000 < a + n then false
  else if !s.isSup t && (s.heldTask t).isNone then false
  else match s.profileOf t with
    | some p => s.windowCovers (tidQuire t) p sp a n r w
    | none => false

/-! ### Quire shared memory -/

/-- Shared bytes are read: whether a codeword was uncorrectable, the bytes, and the state with the errors logged. -/
def State.sharedRead (s : State) (q a n : Nat) : Bool × List Byte × State :=
  let r := s.eccRead (quireWin q) 0 a n
  (r.1, s.eccFixed (quireWin q) 0 a (Memory.readBytes (s.quire q).shared a n), r.2)

/-- Shared bytes are written. -/
def State.sharedWrite (s : State) (q a : Nat) (data : List Byte) : State :=
  let x := s.quire q
  (s.setQuire q { x with shared := Memory.writeBytes x.shared a data }).eccWrite (quireWin q) 0 a data.length

/-! ### Tasks that end without a post (R166, R197, R210) -/

/-- A thread loses its task: the position is dropped under a Sheaf counter, and the node ends without a join event. -/
def State.loseTask (s : State) (t diag : Nat) : State :=
  match s.heldTask t with
  | none => s
  | some (k, x) => (((s.dropPos x.pos diag).endTask k).modThread t Thread.noTask).cleanJoins

/-! ### Thread start and reset (R175, R210) -/

/-- What a thread keeps when it is reset or starts anew: SEV words go on to their targets, DMA posts already accepted take effect (R210), and
an entry pending at the supervisor stays pending (R510). -/
def Thread.kept (th : Thread) : Thread :=
  { Thread.zero with sevs := th.sevs, orphans := th.orphans ++ th.ops.filter (fun o => decide (o.kind = .dma)), nmi := th.nmi }

/-- An instruction address: a multiple of 4 in the program store (R212, R214). -/
def programAddr (a : Nat) : Nat := a / 4 * 4 % 0x80000

/-- A thread as it starts (R175): at its role's entry, with its role's handler address. A Quire that never loaded a Sheet set
names no entry: its threads are not started. -/
def State.startThread (s : State) (t : Nat) (halted : Bool) (delay : Nat) : State :=
  let z := (s.thread t).kept
  let s := s.cpReset t
  match (s.quire (tidQuire t)).entries with
  | none => s.setThread t z
  | some (se, sh, we, wh) =>
    let p := if s.isSup t then (se, sh) else (we, wh)
    s.setThread t { z with started := true, pc := programAddr p.1, evec := programAddr p.2, halted := halted, notBefore := s.time.cycles + delay }


/-! ### The supervisor page (R204, R205) -/


/-- A fault record and its map bit are cleared. -/
def State.clearRecord (s : State) (t : Nat) : State :=
  let w := quireWin (tidQuire t)
  let n := t % 72
  let s1 := (List.range 8).foldl (fun (s : State) k => s.setReg w (0x1000 + 0x20 * n + 4 * k) 0) s
  s1.setRf w (0x1900 + 4 * (n / 32)) (n % 32) (n % 32) 0

/-- One 32-bit register of the supervisor page is read, with what the read does: RC fields clear (R6). -/
def State.pageRead (s : State) (q off : Nat) : Word32 × State :=
  let w := quireWin q
  let v := s.reg w (0x1000 + off)
  if off = 0x910 then
    let f := (List.range 3).any (fun k => s.reg w (0x1900 + 4 * k) ≠ 0)
    (putFld v 0 0 (bit f), s)
  else if off = 0x914 then (0, s)
  else if off = 0x920 then (putFld v 31 31 (bit (s.quire q).episode.isSome), s.setReg w 0x1920 0)
  else if 0x940 ≤ off ∧ off < 0x960 then (v, s.setReg w (0x1000 + off) 0)
  else if (regAt w (0x1000 + off)).isSome then (v, s)
  else (0, s.count w 0x2C)

/-- The bytes of the page from an offset: each 32-bit register they touch is read once. -/
def State.pageBytes (s : State) (q off n : Nat) : List Byte × State :=
  let first := off / 4
  let r := (List.range ((off + n + 3) / 4 - first)).foldl (fun (acc : List Byte × State) k =>
    let x := acc.2.pageRead q (4 * (first + k))
    (acc.1 ++ leBytes 4 x.1.toNat, x.2)) ([], s)
  (bytesAt r.1 (off - 4 * first) n, r.2)

/-! ### Performing remote operations -/

/-- An operation on Quire shared memory is performed: whether it met an uncorrectable error, what it returns, and its
effect. `write`: how a register of the supervisor page is written. -/
def State.performShared (s : State) (write : State → Nat → Nat → Word32 → State) (t : Nat) (o : LeafOp) : Bool × List Byte × State :=
  let q := tidQuire t
  let put (s : State) (data : List Byte) : State :=
    if 0x3FF000 ≤ o.addr then
      let off := o.addr - 0x3FF000
      let words := (List.range ((off + data.length + 3) / 4 - off / 4)).map (fun k => 4 * (off / 4 + k))
      words.foldl (fun (s : State) a =>
        let keep := if a = 0x918 ∨ a = 0x91C then leBytes 4 (s.reg (quireWin q) (0x1000 + a)).toNat else [0, 0, 0, 0]
        let v := (List.range 4).map (fun i => if off ≤ a + i ∧ a + i < off + data.length then byteAt data (a + i - off) else byteAt keep i)
        write s q a (BitVec.ofNat 32 (leNat v))) s
    else s.sharedWrite q o.addr data
  let get (s : State) : Bool × List Byte × State :=
    if 0x3FF000 ≤ o.addr then let r := s.pageBytes q (o.addr - 0x3FF000) o.len; (false, r.1, r.2)
    else s.sharedRead q o.addr o.len
  match o.kind, o.amo with
  | .amo, some (op, opnd, cmp) =>
    let r := get s
    if r.1 then r
    else (false, r.2.1, put r.2.2 (leBytes o.len (amoResult op (leNat r.2.1) opnd.toNat cmp.toNat o.len)))
  | .store, _ => (false, [], put s o.data)
  | .xst, _ => (false, [], put s o.data)
  | _, _ => get s

/-- A thread reset (R210): operations already accepted take effect at their targets and nothing of them reaches the thread; its
locks are freed once its writes are complete; a task it holds is lost. -/
def State.resetThreadWith (s : State) (write : State → Nat → Nat → Word32 → State) (t : Nat) (halted : Bool) (delay : Nat) : State :=
  let th := s.thread t

  let s1 := (th.ops.filter (fun o => o.writes && o.sp == 0)).foldl (fun (s : State) o => (s.performShared write t o).2.2) s
  let s2 := s1.modWarren (fun w => { w with threads := w.threads.map (fun e => if e.1 = t then (t, e.2.map (fun j => { j with pid := some 0 })) else e) })
  let s3 := ((s2.loseTask t 60).depart (tidWord t)).startThread t halted delay
  s3.eccWrite (tidLeafWin t) 0 (localBase t) 6144

/-- A register of the page is written, but for QUIRE_THREAD_CMD (R204, R205). -/
def State.pageWriteQuiet (s : State) (q off : Nat) (v : Word32) : State :=
  let w := quireWin q
  if off = 0x910 then s.setReg w 0x1910 (s.reg w 0x1910 &&& ~~~(v &&& 2))
  else if off = 0x918 then s.setReg w 0x1918 (v &&& 0xFF)
  else if off = 0x91C then s.setReg w 0x191C v
  else if (regAt w (0x1000 + off)).isSome then s
  else s.count w 0x2C

/-- A thread reset; a supervisor's own page stores still under way write no thread command. -/
def State.resetThread (s : State) (t : Nat) (halted : Bool) (delay : Nat) : State :=
  s.resetThreadWith State.pageWriteQuiet t halted delay

/-- RESTART of thread n of a Quire: reset, record cleared, start at the role's entry after 16 LEAF cycles (R205). -/
def State.restartThread (s : State) (t : Nat) : State := if s.leafServes t then (s.resetThread t false 8).clearRecord t else s

/-- CLEAR_RECORD (R205). -/
def State.clearRecordCmd (s : State) (t : Nat) : State := if s.leafServes t then s.clearRecord t else s

/-- A command of QUIRE_THREAD_CMD: 1 RESTART, 2 CLEAR_RECORD; threads 72 to 127 and command 3 are reserved (R11). -/
def State.threadCmd (s : State) (q cmd n : Nat) : State :=
  if 72 ≤ n ∨ 3 ≤ cmd then s.cfgReject (quireWin q) 0x1914
  else match cmd with
    | 1 => s.restartThread (72 * q + n)
    | 2 => s.clearRecordCmd (72 * q + n)
    | _ => s

/-- A register of the page is written. -/
def State.pageWrite (s : State) (q off : Nat) (v : Word32) : State :=
  if off = 0x914 then s.threadCmd q (fld v 9 8) (fld v 6 0) else s.pageWriteQuiet q off v

/-- RESTART, CLEAR_RECORD: a write of QUIRE_THREAD_CMD. -/
def execThreadRestart (q : Fin 24) (n : BitVec 7) (s : State) : Res := .next (s.threadCmd q.val 1 n.toNat)
def execClearRecord (q : Fin 24) (n : BitVec 7) (s : State) : Res := .next (s.threadCmd q.val 2 n.toNat)

/-! ### LDL and STL (R237) -/

/-- The effective address of a base and a signed byte offset: the full 64-bit sum (R214). -/
def effAddr (base : Word64) (off : Int) : Nat := (base + BitVec.ofInt 64 off).toNat

/-- Bytes in the order be selects. -/
def orderedNat (be : Bool) (bs : List Byte) : Nat := if be then beNat bs else leNat bs
def orderedBytes (be : Bool) (n v : Nat) : List Byte := if be then beBytes n v else leBytes n v

/-- LDL: R237, R244. -/
def execLdl (t : Tid) (gd gs : Reg) (sz : BitVec 2) (sx be : Bool) (off : BitVec 12) (s : State) : Res :=
  s.leafRun t.val (encL 0x18 gd.val gs.val sz.toNat (bit sx) (bit be) off.toNat) (fun s th =>
    let a := effAddr (th.g gs.val) (sextNat 12 off.toNat)
    let n := sizeOf sz.toNat
    if a % n ≠ 0 ∨ !localOk a n then .fault s fDOMAIN a
    else
      let r := s.localRead t.val a n
      if r.1 then .fault r.2.2 fDATA a
      else
        let v := orderedNat be r.2.1
        let x : Word64 := if sx then (BitVec.ofNat (8 * n) v).signExtend 64 else BitVec.ofNat 64 v
        .next (r.2.2.setThread t.val (th.result gd.val 2 x)))

/-- STL: R237; a store to a read-only area raises DOMAIN (R150, R214). -/
def execStl (t : Tid) (gt gs : Reg) (sz : BitVec 2) (be : Bool) (off : BitVec 12) (s : State) : Res :=
  s.leafRun t.val (encL 0x19 gt.val gs.val sz.toNat 0 (bit be) off.toNat) (fun s th =>
    let a := effAddr (th.g gs.val) (sextNat 12 off.toNat)
    let n := sizeOf sz.toNat
    if a % n ≠ 0 ∨ !localStoreOk a n then .fault s fDOMAIN a
    else .next (s.localWrite t.val a (orderedBytes be n (th.g gt.val).toNat)))

/-! ### Remote instructions (R238 to R240) -/

/-- The bytes of a thread's packet as its cells give them, zero beyond its frame (R219); free where its cells are no longer held. -/
def State.packetSpace (s : State) (pid a n : Nat) : List Byte × State :=
  match s.packet pid with
  | some p => (bytesAt (s.packetData p) a n, s)
  | none => (leBytes n s.freeBits, s.stepFresh)

/-- A remote operation is issued, or faults, or stalls as a 17th (R217, R218, R228). -/
def State.remoteOp (s : State) (t : Nat) (th : Thread) (o : LeafOp) (align : Nat) (r w : Bool) : LeafAct :=
  if o.addr % align ≠ 0 ∨ !s.accessOk t o.sp o.addr o.len r w then .fault s fDOMAIN o.addr
  else if 16 ≤ th.outstanding then .stall s
  else if o.sp = 0 then .next (s.setThread t { th with ops := th.ops ++ [o] })
  else if o.sp = 3 then
    let pid := ((s.heldTask t).map (·.2.pid)).getD 0
    let b := s.packetSpace pid o.addr o.len
    .next (b.2.setThread t { th with ops := th.ops ++ [{ o with data := b.1, pid := pid }] })
  else
    let m := newReq (o.sp == 2) o.addr o.len (if o.kind == .store || o.kind == .xst then some o.data else none)
      (o.amo.map (fun x => (x.1, x.2.1, x.2.2, o.len == 8))) none
    let i := s.issueMem (4 * t + o.sp) m
    .next (i.2.setThread t { th with ops := th.ops ++ [{ o with id := i.1 }] })

/-- An operation of the instruction being issued. -/
def newOp (th : Thread) (kind : OpKind) (sp : Nat) (w : Word32) : LeafOp :=
  ⟨0, th.issued, kind, sp, 0, none, 0, 0, 0, w, [], none, 0⟩

/-- LDA: R238. -/
def execLda (t : Tid) (gd gs : Reg) (ev : BitVec 5) (sp sz : BitVec 2) (off : BitVec 6) (s : State) : Res :=
  let w := encM 0x1A gd.val gs.val ev.toNat 1 sp.toNat sz.toNat off.toNat
  s.leafRun t.val w (fun s th =>
    let n := sizeOf sz.toNat
    let o := { newOp th .load sp.toNat w with
      dst := gd.val, ev := some ev.toNat, addr := effAddr (th.g gs.val) (sextNat 6 off.toNat * n), len := n }
    s.remoteOp t.val th o n true false)

/-- STA: gt is read in the issuing slot (R238). -/
def execSta (t : Tid) (gt gs : Reg) (ev : BitVec 5) (e : Bool) (sp sz : BitVec 2) (off : BitVec 6) (s : State) : Res :=
  let w := encM 0x1B gt.val gs.val ev.toNat (bit e) sp.toNat sz.toNat off.toNat
  s.leafRun t.val w (fun s th =>
    let n := sizeOf sz.toNat
    let o := { newOp th .store sp.toNat w with
      ev := if e then some ev.toNat else none, addr := effAddr (th.g gs.val) (sextNat 6 off.toNat * n), len := n, data := leBytes n (th.g gt.val).toNat }
    s.remoteOp t.val th o n false true)

/-- AMO: gt and, for CAS, gd are read in the issuing slot (R239). -/
def State.amoInstr (s : State) (t gd gs gt ev op sp : Nat) (wd : Bool) : Res :=
  let w := encA gd gs gt ev op sp (bit wd)
  s.leafRun t w (fun s th =>
    let n := if wd then 8 else 4
    let o := { newOp th .amo sp w with
      dst := gd, ev := some ev, addr := (th.g gs).toNat, len := n, amo := some (op, th.g gt, th.g gd) }
    s.remoteOp t th o n true true)

/-- AMOSWAP, AMOADD, AMOAND, AMOOR, AMOXOR, AMOMAXU, AMOMINU, AMOCAS: op 0 to 7 (R239). -/
def execAmoswap (t : Tid) (gd gs gt : Reg) (ev : BitVec 5) (sp : BitVec 2) (wd : Bool) (s : State) : Res :=
  s.amoInstr t.val gd.val gs.val gt.val ev.toNat 0 sp.toNat wd
def execAmoadd (t : Tid) (gd gs gt : Reg) (ev : BitVec 5) (sp : BitVec 2) (wd : Bool) (s : State) : Res :=
  s.amoInstr t.val gd.val gs.val gt.val ev.toNat 1 sp.toNat wd
def execAmoand (t : Tid) (gd gs gt : Reg) (ev : BitVec 5) (sp : BitVec 2) (wd : Bool) (s : State) : Res :=
  s.amoInstr t.val gd.val gs.val gt.val ev.toNat 2 sp.toNat wd
def execAmoor (t : Tid) (gd gs gt : Reg) (ev : BitVec 5) (sp : BitVec 2) (wd : Bool) (s : State) : Res :=
  s.amoInstr t.val gd.val gs.val gt.val ev.toNat 3 sp.toNat wd
def execAmoxor (t : Tid) (gd gs gt : Reg) (ev : BitVec 5) (sp : BitVec 2) (wd : Bool) (s : State) : Res :=
  s.amoInstr t.val gd.val gs.val gt.val ev.toNat 4 sp.toNat wd
def execAmomaxu (t : Tid) (gd gs gt : Reg) (ev : BitVec 5) (sp : BitVec 2) (wd : Bool) (s : State) : Res :=
  s.amoInstr t.val gd.val gs.val gt.val ev.toNat 5 sp.toNat wd
def execAmominu (t : Tid) (gd gs gt : Reg) (ev : BitVec 5) (sp : BitVec 2) (wd : Bool) (s : State) : Res :=
  s.amoInstr t.val gd.val gs.val gt.val ev.toNat 6 sp.toNat wd
def execAmocas (t : Tid) (gd gs gt : Reg) (ev : BitVec 5) (sp : BitVec 2) (wd : Bool) (s : State) : Res :=
  s.amoInstr t.val gd.val gs.val gt.val ev.toNat 7 sp.toNat wd

/-- XLD: R240. -/
def execXld (t : Tid) (gl gs : Reg) (ev : BitVec 5) (sp : BitVec 2) (lenm1 : BitVec 6) (s : State) : Res :=
  let w := encX 0x1D gl.val gs.val ev.toNat sp.toNat lenm1.toNat
  s.leafRun t.val w (fun s th =>
    let n := 8 * (lenm1.toNat + 1)
    let l := (th.g gl.val).toNat
    if l % 8 ≠ 0 ∨ !localStoreOk l n then .fault s fDOMAIN l
    else
      let o := { newOp th .xld sp.toNat w with ev := some ev.toNat, addr := (th.g gs.val).toNat, len := n, loc := l }
      s.remoteOp t.val th o 8 true false)

/-- XST: the local bytes are taken in the issuing slot (R240, R244). -/
def execXst (t : Tid) (gl gs : Reg) (ev : BitVec 5) (sp : BitVec 2) (lenm1 : BitVec 6) (s : State) : Res :=
  let w := encX 0x1E gl.val gs.val ev.toNat sp.toNat lenm1.toNat
  s.leafRun t.val w (fun s th =>
    let n := 8 * (lenm1.toNat + 1)
    let l := (th.g gl.val).toNat
    if l % 8 ≠ 0 ∨ !localOk l n then .fault s fDOMAIN l
    else
      let r := s.localRead t.val l n
      if r.1 then .fault r.2.2 fDATA l
      else
        let o := { newOp th .xst sp.toNat w with ev := some ev.toNat, addr := (th.g gs.val).toNat, len := n, loc := l, data := r.2.1 }
        r.2.2.remoteOp t.val th o 8 false true)

/-! ### FENCE and completions (R186, R226, R243) -/

/-- A FENCE whose writes are complete lets its thread go on. -/
def State.fenceDone (s : State) (t : Nat) : State :=
  let th := s.thread t
  match th.wait with
  | .fence => if th.ops.any LeafOp.writes then s else s.setThread t { th with wait := .none }.goOn.stepped
  | _ => s

/-- FENCE: R186, R243. -/
def execFence (t : Tid) (s : State) : Res :=
  s.leafRun t.val (encR 0x20 0 0 0 0x005) (fun s th =>
    if th.ops.any LeafOp.writes then .hold (s.setThread t.val { th with wait := .fence }) else .next s)

/-- An operation's answer reaches its thread: registers, then event; or DATA_ERROR, with no register written (R195, R244). -/
def State.deliverOp (s : State) (t : Nat) (o : LeafOp) (bad : Bool) (data : List Byte) : State :=
  let s1 :=
    if !(s.thread t).ops.contains o then s
    else if bad then
      let s2 := s.modThread t (fun th => { th with ops := removeFirst (fun x => decide (x = o)) th.ops, stalled := false })
      if (s2.thread t).fault.isNone then s2.stopThread t fDATA true o.word o.addr else s2
    else match o.kind with
      | .load => s.endOp t o [(o.dst, BitVec.ofNat 64 (leNat data))]
      | .amo => s.endOp t o [(o.dst, BitVec.ofNat 64 (leNat data))]
      | .xld => (s.localWrite t o.loc data).endOp t o []
      | _ => s.endOp t o []
  s1.fenceDone t

/-- Whether an operation is a memory operation in a space. -/
def LeafOp.inSpace (o : LeafOp) (sp : Nat) : Bool :=
  o.sp == sp && (o.kind == .load || o.kind == .store || o.kind == .amo || o.kind == .xld || o.kind == .xst)

/-- ASYNC_COMPLETION: the oldest operation of a thread in a space completes: a shared memory operation is performed now, one in
buffer or table memory has been performed and served, and a packet read finds its cells (R226, R242). -/
def execAsyncCompletion (t : Tid) (sp : BitVec 2) (s : State) : Res :=
  match (s.thread t.val).ops.find? (fun o => o.inSpace sp.toNat) with
  | none => .next s
  | some o =>
    if o.sp = 0 then
      let r := s.performShared State.pageWrite t.val o
      .next (r.2.2.deliverOp t.val o r.1 r.2.1)
    else if o.sp = 3 then
      if s.cellsAvail o.pid = .hold then .next s
      else
        let r := s.readPacket o.pid (o.addr / 256) ((o.addr + o.len - 1) / 256 + 1 - o.addr / 256)
        .next (r.2.deliverOp t.val o (r.1 || decide (s.cellsAvail o.pid = .bad)) o.data)
    else match SMap.find s.mem.done o.id with
      | none => .next s
      | some d =>
        if !s.served o.id then .next s
        else .next ((s.modMem (fun m => { m with done := SMap.erase m.done o.id })).deliverOp t.val o d.bad d.data)

end Sys2Proof.Machine
end

