-- ==== Sys2Proof/Machine/CoprocCommands.lean ====
section
/-! DEFINITION. The instructions of the coprocessor block and what ends inside the coprocessors (R248, R249, R252, R254 to
R273). -/

namespace Sys2Proof.Machine

/-! ### Requests (R259, R261 to R264) -/

/-- A request that Clasp accepts for a context: its pin ends, and it is now the most recently used (R259). -/
def State.claspTouch (s : State) (t : Nat) : State :=
  let q := tidQuire t
  let x := s.quire q
  if x.resident.contains (ctxOf t) then
    s.setQuire q { x with resident := x.resident.filter (· ≠ ctxOf t) ++ [ctxOf t], pins := SMap.erase x.pins (ctxOf t) }
  else s

/-- Whether a context is resident in Clasp. -/
def State.isResident (s : State) (t : Nat) : Bool := (s.quire (tidQuire t)).resident.contains (ctxOf t)

/-- A request answered RETRY: the first one for a context asks for a switch (R259). -/
def State.claspRetry (s : State) (t : Nat) : State :=
  let q := tidQuire t
  let x := s.quire q
  if x.resident.contains (ctxOf t) ∨ x.switchQ.contains (ctxOf t) then s
  else s.setQuire q { x with switchQ := x.switchQ ++ [ctxOf t] }

/-- The oldest operation of a thread's Awl context begins to run. -/
def State.awlStart (s : State) (t : Nat) : State :=
  let th := s.thread t
  match th.awl.ops with
  | o :: rest =>
    if o.writes.isSome then s
    else
      let x := th.awl
      let v := awlResult o.fn (x.r o.cd) (x.r o.cs) (x.r o.ct) o.ct s.freeBits
      let s1 := s.setThread t { th with awl := { x with ops := { o with writes := some [(o.cd, v)] } :: rest } }
      if awlOpen o.fn (x.r o.ct) o.ct then s1.stepFresh else s1
  | [] => s

/-- A CPOP of the thread's task. -/
def State.newCpOp (s : State) (t fn cd cs ct : Nat) : CpOp :=
  { fn := fn, cd := cd, cs := cs, ct := ct, tenant := (s.heldTask t).map (·.2.tenant), ts := ((s.heldTask t).map (·.2.ts)).getD 0, gen := 0,
    mtc := none, writes := none }

/-- An operation joins its context. -/
def State.pushOp (s : State) (t c : Nat) (o : CpOp) : State :=
  s.modThread t (fun th => th.setCp c { th.cp c with ops := (th.cp c).ops ++ [o] })

/-- A CPOP of Clasp (R262, R268, R270). A KEYSEL takes its slot from k[cs] as the MTCs accepted before it leave it (R255, R256). -/
def State.claspOp (s : State) (t : Nat) (th : Thread) (fn cd cs ct : Nat) : LeafAct :=
  if !claspKnown fn cd cs ct then .fault s fUNDEF 0
  else if !s.isResident t then .stall (s.claspRetry t)
  else if 4 ≤ th.clasp.ops.countP (fun o => o.mtc.isNone) then .stall s
  else
    let slot := th.clasp.seen.r cs % 1024
    let tenant := (s.heldTask t).map (·.2.tenant)
    if fn = 0 ∧ (tenant.isNone ∨ (s.keySlot slot).held.map (·.1) ≠ tenant) then
      .fault (s.count (quireWin (tidQuire t)) 0x2048) fDOMAIN slot
    else
      let q := tidQuire t
      let o := s.newCpOp t fn cd cs (if fn = 0 then slot else ct)
      let s1 := (s.claspTouch t).pushOp t 1 { o with gen := if fn = 0 then (s.keySlot slot).gen else 0 }
      let x := s1.quire q
      .next (((s1.setQuire q { x with claspQ := x.claspQ ++ [ctxOf t] }).count (quireWin q) 0x2040).claspStart q)

/-- A CPOP (R248, R223). What customer logic does is not given: it accepts, and its result is free. -/
def State.cpopBody (s : State) (t : Nat) (th : Thread) (cp fn cd cs ct : Nat) : LeafAct :=
  match s.cpFile cp with
  | none => .fault s fNOCP cp
  | some (n, _) =>
    if cp = 0 then
      if awlKnown fn cd cs ct then .next ((s.pushOp t 0 (s.newCpOp t fn cd cs ct)).awlStart t) else .fault s fUNDEF 0
    else if cp = 1 then s.claspOp t th fn cd cs ct
    else if n ≤ cd ∨ n ≤ cs ∨ n ≤ ct then .fault s fUNDEF 0
    else .next (s.pushOp t cp (s.newCpOp t fn cd cs ct))

/-- A row of the coprocessor functions: the CPOP it is. -/
def State.cpopRow (s : State) (t cp fn cd cs ct : Nat) : Res :=
  s.leafRun t (encCO cp fn cd cs ct) (fun s th => s.cpopBody t th cp fn cd cs ct)

/-- CPOP: R248. -/
def execCpop (t : Tid) (cp : BitVec 3) (fn : BitVec 8) (cd cs ct : BitVec 5) (s : State) : Res :=
  s.cpopRow t.val cp.toNat fn.toNat cd.toNat cs.toNat ct.toNat

/-- Whether a register part exists: a register beyond the file or a part beyond the width is UNDEF (R248). -/
def partOk (f : Nat × Nat) (cr part : Nat) : Bool := decide (cr < f.1) && decide (part < f.2)

/-- A register part written by MTC: at once, or in its turn behind a CPOP that has not ended (R255). -/
def State.mtcBody (s : State) (t c cr part : Nat) (v : Word64) : State :=
  let x := (s.thread t).cp c
  if x.ops.isEmpty then s.modThread t (fun th => th.setCp c (x.putPart cr part v))
  else s.pushOp t c { s.newCpOp t 0 cr 0 0 with mtc := some (part, v) }

/-- MTC: the part changes when the Leaf commits it, in this step (R248, R256). -/
def execMtc (t : Tid) (cp : BitVec 3) (g : Reg) (cr : BitVec 5) (part : BitVec 2) (s : State) : Res :=
  s.leafRun t.val (encCM 0x39 cp.toNat g.val cr.toNat part.toNat) (fun s th =>
    match s.cpFile cp.toNat with
    | none => .fault s fNOCP cp.toNat
    | some f =>
      if !partOk f cr.toNat part.toNat then .fault s fUNDEF 0
      else if cp = 1 && !s.isResident t.val then .stall (s.claspRetry t.val)
      else
        let s1 := s.mtcBody t.val cp.toNat cr.toNat part.toNat (th.g g.val)
        .next (if cp = 1 then s1.claspTouch t.val else s1))

/-- MFC: the part as most recently written (R248, R256). -/
def execMfc (t : Tid) (g : Reg) (cp : BitVec 3) (cr : BitVec 5) (part : BitVec 2) (s : State) : Res :=
  s.leafRun t.val (encCM 0x3A cp.toNat g.val cr.toNat part.toNat) (fun s th =>
    match s.cpFile cp.toNat with
    | none => .fault s fNOCP cp.toNat
    | some f =>
      if !partOk f cr.toNat part.toNat then .fault s fUNDEF 0
      else if cp = 1 && !s.isResident t.val then .stall (s.claspRetry t.val)
      else
        let v := BitVec.ofNat 64 ((th.cp cp.toNat).seen.r cr.toNat >>> (64 * part.toNat))
        let s1 := s.setThread t.val (th.result g.val 3 v)
        .next (if cp = 1 then s1.claspTouch t.val else s1))

/-- BCB: branches on the busy condition of the thread's own context (R252, R257). -/
def execBcb (t : Tid) (cp : BitVec 3) (sense a : Bool) (off : BitVec 12) (s : State) : Res :=
  s.leafRun t.val (encCB cp.toNat (bit sense) (bit a) off.toNat) (fun s th =>
    match s.cpFile cp.toNat with
    | none => .fault s fNOCP cp.toNat
    | some _ =>
      let busy := !(th.cp cp.toNat).ops.isEmpty
      let s1 := if cp = 1 then s.claspTouch t.val else s
      .branch s1 (branchTarget th.pc 12 off.toNat) (busy != sense) a)

/-! ### Ends, switches, save port (R256, R259, R266, R270) -/


/-- The oldest operation of Clasp ends: results, Sheaf's bytes, and the next one begins. -/
def State.claspEnd (s : State) (t : Nat) : State :=
  let q := tidQuire t
  let th := s.thread t
  let x := s.quire q
  match x.claspQ, th.clasp.ops with
  | c :: cs, o :: _ =>
    if c ≠ ctxOf t then s
    else
      let s1 := s.setThread t { th with clasp := th.clasp.finish (o.writes.getD []), stalled := false }
      let s2 := s1.setQuire q { x with claspQ := cs }
      let n := claspReport o.fn (o.ct + 1)
      let s3 := match o.tenant with
        | some tn => if n = 0 then s2 else s2.report tn o.ts [(5, n)]
        | none => s2
      s3.claspStart q
  | _, _ => s

/-- CPOP_END: the oldest operation of a thread's context ends and writes its results (R256). -/
def execCpopEnd (t : Tid) (cp : BitVec 3) (s : State) : Res :=
  let th := s.thread t.val
  if cp = 1 then .next (s.claspEnd t.val)
  else match (th.cp cp.toNat).ops with
    | [] => .next s
    | o :: _ =>
      if cp = 0 then .next ((s.setThread t.val { th with awl := th.awl.finish (o.writes.getD []) }).awlStart t.val)
      else
        let bits := 64 * ((s.cpFile cp.toNat).map (·.2)).getD 1
        .next ((s.setThread t.val (th.setCp cp.toNat ((th.cp cp.toNat).finish [(o.cd, s.freeBits % 2 ^ bits)]))).stepFresh)

/-- What a switch does to the resident contexts: the one it evicts, if Clasp has no place left: the least recently used that is neither busy
nor pinned (R259); none while no context qualifies. -/
def State.claspVictim (s : State) (q : Nat) : Option (Option Nat) :=
  let x := s.quire q
  let free (v : Nat) : Bool := (s.thread (ctxThread q v)).clasp.ops.isEmpty && (SMap.find x.pins v).isNone
  if x.resident.length < 4 then some none else (x.resident.find? free).map some

/-- A context's image is written to its save area: its eight registers, then its hidden state, whose form the spec does not give (R259,
R260; log 65). -/
def State.saveContext (s : State) (q n : Nat) : State :=
  let x := (s.thread (ctxThread q n)).clasp
  s.sharedWrite q (claspSave n) ((List.range 8).flatMap (fun i => claspBytes (x.r i)) ++ leBytes 256 (Config.hiddenImage (s.thread (ctxThread q n)).hidden.parts))

/-- CONTEXT_SWITCH: the first context that waits takes the place of the victim, whose image goes to its save area; until there is a victim,
the switch waits (R259). Whether the image read was uncorrectable, and the state. -/
def State.contextSwitch (s : State) (q : Nat) : Bool × State :=
  match (s.quire q).switchQ, s.claspVictim q with
  | c :: rest, some v =>
    let s1 := match v with
      | some n => s.saveContext q n
      | none => s
    let r := s1.sharedRead q (claspSave c) 512
    let x := r.2.2.quire q
    let x1 := { x with switchQ := rest, resident := x.resident.filter (fun n => decide (some n ≠ v)) ++ [c],
                       pins := SMap.put x.pins c (s.time.cycles + 32) }
    let regs (y : CpCtx) : CpCtx := (List.range 8).foldl (fun (y : CpCtx) i => y.setR i (leNat (bytesAt r.2.1 (32 * i) 32))) y
    let s2 := (r.2.2.setQuire q x1).count (quireWin q) 0x2044
    (r.1, if r.1 then s2 else s2.modThread (ctxThread q c) (fun th => { th with clasp := regs th.clasp, stalled := false }))
  | _, _ => (false, s)

/-- CONTEXT_PIN_EXPIRY: a pin ends after 64 LEAF cycles (R259). -/
def execContextPinExpiry (q : Fin 24) (ctx : Fin 72) (s : State) : Res :=
  let x := s.quire q.val
  match SMap.find x.pins ctx.val with
  | some e => if e ≤ s.time.cycles then .next (s.setQuire q.val { x with pins := SMap.erase x.pins ctx.val }) else .next s
  | none => .next s

/-- SAVE_PORT_BEAT: customer logic moves 32 bytes to or from its save area (R260, R266). -/
def execSavePortBeat (q : Fin 24) (cp : BitVec 2) (we : Bool) (ctx : Fin 72) (beat : BitVec 5) (data : BitVec 256) (s : State) : Res :=
  if (s.cpFile (4 + cp.toNat)).isNone then .next s
  else
    let a := 0x3A0000 + 0x12000 * cp.toNat + 0x400 * ctx.val + 32 * beat.toNat
    if we then .next (s.sharedWrite q.val a (leBytes 32 data.toNat))
    else
      let r := s.sharedRead q.val a 32
      .next { r.2.2 with readData := BitVec.ofNat 256 (leNat r.2.1) }

/-! ### The functions of Awl (R267) and Clasp (R268, R269): each is the CPOP of its number -/

/-- AWL_MOV: CPOP cp0, fn 0x00 (R267). -/
def execAwlMov (t : Tid) (cd cs ct : BitVec 5) (s : State) : Res := s.cpopRow t.val 0 0x00 cd.toNat cs.toNat ct.toNat

/-- AWL_XOR: CPOP cp0, fn 0x01 (R267). -/
def execAwlXor (t : Tid) (cd cs ct : BitVec 5) (s : State) : Res := s.cpopRow t.val 0 0x01 cd.toNat cs.toNat ct.toNat

/-- AWL_AND: CPOP cp0, fn 0x02 (R267). -/
def execAwlAnd (t : Tid) (cd cs ct : BitVec 5) (s : State) : Res := s.cpopRow t.val 0 0x02 cd.toNat cs.toNat ct.toNat

/-- AWL_OR: CPOP cp0, fn 0x03 (R267). -/
def execAwlOr (t : Tid) (cd cs ct : BitVec 5) (s : State) : Res := s.cpopRow t.val 0 0x03 cd.toNat cs.toNat ct.toNat

/-- AWL_CSUM: CPOP cp0, fn 0x04 (R267). -/
def execAwlCsum (t : Tid) (cd cs ct : BitVec 5) (s : State) : Res := s.cpopRow t.val 0 0x04 cd.toNat cs.toNat ct.toNat

/-- AWL_CRC32C: CPOP cp0, fn 0x05 (R267). -/
def execAwlCrc32c (t : Tid) (cd cs ct : BitVec 5) (s : State) : Res := s.cpopRow t.val 0 0x05 cd.toNat cs.toNat ct.toNat

/-- AWL_CRC32: CPOP cp0, fn 0x06 (R267). -/
def execAwlCrc32 (t : Tid) (cd cs ct : BitVec 5) (s : State) : Res := s.cpopRow t.val 0 0x06 cd.toNat cs.toNat ct.toNat

/-- AWL_CLMUL: CPOP cp0, fn 0x07 (R267). -/
def execAwlClmul (t : Tid) (cd cs ct : BitVec 5) (s : State) : Res := s.cpopRow t.val 0 0x07 cd.toNat cs.toNat ct.toNat

/-- AWL_EXT: CPOP cp0, fn 0x08 (R267). -/
def execAwlExt (t : Tid) (cd cs ct : BitVec 5) (s : State) : Res := s.cpopRow t.val 0 0x08 cd.toNat cs.toNat ct.toNat

/-- AWL_INS: CPOP cp0, fn 0x09 (R267). -/
def execAwlIns (t : Tid) (cd cs ct : BitVec 5) (s : State) : Res := s.cpopRow t.val 0 0x09 cd.toNat cs.toNat ct.toNat

/-- AWL_SHUF: CPOP cp0, fn 0x0a (R267). -/
def execAwlShuf (t : Tid) (cd cs ct : BitVec 5) (s : State) : Res := s.cpopRow t.val 0 0x0a cd.toNat cs.toNat ct.toNat

/-- AWL_BSWAP: CPOP cp0, fn 0x0b (R267). -/
def execAwlBswap (t : Tid) (cd cs ct : BitVec 5) (s : State) : Res := s.cpopRow t.val 0 0x0b cd.toNat cs.toNat ct.toNat

/-- AWL_POPC: CPOP cp0, fn 0x0c (R267). -/
def execAwlPopc (t : Tid) (cd cs ct : BitVec 5) (s : State) : Res := s.cpopRow t.val 0 0x0c cd.toNat cs.toNat ct.toNat

/-- AWL_CMPEQ8: CPOP cp0, fn 0x0d (R267). -/
def execAwlCmpeq8 (t : Tid) (cd cs ct : BitVec 5) (s : State) : Res := s.cpopRow t.val 0 0x0d cd.toNat cs.toNat ct.toNat

/-- CPOP cp1, fn 0x00 (R269). -/
def execKeysel (t : Tid) (cd cs ct : BitVec 5) (s : State) : Res := s.cpopRow t.val 1 0x00 cd.toNat cs.toNat ct.toNat

/-- CPOP cp1, fn 0x01 (R269). -/
def execGcmInit (t : Tid) (cd cs ct : BitVec 5) (s : State) : Res := s.cpopRow t.val 1 0x01 cd.toNat cs.toNat ct.toNat

/-- CPOP cp1, fn 0x02 (R269). -/
def execGcmAad (t : Tid) (cd cs ct : BitVec 5) (s : State) : Res := s.cpopRow t.val 1 0x02 cd.toNat cs.toNat ct.toNat

/-- CPOP cp1, fn 0x03 (R269). -/
def execGcmEnc (t : Tid) (cd cs ct : BitVec 5) (s : State) : Res := s.cpopRow t.val 1 0x03 cd.toNat cs.toNat ct.toNat

/-- CPOP cp1, fn 0x04 (R269). -/
def execGcmDec (t : Tid) (cd cs ct : BitVec 5) (s : State) : Res := s.cpopRow t.val 1 0x04 cd.toNat cs.toNat ct.toNat

/-- CPOP cp1, fn 0x05 (R269). -/
def execGcmTag (t : Tid) (cd cs ct : BitVec 5) (s : State) : Res := s.cpopRow t.val 1 0x05 cd.toNat cs.toNat ct.toNat

/-- CPOP cp1, fn 0x06 (R269). -/
def execGcmCheck (t : Tid) (cd cs ct : BitVec 5) (s : State) : Res := s.cpopRow t.val 1 0x06 cd.toNat cs.toNat ct.toNat

/-- CPOP cp1, fn 0x08 (R269). -/
def execCcpInit (t : Tid) (cd cs ct : BitVec 5) (s : State) : Res := s.cpopRow t.val 1 0x08 cd.toNat cs.toNat ct.toNat

/-- CPOP cp1, fn 0x09 (R269). -/
def execCcpAad (t : Tid) (cd cs ct : BitVec 5) (s : State) : Res := s.cpopRow t.val 1 0x09 cd.toNat cs.toNat ct.toNat

/-- CPOP cp1, fn 0x0a (R269). -/
def execCcpEnc (t : Tid) (cd cs ct : BitVec 5) (s : State) : Res := s.cpopRow t.val 1 0x0a cd.toNat cs.toNat ct.toNat

/-- CPOP cp1, fn 0x0b (R269). -/
def execCcpDec (t : Tid) (cd cs ct : BitVec 5) (s : State) : Res := s.cpopRow t.val 1 0x0b cd.toNat cs.toNat ct.toNat

/-- CPOP cp1, fn 0x0c (R269). -/
def execCcpTag (t : Tid) (cd cs ct : BitVec 5) (s : State) : Res := s.cpopRow t.val 1 0x0c cd.toNat cs.toNat ct.toNat

/-- CPOP cp1, fn 0x0d (R269). -/
def execCcpCheck (t : Tid) (cd cs ct : BitVec 5) (s : State) : Res := s.cpopRow t.val 1 0x0d cd.toNat cs.toNat ct.toNat

/-- CPOP cp1, fn 0x10 (R269). -/
def execSha256Init (t : Tid) (cd cs ct : BitVec 5) (s : State) : Res := s.cpopRow t.val 1 0x10 cd.toNat cs.toNat ct.toNat

/-- CPOP cp1, fn 0x11 (R269). -/
def execSha256Block (t : Tid) (cd cs ct : BitVec 5) (s : State) : Res := s.cpopRow t.val 1 0x11 cd.toNat cs.toNat ct.toNat

/-- CPOP cp1, fn 0x12 (R269). -/
def execSha256Final (t : Tid) (cd cs ct : BitVec 5) (s : State) : Res := s.cpopRow t.val 1 0x12 cd.toNat cs.toNat ct.toNat

/-- CPOP cp1, fn 0x14 (R269). -/
def execSha512Init (t : Tid) (cd cs ct : BitVec 5) (s : State) : Res := s.cpopRow t.val 1 0x14 cd.toNat cs.toNat ct.toNat

/-- CPOP cp1, fn 0x15 (R269). -/
def execSha512Block (t : Tid) (cd cs ct : BitVec 5) (s : State) : Res := s.cpopRow t.val 1 0x15 cd.toNat cs.toNat ct.toNat

/-- CPOP cp1, fn 0x16 (R269). -/
def execSha512Final (t : Tid) (cd cs ct : BitVec 5) (s : State) : Res := s.cpopRow t.val 1 0x16 cd.toNat cs.toNat ct.toNat

/-- CPOP cp1, fn 0x18 (R269). -/
def execHmacInit (t : Tid) (cd cs ct : BitVec 5) (s : State) : Res := s.cpopRow t.val 1 0x18 cd.toNat cs.toNat ct.toNat

/-- CPOP cp1, fn 0x1f (R269). -/
def execClaspStatus (t : Tid) (cd cs ct : BitVec 5) (s : State) : Res := s.cpopRow t.val 1 0x1f cd.toNat cs.toNat ct.toNat

end Sys2Proof.Machine
end

