-- ==== Sys2Proof/Machine/LeafSystem.lean ====
section
/-! DEFINITION. The SYSTEM instructions (R246), waits and their ends (R180 to R184), SEV deliveries, command staging
(R191 to R194) and lock instructions; and the debugger's commands (R206 to R210). -/

namespace Sys2Proof.Machine

/-! ### Waits (R180, R181, R183) -/

/-- Whether a wait may end in the thread's slot: it makes its way, and neither an entry nor a halt comes first (log 60). -/
def State.mayWake (s : State) (t : Nat) : Bool :=
  let th := s.thread t
  s.threadLive t && !th.wantEntry (s.isSup t) && !th.haltReq

/-- A wait ends: its result, and control goes on. -/
def State.endWait (s : State) (t gd : Nat) (v : Word64) (f : Thread → Thread) : State :=
  s.modThread t (fun th => ((f { th with wait := .none }).waitResult gd v).goOn.stepped)

/-- The mask of a wait, and its register. -/
def Wait.masked : Wait → Option (Nat × Word32)
  | .wfe gd m => some (gd, m)
  | .waitt gd m _ => some (gd, m)
  | _ => Option.none

/-- A masked event ends a WFE or a WAITT, with the events consumed (R180). -/
def State.wakeByEvent (s : State) (t : Nat) : State :=
  let th := s.thread t
  match th.wait.masked with
  | none => s
  | some (gd, m) =>
    let hit := th.events &&& m
    if hit = 0 ∨ !s.mayWake t then s
    else s.endWait t gd (hit.setWidth 64) (fun th => { th with events := th.events &&& ~~~hit })

/-- WFE_WAKE: R180. -/
def execWfeWake (t : Tid) (s : State) : Res := .next (s.wakeByEvent t.val)

/-- WAITT_TIMEOUT: device time reaches gt (R181). -/
def execWaittTimeout (t : Tid) (s : State) : Res :=
  match (s.thread t.val).wait with
  | .waitt gd _ gt =>
    if s.mayWake t.val ∧ gt.toNat ≤ s.time.ns.toNat then .next (s.endWait t.val gd 0 id) else .next s
  | _ => .next s

/-- WFE: R180. -/
def execWfe (t : Tid) (gd gm : Reg) (s : State) : Res :=
  s.leafRun t.val (encR 0x20 gd.val gm.val 0 0x001) (fun s th =>
    let m : Word32 := (th.g gm.val).setWidth 32
    let hit := th.events &&& m
    if hit ≠ 0 then .next (s.setThread t.val ({ th with events := th.events &&& ~~~hit }.result gd.val 1 (hit.setWidth 64)))
    else .hold (s.setThread t.val { th with wait := .wfe gd.val m }))

/-- WAITT: it loads THR_TIMER and takes the thread's comparator (R181). -/
def execWaitt (t : Tid) (gd gt gm : Reg) (s : State) : Res :=
  s.leafRun t.val (encR 0x20 gd.val gt.val gm.val 0x002) (fun s th =>
    let m : Word32 := (th.g gm.val).setWidth 32
    let till := th.g gt.val
    let th1 := { th with timer := till, tctl := th.tctl &&& ~~~1 }
    let hit := th.events &&& m
    if hit ≠ 0 then .next (s.setThread t.val ({ th1 with events := th1.events &&& ~~~hit }.result gd.val 1 (hit.setWidth 64)))
    else if till.toNat ≤ s.time.ns.toNat then .next (s.setThread t.val (th1.result gd.val 1 0))
    else .hold (s.setThread t.val { th1 with wait := .waitt gd.val m till }))

/-! ### TAKE (R150 to R154, R183) -/

/-- The task descriptor (R152). -/
def State.descriptor (s : State) (x : Task) : List Byte :=
  let p := s.packet x.pid
  leBytes 2 (x.tenant + bit x.child * 2 ^ 14) ++ leBytes 2 x.od ++ leBytes 2 (x.entry + x.node * 2 ^ 12) ++ leBytes 1 x.parent
    ++ leBytes 1 ((p.map (·.port)).getD 0) ++ leBytes 4 ((p.bind (·.handle)).getD 0) ++ leBytes 2 x.frameLen
    ++ leBytes 2 (min x.frameLen 512) ++ leBytes 8 x.ts.toNat ++ leBytes 4 x.budget ++ leBytes 4 0
    ++ x.args.flatMap (fun a => leBytes 8 a.toNat)

/-- The header window as TAKE leaves it (R150, R151). -/
def State.headerWindow (s : State) (x : Task) : List Byte :=
  let p := s.packet x.pid
  let record : List Byte := match p with
    | some y => y.record
    | none => []
  let md : Nat := match p with
    | some y => y.md.toNat
    | none => 0
  fitBytes record 256 ++ leBytes 64 md ++ fitBytes (s.descriptor x) 64 ++ List.replicate 128 0 ++ fitBytes x.hdr 512 ++ List.replicate 1024 0

/-- The oldest descriptor bound to a Leaf and not taken (R154). -/
def State.readyTask (s : State) (leaf : Nat) : Option (Nat × Task) :=
  (s.kettle.tasks.filter (fun e => e.2.leaf == some leaf && e.2.taken.isNone)).foldl (fun (acc : Option (Nat × Task)) e =>
    match acc with
    | none => some e
    | some b => if e.2.arrived < b.2.arrived then some e else some b) none

/-- A thread receives a task: its window is filled, its scratch reads zero (R215), and its coprocessor contexts are reset. -/
def State.giveTask (s : State) (t k : Nat) (x : Task) : State :=
  let s1 := (s.setTask k { x with taken := some t }).cpReset t
  let win := s1.headerWindow x
  (s1.modThread t (fun th => { th with task := some k, mem := Memory.writeBytes [] 0 win })).eccWrite (tidLeafWin t) 0 (localBase t) 6144

/-- A packet's header copy meets an uncorrectable cell: the position is dropped with DATA_ERROR and the task never runs (R405). -/
def State.copyFails (s : State) (k : Nat) (x : Task) : State :=
  let s1 := s.dropPos x.pos 59
  ((if (s1.task k).isSome then s1.endTask k else s1)).cleanJoins

/-- A task with the first bytes of its packet as its cells give them (R151, R404); a child has those of its descriptor. -/
def State.withHeader (s : State) (x : Task) : Task :=
  if x.child then x else { x with hdr := ((s.packet x.pid).elim x.hdr s.packetData).take 512 }

/-- The descriptors bound to a Leaf are taken in order until one's header copy succeeds: what TAKE receives. -/
def State.takeTask (s : State) (t : Nat) : Nat → Bool × State
  | 0 => (false, s)
  | n + 1 => match s.readyTask (tidLeaf t) with
    | none => (false, s)
    | some (k, x) =>
      let r := if x.child then (false, s) else s.readPacket x.pid 0 2
      if r.1 then (r.2.copyFails k x).takeTask t n else (true, r.2.giveTask t k (s.withHeader x))

/-- TAKE: R183; a supervisor or a thread that holds a task raises DOMAIN (R176). -/
def execTake (t : Tid) (gd : Reg) (s : State) : Res :=
  s.leafRun t.val (encR 0x20 gd.val 0 0 0x004) (fun s th =>
    if s.isSup t.val || th.task.isSome then .fault s fDOMAIN 0
    else
      let r := s.takeTask t.val s.kettle.tasks.length
      if r.1 then .next (r.2.modThread t.val (fun th => th.result gd.val 1 1))
      else .hold (r.2.modThread t.val (fun th => { th with wait := .take gd.val })))

/-- TAKE_WAKE: a descriptor is bound to the Leaf of a thread that waits in TAKE (R183). -/
def execTakeWake (t : Tid) (s : State) : Res :=
  match (s.thread t.val).wait with
  | .take gd =>
    if !s.mayWake t.val then .next s
    else
      let r := s.takeTask t.val s.kettle.tasks.length
      if r.1 then .next (r.2.endWait t.val gd 1 id) else .next r.2
  | _ => .next s

/-! ### SEV (R184, R185) -/

/-- SEV: the word leaves for its target; reserved bits raise UNDEF. -/
def execSev (t : Tid) (gt : Reg) (s : State) : Res :=
  s.leafRun t.val (encR 0x20 0 gt.val 0 0x003) (fun s th =>
    let v := (th.g gt.val).toNat
    if 2 ^ 18 ≤ v then .fault s fUNDEF 0 else .next (s.setThread t.val { th with sevs := th.sevs ++ [v] }))

/-- The thread a SEV word names, if it names a Quire and a Leaf position that exist (R184). -/
def State.sevTarget (s : State) (v : Nat) : Option Nat :=
  if 6 ≤ bitsOf v 14 12 then none
  else
    let q := 6 * bitsOf v 16 15 + bitsOf v 14 12
    if v.testBit 17 then some (s.supOf q)
    else if 9 ≤ bitsOf v 11 8 then none
    else some (72 * q + 8 * bitsOf v 11 8 + bitsOf v 7 5)

/-- Whether a SEV from t reaches u (R185). -/
def State.sevAllowed (s : State) (t u : Nat) : Bool :=
  let same := match s.heldTask t, s.heldTask u with
    | some a, some b => a.2.tenant == b.2.tenant
    | _, _ => false
  s.leafServes u && (s.isSup t || s.isSup u || same)

/-- SEV_DELIVERY: the oldest SEV of a thread sets its bit or is discarded (R185). -/
def execSevDelivery (t : Tid) (s : State) : Res :=
  match (s.thread t.val).sevs with
  | [] => .next s
  | v :: rest =>
    let s1 := s.modThread t.val (fun th => { th with sevs := rest })
    match s1.sevTarget v with
    | some u => if s1.sevAllowed t.val u then .next (s1.modThread u (fun th => th.setEv (v % 32))) else .next (s1.count (quireWin (tidQuire t.val)) 0x104)
    | none => .next (s1.count (quireWin (tidQuire t.val)) 0x104)

/-! ### ERET, time and control registers (R189, R213, R246) -/

/-- ERET: R189. -/
def execEret (t : Tid) (s : State) : Res :=
  s.leafRun t.val (encR 0x20 0 0 0 0x006) (fun s th =>
    if !th.handler then .fault s fUNDEF 0 else .jump (s.setThread t.val { th with handler := false }) th.epc)

/-- RDTIME: R246. -/
def execRdtime (t : Tid) (gd : Reg) (s : State) : Res :=
  s.leafRun t.val (encR 0x20 gd.val 0 0 0x007) (fun s th => .next (s.setThread t.val (th.result gd.val 1 s.time.ns)))

/-- MFT: registers 12 to 31 raise UNDEF (R213). -/
def execMft (t : Tid) (gd : Reg) (tcr : BitVec 5) (s : State) : Res :=
  s.leafRun t.val (encR 0x20 gd.val 0 tcr.toNat 0x008) (fun s th =>
    if 12 ≤ tcr.toNat then .fault s fUNDEF 0
    else .next (s.setThread t.val (th.result gd.val 1 (s.readTcr t.val th tcr.toNat))))

/-- MTT: the write governs from the second instruction after it (R213, R224). -/
def execMtt (t : Tid) (tcr : BitVec 5) (gs : Reg) (s : State) : Res :=
  s.leafRun t.val (encR 0x20 0 gs.val tcr.toNat 0x009) (fun s th =>
    if 12 ≤ tcr.toNat then .fault s fUNDEF 0 else .next (s.setThread t.val (th.result (32 + tcr.toNat) 2 (th.g gs.val))))

/-! ### Command staging (R191 to R194) -/

/-- The words of the active staging bank, and it replaced. -/
def Thread.bank (th : Thread) : SMap Word64 := if th.handler then th.bank1 else th.bank0
def Thread.bankWord (th : Thread) (w : Nat) : Nat := (SMap.get (fun _ => (0 : Word64)) th.bank w).toNat
def Thread.setBank (th : Thread) (b : SMap Word64) : Thread := if th.handler then { th with bank1 := b } else { th with bank0 := b }

/-- CHW: words 8 to 31 are reserved (R191, R246). -/
def execChw (t : Tid) (w : BitVec 5) (gs : Reg) (s : State) : Res :=
  s.leafRun t.val (encR 0x20 0 gs.val w.toNat 0x00A) (fun s th =>
    if 8 ≤ w.toNat then .fault s fUNDEF 0
    else .next (s.setThread t.val (th.setBank (SMap.set (fun _ => 0) th.bank w.toNat (th.g gs.val)))))

/-- Whether a post is an operation of R228: a Warren command, or a FORK to Kettle. -/
def Thread.postCounts (th : Thread) (target : Nat) : Bool := decide (target = 1) || (decide (target = 0) && decide (th.bankWord 0 % 16 = 2))

/-- CHPOST: the thread stalls at it until its target accepts (R192); R176 and R193 say who may post where. A post that would make a 17th
operation is not issued (R228). -/
def execChpost (t : Tid) (target : BitVec 5) (s : State) : Res :=
  s.leafRun t.val (encR 0x20 0 0 target.toNat 0x00B) (fun s th =>
    let dom := if target.toNat = 2 then !s.isSup t.val else s.isSup t.val || th.task.isNone
    if 3 ≤ target.toNat then .fault s fUNDEF 0
    else if dom then .fault s fDOMAIN 0
    else if th.postCounts target.toNat && decide (16 ≤ th.outstanding) then .stall s
    else .hold (s.setThread t.val { th with wait := .post target.toNat }))

/-- The post of a thread that waits at CHPOST for a target: its thread, which then makes its way. -/
def State.posting (s : State) (t target : Nat) : Option Thread :=
  let th := s.thread t
  match th.wait with
  | .post x => if x = target ∧ s.threadLive t then some th else none
  | _ => none

/-- A post has been accepted: the bank is zero and the thread goes on (R192). -/
def Thread.accepted (th : Thread) : Thread := ({ th with wait := .none }.setBank []).goOn.stepped

/-! ### BKPT and the lock instructions (R247, R291 to R295) -/

/-- Whether a debugger may act on threads: DEBUG with scope bit 0 (R206, R491). -/
def State.threadDebug (s : State) : Bool := decide (s.trust.sec = .debug) && s.trust.scope.testBit 0

/-- BKPT: R247. -/
def execBkpt (t : Tid) (s : State) : Res :=
  s.leafRun t.val (encR 0x20 0 0 0 0x00C) (fun s th =>
    if s.threadDebug then .hold (s.haltThread t.val th false) else .next s)

/-- SACQ and STRY: an outstanding operation that Stile completes (R228). -/
def State.lockInstr (s : State) (t gd gs ev func : Nat) (try' : Bool) : Res :=
  let w := encR 0x20 gd gs ev func
  s.leafRun t w (fun s th =>
    if 16 ≤ th.outstanding then .stall s
    else
      let o := { newOp th .lock 4 w with dst := gd, ev := some ev }
      .next ((s.setThread t { th with ops := th.ops ++ [o] }).stileRequest (tidWord t) (bit try') (th.g gs).toNat th.issued))

def execSacq (t : Tid) (gd gs : Reg) (ev : BitVec 5) (s : State) : Res := s.lockInstr t.val gd.val gs.val ev.toNat 0x010 false
def execStry (t : Tid) (gd gs : Reg) (ev : BitVec 5) (s : State) : Res := s.lockInstr t.val gd.val gs.val ev.toNat 0x011 true

/-- SREL: a release gives no answer (R295), but is outstanding until Stile has performed it (R228). -/
def execSrel (t : Tid) (gs : Reg) (s : State) : Res :=
  let w := encR 0x20 0 gs.val 0 0x012
  s.leafRun t.val w (fun s th =>
    if 16 ≤ th.outstanding then .stall s
    else
      let s1 := s.setThread t.val { th with ops := th.ops ++ [newOp th .lock 4 w] }
      .next (s1.stileRequest (tidWord t.val) 2 (th.g gs.val).toNat th.issued))

/-! ### Faults and the supervisor (R197 to R199) -/

/-- A thread of a Quire's page record. -/
def recordWords (f : FaultInfo) : List Byte :=
  leBytes 1 f.kind ++ leBytes 1 (bit f.hadTask + 2 * bit f.async + 4 * bit f.handler) ++ leBytes 2 f.tenant ++ leBytes 2 f.od
    ++ leBytes 2 f.node ++ leBytes 4 f.insn.toNat ++ leBytes 4 f.pc ++ leBytes 8 f.detail.toNat ++ leBytes 8 f.time.toNat

/-- The Sheaf counter of a fault kind as a position's drop reason (R166). -/
def faultDiag (kind : Nat) : Nat := if kind = 5 then 44 else if kind = 3 then 45 else if kind = 4 then 59 else 46

/-- The supervisor's non-maskable entry becomes pending (R190). -/
def State.raiseNmi (s : State) (q : Nat) : State := s.modThread (s.supOf q) (fun th => { th with nmi := true })

/-- FAULT_RECORD: the Quire writes a stopped thread's record (R197, R199). -/
def execFaultRecord (t : Tid) (s : State) : Res :=
  match (s.thread t.val).fault with
  | none => .next s
  | some f =>
    if f.recorded then .next s
    else
      let q := tidQuire t.val
      let w := quireWin q
      let n := t.val % 72
      let s1 := (List.range 8).foldl (fun (s : State) k => s.setReg w (0x1000 + 0x20 * n + 4 * k) (BitVec.ofNat 32 (leNat (bytesAt (recordWords f) (4 * k) 4)))) s
      let s2 := (s1.setRf w (0x1900 + 4 * (n / 32)) (n % 32) (n % 32) 1).count w (0x1940 + 4 * (f.kind - 1))
      let restart := (s2.reg w 0x1918).getLsbD (f.kind - 1) && !s2.isSup t.val
      let s3 := s2.modThread t.val (fun th => { th with fault := some { f with recorded := true, restart := restart } })
      let s4 := if s3.isSup t.val then s3.setEvent w 0x100 1 else s3
      .next ((s4.loseTask t.val (faultDiag f.kind)).raiseNmi q)

/-- AUTO_RESTART: R198; the record stays valid. A supervisor stays stopped (R199). -/
def execAutoRestart (t : Tid) (s : State) : Res :=
  match (s.thread t.val).fault with
  | some f => if f.recorded && f.restart && s.leafServes t.val then .next (s.resetThread t.val false 8) else .next s
  | none => .next s

/-! ### Quiet deadlock (R201 to R203) -/

/-- The threads of a Quire's bound Leaves in IN_SERVICE that are neither halted nor stopped (R201). -/
def State.counted (s : State) (q : Nat) : List Nat :=
  ((List.range 72).map (fun i => 72 * q + i)).filter (fun t =>
    let th := s.thread t
    s.leafServes t && th.started && !th.halted && th.fault.isNone)

/-- Since when every counted thread of a Quire has been quiet; none while one is not, or none is counted. -/
def State.allQuiet (s : State) (q : Nat) : Option Nat :=
  let l := s.counted q
  if l.isEmpty then none
  else l.foldl (fun (acc : Option Nat) t =>
    match acc, (s.thread t).quietSince with
    | some a, some b => some (max a b)
    | _, _ => none) (some 0)

/-- QUIET_DEADLOCK: all counted threads have been quiet for 256 LEAF cycles, 128 ns (R202); once for each such spell. -/
def execQuietDeadlock (q : Fin 24) (s : State) : Res :=
  let x := s.quire q.val
  match s.allQuiet q.val with
  | some since =>
    if since + 128 ≤ s.time.cycles ∧ x.deadSeen ≠ some since then
      let w := quireWin q.val
      let s1 := s.setQuire q.val { x with deadSeen := some since, episode := x.episode <|> some (s.time.cycles, false) }
      let s2 := (s1.setEvent w 0x1910 1).setRf w 0x1920 15 0 (min 0xFFFF (s1.rf w 0x1920 15 0 + 1))
      .next (s2.raiseNmi q.val)
    else .next s
  | none => .next s

/-- DEADLOCK_ESCALATION: an episode lasts longer than limit_us (R203). -/
def execDeadlockEscalation (q : Fin 24) (s : State) : Res :=
  let x := s.quire q.val
  let limit := (s.reg (quireWin q.val) 0x191C).toNat
  match x.episode with
  | some (since, false) =>
    if limit ≠ 0 ∧ since + 1000 * limit < s.time.cycles then
      .next ((s.setQuire q.val { x with episode := some (since, true) }).setEvent (quireWin q.val) 0x100 0)
    else .next s
  | _ => .next s

/-! ### Debug commands (R206 to R210) -/

/-- A debug command is performed, or is refused without authenticated debug (R206). -/
def State.debugCmd (s : State) (t : Nat) (f : State → State) : State :=
  if s.threadDebug then f s else s.setEvent (tidLeafWin t) 0x104 0

/-- HALT: the halt is requested. -/
def State.dbgHaltCmd (s : State) (t : Nat) : State :=
  s.debugCmd t (fun s => s.modThread t (fun th => if th.started && !th.halted && th.fault.isNone then { th with haltReq := true } else th))

/-- RESUME: R208. -/
def State.dbgResumeCmd (s : State) (t : Nat) : State :=
  s.debugCmd t (fun s => s.modThread t (fun th => if th.halted then { th with halted := false, haltReq := false, haltForced := false, step := false } else th))

/-- STEP: R208. -/
def State.dbgStepCmd (s : State) (t : Nat) : State :=
  s.debugCmd t (fun s => s.modThread t (fun th => if th.halted then { th with halted := false, haltReq := false, haltForced := false, step := true } else th))

/-- RESET_THREAD: the thread stays halted at its entry (R210). -/
def State.dbgResetCmd (s : State) (t : Nat) : State := s.debugCmd t (fun s => s.resetThread t true 0)

def execDbgHalt (t : Tid) (s : State) : Res := .next (s.dbgHaltCmd t.val)
def execDbgResume (t : Tid) (s : State) : Res := .next (s.dbgResumeCmd t.val)
def execDbgStep (t : Tid) (s : State) : Res := .next (s.dbgStepCmd t.val)
def execResetThread (t : Tid) (s : State) : Res := .next (s.dbgResetCmd t.val)

/-- What LEAF_DBG_DATA shows of a halted thread (R209). -/
def State.dbgItem (s : State) (t item : Nat) : Word64 :=
  let th := (s.thread t).landed
  if !th.halted then 0
  else if item < 32 then th.g item
  else if item < 40 then SMap.get (fun _ => 0) th.bank0 (item - 32)
  else if item < 48 then SMap.get (fun _ => 0) th.bank1 (item - 40)
  else match item with
    | 48 => BitVec.ofNat 64 th.pc
    | 49 => th.events.setWidth 64
    | 50 => BitVec.ofNat 64 th.epc
    | 51 => BitVec.ofNat 64 (bit th.handler + 2 * bit th.forced)
    | _ => 0

end Sys2Proof.Machine
end

