-- ==== Sys2Proof/Machine/Events.lean ====
section
/-! DEFINITION. Events: status, masks, routes, limits and deliveries, and MSI-X (18, R453 to R458). -/

namespace Sys2Proof.Machine

/-- A change of an event's part. -/
def EventSt.setLevel (e : EventSt) (src : Nat) (t : Option Nat) : EventSt :=
  { e with level := match t with
      | some c => SMap.put e.level src c
      | none => SMap.erase e.level src }

/-- Whether the condition behind a source holds (R453, R535): the events of a Gathering's own window, or a thermal threshold. -/
def State.levelOf (s : State) (src : Nat) : Bool :=
  if src < 430 then s.contributes 0 src else if src = 865 then s.board.warn else if src = 866 then s.board.crit else false

/-- A condition that no longer holds ends its assertion. -/
def State.settleLevel (s : State) (src : Nat) : State :=
  if s.levelOf src then s else s.modEv (fun e => e.setLevel src none)

/-! ### Status, mask, route and limit (R453, R454) -/

/-- A status bit and a mask bit of a source. -/
def State.evStatus (s : State) (src : Nat) : Bool := s.rf spineWin (0x100 + 4 * (src / 32)) (src % 32) (src % 32) = 1
def State.evMasked (s : State) (src : Nat) : Bool := s.rf spineWin (0x180 + 4 * (src / 32)) (src % 32) (src % 32) = 1

/-- A status bit and a mask bit of a source set or cleared. -/
def State.setEvStatus (s : State) (src : Nat) (b : Bool) : State := s.setRf spineWin (0x100 + 4 * (src / 32)) (src % 32) (src % 32) (bit b)
def State.setEvMask (s : State) (src : Nat) (b : Bool) : State := s.setRf spineWin (0x180 + 4 * (src / 32)) (src % 32) (src % 32) (bit b)

/-- Fields of EVT_ROUTE and EVT_LIMIT. -/
def State.evRoute (s : State) (src hi lo : Nat) : Nat := s.rf spineWin (0x1000 + 4 * src) hi lo
def State.evGapNs (s : State) (src : Nat) : Nat := 1000 * s.rf spineWin (0x2000 + 4 * src) 15 0
def State.evStuckNs (s : State) (src : Nat) : Nat := 1000000 * s.rf spineWin (0x2000 + 4 * src) 31 16

/-! ### MSI-X (R455) -/

/-- The vectors of a function (R458). -/
def vectorsOf (f : Nat) : Nat := if f = 0 then 256 else 8

/-- Whether a message of a vector goes out at once: neither the vector nor the function is masked. -/
def FuncSt.sends (x : FuncSt) (v : Nat) : Bool := x.msixOn && SMap.get (fun _ => false) x.unmasked v

/-- A message is posted. -/
def State.postMessage (s : State) (f v : Nat) : State := s.modEv (fun e => { e with messages := e.messages ++ [(f, v)] })

/-- Whether a vector's pending bit is set. -/
def FuncSt.isPending (x : FuncSt) (v : Nat) : Bool := x.pendingVec.any (fun e => e.1 == v)

/-- A vector is signalled for a source: its message goes out, or its pending bit sets. -/
def State.signalVector (s : State) (f v src : Nat) : State :=
  let x := s.func f
  if x.sends v then s.postMessage f v
  else s.setFunc f { x with pendingVec := (v, src) :: x.pendingVec.filter (· ≠ (v, src)) }

/-- What is pending for some sources is pending no more: their deliveries have ended (R454). -/
def State.endPending (s : State) (srcs : List Nat) : State :=
  (List.range 64).foldl (fun (s : State) f =>
    let x := s.func f
    if x.pendingVec.any (fun e => srcs.contains e.2) then s.setFunc f { x with pendingVec := x.pendingVec.filter (fun e => !srcs.contains e.2) }
    else s) s

/-- The pending messages that may go out now are sent, in ascending order. -/
def State.flushVectors (s : State) (f : Nat) : State :=
  let x := s.func f
  let go := (List.range (vectorsOf f)).filter (fun v => x.isPending v && x.sends v)
  go.foldl (fun (s : State) v => s.postMessage f v) (s.setFunc f { x with pendingVec := x.pendingVec.filter (fun e => !go.contains e.1) })

/-- MSIX_UNMASK: the host unmasks a vector, or the function. -/
def execMsixUnmask (f : Func) (vector : BitVec 8) (whole : Bool) (s : State) : Res :=
  let x := s.func f.val
  let v := vector.toNat
  if whole then .next ((s.setFunc f.val { x with msixOn := true }).flushVectors f.val)
  else if v < vectorsOf f.val then
    .next ((s.setFunc f.val { x with unmasked := SMap.set (fun _ => false) x.unmasked v true }).flushVectors f.val)
  else .next s

/-! ### Delivery (R455, R456) -/

/-- The Quires that a route to supervisors names. -/
def quiresOf (q : Nat) : List Nat := if q = 63 then List.range 24 else if q < 24 then [q] else []

/-- EVENT_DELIVERY: a source is delivered to its route; a route of none delivers nothing. A gap begins. -/
def State.deliverEvent (s : State) (src : Nat) : State :=
  let target := s.evRoute src 31 30
  if target = 0 then s
  else
    let s1 := s.count spineWin 0x280
    let s2 := match target with
      | 1 => s1.modEv (fun e => { e with toSpine := e.toSpine ++ [src] })
      | 2 => s1.signalVector (s1.evRoute src 29 24) (s1.evRoute src 23 16) src
      | _ => (quiresOf (s1.evRoute src 5 0)).foldl (fun (s : State) q => s.modThread (s.supOf q) (fun th => th.setEv (s.evRoute src 15 11))) s1
    if s.evGapNs src = 0 then s2
    else s2.modEv (fun e => { e with gapEnd := SMap.put e.gapEnd src (s.time.cycles + s.evGapNs src) })

/-- Whether a source's gap runs. -/
def State.inGap (s : State) (src : Nat) : Bool :=
  match SMap.find s.ev.gapEnd src with
  | some t => decide (s.time.cycles < t)
  | none => false

/-- An assertion of a source (R454, R456): coalesced within a gap, else its status sets, and unmasked it is delivered. -/
def State.assertEvent (s : State) (src : Nat) : State :=
  if s.inGap src then (s.count spineWin 0x284).modEv (fun e => { e with coalesced := src :: e.coalesced.filter (· ≠ src) })
  else
    let s1 := (s.setEvStatus src true).modEv (fun e => { e with coalesced := e.coalesced.filter (· ≠ src) })
    if s1.evMasked src then s1 else s1.deliverEvent src

/-- EVENT_ASSERT: the oldest assertion of a source that waits is taken; a condition that has begun to hold asserts once
(R453, R454). -/
def execEventAssert (src : BitVec 10) (s : State) : Res :=
  let k := src.toNat
  if s.ev.raised.contains k then .next ((s.modEv (fun e => { e with raised := e.raised.erase k })).assertEvent k)
  else if s.levelOf k ∧ (SMap.find s.ev.level k).isNone then
    .next ((s.modEv (fun e => e.setLevel k (some s.time.cycles))).assertEvent k)
  else .next s

/-- COALESCE_GAP_END: at the end of a gap a source coalesced in it is delivered once, if its status is still set and unmasked. -/
def execCoalesceGapEnd (src : BitVec 10) (s : State) : Res :=
  let k := src.toNat
  if s.inGap k then .next s
  else
    let s1 := s.modEv (fun e => { e with gapEnd := SMap.erase e.gapEnd k, coalesced := e.coalesced.filter (· ≠ k) })
    if s.ev.coalesced.contains k ∧ s.evStatus k ∧ ¬ s.evMasked k then .next (s1.deliverEvent k) else .next s1

/-- EVENT_STUCK: a source asserted for longer than stuck_ms is masked and reported. -/
def execEventStuck (src : BitVec 10) (s : State) : Res :=
  let k := src.toNat
  let long : Bool := match SMap.find s.ev.level k with
    | some t => decide (s.evStuckNs k ≠ 0 ∧ t + s.evStuckNs k < s.time.cycles)
    | none => false
  if long ∧ s.levelOf k ∧ ¬ s.evMasked k then
    .next ((((s.setEvMask k true).setRf spineWin (0x200 + 4 * (k / 32)) (k % 32) (k % 32) 1).count spineWin 0x288).raise 864)
  else .next s

/-! ### Views (R457) -/

/-- Whether a viewer sees a source: 64 is Spine, which sees every one; the physical function also sees Spine's. -/
def State.seesEvent (s : State) (viewer src : Nat) : Bool :=
  decide (viewer = 64) || (decide (s.evRoute src 31 30 = 2) && decide (s.evRoute src 29 24 = viewer)) ||
    (decide (viewer = 0) && decide (s.evRoute src 31 30 = 1))

/-- The bits of group k that a viewer sees. -/
def State.viewMask (s : State) (viewer k : Nat) : Word32 :=
  BitVec.ofNat 32 (sumOf ((List.range 32).filter (fun i => s.seesEvent viewer (32 * k + i))) (fun i => 2 ^ i))

/-- A write of ones to EVT_STATUS_k: the bits clear, and what is still to be delivered for them ends (R454). -/
def State.clearEvents (s : State) (viewer k : Nat) (bits : Word32) : State :=
  let ones := bits &&& s.viewMask viewer k
  (s.setReg spineWin (0x100 + 4 * k) (s.reg spineWin (0x100 + 4 * k) &&& ~~~ones)).endPending
    (((List.range 32).filter (fun i => ones.getLsbD i)).map (fun i => 32 * k + i))

/-- A write of EVT_MASK_k: a bit that clears delivers its source if its status is set, and re-arms its stuck time (R454, R456). -/
def State.writeEvMask (s : State) (viewer k : Nat) (bits : Word32) : State :=
  let view := s.viewMask viewer k
  let old := s.reg spineWin (0x180 + 4 * k)
  let s1 := s.setReg spineWin (0x180 + 4 * k) ((old &&& ~~~view) ||| (bits &&& view))
  let opened := ((List.range 32).filter (fun i => (old &&& view &&& ~~~bits).getLsbD i)).map (fun i => 32 * k + i)
  opened.foldl (fun (s : State) src =>
    let s1 := if (SMap.find s.ev.level src).isSome then s.modEv (fun e => e.setLevel src (some s.time.cycles)) else s
    if s1.evStatus src then s1.deliverEvent src else s1) s1

/-- EVT_STATUS_CLEAR: within the viewer's view; a bit whose source asserts again in the same cycle remains set (R8). -/
def execEvtStatusClear (viewer : Src) (k : BitVec 5) (bits : OnesWritten) (s : State) : Res :=
  .next (s.clearEvents viewer.val k.toNat (bits.bits &&& ~~~bits.again))

/-- EVT_MASK_WRITE: within the viewer's view. -/
def execEvtMaskWrite (viewer : Src) (k : BitVec 5) (bits : BitVec 32) (s : State) : Res :=
  .next (s.writeEvMask viewer.val k.toNat bits)

end Sys2Proof.Machine
end

