-- ==== Sys2Proof/Machine/Images.lean ====
section
/-! DEFINITION. The trust engine's parts: images and their checks, fuses, the CDI, key identities (19, R467 to R484). -/

namespace Sys2Proof.Machine

/-! ### Images (R470, R471) -/

/-- A little-endian field of an image. -/
def Image.le (i : Image) (off n : Nat) : Nat := leNat (bytesAt i.bytes off n)

/-- Fields of an envelope. -/
def Image.encrypted (i : Image) : Bool := (i.le 2 1).testBit 0
def Image.commit (i : Image) : Bool := (i.le 2 1).testBit 1
def Image.keyIndex (i : Image) : Nat := i.le 3 1 % 4
def Image.counter (i : Image) : Nat := i.le 4 1
def Image.svn (i : Image) : Nat := i.le 5 1
def Image.version (i : Image) : Nat := i.le 8 4
def Image.payloadLen (i : Image) : Nat := i.le 0x0C 4
def Image.digest (i : Image) : List Byte := bytesAt i.bytes 0x10 48
def Image.stored (i : Image) : List Byte := bytesAt i.bytes 0x1400 i.payloadLen
def Image.signed (i : Image) : List Byte := bytesAt i.bytes 0 0x100

/-- What the staging store holds of an image: the payload as stored, since the trust engine keeps its header, or a whole soft repair record
(R472 check 6, R474; log 37). -/
def Image.kept (i : Image) : List Byte := if i.kind = 3 then i.bytes else i.stored

/-- The 64-byte lines that a load of an image reads (R420, R474). -/
def Image.lines (i : Image) : Nat := (i.kept.length + 63) / 64

/-- The payload in the clear (R474). -/
def Image.payload (i : Image) : List Byte :=
  if i.encrypted then gcmCrypt Config.imageKey (bytesAt i.bytes 0x70 12) i.stored else i.stored

/-- Whether the GCM tag of an encrypted payload holds. -/
def Image.tagOk (i : Image) : Bool :=
  !i.encrypted || gcmTag Config.imageKey (bytesAt i.bytes 0x70 12) (bytesAt i.bytes 0 0x80) i.stored == bytesAt i.bytes 0x80 16

/-- Whether all bytes of a range of an image are zero. -/
def Image.zeroAt (i : Image) (off n : Nat) : Bool := (bytesAt i.bytes off n).all (· == 0)

/-- Whether a kind is signed by the owner, whether it is encrypted, and its counter (R471); none for other kinds. -/
def kindRow (kind : Nat) : Option (Bool × Bool × Nat) :=
  match kind with
  | 1 => some (true, false, 4)
  | 2 => some (false, true, 1)
  | 4 => some (false, true, 0)
  | 5 => some (true, false, 6)
  | 6 => some (true, false, 5)
  | _ => none

/-- Sequence and entries of a soft repair record (R418). -/
def Image.sequence (i : Image) : Nat := i.le 8 8
def Image.repairs (i : Image) : List RepairEntry :=
  (List.range (i.le 2 2)).map (fun k =>
    let at0 := 0x40 + 16 * k
    ⟨i.le (at0 + 3) 1, i.le at0 2 % 512, i.le (at0 + 2) 1, i.le (at0 + 8) 8, i.le (at0 + 4) 1⟩)

/-! ### Fuses and owner (R473, R477, R489) -/

/-- The digest of the owner enrolled last, if any. -/
def State.owner (s : State) : Option (List Byte) := s.trust.banks.getLast?

/-- The owner digest, zero if none is enrolled (R469, R486). -/
def State.ownerDigest (s : State) : List Byte := fitBytes (s.owner.getD []) 48

/-- A rollback counter. -/
def State.counter (s : State) (c : Nat) : Nat := SMap.get (fun _ => 0) s.trust.counters c

/-- The code of a security state (R489). -/
def SecState.code : SecState → Nat
  | .unowned => 0 | .owned => 1 | .debug => 2 | .locked => 3

/-- The security state changes: state_change sets in SEC_EVENT. -/
def State.setSec (s : State) (x : SecState) : State :=
  if s.trust.sec = x then s else (s.modTrust (fun t => { t with sec := x })).setEvent deviceWin 0x120 2

/-- COUNTER_RAISE (R473): the counter of a committed image rises to its svn, at most 128; the key indices it revokes are blown. -/
def State.raiseCounter (s : State) (i : Image) : State :=
  let s1 := if i.kind = 2 ∨ i.kind = 4 then (if i.commit then s.modTrust (fun t => { t with revoked := t.revoked ||| (Config.revokes i.bytes % 2 ^ i.keyIndex) }) else s) else s
  if i.commit ∧ s1.counter i.counter < i.svn then
    (s1.modTrust (fun t => { t with counters := SMap.set (fun _ => 0) t.counters i.counter (min 128 i.svn) })).setEvent deviceWin 0x120 1
  else s1

/-- The attestation pair is derived anew: the Folio-layer CDI (R469). -/
def State.deriveCdi (s : State) : State :=
  let f := match s.spine.folio with
    | some i => i.digest ++ leBytes 1 i.svn
    | none => List.replicate 49 0
  s.modTrust (fun t => { t with cdi := hkdf384 Config.cdi0 (f ++ leBytes 1 t.sec.code ++ s.ownerDigest) [] 48 })

/-! ### Verification (R472, R474) -/

/-- The number by which a signer's key is named (Config.verify). -/
def ownerSigner (digest : List Byte) : Nat := 5 + leNat digest

/-- Check 1 of R472 but for bind: the reserved bytes, the row of R471, the lengths. -/
def Image.formOk (i : Image) : Bool :=
  match kindRow i.kind with
  | none => false
  | some (owned, enc, c) =>
    decide (0x1400 ≤ i.bytes.length) && decide (i.le 0 1 = 1) && decide (i.le 1 1 = i.kind) && decide (i.le 2 1 < 4) && decide (i.le 3 1 < 4)
      && (!owned || decide (i.le 3 1 = 0)) && (i.encrypted == enc) && decide (i.counter = c) && decide (i.svn ≤ 128)
      && decide (i.payloadLen ≤ 0x4000000) && decide (0x1400 + i.payloadLen ≤ i.bytes.length)
      && i.zeroAt 6 2 && i.zeroAt 0x7C 4 && i.zeroAt 0x90 0x70 && i.zeroAt 0x1373 0x8D

/-- Whether bind is zero or the device_id. -/
def Image.bindOk (i : Image) : Bool := i.zeroAt 0x40 48 || bytesAt i.bytes 0x40 48 == deviceId

/-- The signer of an image, if it is valid (R472 check 2). -/
def State.signerOf (s : State) (i : Image) : Option Nat :=
  match kindRow i.kind with
  | some (true, _, _) => s.owner.map ownerSigner
  | some (false, _, _) => if s.trust.revoked.testBit i.keyIndex then none else some i.keyIndex
  | none => none

/-- Whether both signatures of an envelope verify (R472 check 3). -/
def Image.signedBy (i : Image) (k : Nat) : Bool :=
  Config.verify k 0 i.signed (bytesAt i.bytes 0x100 96) && Config.verify k 1 i.signed (bytesAt i.bytes 0x160 4627)

/-- Whether a soft repair record is this device's own (R416, R418): its signatures are those that the DeviceID keys make of it. -/
def Image.recordOk (i : Image) : Bool :=
  let n := 0x40 + 16 * i.le 2 2
  let msg := bytesAt i.bytes 0 n
  decide (i.le 0 1 = 1) && decide (i.le 2 2 ≤ 1024) && (bytesAt i.bytes 0x10 48 == fitBytes deviceId 48)
    && (bytesAt i.bytes n 96 == fitBytes (Config.sign 1 0 msg) 96) && (bytesAt i.bytes (n + 96) 4627 == fitBytes (Config.sign 1 1 msg) 4627)

/-- Checks 1 to 5 of R472: none where they hold, else the mailbox status (11 VERIFY_FAIL, 12 ROLLBACK). -/
def State.verifyImage (s : State) (i : Image) : Option Nat :=
  if i.kind = 3 then (if i.recordOk then none else some 11)
  else if !i.formOk || !i.bindOk then some 11
  else match s.signerOf i with
    | none => some 11
    | some k =>
      if !i.signedBy k then some 11
      else if i.svn < s.counter i.counter then some 12
      else if sha384 i.stored ≠ i.digest then some 11
      else none

/-- The load check of R474: digest and tag, and for an owner's image the owner still enrolled (R478). -/
def State.loadOk (s : State) (i : Image) : Bool :=
  if i.kind = 3 then i.recordOk
  else decide (sha384 i.stored = i.digest) && i.tagOk && (i.owner.isEmpty || decide (s.owner = some i.owner))

/-- A staged image by its handle. -/
def State.staged (s : State) (h : Nat) : Option Image := SMap.find s.trust.images h

/-- An image in place of the one of its kind. -/
def putKind (l : List (Nat × Image)) (i : Image) : List (Nat × Image) := l.filter (fun e => e.1 ≠ i.kind) ++ [(i.kind, i)]

/-- The images a Gathering runs, and of one kind (R19); those that UPDATE has applied since its latest START (R178). -/
def State.runningOf (s : State) (w : Nat) : List (Nat × Image) := SMap.get (fun _ => []) s.trust.running w
def State.runningKind (s : State) (w k : Nat) : Option Image := ((s.runningOf w).find? (fun e => e.1 == k)).map (·.2)
def State.updatedOf (s : State) (w : Nat) : List (Nat × Image) := SMap.get (fun _ => []) s.trust.updated w

/-- A Gathering runs an image in place of the one of its kind. -/
def State.setRunning (s : State) (w : Nat) (i : Image) : State :=
  s.modTrust (fun t => { t with running := SMap.put t.running w (putKind (s.runningOf w) i) })

/-- UPDATE gives a Gathering an image for its next START (R178). -/
def State.setUpdated (s : State) (w : Nat) (i : Image) : State :=
  s.modTrust (fun t => { t with updated := SMap.put t.updated w (putKind (s.updatedOf w) i) })

/-- The images that the next START of a Gathering reloads: those it runs, with those of UPDATE in place of their kinds (R19, R178). -/
def State.heldOf (s : State) (w : Nat) : List (Nat × Image) := (s.updatedOf w).foldl (fun l e => putKind l e.2) (s.runningOf w)

/-- START puts the images that a Gathering holds in force. -/
def State.runUpdated (s : State) (w : Nat) : State :=
  s.modTrust (fun t => { t with running := SMap.put t.running w (s.heldOf w), updated := SMap.erase t.updated w })

/-- The byte that Spine's staging store shows at an offset: that of the image staged there (R452, R474). -/
def State.stagingByte (s : State) (a : Nat) : Option Byte :=
  s.trust.images.findSome? (fun e =>
    let base := Config.stagingPlace e.1
    if base ≤ a then e.2.kept[a - base]? else none)

/-- An image is staged under a new handle. -/
def State.stageImage (s : State) (i : Image) : Nat × State :=
  (s.trust.nextHandle, s.modTrust (fun t => { t with images := SMap.put t.images t.nextHandle i, nextHandle := t.nextHandle % 65535 + 1 }))

/-- Whether the rollback check refuses an image at a Gathering (R416, R473). -/
def State.rolledBack (s : State) (w : Nat) (i : Image) : Bool :=
  if i.kind = 3 then ((s.heldOf w).find? (fun e => e.1 == 3)).any (fun e => decide (i.sequence < e.2.sequence))
  else decide (i.svn < s.counter i.counter)

/-- The key_id of a key (R484). -/
def keyId (tenant : Nat) (key : List Byte) : List Byte := (sha384 (3 :: (leBytes 2 tenant ++ key))).take 8

end Sys2Proof.Machine
end

