-- ==== Sys2Proof/Machine/Mailbox.lean ====
section
/-! DEFINITION. Mailboxes: rings, entries, fetches, responses, and the checks of R443 (18, R439 to R443, R465, R466). Number 64
is the board controller's path. -/

namespace Sys2Proof.Machine

/-! ### Entries -/

/-- Fields of a command's header and its payload. -/
def cmdOpcode (e : List Byte) : Nat := leNat (bytesAt e 0 2)
def cmdLength (e : List Byte) : Nat := leNat (bytesAt e 4 2)
def cmdBuf (e : List Byte) : Nat := leNat (bytesAt e 8 8)
def cmdBufLen (e : List Byte) : Nat := leNat (bytesAt e 0x10 4)
def cmdPayload (e : List Byte) : List Byte := bytesAt e 32 224

/-- A response: its status, its inline payload, the bytes written to the extended buffer, its detail. -/
structure Reply where
  status : Nat
  payload : List Byte
  ext : List Byte
  detail : Nat
  deriving DecidableEq, Repr

/-- An answer of a status without content. -/
def Reply.plain (status : Nat) : Reply := ⟨status, [], [], 0⟩

/-- The response entry (the header of the response, its payload). -/
def responseBytes (e : List Byte) (r : Reply) : List Byte :=
  bytesAt e 0 4 ++ leBytes 2 r.payload.length ++ bytesAt e 6 1 ++ [0] ++ leBytes 2 r.status ++ List.replicate 6 0
    ++ leBytes 4 r.ext.length ++ leBytes 12 r.detail ++ r.payload

/-! ### Rings (R439 to R442) -/

/-- The commands taken and not answered. -/
def FuncSt.inFlight (x : FuncSt) : Nat := x.taken.length

/-- The response entries that the host has not consumed. -/
def FuncSt.unread (x : FuncSt) : Nat := (x.rspTail + 65536 - x.rspHead) % 65536

/-- Rings enabled anew take up where the host stands, once in_flight has drained (R442). -/
def FuncSt.restarted (x : FuncSt) : FuncSt :=
  if x.restart ∧ x.taken = [] then { x with restart := false, reqHead := x.reqTail } else x

/-- The oldest command of a sender is removed. -/
def State.popTaken (s : State) (f : Nat) : State :=
  let x := s.func f
  s.setFunc f ({ x with taken := x.taken.drop 1 }).restarted

/-- MB_RESPONSE_WRITE: the oldest command of a sender is answered: its extended buffer and its response entry are written, the
tail advances, the event is raised (R441). A function whose host is out of reach stops its ring (R442). -/
def State.answer (s : State) (f : Nat) (r : Reply) : State :=
  let x := s.func f
  match x.taken with
  | [] => s
  | t :: _ =>
    let resp := responseBytes t.entry r
    if f = 64 then
      let s1 := (s.modSpine (fun m => { m with bmcResp := resp, bmcBuf := if r.ext.isEmpty then m.bmcBuf else r.ext })).popTaken f
      s1.raise 869
    else if !s.hostUp then
      let s1 := s.popTaken f
      s1.setFunc f { s1.func f with err := true, stopped := true }
    else
      let s1 := if r.ext.isEmpty then s else s.hostWrite (cmdBuf t.entry) r.ext
      let s2 := (s1.hostWrite (x.rspBase.toNat + 256 * (x.rspTail % 2 ^ x.rspLog)) (fitBytes resp 256)).popTaken f
      (s2.setFunc f { s2.func f with rspTail := (x.rspTail + 1) % 65536 }).raise (512 + f)

/-- The oldest command of a sender notes how far it is. -/
def State.noteTaken (s : State) (f phase : Nat) (notes : List Nat) : State :=
  let x := s.func f
  match x.taken with
  | [] => s
  | t :: rest => s.setFunc f { x with taken := { t with phase := phase, notes := notes } :: rest }

/-! ### Command set 1.0 -/

/-- A command: its opcode, whether the physical function, a virtual function and the board controller may issue it, and its payload
size: fixed, or none where the payload itself gives it. -/
structure CmdRow where
  opcode : Nat
  pf : Bool
  vf : Bool
  bmc : Bool
  size : Option Nat
  deriving DecidableEq, Repr

/-- The commands of groups 0x01 to 0x04 (command set 1.0). -/
def cmdRowsA : List CmdRow := [
  ⟨0x0101, true, true, true, some 0⟩, ⟨0x0102, true, false, true, some 0⟩, ⟨0x0103, true, true, false, some 25⟩,
  ⟨0x0104, true, true, false, some 2⟩, ⟨0x0105, true, false, false, some 5⟩, ⟨0x0106, true, false, false, some 20⟩,
  ⟨0x0107, true, false, false, some 4⟩, ⟨0x0108, true, false, false, some 2⟩, ⟨0x0109, false, false, true, some 4⟩,
  ⟨0x0201, true, false, false, some 8⟩, ⟨0x0202, true, false, true, some 4⟩, ⟨0x0203, true, false, false, some 5⟩,
  ⟨0x0204, true, false, false, none⟩, ⟨0x0205, true, false, false, some 6⟩, ⟨0x0301, true, false, false, some 5⟩,
  ⟨0x0302, true, false, true, some 1⟩, ⟨0x0303, true, false, false, some 1⟩, ⟨0x0304, true, false, false, some 5⟩,
  ⟨0x0305, true, false, false, some 8⟩, ⟨0x0401, true, false, false, some 1⟩, ⟨0x0402, true, false, false, some 2⟩,
  ⟨0x0403, true, false, false, some 0⟩, ⟨0x0404, true, false, false, some 6⟩]

/-- The commands of groups 0x05 to 0x08. -/
def cmdRowsB : List CmdRow := [
  ⟨0x0501, true, false, false, some 2⟩, ⟨0x0502, true, false, false, none⟩, ⟨0x0503, true, false, false, some 181⟩,
  ⟨0x0504, true, false, false, some 2⟩, ⟨0x0601, true, false, false, some 127⟩, ⟨0x0602, true, false, false, some 45⟩,
  ⟨0x0603, true, false, false, some 12⟩, ⟨0x0604, true, false, false, some 2⟩, ⟨0x0701, true, false, false, some 36⟩,
  ⟨0x0702, true, false, false, some 4⟩, ⟨0x0703, true, false, false, some 20⟩, ⟨0x0704, true, true, false, some 5⟩,
  ⟨0x0705, true, false, false, some 4⟩, ⟨0x0706, true, false, false, some 5⟩, ⟨0x0801, true, true, false, some 6⟩,
  ⟨0x0802, true, true, false, some 6⟩, ⟨0x0803, true, true, false, some 3⟩, ⟨0x0804, true, true, false, some 8⟩,
  ⟨0x0805, true, false, false, some 24⟩]

/-- The commands of groups 0x09 to 0x0D. -/
def cmdRowsC : List CmdRow := [
  ⟨0x0901, true, true, true, some 0⟩, ⟨0x0902, true, true, false, some 6⟩, ⟨0x0903, true, true, false, some 6⟩,
  ⟨0x0904, true, true, false, some 2⟩, ⟨0x0A01, true, true, true, some 48⟩, ⟨0x0A02, true, false, false, some 0⟩,
  ⟨0x0A03, true, false, false, some 0⟩, ⟨0x0A04, true, true, true, some 0⟩, ⟨0x0B01, true, false, true, some 2⟩,
  ⟨0x0B02, true, false, false, some 4⟩, ⟨0x0B03, true, false, false, some 0⟩, ⟨0x0B04, true, false, false, some 4⟩,
  ⟨0x0C01, true, false, false, some 10⟩, ⟨0x0C02, true, false, false, some 2⟩, ⟨0x0C03, true, false, false, some 2⟩,
  ⟨0x0D01, true, true, true, some 0⟩, ⟨0x0D02, true, false, false, some 12⟩, ⟨0x0D03, true, false, false, some 2⟩]

/-- The row of an opcode in command set 1.0. -/
def cmdRow (op : Nat) : Option CmdRow := (cmdRowsA ++ cmdRowsB ++ cmdRowsC).find? (fun r => r.opcode == op)

/-- Whether a sender may issue a command. -/
def CmdRow.from (r : CmdRow) (f : Nat) : Bool := if f = 64 then r.bmc else if f = 0 then r.pf else r.vf

/-- The target of CLASS_WRITE: how many entries it has, its size in bytes, and its first register with the distance of entries; none for the
indirect stores. -/
def classTarget (k : Nat) : Option (Nat × Nat × Option (Nat × Nat)) :=
  match k with
  | 0 => some (768, 64, some (0x4000, 0x40))
  | 1 => some (1048576, 16, none)
  | 2 => some (8192, 32, none)
  | 3 => some (64, 4, some (0x400, 4))
  | 4 => some (128, 4, some (0x100, 4))
  | 5 => some (36, 4, some (0x300, 4))
  | 6 => some (256, 4, some (0x800, 4))
  | 7 => some (256, 4, some (0xC00, 4))
  | 8 => some (4, 4, some (0x1000, 4))
  | _ => none

/-- Whether a payload has its command's size: that of REG_WRITE follows its count, that of CLASS_WRITE its target, a stage slot of which is given
with or without its reserved words. -/
def CmdRow.sizeOk (r : CmdRow) (e : List Byte) : Bool :=
  let len := cmdLength e
  let first (i : Nat) : Nat := (byteAt (cmdPayload e) i).toNat
  decide (len ≤ 224) && match r.size with
    | some n => decide (len = n)
    | none =>
      if r.opcode = 0x0204 then decide (len = 5 + 4 * first 4)
      else match classTarget (first 0) with
        | some (_, size, _) => decide (len = 5 + size) || (decide (first 0 = 0) && decide (len = 53))
        | none => true

/-- The first offending byte of a header, and of a payload whose size differs (R443 case 4). -/
def badField (r : CmdRow) (e : List Byte) : Option Nat :=
  if !r.sizeOk e then some 4
  else if byteAt e 7 ≠ 0 then some 7
  else (List.range 12).findSome? (fun i => if byteAt e (0x14 + i) ≠ 0 then some (0x14 + i) else none)

/-- Where a command of a virtual function names a tenant (the tenant fields of the command table). -/
def tenantField (op : Nat) : Option Nat :=
  match op with
  | 0x0801 => some 4
  | 0x0802 => some 4
  | 0x0803 => some 0
  | _ => none

/-- Whether a virtual function's tenant allows a command: its tenant fields are zero or the tenant bound to it, and groups
0x07 to 0x09 need one bound. -/
def State.tenantOk (s : State) (f : Nat) (e : List Byte) : Bool :=
  if f = 0 ∨ f = 64 then true
  else
    let op := cmdOpcode e
    match (s.func f).bound with
    | none => !(decide (0x0700 ≤ op) && decide (op < 0x0A00))
    | some t => match tenantField op with
      | some i => let v := leNat (bytesAt (cmdPayload e) i 2); decide (v = 0) || decide (v = t)
      | none => true

/-- The tenant a command acts for: the one bound to a virtual function, else the one it names. -/
def State.actingTenant (s : State) (f named : Nat) : Nat := if f = 0 ∨ f = 64 then named % 16384 else ((s.func f).bound).getD 0

/-- Cases 1 to 5 of R443: the answer of a command that none of its own statuses decides. -/
def State.preCheck (s : State) (f : Nat) (t : Taken) : Option Reply :=
  let op := cmdOpcode t.entry
  if t.bad then some (Reply.plain 3)
  else match cmdRow op with
    | none => some (Reply.plain 1)
    | some r =>
      if !r.from f || !s.tenantOk f t.entry then some (Reply.plain 4)
      else match badField r t.entry with
        | some i => some ⟨2, [], [], i⟩
        | none =>
          if s.trust.sec = .locked ∧ ¬ (op / 256 = 1 ∨ op / 256 = 0x0A ∨ op / 256 = 0x0B ∨ op / 256 = 0x0D) then some (Reply.plain 13)
          else none

/-! ### Who answers (R431, R465, R499) -/

/-- Whether Spine's firmware answers mailboxes. -/
def State.spineServes (s : State) : Bool := s.spine.up && s.inService spineWin

/-- Whether a command is answered now: by the Folio, by the ROM, or by AON hardware. -/
def State.answers (s : State) (f : Nat) : Bool :=
  s.spineServes || (s.spine.rom && (decide (f = 0) || decide (f = 64))) || decide (f = 64)

/-- The answer BUSY of the ROM and of a BMC path whose Spine is down (R465, R499). -/
def State.romBusy (s : State) (f : Nat) (e : List Byte) : Bool :=
  let op := cmdOpcode e
  if s.spineServes then false
  else if f = 64 then decide (op ≠ 0x0B01)
  else !(decide (op = 0x0101) || (decide (op = 0x0401) && byteAt (cmdPayload e) 0 == 4))

/-- The oldest command of a sender is answered by hardware, or by Spine, where no command's own meaning is needed: a wrong function
byte (R439), an opcode outside command set 1.0 (R443). -/
def State.settleRing (s : State) (f : Nat) : Nat → State
  | 0 => s
  | fuel + 1 => match (s.func f).taken with
    | [] => s
    | t :: _ =>
      if t.bad then State.settleRing (s.answer f (Reply.plain 3)) f fuel
      else if (cmdRow (cmdOpcode t.entry)).isNone ∧ s.answers f then
        State.settleRing (s.answer f (Reply.plain 1)) f fuel
      else s

/-- The senders whose KEY_INSTALL is in the trust engine's unwrap queue (R481). -/
def State.unwrapping (s : State) : List Nat :=
  (List.range 65).filter (fun f => (s.func f).taken.head?.any (fun t => decide (cmdOpcode t.entry = 0x0902) && decide (t.phase = 1)))

/-- Zeroisation overwrites the unwrap queue: its commands are answered ABORTED (R485). -/
def State.abortUnwrapping (s : State) : State :=
  s.unwrapping.foldl (fun (s : State) f => (s.answer f (Reply.plain 15)).settleRing f 1024) s

/-- What a command's own meaning answers: a response with the state it leaves; a refusal that leaves a trace of its own (R472, R515); or
nothing yet. -/
inductive Served where
  | done (s : State) (r : Reply)
  | failed (s : State) (r : Reply)
  | later (s : State)

/-- A response without content, and the state. -/
def reply (s : State) (status : Nat) : Served := .done s (Reply.plain status)

/-- What a command answers that its own meaning does not: as it begins, cases 1 to 5 of R443 and then BUSY where the ROM or the BMC path's
hardware answers (log 92); afterwards, where it went on waiting, a tenant that its function is no longer bound to (R45). -/
def State.checkNow (s : State) (f : Nat) (t : Taken) : Option Reply :=
  if t.phase = 0 then (s.preCheck f t).or (if s.romBusy f t.entry then some (Reply.plain 5) else none)
  else if s.tenantOk f t.entry then none else some (Reply.plain 4)

/-- The meaning of a mailbox command: it acts on the oldest command of a sender, if that is the command's and it is answered now.
A command with a status other than OK has no effect (R443). -/
def State.perform (s : State) (f op : Nat) (body : State → Taken → Served) : Res :=
  match (s.func f).taken with
  | [] => .next s
  | t :: _ =>
    if t.bad ∨ cmdOpcode t.entry ≠ op ∨ !s.answers f then .next s
    else
      let out (s1 : State) (r : Reply) : State := (s1.answer f r).settleRing f 1024
      match s.checkNow f t with
        | some r => .next (out s r)
        | none => match body s t with
          | .done s1 r => .next (out (if r.status = 0 then s1 else s) r)
          | .failed s1 r => .next (out s1 r)
          | .later s1 => .next s1

/-! ### Restart without handover (R432) -/

/-- Every command taken and not answered is answered ABORTED. -/
def State.abortTaken (s : State) : State :=
  (List.range 65).foldl (fun (s : State) f => (List.range (s.func f).taken.length).foldl (fun (s : State) _ => s.answer f (Reply.plain 15)) s) s

/-- Spine restarts without a Folio handover: ABORTED for the commands taken, its Stile locks freed, EV_SPINE_RESTART (R432). -/
def State.spineRestarts (s : State) : State := ((s.abortTaken.depart (portWord 64)).setStilePort 64 []).raise 870

end Sys2Proof.Machine
end

