-- ==== Sys2Proof/Machine/Ling.lean ====
section
/-! DEFINITION. Ling: rows, searches, command blocks, ordered insertion, spare copies (04_ling_ternary_memory.md). -/

namespace Sys2Proof.Machine

/-! ### Rows -/

/-- The parity of a row over data, care and valid (R110). -/
def lingParity (d c : BitVec 160) (v : Bool) : Bool := (onesOf (d.toNat % 2 ^ 128) + onesOf (d.toNat / 2 ^ 128) + onesOf (c.toNat % 2 ^ 128) + onesOf (c.toNat / 2 ^ 128) + bit v) % 2 = 1

/-- A row never written (R113). -/
def lingRowReset (_ : Nat) : LingRow := ⟨0, 0, false, false, 0, 0, false⟩

/-- A row as a write leaves it: the array and its shadow (R110). -/
def lingRowOf (d c : BitVec 160) (v : Bool) : LingRow := ⟨d, c, v, lingParity d c v, d, c, v⟩

/-- Whether a row's parity holds. -/
def LingRow.parityOk (r : LingRow) : Bool := lingParity r.data r.care r.valid == r.parity

/-- The 48 bytes of a row's shadow as instance 0 of its bank holds them: data, care, valid (log 28). -/
def LingRow.shadowBytes (r : LingRow) : List Byte := leBytes 20 r.sdata.toNat ++ leBytes 20 r.scare.toNat ++ leBytes 8 (bit r.svalid)

/-- The bank position that serves a slot (R96). -/
def State.lingPos (s : State) (slot : Nat) : Nat := s.rf lingWin (0x100 + 4 * slot) 6 0

/-- A row and an action word of a bank, and them replaced. -/
def State.lingRow (s : State) (pos r : Nat) : LingRow := SMap.get lingRowReset s.ling.rows (4096 * pos + r)
def State.lingAct (s : State) (pos r : Nat) : Word128 := SMap.get (fun _ => 0) s.ling.acts (4096 * pos + r)

/-- What a correctable read of a row's shadow gives: the row as it was written (R110, R404). -/
def State.shadowRow (s : State) (pos r : Nat) : LingRow :=
  let b := s.eccFixed (lingBankWin pos) 0 (48 * r) (s.lingRow pos r).shadowBytes
  lingRowOf (BitVec.ofNat 160 (leNat (b.take 20))) (BitVec.ofNat 160 (leNat ((b.drop 20).take 20))) ((byteAt b 40).getLsbD 0)

/-- Whether a row's parity fails or it differs from its shadow (R110). -/
def State.rowDiffers (s : State) (pos r : Nat) : Bool :=
  let x := s.lingRow pos r
  let y := s.shadowRow pos r
  x.data != y.data || x.care != y.care || x.valid != y.valid

/-- The action word that a correctable read of a bank gives (R404). -/
def State.readAct (s : State) (pos r : Nat) : Word128 :=
  BitVec.ofNat 128 (leNat (s.eccFixed (lingBankWin pos) 1 (16 * r) (leBytes 16 (s.lingAct pos r).toNat)))
def State.setLingRow (s : State) (pos r : Nat) (x : LingRow) : State :=
  (s.modLing (fun l => { l with rows := SMap.set lingRowReset l.rows (4096 * pos + r) x })).eccWrite (lingBankWin pos) 0 (48 * r) 48
def State.setLingAct (s : State) (pos r : Nat) (a : Word128) : State :=
  (s.modLing (fun l => { l with acts := SMap.set (fun _ => 0) l.acts (4096 * pos + r) a })).eccWrite (lingBankWin pos) 1 (16 * r) 16

/-! ### Databases (R98, R99) -/

/-- The fields of LING_DB_CFG. -/
def State.dbSlot (s : State) (d : Nat) : Nat := s.rf lingWin (0x200 + 4 * d) 5 0
def State.dbBanks (s : State) (d : Nat) : Nat := s.rf lingWin (0x200 + 4 * d) 15 12
def State.dbRows (s : State) (d : Nat) : Nat :=
  match s.rf lingWin (0x200 + 4 * d) 17 16 with
  | 0 => 1 | 1 => 2 | _ => 4

/-- The entries of a database. -/
def State.dbEntries (s : State) (d : Nat) : Nat := 4096 * s.dbBanks d / s.dbRows d

/-- The slot and row of database row r. -/
def State.dbPlace (s : State) (d r : Nat) : Nat × Nat := (s.dbSlot d + r / 4096, r % 4096)

/-- The positions a write of a slot goes to: while a spare is filled, its bank too (R112). -/
def State.writePositions (s : State) (slot : Nat) : List Nat :=
  let p := s.lingPos slot
  match (s.gathOf lingWin).tip with
  | some j => if j.target = p then [p, j.spare] else [p]
  | none => [p]

/-- A row of an entry, and a row, a valid bit, an action word of it written (R104). -/
def State.entryRow (s : State) (d e i : Nat) : LingRow :=
  let p := s.dbPlace d (s.dbRows d * e + i)
  s.lingRow (s.lingPos p.1) p.2
def State.entryAct (s : State) (d e : Nat) : Word128 :=
  let p := s.dbPlace d (s.dbRows d * e)
  s.readAct (s.lingPos p.1) p.2
def State.setEntryRow (s : State) (d e i : Nat) (x : LingRow) : State :=
  let p := s.dbPlace d (s.dbRows d * e + i)
  (s.writePositions p.1).foldl (fun s b => s.setLingRow b p.2 x) s
def State.setEntryAct (s : State) (d e : Nat) (a : Word128) : State :=
  let p := s.dbPlace d (s.dbRows d * e)
  (s.writePositions p.1).foldl (fun s b => s.setLingAct b p.2 a) s

/-- Slice i of a 640-bit value. -/
def slice (v : BitVec 640) (i : Nat) : BitVec 160 := v.extractLsb' (160 * i) 160

/-- An entry is written whole, with valid 1. Only the valid bit of its first row counts (R98); the others' are set too and an INVALIDATE leaves
them, so that under a smaller width they show valid entries (DESIGN CHOICE, log 103). -/
def State.writeEntry (s : State) (d e : Nat) (data care : BitVec 640) (act : Word128) : State :=
  ((List.range (s.dbRows d)).foldl (fun s i => s.setEntryRow d e i (lingRowOf (slice data i) (slice care i) true)) s).setEntryAct d e act

/-- An entry's valid bit. -/
def State.entryValid (s : State) (d e : Nat) : Bool := (s.entryRow d e 0).valid

/-- An entry's valid bit is written. -/
def State.setEntryValid (s : State) (d e : Nat) (v : Bool) : State :=
  let r := s.entryRow d e 0
  s.setEntryRow d e 0 (lingRowOf r.data r.care v)

/-- The valid entries of a database, in rising order: each slot's rows in their order. -/
def State.dbValid (s : State) (d : Nat) : List Nat :=
  let w := s.dbRows d
  (List.range (s.dbBanks d)).flatMap (fun k =>
    let pos := s.lingPos (s.dbSlot d + k)
    (s.ling.rows.filter (fun e => decide (4096 * pos ≤ e.1) && decide (e.1 < 4096 * (pos + 1)) && e.2.valid && decide (e.1 % 4096 % w = 0))).map
      (fun e => (4096 * k + e.1 % 4096) / w))

/-- Whether a bank's rows take part in a search: a bank in FAILED does not match (R111), nor one that is not started. -/
def State.bankLive (s : State) (pos : Nat) : Bool :=
  match (s.gathOf (lingBankWin pos)).own with
  | .inService => true
  | .quiescing => true
  | .quiet => true
  | .updating => true
  | _ => false

/-- Whether an entry matches a key (R97, R98). -/
def State.entryMatches (s : State) (d : Nat) (key : BitVec 640) (e : Nat) : Bool :=
  s.bankLive (s.lingPos (s.dbPlace d (s.dbRows d * e)).1) &&
  (List.range (s.dbRows d)).all (fun i =>
    let r := s.entryRow d e i
    (r.data ^^^ slice key i) &&& r.care == 0)

/-- The matching entries of a database in rising order. -/
def State.dbMatches (s : State) (d : Nat) (key : BitVec 640) : List Nat := (s.dbValid d).filter (s.entryMatches d key)

/-! ### Data searches (R100, R101, R111) -/

/-- What a data search answers: a hit with the entry and its action word, a miss, or a drop with DATA_ERROR. -/
inductive LingAnswer where
  | hit (entry : Nat) (act : Word128)
  | miss
  | drop
  deriving DecidableEq, Repr

/-- Whether a database includes a bank in FAILED. -/
def State.dbFailed (s : State) (d : Nat) : Bool :=
  (List.range (s.dbBanks d)).any (fun k => decide ((s.gathOf (lingBankWin (s.lingPos (s.dbSlot d + k)))).own = .failed))

/-- A data search of a width of `w` rows. -/
def State.dataSearch (s : State) (d w : Nat) (key : BitVec 640) : LingAnswer × State :=
  let c (k : Nat) (s : State) : State := s.count lingWin (0x800 + 4 * k)
  let s0 := c 0 s
  if s.dbBanks d = 0 ∨ s.dbRows d ≠ w then (.miss, c 8 (c 2 s0))
  else if s.dbFailed d ∧ s.rf lingWin (0x200 + 4 * d) 31 31 = 1 then (.drop, c 7 s0)
  else match s.dbMatches d key with
    | [] => (.miss, c 2 s0)
    | e :: _ =>
      let p := s.dbPlace d (w * e)
      let q := s0.eccRead (lingBankWin (s.lingPos p.1)) 1 (16 * p.2) 16
      if q.1 then (.drop, c 7 q.2) else (.hit e (s.entryAct d e), c 1 q.2)

/-! ### Command blocks (R103 to R109) -/

/-- Registers of block x. -/
def blockBase (x : Nat) : Nat := 0x400 + 0x100 * x
def State.blockCmds (s : State) (x : Nat) : List LingCmd := SMap.get (fun _ => []) s.ling.blocks x
def State.setBlock (s : State) (x : Nat) (l : List LingCmd) : State :=
  (s.modLing (fun g => { g with blocks := SMap.set (fun _ => []) g.blocks x l })).setRf lingWin (blockBase x + 0xB4) 31 31 (bit (!l.isEmpty))

/-- A command completes: its result and search fields, its index and moves. -/
def State.lingDone (s : State) (x result index moves : Nat) (search : Nat) : State :=
  let v := (s.reg lingWin (blockBase x + 0xB4)).toNat / 2 ^ 31 * 2 ^ 31
  (s.setReg lingWin (blockBase x + 0xB4) (BitVec.ofNat 32 (v + search + result))).setReg lingWin (blockBase x + 0xB8)
    (BitVec.ofNat 32 (moves * 65536 + index % 32768))

/-- Words of a block's registers as one number, and a number put into them. -/
def State.blockWords (s : State) (base n : Nat) : Nat :=
  sumOf (List.range n) (fun k => (s.reg lingWin (base + 4 * k)).toNat * 2 ^ (32 * k))
def State.setBlockWords (s : State) (base n v : Nat) : State :=
  (List.range n).foldl (fun s k => s.setReg lingWin (base + 4 * k) (BitVec.ofNat 32 (bitsOf v (32 * k + 31) (32 * k)))) s

/-- The block whose command moves entries of a database. -/
def State.movingBlock (s : State) (d : Nat) : Option (Nat × LingCmd × LingMove) :=
  (List.range 4).findSome? (fun x => match s.blockCmds x with
    | c :: _ => match c.move with
      | some m => if c.db = d then some (x, c, m) else none
      | none => none
    | [] => none)

/-- Whether a spare copy fills a slot that the database has now (R112). -/
def State.dbCopying (s : State) (d : Nat) : Bool :=
  s.ling.copying.any (fun k => decide (s.dbSlot d ≤ k) && decide (k < s.dbSlot d + s.dbBanks d))

/-- move_active: whether a move or a spare copy runs in a database (R106, R112). -/
def State.dbBusy (s : State) (d : Nat) : Bool := s.dbCopying d || (s.movingBlock d).isSome

/-- The tokens a command draws of TABLE_UPDATE (R109). -/
def State.lingTokens (s : State) (c : LingCmd) : Nat :=
  match c.op with
  | 0 => s.dbRows c.db
  | 1 => s.dbRows c.db
  | 2 => 1
  | 3 => 1
  | _ => s.dbBanks c.db

/-- The shadows of an entry's rows are read: whether one does not give its row, and the state with their errors logged. -/
def State.readShadows (s : State) (d e : Nat) : Bool × State :=
  (List.range (s.dbRows d)).foldl (fun (acc : Bool × State) i =>
    let p := s.dbPlace d (s.dbRows d * e + i)
    let q := acc.2.eccRead (lingBankWin (s.lingPos p.1)) 0 (48 * p.2) 48
    (acc.1 || q.1 || s.rowDiffers (s.lingPos p.1) p.2, q.2)) (false, s)

/-- READ (R103, R110): the entry into the block. DESIGN CHOICE (log 103): the valid bit is reported as hit, and the data and care words beyond
the width are zero; an action word that reads uncorrectable leaves the action words of the block as they were, with result OK. -/
def State.lingReadEntry (s : State) (x : Nat) (c : LingCmd) : State :=
  let w := s.dbRows c.db
  let rows := (List.range w).map (fun i => s.entryRow c.db c.index i)
  let join (f : LingRow → BitVec 160) : Nat := sumOf rows.zipIdx (fun e => (f e.1).toNat * 2 ^ (160 * e.2))
  let s1 := s.setBlockWords (blockBase x) 20 (join (·.data))
  let s2 := s1.setBlockWords (blockBase x + 0x50) 20 (join (·.care))
  let p := s.dbPlace c.db (w * c.index)
  let a := s2.eccRead (lingBankWin (s.lingPos p.1)) 1 (16 * p.2) 16
  let s3 := if a.1 then a.2 else a.2.setBlockWords (blockBase x + 0xA0) 4 (s.entryAct c.db c.index).toNat
  let isLost := s.ling.lost.contains (4096 * p.1 + p.2)
  let s4 := s3.modLing (fun g => { g with lost := g.lost.filter (· ≠ 4096 * p.1 + p.2) })
  let h := s4.readShadows c.db c.index
  let st := bit (s.entryValid c.db c.index) * 2 ^ 14 + bit h.1 * 2 ^ 13 + bit (rows.any (fun r => !r.parityOk)) * 2 ^ 12
  h.2.lingDone x (if isLost then 4 else 0) c.index 0 st

/-- A management search (R105) over the entries that hold `p`. Without a hit the spec gives LING_RESULT.index no value; here it is 0
(DESIGN CHOICE, log 48). -/
def State.lingManage (s : State) (x : Nat) (c : LingCmd) (p : Nat → Bool) : State :=
  let m := (s.dbMatches c.db c.data).filter p
  let st := min 255 m.length * 2 ^ 16 + bit (decide (2 ≤ m.length)) * 2 ^ 15 + bit (!m.isEmpty) * 2 ^ 14
  s.lingDone x 0 (m.headD 0) 0 st

/-- The plan of a MOVE_BLOCK at entry p (R107): none when neither side has a free entry. -/
def State.movePlan (s : State) (d p dir : Nat) : Option LingMove :=
  if !s.entryValid d p then some ⟨p, false, 0, p, 0⟩
  else
    let down := if dir = 2 then none else ((List.range (s.dbEntries d)).drop (p + 1)).find? (fun e => !s.entryValid d e)
    let up := if dir = 1 then none else ((List.range p).reverse).find? (fun e => !s.entryValid d e)
    match down, up with
    | some fd, some fu => if fd - p ≤ p - 1 - fu then some ⟨fd - 1, true, fd - p, p, 0⟩ else some ⟨fu + 1, false, p - 1 - fu, p - 1, 0⟩
    | some fd, none => some ⟨fd - 1, true, fd - p, p, 0⟩
    | none, some fu => some ⟨fu + 1, false, p - 1 - fu, p - 1, 0⟩
    | none, none => none


/-- A command of block x performs a write, if its action word carries no reserved encoding; else nothing is written, and cfg_reject is
raised for LING_CMD_x (R541). What LING_STATUS_x and LING_RESULT_x show beside busy stays (log 49). A MOVE_BLOCK is checked before its first
copy, so that it writes nothing (log 49). -/
def State.lingWrites (s : State) (x : Nat) (c : LingCmd) (write : State → State) : State :=
  if actionListed c.act then write s else s.cfgReject lingWin (blockBase x + 0xB0)

/-- The tokens that the command of a block holds are let go: it draws none any more. -/
def State.lingLetGo (s : State) (x : Nat) : State := if (s.heldBy 3 2).1 = x then s.setHeld 3 2 0 0 else s

/-- Whether another block's command of a database has begun to draw its tokens: a move of the database waits for it, whose last write would
otherwise wait behind those tokens for ever (R106, R421; DEDUCED, log 104). -/
def State.dbDrawing (s : State) (x d : Nat) : Bool :=
  let h := s.heldBy 3 2
  decide (h.2 ≠ 0) && decide (h.1 ≠ x) && decide (h.1 < 4) && ((s.blockCmds h.1).head?.map (fun c => decide (c.db = d))).getD false

/-- The command in front of block x does what it can: the flag says that it has completed. DESIGN CHOICE (log 103): LING_RESULT shows the
command's own index and no moves where the spec gives it none, and rows of a bank that is OFF or FAILED are read and written as others. -/
def State.lingTry (s : State) (x : Nat) (c : LingCmd) : Bool × State :=
  if s.dbBanks c.db = 0 then (true, (s.lingLetGo x).lingDone x 3 c.index 0 0)
  else if c.op ≠ 4 ∧ s.dbEntries c.db ≤ c.index then (true, (s.lingLetGo x).lingDone x 2 c.index 0 0)
  else if c.move.isSome ∨ s.dbBusy c.db then (false, s)
  else if c.op = 6 then
    match s.movePlan c.db c.index c.dir with
    | none => (true, (((s.count lingWin 0x818).setEvent lingWin 0x840 2).lingDone x 1 c.index 0 0))
    | some m =>
      if s.dbDrawing x c.db then (false, s)
      else if !actionListed c.act then (true, s.cfgReject lingWin (blockBase x + 0xB0))
      else (false, s.setBlock x ({ c with move := some m } :: (s.blockCmds x).drop 1))
  else match s.drawFor x 3 2 (s.lingTokens c) with
    | (false, s1) => (false, s1)
    | (true, s1) =>
      let r := match c.op with
        | 0 => s1.lingReadEntry x c
        | 1 => s1.lingWrites x c (fun s => (s.writeEntry c.db c.index c.data c.care c.act).lingDone x 0 c.index 0 0)
        | 2 => (s1.setEntryValid c.db c.index false).lingDone x 0 c.index 0 0
        | 3 => s1.lingWrites x c (fun s => (s.setEntryAct c.db c.index c.act).lingDone x 0 c.index 0 0)
        | 4 => s1.lingManage x c (fun _ => true)
        | _ => s1.lingManage x c (fun e => decide (c.index < e))
      (true, r)

/-- The commands of block x are run in order, until one waits (R103, R421); `fuel` at most. A draining Ling completes those it held when
DRAIN came (R22). -/
def State.lingRun (s : State) (x : Nat) : Nat → State
  | 0 => s
  | fuel + 1 =>
    match s.blockCmds x with
    | [] => s
    | c :: _ =>
      if !s.serving lingWin ∨ (c.late ∧ !s.inService lingWin) then s
      else match s.lingTry x c with
        | (true, s1) => (s1.setBlock x ((s1.blockCmds x).drop 1)).lingRun x fuel
        | (false, s1) => s1

/-- Every block is tried again: after a refill, a move, a spare copy or a new configuration of a database; twice, since one may wait for another's
tokens. -/
def State.lingRetry (s : State) : State :=
  (List.range 8).foldl (fun s x => s.lingRun (x % 4) ((s.blockCmds (x % 4)).length + 1)) s

/-- A go of LING_CMD_x: the command is captured, and runs unless an earlier one is in progress (R103). -/
def State.lingGo (s : State) (x op dir db index : Nat) : State :=
  let b := blockBase x
  let c : LingCmd := ⟨op, dir, db, index, BitVec.ofNat 640 (s.blockWords b 20), BitVec.ofNat 640 (s.blockWords (b + 0x50) 20),
    BitVec.ofNat 128 (s.blockWords (b + 0xA0) 4), none, !s.inService lingWin⟩
  let s1 := s.setReg lingWin (b + 0xB0) (BitVec.ofNat 32 (op * 2 ^ 24 + dir * 2 ^ 22 + db * 2 ^ 16 + index))
  let s2 := s1.setBlock x (s1.blockCmds x ++ [c])
  s2.lingRun x ((s2.blockCmds x).length + 1)

/-- The dir that LING_CMD_x holds. -/
def State.lingDir (s : State) (x : Nat) : Nat := s.rf lingWin (blockBase x + 0xB0) 23 22

/-- LING_READ: a go with op READ. -/
def execLingRead (x : Fin 4) (db : BitVec 5) (index : BitVec 15) (s : State) : Res :=
  .next (s.lingGo x.val 0 (s.lingDir x.val) db.toNat index.toNat)

/-- LING_WRITE: a go with op WRITE. -/
def execLingWrite (x : Fin 4) (db : BitVec 5) (index : BitVec 15) (s : State) : Res :=
  .next (s.lingGo x.val 1 (s.lingDir x.val) db.toNat index.toNat)

/-- LING_INVALIDATE: a go with op INVALIDATE. -/
def execLingInvalidate (x : Fin 4) (db : BitVec 5) (index : BitVec 15) (s : State) : Res :=
  .next (s.lingGo x.val 2 (s.lingDir x.val) db.toNat index.toNat)

/-- LING_WRITE_ACTION: a go with op WRITE_ACTION. -/
def execLingWriteAction (x : Fin 4) (db : BitVec 5) (index : BitVec 15) (s : State) : Res :=
  .next (s.lingGo x.val 3 (s.lingDir x.val) db.toNat index.toNat)

/-- LING_SEARCH: a go with op SEARCH. -/
def execLingSearch (x : Fin 4) (db : BitVec 5) (s : State) : Res :=
  .next (s.lingGo x.val 4 (s.lingDir x.val) db.toNat (s.rf lingWin (blockBase x.val + 0xB0) 14 0))

/-- LING_NEXT_MATCH: a go with op NEXT_MATCH. -/
def execLingNextMatch (x : Fin 4) (db : BitVec 5) (index : BitVec 15) (s : State) : Res :=
  .next (s.lingGo x.val 5 (s.lingDir x.val) db.toNat index.toNat)

/-- LING_MOVE_BLOCK: a go with op MOVE_BLOCK; dir 3 is a reserved encoding (R11). -/
def execLingMoveBlock (x : Fin 4) (db : BitVec 5) (index : BitVec 15) (dir : BitVec 2) (s : State) : Res :=
  if dir.toNat = 3 then .next (s.cfgReject lingWin (blockBase x.val + 0xB0))
  else .next (s.lingGo x.val 6 dir.toNat db.toNat index.toNat)

/-- Codewords copied from `from'` to `to` are uncorrectable in the copy where they read so (log 50): `s0` is the state they were read in. -/
def State.copyBad (s s0 : State) (pos pos' inst a a' n : Nat) : State :=
  (List.range n).foldl (fun (s : State) k =>
    if (s0.eccRead (lingBankWin pos) inst (a + 16 * k) 16).1 then s.poisonWord (lingBankWin pos') inst (a' + 16 * k) else s) s

/-- One row of a move's copy: array, parity and shadow of row i of an entry to another, at every position that its slot's writes go to. -/
def State.moveRow (s : State) (d src dst i : Nat) : State :=
  let p := s.dbPlace d (s.dbRows d * src + i)
  let q := s.dbPlace d (s.dbRows d * dst + i)
  let pos := s.lingPos p.1
  let y := s.shadowRow pos p.2
  let s1 := (s.eccRead (lingBankWin pos) 0 (48 * p.2) 48).2
  (s.writePositions q.1).foldl (fun (s2 : State) b => (s2.setLingRow b q.2
    { s.lingRow pos p.2 with sdata := y.sdata, scare := y.scare, svalid := y.svalid }).copyBad s pos b 0 (48 * p.2) (48 * q.2) 3) s1

/-- One copy of a move: entry src to its neighbour, rows, shadow and action word, identical in each (R107, R108). -/
def State.moveCopy (s : State) (d : Nat) (m : LingMove) : State :=
  let dst := if m.down then m.src + 1 else m.src - 1
  let s1 := (List.range (s.dbRows d)).foldl (fun (s : State) i => s.moveRow d m.src dst i) s
  let p := s.dbPlace d (s.dbRows d * m.src)
  let q := s.dbPlace d (s.dbRows d * dst)
  let pos := s.lingPos p.1
  (s.writePositions q.1).foldl (fun (s2 : State) b => (s2.setLingAct b q.2 (s.entryAct d m.src)).copyBad s pos b 1 (16 * p.2) (16 * q.2) 1)
    (s1.eccRead (lingBankWin pos) 1 (16 * p.2) 16).2

/-- LING_MOVE_STEP: one copy of the move in a database, or its final write, once it has its tokens (R107 to R109). -/
def execLingMoveStep (db : BitVec 5) (s : State) : Res :=
  let d := db.toNat
  match s.movingBlock d with
  | none => .next s
  | some (x, c, m) =>
    let rest := (s.blockCmds x).drop 1
    if !s.serving lingWin then .next s
    else if m.left ≠ 0 then
      match s.drawFor d 0 2 (s.dbRows d) with
      | (false, s1) => .next s1
      | (true, s1) =>
        let m' := { m with src := if m.down then m.src - 1 else m.src + 1, left := m.left - 1, moved := m.moved + 1 }
        .next (((s1.moveCopy d m).count lingWin 0x814).setBlock x ({ c with move := some m' } :: rest))
    else
      match s.drawFor x 3 2 (s.dbRows d) with
      | (false, s1) => .next s1
      | (true, s1) =>
        let s2 := s1.setBlock x rest
        .next (((s2.writeEntry d m.place c.data c.care c.act).lingDone x 0 m.place m.moved 0).lingRetry)

/-! ### Spare banks (R112) -/

/-- The slot that a position serves. -/
def State.slotOf (s : State) (pos : Nat) : Option Nat := (List.range 64).find? (fun j => s.lingPos j == pos)

/-- The databases that hold a slot. -/
def State.dbsOf (s : State) (slot : Nat) : List Nat :=
  (List.range 32).filter (fun d => decide (s.dbSlot d ≤ slot) && decide (slot < s.dbSlot d + s.dbBanks d))

/-- An action word copied into a spare; one that is uncorrectable is so in the copy too (log 50). -/
def State.copyAct (s : State) (target spare r : Nat) : State :=
  ((s.eccRead (lingBankWin target) 1 (16 * r) 16).2.setLingAct spare r (s.readAct target r)).copyBad s target spare 1 (16 * r) (16 * r) 1

/-- The row copied into a spare: from the target's shadow, else from its array, else invalid and counted (R110, R112). -/
def State.copyRow (s : State) (target spare r : Nat) : State :=
  let x := s.lingRow target r
  let q := s.eccRead (lingBankWin target) 0 (48 * r) 48
  let s1 := if !q.1 then q.2.setLingRow spare r (s.shadowRow target r)
    else if x.parityOk then q.2.setLingRow spare r (lingRowOf x.data x.care x.valid)
    else ((q.2.setLingRow spare r (lingRowOf x.data x.care false)).count lingWin 0x810).setEvent lingWin 0x840 1
  s1.copyAct target spare r

/-- LING_SLOT_SWITCH: the slot map moves to the spare; the target is retired (R112). -/
def State.slotSwitch (s : State) (target spare : Nat) : State :=
  let s1 := match s.slotOf target with
    | some j => s.setReg lingWin (0x100 + 4 * j) (BitVec.ofNat 32 spare)
    | none => s
  let t := s1.gathOf (lingBankWin target)
  let s2 := (s1.changeGath (lingBankWin target) { t with role := .retired }).setSummary (lingBankWin target) 3
  let p := s2.gathOf (lingBankWin spare)
  let s3 := (s2.changeGath (lingBankWin spare) { p with role := .bound }).setSummary (lingBankWin spare) 3
  let g := s3.gathOf lingWin
  let s4 := (s3.setGath lingWin { g with cmd := none, tip := none }).modLing (fun l => { l with copying := [] })
  (s4.setEvent lingWin 0x840 3).lingRetry

/-- LING_SPARE_COPY_STEP: one row of the target is copied into the spare, with a LING_MOVE token; after the last row the slot
moves (R109, R112). Nothing is copied before the spare has started. -/
def execLingSpareCopyStep (s : State) : Res :=
  let g := s.gathOf lingWin
  match g.tip with
  | none => .next s
  | some j =>
    if !j.begun || !s.inService (lingBankWin j.spare) then .next s
    else match s.drawFor 32 0 2 1 with
      | (false, s1) => .next s1
      | (true, s1) =>
        let s2 := s1.copyRow j.target j.spare j.rows
        let s3 := s2.setGath lingWin { g with tip := some { j with rows := j.rows + 1 } }
        if j.rows + 1 < 4096 then .next s3 else .next (s3.slotSwitch j.target j.spare)

/-- The entry that holds a row of a bank is lost: invalid, counted, and LOST to its next READ (R110). -/
def State.loseRow (s : State) (pos r : Nat) : State :=
  let s1 := (s.count lingWin 0x810).setEvent lingWin 0x840 1
  match s.slotOf pos with
  | none => s1
  | some j => match s.dbsOf j with
    | [] => s1
    | d :: _ =>
      let e := (4096 * (j - s.dbSlot d) + r) / s.dbRows d
      let p := s.dbPlace d (s.dbRows d * e)
      (s1.setEntryValid d e false).modLing (fun g => { g with lost := g.lost ++ [4096 * p.1 + p.2] })

/-- LING_SHADOW_REPAIR: a row is compared with its shadow, read through its code, and repaired, or its entry is lost (R110). -/
def State.shadowRepair (s : State) (pos r : Nat) : State :=
  let x := s.lingRow pos r
  let q := s.eccRead (lingBankWin pos) 0 (48 * r) 48
  if q.1 then
    if x.parityOk then q.2.setLingRow pos r (lingRowOf x.data x.care x.valid)
    else (q.2.setLingRow pos r (lingRowOf x.data x.care false)).loseRow pos r
  else if !x.parityOk || s.rowDiffers pos r then
    ((q.2.setLingRow pos r (s.shadowRow pos r)).count lingWin 0x80C).setEvent lingWin 0x840 0
  else q.2

end Sys2Proof.Machine
end

