-- ==== Sys2Proof/Machine/WarrenCommands.lean ====
section
/-! DEFINITION. The meanings of Warren's commands (05_warren_tables_and_learning.md) but those of threads, and what RESET and
rounds do to it. -/

namespace Sys2Proof.Machine

/-! ### Command blocks (R125) -/

/-- n register words of engine e from an offset, little-endian. -/
def State.engWords (s : State) (e off n : Nat) : Nat :=
  sumOf (List.range n) (fun k => (s.reg (warrenEngineWin e) (off + 4 * k)).toNat * 2 ^ (32 * k))
def State.setEngWords (s : State) (e off n v : Nat) : State :=
  (List.range n).foldl (fun (s : State) k => s.setReg (warrenEngineWin e) (off + 4 * k) (BitVec.ofNat 32 (v / 2 ^ (32 * k)))) s

/-- WARREN_BUSY shows whether the block has work. -/
def State.showBusy (s : State) (e : Nat) : State := s.setRf (warrenEngineWin e) 0x1A4 0 0 (bit (!(s.wQueue e).isEmpty))

/-- A go of WARREN_CMD: command, index, key, data and compare registers are captured; it runs unless an earlier one does. -/
def State.warrenGo (s : State) (e op table : Nat) (static peek valid : Bool) : State :=
  let w := warrenEngineWin e
  let s1 := s.setReg w 0x1A0 (BitVec.ofNat 32 (op * 2 ^ 24 + table * 2 ^ 20 + bit static * 2 ^ 19 + bit peek * 2 ^ 18 + bit valid * 2 ^ 17))
  let j : WarrenJob := { newJob e op table (leBytes 96 (s.engWords e 0x100 24)) with
    index := s.rf w 0x1AC 25 0, data := BitVec.ofNat 128 (s.engWords e 0x180 4), cmp := BitVec.ofNat 64 (s.engWords e 0x190 2),
    static := static, peek := peek, valid := valid }
  ((s1.setQueue e (s1.wQueue e ++ [j])).showBusy e).warrenAdvance e

/-- Bit b of the WARREN_CMD register of engine e. -/
def State.cmdBit (s : State) (e b : Nat) : Bool := s.rf (warrenEngineWin e) 0x1A0 b b = 1

/-- WARREN_LOOKUP: a go with op LOOKUP. -/
def execWarrenLookup (e : Fin 4) (table : BitVec 4) (peek : Bool) (s : State) : Res :=
  .next (s.warrenGo e.val 0 table.toNat (s.cmdBit e.val 19) peek (s.cmdBit e.val 17))

/-- WARREN_INSERT: a go with op INSERT. -/
def execWarrenInsert (e : Fin 4) (table : BitVec 4) (static : Bool) (s : State) : Res :=
  .next (s.warrenGo e.val 1 table.toNat static (s.cmdBit e.val 18) (s.cmdBit e.val 17))

/-- WARREN_UPDATE: a go with op UPDATE. -/
def execWarrenUpdate (e : Fin 4) (table : BitVec 4) (static : Bool) (s : State) : Res :=
  .next (s.warrenGo e.val 2 table.toNat static (s.cmdBit e.val 18) (s.cmdBit e.val 17))

/-- WARREN_DELETE: a go with op DELETE. -/
def execWarrenDelete (e : Fin 4) (table : BitVec 4) (s : State) : Res :=
  .next (s.warrenGo e.val 3 table.toNat (s.cmdBit e.val 19) (s.cmdBit e.val 18) (s.cmdBit e.val 17))

/-- WARREN_READ_INDEX: a go with op READ_INDEX. -/
def execWarrenReadIndex (e : Fin 4) (table : BitVec 4) (s : State) : Res :=
  .next (s.warrenGo e.val 4 table.toNat (s.cmdBit e.val 19) (s.cmdBit e.val 18) (s.cmdBit e.val 17))

/-- WARREN_WRITE_INDEX: a go with op WRITE_INDEX. -/
def execWarrenWriteIndex (e : Fin 4) (table : BitVec 4) (static : Bool) (valid : Bool) (s : State) : Res :=
  .next (s.warrenGo e.val 5 table.toNat static (s.cmdBit e.val 18) valid)

/-- WARREN_COMPARE_WRITE: a go with op COMPARE_WRITE. -/
def execWarrenCompareWrite (e : Fin 4) (table : BitVec 4) (s : State) : Res :=
  .next (s.warrenGo e.val 6 table.toNat (s.cmdBit e.val 19) (s.cmdBit e.val 18) (s.cmdBit e.val 17))

/-- A block's command ends: its status, and the registers its operation returns (R125); code 256 leaves the status (R541, log 51). -/
def State.blockStatus (s : State) (e : Nat) (op : Nat) (x : WarrenEnd) : State :=
  let w := warrenEngineWin e
  let s1 := if x.code = 256 then s else s.setReg w 0x1A8 (BitVec.ofNat 32 (x.code + x.flags))
  let s2 := if x.code = 0 ∨ x.code = 2 ∨ x.code = 4 then s1.setRf w 0x1AC 25 0 x.index else s1
  if x.code ≠ 0 ∨ (op ≠ 0 ∧ op ≠ 4) then s2
  else
    let s3 := s2.setEngWords e 0x180 4 x.action.toNat
    if op = 4 then s3.setEngWords e 0x100 24 (leNat (fitBytes x.key 96)) else s3

/-- WARREN_CMD_DONE: the command in front of a block completes, writes its status and clears busy; the next one runs. A command
that waits is tried again first. -/
def execWarrenCmdDone (e : Fin 4) (s : State) : Res :=
  let s1 := s.warrenAdvance e.val
  match s1.wFront e.val with
  | none => .next s1
  | some j => match j.ended with
    | none => .next s1
    | some x =>
      let s2 := (s1.blockStatus e.val j.op x).setQueue e.val ((s1.wQueue e.val).drop 1)
      .next ((s2.showBusy e.val).warrenAdvance e.val)

/-! ### Ownership and displacement (R126, R127) -/

/-- A packet that waits is told its verdict; one that has waited learn_wait_ns is not, and its learn is counted (R138). -/
def State.tellVerdict (s : State) (pid : Option Nat) (code : Nat) : State :=
  match pid with
  | none => s
  | some p => match s.packet p with
    | some k => match k.learnWait with
      | some (deadline, 0) =>
        if deadline < s.time.cycles then (s.wCount 7).setPacket p { k with learnWait := some (deadline, 6) }
        else s.setPacket p { k with learnWait := some (deadline, code) }
      | _ => s
    | none => s

/-- The learn in front of the pending store, if it has ended, gives its verdict and leaves (R133). -/
def State.learnDeliver (s : State) : State :=
  match s.wFront 4 with
  | none => s
  | some j => match j.ended with
    | none => s
    | some x => (s.setQueue 4 ((s.wQueue 4).drop 1)).tellVerdict j.pid x.code

/-- A displacement that has begun is given up before its new entry is written: the old way of the entry moved last is free again, since that
entry stands in its new way (R117, R128). The flag is false where that write waits for its token (R143); `must`: it cannot wait, as at a reset,
and takes a token only where one is left (log 101). A way that cannot be read is left as it is. -/
def State.dropPath (s : State) (j : WarrenJob) (must : Bool) : Bool × State :=
  match j.path with
  | [] => (true, s)
  | (_, _, b, w) :: _ => match s.wLoad j.table b none with
    | (.ok _, s1) =>
      if !entFlag (s1.way j.table b w) 0 then (true, s1)
      else match s1.wDrawOne j.who with
        | (got, s2) =>
          if got || must then (true, s2.setWay j.table b w (entSetFlag (s2.way j.table b w) 0 false)) else (false, s2)
    | (_, s1) => (true, s1)

/-- One move of a path, with a token for each bucket read again and each way written: the entry is copied to its other bucket; after the last
move the new entry takes its place (R127, R128, R143). Both buckets must be in reach. -/
def State.displaceOne (s : State) (j : WarrenJob) : State :=
  match j.path with
  | [] => s
  | (b, w, b', w') :: rest =>
    match s.wReads j.who j.table [b, b'] with
    | (.wait, s1) => s1
    | (.bad _, s1) => match s1.dropPath j false with
      | (true, s2) => s2.wStop j 8
      | (false, s2) => s2
    | (.ok _, s1) => match s1.wDraw j.who (if rest.isEmpty then 2 else 1) with
      | (false, s2) => s2
      | (true, s2) =>
        let s3 := ((s2.setWay j.table b' w' (s2.way j.table b w)).wtCount j.table 5).modFront j.who (fun k => { k with path := rest })
        match rest, j.place with
        | [], some (pb, pw) => s3.placeNew j (s3.jobEntry j) pb pw
        | _, _ => s3

/-- DISPLACEMENT_MOVE: one move of the insert that displaces entries of a table; lookups are single steps of the model, so none
is under way. -/
def execDisplacementMove (table : BitVec 4) (s : State) : Res :=
  match s.wFronts.find? (fun j => j.table == table.toNat && !j.path.isEmpty) with
  | none => .next s
  | some j => .next ((s.displaceOne j).learnDeliver)

/-! ### The learn engine (R133 to R139) -/

/-- The learn tokens left under a value of WARREN_LEARN_CFG that has stood since the last count, in 1/1000 learn: learn_rate per microsecond,
up to learn_burst (R132, R135). -/
def State.learnTokensUnder (s : State) (cfg : Word32) : Nat :=
  min (fld cfg 24 12 * 1000) (s.warren.tokens + fld cfg 31 25 * (s.time.cycles - s.warren.tokensAt))
def State.learnTokens (s : State) : Nat := s.learnTokensUnder (s.reg warrenWin 0x104)

/-- WARREN_LEARN_CFG is written: the tokens of the time before are those of its old value. -/
def State.learnCfgWritten (s : State) (old : Word32) : State :=
  s.modWarren (fun w => { w with tokens := s.learnTokensUnder old, tokensAt := s.time.cycles })

/-- A learn or a move arrives (R133, R135): it joins one pending with its key and port, is suppressed for want of room or of
a token, or enters the pending store; the packet that waits is told an immediate verdict. -/
def State.warrenLearn (s : State) (move : Bool) (t : Nat) (key : List Byte) (port : Nat) (pid : Option Nat) : State :=
  let k := s.wtKey t key
  if s.warren.learns.any (fun j => j.table == t && j.key == k && j.port == port) then (s.wCount 1).tellVerdict pid 3
  else
    let tok := s.learnTokens
    if 1024 ≤ s.warren.learns.length ∨ s.rf warrenWin 0x104 31 25 = 0 ∨ tok < 1000 then
      ((s.wCount 6).setEvent warrenWin 0x10C 2).tellVerdict pid 4
    else
      let j : WarrenJob := { newJob 4 (if move then 17 else 16) t k with port := port, pid := pid }
      s.modWarren (fun w => { w with learns := w.learns ++ [j], tokens := tok - 1000, tokensAt := s.time.cycles })

/-- The learn engine serves the front of the pending store, if it is of the kind named. -/
def State.serveFront (s : State) (op : Nat) : State :=
  match s.wFront 4 with
  | none => s
  | some j => if j.op = op then (s.warrenAdvance 4).learnDeliver else s

/-- LEARN_SERVE: the learn engine serves one learn and gives it a verdict (R133). -/
def execLearnServe (s : State) : Res := .next (s.serveFront 16)

/-- MOVE_SERVE: the learn engine serves one move under the flap rules (R136). -/
def execMoveServe (s : State) : Res := .next (s.serveFront 17)

/-- LEARN_WAIT_EXPIRY: a stage that has waited learn_wait_ns waits no more: miss_action applies, and the learn is counted
(R138). -/
def execLearnWaitExpiry (p : Pid) (s : State) : Res :=
  match s.packet p with
  | some k => match k.learnWait with
    | some (deadline, 0) =>
      if deadline ≤ s.time.cycles then .next ((s.wCount 7).setPacket p { k with learnWait := some (deadline, 6) }) else .next s
    | _ => .next s
  | none => .next s

/-! ### Aging (R140 to R142) -/

/-- The age sweep of a table; one that has not begun begins now. -/
def State.sweep (s : State) (t : Nat) : WarrenSweep := (SMap.find s.warren.age t).getD { next := 0, base := s.now, began := s.now }
def State.setSweep (s : State) (t : Nat) (v : WarrenSweep) : State := s.modWarren (fun w => { w with age := SMap.put w.age t v })

/-- The age period of a table in ns, and the time at which a sweep's next visit is due: the visits of a lap are spread evenly. -/
def State.agePeriod (s : State) (t : Nat) : Nat := s.rf warrenWin (0x1008 + 0x100 * t) 31 16 * 1000000
def State.sweepDue (s : State) (t : Nat) (v : WarrenSweep) : Nat := v.base + v.next * s.agePeriod t / s.wtBuckets t

/-- The sweep of a table waits for no bucket any more; `stops`: nor has it anything under way. -/
def State.sweepFree (s : State) (t : Nat) (stops : Bool) : State :=
  let s1 := s.modWarren (fun w => { w with waitq := w.waitq.filter (fun q => q.1 != 5 || q.2.1 != t) })
  if stops then s1.modWarren (fun w => { w with age := SMap.erase w.age t }) else s1

/-- A bucket has been visited. DEDUCED (log 55): a visit that came late puts off those after it by as much, so that two visits of one bucket are
never less than a period apart (R140, R142). -/
def State.sweepOn (s : State) (t : Nat) (v : WarrenSweep) : State :=
  let base := v.base + (s.now - s.sweepDue t v)
  if v.next + 1 < s.wtBuckets t then s.setSweep t { v with next := v.next + 1, base := base, paid := false, todo := none }
  else s.setSweep t { next := 0, base := base + s.agePeriod t, began := base + s.agePeriod t }

/-- One way that the sweep read valid and not static, with the hit bit it then had (R140, R141): a hit is cleared; a way without one is
removed under ownership of its bucket, unless its hit bit has been set since. Each write draws a token. The flag says whether the way is
dealt with. -/
def State.ageWay (s : State) (t b w : Nat) (hit : Bool) : Bool × State :=
  let e := s.way t b w
  if !entFlag e 0 || entFlag e 1 then (true, s)
  else if hit then match s.draw 1 3 with
    | (false, s1) => (false, s1)
    | (true, s1) => (true, s1.setHit t b w false)
  else if s.wConflict 5 t [b] then
    (false, if s.warren.waitq.any (fun q => q.1 == 5 && q.2.1 == t) then s
            else s.modWarren (fun m => { m with waitq := m.waitq ++ [(5, t, [b])] }))
  else if entFlag e 2 then (true, (s.sweepFree t false).wCount 9)
  else match s.draw 1 3 with
    | (false, s1) => (false, s1)
    | (true, s1) => (true, (((s1.sweepFree t false).setWay t b w (entSetFlag e 0 false)).wCount 8).wtCount t 7)

/-- The ways left of a visit are dealt with in turn, as far as tokens and ownership go. -/
def State.ageWays (s : State) (t : Nat) (v : WarrenSweep) : List (Nat × Bool) → State
  | [] => s.sweepOn t v
  | (w, hit) :: rest => match s.ageWay t v.next w hit with
    | (true, s1) => s1.ageWays t v rest
    | (false, s1) => s1.setSweep t { v with todo := some ((w, hit) :: rest) }

/-- The ways of a bucket that the sweep deals with, and their hit bits. -/
def State.ageTodo (s : State) (t b : Nat) : List (Nat × Bool) :=
  ((List.range 4).filter (fun w => entFlag (s.way t b w) 0 && !entFlag (s.way t b w) 1)).map (fun w => (w, entFlag (s.way t b w) 2))

/-- A visit goes on: the bucket is brought into reach, its ways are read if they are not yet, and dealt with. -/
def State.visitOn (s : State) (t : Nat) (v : WarrenSweep) : State :=
  match s.wLoad t v.next (some (warrenWin, 1)) with
  | (.wait, s1) => s1.setSweep t v
  | (.bad _, s1) => s1.sweepOn t v
  | (.ok _, s1) => s1.ageWays t v (v.todo.getD (s1.ageTodo t v.next))

/-- AGE_SWEEP_VISIT: the sweep of a table visits its next bucket once the visit is due (R140), with a token for the bucket read
(R143); a lap of more than two periods is reported (R142). -/
def State.sweepVisit (s : State) (t : Nat) : State :=
  let v := s.sweep t
  if s.wtPlace t = 0 ∨ s.wtCfg t 15 15 = 0 ∨ !s.inService warrenWin then s.sweepFree t false
  else
    let overdue := !v.late && decide (v.began + 2 * s.agePeriod t < s.now)
    let v1 := { v with late := v.late || overdue }
    let s1 := (if overdue then s.setEvent warrenWin 0x10C 4 else s).setSweep t v1
    if v1.todo.isSome ∨ v1.paid then s1.visitOn t v1
    else if s.now < s.sweepDue t v then s1
    else match s1.draw 1 3 with
      | (false, s2) => s2
      | (true, s2) => s2.visitOn t { v1 with paid := true }
def execAgeSweepVisit (table : BitVec 4) (s : State) : Res := .next (s.sweepVisit table.toNat)

/-- BUCKET_OWNERSHIP_GRANT: the first waiting writer whose buckets are free is granted them, and goes on. -/
def execBucketOwnershipGrant (s : State) : Res :=
  match s.warren.waitq.find? (fun q => !s.wConflict q.1 q.2.1 q.2.2) with
  | none => .next s
  | some q => .next (if q.1 = 5 then s.sweepVisit q.2.1 else s.warrenAdvance q.1)

/-! ### Rounds and resets (R143 to R145) -/

/-- Work that waited for tokens goes on in a new round (ROUND_REFILL). -/
def State.warrenRetry (s : State) : State :=
  ((s.wFronts.map (·.who)).filter (fun k => decide (k < 5) && !s.warren.waitq.any (fun q => q.1 == k))).foldl
    (fun (s : State) k => if k < 4 then s.warrenAdvance k else (s.warrenAdvance 4).learnDeliver) s

/-- The work in front of a queue ends with ABORTED, before its write, if it is under way at engine e (R144). -/
def State.abortAt (s : State) (e who : Nat) : State :=
  match s.wFront who with
  | some j =>
    if j.engine = some e ∧ j.ended.isNone then
      ((s.dropPath j true).2.wEnd j (endCode 10)).modWarren (fun w => { w with waitq := w.waitq.filter (fun q => q.1 != who) })
    else s
  | none => s

/-- The commands of a thread behind its first one end with ABORTED if an engine e has accepted them. -/
def State.abortLater (s : State) (e who : Nat) : State :=
  s.setQueue who ((s.wQueue who).map (fun j => if j.engine = some e ∧ j.ended.isNone then { j with ended := some (endCode 10) } else j))

/-- RESET or a failure of engine e (R144): its own block's command ends with ABORTED, in its status, and what goes were waiting there are
gone; the commands of other blocks and of threads under way at e end with ABORTED. `reset`: the status is otherwise 0 again. The packets
waiting on it are dropped by the caller. -/
def State.warrenAbort (s : State) (e : Nat) (reset : Bool) : State :=
  let busy := !(s.wQueue e).isEmpty
  let s1 := match s.wFront e with
    | some j => (s.dropPath j true).2.modWarren (fun w => { w with waitq := w.waitq.filter (fun q => q.1 != e) })
    | none => s
  let s2 := s1.setQueue e []
  let s3 := (if busy then s2.setReg (warrenEngineWin e) 0x1A8 10 else if reset then s2.setReg (warrenEngineWin e) 0x1A8 0 else s2).showBusy e
  let s4 := ((List.range 4).filter (· != e)).foldl (fun (s : State) who => s.abortAt e who) s3
  (s4.warren.threads.map (fun q => 8 + q.1)).foldl (fun (s : State) who => (s.abortAt e who).abortLater e who) s4

/-- Work that was under way in a table begins anew. -/
def WarrenJob.anew (j : WarrenJob) : WarrenJob :=
  { j.giveUp with path := [], place := none, plan := [], found := none, paid := none, turn := false }

/-- RESET of the Warren group: the pending store is emptied and the cache discarded, ON_CHIP content lost (R145); the learn tokens are full
again (log 56). Learns that were pending leave their packets to learn_wait_ns. -/
def State.warrenReset (s : State) : State :=
  s.modWarren (fun w => { w with pin := [], lines := [], fills := [], learns := [], age := [], tokens := 1024000, tokensAt := s.time.cycles,
                                  waitq := w.waitq.filter (fun q => q.1 != 4 && q.1 != 5),
                                  blocks := w.blocks.map (fun e => (e.1, e.2.map WarrenJob.anew)),
                                  threads := w.threads.map (fun e => (e.1, e.2.map WarrenJob.anew)) })

end Sys2Proof.Machine
end

