-- ==== Sys2Proof/Machine/Posts.lean ====
section
/-! DEFINITION. What threads post: EMIT, DROP and FORK to Kettle (R159 to R162), Warren commands (R129 to R132, R547), and the head
timeouts of order domains (R166). -/

namespace Sys2Proof.Machine

/-! ### EMIT and DROP (R160) -/

/-- Whether words 1 to 7 of a post are zero. -/
def Thread.restZero (th : Thread) : Bool := (List.range 7).all (fun i => th.bankWord (i + 1) == 0)

/-- A join event is raised in the forking thread, if its task has not ended (R162). -/
def State.joinEvent (s : State) (x : Task) : State :=
  match x.join with
  | some (pt, ev, pk) => if (s.thread pt).task = some pk ∧ (s.task pk).isSome then s.modThread pt (fun th => th.setEv ev) else s
  | none => s

/-- An accepted EMIT or DROP ends the task: its locks are freed, its bank is zero, its thread goes on (R160, R296). -/
def State.endByPost (s : State) (t k : Nat) (x : Task) : State :=
  let s1 := ((s.endTask k).joinEvent x).depart (tidWord t)
  (s1.modThread t (fun th => { th.accepted.noTask with ops := th.ops.filter (fun o => o.kind ≠ .lock) })).cleanJoins

/-- A node ends as a drop of its position's report (R160): EMIT_INVALID also counts in KETTLE_CNT_11. -/
def State.nodeDrop (s : State) (x : Task) (diag : Nat) : State :=
  let s1 := if diag = 43 then s.count kettleWin 0x32C else s
  match s1.position x.pos with
  | some p => if p.dropped.isSome then s1 else s1.setPosition x.pos { p with nodeDrops := p.nodeDrops ++ [diag] }
  | none => s1

/-- A post of a task that Kettle may accept: op as given, every earlier write complete (R160). -/
def State.kettlePost (s : State) (t : Nat) (op : Nat → Bool) : Option (Thread × Nat × Task) :=
  match s.posting t 0, s.heldTask t with
  | some th, some (k, x) => if op (th.bankWord 0 % 16) && !th.ops.any LeafOp.writes then some (th, k, x) else none
  | _, _ => none

/-- Whether a task's position is no longer held: dropped or released. -/
def State.posEnded (s : State) (k : Nat) : Bool :=
  match s.position k with
  | some p => p.dropped.isSome || p.releasing
  | none => true

/-- A late EMIT is discarded (R167). -/
def State.lateEmit (s : State) (x : Task) : State :=
  ((s.count kettleWin 0x320).setEvent kettleWin 0x380 2).report x.tenant x.ts [(61, 1)]

/-- The check of an edit script so far (R355): the length of the frame as the operations have left it, the bytes inserted, the places that a TSTAMP touches, and whether there was a RECIRC. -/
structure ScriptCheck where
  len : Nat
  inserted : Nat
  stamp : Option (List (Nat × Nat))
  recirc : Bool

/-- Whether `n` bytes from `off` lie in a frame of `len` bytes and in its first 768 (R355). -/
def touches (len off n : Nat) : Bool := decide (off + n ≤ len) && decide (off + n ≤ 768)

/-- The bytes a TSTAMP touches in the final frame: its field, and its checksum field if it has one (R357, R548). -/
def stampPlaces (format off csum : Nat) : List (Nat × Nat) :=
  (off, if format = 1 then 10 else 8) :: (if csum = 0xFFFF then [] else [(csum, 2)])

/-- One operation of a script checked (R354, R355, R548): its fields, its data as a number, and the check so far. -/
def ScriptCheck.step (c : ScriptCheck) (op off len data : Nat) : Option ScriptCheck :=
  let keep (ok : Bool) (c : ScriptCheck) : Option ScriptCheck := if ok then some c else none
  match op with
  | 0 => keep (off == 0 && len == 0) c
  | 1 => keep (decide (1 ≤ len) && touches c.len off len) { c with len := c.len - len }
  | 2 => keep (decide (1 ≤ len) && decide (off ≤ c.len) && decide (off + len ≤ 768)) { c with len := c.len + len, inserted := c.inserted + len }
  | 3 => keep (decide (1 ≤ len) && touches c.len off len) c
  | 4 => keep (len == 0 && decide (data < 2 ^ 17) && touches c.len off 2) c
  | 5 => keep (len == 0 && touches c.len off 20) c
  | 6 => keep (decide (len ≤ 2) && decide (data < 2 ^ 16) && c.stamp.isNone) { c with stamp := some (stampPlaces len off data) }
  | 7 => keep (len == 0 && decide (14 ≤ off)) { c with len := min c.len off }
  | 8 => keep (len == 0 && decide (off < 128) && !c.recirc) { c with recirc := true }
  | _ => none

/-- The operations of a script from byte `pos` (R353, R354): at most `fuel` of them; an END, or the end of script_len, ends it.
A header word that script_len cuts is not an operation of the table. -/
def scriptRun (script : List Byte) : Nat → Nat → ScriptCheck → Option ScriptCheck
  | 0, pos, c => if script.length ≤ pos then some c else none
  | fuel + 1, pos, c =>
    if script.length ≤ pos then some c
    else
      let w := leNat (bytesAt script pos 4)
      let op := bitsOf w 3 0
      let len := bitsOf w 24 16
      let n := dataLen op len
      if script.length < pos + 4 + n ∨ 2 ^ 25 ≤ w then none
      else match c.step op (bitsOf w 15 4) len (leNat (bytesAt script (pos + 4) n)) with
        | none => none
        | some c' => if op = 0 then some c' else scriptRun script fuel (pos + 4 + dataWords op len) c'

/-- Kettle's check of a script at EMIT for a frame of `len` bytes (R355): the edited length without FCS (R356), none if the EMIT is
invalid. -/
def editedLength (script : List Byte) (len : Nat) : Option Nat :=
  match scriptRun script 16 0 ⟨len, 0, none, false⟩ with
  | none => none
  | some c =>
    let stamped := match c.stamp with
      | some l => l.all (fun e => touches c.len e.1 e.2)
      | none => true
    if 256 < c.inserted ∨ c.len < 14 ∨ !stamped then none else some c.len

/-- The output of a node, with its edited length (R160, R356). -/
def State.nodeOutput (s : State) (x : Task) (queue : Nat) (script : List Byte) (len : Nat) : State :=
  match s.position x.pos, s.packet x.pid with
  | some p, some pk =>
    let d : OutDesc := { pid := x.pid, tenant := x.tenant, queue := queue, mirrorTrunc := none, script := script, md := pk.md, exc := false, len := len, ts := pk.ts }
    s.setPosition x.pos { p with outs := p.outs ++ [(x.node, d)] }
  | _, _ => s

/-- What an EMIT does before its task ends. -/
def State.emitBody (s : State) (t : Nat) (th : Thread) (x : Task) : State :=
  let w := th.bankWord 0
  let md := match s.packet x.pid with
    | some p => p.md
    | none => 0
  let hint := w.testBit 4
  let off := 8 * bitsOf w 28 22
  let len := bitsOf w 39 29
  if s.posEnded x.pos then s.lateEmit x
  else if w / 2 ^ 40 ≠ 0 ∨ !th.restZero ∨ 1024 < off + len ∨ (hint ∧ mdBits md 89 89 = 0) then s.nodeDrop x 43
  else
    let r := s.localRead t (0x400 + off) len
    if r.1 then r.2.2.dropPos x.pos 59
    else match editedLength r.2.1 x.frameLen with
      | none => r.2.2.nodeDrop x 43
      | some n => r.2.2.nodeOutput x (if hint then mdBits md 88 72 else bitsOf w 21 5) r.2.1 n

/-- EMIT: R160. -/
def execKettleEmit (t : Tid) (s : State) : Res :=
  match s.kettlePost t.val (fun op => op == 0) with
  | some (th, k, x) => .next ((s.emitBody t.val th x).endByPost t.val k x)
  | none => .next s

/-- A post with a reserved op completes, as a BAD_FIELD, and has no other effect (R159). -/
def State.reservedPost (s : State) (t : Nat) : State :=
  match s.posting t 0 with
  | some th => if 3 ≤ th.bankWord 0 % 16 then s.setThread t th.accepted else s
  | none => s

/-- DROP, and a post with a reserved op: R159, R160. -/
def execKettleDrop (t : Tid) (s : State) : Res :=
  match s.kettlePost t.val (fun op => op == 1) with
  | some (th, k, x) =>
    let bad := th.bankWord 0 / 2 ^ 12 ≠ 0 ∨ !th.restZero
    .next (((if s.posEnded x.pos then s else s.nodeDrop x (if bad then 43 else 42))).endByPost t.val k x)
  | none => .next (s.reservedPost t.val)

/-! ### FORK (R161, R162) -/

/-- Whether a FORK's words have a BAD_FIELD (R159). -/
def Thread.forkBad (th : Thread) : Bool :=
  let w := th.bankWord 0
  decide (w / 2 ^ 32 ≠ 0) || [5, 6, 7].any (fun i => th.bankWord i != 0) || decide (30 ≤ bitsOf w 26 22)

/-- The result of a FORK (R161): the first case that applies. -/
def State.forkResult (s : State) (th : Thread) (x : Task) : Nat :=
  if th.forkBad then 4
  else if s.posEnded x.pos then 5
  else if 8 ≤ x.forks then 1
  else if 16 ≤ ((s.position x.pos).map (·.nextNode)).getD 16 then 2
  else if 32768 ≤ s.kettle.tasks.length then 3
  else 0

/-- A child is created (R151, R161): it takes a reference to the packet's cells and is dispatched. -/
def State.createChild (s : State) (t : Nat) (th : Thread) (k : Nat) (x : Task) (hdr : List Byte) : State :=
  match s.position x.pos with
  | none => s
  | some p =>
    let w := th.bankWord 0
    let n := s.kettle.nextTask
    let join := if w.testBit 16 then some (t, bitsOf w 21 17, k) else none
    let child : Task := { x with
      node := p.nextNode, parent := x.node, child := true, entry := bitsOf w 15 4, budget := s.budgetOfClass (s.kettleClass x.tenant), args := (List.range 4).map (fun i => BitVec.ofNat 64 (th.bankWord (i + 1))), hdr := hdr, forks := 0, join := join, leaf := none, taken := none, slots := 0, quotaWait := false }
    let s1 := (s.modKettle (fun y => { y with nextTask := n + 1 })).setTask k { x with forks := x.forks + 1 }
    let s2 := (s1.setPosition x.pos { p with nextNode := p.nextNode + 1, live := p.live ++ [p.nextNode] }).takeRef x.pid
    let s3 := if join.isSome then s2.modThread t (fun th => { th with joins := th.joins ++ [n] }) else s2
    ((s3.setTask n child).count kettleWin 0x304).dispatch n

/-- FORK: R161. The status stands until FORK_STATUS writes it. -/
def execKettleFork (t : Tid) (s : State) : Res :=
  match s.posting t.val 0, s.heldTask t.val with
  | some th, some (k, x) =>
    if th.bankWord 0 % 16 ≠ 2 ∨ 16 ≤ th.outstanding then .next s
    else
      let h := s.localRead t.val 0x200 512
      let s1 := if h.1 then h.2.2.dropPos x.pos 59 else h.2.2
      let r := s1.forkResult th x
      let node := ((s1.position x.pos).map (·.nextNode)).getD 0
      let s2 := if r = 0 then s1.createChild t.val th k x h.2.1 else s1.count kettleWin 0x324
      let w := th.bankWord 0
      let status := r + (if r = 0 then 2 ^ 8 * node else 0)
      let o : LeafOp := ⟨0, th.issued - 1, .fork, 5, bitsOf w 26 22, some (bitsOf w 31 27), 0, 0, 0, 0, leBytes 8 status, none, 0⟩
      .next (s2.modThread t.val (fun th => { th.accepted with ops := th.ops ++ [o] }))
  | _, _ => .next s

/-- FORK_STATUS: the oldest status of a thread's FORKs is written, then its event is raised. -/
def execForkStatus (t : Tid) (s : State) : Res :=
  match (s.thread t.val).ops.find? (fun o => o.kind == .fork) with
  | some o => .next (s.endOp t.val o [(o.dst, BitVec.ofNat 64 (leNat o.data))])
  | none => .next s

/-! ### Warren commands of threads (R129 to R132, R547) -/

/-- Whether a Warren post has a BAD_FIELD (R129). -/
def Thread.warrenBad (th : Thread) : Bool :=
  let w := th.bankWord 0
  !([0, 1, 2, 3, 6].contains (w % 16)) || decide (30 ≤ bitsOf w 14 10) || w.testBit 15 || decide (w / 2 ^ 21 ≠ 0)

/-- What R547 answers a post: an end at once with a result, DOMAIN, or none: the command is performed. -/
inductive WarrenCheck where
  | ends (code : Nat)
  | domain
  | run
  deriving DecidableEq, Repr

/-- R547. -/
def State.warrenCheck (s : State) (th : Thread) : WarrenCheck :=
  let w := th.bankWord 0
  let t := bitsOf w 7 4
  let mode := s.wtCfg t 14 13
  if th.warrenBad then .ends 9
  else if mode = 0 ∨ (mode = 1 ∧ w % 16 ≠ 0) then .domain
  else if s.wtPlace t = 0 then .ends 7
  else if 40 < s.wtKeyLen t then .ends 11
  else .run

/-- The job of a post (R129, R131): key bytes 0 and 1 are the tenant. -/
def warrenJobOf (t : Nat) (th : Thread) (x : Task) (engine : Option Nat) (ended : Option WarrenEnd) : WarrenJob :=
  let w := th.bankWord 0
  let words (a n : Nat) : List Byte := (List.range n).flatMap (fun i => leBytes 8 (th.bankWord (a + i)))
  let op := w % 16
  { who := 8 + t, op := op, table := bitsOf w 7 4, index := 0, key := leBytes 2 x.tenant ++ (words 1 5).drop 2,
    data := BitVec.ofNat 128 (if op = 6 then th.bankWord 7 * 2 ^ 64 else leNat (words 6 2)), cmp := BitVec.ofNat 64 (th.bankWord 6),
    static := w.testBit 8, peek := w.testBit 9, valid := true, engine := engine, owns := [], drawn := 0, path := [], place := none,
    ended := ended, dst := bitsOf w 14 10, event := bitsOf w 20 16, tenant := x.tenant, ts := x.ts, port := 0, pid := none }

/-- WARREN_THREAD_POST: the engine under R144 accepts and checks a post; none accepts while no engine is IN_SERVICE. -/
def execWarrenThreadPost (t : Tid) (s : State) : Res :=
  match s.posting t.val 1, s.heldTask t.val, s.engineFor (8 + t.val) with
  | some th, some (_, x), some e =>
    if 16 ≤ th.outstanding then .next s
    else match s.warrenCheck th with
      | .domain => .next (s.stopThread t.val fDOMAIN false (s.fetch t.val th.pc) 0)
      | c =>
        let ended := match c with
          | .ends code => some (endCode code)
          | _ => none
        let j := warrenJobOf t.val th x (some e) ended
        let o : LeafOp := ⟨0, th.issued - 1, .warren, 5, j.dst, some j.event, 0, 0, 0, s.fetch t.val th.pc, [], none, 0⟩
        let s1 := s.setQueue (8 + t.val) (s.wQueue (8 + t.val) ++ [j])
        .next (s1.modThread t.val (fun th => { th.accepted with ops := th.ops ++ [o] }))
  | _, _, _ => .next s

/-- WARREN_THREAD_COMPLETE: the oldest command of a thread, once ended, writes its registers and raises its event (R130, R132); a
command of a thread since reset only counts (R210). -/
def execWarrenThreadComplete (t : Tid) (s : State) : Res :=
  let who := 8 + t.val
  let s1 := s.warrenAdvance who
  match s1.wFront who with
  | none => .next s1
  | some j => match j.ended with
    | none => .next s1
    | some x =>
      let s2 := (s1.setQueue who ((s1.wQueue who).drop 1)).report j.tenant j.ts [(6, 1)]
      match (s2.thread t.val).ops.find? (fun o => o.kind == .warren) with
      | some o =>
        if j.pid.isSome then .next s2
        else if x.code = 8 then .next (s2.deliverOp t.val o true [])
        else
          let status := BitVec.ofNat 64 (x.code + x.flags + x.index * 2 ^ 32)
          let act := if j.op = 0 ∧ x.code = 0 ∧ j.dst ≠ 0 then [(j.dst + 1, x.action.setWidth 64), (j.dst + 2, (x.action >>> 64).setWidth 64)] else []
          .next (s2.endOp t.val o ((j.dst, status) :: act))
      | none => .next s2

/-! ### Head positions (R166) -/

/-- The latest moment from which an unended node of a position has been on a debug-halted thread, none if no node is. -/
def State.heldByDebug (s : State) (k : Nat) : Option Nat :=
  (s.kettle.tasks.filter (fun e => e.2.pos == k)).foldl (fun (acc : Option Nat) e =>
    match e.2.taken with
    | some t => match (s.thread t).haltedSince with
      | some h => some (match acc with
        | some a => min a h
        | none => h)
      | none => acc
    | none => acc) none

/-- HEAD_TIMEOUT: R166. -/
def execHeadTimeout (od : BitVec 16) (s : State) : Res :=
  match s.headOf od.toNat with
  | some (k, p) =>
    let since := p.headSince.getD s.time.cycles
    if !p.complete ∧ (s.heldByDebug k).isNone ∧ since + 1000000 * s.rf kettleWin 0x100 31 16 < s.time.cycles then .next (s.dropPos k 48)
    else .next s
  | none => .next s

/-- DEBUG_HELD: the time runs from the later of the position becoming head and the halt (R166). -/
def execDebugHeld (od : BitVec 16) (s : State) : Res :=
  match s.headOf od.toNat with
  | some (k, p) => match s.heldByDebug k with
    | some h =>
      let since := max (p.headSince.getD s.time.cycles) h
      if !p.complete ∧ since + 1000 * s.rf kettleWin 0x100 15 0 < s.time.cycles then .next (s.dropPos k 47) else .next s
    | none => .next s
  | none => .next s

end Sys2Proof.Machine
end

