-- ==== Sys2Proof/Machine/Tooling.lean ====
section
/-! DEFINITION. Tooling: the microcode of custom instructions (R274 to R281) and the functions that its ROM defaults give (R282). -/

namespace Sys2Proof.Machine

/-! ### Values of 64 bits -/

/-- Bits of x deposited into, and gathered from, the mask m. -/
def pdepV (x m : Word64) : Word64 :=
  let ones := (List.range 64).filter (fun i => m.getLsbD i)
  BitVec.ofNat 64 (sumOf ones.zipIdx (fun e => bit (x.getLsbD e.2) * 2 ^ e.1))
def pextV (x m : Word64) : Word64 :=
  let ones := (List.range 64).filter (fun i => m.getLsbD i)
  BitVec.ofNat 64 (sumOf ones.zipIdx (fun e => bit (x.getLsbD e.1) * 2 ^ e.2))

/-- The carry-less product. -/
def clmulV (a b : Word64) : Nat := clmulNat 64 a.toNat b.toNat

/-- A number brought into the range of a saturating sum. -/
def clamp (lo hi x : Int) : Int := if x < lo then lo else if hi < x then hi else x

/-- The saturating sums and differences of fn 0x008 to 0x00F: width n, signed or not, subtracting or not. -/
def satV (n : Nat) (signed sub : Bool) (a b : Word64) : Word64 :=
  let rd (x : Word64) : Int := if signed then (lowBits n x).toInt else ((lowBits n x).toNat : Int)
  let r := if sub then rd a - rd b else rd a + rd b
  let lo : Int := if signed then -(2 ^ (n - 1)) else 0
  let hi : Int := if signed then 2 ^ (n - 1) - 1 else 2 ^ n - 1
  (BitVec.ofInt n (clamp lo hi r)).signExtend 64

/-- The eight bytes of a value, lowest first, and a value of bytes. -/
def bytes64 (x : Word64) : List Byte := leBytes 8 x.toNat
def of64 (b : List Byte) : Word64 := BitVec.ofNat 64 (leNat b)

/-- The function f made of the bytes of two values. -/
def bytewise (f : Byte → Byte → Byte) (a b : Word64) : Word64 := of64 (List.zipWith f (bytes64 a) (bytes64 b))

/-- FNV-1a of bytes. -/
def fnv1a (seed : Nat) (data : List Byte) : Nat := data.foldl (fun h b => (h ^^^ b.toNat) * 0x100000001B3 % 2 ^ 64) seed

/-- An RFC 1624 update of a checksum for words changed. -/
def csumUpdate (hc : Nat) (pairs : List (Nat × Nat)) : Nat :=
  let s := pairs.foldl (fun acc p => acc + (0xFFFF - p.1) + p.2) (0xFFFF - hc % 65536)
  0xFFFF - onesFold 8 s

/-- The prefix length of a contiguous mask; 0xFF otherwise. -/
def maskLen (x : Word64) : Nat :=
  let n := ((List.range 64).takeWhile (fun i => x.getLsbD (63 - i))).length
  if x.toNat = 2 ^ 64 - 2 ^ (64 - n) then n else 0xFF

/-- The modified EUI-64 identifier of a MAC address. -/
def eui64V (x : Word64) : Word64 :=
  let mac := x.toNat % 2 ^ 48
  BitVec.ofNat 64 ((mac / 2 ^ 24 * 2 ^ 40 + 0xFFFE * 2 ^ 24 + mac % 2 ^ 24) ^^^ 0x0200000000000000)

/-! ### The device-defined functions (R282) -/

/-- The functions of registers alone: fn 0x000 to 0x01F, 0x028, 0x029 and 0x02B to 0x02F. -/
def regFn (fn : Nat) (gd gs gt : Word64) : Word64 :=
  if fn < 8 then BitVec.ofNat 64 (fnv1a (if gt = 0 then 0xCBF29CE484222325 else gt.toNat) ((bytes64 gs).take (fn + 1)))
  else if fn < 0x10 then satV (if fn < 0xC then 64 else 32) (fn % 4 < 2) (fn % 2 == 1) gs gt
  else
    let b := bytes64 gs
    let c : Byte := gt.setWidth 8
    match fn with
    | 0x10 => BitVec.ofNat 64 (b.findIdx (· == c))
    | 0x11 => BitVec.ofNat 64 (b.findIdx (· != c))
    | 0x12 => BitVec.ofNat 64 (b.countP (· == c))
    | 0x13 => bytewise (fun x y => if x ≤ y then x else y) gs gt
    | 0x14 => bytewise (fun x y => if x ≤ y then y else x) gs gt
    | 0x15 => bytewise (· + ·) gs gt
    | 0x16 => bytewise (· - ·) gs gt
    | 0x17 => BitVec.ofNat 64 ((List.zipWith (fun (x y : Byte) => (((x.toNat : Int) - (y.toNat : Int))).natAbs) b (bytes64 gt)).foldl (· + ·) 0)
    | 0x18 => pdepV gs gt
    | 0x19 => pextV gs gt
    | 0x1A => BitVec.ofNat 64 (sumOf (List.range 64) (fun i => bit (gs.getLsbD i) * 2 ^ (63 - i)))
    | 0x1B => BitVec.ofNat 64 (clmulV gs gt)
    | 0x1C => BitVec.ofNat 64 (clmulV gs gt / 2 ^ 64)
    | 0x1D => popcV (gs &&& gt)
    | 0x1E => (gs &&& gd) ||| (gt &&& ~~~gd)
    | 0x1F => BitVec.ofNat 64 ((popcV gs).toNat % 2)
    | 0x28 => BitVec.ofNat 64 (csumUpdate gd.toNat [(gs.toNat % 65536, gt.toNat % 65536)])
    | 0x29 => BitVec.ofNat 64 (csumUpdate gd.toNat
        [(gs.toNat / 65536 % 65536, gt.toNat / 65536 % 65536), (gs.toNat % 65536, gt.toNat % 65536)])
    | 0x2B => BitVec.ofNat 64 (gs.toNat % 65536 ^^^ gs.toNat / 65536 % 65536 ^^^ gs.toNat / 2 ^ 32 % 65536)
    | 0x2C => clzV (gs ^^^ gt)
    | 0x2D => BitVec.ofNat 64 (maskLen gs)
    | 0x2E => eui64V gs
    | _ => if gt ≤ gs then gs - gt else 0

/-- The slots of a function (R282). -/
def fnSlots (fn n : Nat) : Nat :=
  if fn < 8 then (fn + 2) / 2 + 1
  else if fn = 0x23 ∨ fn = 0x24 then 2 + (n + 15) / 16
  else if fn = 0x2A then 3
  else if 0x20 ≤ fn ∧ fn < 0x28 then 2 + (n + 31) / 32
  else 1

/-- Whether a function works on local memory, and what it stores: where, and the bytes. -/
def fnLocal (fn : Nat) : Bool := decide (0x20 ≤ fn) && (decide (fn < 0x28) || fn == 0x2A)
def fnStores (fn : Nat) (gd gs : Word64) (n : Nat) (data : List Byte) : Option (Nat × List Byte) :=
  match fn with
  | 0x22 => some (gs.toNat, List.replicate n (gd.setWidth 8))
  | 0x23 => some (gd.toNat, data)
  | 0x26 => some (gs.toNat, (List.range n).map (fun i => if i / 2 * 2 + 2 ≤ n then byteAt data (i / 2 * 2 + 1 - i % 2) else byteAt data i))
  | 0x27 => some (gs.toNat, (List.range n).map (fun i => if i / 4 * 4 + 4 ≤ n then byteAt data (i / 4 * 4 + 3 - i % 4) else byteAt data i))
  | _ => none

/-- What gd receives from a function of local memory: the bytes at gs, those at gd, and a free value for a header length that R282
does not name. An odd header's last byte is padded with zero, as LCSUM's is (DEDUCED, log 68). -/
def localFn (fn : Nat) (gd gs : Word64) (n : Nat) (a b : List Byte) (free : Nat) : Word64 :=
  match fn with
  | 0x20 => BitVec.ofNat 64 (onesFold 8 (onesSum (gd.toNat % 65536) a))
  | 0x21 => BitVec.ofNat 64 (crcReflected 0x82F63B78 (gd.toNat % 2 ^ 32) a)
  | 0x22 => gs + BitVec.ofNat 64 n
  | 0x23 => gd + BitVec.ofNat 64 n
  | 0x24 =>
    let i := (List.zipWith (fun (x y : Byte) => x != y) a b).findIdx id
    if n ≤ i then 0 else BitVec.ofNat 64 (i + 1)
  | 0x25 => BitVec.ofNat 64 (min n (a.findIdx (· == gd.setWidth 8)))
  | 0x2A =>
    if 20 ≤ n ∧ n ≤ 60 then BitVec.ofNat 64 (0xFFFF - onesFold 8 (onesSum 0 (patchBytes a 10 [0, 0]))) else BitVec.ofNat 64 free
  | _ => gs + BitVec.ofNat 64 n

/-- How many bytes of a local range lie in local memory, for a read or a store. -/
def inLocal (a n : Nat) (store : Bool) : Nat := if store && decide (a < 0x200) then 0 else min n (0x1800 - a)

/-- A task's slots allow `n` more after the one that has begun; otherwise how many of them are used before BUDGET (R281). -/
def State.budgetLeft (s : State) (t n : Nat) : Option Nat :=
  match s.heldTask t with
  | some (_, x) => if x.budget < x.slots + n then some (x.budget - x.slots) else none
  | none => none

/-- A routine has completed: its gd, one instruction after it (R224), and TOOLING_CNT_0. -/
def State.toolDone (s : State) (t gd : Nat) (v : Option Word64) : LeafAct :=
  let s1 := s.count (quireWin (tidQuire t)) 0x2380
  .next (s1.modThread t (fun th =>
    let th := { th with micro := false, mpc := if th.handler then th.mpc else none, routine0 := if th.handler then th.routine0 else none,
                        routine1 := if th.handler then none else th.routine1 }
    match v with
    | some x => th.result gd 1 x
    | none => th))

/-- The thread's active bank of routine state, and it replaced. -/
def Thread.routine (th : Thread) : Option Routine := if th.handler then th.routine1 else th.routine0
def Thread.setRoutine (th : Thread) (r : Option Routine) : Thread := if th.handler then { th with routine1 := r } else { th with routine0 := r }

/-- A routine stopped at a stitch for an entry or a halt (R280). -/
def State.stitchInterrupt (s : State) (t : Nat) (r : Routine) : LeafAct :=
  .hold ((s.count (quireWin (tidQuire t)) 0x2384).modThread t (fun th =>
    let th := { th.setRoutine (some r) with micro := false }
    if th.handler then th else { th with mpc := some r.upc }))

/-- The bytes that a device-defined function has still to store are stored, all or `n` of them. -/
def State.romStore (s : State) (t : Nat) (r : Routine) (n : Nat) : State :=
  match r.stores with
  | (_, a, data) :: _ => s.localWrite t a (data.take n)
  | [] => s

/-- What a function has still to store after `n` bytes of it. -/
def Routine.stored (r : Routine) (n : Nat) : Routine := { r with stores := r.stores.map (fun e => (e.1, e.2.1 + n, e.2.2.drop n)) }

/-- How many bytes a function has still to store. -/
def Routine.owes (r : Routine) : Nat := sumOf r.stores (fun e => e.2.2.length)

/-- A function that faults after some of its stores, at most `most`: how many is open, since it follows from the ROM's stitches (log 61). -/
def State.toolPartial (s : State) (t : Nat) (r : Routine) (most kind detail : Nat) : LeafAct :=
  .fault (((s.romStore t r (s.freeBits % (most + 1))).stepFresh).modThread t (fun th => th.setRoutine none)) kind detail

/-- After how many of its slots a function stops at a stitch, while an entry or a halt is pending (R280): where the ROM's stitches lie is
open, but at most 64 microcycles, 16 slots, lie between two of them (R281); a function of one slot has none but its END (log 61). -/
def State.romStop (s : State) (pending : Bool) (slots : Nat) : Option Nat :=
  let k := 1 + s.freeBits % 16
  if !pending || decide (slots ≤ 1) || (decide (slots ≤ 16) && s.freeBits.testBit 16) then none else if k ≤ slots then some k else none

/-- A device-defined function runs for the slots it has left (R274, R282): to its end, to a stitch at which it is interrupted, after which
what it has not stored waits with it, or to BUDGET. RES holds what gd receives. One that leaves local memory ends with DOMAIN after
some of its slots and stores (log 61). -/
def State.romRun (s : State) (t gd : Nat) (task : Option Nat) (pending : Bool) (r : Routine) (left : Nat) : LeafAct :=
  let slots := if r.fails.isSome then 1 + s.freeBits / 2 ^ 96 % left else left
  let stop := s.romStop pending slots
  let run := stop.getD slots
  match s.budgetLeft t run with
  | some u => (s.charge task u).toolPartial t r r.owes fBUDGET (((s.heldTask t).map (·.2.budget)).getD 0)
  | none => match stop with
    | some k =>
      let n := s.freeBits / 2 ^ 32 % (r.owes + 1)
      let r1 := { r.stored n with upc := s.freeBits / 2 ^ 64 % 0x4000, left := some (max 1 (left - k)) }
      ((s.romStore t r n).stepFresh.charge task (k - 1)).stitchInterrupt t r1
    | none => match r.fails with
      | some detail => (s.charge task (slots - 1)).toolPartial t r r.owes fDOMAIN detail
      | none => ((s.romStore t r r.owes).charge task (slots - 1)).toolDone t gd (some r.res)

/-- A device-defined function as its instruction issues, with what its thread has latched (R274): what it reads of local memory is as its
first slot finds it (log 61). -/
def State.romFn (s : State) (t : Nat) (th : Thread) (pending : Bool) (fn gd gs gt : Nat) : LeafAct :=
  let d := th.g gd
  let a := (th.g gs).toNat
  let b := th.g gt
  let n := b.toNat
  let slots := fnSlots fn n
  let routine (res : Word64) (st : Option (Nat × List Byte)) : Routine :=
    { t := List.replicate 8 0, ops := th.g gs, opt := b, opd := d, res := res, imm := 0, link := 0, upc := Config.romRoutine fn % 65536, owner := false,
      ran := 0, paid := 0, stores := (st.map (fun e => (false, e.1, e.2))).toList, left := none }
  if !fnLocal fn then s.romRun t gd th.task pending (routine (regFn fn d (th.g gs) b) none) slots
  else if 2048 < n then .fault s fDOMAIN a
  else
    let reads := fn != 0x22
    let ra := if reads then inLocal a n false else n
    let rb := if fn = 0x24 then inLocal d.toNat n false else n
    let x := if reads then s.localRead t a ra else (false, [], s)
    let y := if fn = 0x24 then x.2.2.localRead t d.toNat rb else (false, [], x.2.2)
    let st := fnStores fn d (th.g gs) n (fitBytes x.2.1 n)
    let sa := match st with
      | some (w, _) => inLocal w n true
      | none => n
    let most := min ra (min rb sa)
    let s1 := y.2.2
    let r := routine (localFn fn d (th.g gs) n x.2.1 y.2.1 s1.freeBits) st
    if x.1 || y.1 then .fault s1 fDATA a
    else
      let out := (if ra < n then a + ra else if rb < n then d.toNat + rb else ((st.map (·.1)).getD 0) + sa) % 2 ^ 64
      let some1 := { r with stores := r.stores.map (fun e => (e.1, e.2.1, e.2.2.take most)), fails := some out }
      s1.stepFresh.romRun t gd th.task pending (if n ≤ most then r else some1) slots

/-! ### Microwords (R276, R278) -/

/-- The match register that a ROM fetch address meets first. -/
def State.microMatch (s : State) (q a : Nat) : Option Nat :=
  ((List.range 32).find? (fun m => s.rf (quireWin q) (0x2300 + 4 * m) 31 31 == 1 && s.rf (quireWin q) (0x2300 + 4 * m) 29 16 == a)).map
    (fun m => s.rf (quireWin q) (0x2300 + 4 * m) 8 0)

/-- A microword: none at a reserved address. -/
def State.microFetch (s : State) (q a : Nat) : Option Word32 :=
  let zero (_ : Nat) : Word32 := 0
  if a < 0x4000 then match s.microMatch q a with
    | some x => some (SMap.get zero (s.quire q).patch (0x4000 + x))
    | none => some (Config.romWord a)
  else if a < 0x4200 then some (SMap.get zero (s.quire q).patch a)
  else if 0x8000 ≤ a ∧ a < 0x8800 then some (SMap.get zero (s.quire q).owner a)
  else none

/-- An operand; none for a reserved selector. -/
def State.microSel (s : State) (r : Routine) (k : Nat) : Option Word64 :=
  if k < 8 then some (r.t.getD k 0)
  else match k with
    | 8 => some r.ops
    | 9 => some r.opt
    | 10 => some r.opd
    | 11 => some r.res
    | 12 => some 0
    | 13 => some r.imm
    | 14 => some s.time.ns
    | 15 => some r.link
    | _ => none

/-- A destination written; none for a read-only or reserved one. -/
def Routine.put (r : Routine) (k : Nat) (v : Word64) : Option Routine :=
  if k < 8 then some { r with t := r.t.set k v }
  else match k with
    | 11 => some { r with res := v }
    | 13 => some { r with imm := v }
    | 15 => some { r with link := v }
    | _ => none

/-- The ALU operations (R278); none for a reserved one. -/
def microAlu (op : Nat) (a b : Word64) : Option Word64 :=
  match op with
  | 0 => some (a + b)
  | 1 => some (a - b)
  | 2 => some (a &&& b)
  | 3 => some (a ||| b)
  | 4 => some (a ^^^ b)
  | 5 => some (a &&& ~~~b)
  | 6 => some (sllV 64 a b)
  | 7 => some (srlV 64 a b)
  | 8 => some (sraV 64 a b)
  | 9 => some (rolV 64 a b)
  | 10 => some (a * b)
  | 11 => some (mulhuV a b)
  | 12 => some (BitVec.ofNat 64 (clmulV a b))
  | 13 => some (BitVec.ofNat 64 (clmulV a b / 2 ^ 64))
  | 14 => some (boolV (a == b))
  | 15 => some (boolV (BitVec.ult a b))
  | 16 => some (boolV (BitVec.slt a b))
  | 17 => some (if BitVec.ult a b then a else b)
  | 18 => some (if BitVec.ult a b then b else a)
  | 19 => some (revV 8 a)
  | 20 => some (popcV a)
  | 21 => some (clzV a)
  | 22 => some (pdepV a b)
  | 23 => some (pextV a b)
  | _ => none

/-- The inverse of the AES S-box. -/
def aesInvSub (b : Byte) : Byte := BitVec.ofNat 8 ((List.range 256).findIdx (fun x => aesSub (BitVec.ofNat 8 x) == b))

/-- What a microword does: the routine goes on, with whether a stitch follows; it ends, with whether it writes RES to gd; or it
faults. -/
inductive MicroAct where
  | go (s : State) (r : Routine) (stitch : Bool)
  | done (s : State) (r : Routine) (wr : Bool)
  | fault (s : State) (kind detail : Nat)

/-- A Quire shared memory access of a routine as an operation. -/
def microOp (kind : OpKind) (a n : Nat) (data : List Byte) : LeafOp := ⟨0, 0, kind, 0, 0, none, a, n, 0, 0, data, none, 0⟩

/-- Held stores seen by a load of the segment (R279). -/
def Routine.overlay (r : Routine) (shared : Bool) (a : Nat) (data : List Byte) : List Byte :=
  r.stores.foldl (fun data e =>
    if e.1 = shared then
      data.zipIdx.map (fun b => if e.2.1 ≤ a + b.2 ∧ a + b.2 < e.2.1 + e.2.2.length then byteAt e.2.2 (a + b.2 - e.2.1) else b.1)
    else data) data

/-- A routine that accesses Quire shared memory waits until the access completes: up to 20 LEAF cycles, 10 microcycles, in which the access's own
is one (R241, R278). How many is open. -/
def State.sharedWait (s : State) (shared : Bool) (r : Routine) : Routine := if shared then { r with ran := r.ran + s.freeBits % 10 } else r

/-- Whether a MEM microword is one that R278 and R279 define: its space, its selectors, and no ninth store of its segment. -/
def State.memDefined (s : State) (r : Routine) (w : Nat) : Bool :=
  decide (bitsOf w 26 25 ≤ 1) && (s.microSel r (bitsOf w 16 12)).isSome
    && (if w.testBit 24 then (s.microSel r (bitsOf w 21 17)).isSome && decide (r.stores.length < 8) else (r.put (bitsOf w 21 17) 0).isSome)

/-- A MEM microword (R278): UNDEF comes before DOMAIN (R196). -/
def State.microMem (s : State) (t : Nat) (r : Routine) (w : Nat) (stitch : Bool) : MicroAct :=
  let shared := bitsOf w 26 25 == 1
  let store := w.testBit 24
  let n := 2 ^ bitsOf w 23 22
  let a := effAddr ((s.microSel r (bitsOf w 16 12)).getD 0) (sextNat 12 (bitsOf w 11 0))
  let ok := if shared then s.accessOk t 0 a n (!store) store else if store then localStoreOk a n else localOk a n
  let s1 := if shared then s.stepFresh else s
  if !s.memDefined r w then .fault s fUNDEF 0
  else if a % n ≠ 0 ∨ !ok then .fault s fDOMAIN a
  else if store then
    let v := ((s.microSel r (bitsOf w 21 17)).getD 0).toNat
    .go s1 (s.sharedWait shared { r with stores := r.stores ++ [(shared, a, leBytes n v)] }) stitch
  else
    let x := if shared then s1.performShared State.pageWrite t (microOp .load a n []) else s1.localRead t a n
    if x.1 then .fault x.2.2 fDATA a
    else .go x.2.2 (s.sharedWait shared ((r.put (bitsOf w 21 17) (of64 (r.overlay shared a x.2.1))).getD r)) stitch

/-- One microcycle (R278). -/
def State.microStep (s : State) (t : Nat) (r0 : Routine) : MicroAct :=
  match s.microFetch (tidQuire t) r0.upc with
  | none => .fault s fUNDEF 0
  | some word =>
    let w := word.toNat
    let stitch := w.testBit 27
    let r := { r0 with upc := (r0.upc + 1) % 65536, ran := r0.ran + 1 }
    let undef : MicroAct := .fault s fUNDEF 0
    let keep (x : Option Routine) : MicroAct := match x with
      | some r1 => .go s r1 stitch
      | none => undef
    match bitsOf w 31 28 with
    | 0 => match s.microSel r (bitsOf w 16 12), s.microSel r (bitsOf w 11 7) with
      | some a, some b => if bitsOf w 6 0 ≠ 0 then undef else keep ((microAlu (bitsOf w 26 22) a b).bind (fun v => r.put (bitsOf w 21 17) v))
      | _, _ => undef
    | 1 =>
      let hw := bitsOf w 26 25
      let base := if w.testBit 24 then r.imm else 0
      if bitsOf w 23 16 ≠ 0 then undef else keep (some { r with imm := insV base (BitVec.ofNat 64 (bitsOf w 15 0)) (16 * hw) 16 })
    | 2 => match s.microSel r (bitsOf w 23 19) with
      | some a =>
        let force (x : Nat) : Nat := if r.owner then 0x8000 + x % 0x800 else x
        let go (c : Bool) : MicroAct := keep (some (if c then { r with upc := force (bitsOf w 15 0) } else r))
        if bitsOf w 18 16 ≠ 0 then undef
        else match bitsOf w 26 24 with
          | 0 => go true
          | 1 => go (a == 0)
          | 2 => go (a != 0)
          | 3 => go a.msb
          | 4 => keep (some { r with link := BitVec.ofNat 64 r.upc, upc := force (bitsOf w 15 0) })
          | 5 => keep (some { r with upc := force (r.link.toNat % 65536) })
          | _ => undef
      | none => undef
    | 3 => s.microMem t r w stitch
    | 4 => match s.microSel r (bitsOf w 16 12) with
      | some a =>
        let f := if bitsOf w 26 25 = 0 then aesSub else aesInvSub
        if 1 < bitsOf w 26 25 ∨ bitsOf w 24 22 ≠ 0 ∨ bitsOf w 11 0 ≠ 0 then undef
        else keep (r.put (bitsOf w 21 17) (of64 ((bytes64 a).map f)))
      | none => undef
    | 5 => if bitsOf w 25 0 ≠ 0 then undef else .done s r (w.testBit 26)
    | _ => undef

/-! ### Segments, stitches and slots (R274, R279 to R281) -/

/-- The stores of a segment are performed in order. -/
def State.commitStores (s : State) (t : Nat) (r : Routine) : State :=
  r.stores.foldl (fun (s : State) e =>
    if e.1 then (s.performShared State.pageWrite t (microOp .store e.2.1 e.2.2.length e.2.2)).2.2 else s.localWrite t e.2.1 e.2.2) s

/-- A fault inside a routine: its segment is discarded (R281). -/
def State.microFault (s : State) (t kind detail : Nat) : LeafAct :=
  let q := quireWin (tidQuire t)
  let s1 := if kind = fUNDEF then s.count q 0x238C else if kind = fMICRO then s.count q 0x2388 else s
  .fault (s1.modThread t (fun th => th.setRoutine none)) kind detail

/-- Whether a routine is at an access of Quire shared memory while its thread's earlier requests to it are still to be served: they go first
(R36, R278). -/
def State.microWaits (s : State) (t : Nat) (r : Routine) : Bool :=
  match s.microFetch (tidQuire t) r.upc with
  | some w => bitsOf w.toNat 31 28 == 3 && bitsOf w.toNat 26 25 == 1 && (s.thread t).ops.any (fun o => o.inSpace 0)
  | none => false

/-- A routine executes up to `n` microwords, 4 microcycles in each slot, to its end, to a stitch with an entry or halt pending, or to a
fault; a routine still under way, or at an access that waits for the thread's earlier ones, waits for the next command. With an entry or halt pending it meets MICRO_ATOMICITY at microcycle
`limit` (R281). `mark`: what a thread reset would change. -/
def State.microRun (t gd : Nat) (task : Option Nat) (limit : Option Nat) (mark : Nat × Nat) : Nat → State → Routine → LeafAct
  | 0, s, r => .keep (s.modThread t (fun th => { th.setRoutine (some r) with micro := true }))
  | n + 1, s, r =>
    let more := r.ran / 4 - r.paid
    match if more = 0 then none else s.budgetLeft t (more + 1) with
    | some u => (s.charge task u).microFault t fBUDGET (((s.heldTask t).map (·.2.budget)).getD 0)
    | none =>
      if limit.any (fun m => decide (m ≤ r.ran)) then s.microFault t fMICRO r.upc
      else if s.microWaits t r then
        .keep ((s.charge task more).modThread t (fun th => { th.setRoutine (some { r with paid := r.ran / 4 }) with micro := true }))
      else match (s.charge task more).microStep t { r with paid := r.ran / 4 } with
        | .fault s1 kind detail => s1.microFault t kind detail
        | .done s1 r1 wr =>
          let s2 := s1.commitStores t r1
          if ((s2.thread t).notBefore, (s2.thread t).issued) ≠ mark then .keep s2 else s2.toolDone t gd (if wr then some r1.res else none)
        | .go s1 r1 stitch =>
          if stitch then
            let s2 := s1.commitStores t r1
            let r2 := { r1 with stores := [] }
            if ((s2.thread t).notBefore, (s2.thread t).issued) ≠ mark then .keep s2
            else if limit.isSome then s2.stitchInterrupt t r2
            else State.microRun t gd task limit mark n s2 r2
          else State.microRun t gd task limit mark n s1 r1

/-- The valid decode entry of a function (R275). -/
def State.decodeEntry (s : State) (q fn : Nat) : Option Nat :=
  (List.range 64).find? (fun n => s.rf (quireWin q) (0x2200 + 4 * n) 31 31 == 1 && s.rf (quireWin q) (0x2200 + 4 * n) 25 16 == fn)

/-- Whether decode entry n of a Quire may take a value (R275): its function's range, the owner store for entries 48 to 63, and no other valid
entry of its function. -/
def State.entryOk (s : State) (w n : Nat) (v : Word32) : Bool :=
  let fn := fld v 25 16
  decide (fld v 31 31 = 0)
    || ((if n < 48 then decide (fn < 0x200) else decide (0x200 ≤ fn) && decide (0x8000 ≤ fld v 15 0) && decide (fld v 15 0 < 0x8800))
      && (List.range 64).all (fun m => decide (m = n) || decide (s.rf w (0x2200 + 4 * m) 31 31 = 0) || decide (s.rf w (0x2200 + 4 * m) 25 16 ≠ fn)))

/-- The decode entries and match registers as START of a Quire finds them: as the ROM has them; where a patch is applied, entries 0 to 47 are
the patch's, and TOOLING_VERSION shows its release (R277; log 67). -/
def State.microDefaults (s : State) (w : Nat) (release : Option Nat) : State :=
  let s1 := { s with regs := s.regs.filter (fun e => decide (e.1 / 65536 ≠ w) || decide (e.1 % 65536 < 0x2200) || decide (0x2380 ≤ e.1 % 65536)) }
  match release with
  | some r => ((List.range 48).foldl (fun (s : State) n => s.setReg w (0x2200 + 4 * n) 0) s1).setRf w 0x2100 15 0 r
  | none => s1.setRf w 0x2100 15 0 0

/-- A decode entry that an image sets: one that breaks R275 is discarded. -/
def State.imageEntry (s : State) (w n : Nat) (v : Word32) : State := if s.entryOk w n v then s.setReg w (0x2200 + 4 * n) (v &&& 0x83FFFFFF) else s

/-- A register that a microcode patch sets: a match register, or an entry from 0 to 47; an owner image sets entries 48 to 63 (R277). -/
def State.patchReg (s : State) (w off : Nat) (v : Word32) : State :=
  if off % 4 ≠ 0 ∨ off < 0x2200 then s
  else if off < 0x22C0 then s.imageEntry w ((off - 0x2200) / 4) v
  else if 0x2300 ≤ off ∧ off < 0x2380 then s.setReg w off (v &&& 0xBFFF01FF)
  else s
def State.ownerReg (s : State) (w off : Nat) (v : Word32) : State :=
  if off % 4 ≠ 0 ∨ off < 0x22C0 ∨ 0x2300 ≤ off then s else s.imageEntry w ((off - 0x2200) / 4) v

/-- Whether entry n runs the ROM default of function n: its routine unpatched (R277, R282). -/
def State.romEntry (s : State) (q n : Nat) : Bool :=
  decide (n < 48) && s.rf (quireWin q) (0x2200 + 4 * n) 15 0 == Config.romRoutine n % 65536
    && s.rf (quireWin q) (0x2200 + 4 * n) 25 16 == n
    && (List.range 32).all (fun m => s.rf (quireWin q) (0x2300 + 4 * m) 31 31 == 0)

/-- A custom instruction in its slots (R250, R251, R274): it goes on where it was left, or starts at its decode entry. -/
def State.customBody (s : State) (t : Nat) (th : Thread) (fn gd gs gt : Nat) : LeafAct :=
  let q := tidQuire t
  let pending := th.wantEntry (s.isSup t) || th.haltReq
  let mark := (th.notBefore, th.issued)
  let run (r : Routine) : LeafAct := State.microRun t gd th.task (if pending then some (r.ran + 256) else none) mark 4096 s r
  match th.routine with
  | some r => match r.left with
    | some slots => s.romRun t gd th.task pending r slots
    | none => run (if th.micro then r else { r with ran := 0, paid := 0 })
  | none => match s.decodeEntry q fn with
    | none => .fault s fUNDEF 0
    | some n =>
      if s.romEntry q n then s.romFn t th pending fn gd gs gt
      else
        let start := s.rf (quireWin q) (0x2200 + 4 * n) 15 0
        run { t := List.replicate 8 0, ops := th.g gs, opt := th.g gt, opd := th.g gd, res := 0, imm := 0, link := 0, upc := start,
              owner := decide (0x8000 ≤ start), ran := 0, paid := 0, stores := [], left := none }

/-- A custom instruction's row. -/
def State.customRun (s : State) (t fn gd gs gt : Nat) : Res :=
  s.leafRun t (encCX fn gd gs gt) (fun s th => s.customBody t th fn gd gs gt)

/-- CUSTOM_INSTRUCTION: R250. -/
def execCustomInstruction (t : Tid) (fn : BitVec 10) (gd gs gt : Reg) (s : State) : Res :=
  s.customRun t.val fn.toNat gd.val gs.val gt.val

/-- MICRO_ATOMICITY: a routine that is between stitches runs on with an entry or halt pending: 256 microcycles without a stitch are
its fault (R281). -/
def execMicroAtomicity (t : Tid) (s : State) : Res :=
  let th := (s.thread t.val).landed
  let pw := s.fetch t.val th.pc
  if s.canIssue t.val && th.micro && (th.wantEntry (s.isSup t.val) || th.haltReq) then
    .next (s.issue t.val th pw (fun s th =>
      s.customBody t.val th ((fld pw 31 26 - 0x3C) * 512 + fld pw 10 2) (fld pw 25 21) (fld pw 20 16) (fld pw 15 11)))
  else .next s

/-- FNV64_K to SUBSAT0: the custom instructions of fn 0x000 to 0x02F (R282). -/
def execFnv64K (t : Tid) (k : BitVec 3) (gd gs gt : Reg) (s : State) : Res := s.customRun t.val k.toNat gd.val gs.val gt.val
def execAdds (t : Tid) (gd gs gt : Reg) (s : State) : Res := s.customRun t.val 0x08 gd.val gs.val gt.val
def execSubs (t : Tid) (gd gs gt : Reg) (s : State) : Res := s.customRun t.val 0x09 gd.val gs.val gt.val
def execAddsu (t : Tid) (gd gs gt : Reg) (s : State) : Res := s.customRun t.val 0x0A gd.val gs.val gt.val
def execSubsu (t : Tid) (gd gs gt : Reg) (s : State) : Res := s.customRun t.val 0x0B gd.val gs.val gt.val
def execAddsw (t : Tid) (gd gs gt : Reg) (s : State) : Res := s.customRun t.val 0x0C gd.val gs.val gt.val
def execSubsw (t : Tid) (gd gs gt : Reg) (s : State) : Res := s.customRun t.val 0x0D gd.val gs.val gt.val
def execAddsuw (t : Tid) (gd gs gt : Reg) (s : State) : Res := s.customRun t.val 0x0E gd.val gs.val gt.val
def execSubsuw (t : Tid) (gd gs gt : Reg) (s : State) : Res := s.customRun t.val 0x0F gd.val gs.val gt.val
def execFindb (t : Tid) (gd gs gt : Reg) (s : State) : Res := s.customRun t.val 0x10 gd.val gs.val gt.val
def execFindnb (t : Tid) (gd gs gt : Reg) (s : State) : Res := s.customRun t.val 0x11 gd.val gs.val gt.val
def execCntb (t : Tid) (gd gs gt : Reg) (s : State) : Res := s.customRun t.val 0x12 gd.val gs.val gt.val
def execMinb (t : Tid) (gd gs gt : Reg) (s : State) : Res := s.customRun t.val 0x13 gd.val gs.val gt.val
def execMaxb (t : Tid) (gd gs gt : Reg) (s : State) : Res := s.customRun t.val 0x14 gd.val gs.val gt.val
def execAddb (t : Tid) (gd gs gt : Reg) (s : State) : Res := s.customRun t.val 0x15 gd.val gs.val gt.val
def execSubb (t : Tid) (gd gs gt : Reg) (s : State) : Res := s.customRun t.val 0x16 gd.val gs.val gt.val
def execSadb (t : Tid) (gd gs gt : Reg) (s : State) : Res := s.customRun t.val 0x17 gd.val gs.val gt.val
def execPdep (t : Tid) (gd gs gt : Reg) (s : State) : Res := s.customRun t.val 0x18 gd.val gs.val gt.val
def execPext (t : Tid) (gd gs gt : Reg) (s : State) : Res := s.customRun t.val 0x19 gd.val gs.val gt.val
def execBrev (t : Tid) (gd gs gt : Reg) (s : State) : Res := s.customRun t.val 0x1A gd.val gs.val gt.val
def execClmul (t : Tid) (gd gs gt : Reg) (s : State) : Res := s.customRun t.val 0x1B gd.val gs.val gt.val
def execClmulh (t : Tid) (gd gs gt : Reg) (s : State) : Res := s.customRun t.val 0x1C gd.val gs.val gt.val
def execPopcand (t : Tid) (gd gs gt : Reg) (s : State) : Res := s.customRun t.val 0x1D gd.val gs.val gt.val
def execSelb (t : Tid) (gd gs gt : Reg) (s : State) : Res := s.customRun t.val 0x1E gd.val gs.val gt.val
def execParity (t : Tid) (gd gs gt : Reg) (s : State) : Res := s.customRun t.val 0x1F gd.val gs.val gt.val
def execLcsum (t : Tid) (gd gs gt : Reg) (s : State) : Res := s.customRun t.val 0x20 gd.val gs.val gt.val
def execLcrc32c (t : Tid) (gd gs gt : Reg) (s : State) : Res := s.customRun t.val 0x21 gd.val gs.val gt.val
def execLfill (t : Tid) (gd gs gt : Reg) (s : State) : Res := s.customRun t.val 0x22 gd.val gs.val gt.val
def execLcopy (t : Tid) (gd gs gt : Reg) (s : State) : Res := s.customRun t.val 0x23 gd.val gs.val gt.val
def execLcmp (t : Tid) (gd gs gt : Reg) (s : State) : Res := s.customRun t.val 0x24 gd.val gs.val gt.val
def execLfind (t : Tid) (gd gs gt : Reg) (s : State) : Res := s.customRun t.val 0x25 gd.val gs.val gt.val
def execLswap16 (t : Tid) (gd gs gt : Reg) (s : State) : Res := s.customRun t.val 0x26 gd.val gs.val gt.val
def execLswap32 (t : Tid) (gd gs gt : Reg) (s : State) : Res := s.customRun t.val 0x27 gd.val gs.val gt.val
def execCsumadj (t : Tid) (gd gs gt : Reg) (s : State) : Res := s.customRun t.val 0x28 gd.val gs.val gt.val
def execCsumadj32 (t : Tid) (gd gs gt : Reg) (s : State) : Res := s.customRun t.val 0x29 gd.val gs.val gt.val
def execIpv4csum (t : Tid) (gd gs gt : Reg) (s : State) : Res := s.customRun t.val 0x2A gd.val gs.val gt.val
def execMachash (t : Tid) (gd gs gt : Reg) (s : State) : Res := s.customRun t.val 0x2B gd.val gs.val gt.val
def execPrefixeq (t : Tid) (gd gs gt : Reg) (s : State) : Res := s.customRun t.val 0x2C gd.val gs.val gt.val
def execMasklen (t : Tid) (gd gs gt : Reg) (s : State) : Res := s.customRun t.val 0x2D gd.val gs.val gt.val
def execEui64 (t : Tid) (gd gs gt : Reg) (s : State) : Res := s.customRun t.val 0x2E gd.val gs.val gt.val
def execSubsat0 (t : Tid) (gd gs gt : Reg) (s : State) : Res := s.customRun t.val 0x2F gd.val gs.val gt.val

/-! ### Tenant windows from outside (R286 to R288) -/

/-- Whether a window entry is one that R288 and its layout admit. -/
def State.windowLegal (s : State) (v : Nat) : Bool :=
  let e : Word128 := BitVec.ofNat 128 v
  winSpace e != 3 && !(winEn e && winSize e == 0) && decide (winBase e + winSize e ≤ s.spaceSize (winSpace e))
    && !(winSpace e == 0 && decide (0x3A0000 < winBase e + winSize e))

/-- The bits of a window entry that are fields. -/
def windowFields : Nat := 0xFFFFFFFFFF + 0xFFFFFFFFFF * 2 ^ 64 + 0xB3 * 2 ^ 112

/-- QUIRE_WIN_DATA as a number, and it replaced. -/
def State.winData (s : State) (q : Nat) : Nat := leNat ((List.range 4).flatMap (fun k => leBytes 4 (s.reg (quireWin q) (0x210 + 4 * k)).toNat))
def State.setWinData (s : State) (q v : Nat) : State :=
  (List.range 4).foldl (fun (s : State) k => s.setReg (quireWin q) (0x210 + 4 * k) (BitVec.ofNat 32 (v / 2 ^ (32 * k)))) s

/-- The indirect commands of a Quire's profiles and tenant map, performed as go is written. -/
def State.winRead (s : State) (q : Nat) : State :=
  let a := s.reg (quireWin q) 0x200
  let i := fld a 13 0
  if fld a 31 31 = 1 then s.setReg (quireWin q) 0x210 (BitVec.ofNat 32 (SMap.get (fun _ => 0) (s.quire q).tenantMap i))
  else if 8192 ≤ i then s.cfgReject (quireWin q) 0x204
  else s.setWinData q (SMap.get (fun _ => (0 : Word128)) (s.quire q).profiles i).toNat
def State.winWrite (s : State) (q : Nat) : State :=
  let a := s.reg (quireWin q) 0x200
  let i := fld a 13 0
  let x := s.quire q
  if fld a 31 31 = 1 then s.setQuire q { x with tenantMap := SMap.set (fun _ => 0) x.tenantMap i (s.rf (quireWin q) 0x210 8 0) }
  else
    let v := s.winData q &&& windowFields
    if 8192 ≤ i ∨ !s.windowLegal v then s.cfgReject (quireWin q) 0x204
    else s.setQuire q { x with profiles := SMap.set (fun _ => 0) x.profiles i (BitVec.ofNat 128 v) }

/-- QUIRE_WIN_READ, QUIRE_WIN_WRITE: R286. -/
def execQuireWinRead (q : Fin 24) (s : State) : Res := .next ((s.setRf (quireWin q.val) 0x204 0 0 0).winRead q.val)
def execQuireWinWrite (q : Fin 24) (s : State) : Res := .next ((s.setRf (quireWin q.val) 0x204 0 0 1).winWrite q.val)

end Sys2Proof.Machine
end

