-- ==== Sys2Proof/Machine/Mower.lean ====
section
/-! DEFINITION. Mower: scrub steps and laps, the overlay, log and repair queue commands (R409 to R413); and the refill of the Commons
(R419). -/

namespace Sys2Proof.Machine

/-! ### Scrub targets (R412) -/

/-- The windows from a first one. -/
def windows (first n : Nat) : List Nat := (List.range n).map (fun i => first + i)

/-- The memory instances of a scrub target (window, instance). -/
def scrubInstances (t : Nat) : List (Nat × Nat) :=
  match t with
  | 0 => (windows 29 216).map (fun w => (w, 0))
  | 1 => (windows 5 24).map (fun w => (w, 0))
  | 2 => (windows 5 24).flatMap (fun w => [(w, 1), (w, 2)])
  | 3 => [(loftWin, 0), (loftWin, 1)]
  | 4 => [(warrenWin, 0)]
  | 5 => (windows 330 66).map (fun w => (w, 0))
  | 6 => [(windrowWin, 0), (windrowWin, 1), (tedderWin, 0), (kettleWin, 0), (droverWin, 0)]
  | 7 => [(sheafWin, 0), (sheafWin, 1)]
  | 8 => [(spineWin, 0)]
  | 9 => (windows 284 32).flatMap (fun w => [(w, 0), (w, 1)])
  | 10 => (windows 317 12).map (fun w => (w, 0))
  | _ => []

/-- Whether Mower visits an instance: its Gathering is not OFF, FAILED or ABSENT, and it is no channel in self-refresh. -/
def State.scrubbed (s : State) (w : Nat) : Bool :=
  let g := (s.gathOf w).own
  decide (g ≠ .off) && decide (g ≠ .failed) && decide (g ≠ .absent) && (s.chan w).selfRefresh.isNone

/-- The step of a target in its instances: a row of 48 bytes for Ling, else a codeword. -/
def State.scrubUnit (s : State) (t w inst : Nat) : Nat := if t = 5 then 48 else codeBytes (s.memClass w inst)

/-- The codewords of an instance, and those of them that a lap of its target has visited. -/
def State.wordsOf (s : State) (t : Nat) (i : Nat × Nat) : Nat := (((s.memInstance i.1 i.2).map (·.2)).getD 0) / s.scrubUnit t i.1 i.2
def State.seenOf (s : State) (t : Nat) (i : Nat × Nat) : Nat :=
  (SMap.get (fun _ => []) s.mower.lapSeen t).countP (fun e => e.1 == i.1 && e.2.1 == i.2)

/-- Whether a lap has visited every codeword of each instance that is not passed over, and whether it passed one over (R412). -/
def State.lapDone (s : State) (t : Nat) : Bool := (scrubInstances t).all (fun i => !s.scrubbed i.1 || decide (s.wordsOf t i ≤ s.seenOf t i))
def State.lapSkips (s : State) (t : Nat) : Bool :=
  (scrubInstances t).any (fun i => !s.scrubbed i.1 && decide (s.wordsOf t i = 0 ∨ s.seenOf t i < s.wordsOf t i))

/-- Whether a codeword belongs to a target's lap now. -/
def State.scrubValid (s : State) (t w inst addr : Nat) : Bool :=
  (scrubInstances t).contains (w, inst) && s.scrubbed w && decide (addr % s.scrubUnit t w inst = 0)
    && decide (addr < ((s.memInstance w inst).map (·.2)).getD 0)

/-- When a target's lap began. -/
def State.lapStarted (s : State) (t : Nat) : Nat := SMap.get (fun _ => 0) s.mower.lapStart t

/-- LAP_END: the length of a lap is stored and the next begins (R412). -/
def State.lapEnd (s : State) (t : Nat) : State :=
  let skip := s.lapSkips t
  let ms := (s.time.cycles - s.lapStarted t) / 1000000
  (s.setReg mowerWin (0x200 + 8 * t) (BitVec.ofNat 32 (bit skip * 2 ^ 31 + ms % 2 ^ 31))).modMower (fun m => { m with
    lapStart := SMap.put m.lapStart t s.time.cycles
    lapLate := SMap.put m.lapLate t false
    lapSeen := SMap.put m.lapSeen t [] })

/-- A codeword of a target has been visited: it counts, and may end the lap. -/
def State.visited (s : State) (t w inst addr : Nat) : State :=
  let seen := SMap.get (fun _ => []) s.mower.lapSeen t
  let seen' := if seen.contains (w, inst, addr) then seen else seen ++ [(w, inst, addr)]
  let s1 := (s.count mowerWin 0x800).modMower (fun m => { m with lapSeen := SMap.put m.lapSeen t seen' })
  if s1.lapDone t then s1.lapEnd t else s1

/-- Whether a codeword shows an error to a read. -/
def State.wordShows (s : State) (w inst addr : Nat) : Bool := (s.errsIn w inst addr (codeBytes (s.memClass w inst))).any EccErr.shows

/-- Mower writes a codeword back corrected and reads it again; an error that the re-read still finds is hard (R409, R411). Where another write
has been performed since Mower's read, the write-back is dropped (R410). -/
def State.writeBack (s : State) (w inst addr : Nat) (late : Bool) : State :=
  let s0 := s.modMower (fun m => { m with back := m.back.filter (fun b => b.1 ≠ (w, inst, addr)) })
  if late then s0.count mowerWin 0x808
  else
    let s1 := (s0.count mowerWin 0x804).eccRefresh w inst addr
    if s1.wordShows w inst addr then (s1.eccRead w inst addr (codeBytes (s.memClass w inst))).2.harden w inst addr else s1

/-- A codeword is read by Mower: an uncorrectable one is counted, and nothing is rewritten; a correctable one is to be written back (R405,
R409). The answer says whether the step has ended with the read. -/
def State.scrubRead (s : State) (w inst addr : Nat) : Bool × State :=
  let r := s.eccRead w inst addr (codeBytes (s.memClass w inst))
  if !s.wordShows w inst addr then (true, r.2)
  else if r.1 then (true, r.2.count mowerWin 0x814)
  else (false, r.2.modMower (fun m => { m with back := m.back ++ [((w, inst, addr), false)] }))

/-- The SCRUB tokens of `n` lines (R391, R409): none for on-chip memory (R426), and none are drawn while Commons is not IN_SERVICE (R428) or
while anything under R389 could issue in the command slot of the codeword's scheduler. -/
def State.scrubDraw (s : State) (t w inst addr n : Nat) : Bool × State :=
  if t < 9 then (true, s)
  else if s.inService commonsWin && s.slotIdle (s.decodeRow w inst addr).1 then s.drawFor 0 10 (t - 9) n
  else (false, s)

/-- The correctable codewords of a row's shadow are written back corrected and read again (R409). -/
def State.refreshShadow (s : State) (pos r : Nat) : State :=
  (List.range 3).foldl (fun (s : State) i =>
    let a := 48 * r + 16 * i
    if s.wordShows (lingBankWin pos) 0 a then s.writeBack (lingBankWin pos) 0 a false else s) s

/-- A step on one codeword of a target: the read, and where that found a correctable error, in a second command the write-back and the
re-read (R409, R410). A Ling row is compared with its shadow (R110). -/
def State.scrubWord (s : State) (t w inst addr : Nat) : State :=
  match s.mower.back.find? (fun b => b.1 == (w, inst, addr)) with
  | some b => match s.scrubDraw t w inst addr 2 with
    | (true, s1) => (s1.writeBack w inst addr b.2).visited t w inst addr
    | (false, s1) => s1
  | none => match s.scrubDraw t w inst addr 1 with
    | (true, s1) =>
      if t = 5 then
        let bad := (s1.eccRead w 0 addr 48).1
        let s2 := s1.shadowRepair (w - 330) (addr / 48)
        ((if bad then s2.count mowerWin 0x814 else s2.refreshShadow (w - 330) (addr / 48)).visited t w inst addr)
      else
        let r := s1.scrubRead w inst addr
        if r.1 then r.2.visited t w inst addr else r.2
    | (false, s1) => s1

/-- SCRUB_STEP: R409, R412. -/
def execScrubStep (target : Fin 11) (w : Win) (inst : BitVec 7) (addr : BitVec 40) (s : State) : Res :=
  let t := target.val
  let a := addr.toNat
  if !s.inService mowerWin || !(s.reg mowerWin 0x100).getLsbD t || !s.scrubValid t w.val inst.toNat a then .next s
  else .next (s.scrubWord t w.val inst.toNat a)

/-- LAP_OVERDUE: a lap runs longer than its limit (R412). -/
def execLapOverdue (target : Fin 11) (s : State) : Res :=
  let t := target.val
  let limit := (s.reg mowerWin (0x204 + 8 * t)).toNat
  let late := SMap.get (fun _ => false) s.mower.lapLate t
  if s.inService mowerWin && (s.reg mowerWin 0x100).getLsbD t && limit != 0 && !late && decide (s.lapStarted t + 1000000 * limit < s.time.cycles) then
    .next ((s.modMower (fun m => { m with lapLate := SMap.put m.lapLate t true })).setEvent mowerWin 0x780 0)
  else .next s

/-- The laps of every target begin, as Mower starts. -/
def State.lapsBegin (s : State) : State :=
  s.modMower (fun m => { m with lapStart := (List.range 11).map (fun t => (t, s.time.cycles)), lapLate := [], lapSeen := [] })

/-! ### Overlay, logs and the repair queue (R407, R411, R413) -/

/-- OVERLAY_ARM: R413. -/
def execOverlayArm (w : BitVec 9) (inst : BitVec 7) (s : State) : Res :=
  .next (s.setReg mowerWin 0x610 (BitVec.ofNat 32 (2 ^ 31 + w.toNat * 2 ^ 16 + inst.toNat * 2 ^ 8)))

/-- clr of MOWER_LOG_SEL: an entry is freed, or the totals are zeroed (R407). -/
def State.logClear (s : State) (w inst entry : Nat) : State :=
  let l := s.instLog w inst
  if entry < 8 then s.setInstLog w inst { l with entries := SMap.erase l.entries entry }
  else if entry = 8 then s.setInstLog w inst { l with corrected := 0, uncorrected := 0, overflow := 0 }
  else s

/-- LOG_CLEAR: entries 10 to 15 are reserved (R11). -/
def execLogClear (w : BitVec 9) (inst : BitVec 7) (entry : BitVec 4) (s : State) : Res :=
  if 10 ≤ entry.toNat then .next (s.cfgReject mowerWin 0x300)
  else
    let s1 := s.setReg mowerWin 0x300 (BitVec.ofNat 32 (w.toNat * 2 ^ 16 + inst.toNat * 2 ^ 8 + entry.toNat))
    .next (s1.logClear w.toNat inst.toNat entry.toNat)

/-- The bytes of a repair entry (R418). -/
def RepairEntry.bytes (e : RepairEntry) : List Byte :=
  leBytes 2 e.win ++ leBytes 1 e.inst ++ leBytes 1 e.kind ++ leBytes 1 e.info ++ [0, 0, 0] ++ leBytes 8 e.addr

/-- MOWER_HARD_DATA: the oldest entry's bytes, zero while none is queued. -/
def State.hardData (s : State) (k : Nat) : Word32 :=
  match s.mower.hardQueue with
  | e :: _ => BitVec.ofNat 32 (leNat (bytesAt e.bytes (4 * k) 4))
  | [] => 0

/-- Repair entries that Spine has taken from the queue are kept for its next record (R416). -/
def State.collectRepairs (s : State) (es : List RepairEntry) : State :=
  s.modMower (fun m => { m with collected := m.collected ++ es.filter (fun e => !m.collected.any e.same) })

/-- The oldest repair entry leaves the queue. -/
def State.hardPop (s : State) : State :=
  let rest := s.mower.hardQueue.drop 1
  ((s.collectRepairs (s.mower.hardQueue.take 1)).modMower (fun m => { m with hardQueue := rest })).setRf mowerWin 0x700 6 0 rest.length

/-- HARD_QUEUE_POP: a read of MOWER_HARD_DATA_3 (R411). -/
def execHardQueuePop (s : State) : Res := .next { s.hardPop with readData := (s.hardData 3).setWidth 256 }

/-- The bytes of a log entry (R407, R408). -/
def State.logBytes (s : State) (w inst entry : Nat) : List Byte :=
  let l := s.instLog w inst
  if entry < 8 then match SMap.find l.entries entry with
    | some e => leBytes 8 e.addr ++ leBytes 4 e.syndrome ++ leBytes 2 e.count ++ leBytes 1 (1 + 2 * bit e.ucor + 4 * bit e.hard) ++ [0]
    | none => List.replicate 16 0
  else if entry = 8 then leBytes 4 l.corrected ++ leBytes 4 l.uncorrected ++ leBytes 4 l.overflow ++ leBytes 4 0
  else match s.memInstance w inst with
    | some (cls, size) =>
      leBytes 4 cls ++ leBytes 8 size ++ leBytes 1 (s.sparesOf w inst 0) ++ leBytes 1 (s.sparesOf w inst 1) ++ leBytes 1 (s.instanceCount w) ++ [0]
    | none => List.replicate 16 0

/-! ### The round (R419) -/

/-- ROUND_REFILL: device time has passed a multiple of 1,024: tokens are refilled, and what waited for them goes on. -/
def execRoundRefill (s : State) : Res :=
  if s.time.ns.toNat / 1024 ≤ s.commons.round then .next s
  else .next ((((s.newRound).lingRetry).closeProgress).warrenRetry)

end Sys2Proof.Machine
end

