-- ==== Sys2Proof/Machine/Windrow.lean ====
section
/-! DEFINITION. The meanings of Windrow's commands (03_windrow_classification.md): stages, the lane output, exception buckets
and the indirect stores. -/

namespace Sys2Proof.Machine

/-! ### Action words (R85 to R87) -/

/-- Bits of an action word. -/
def actBits (a : Word128) (hi lo : Nat) : Nat := bitsOf a.toNat hi lo

/-- Whether an action word is bad (R87). -/
def badAction (a : Word128) : Bool :=
  decide (actBits a 62 61 = 3) || decide (actBits a 5 0 ≠ 0) || decide (64 < actBits a 28 22 + actBits a 12 6)
    || decide (512 < actBits a 37 29 + actBits a 28 22) || decide (512 < actBits a 21 13 + actBits a 12 6)

/-- Whether an action word is usable. -/
def usableAction (a : Word128) : Bool := decide (actBits a 63 63 = 1) && !badAction a

/-- The metadata bits that writes A and B leave unchanged (R80). -/
def mdFixed : Nat := (2 ^ 16 - 1) <<< 112 ||| 7 <<< 93 ||| 1 <<< 71 ||| 15 <<< 44 ||| 3 <<< 14

/-- A write of `width` bits at `dst` into the metadata. -/
def mdWrite (md : BitVec 512) (dst width v : Nat) : BitVec 512 :=
  let mask : BitVec 512 := BitVec.ofNat 512 (((2 ^ width - 1) <<< dst)) &&& ~~~(BitVec.ofNat 512 mdFixed)
  (md &&& ~~~mask) ||| (BitVec.ofNat 512 ((v % 2 ^ width) <<< dst) &&& mask)

/-- Bits of the metadata set by the device itself. -/
def mdPut (md : BitVec 512) (hi lo v : Nat) : BitVec 512 :=
  let mask : BitVec 512 := BitVec.ofNat 512 ((2 ^ (hi - lo + 1) - 1) <<< lo)
  (md &&& ~~~mask) ||| (BitVec.ofNat 512 (v <<< lo) &&& mask)

/-- The writes and decisions of a usable action word (R86). -/
def applyAction (md : BitVec 512) (a : Word128) : BitVec 512 :=
  let imm := actBits a 127 64
  let wa := actBits a 28 22
  let m1 := mdWrite (mdWrite md (actBits a 37 29) wa imm) (actBits a 21 13) (actBits a 12 6) (imm >>> wa)
  let m2 := if actBits a 55 55 = 1 ∧ mdBits m1 94 94 = 0 then mdPut (mdPut m1 94 94 1) 103 96 (actBits a 53 46) else m1
  let m3 := if actBits a 54 54 = 1 then mdPut (mdPut m2 95 95 1) 111 104 (actBits a 45 38) else m2
  if actBits a 56 56 = 1 then mdPut m3 93 93 1 else m3

/-! ### Stages (R79 to R84) -/

/-- The stages of a profile. -/
def State.stageCount (s : State) (p : Nat) : Nat := s.rf windrowWin (0x400 + 4 * p) 3 0

/-- The twelve words of a stage slot. -/
def State.stageWords (s : State) (p i : Nat) : List Word32 :=
  (List.range 12).map (fun k => s.reg windrowWin (0x4000 + 0x300 * p + 0x40 * i + 4 * k))

/-- Bits of word k of a slot. -/
def slotBits (slot : List Word32) (k hi lo : Nat) : Nat := fld (slot.getD k 0) hi lo

/-- The key of a stage: its segments joined in ascending order (R83). -/
def stageKeyOf (slot : List Word32) (record : List Byte) (md : BitVec 512) : List Byte :=
  (List.range 8).flatMap (fun k =>
    let lo := 16 * (k % 2)
    let w := 2 + k / 2
    let src := if slotBits slot w (lo + 15) (lo + 15) = 1 then leBytes 64 md.toNat else record
    bytesAt src (slotBits slot w (lo + 7) lo) (slotBits slot w (lo + 14) (lo + 8)))

/-- The key read as a number: its first n bytes at most, in network order (R83). -/
def keyNumber (key : List Byte) (n : Nat) : Nat := beNat (key.take n)

/-- Stage i is started, or passed over when its condition fails; past the last stage the profile has ended (R86). -/
def State.startStage (s : State) (p : Packet) : Nat → Nat → Packet
  | 0, _ => { p with profileDone := true, place := .laneOut }
  | fuel + 1, i =>
    if s.stageCount p.profile ≤ i then { p with profileDone := true, place := .laneOut }
    else
      let slot := s.stageWords p.profile i
      if slotBits slot 0 4 4 = 1 ∧ mdBits p.md (slotBits slot 0 16 8) (slotBits slot 0 16 8) ≠ slotBits slot 0 5 5 then
        s.startStage p fuel (i + 1)
      else { p with place := .classifying, stage := i, stageSlot := slot, stageKey := stageKeyOf slot p.record p.md,
                    engine := if slotBits slot 0 2 0 = 3 then s.routeFor (laneOf p.port) (s.laneFlying (laneOf p.port)) else none }

/-- A packet's next stage begins: stage i, or the first after it whose condition holds; a lookup of Warren is handed to an engine if one
accepts it (R86, R144). -/
def State.beginStage (s : State) (pid : Nat) (p : Packet) (i : Nat) : State :=
  let q := { p with engine := none }
  let s1 := s.setPacket pid q
  s1.setPacket pid (s1.startStage q 13 i)

/-- The metadata before stage 0 (R79, R81). -/
def State.initialMd (s : State) (p : Packet) (profile : Nat) : BitVec 512 :=
  let v := s.reg windrowWin (0x300 + 4 * p.port)
  let m := BitVec.ofNat 512 (fld v 29 16 + fld v 15 0 * 2 ^ 16)
  match p.exc with
  | some c => mdPut (mdPut m 94 94 1) 103 96 c
  | none => if s.stageCount profile = 0 then mdPut (mdPut m 94 94 1) 103 96 0x42 else m

/-- CLASSIFY_BEGIN: a lane initialises a packet's metadata and starts its first stage (R79, R81, R86). -/
def execClassifyBegin (p : Pid) (s : State) : Res :=
  match s.packet p with
  | some k =>
    if k.place ≠ .handed ∨ !s.serving windrowWin ∨ !s.serving (407 + laneOf k.port) then .next s
    else
      let profile := s.rf windrowWin (0x100 + 4 * (match k.parse with | some w => w.ctx | none => 0)) 5 0
      .next (s.beginStage p { k with profile := profile, md := s.initialMd k profile } 0)
  | none => .next s

/-! ### Lookups (R84) -/

/-- What a stage's lookup answers: not yet, an uncorrectable error, a miss, or an action word. -/
inductive StageLook where
  | wait
  | bad
  | miss
  | hit (act : Word128)

/-- One entry of the range store, and of the direct store. -/
def State.rangeEntry (s : State) (i : Nat) : BitVec 256 := SMap.get (fun _ => 0) s.windrow.range i
def State.directEntry (s : State) (i : Nat) : Word128 := SMap.get (fun _ => 0) s.windrow.direct i

/-- A RANGE lookup: the lowest priority value wins, then the lower address. -/
def State.rangeLookup (s : State) (t v : Nat) : StageLook × State :=
  let c := s.reg windrowWin (0x680 + 4 * t)
  let base := fld c 12 0
  let n := fld c 26 16
  let r := s.eccRead windrowWin 1 (32 * base) (32 * n)
  if n ≠ 0 ∧ r.1 then (.bad, r.2)
  else
    let hits := (s.windrow.range.filter (fun e => decide (base ≤ e.1) && decide (e.1 < base + n) && e.2.getLsbD 72
      && decide (bitsOf e.2.toNat 31 0 ≤ v) && decide (v ≤ bitsOf e.2.toNat 63 32)))
    let best := hits.foldl (fun (b : Option (Nat × BitVec 256)) e => match b with
      | none => some e
      | some x => if bitsOf e.2.toNat 71 64 < bitsOf x.2.toNat 71 64 then some e else b) none
    match best with
    | some e => (.hit (e.2.extractLsb' 128 128), r.2)
    | none => (.miss, r.2)

/-- A DIRECT lookup. -/
def State.directLookup (s : State) (t v : Nat) : StageLook × State :=
  let c := s.reg windrowWin (0x600 + 4 * t)
  let i := fld c 19 0 + v % 2 ^ fld c 28 24
  let r := s.eccRead windrowWin 0 (16 * i) 16
  if r.1 then (.bad, r.2) else (.hit (s.directEntry i), r.2)

/-- A LING lookup. -/
def State.lingLookup (s : State) (d width : Nat) (key : List Byte) : StageLook × State :=
  match s.dataSearch d (2 ^ width) (BitVec.ofNat 640 (leNat (fitBytes key (20 * 2 ^ width)))) with
  | (.hit _ a, s1) => (.hit a, s1)
  | (.miss, s1) => (.miss, s1)
  | (.drop, s1) => (.bad, s1)

/-- Whether a stage is a learning lookup of its table (R133). -/
def State.learningStage (s : State) (slot : List Word32) : Bool :=
  decide (slotBits slot 0 2 0 = 3) && decide (slotBits slot 0 3 3 = 1) && decide (s.wtCfg (slotBits slot 0 28 24) 16 16 = 1)

/-- A WARREN lookup: a learning one that hits with another port hands over a move, one that misses a learn (R133, R138). The
answer of a learn is awaited in the packet. -/
def State.warrenStage (s : State) (pid : Nat) (p : Packet) : StageLook × State :=
  let t := slotBits p.stageSlot 0 28 24
  let learning := s.learningStage p.stageSlot
  match s.warrenLookup (laneOf p.port) p.engine t p.stageKey learning with
  | (.wait, s1) => (.wait, s1)
  | (.bad, s1) => (.bad, s1)
  | (.hit _ e, s1) =>
    (.hit (entAction e), if learning && entPort e != p.port then s1.warrenLearn true t p.stageKey p.port none else s1)
  | (.miss, s1) =>
    if learning then
      let s2 := s1.setPacket pid { p with learnWait := some (s.time.cycles + s.rf warrenWin 0x104 11 0, 0) }
      (.wait, s2.warrenLearn false t p.stageKey p.port (some pid))
    else (.miss, s1)

/-- The lookup of a packet's stage. -/
def State.stageLookup (s : State) (pid : Nat) (p : Packet) : StageLook × State :=
  let t := slotBits p.stageSlot 0 28 24
  match slotBits p.stageSlot 0 2 0 with
  | 0 => s.rangeLookup t (keyNumber p.stageKey 4)
  | 1 => s.directLookup t (keyNumber p.stageKey 3)
  | 2 => s.lingLookup t (slotBits p.stageSlot 1 1 0) p.stageKey
  | _ => s.warrenStage pid p

/-- A bad action word or jump that a packet meets sets bad_action, and is counted at the lane output (R87, R95). -/
def State.meetBadAction (s : State) (bad : Bool) : State := if bad then s.setEvent windrowWin 0x740 0 else s

/-- The miss action of a stage (R82). -/
def missAction (slot : List Word32) : Word128 :=
  BitVec.ofNat 128 (sumOf (List.range 4) (fun k => (slot.getD (8 + k) 0).toNat * 2 ^ (32 * k)))

/-- A stage takes the answer of its lookup, with the miss action that applies, and the next one starts (R86). -/
def State.finishStage (s : State) (pid : Nat) (p : Packet) (found : Option Word128) (miss : Word128) : State :=
  let i := p.stage
  let hit := (found.map usableAction).getD false
  let act := if hit then found.getD miss else miss
  let bad := (found.map badAction).getD false || (!hit && badAction miss)
  let s1 := s.meetBadAction bad
  let s2 := if hit then s1.count windrowWin (0x1800 + 4 * (12 * p.profile + i)) else s1
  let m0 := if hit then mdPut p.md (116 + i) (116 + i) 1 else p.md
  let m1 := mdPut m0 115 112 (mdBits p.md 115 112 + 1)
  let q := { p with learnWait := none, md := m1, badAct := p.badAct || bad }
  if !usableAction act then s2.beginStage pid q (i + 1)
  else
    let q1 := { q with md := applyAction m1 act }
    let stop := { q1 with profileDone := true, place := .laneOut }
    if mdBits q1.md 93 93 = 1 ∨ actBits act 62 61 = 1 then s2.setPacket pid stop
    else if actBits act 62 61 = 2 then
      let j := actBits act 60 57
      if j ≤ i ∨ s.stageCount p.profile ≤ j then (s2.meetBadAction true).setPacket pid { stop with badAct := true }
      else s2.beginStage pid q1 j
    else s2.beginStage pid q1 (i + 1)

/-- A packet leaves its lane. -/
def State.leaveLane (s : State) (pid : Nat) (p : Packet) : State :=
  let n := laneOf p.port
  s.modWindrow (fun w => { w with lanes := SMap.set (fun _ => []) w.lanes n ((s.windrowLane n).erase pid) })

/-- A packet is dropped inside a lane (R111, R123): counted against the tenant of its metadata. -/
def State.dropInLane (s : State) (pid : Nat) (p : Packet) (diag : Nat) : State :=
  (s.leaveLane pid p).dropPacket pid (mdTenant p.md) diag

/-- A verdict that has arrived, or a wait that is over, lets the stage take its miss action: after FAILED the table's
learn-fail action (R138). -/
def State.afterLearn (s : State) (pid : Nat) (p : Packet) (verdict : Nat) : State :=
  let t := slotBits p.stageSlot 0 28 24
  s.finishStage pid p none (if verdict = 5 then s.learnTemplate t 0x1020 else missAction p.stageSlot)

/-- STAGE_RESULT: the lookup of a packet's stage is answered, its action applied, and the next stage begun (R83 to R87). A stage
whose verdict has not come, or whose lookup no engine or memory takes yet, waits. -/
def execStageResult (p : Pid) (s : State) : Res :=
  match s.packet p with
  | some k =>
    if k.place ≠ .classifying ∨ !s.serving (407 + laneOf k.port) then .next s
    else match k.learnWait with
      | some (_, 0) => .next s
      | some (_, v) => .next (s.afterLearn p k v)
      | none => match s.stageLookup p k with
        | (.bad, s1) => .next (s1.dropInLane p k 59)
        | (.miss, s1) => .next (s1.finishStage p k none (missAction k.stageSlot))
        | (.hit a, s1) => .next (s1.finishStage p k (some a) (missAction k.stageSlot))
        | (.wait, s1) => match (s1.packet p).map (fun k1 => (k1, k1.learnWait)) with
          | some (k1, some (_, v)) => if v = 0 then .next s1 else .next (s1.afterLearn p k1 v)
          | _ => .next s1
  | none => .next s

/-! ### The lane output (R70, R88 to R91, R309) -/

/-- The fragment outcome at the output: the packet to go on with, or a wait (R70, R88 step 1). -/
inductive FragOut where
  | goes (p : Packet)
  | wait

/-- The classification record of a packet that takes FRAG_MISS: the context's action is applied (R88 step 1). -/
def fragMissed (p : Packet) : BitVec 512 :=
  match p.fragMissAction with
  | 1 => mdPut p.md 93 93 1
  | 2 => if mdBits p.md 94 94 = 1 then p.md else mdPut (mdPut p.md 94 94 1) 103 96 0x41
  | _ => p.md

/-- A parse record with FRAG_MISS, flag 14, set (R74). -/
def missFlagged (r : List Byte) : List Byte := patchBytes r 9 [byteAt r 9 ||| 0x40]

/-- A FRAG_MISS is resolved, and counted against its ingress port (R70, R74, R75). -/
def State.fragMissOut (s : State) (p : Packet) : FragOut × State :=
  (.goes { p with md := fragMissed p, record := missFlagged p.record }, s.count tedderWin (0x1014 + 0x20 * p.port))

/-- A packet's fragment step: a first fragment's entry becomes VALID, a later fragment inherits, waits or misses. -/
def State.fragOutput (s : State) (p : Packet) : FragOut × State :=
  match p.fragBind with
  | .notLooked => (.goes p, s)
  | .noEntry => s.fragMissOut p
  | .bound key gen =>
    match p.fragFirstKey, s.fragLive key with
    | some _, some e =>
      (.goes p, if e.gen = gen then
        (s.modTedder (fun t => { t with frags := SMap.put t.frags key { e with valid := true, record := p.md } })).writeItem tedderWin 0 key else s)
    | some _, none => (.goes p, s)
    | none, some e =>
      if e.gen ≠ gen then s.fragMissOut p
      else if e.valid then (.goes { p with md := e.record }, s.count windrowWin 0x71C)
      else (.wait, s)
    | none, none => s.fragMissOut p

/-- The exception class of a tenant. -/
def State.excClass (s : State) (t : Nat) : Nat := s.rf windrowWin (0x2800 + 4 * (t / 16)) (2 * (t % 16) + 1) (2 * (t % 16))

/-- A bucket full at reset: the burst's reset value, in 1/1000 packet (R89). -/
def excFull : Nat := 256000

/-- One token of a tenant's exception bucket is taken, if there is one and its class's rate is not 0 (R89). -/
def State.excToken (s : State) (t : Nat) : Bool × State :=
  let v := SMap.get (fun _ => excFull) s.windrow.excTokens t
  if s.rf windrowWin (0x1000 + 4 * s.excClass t) 15 0 = 0 ∨ v < 1000 then
    (false, s.setEvent windrowWin 0x740 1)
  else (true, s.modWindrow (fun w => { w with excTokens := SMap.set (fun _ => excFull) w.excTokens t (v - 1000) }))

/-- Whether a packet asks for a mirror copy of a session that is disabled (R88 step 3). -/
def State.mirrorOff (s : State) (p : Packet) : Bool :=
  decide (mdBits p.md 95 95 = 1) && decide (s.rf windrowWin (0x800 + 4 * mdBits p.md 111 104) 31 31 = 0)

/-- The mirror copy of a packet, if its session is enabled (R90). -/
def State.mirrorCopy (s : State) (pid : Nat) (p : Packet) : Option OutDesc × State :=
  if mdBits p.md 95 95 = 0 ∨ s.mirrorOff p then (none, s)
  else
    let v := s.reg windrowWin (0x800 + 4 * mdBits p.md 111 104)
    let t := fld v 30 24
    let n := p.bytes.length
    let d : OutDesc := ⟨pid, mdTenant p.md, fld v 16 0, some t, [], p.md, false, if t = 0 then n else min n (64 * t), p.ts⟩
    (some d, (s.takeRef pid).report d.tenant p.ts [(8, 1)])

/-- What becomes of the packet itself at the lane output (R88 steps 2 and 4, R89): it goes on, to an exception queue or not, or is dropped
by decision, for want of an exception token, or as undeliverable. -/
inductive Fate where
  | goes
  | exception (queue : Nat)
  | decided
  | rate
  | undeliverable
  deriving DecidableEq, Repr

/-- The reason a fate drops the packet for: CLASS_DROP or EXC_RATE (R88, R91). -/
def Fate.reason : Fate → Option Nat
  | .goes => none
  | .exception _ => none
  | .decided => some 40
  | .rate => some 41
  | .undeliverable => some 40

/-- The queue of an exception packet that goes on. -/
def Fate.queue : Fate → Option Nat
  | .exception q => some q
  | _ => none

/-- The fate of a packet, given whether it found its exception token. -/
def State.outputFate (s : State) (p : Packet) (tokenOk : Bool) : Fate :=
  if mdBits p.md 93 93 = 1 then .decided
  else if mdBits p.md 94 94 = 0 then .goes
  else if !tokenOk then .rate
  else
    let v := s.reg windrowWin (0xC00 + 4 * mdBits p.md 103 96)
    if fld v 31 31 = 0 then .undeliverable else .exception (fld v 16 0)

/-- WINDROW_CNT_0 to _6, once for a packet that leaves its lane (R95). DESIGN CHOICE (log 52): CNT_0 counts every packet at the lane output,
those dropped there too; CNT_2 those sent on to an exception queue. -/
def State.countOutput (s : State) (p : Packet) (fate : Fate) (mirror off : Bool) : State :=
  let c (b : Bool) (k : Nat) (s : State) : State := if b then s.count windrowWin (0x700 + 4 * k) else s
  let s1 := c (decide (fate = .decided)) 1 (c true 0 s)
  let s2 := c mirror 3 (c fate.queue.isSome 2 s1)
  c p.badAct 6 (c (off || decide (fate = .undeliverable)) 5 (c (decide (fate = .rate)) 4 s2))

/-- One cell goes from the tenant it is charged to to another (R309). -/
def State.moveCell (s : State) (cur t : Nat) (ptr : Nat) : State :=
  let p := (s.poolOfCell ptr).getD 0
  let s1 := s.setCell ptr { s.cell ptr with tenant := t }
  let s2 := s1.setPoolUsed cur p (s1.poolUsed cur p - 1)
  s2.setPoolUsed t p (s2.poolUsed t p + 1)

/-- CELL_TENANT_MOVE: the cells of a packet move from the tenant they are charged to, its port's default one as its first cell was admitted, to
its record's tenant (R309). It is refused with 37 at that tenant's cap, as the cap was for the packet's first cell, and with 59 where the
chain of its cells breaks (R315): the answer is the reason. -/
def State.moveCells (s : State) (pid : Nat) (p : Packet) : Option Nat × State :=
  let t := mdTenant p.md
  match p.handle with
  | none => (none, s)
  | some h =>
    let cur := (s.cell h).tenant
    if t = cur then (none, s)
    else
      let chain := s.chainOf h
      let pool := ((s.poolOfCell h).map s.logicalHead).getD 0
      if s.capThen pid pool t ≤ s.loftUsed t pool then (some 37, s)
      else if chain.2.isSome then (some 59, s)
      else (none, chain.1.foldl (fun (s : State) c => s.moveCell cur t c) (s.followChain h))

/-- Steps 2 to 5 of R88 for the first packet of a lane, its fragment step made. -/
def State.laneFinish (s : State) (lane pid : Nat) (p : Packet) : State :=
  let s0 := s.setPacket pid p
  let tk := if mdBits p.md 94 94 = 1 ∧ mdBits p.md 93 93 = 0 then s0.excToken (mdTenant p.md) else (true, s0)
  let fate := s.outputFate p tk.1
  match tk.2.mirrorCopy pid p with
  | (mirror, s1) =>
    let s3 := (s1.leaveLane pid p).countOutput p fate mirror.isSome (s.mirrorOff p)
    if fate.reason.isSome ∧ mirror.isNone then s3.dropPacket pid (mdTenant p.md) (fate.reason.getD 40)
    else match s3.moveCells pid p with
      | (some r, s4) =>
        let s5 := if r = 37 then (s4.count loftWin (0x1800 + 4 * (8 * p.port + 6))).count loftWin 0x61C else s4
        let s6 := s5.dropPacket pid (mdTenant p.md) (fate.reason.getD r)
        if mirror.isSome then s6.releaseRef pid else s6
      | (none, s4) =>
        let s5 := match fate.reason with
          | some d => s4.dropPacket pid (mdTenant p.md) d
          | none => s4.setPacket pid { p with place := .kettle }
        s5.modKettle (fun k => { k with intake := SMap.put k.intake lane ⟨pid, fate.reason.isNone, fate.queue, mirror, false⟩ })

/-- Whether a Kettle lane takes a packet: it and the group are IN_SERVICE, and its slot is free (R22, R78, R170). -/
def State.intakeOpen (s : State) (n : Nat) : Bool :=
  s.inService kettleWin && s.inService (412 + n) && (SMap.find s.kettle.intake n).isNone

/-- WINDROW_LANE_OUTPUT: the first packet of lane n, its profile ended, is finished (R88); it waits for a pending fragment
(R70) and for room at its Kettle lane (R78). -/
def execWindrowLaneOutput (n : Lane) (s : State) : Res :=
  match s.windrowLane n.val with
  | [] => .next s
  | pid :: _ => match s.packet pid with
    | none => .next s
    | some p =>
      if p.place ≠ .laneOut ∨ !s.serving (407 + n.val) ∨ !s.intakeOpen n.val then .next s
      else match s.fragOutput p with
        | (.wait, s1) =>
          if p.waitSince.isSome then .next s1 else .next (s1.setPacket pid { p with waitSince := some s.time.cycles })
        | (.goes p1, s1) => .next (s1.laneFinish n.val pid p1)

/-- FRAG_PENDING_TIMEOUT: a fragment that has waited pending_wait_us for its first fragment takes FRAG_MISS (R70). -/
def execFragPendingTimeout (p : Pid) (s : State) : Res :=
  match s.packet p with
  | some k => match k.waitSince with
    | some t =>
      if k.place = .laneOut ∧ t + 1000 * s.rf tedderWin 0x210 23 16 ≤ s.time.cycles then
        .next ((s.count tedderWin 0x230).setPacket p { k with waitSince := none, fragBind := .noEntry })
      else .next s
    | none => .next s
  | none => .next s

/-! ### Exception buckets (R89) -/

/-- The tokens of a bucket after a refill under rate and burst of its class. -/
def excRefill (rate burst v : Nat) : Nat := if rate = 0 then 0 else min (1000 * burst) (v + rate)

/-- EXC_BUCKET_REFILL: each bucket gains its class's rate, up to its burst, every 1 µs (R89). Buckets that are not listed are full as at
reset, and are visited one by one only where a class would leave them otherwise. -/
def execExcBucketRefill (s : State) : Res :=
  if s.time.cycles < s.windrow.refilled + 1000 then .next s else
  let r (k : Nat) : Nat := s.rf windrowWin (0x1000 + 4 * k) 15 0
  let b (k : Nat) : Nat := s.rf windrowWin (0x1000 + 4 * k) 31 16
  let step (t v : Nat) : Option (Nat × Nat) :=
    let v' := excRefill (r (s.excClass t)) (b (s.excClass t)) v
    if v' = excFull then none else some (t, v')
  let all := (List.range 4).all (fun k => decide (excRefill (r k) (b k) excFull = excFull))
  let old := s.windrow.excTokens
  let new := if all then old.filterMap (fun e => step e.1 e.2)
             else (List.range 16384).filterMap (fun t => step t (SMap.get (fun _ => excFull) old t))
  .next (s.modWindrow (fun w => { w with excTokens := new, refilled := w.refilled + 1000 }))

/-! ### The indirect stores (R92, R541) -/

/-- The data registers as a number, and set from one. -/
def State.windData (s : State) (n : Nat) : Nat := sumOf (List.range n) (fun k => (s.reg windrowWin (0x510 + 4 * k)).toNat * 2 ^ (32 * k))
def State.setWindData (s : State) (n v : Nat) : State :=
  (List.range n).foldl (fun (s : State) k => s.setReg windrowWin (0x510 + 4 * k) (BitVec.ofNat 32 (v / 2 ^ (32 * k)))) s

/-- The bits of a range entry that are not reserved (R84). -/
def rangeMask : BitVec 256 := ~~~(BitVec.ofNat 256 ((2 ^ 55 - 1) <<< 73))

/-- A go of WINDROW_IND_CMD. An uncorrectable entry returns no data; an entry whose action word carries a reserved encoding is not written
(R541). -/
def State.windrowIndirect (s : State) (op : Nat) : State :=
  let a := s.reg windrowWin 0x500
  let i := fld a 19 0
  let range := decide (fld a 31 31 = 1)
  let s1 := s.setReg windrowWin 0x504 (BitVec.ofNat 32 op)
  let act := BitVec.ofNat 128 (s.windData (if range then 8 else 4) >>> (if range then 128 else 0))
  if range ∧ 8192 ≤ i then s1.setRf windrowWin 0x504 29 29 1
  else if op = 1 ∧ !actionListed act then s1.cfgReject windrowWin 0x504
  else if op = 1 then
    if range then
      (s1.modWindrow (fun w => { w with range := SMap.set (fun _ => 0) w.range i (BitVec.ofNat 256 (s.windData 8) &&& rangeMask) })).eccWrite
        windrowWin 1 (32 * i) 32
    else
      (s1.modWindrow (fun w => { w with direct := SMap.set (fun _ => 0) w.direct i (BitVec.ofNat 128 (s.windData 4)) })).eccWrite
        windrowWin 0 (16 * i) 16
  else if range then
    let r := s1.eccRead windrowWin 1 (32 * i) 32
    if r.1 then r.2 else r.2.setWindData 8 (s.rangeEntry i).toNat
  else
    let r := s1.eccRead windrowWin 0 (16 * i) 16
    if r.1 then r.2 else r.2.setWindData 4 (s.directEntry i).toNat

/-- WINDROW_IND_READ: a go with op read. -/
def execWindrowIndRead (s : State) : Res := .next (s.windrowIndirect 0)

/-- WINDROW_IND_WRITE: a go with op write: the entry changes whole (R92). -/
def execWindrowIndWrite (s : State) : Res := .next (s.windrowIndirect 1)

/-- RESET of the Windrow group: both stores are zeroed and every bucket refilled (R546). -/
def State.windrowReset (s : State) : State :=
  s.modWindrow (fun w => { w with direct := [], range := [], excTokens := [], refilled := s.time.cycles })

end Sys2Proof.Machine
end

