-- ==== Sys2Proof/Machine/Units.lean ====
section
/-! DEFINITION. What RESET, a failure, START and the end of a drain do inside each unit (R9, R23, and the chapters' own rules). -/

namespace Sys2Proof.Machine

/-! ### Registers (R9) -/

/-- The registers of a window take their reset values, but for those kept. -/
def State.resetRegs (s : State) (w : Nat) (keep : Nat → Bool) : State :=
  { s with regs := s.regs.filter (fun e => decide (e.1 / 65536 ≠ w) || keep (e.1 % 65536)) }

/-- The mode a port map gives port n at reset (R531). -/
def portMapMode (map n : Nat) : Nat :=
  let p := n % 8
  let by400 := if p % 4 = 0 then 5 else 0
  match map with
  | 0 => 3
  | 1 => if p % 2 = 0 then 4 else 0
  | 2 => by400
  | 3 => if p = 0 then 6 else 0
  | 4 => 2
  | 5 => 1
  | 6 => if n < 16 then by400 else 3
  | _ => 0

/-- PORT_CFG.mode of port n takes its reset value under the latched straps (R340). -/
def State.resetMode (s : State) (n : Nat) : State :=
  s.setRf (portWin n) 0x100 31 28 (portMapMode (bitsOf s.board.latched 6 4) n)

/-! ### Packets and outputs dropped with UNIT_RESET (R23) -/

/-- A packet ahead of Kettle is dropped against a tenant; one whose frame still arrives is reported when its length is known. -/
def State.resetPacket (s : State) (pid tenant : Nat) (p : Packet) : State :=
  let mine := fun (f : RxFrame) => f.pid == some pid
  match (s.port p.port).rx.find? mine with
  | some f =>
    if f.whole then (s.setRxHead p.port mine none).dropPacket pid tenant 60
    else (s.setRxHead p.port mine (some { f with pid := none, refused := some 60 })).endPacket pid
  | none => s.dropPacket pid tenant 60

/-- The packets that hold a property are dropped, each against the tenant it belongs to (R42). -/
def State.resetPackets (s : State) (which : Packet → Bool) (tenant : State → Packet → Nat) : State :=
  (s.packets.filter (fun e => which e.2)).foldl (fun (s : State) e => s.resetPacket e.1 (tenant s e.2) e.2) s

/-- A packet that a reset of its Tedder lane drops counts there (R75): as parsed if its parse had begun, with what its record says if its frame is
complete (DEDUCED, log 105). -/
def State.countLost (s : State) (p : Packet) : State :=
  match p.parse with
  | some w => s.countParsed p.port w (if p.complete then w.finish p.bytes false else ⟨w.record, none, false, 0⟩) true
  | none => s.count tedderWin (0x1010 + 0x20 * p.port)

/-- The packets of a Tedder lane are dropped, and counted. -/
def State.tedderLaneDown (s : State) (n : Nat) : State :=
  let mine (p : Packet) : Bool := (p.place == .rx || p.place == .parsed) && laneOf p.port == n
  ((s.packets.filter (fun e => mine e.2)).foldl (fun (s : State) e => s.countLost e.2) s).resetPackets mine (fun s p => s.defaultTenant p.port)

/-- The tenant a packet in a Windrow lane belongs to: its port's default one until its classification begins (R42). -/
def State.laneTenant (s : State) (p : Packet) : Nat := if p.place = .handed then s.defaultTenant p.port else mdTenant p.md

/-- The packets of a Windrow lane, or those of them that hold a property, are dropped. -/
def State.windrowLaneDown (s : State) (n : Nat) (which : Packet → Bool) : State :=
  (s.windrowLane n).foldl (fun (s : State) pid => match s.packet pid with
    | some p => if which p then (s.leaveLane pid p).dropPacket pid (s.laneTenant p) 60 else s
    | none => s) s

/-- The packet at a Kettle lane's intake is dropped. -/
def State.kettleLaneDown (s : State) (n : Nat) : State :=
  match SMap.find s.kettle.intake n with
  | none => s
  | some i =>
    let s1 := s.modKettle (fun k => { k with intake := SMap.erase k.intake n })
    let s2 := if i.mirror.isSome then s1.releaseRef i.pid else s1
    match i.alive, s2.packet i.pid with
    | true, some p => s2.dropPacket i.pid (mdTenant p.md) 60
    | _, _ => s2

/-- A thread loses the task it holds without a drop of its own. -/
def State.stripTask (s : State) (t : Nat) : State :=
  match s.heldTask t with
  | some (k, _) => ((s.endTask k).modThread t Thread.noTask).cleanJoins
  | none => s

/-- A position is dropped and ends at once: Kettle treats it as released (R23, R170). -/
def State.endPosition (s : State) (k : Nat) : State :=
  let s1 := s.dropPos k 60
  match s1.position k with
  | none => s1
  | some p =>

    let s2 := s1.modKettle (fun x => { x with positions := SMap.erase x.positions k, releaseQ := x.releaseQ.filter (· ≠ k) })
    let s3 := s2.setTokensOf p.tenant (s2.tokensOf p.tenant - 1)
    let s4 := (p.nodeDrops ++ p.dropped.toList).foldl (fun (s : State) d => s.reportDropFlow p.md p.tenant p.ts d p.len) s3
    let s5 := p.outputs.foldl (fun (s : State) d => s.tellOutDrop d (s.outLen d) 60) s4
    let s6 := if p.mirror.isSome then s5.releaseRef p.pid else s5
    if p.ownRef then s6.endPacket p.pid else s6

/-- RESET or failure of the Kettle group: every position and task is dropped, and the affinity map is empty (R170). -/
def State.kettleDown (s : State) : State :=
  let s1 := (s.kettle.positions.map (·.1)).foldl (fun (s : State) k => s.dropPos k 60) s
  let s2 := (s1.threads.map (·.1)).foldl State.stripTask s1
  let s3 := (s2.kettle.positions.map (·.1)).foldl State.endPosition s2
  s3.modKettle (fun k => { k with tasks := [], taskCount := [], affinity := [] })

/-- The outputs that Drover holds are dropped, those handed over and not yet placed and those queued, which empties the rings (R23, R338);
what it has handed to Finisher is Finisher's. -/
def State.droverEmpty (s : State) : State :=
  let s1 := s.drover.handed.foldl (fun (s : State) d => s.droverDrop d.2 (s.outLen d.2) 60) (s.modDrover (fun d => { d with handed := [] }))
  (s1.drover.queues.map (·.1)).foldl (fun (s : State) q => s.flushQueue q 60) s1

/-- RESET of the Drover group: it is emptied, every bucket and policer is full, and the statistics are zero (R338); no received pause runs,
as its registers show (R9). -/
def State.droverReset (s : State) : State :=
  let now := s.time.ns.toNat
  let full (e : Nat × BitVec 256) : Nat × NodeDyn :=
    (e.1, { dynReset e.1 with applied := e.2, cTok := burstTok (entBits e.2 147 128), pTok := burstTok (entBits e.2 179 160), last := now })
  let s1 := s.droverEmpty.modDrover (fun d => { d with
    stats := [], dyn := d.nodes.map full, pol := d.policers.map (fun e => (e.1, ⟨polCbs e.2, polPbs e.2, now⟩)) })
  (List.range 32).foldl (fun (s : State) n => let p := s.port n; s.setPort n { p with pauseEnd := [], pauseSince := [] }) s1

/-- The outputs queued for the ports of a Drover lane are dropped. -/
def State.droverLaneDown (s : State) (n : Nat) : State :=
  ((s.drover.queues.map (·.1)).filter (fun q => laneOf (s.queuePort q) == n)).foldl (fun (s : State) q => s.flushQueue q 60) s

/-- A frame in the MAC of a port is lost (R23, R509): one in admission leaves Loft, one not admitted is dropped; one refused before and still
arriving is reported under its own reason, for as long as it got. -/
def State.loseFrame (s : State) (n : Nat) (f : RxFrame) : State :=
  let lost (s : State) : State := s.reportDrop (s.defaultTenant n) f.ts 60 f.bytes.length
  match f.pid, f.refused with
  | some pid, _ => lost (s.endPacket pid)
  | none, some d => if d = 64 ∨ d = 65 then lost s else s.reportArrived n d f false
  | none, none => (lost s).frameSent f 6

/-- The frames in the MAC of a port are lost, with the MAC Control frames it was to send. -/
def State.macDown (s : State) (n : Nat) : State :=
  let s1 := (s.port n).rx.foldl (fun (s : State) f => s.loseFrame n f) s
  let p := s1.port n
  (s1.setPort n { p with rx := [], ctl := [] }).updatePortXoff n

/-- A port leaves service by RESET, STOP or failure (R344, R349): its pauses end, its outputs at Finisher are discarded. -/
def State.portDown (s : State) (n : Nat) (empty : Bool) : State :=
  let s1 := (List.range 8).foldl (fun (s : State) q => s.endPause n q) (s.macDown n)
  let s2 := s1.discardPort n 56
  let s3 := if s2.linkUp n then ((s2.setRf (portWin n) 0x104 2 0 0).setEvent (portWin n) 0x180 0).count (portWin n) 0x238 else s2
  if empty then let p := s3.port n; s3.setPort n { p with sas := [] } else s3

/-! ### Loft (R316) -/

/-- Whether RESET of Loft keeps a register (R316). -/
def loftKeeps (off : Nat) : Bool :=
  decide (0x100 ≤ off ∧ off < 0x600) || decide (off = 0x600) || decide (0x640 ≤ off ∧ off < 0x1800) || decide (0x2000 ≤ off)

/-- Every packet is dropped with UNIT_RESET, wherever it is, and every pool is rebuilt (R316): the cells are gone first, so no free or XOFF
frame comes of it; what still names a packet keeps only its identity. A frame that waits in its port is no packet yet, and stays. -/
def State.loftDown (s : State) : State :=
  let s1 := { s with packets := s.packets.map (fun (e : Nat × Packet) => (e.1, { e.2 with handle := none })) }
  let s2 := s1.modLoft (fun l => { l with cells := [], poolStacks := [], usage := [], used := [], deferred := [], former := [] })
  let s3 := s2.resetPackets (fun p => p.place == .rx || p.place == .parsed) (fun s p => s.defaultTenant p.port)
  let s4 := (List.range 4).foldl (fun (s : State) n => (s.windrowLaneDown n (fun _ => true)).kettleLaneDown n) s3
  let s5 := s4.resetPackets (fun p => p.place == .handed || p.place == .laneOut || p.place == .classifying) (fun _ p => mdTenant p.md)
  let s6 := (s5.kettle.positions.map (·.1)).foldl (fun (s : State) k => (s.dropPos k 60).dropReleasing k 60) s5
  let s7 := (s6.drover.outs.filter (fun e => decide (e.2.place ≠ .queued) && e.2.holdsCells)).foldl
    (fun (s : State) e => s.finisherDrop e.1 e.2 60) s6.droverEmpty
  let named (pid : Nat) : Bool := s7.kettle.positions.any (fun e => e.2.pid == pid)
  { s7 with packets := (s7.packets.filter (fun (e : Nat × Packet) => named e.1)).map (fun (e : Nat × Packet) => (e.1, { e.2 with place := .gone })) }

/-! ### Leaves and Quires (R155, R509 to R512) -/

/-- A thread of a Leaf that starts, is reset or fails: as a thread reset (R210), but it does not run yet. -/
def State.threadDown (s : State) (t : Nat) : State :=
  if s.thread t = Thread.zero then s
  else
    let s1 := s.resetThread t true 0
    s1.setThread t { s1.thread t with started := false, halted := false, pc := 0, evec := 0, notBefore := 0 }

/-- The threads of a Leaf are reset: its tasks are lost (R23, R511, R512). -/
def State.leafDown (s : State) (leaf : Nat) : State := (List.range 8).foldl (fun (s : State) k => s.threadDown (8 * leaf + k)) s

/-- The supervisor's pending entry is forgotten, with what its Quire holds. -/
def State.forgetNmi (s : State) (q : Nat) : State := s.modThread (s.supOf q) (fun th => { th with nmi := false })

/-- The image kinds that a Gathering accepts (R178, R416, R429 and the chapters). -/
def acceptsKind (w k : Nat) : Bool :=
  match kindOf w with
  | 0x03 => k == 1 || k == 2 || k == 3 || k == 6
  | 0x04 => k == 3
  | 0x09 => k == 3
  | 0x0B => k == 3
  | 0x0D => k == 3
  | 0x0E => k == 3
  | 0x10 => k == 5
  | 0x18 => k == 3
  | 0x1A => k == 3
  | 0x1F => k == 4
  | _ => false

/-- The image that the update slot of a Gathering names, by its handle. -/
def State.slotImage (s : State) (w : Nat) : Option Image := s.staged (s.rf w 0x30 15 0)

/-- What R542 finds of the image in the update slot: the value of UCB_UPDATE_STATUS. -/
def State.slotStatus (s : State) (w : Nat) : Nat :=
  let k := s.rf w 0x30 31 24
  if !acceptsKind w k then 2
  else match s.slotImage w with
    | none => 3
    | some i => if i.kind ≠ k then 3 else if !s.loadOk i then 4 else if s.rolledBack w i then 5 else 1

/-- What R542 finds of the images that START reloads: those of a kind that the slot does not replace; a parse graph stays in its banks
(R545). -/
def State.reloadStatus (s : State) (w : Nat) : Nat :=
  let k := s.rf w 0x30 31 24
  let run := (s.heldOf w).filter (fun e => decide (e.1 ≠ k) && decide (e.1 ≠ 5))
  if run.any (fun e => !s.loadOk e.2) then 4 else if run.any (fun e => s.rolledBack w e.2) then 5 else 0

/-- What R542 finds at a START: 0 where it writes nothing. Where the slot's image is refused and a reload fails too, the slot's status is
written; where two reloads fail with 4 and with 5, it is 4 (DESIGN CHOICE, log 47). -/
def State.startStatus (s : State) (w : Nat) : Nat :=
  let slot := if s.rf w 0x30 31 24 = 0 then 0 else s.slotStatus w
  if slot ≤ 1 ∧ s.reloadStatus w ≠ 0 then s.reloadStatus w else slot

/-- The lines that a Gathering that starts or updates reads from the staging store: those of the images it runs, but for a parse graph that
stays in its banks (R545), or of the image in its slot (R474, R542). -/
def State.loadLines (s : State) (w : Nat) : Nat :=
  let g := s.gathOf w
  if g.own = .updating then (if s.slotStatus w = 1 ∨ s.slotStatus w = 4 then ((s.slotImage w).map Image.lines).getD 0 else 0)
  else sumOf ((s.runningOf w).filter (fun e => decide (e.1 ≠ 5) || (decide (g.found = 1) && decide (s.rf w 0x30 31 24 = 5)))) (fun e => e.2.lines)

/-- The images that START gives a Gathering: those it holds that load, with the one of the update slot in place of its kind (R19, R474). -/
def State.startImages (s : State) (w : Nat) : List (Nat × Image) :=
  let k := s.rf w 0x30 31 24
  let run := (s.heldOf w).filter (fun e => s.loadOk e.2 && !s.rolledBack w e.2)
  match s.slotImage w with
  | some i => if k ≠ 0 ∧ s.slotStatus w = 1 then run.filter (fun e => e.1 ≠ k) ++ [(k, i)] else run
  | none => run

/-- Words put into a sparse table. -/
def putWords {α : Type} [DecidableEq α] (zero : α) (m : SMap α) (ws : List (Nat × α)) : SMap α :=
  ws.foldl (fun (m : SMap α) e => SMap.set (fun _ => zero) m e.1 e.2) m

/-- START of a Quire (R511): its stores are reloaded, its contexts reset, its shared memory zeroed where it comes from OFF, and the save
areas in any case (R265). -/
def State.quireStart (s : State) (q : Nat) (fromOff : Bool) : State :=
  let w := quireWin q
  let imgs := s.startImages w
  let pick (k : Nat) : Option Image := (imgs.find? (fun e => e.1 == k)).map (·.2)
  let x := s.quire q
  let shared := if fromOff then [] else x.shared.filter (fun c => decide (c.1 < 0x3A0000) || decide (0x3FF000 ≤ c.1))
  let patch := (pick 2).map (fun i => Config.microcode 2 i.payload)
  let owner := (pick 6).map (fun i => Config.microcode 6 i.payload)
  let sheet := (pick 1).map (fun i => Config.sheetSet i.payload)
  let words (lo hi : Nat) (l : List (Nat × Word32)) : List (Nat × Word32) := l.filter (fun e => decide (lo ≤ e.1) && decide (e.1 < hi))
  let x1 : QuireSt := { x with
    entries := sheet.map (·.2), shared := shared,
    program := putWords (0 : Word32) [] ((sheet.map (·.1)).getD []),
    patch := putWords (0 : Word32) [] (words 0x4000 0x4200 ((patch.map (·.1)).getD [])),
    owner := putWords (0 : Word32) [] (words 0x8000 0x8800 ((owner.map (·.1)).getD [])),
    resident := [], pins := [], switchQ := [], claspQ := [] }
  let s0 := ((s.setQuire q x1).eccClear w 1).eccClear w 2
  let s1 := (if fromOff then s0.eccClear w 0 else s0.eccWrite w 0 0x3A0000 0x5F000).microDefaults w ((pick 2).map (fun i => i.version))
  let s2 := ((patch.map (·.2)).getD []).foldl (fun (s : State) e => s.patchReg w e.1 e.2) s1
  let s3 := ((owner.map (·.2)).getD []).foldl (fun (s : State) e => s.ownerReg w e.1 e.2) s2
  (List.range 72).foldl (fun (s : State) c => if s.thread (ctxThread q c) = Thread.zero then s else s.cpReset (ctxThread q c)) s3

/-! ### Memory channels (R400, R418) -/

/-- The bytes of a memory that a channel holds are lost, those of Loft's cells and of their metadata words among them (R300, R400): what lay
there reads as memory that nothing has written. -/
def State.channelLost (s : State) (w : Nat) : State :=
  let here (a : Nat) : Bool := (s.bmMap a).any (fun p => decide (p.win = w))
  let inTable (c : Host.Cell) : Bool := decide (317 ≤ w) && decide (c.1 / 2 ^ 38 = w - 317)
  let lostMeta (ptr : Nat) : Bool := decide (0x80000000 ≤ ptr) && here (s.metaAddr ptr)
  let s1 := s.modMem (fun m => { m with buffer := m.buffer.filter (fun c => !here c.1), table := m.table.filter (fun c => !inTable c) })
  let s2 := s1.modLoft (fun l => { l with cells := l.cells.filter (fun e => !lostMeta e.1) })
  (s2.eccForget w 0).eccForget w 1

/-- A channel's queues and timers start anew; it is not in self-refresh. -/
def State.channelFresh (s : State) (w : Nat) : State :=
  ((schedsOf w).foldl (fun (s : State) k => s.setSched k (schedReset k)) s).setChan w
    { s.chan w with selfRefresh := none, idleSince := s.time.cycles }

/-- A row repaired: its content is undefined (R418), so every byte of its 128 lines, which bits 16:10 of the channel address number (R383), is
free. -/
def State.rowUndefined (s : State) (w addr : Nat) : State :=
  let base := addr - 1024 * bitsOf addr 16 10 - bitsOf addr 5 0
  ((List.range 128).map (fun i => base + 1024 * i)).foldl (fun (s : State) a =>
    (s.modMem (fun m => { m with table := Memory.writeBytes m.table (tableCell w a) (leBytes 64 s.freeBits) })).stepFresh) s

/-- One entry of the soft repair record that names a Gathering (R417, R418): a spare is mapped over the address, a row of table memory is
repaired, a row of buffer memory is only recorded. -/
def State.applyRepair (s : State) (e : RepairEntry) : State :=
  let cls := s.memClass e.win e.inst
  let note (s : State) (e : RepairEntry) : State :=
    s.modMower (fun m => { m with repaired := m.repaired.filter (fun r => !e.same r) ++ [e] })
  if 4 ≤ e.kind then s
  else if e.kind = 3 then note s e
  else if e.kind = 2 then
    if e.info.testBit 1 then s
    else
      let hard := e.info.testBit 0 && s.freeBits.testBit 0
      let s1 := (s.stepFresh).rowUndefined e.win e.addr
      (note s1 { e with info := if hard then 3 else e.info }).modMower (fun m => { m with
        errs := m.errs.filter (fun x => !(x.win == e.win && (s.decodeRow e.win 0 x.addr == s.decodeRow e.win 0 e.addr))) })
  else if s.mower.repaired.any (fun r => e.same r && !r.info.testBit 2) then s
  else if s.sparesLeft e.win e.inst (s.macroAt e.win e.inst e.addr) e.kind = 0 then note s { e with info := e.info % 4 + 4 }
  else
    (note s { e with info := e.info % 4 }).modMower (fun m => { m with
      errs := m.errs.filter (fun x => !(x.win == e.win && x.inst == e.inst && x.addr / codeBytes cls == e.addr / codeBytes cls)) })

/-- SOFT_REPAIR_APPLY, HARD_PPR: a Gathering applies the entries of its record that name it. -/
def State.applyRecord (s : State) (w : Nat) : State :=
  match ((s.startImages w).find? (fun e => e.1 == 3)).map (·.2) with
  | some i => (i.repairs.filter (fun e => e.win == w)).foldl State.applyRepair s
  | none => s

/-! ### Spine and the PCIe functions (R432, R436, R495) -/

/-- The event status and masks of what is routed to a function (R436). -/
def State.forgetEvents (s : State) (f : Nat) : State :=
  (List.range 1024).foldl (fun (s : State) k =>
    if s.evRoute k 31 30 = 2 ∧ s.evRoute k 29 24 = f then (s.setEvStatus k false).setEvMask k true else s) s

/-- What queue pairs have under way goes on no more: their requests of memory, and what frames on their way into Loft answer to. -/
def State.forgetPairs (s : State) (which : Nat → Bool) : State :=
  let s1 := s.modMem (fun m => { m with waiting := m.waiting.filter (fun (e : Nat × List MemReq) => decide (e.1 < 8192) || !which (e.1 - 8192)) })
  let p := s1.port 32
  s1.setPort 32 { p with rx := p.rx.map (fun x => match x.qp with
    | some y => if which y.1 then { x with qp := none } else x
    | none => x) }

/-- The queue pairs of a function are disabled, their descriptors and posts abandoned. -/
def State.disablePairs (s : State) (f : Nat) : State :=
  let sups := s.qps.filter (fun e => decide (e.2.owner = some f) && decide (e.2.kind = 3))
  let drop (s : State) (t : Nat) : State := s.modThread t (fun th => { th with ops := th.ops.filter (fun o => o.kind ≠ .dma), orphans := [] })
  let s1 := (s.threads.filter (fun e => sups.any (fun x => decide (x.2.quire = tidQuire e.1)))).foldl (fun (s : State) e => drop s e.1) s
  let s2 := s1.forgetPairs (fun q => decide ((s.qp q).owner = some f))
  s2.modQps (fun m => m.map (fun e => if e.2.owner = some f then (e.1, { QpSt.zero with owner := some f }) else e))

/-- What a reset of a function does (R436): its commands are discarded without a response, its mailbox and queue pairs disabled, its locks
freed, its events cleared and masked, its MSI-X vectors masked. Its binding, windows, queue pairs and credits are kept. -/
def State.functionReset (s : State) (f : Nat) : State :=
  let x := s.func f
  let s1 := s.setFunc f { funcReset f with bound := x.bound, credits := x.credits, windows := x.windows }
  (((s1.disablePairs f).depart (portWord f)).setStilePort f []).forgetEvents f

/-- The reset of the PCIe endpoint: of every function, and of its link (R495). -/
def State.endpointReset (s : State) : State :=
  ((List.range 64).foldl State.functionReset s).modSpine (fun x => { x with link := false })

/-- RESET of the device Gathering: Fallow stops where it is, and what it owns for the functions takes its reset value (R495, R504). -/
def State.deviceDown (s : State) : State :=
  let s1 := (s.modFallow (fun _ => ⟨[], [], [], [], [], [], false, (0, 0, 0)⟩)).modBoard (fun b =>
    { b with gpio := b.gpio.map (fun (e : Nat × GpioSt) => (e.1, { GpioSt.zero with level := e.2.level, since := s.time.cycles })) })
  let s2 := (List.range 64).foldl (fun (s : State) f =>
    s.setFunc f { s.func f with bound := none, windows := [], credits := (funcReset f).credits }) s1
  (s2.forgetPairs (fun _ => true)).modQps (fun _ => [])

/-! ### Each unit -/

/-- The memory instances (window, instance) that RESET of a Gathering writes whole. -/
def resetInstances (w : Nat) : List (Nat × Nat) :=
  match kindOf w with
  | 0x03 => [(w, 0), (w, 1), (w, 2)]
  | 0x0C => (windows 330 66).flatMap (fun b => [(b, 0), (b, 1)])
  | 0x0D => [(w, 0), (w, 1)]
  | 0x0E => [(w, 0)]
  | 0x10 => [(w, 0)]
  | 0x12 => [(w, 0), (w, 1)]
  | 0x14 => [(w, 0)]
  | 0x16 => [(w, 0)]
  | 0x18 => [(w, 1)]
  | 0x1A => [(w, 0), (w, 1)]
  | _ => []

/-- What a Gathering loses by RESET or by a failure (R23): the packets, outputs and tasks it holds. `reset`: it is RESET (or STOP), and the
unit's own stores go too (R9 and the chapters). -/
def State.unitDown (s : State) (w : Nat) (reset : Bool) : State :=
  let s := if reset then (resetInstances w).foldl (fun (s : State) i => s.eccClear i.1 i.2) s else s
  match kindOf w with
  | 0x01 => if reset then s.deviceDown else s
  | 0x03 =>
    let q := w - 5
    if reset then (s.setQuire q { QuireSt.zero with sup := (s.quire q).sup }).forgetNmi q
    else (List.range 9).foldl (fun (s : State) l => s.leafDown (9 * q + l)) s
  | 0x04 => s.leafDown (w - 29)
  | 0x06 => s.portDown (w - 249) reset
  | 0x08 => s.endPanic (w - 282)
  | 0x09 => (if reset then s.channelLost w else s).channelFresh w
  | 0x0B => (if reset then s.channelLost w else s).channelFresh w
  | 0x0C => if reset then ((s.setHeld 0 2 0 0).setHeld 3 2 0 0).modLing (fun l => { l with rows := [], acts := [], blocks := [], lost := [], copying := [] }) else s
  | 0x0D =>
    let lo := 4096 * (w - 330)
    if reset then s.modLing (fun l => { l with rows := l.rows.filter (fun e => !(decide (lo ≤ e.1) && decide (e.1 < lo + 4096))),
                                               acts := l.acts.filter (fun e => !(decide (lo ≤ e.1) && decide (e.1 < lo + 4096))) }) else s
  | 0x0E => if reset then s.warrenReset else s
  | 0x0F =>
    let e := w - 397
    ((List.range 4).foldl (fun (s : State) n => s.windrowLaneDown n (fun p => p.atEngine && decide (p.engine = some e))) s).warrenAbort e reset
  | 0x10 => if reset then s.modTedder (fun t => { t with bank0 := [], bank1 := [], seenActive := false, loadWaiting := none, frags := [] }) else s
  | 0x11 => s.tedderLaneDown (w - 402)
  | 0x12 => if reset then s.windrowReset else s
  | 0x13 => s.windrowLaneDown (w - 407) (fun _ => true)
  | 0x14 => s.kettleDown
  | 0x15 => s.kettleLaneDown (w - 412)
  | 0x16 => if reset then s.droverReset else s.droverEmpty
  | 0x17 => s.droverLaneDown (w - 417)
  | 0x18 => s.loftDown
  | 0x19 => (List.range 36).foldl (fun (s : State) n => s.discardPort n 60) s
  | 0x1A =>
    if reset then s.modSheaf (fun _ => ⟨[], [], false, minuteUnder 0x25 s.time.ns.toNat, 1, 0x25, [], none, [], none, [], [], 0⟩)
    else s
  | 0x1B => s.stileReset
  | 0x1D =>
    if reset then s.modMower (fun m => { m with logs := [], summary := [], hardQueue := [], lapStart := [], lapLate := [], lapSeen := [], back := [] })
    else s.modMower (fun m => { m with back := [] })
  | 0x1E => s.endpointReset
  | 0x1F => (s.spineRestarts).modSpine (fun x => { x with up := false, leaving := none, sram := if reset then [] else x.sram })
  | 0x20 => if reset then (s.modTime (fun t => { t with slewHalf := 0 })).selectSource else s
  | _ => s

/-- The registers of a Gathering take their reset values, as its chapter says. -/
def State.unitRegs (s : State) (w : Nat) : State :=
  let s1 := s.resetRegs w (fun off => (kindOf w = 0x18 && loftKeeps off) || (kindOf w = 0x0F && off = 0x1A8))
  match kindOf w with
  | 0x06 => s1.resetMode (w - 249)
  | 0x1A => s1.showSheaf
  | 0x20 => s1.showTime
  | _ => s1

/-- What depends on a Gathering's state looks at it again: descriptors bound to Leaves (R155), rings (R328), XOFF (R310), and work that
waited for it. -/
def State.unitChanged (s : State) (w : Nat) : State :=
  match kindOf w with
  | 0x03 => if s.inService w then s else s.rebind (fun t => decide (t.leaf.map (· / 9) = some (w - 5)))
  | 0x04 => if s.inService w then s else s.rebind (fun t => decide (t.leaf = some (w - 29)))
  | 0x06 => (s.settlePort (w - 249)).settleLock (w - 249)
  | 0x09 => if s.inService w then s.undefer else s
  | 0x0C => s.lingRetry
  | 0x0D => s.lingRetry
  | 0x0E => s.warrenRetry
  | 0x0F => s.warrenRetry
  | 0x18 => s.updateAllXoff
  | 0x19 => s.settlePorts
  | 0x1B => if s.inService w then s.stileServeHeld else s
  | 0x1C => if s.inService w then s else s.floorTokens
  | _ => s

/-- The DIMMs in the sockets of a table memory channel; those that the model has at reset are two of two ranks of 32 Gb devices at 6400 MT/s,
without directed refresh management (log 9). -/
def dimmsReset (_ : Nat) : List Dimm := List.replicate 2 ⟨true, 32, 2, false, 6400, false⟩
def State.dimmsOf (s : State) (w : Nat) : List Dimm := SMap.get dimmsReset s.board.dimms (w - 317)

/-- Whether a DIMM is one that R379 accepts, and whether two of a channel are identical in what they hold. -/
def Dimm.accepted (d : Dimm) : Bool :=
  d.x4 && !d.stacked && (d.density == 16 || d.density == 32) && (d.ranks == 1 || d.ranks == 2)
    && (d.speed == 6400 || d.speed == 5600 || d.speed == 4800)
def dimmsAccepted (ds : List Dimm) : Bool :=
  decide (ds.length ≤ 2) && ds.all Dimm.accepted && ds.all (fun d => ds.all (fun e => d.density == e.density && d.ranks == e.ranks))

/-- What TMC_CH_STATUS reports of the DIMMs read at STARTING (R379): the capacity, 2 GiB for each Gb of a device's density and rank; the
slowest grade; the geometry; directed refresh management where every device supports it. -/
def dimmStatus (ds : List Dimm) : Word32 :=
  let gib := sumOf ds (fun d => 2 * d.density * d.ranks)
  let grade := if ds.any (fun d => d.speed == 4800) then 2 else if ds.any (fun d => d.speed == 5600) then 1 else 0
  let one := ds.headD ⟨true, 0, 0, false, 0, false⟩
  if ds = [] ∨ !dimmsAccepted ds then 0
  else BitVec.ofNat 32 (gib * 2 ^ 23 + grade * 2 ^ 16 + ds.length * 2 ^ 12 + one.ranks * 2 ^ 10 + bit (one.density == 32) * 2 ^ 9
    + bit (ds.all Dimm.drfm) * 2 ^ 8)

/-- The table memory channels that have no DIMM are ABSENT (R379). -/
def State.absentChannels (s : State) : State :=
  (windows 317 12).foldl (fun (s : State) w => if s.dimmsOf w = [] then s.setGath w { s.gathOf w with own := .absent } else s) s

/-- Whether a Gathering has what it needs to start: a table memory channel, DIMMs that R379 accepts. -/
def State.equipped (s : State) (w : Nat) : Bool :=
  !(kindOf w == 0x0B) || (!(s.dimmsOf w).isEmpty && dimmsAccepted (s.dimmsOf w))

/-- START of a Gathering, as it enters STARTING. -/
def State.unitStart (s : State) (w : Nat) (fromOff : Bool) : State :=
  let s1 := (if kindOf w = 0x0B then s.setReg w 0x100 (dimmStatus (s.dimmsOf w)) else s).applyRecord w
  match kindOf w with
  | 0x03 => s1.quireStart (w - 5) fromOff
  | 0x04 => s1.leafDown (w - 29)
  | 0x09 => (s1.channelFresh w).reseed w
  | 0x0B => (s1.channelFresh w).reseed w
  | _ => s1

/-- A Gathering enters IN_SERVICE after START: threads begin (R175), graphs stand in both banks (R545), laps begin. -/
def State.unitServe (s : State) (w : Nat) (slot : Option Image) : State :=
  match kindOf w with
  | 0x04 => (List.range 8).foldl (fun (s : State) k => s.startThread (8 * (w - 29) + k) false 0) s
  | 0x10 => match slot with
    | some i => if i.kind = 5 then s.loadBothBanks i.payload else s
    | none => s
  | 0x1D => s.lapsBegin
  | 0x1F => s.modSpine (fun x => { x with up := true, rom := false })
  | _ => s

/-- Whether Drover holds an output: one handed over by Kettle, or queued. A lane that drains with the group goes on serving while it does
(R338). -/
def State.droverHolds (s : State) : Bool := !s.drover.handed.isEmpty || s.drover.outs.any (fun e => e.2.place == .queued)

/-- Whether all work in flight in a Gathering's own logic has completed (R22, and the chapters' rules for QUIET). -/
def State.workDone (s : State) (w : Nat) : Bool :=
  match kindOf w with
  | 0x03 => (s.boundOf w).all (fun m => decide ((s.gathOf m).own = .quiet)) && (s.quire (w - 5)).claspQ.isEmpty
      && s.threads.all (fun e => decide (tidQuire e.1 ≠ w - 5) || !e.2.micro)
  | 0x04 =>
    (List.range 8).all (fun k =>
      let t := 8 * (w - 29) + k
      s.isSup t || ((s.thread t).task.isNone && (s.thread t).ops.isEmpty))
  | 0x06 => (s.port (w - 249)).rx.isEmpty && (s.port (w - 249)).ctl.isEmpty && (s.heldOutputs (w - 249)).isEmpty
  | 0x09 => (schedsOf w).all (fun k => (s.sched k).queue.isEmpty) && s.nrrDone w
  | 0x0B => (schedsOf w).all (fun k => (s.sched k).queue.isEmpty) && s.nrrDone w
  | 0x0C => s.ling.blocks.all (fun e => e.2.all (·.late))
  | 0x0E => s.warren.learns.isEmpty && s.warren.blocks.all (fun e => e.2.all (·.engine.isNone))
  | 0x0F =>
    let e := some (w - 397)
    s.warren.blocks.all (fun q => q.2.all (fun j => decide (j.engine ≠ e))) && s.warren.threads.all (fun q => q.2.all (fun j => decide (j.engine ≠ e)))
      && s.packets.all (fun k => !(k.2.atEngine && decide (k.2.engine = e)))
  | 0x11 => s.packets.all (fun e => !((e.2.place == .rx || e.2.place == .parsed) && laneOf e.2.port == w - 402))
  | 0x13 => (s.windrowLane (w - 407)).isEmpty
  | 0x14 => s.kettle.positions.isEmpty && s.kettle.tasks.isEmpty
  | 0x15 => (SMap.find s.kettle.intake (w - 412)).isNone
  | 0x16 => !s.droverHolds
  | 0x17 => decide (s.laneInFinisher (w - 417) = 0) && !(s.drainsWithGroup (w - 417) && s.droverHolds)
  | 0x18 => s.loft.cells.all (fun e => !e.2.alloc)
  | 0x19 => s.drover.outs.all (fun e => decide (e.2.place = .queued))
  | 0x1A => s.sheaf.prev.all (fun p => !p.frozen)
  | 0x1E => (List.range 64).all (fun f => (s.func f).taken.isEmpty) && s.qps.all (fun e => e.2.descs.all (fun d => d.rx && d.ended.isNone))
      && (List.range 24).all (fun q => (s.thread (s.supOf q)).orphans.isEmpty && (s.thread (s.supOf q)).ops.all (fun o => decide (o.kind ≠ .dma)))
  | _ => true

end Sys2Proof.Machine
end

