-- ==== Sys2Proof/Machine/Gather.lean ====
section
/-! DEFINITION. The unit control block's commands, and what ends them (01, R17 to R27, R539, R540, R542; 20, R509 to R520). -/

namespace Sys2Proof.Machine

/-- The code of a command in UCB_CTRL. -/
def UcbCmd.code : UcbCmd → Nat
  | .start => 1 | .drain => 2 | .stop => 3 | .reset => 4 | .update => 5 | .resume => 6 | .bindSpare => 7

/-- Whether the AON domain still counts the 1,024 cycles of SYS_CLK_25M that follow its power-good: its clock glitch detector is not armed yet (R528;
log 116). -/
def State.counting (s : State) : Bool := decide (s.time.cycles < s.board.countEnd)

/-- Whether every Gathering is held in reset: the AON domain counts (R528), VDD_CORE, VDD_SRAM or VDD_AON is not good (R493, R494), no straps are latched yet (R496), the
thermal trip holds (R536), or STRAP_TEST was latched high (R497). -/
def State.heldInReset (s : State) : Bool :=
  !(s.board.railsGood.getD 0 false && s.board.railsGood.getD 1 false && s.board.railsGood.getD 7 false) || s.board.unlatched || s.board.trip || s.board.latched.testBit 8
    || s.counting

/-- Whether the rail that a Gathering runs on beside the core's is good (R494). -/
def State.railOk (s : State) (w : Nat) : Bool :=
  let g := fun (r : Nat) => s.board.railsGood.getD r false
  match kindOf w with
  | 0x05 => g 2 && g 3
  | 0x06 => g 2 && g 3
  | 0x1E => g 2 && g 3
  | 0x09 => g 4
  | 0x0B => g 5
  | _ => true

/-! ### UCB_CMD_STATUS (R540) -/

/-- Whether a Gathering's latest accepted command is in progress, and whether one of its ancestors' is (R20). -/
def State.busy (s : State) (w : Nat) : Bool := (s.gathOf w).cmd.isSome
def State.ancestorBusy (s : State) (w : Nat) : Bool := (ancestorsOf w).any s.busy

/-- A command is refused: 1 REFUSED_STATE, 2 BUSY, 3 LOCKED (R540). -/
def State.refuseCmd (s : State) (w : Nat) (c : UcbCmd) (result : Nat) : State :=
  let v := s.reg w 0x18
  s.setReg w 0x18 (putFld (putFld (putFld v 27 24 c.code) 23 16 result) 15 0 (min 0xFFFF (fld v 15 0 + 1)))

/-- A command is accepted; `aborted`: it is a RESET that ended another (R540). -/
def State.acceptCmd (s : State) (w : Nat) (c : UcbCmd) (aborted : Bool) : State :=
  s.setReg w 0x18 (putFld (putFld (putFld (s.reg w 0x18) 27 24 c.code) 23 16 0) 30 30 (bit aborted))

/-- The result of the latest command: 4 PARTIAL, 5 ABORTED. -/
def State.setResult (s : State) (w result : Nat) : State := s.setRf w 0x18 23 16 result

/-- A Gathering's command in progress, set and ended. -/
def State.setCmd (s : State) (w : Nat) (c : Option UcbCmd) : State := s.setGath w { s.gathOf w with cmd := c }

/-- Whether every bound member of a Gathering is QUIET (R27); one that is ABSENT has nothing to drain (log 46). -/
def State.membersQuiet (s : State) (w : Nat) : Bool :=
  (s.boundOf w).all (fun m => decide ((s.reported m).1 = .quiet) || decide ((s.gathOf m).own = .absent))

/-- A Gathering's command ends once its own logic and its bound members have done what it asked; a DRAIN once they are all QUIET (R27). -/
def State.settleCmd (s : State) (w : Nat) : State :=
  let g := s.gathOf w
  if g.cmd.isNone ∨ g.tip.isSome ∨ g.own = .starting ∨ g.own = .quiescing ∨ g.own = .updating ∨ (s.boundOf w).any s.busy then s
  else if g.cmd = some .drain ∧ (g.own ≠ .quiet ∨ !s.membersQuiet w) then s
  else s.setCmd w none

/-! ### One Gathering's own logic -/

/-- Whether a Gathering's own logic takes a command in its state (R19). -/
def takesIn (g : GState) (c : UcbCmd) : Bool :=
  match c with
  | .start => decide (g = .off) || decide (g = .quiet)
  | .drain => decide (g = .inService)
  | .stop => decide (g = .quiet) || decide (g = .failed)
  | .reset => decide (g ≠ .absent) && decide (g ≠ .off)
  | .update => decide (g = .quiet)
  | .resume => decide (g = .quiet)
  | .bindSpare => false

/-- Whether it takes a command now (R19, R20). -/
def State.takes (s : State) (w : Nat) (c : UcbCmd) : Bool :=
  takesIn (s.gathOf w).own c && (decide (c = .reset) || !s.busy w)

/-- START: the images load, the repairs are applied (R19, R417, R542). -/
def State.startOne (s : State) (w : Nat) : State :=
  let off : Bool := decide ((s.gathOf w).own = .off)
  let found := s.startStatus w
  let s1 := (s.unitStart w off).runUpdated w
  let s2 := match s.slotImage w with
    | some i => if s.rf w 0x30 31 24 ≠ 0 ∧ s.slotStatus w = 1 then s1.setRunning w i else s1
    | none => s1
  let s3 := s2.setGath w { s2.gathOf w with found := found }
  let s4 := if kindOf w = 0x06 ∧ off ∧ s.fallowState = 3 ∧ s.fallow.stopped then s3.setRf deviceWin 0x410 (w - 249) (w - 249) 1 else s3
  s4.enterState w .starting

/-- DRAIN: new work stops; Commons, Stile and the time unit hold none (R22, R298, R428). -/
def State.drainOne (s : State) (w : Nat) : State :=
  let s1 := (s.enterState w .quiescing).unitChanged w
  match kindOf w with
  | 0x1B => s1.enterState w .quiet
  | 0x1C => s1.enterState w .quiet
  | 0x20 => s1.enterState w .quiet
  | _ => s1

/-- STOP: what the Gathering holds of its own returns to reset values (R509); its UCB stays. -/
def State.stopOne (s : State) (w : Nat) : State :=
  let ucb := s.regs.filter (fun (e : Nat × Word32) => decide (e.1 / 65536 = w) && decide (e.1 % 65536 < 0x100))
  let s1 := (s.unitDown w true).unitRegs w
  let s2 := ucb.foldl (fun (s : State) e => s.setReg w (e.1 % 65536) e.2) s1
  (s2.enterState w .off).unitChanged w

/-- The command in progress of a Gathering ends: its tipping-in too, and no database of Ling waits for a copy any more (R20, R21, R112). -/
def State.endCmd (s : State) (w : Nat) : State :=
  let s1 := (s.setGath w { s.gathOf w with cmd := none, tip := none, found := 0 }).setLoaded w 0
  if w = lingWin then (s1.modLing (fun l => { l with copying := [] })).lingRetry else s1

/-- A Gathering takes its reset values and is OFF; one that is ABSENT stays so (R9, R23). -/
def State.resetUnit (s : State) (w : Nat) : State :=
  let s1 := ((s.unitDown w true).unitRegs w).endCmd w
  (if (s1.gathOf w).own = .absent then s1 else s1.enterState w .off).unitChanged w

/-- RESET of one Gathering, which ends the command it had in progress (R20, R23). -/
def State.resetOne (s : State) (w : Nat) : State :=
  let aborted := s.busy w
  (s.resetUnit w).acceptCmd w .reset aborted

/-- The counters of the committed images that a Gathering runs are raised, as it enters IN_SERVICE (R473). -/
def State.raiseRunning (s : State) (w : Nat) : State :=
  (s.runningOf w).foldl (fun (s : State) e => if e.1 = 3 then s else s.raiseCounter e.2) s

/-- Step 7 of R475 is completed where a unit has started with an image that the Folio staged: a patch, a Sheet set, owner microcode or a parse graph
(log 93). -/
def State.noteServed (s : State) (w : Nat) : State :=
  if s.rf deviceWin 0x204 3 0 = 6 ∧ (s.runningOf w).any (fun e => e.1 == 1 || e.1 == 2 || e.1 == 5 || e.1 == 6) then s.setRf deviceWin 0x204 3 0 7 else s

/-- RESUME: a channel leaves self-refresh (R399). -/
def State.resumeOne (s : State) (w : Nat) : State :=
  let s1 := if kindOf w = 0x09 ∨ kindOf w = 0x0B then s.setChan w { s.chan w with selfRefresh := none, idleSince := s.time.cycles }
    else if kindOf w = 0x1F then s.modSpine (fun x => { x with up := true }) else s
  ((s1.enterState w .inService).raiseRunning w).unitChanged w

/-- What an accepted command does in the Gathering's own logic. -/
def State.enact (s : State) (w : Nat) (c : UcbCmd) : State :=
  match c with
  | .start => s.startOne w
  | .drain => s.drainOne w
  | .stop => s.stopOne w
  | .reset => s.resetOne w
  | .update => s.enterState w .updating
  | .resume => s.resumeOne w
  | .bindSpare => s

/-! ### Groups (R25) -/

/-- The members that a group's command goes to: RESET also to the spare and the retired ones. -/
def State.reached (s : State) (w : Nat) (c : UcbCmd) : List Nat := if c = .reset then membersOf w else s.boundOf w

/-- Whether a Gathering's own logic or a bound member takes a command, `d` levels of members down. A busy Gathering takes none for its
members. -/
def State.someTakes (s : State) (c : UcbCmd) : Nat → Nat → Bool
  | 0, w => s.takes w c
  | d + 1, w =>
    s.takes w c || ((decide (c = .reset) || !s.busy w) && (s.boundOf w).any (fun m => State.someTakes s c d m))

/-- A command applied to a Gathering's own logic and its members, `d` levels down: whether its own logic or any bound member refused, and
the state. -/
def State.spread (c : UcbCmd) : Nat → State → Nat → Bool × State
  | 0, s, w =>
    if s.takes w c then
      (false, if c = .reset then s.resetOne w else (((s.acceptCmd w c false).setCmd w (some c)).enact w c).settleCmd w)
    else (true, s.refuseCmd w c (if s.busy w then 2 else 1))
  | d + 1, s, w =>
    if !s.someTakes c (d + 1) w then (true, s.refuseCmd w c (if s.busy w then 2 else 1))
    else
      let own := s.takes w c
      let s1 := if c = .reset then (if own then s.resetOne w else (s.endCmd w).acceptCmd w c (s.busy w))
        else
          let s0 := (s.acceptCmd w c false).setCmd w (some c)
          if own then s0.enact w c else s0
      let r := (s1.reached w c).foldl (fun (acc : Bool × State) m =>
        let bound := decide ((acc.2.gathOf m).role = .bound)
        let q := State.spread c d acc.2 m
        (acc.1 || (bound && q.1), q.2)) (false, s1)
      let s2 := if r.1 || !own then r.2.setResult w 4 else r.2
      (r.1 || !own, s2.settleCmd w)

/-! ### Tipping-in (R513, R514) -/

/-- Member number i of a group. -/
def memberWin (w i : Nat) : Nat := (membersOf w).getD i 430

/-- Whether BIND_SPARE is taken: the state of the group, a bound target, a spare that can be started (R19, R513). -/
def State.bindOk (s : State) (w : Nat) : Bool :=
  let t := memberWin w (s.rf w 0x38 15 8)
  let p := memberWin w (s.rf w 0x38 7 0)
  let g := (s.reported w).1
  (kindOf w == 0x03 || kindOf w == 0x0C) && !s.busy w
    && (decide (g = .quiet) || decide (g = .inService) || (decide (g = .failed) && decide ((s.gathOf w).own ≠ .failed)))
    && decide (t < 430) && decide (p < 430) && decide ((s.gathOf t).role = .bound) && decide ((s.gathOf p).role = .spare)
    && (decide ((s.gathOf p).own = .off) || decide ((s.gathOf p).own = .quiet) || decide ((s.gathOf p).own = .inService))

/-- The supervisor's role moves to Leaf position p of a Quire: thread 0 there starts with the supervisor addresses, and the entry pending at
the old one is pending at it (R16, R177, R510). -/
def State.moveSup (s : State) (q p : Nat) : State :=
  let pending := (s.thread (s.supOf q)).nmi
  let s1 := (s.forgetNmi q).setQuire q { s.quire q with sup := p }
  (s1.startThread (s1.supOf q) false 0).modThread (s1.supOf q) (fun th => { th with nmi := pending })

/-- TIPPING_IN_ROLE_SWAP in a Quire: the target is retired, the spare bound, and the supervisor's role moves with it (R16, R177,
R513). -/
def State.swapRoles (s : State) (w target spare : Nat) : State :=
  let q := w - 5
  let t := memberWin w target
  let p := memberWin w spare
  let s1 := s.leafDown (t - 29)
  let s2 := (s1.changeGath t { s1.gathOf t with role := .retired }).setSummary t 3
  let s3 := (s2.changeGath p { s2.gathOf p with role := .bound }).setSummary p 3
  let s4 := if (s3.quire q).sup = target then s3.moveSup q spare else s3
  s4.setGath w { s4.gathOf w with cmd := none, tip := none }

/-- A tipping-in goes on as far as it can: the spare starts once the target is drained, the roles swap once it has started; a spare that does
not start ends it with ABORTED. -/
def State.tipStep (s : State) (w : Nat) : State :=
  let g := s.gathOf w
  match g.tip with
  | none => s
  | some j =>
    let p := memberWin w j.spare
    let quire : Bool := kindOf w == 0x03
    if !j.begun then
      let t := (s.gathOf (memberWin w j.target)).own
      if t = .inService ∨ t = .quiescing ∨ t = .starting ∨ t = .updating then s
      else
        let s1 := s.setGath w { g with tip := some { j with begun := true } }
        if s1.inService p then (if quire then s1.swapRoles w j.target j.spare else s1) else s1.startOne p
    else match (s.gathOf p).own with
      | .starting => s
      | .inService => if quire then s.swapRoles w j.target j.spare else s
      | _ => (s.endCmd w).setResult w 5

/-- A member has changed its state: the groups above it go on. -/
def State.settleAbove (s : State) (w : Nat) : State := (ancestorsOf w).foldl (fun (s : State) a => (s.tipStep a).settleCmd a) s

/-- BIND_SPARE is taken: the target is drained if it is IN_SERVICE (R513). A Ling database that holds the target's slot shows the
copy. -/
def State.bindSpare (s : State) (w : Nat) : State :=
  let j : TipJob := ⟨s.rf w 0x38 15 8, s.rf w 0x38 7 0, 0, false⟩
  let t := memberWin w j.target
  let s1 := s.acceptCmd w .bindSpare false
  let s2 := s1.setGath w { s1.gathOf w with cmd := some .bindSpare, tip := some j }
  let s3 := if w = lingWin then (match s2.slotOf j.target with
      | some k => s2.modLing (fun l => { l with copying := [k] })
      | none => s2) else s2
  let s4 := if s3.inService t then s3.drainOne t else s3
  s4.tipStep w

/-! ### Commands -/

/-- A command written to UCB_CTRL (R19, R20, R24, R25). Nothing reaches a Gathering that is held in reset. -/
def State.command (s : State) (w : Nat) (c : UcbCmd) : State :=
  if s.heldInReset then s
  else if s.trust.sec = .locked then s.refuseCmd w c 3
  else if c ≠ .reset ∧ (s.busy w ∨ s.ancestorBusy w) then s.refuseCmd w c 2
  else if c = .bindSpare then (if s.bindOk w then s.bindSpare w else s.refuseCmd w c 1)
  else ((State.spread c 3 s w).2).settleAbove w

/-- The command of a code; 0 is none, 8 to 15 are reserved. -/
def ucbCmdOf (code : Nat) : Option UcbCmd :=
  if code = 0 then none else [UcbCmd.start, .drain, .stop, .reset, .update, .resume, .bindSpare][code - 1]?

/-- UCB_NOP: no command, and no effect at all (R539). -/
def execUcbNop (_ : Win) (s : State) : Res := .next s

/-- UCB_START, UCB_DRAIN, UCB_STOP, UCB_RESET, UCB_UPDATE, UCB_RESUME, UCB_BIND_SPARE. -/
def execUcbStart (w : Win) (s : State) : Res := .next (s.command w.val .start)
def execUcbDrain (w : Win) (s : State) : Res := .next (s.command w.val .drain)
def execUcbStop (w : Win) (s : State) : Res := .next (s.command w.val .stop)
def execUcbReset (w : Win) (s : State) : Res := .next (s.command w.val .reset)
def execUcbUpdate (w : Win) (s : State) : Res := .next (s.command w.val .update)
def execUcbResume (w : Win) (s : State) : Res := .next (s.command w.val .resume)
def execUcbBindSpare (w : Win) (s : State) : Res := .next (s.command w.val .bindSpare)

/-! ### The Folio switch-over (R519, R520) -/

/-- UCB_UPDATE_STATUS is written and update_result sets. -/
def State.updateStatus (s : State) (w st : Nat) : State := (s.setReg w 0x34 (BitVec.ofNat 32 st)).setSummary w 1

/-- UCB_COMMAND UPDATE on Spine while it is IN_SERVICE: QUIESCING, the first step of R519. -/
def State.switchOver (s : State) : State :=
  let s1 := s.acceptCmd spineWin .update false
  let s2 := s1.setGath spineWin { s1.gathOf spineWin with cmd := some .update, found := 1 }
  s2.enterState spineWin .quiescing

/-- Spine runs: it answers mailboxes, and its command has ended. -/
def State.spineRuns (s : State) : State :=
  let s1 := (s.modSpine (fun x => { x with up := true, rom := false, leaving := none })).enterState spineWin .inService
  (s1.setGath spineWin { s1.gathOf spineWin with cmd := none, found := 0 }).settleAbove spineWin

/-- The Folio writes its handover state, which is its own, into the top 256 KiB of Spine's SRAM (R519 step 1). -/
def State.writeHandover (s : State) : State :=
  ((s.modSpine (fun x => { x with sram := Memory.writeBytes x.sram 0x3C0000 (leBytes 0x40000 s.freeBits) })).stepFresh).eccWrite spineWin 0 0x3C0000 0x40000

/-- Every other byte of Spine's SRAM is cleared (R519 step 3). -/
def State.clearSram (s : State) : State :=
  (s.modSpine (fun x => { x with sram := x.sram.filter (fun c => decide (0x3C0000 ≤ c.1)) })).eccWrite spineWin 0 0 0x3C0000

/-- The image of the slot is loaded into Spine, which starts it, or is refused (R519 steps 3 and 4, R542). A switch-over whose image is
refused goes on with the image it has. -/
def State.spineUpdated (s0 : State) : State :=
  let switching : Bool := decide ((s0.gathOf spineWin).found = 1)
  let s := if switching then s0.writeHandover else s0
  let st := s.slotStatus spineWin
  match s.slotImage spineWin with
  | some i =>
    if st = 1 then
      let old := s.spine.folio.getD i
      let s1 := (s.enterState spineWin .quiet).modSpine (fun x => { x with up := false, folio := some i, leaving := some (old, s.time.cycles) })
      ((s1.deriveCdi).clearSram).enterState spineWin .starting
    else
      let s1 := (s.enterState spineWin .quiet).updateStatus spineWin st
      if switching then s1.spineRuns else s1.setCmd spineWin none
  | none =>
    let s1 := (s.enterState spineWin .quiet).updateStatus spineWin st
    if switching then s1.spineRuns else s1.setCmd spineWin none

/-- The new image did not run: the ROM restarts the previous one (R520). -/
def State.spineFallsBack (s : State) (old : Image) : State :=
  let s1 := (s.modSpine (fun x => { x with folio := some old })).deriveCdi
  ((s1.updateStatus spineWin 4).spineRuns).raise 870

/-- The new image sets spine_up: the slot inverts, the counter is raised (R473, R519 step 5). -/
def State.spineSwitched (s : State) : State :=
  let s1 := match s.spine.folio with
    | some i => (s.setRunning spineWin i).raiseCounter i
    | none => s
  ((s1.modSpine (fun x => { x with slotB := !x.slotB })).updateStatus spineWin 1).spineRuns

/-- SPINE_UP_TIMEOUT: spine_up has not set within 2 s (R520). -/
def execSpineUpTimeout (s : State) : Res :=
  match s.spine.leaving with
  | some (old, t) => if t + 2000000000 ≤ s.time.cycles then .next (s.spineFallsBack old) else .next s
  | none => .next s

/-- SPINE_RESTART: Spine restarts without a handover (R432); one that faults while a new image comes up restarts the previous image
(R520). -/
def execSpineRestart (s : State) : Res :=
  match s.spine.leaving with
  | some (old, _) => .next (s.spineFallsBack old)
  | none => if s.spine.up then .next s.spineRestarts else .next s

/-! ### What ends a transition -/

/-- STARTING_END: self-test and images are done: IN_SERVICE, or FAILED with start_fail (R19, R542). A retired member that passes takes
the spare role (R514). -/
def State.startingEnd (s : State) (w : Nat) (selfTest : Bool) : State :=
  let g := s.gathOf w
  let s1 := if g.found = 0 then s else s.updateStatus w g.found
  let done (s : State) : State := s.setGath w { s.gathOf w with cmd := if g.tip.isSome then g.cmd else none, found := 0 }
  if selfTest ∧ g.found ≤ 1 ∧ s.railOk w ∧ s.equipped w then
    let slot := if g.found = 1 then s.slotImage w else none
    let s2 := done s1
    let s3 := if g.role = .retired then (s2.setGath w { s2.gathOf w with role := .spare }).setSummary w 3 else s2
    (((((s3.enterState w .inService).unitServe w slot).raiseRunning w).noteServed w).unitChanged w)
  else ((done s1).enterState w .failed).setSummary w 8

/-- A group keeps its command in progress while bound members still run theirs. -/
def State.keepCmd (s : State) (w : Nat) (c : Option UcbCmd) : State :=
  if (s.boundOf w).any s.busy then s.setCmd w c else s

/-- STARTING_END: a Spine that switches over runs its new image, or falls back (R519, R520); any other start ends, once what it loads has
drawn its FIRMWARE_LOAD tokens (R474). -/
def execStartingEnd (w : Win) (selfTest : Bool) (s : State) : Res :=
  let g := s.gathOf w.val
  if g.own ≠ .starting ∨ s.heldInReset then .next s
  else match (if w.val = spineWin then s.spine.leaving else none) with
    | some (old, _) => if selfTest then .next s.spineSwitched else .next (s.spineFallsBack old)
    | none =>
      let q := s.payLoad w.val (s.loadLines w.val)
      if !q.1 then .next q.2
      else .next (((q.2.startingEnd w.val selfTest).keepCmd w.val g.cmd).settleAbove w.val)

/-- What a unit does as it enters QUIET (R122, R399, R519). -/
def State.unitQuiet (s : State) (w : Nat) : State :=
  match kindOf w with
  | 0x09 => s.enterSelfRefresh w
  | 0x0B => s.enterSelfRefresh w
  | 0x0E => s.wWriteBack
  | 0x1F => s.modSpine (fun x => { x with up := false })
  | _ => s

/-- Whether a Gathering's QUIESCING has lasted longer than limit_us (R22). -/
def State.drainLate (s : State) (w : Nat) : Bool :=
  let g := s.gathOf w
  let limit := (s.reg w 0x1C).toNat
  g.timedOut || (decide (limit ≠ 0) && decide (g.entered + 1000 * limit < s.time.cycles))

/-- QUIESCE_DONE: the work in flight has completed: QUIET (R19, R22), a group's own logic when every bound member is QUIET (R27). After its
limit only RESET moves a Gathering on. A switch-over of Spine goes on to UPDATING (R519). -/
def execQuiesceDone (w : Win) (s : State) : Res :=
  let v := w.val
  if (s.gathOf v).own ≠ .quiescing ∨ !s.workDone v ∨ !s.membersQuiet v ∨ s.drainLate v then .next s
  else
    let s0 := s.unitQuiet v
    let s1 := if kindOf v = 0x0E ∧ s0.warren.lines.any (·.dirty) then s0 else s0.enterState v .quiet
    if (s1.gathOf v).own ≠ .quiet then .next s1
    else if v = spineWin ∧ (s1.gathOf v).cmd = some .update then .next (s1.enterState v .updating)
    else .next (((s1.unitChanged v).settleCmd v).settleAbove v)

/-- UPDATE_DONE: the image is applied, or refused: QUIET, with update_result (R19, R542). What a unit is given it applies at its next START
(R178); a parse graph goes into both banks. It is read as FIRMWARE_LOAD tokens allow (R474). -/
def execUpdateDone (w : Win) (s : State) : Res :=
  let v := w.val
  if (s.gathOf v).own ≠ .updating then .next s
  else
    let q := s.payLoad v (s.loadLines v)
    if !q.1 then .next q.2
    else if v = spineWin then .next q.2.spineUpdated
    else
      let st := s.slotStatus v
      let s1 := match s.slotImage v with
        | some i =>
          if st ≠ 1 then q.2
          else
            if i.kind = 5 then (q.2.setRunning v i).loadBothBanks i.payload else q.2.setUpdated v i
        | none => q.2
      .next ((((s1.updateStatus v st).enterState v .quiet).settleCmd v).settleAbove v)

/-- DRAIN_TIMEOUT: QUIESCING has lasted longer than limit_us: drain_timeout sets (R22); the target of a tipping-in is reset (R513). -/
def execDrainTimeout (w : Win) (s : State) : Res :=
  let v := w.val
  let g := s.gathOf v
  if g.own ≠ .quiescing ∨ g.timedOut ∨ !s.drainLate v then .next s
  else
    let s1 := (s.setGath v { g with timedOut := true }).setSummary v 2
    let tipped : Bool := match parentOf v with
      | some a => (match (s.gathOf a).tip with
        | some j => !j.begun && memberWin a j.target == v
        | none => false)
      | none => false
    if tipped then .next ((s1.resetOne v).settleAbove v) else .next s1

/-- The command in progress of a Gathering ends with ABORTED (R21, R540). -/
def State.abortCmd (s : State) (w : Nat) : State :=
  match (s.gathOf w).cmd with
  | some c => ((s.endCmd w).setRf w 0x18 27 24 c.code).setResult w 5
  | none => s.endCmd w

/-- A Gathering fails (R21, R23): FAILED, its command ends with ABORTED, and what it holds is dropped. Own logic that has failed before has nothing
left to drop, but a group's command that its members still run ends as well. -/
def State.failUnit (s : State) (w : Nat) : State :=
  match (s.gathOf w).own with
  | .absent => s
  | .off => s
  | .failed => if (s.gathOf w).cmd.isSome then (s.abortCmd w).settleAbove w else s
  | _ => ((((s.abortCmd w).enterState w .failed).unitDown w false).unitChanged w).settleAbove w

/-- CONTEXT_SWITCH: R259. An image that is uncorrectable is state of the Quire that no requester owns: the Quire fails (R405). -/
def execContextSwitch (q : Fin 24) (s : State) : Res :=
  let r := s.contextSwitch q.val
  .next (if r.1 then r.2.failUnit (quireWin q.val) else r.2)

/-- A step that reads an item of a unit's own state first: where it is uncorrectable, the Gathering that owns it fails (R405, R21). -/
def State.withItem (s : State) (w inst item : Nat) (go : State → Res) : Res :=
  let r := s.readItem w inst item
  if r.1 then .next (r.2.failUnit w) else go r.2

/-- RELEASE_DELIVER: the position to be released is read, and delivered (R163 to R165, R405). -/
def execReleaseDeliver (pos : Nat) (s : State) : Res :=
  if s.kettle.releaseQ.head? = some pos then s.withItem kettleWin 0 pos (fun s => s.releaseDeliver pos) else .next s

/-- DROVER_SELECT: a lane's scheduler state is read, and the lane selects (R329, R330, R405). -/
def execDroverSelect (n : Lane) (s : State) : Res :=
  if s.laneSelects n.val then s.withItem droverWin 0 n.val (fun s => s.droverSelect n) else .next s

/-- SHEAF_REPORT: the counters of the oldest report are read, and it is applied (R361, R405). -/
def execSheafReport (s : State) : Res :=
  match s.reports with
  | [] => .next s
  | r :: _ =>
    let q := s.readCounters r
    if q.1 then .next (q.2.failUnit sheafWin) else q.2.sheafReport

/-- RICK_UPDATE: a slot that the cache holds is read from it, and updated (R376, R377, R405). -/
def execRickUpdate (s : State) : Res :=
  match s.sheaf.queue with
  | [] => .next s
  | u :: _ =>
    let a := s.rickSlot u.flow u.minute
    if (SMap.find s.sheaf.cache a).isSome then s.withItem sheafWin 1 a State.rickNext else s.rickNext

/-- HARDWARE_FAILURE. -/
def execHardwareFailure (w : Win) (s : State) : Res := .next (s.failUnit w.val)

/-- RETRAIN_DONE: retraining ends with DONE, or with FAILED, which puts the channel into FAILED as any failure does (R21, R400). -/
def execRetrainDone (w : Win) (ok : Bool) (s : State) : Res :=
  let v := w.val
  if (kindOf v ≠ 0x09 ∧ kindOf v ≠ 0x0B) ∨ s.rf v 0x104 30 30 = 0 then .next s
  else if ok then .next (((s.setRf v 0x104 30 30 0).setRf v 0x104 29 28 1).setEvent v 0x180 1)
  else .next ((((s.setRf v 0x104 30 30 0).setRf v 0x104 29 28 2).setEvent v 0x180 2).failUnit v)

end Sys2Proof.Machine
end

