-- ==== Sys2Proof/Machine/FallowCommands.lean ====
section
/-! DEFINITION. Fallow, the reduced bring-up service (20, R500 to R508). -/

namespace Sys2Proof.Machine

/-- FALLOW_PORT_START: with STRAP_FALLOW latched high, 150 ms after power-good and once the steps before it have run, the AON sequencer starts
the port groups and their ports, and Fallow forwards (R498, R500). -/
def execFallowPortStart (s : State) : Res :=
  if s.heldInReset ∨ s.board.bootDue ∨ !s.board.latched.testBit 2 ∨ s.fallowState ≠ 0 ∨ s.time.cycles < s.board.powerAt + 150000000 then .next s
  else .next ((((s.command 245 .start).command 246 .start).command 247 .start).command 248 .start |>.setRf deviceWin 0x404 31 30 1)

/-! ### Forwarding and learning (R501, R502) -/

/-- A key of the learning table. -/
def fallowKey (pvid : Nat) (mac : List Byte) : Nat := pvid * 2 ^ 48 + beNat mac

/-- Whether the tags of a frame, from a byte on, bar it from a Fallow port: a tag of TPID 0x88A8, or one of TPID 0x8100 whose VID is
neither 0 nor the port's pvid. -/
def badTags (pvid : Nat) (frame : List Byte) : Nat → Nat → Bool
  | 0, _ => false
  | fuel + 1, i =>
    let tpid := beNat (bytesAt frame i 2)
    let vid := beNat (bytesAt frame (i + 2) 2) % 4096
    if tpid = 0x88A8 then true
    else if tpid = 0x8100 then (decide (vid ≠ 0) && decide (vid ≠ pvid)) || badTags pvid frame fuel (i + 4)
    else false

/-- The entries of a bucket of the learning table. -/
def State.bucketCount (s : State) (b : Nat) : Nat := s.fallow.table.countP (fun e => decide (e.2.2.2 = b))

/-- The bucket that a new entry takes: the first of its candidates with a free way. -/
def State.bucketFor (s : State) (key : Nat) : Option Nat :=
  let c := Config.fallowBuckets key
  if s.bucketCount (c.1 % 16384) < 4 then some (c.1 % 16384)
  else if s.bucketCount (c.2 % 16384) < 4 then some (c.2 % 16384)
  else none

/-- The Warren table of a handover, and the key there of an entry (R506). -/
def State.fallowTable (s : State) : Nat := s.rf deviceWin 0x408 3 0
def warrenKeyOf (key : Nat) : List Byte := leBytes 2 (key / 2 ^ 48) ++ beBytes 6 (key % 2 ^ 48)

/-- An entry is handed to the learn engine, as one to be created or as a move (R506; its job is marked). -/
def State.copyEntry (s : State) (key : Nat) (move : Bool) : State :=
  match SMap.find s.fallow.table key with
  | none => s
  | some (port, _, _) =>
    let t := s.fallowTable
    let j : WarrenJob := { newJob 4 (if move then 17 else 16) t (s.wtKey t (warrenKeyOf key)) with event := 1, port := port }
    s.modWarren (fun w => { w with learns := w.learns ++ [j] })

/-- FALLOW_LEARN (R502): the source of an admitted frame is learned at its port; during a handover an entry already copied that changes
is copied again as a move (R506). -/
def State.fallowLearn (s : State) (n key : Nat) : State :=
  match SMap.find s.fallow.table key with
  | some (port, _, b) =>
    let s1 := s.modFallow (fun x => { x with table := SMap.put x.table key (n, s.time.cycles, b) })
    if port ≠ n ∧ s.fallowState = 2 ∧ !s.fallow.copies.contains key then s1.copyEntry key true else s1
  | none => match s.bucketFor key with
    | none => s
    | some b => s.modFallow (fun x => { x with table := SMap.put x.table key (n, s.time.cycles, b),
                                               copies := if s.fallowState = 2 then x.copies ++ [key] else x.copies })

/-- A frame is queued to a port, or dropped at the tail of a full queue (R503). -/
def State.fallowQueueTo (s : State) (n : Nat) (frame : List Byte) : State :=
  let q := s.fallowQueue n
  if 2048 < sumOf q frameCells + frameCells frame ∨ 65536 < s.fallowCells + frameCells frame then s.fallowCount n 4 1
  else s.setFallowQueue n (q ++ [frame])

/-- The other Fallow ports with a port's pvid. -/
def State.fallowPeers (s : State) (n : Nat) : List Nat :=
  (List.range 32).filter (fun m => decide (m ≠ n) && s.fallowPort m && decide (s.fallowPvid m = s.fallowPvid n))

/-- What Fallow does with a frame (R501): cases 1 and 2 drop it; else it is queued, dropped or flooded, and its source learned. -/
def State.fallowForward (s : State) (n : Nat) (frame : List Byte) : State :=
  let pvid := s.fallowPvid n
  if badTags pvid frame 4096 12 ∨ (byteAt frame 6).getLsbD 0 then s.fallowCount n 4 1
  else
    let flood (s : State) : State := (s.fallowPeers n).foldl (fun (s : State) m => s.fallowQueueTo m frame) (s.fallowCount n 5 1)
    let s1 : State := match SMap.find s.fallow.table (fallowKey pvid (bytesAt frame 0 6)) with
      | some (m, _, _) =>
        if m = n then s.fallowCount n 4 1
        else if (s.fallowPeers n).contains m then s.fallowQueueTo m frame
        else flood s
      | none => flood s
    s1.fallowLearn n (fallowKey pvid (bytesAt frame 6 6))

/-- How far Fallow is ahead of its rate now, in bits and in fifths of frames: 800 bits and 6 fifths go by in each ns (R503). -/
def State.fallowAhead (s : State) : Nat × Nat :=
  let dt := s.time.cycles - s.fallow.meter.1
  (s.fallow.meter.2.1 - 800 * dt, s.fallow.meter.2.2 - 6 * dt)

/-- Whether Fallow's rate lets a frame in now (R503; log 107). -/
def State.fallowPaced (s : State) : Bool :=
  !decide (Config.fallowBurst.1 < s.fallowAhead.1) && !decide (Config.fallowBurst.2 < s.fallowAhead.2)

/-- A frame let in counts against the rate. -/
def State.fallowMetered (s : State) (len : Nat) : State :=
  s.modFallow (fun x => { x with meter := (s.time.cycles, s.fallowAhead.1 + 8 * len, s.fallowAhead.2 + 5) })

/-- FALLOW_FRAME: a frame that a Fallow port's MAC delivers. MAC Control frames are consumed; at a port being switched the frame is held;
after a STOP, or beyond Fallow's rate, it is dropped (R501, R503, R507, R508). -/
def execFallowFrame (p : EthPort) (frame : List Byte) (s : State) : Res :=
  let n := p.val
  if !s.fallowPort n ∨ !s.fallowOwns n then .next s
  else if etherType frame = 0x8808 then .next (s.count (portWin n) 0x210)
  else
    let s1 := ((s.count (portWin n) 0x200).fallowCount n 0 frame.length).fallowCount n 1 1
    if !s.fallowRuns then .next (s1.fallowCount n 4 1)
    else match SMap.find s.fallow.held n with
      | some l =>
        if 65536 < s.fallowCells + frameCells frame then .next (s1.fallowCount n 4 1)
        else
          let ts := s.time.ns + BitVec.ofInt 64 (signedOf 8 (s.prf n 0x110 7 0))
          let f : RxFrame := ⟨frame, frame, ts, true, none, none, none, false, none, false, none⟩
          .next (s1.modFallow (fun x => { x with held := SMap.put x.held n (l ++ [f]) }))
      | none => .next (if s.fallowPaced then (s1.fallowMetered frame.length).fallowAged.fallowForward n frame else s1.fallowCount n 4 1)

/-- FALLOW_AGE: an entry not refreshed for age_s is removed (R502). -/
def execFallowAge (key : Nat) (s : State) : Res :=
  match SMap.find s.fallow.table key with
  | some (_, at0, _) =>
    if s.fallowRuns ∧ at0 + 1000000000 * s.rf deviceWin 0x408 31 16 ≤ s.time.cycles then
      .next (s.modFallow (fun x => { x with table := SMap.erase x.table key, copies := x.copies.filter (· ≠ key) }))
    else .next s
  | none => .next s

/-! ### Handover (R506, R507) -/

/-- The units that a handover needs are IN_SERVICE, and its table takes the entries (R506). -/
def State.handoverOk (s : State) : Bool :=
  [loftWin, tedderWin, windrowWin, kettleWin, droverWin, finisherWin, warrenWin].all (fun w => decide ((s.reported w).1 = .inService))
    && decide (s.wtPlace s.fallowTable ≠ 0) && decide (s.wtKeyLen s.fallowTable = 8) && decide (s.wtCfg s.fallowTable 16 16 = 1)

/-- Entries are copied while the learn engine's store has room. -/
def State.copyOn (s : State) : Nat → State
  | 0 => s
  | fuel + 1 => match s.fallow.copies with
    | k :: rest =>
      if s.warren.learns.length < 1024 then State.copyOn ((s.copyEntry k false).modFallow (fun x => { x with copies := rest })) fuel else s
    | [] => s

/-- Whether every entry has been copied. -/
def State.copied (s : State) : Bool := s.fallow.copies.isEmpty && s.warren.learns.all (fun j => decide (j.event ≠ 1))

/-- The Fallow ports still to be switched, in ascending order. -/
def State.toSwitch (s : State) : List Nat := (List.range 32).filter (fun n => s.fallowPort n && !s.fallowSwitched n)

/-- After the last port, the handover is done; the remainders of the counters are lost (R504, R506). -/
def State.handoverEnd (s : State) : State :=
  if s.fallowState = 2 ∧ s.copied ∧ s.fallow.held = [] ∧ s.toSwitch = [] then
    ((((s.setRf deviceWin 0x404 31 30 3).setRf deviceWin 0x404 29 28 1).setRf deviceWin 0x404 27 27 1).setRf deviceWin 0x400 30 30 0).modFallow
      (fun x => { x with rem := [], table := [] })
  else s

/-- HANDOVER written to FALLOW_CTRL, and on each later call the copying as far as it can go (R506). -/
def State.handover (s : State) : State :=
  match s.fallowState with
  | 1 =>
    if s.handoverOk then
      let s1 := ((s.fallowAged.setRf deviceWin 0x404 31 30 2).setRf deviceWin 0x400 30 30 1).modFallow (fun x => { x with copies := x.table.map (·.1) })
      (s1.copyOn 65536).handoverEnd
    else s.setRf deviceWin 0x404 29 28 2
  | 2 => (s.copyOn 65536).handoverEnd
  | _ => s

/-- FALLOW_HANDOVER: R506. -/
def execFallowHandover (s : State) : Res := .next (s.handover)

/-- FALLOW_PORT_SWITCH: the next port's hold begins; then its admission moves to Loft, and the frames held are offered ahead of later
ones (R507). -/
def execFallowPortSwitch (p : EthPort) (s : State) : Res :=
  let n := p.val
  if s.fallowState ≠ 2 ∨ !s.copied then .next s
  else match SMap.find s.fallow.held n with
    | some l =>
      let s1 := s.modFallow (fun x => { x with held := SMap.erase x.held n })
      let q := s1.port n
      .next (((s1.setPort n { q with rx := q.rx ++ l }).setRf deviceWin 0x410 n n 1).handoverEnd)
    | none =>
      if s.fallow.held = [] ∧ s.toSwitch.head? = some n then .next (s.modFallow (fun x => { x with held := SMap.put x.held n [] }))
      else .next s

/-- STOP written to FALLOW_CTRL: Fallow ends without copying; what waits in the queues still leaves (R508). -/
def State.fallowStop (s : State) : State :=
  if s.fallowRuns then
    let s0 := s.fallow.held.foldl (fun (s : State) e => s.fallowCount e.1 4 e.2.length) s
    let s1 := ((s0.setRf deviceWin 0x404 31 30 3).setRf deviceWin 0x400 30 30 1).modFallow
      (fun x => { x with stopped := true, table := [], rem := [], copies := [], held := [] })
    s1.settleStop
  else s

/-- FALLOW_STOP: R508. -/
def execFallowStop (s : State) : Res := .next s.fallowStop

end Sys2Proof.Machine
end

