-- ==== Sys2Proof/Machine/Regs.lean ====
section
/-! DEFINITION. Reads and writes of the registers of every window (00, R6 to R12, R541; 01, R17, R18; and the rules of each chapter on
its own registers). -/

namespace Sys2Proof.Machine

/-- The state a meaning leaves. -/
def Res.settled (s : State) : Res → State
  | .next t => t
  | _ => s

/-! ### Reads -/

/-- UCB_MEMBERS (R17). -/
def State.membersWord (s : State) (w : Nat) : Word32 :=
  let ms := membersOf w
  let present := ms.countP (fun m => decide ((s.gathOf m).own ≠ .absent))
  let bound := s.boundOf w
  let serving := bound.countP (fun m => decide ((s.reported m).1 = .inService))
  let failed := ms.countP (fun m => decide ((s.reported m).1 = .failed))
  BitVec.ofNat 32 (present * 2 ^ 24 + bound.length * 2 ^ 16 + serving * 2 ^ 8 + failed)

/-- Whether a Gathering's members have spares: a Quire's Leaves, Ling's banks (R15). -/
def hasSpares (w : Nat) : Bool := kindOf w = 0x03 ∨ kindOf w = 0x0C

/-- The registers of the UCB, as they read (R17, R540). -/
def State.ucbRead (s : State) (w off : Nat) : Word32 :=
  let path := pathOf w
  let v := s.reg w off
  match off with
  | 0x04 => BitVec.ofNat 32 (s.variant.toNat * 2 ^ 28 + kindOf w * 2 ^ 16 + 2 ^ 8)
  | 0x08 => BitVec.ofNat 32 (path.length * 2 ^ 30 + path.getD 0 0 * 2 ^ 16 + path.getD 1 0 * 2 ^ 8 + path.getD 2 0)
  | 0x0C => s.membersWord w
  | 0x10 =>
    let r := s.reported w
    BitVec.ofNat 32 (bit r.2 * 2 ^ 8 + (s.gathOf w).role.code * 2 ^ 6 + r.1.code)
  | 0x14 => 0
  | 0x18 => putFld v 31 31 (bit (s.busy w))
  | 0x20 => s.summary w
  | 0x38 =>
    if hasSpares w then putFld v 23 16 ((membersOf w).countP (fun m => decide ((s.gathOf m).role = .spare))) else 0
  | _ => v

/-- The bits set of a table by an index, as a word. -/
def flagsWord (n : Nat) (f : Nat → Bool) : Nat := sumOf ((List.range n).filter f) (fun i => 2 ^ i)

/-- The registers of each kind of unit that show what the unit holds beside its registers. -/
def State.unitRead (s : State) (w off : Nat) : Word32 :=
  let v := s.reg w off
  let word (n : Nat) : Word32 := BitVec.ofNat 32 n
  match kindOf w with
  | 0x01 =>
    if off = 0x100 then
      word (s.trust.banks.length * 2 ^ 20 + bit (s.board.latched.testBit 7) * 2 ^ 16 + s.trust.revoked % 16 * 2 ^ 8 + s.trust.sec.code)
    else if 0x110 ≤ off ∧ off < 0x120 then
      word (leNat ((List.range 4).map (fun i => BitVec.ofNat 8 (s.counter (off - 0x110 + i)))))
    else if off = 0x200 then
      let l := s.board.latched
      word (l % 512 + (if 2 ≤ l % 4 then 2 ^ 9 else 0))
    else if off = 0x404 then putFld v 16 0 s.fallowLive.length
    else if off = 0xD00 then word (flagsWord 16 (fun n => (SMap.get (fun _ => GpioSt.zero) s.board.gpio n).asserted))
    else v
  | 0x03 =>
    if off = 0x2000 then word (flagsWord 8 (fun c => (s.cpFile c).isSome))
    else if 0x2010 ≤ off ∧ off < 0x2020 then
      match (if s.variant = 2 then Config.customLogic (4 + (off - 0x2010) / 4) else none) with
      | some (n, parts, ident) => word (ident % 65536 * 2 ^ 16 + (parts - 1) % 4 * 2 ^ 8 + n % 64)
      | none => 0
    else v
  | 0x04 =>
    let t := 8 * (w - 29)
    if off = 0x104 then
      let b (f : Thread → Bool) : Nat := flagsWord 8 (fun k => f (s.thread (t + k)))
      word (b (·.halted) * 2 ^ 24 + b (·.haltForced) * 2 ^ 16 + b (·.fault.isSome) * 2 ^ 8 + fld v 0 0)
    else if off = 0x110 ∨ off = 0x114 then
      word ((s.dbgItem (t + s.rf w 0x108 10 8) (s.rf w 0x108 7 0)).toNat >>> (8 * (off - 0x110)))
    else v
  | 0x08 => if off = 0x104 then (v &&& 0x80000000) ||| word (s.prefetched (w - 282) / 1024) else v
  | 0x0A => if off = 0x180 then word (s.tmPopulated / 0x40000000) else v
  | 0x0C =>
    if 0x280 ≤ off ∧ off < 0x300 then
      let d := (off - 0x280) / 4
      word (bit (s.dbBusy d) * 2 ^ 31 + (s.dbValid d).length)
    else v
  | 0x18 =>
    if off < 0x500 ∧ off % 16 = 12 then
      let p := (off - 0x100) / 16
      word (bit (s.poolStack p).ready * 2 ^ 31 + s.poolFree p + s.loft.deferred.countP (fun e => decide (e.1 = p)))
    else if off = 0x684 then word (s.loftUsed (s.rf w 0x680 13 0) (s.logicalHead (s.rf w 0x680 21 16)))
    else v
  | 0x1A =>
    let q := s.reg w 0x120
    let c : Word64 := match fld q 31 31, s.sheaf.prev with
      | 0, _ => s.sheafCounter s.sheaf.curBank (fld q 13 0) (fld q 29 24)
      | _, some _ => s.sheafCounter (!s.sheaf.curBank) (fld q 13 0) (fld q 29 24)
      | _, none => 0
    if off = 0x124 then c.setWidth 32 else if off = 0x128 then s.sheaf.queryHi else v
  | 0x1B =>
    let x := s.lock (s.rf w 0x100 12 0)
    if off = 0x104 then word (bit x.holder.isSome * 2 ^ 31 + bit x.abandoned * 2 ^ 30 + x.queue.length)
    else if off = 0x108 then word (x.holder.getD 0)
    else v
  | 0x1D =>
    if 0x310 ≤ off ∧ off < 0x320 then
      word (leNat (bytesAt (s.logBytes (s.rf w 0x300 24 16) (s.rf w 0x300 14 8) (s.rf w 0x300 3 0)) (off - 0x310) 4))
    else if 0x400 ≤ off ∧ off < 0x600 then
      word ((SMap.get (fun _ => (0 : BitVec 128)) s.mower.summary ((off - 0x400) / 16)).toNat >>> (8 * ((off - 0x400) % 16)))
    else if off = 0x700 then word s.mower.hardQueue.length
    else if 0x704 ≤ off ∧ off < 0x714 then s.hardData ((off - 0x704) / 4)
    else v
  | 0x20 => if off = 0x100 then s.time.ns.setWidth 32 else v
  | _ => v

/-- The bits of a register that a write only sets off: they read zero (R6). -/
def RegRow.shown (r : RegRow) (v : Word32) : Word32 :=
  r.fields.foldl (fun (v : Word32) f => if f.acc = .wo then putFld v f.hi f.lo 0 else v) v

/-- The bits of a register that a read clears. -/
def RegRow.cleared (r : RegRow) (v : Word32) : Word32 :=
  r.fields.foldl (fun (v : Word32) f => if f.acc = .rc then putFld v f.hi f.lo 0 else v) v

/-- A counter of 32 bits, or the low field of one, as an increment reaches it. -/
def RegRow.counts (r : RegRow) : Bool := r.fields.any (fun f => decide (f.acc = .rc))

/-- A read of a register of a window, with what the read does (R6, R7, R12, R464). -/
def State.readReg (s : State) (w off : Nat) : Word32 × State :=
  if w = spineWin ∧ off = 0x300 then (0, s)
  else if w = spineWin ∧ off = 0x308 then
    let r := s.portRead 64
    (r.1.setWidth 32, r.2)
  else if kindOf w = 0x03 ∧ 0x1000 ≤ off ∧ off < 0x2000 then s.pageRead (w - 5) (off - 0x1000)
  else match regAt w off with
    | none => (0, if w < 430 then s.count w 0x2C else s)
    | some (r, _) =>
      let s1 := if kindOf w = 0x08 ∧ off = 0x114 then s.panicSync (w - 282) else s
      let v := if off < 0x100 then s1.ucbRead w off else s1.unitRead w off
      let s2 := if r.counts then s1.setReg w off (r.cleared (s1.reg w off)) else s1
      let s3 : State :=
        if w = timeWin ∧ off = 0x100 then s2.setReg w 0x104 ((s2.time.ns >>> 32).setWidth 32)
        else if w = sheafWin ∧ off = 0x124 then
          let q := s2.reg w 0x120
          let c : Word64 := match fld q 31 31, s2.sheaf.prev with
            | 0, _ => s2.sheafCounter s2.sheaf.curBank (fld q 13 0) (fld q 29 24)
            | _, some _ => s2.sheafCounter (!s2.sheaf.curBank) (fld q 13 0) (fld q 29 24)
            | _, none => 0
          s2.modSheaf (fun x => { x with queryHi := (c >>> 32).setWidth 32 })
        else if w = mowerWin ∧ off = 0x710 then s2.hardPop
        else s2
      (r.shown v, s3)

/-! ### Reserved encodings (R11) -/

/-- Whether a register stages an entry of an indirect command: never discarded for its content (R541). -/
def stagesEntry (w off : Nat) : Bool :=
  match kindOf w with
  | 0x12 => off = 0x500 ∨ (0x510 ≤ off ∧ off < 0x530)
  | 0x16 => off = 0x100 ∨ (0x110 ≤ off ∧ off < 0x130)
  | 0x0C => 0x400 ≤ off ∧ off < 0x800 ∧ off % 256 < 0xB0
  | 0x0F => (0x100 ≤ off ∧ off < 0x1A0) ∨ off = 0x1AC
  | 0x03 => off = 0x200 ∨ (0x210 ≤ off ∧ off < 0x220)
  | _ => false

/-- Whether every field that a write carries has a value that its table lists. -/
def RegRow.legal (r : RegRow) (v : Word32) : Bool :=
  r.fields.all (fun f => (decide (f.acc ≠ .rw) && decide (f.acc ≠ .wo)) || f.legal.isEmpty
    || f.legal.any (fun x => decide (x.1 ≤ fld v f.hi f.lo) && decide (fld v f.hi f.lo ≤ x.2)))

/-- The value a register takes from a write: RW fields as written; W1C fields cleared by ones, but where the source asserts again
(R6, R8). -/
def RegRow.written (r : RegRow) (old v again : Word32) : Word32 :=
  r.fields.foldl (fun (x : Word32) f => match f.acc with
    | .rw => putFld x f.hi f.lo (fld v f.hi f.lo)
    | .w1c => putFld x f.hi f.lo (fld ((old &&& ~~~v) ||| again) f.hi f.lo)
    | _ => x) old

/-- The end of a Warren table in its memory, and the end of that memory (R115). -/
def State.tableFits (s : State) (cfg base : Word32) : Bool :=
  let size := 4 * (if fld cfg 29 29 = 1 then 128 else 64) * 2 ^ fld cfg 28 24
  let top := fld base 29 0 * 4096 + size
  match fld cfg 31 30 with
  | 0 => true
  | 1 => decide (top ≤ 0xC00000000)
  | 2 => decide (top ≤ s.tmPopulated)
  | _ => decide (top ≤ s.rf warrenWin 0x100 4 0 * 0x100000)

/-- The limits of R114 on table t with a configuration. -/
def State.tableLimits (s : State) (t : Nat) (cfg : Word32) : Bool :=
  let key := fld cfg 23 17
  let log := fld cfg 28 24
  let others := sumOf ((List.range 16).filter (fun u => decide (u ≠ t) && decide (s.wtPlace u ≠ 0))) (fun u => 4 * s.wtBuckets u)
  (if fld cfg 29 29 = 1 then decide (key ≤ 96) && decide (log ≤ 23) else decide (key ≤ 32) && decide (log ≤ 24))
    && (decide (fld cfg 31 30 = 0) || decide (others + 4 * 2 ^ log ≤ 134217728))

/-- Whether Warren takes a configuration and a base of table t (R115). -/
def State.tableOk (s : State) (t : Nat) (cfg base : Word32) : Bool :=
  let o := 0x1000 + 0x100 * t
  let mask : Word32 := 0xFFFE0000
  s.tableLimits t cfg && s.tableFits cfg base
    && (decide (s.reg warrenWin (o + 12) = 0) || (cfg &&& mask == s.reg warrenWin o &&& mask && base == s.reg warrenWin (o + 4)))

/-- Whether a database may take a definition (R99). -/
def State.dbOk (s : State) (d : Nat) (v : Word32) : Bool :=
  let first := fld v 5 0
  let n := fld v 15 12
  let apart (e : Nat) : Bool := decide (e = d) || decide (s.dbBanks e = 0) || decide (n = 0)
    || decide (first + n ≤ s.dbSlot e) || decide (s.dbSlot e + s.dbBanks e ≤ first)
  decide (n ≤ 8) && decide (first + n ≤ 64) && (List.range 32).all apart
    && ((s.dbValid d).isEmpty || (decide (first = s.dbSlot d) && decide (n = s.dbBanks d) && decide (fld v 17 16 = s.rf lingWin (0x200 + 4 * d) 17 16)))

/-- The words of a stage slot: their fields, and whether a write carries values the slot's table lists (R82). The table that lists the
values of miss_action is R85's: a write of next 3 or of a width above 64 is refused (DEDUCED, log 51). -/
def stageMask (k : Nat) : Word32 := if k = 0 then 0x1F01FF3F else if k = 1 then 3 else if k = 6 ∨ k = 7 then 0 else 0xFFFFFFFF
def stageLegal (k : Nat) (v : Word32) : Bool :=
  if k = 0 then decide (fld v 2 0 ≤ 3) && (decide (fld v 2 0 ≠ 3) || decide (fld v 28 24 ≤ 15))
  else if k = 1 then decide (fld v 1 0 ≤ 2)
  else if 2 ≤ k ∧ k ≤ 5 then decide (fld v 14 8 ≤ 80) && decide (fld v 30 24 ≤ 80)
  else if k = 8 then decide (fld v 28 22 ≤ 64) && decide (fld v 12 6 ≤ 64)
  else if k = 9 then decide (fld v 30 29 ≠ 3)
  else true

/-- The lanes that a mode takes (R339). -/
def modeWidth (mode : Nat) : Nat := if mode = 4 then 2 else if mode = 5 then 4 else if mode = 6 then 8 else 1

/-- Whether port n may take a configuration (R340). -/
def State.portCfgOk (s : State) (n : Nat) (v : Word32) : Bool :=
  let mode := fld v 31 28
  let p := n % 8
  let base := n - p
  let apart (q : Nat) : Bool :=
    let m := s.prf (base + q) 0x100 31 28
    decide (q = p) || decide (m = 0) || decide (mode = 0) || decide (p + modeWidth mode ≤ q) || decide (q + modeWidth m ≤ p)
  decide (p % modeWidth mode = 0) && (List.range 8).all apart
    && (decide (s.portState n = .off) || (decide (mode = s.prf n 0x100 31 28) && decide (fld v 27 27 = s.prf n 0x100 27 27)))

/-- Whether pool p of Loft has allocated cells. -/
def State.poolBusy (s : State) (p : Nat) : Bool := s.loft.cells.any (fun e => e.2.alloc && decide (s.poolOfCell e.1 = some p))

/-- Whether a pool may take a configuration (R302, R505). -/
def State.poolCfgOk (s : State) (p : Nat) (v : Word32) : Bool :=
  let mem := fld v 31 30
  let spill := fld v 28 23
  let top := s.poolBase p + s.poolSize p
  let named := (List.range 64).any (fun q => decide (q ≠ p) && s.poolSpills q && decide (s.poolSpill q = spill))
    || (List.range 288).any (fun i => decide (s.rf loftWin (0x800 + 4 * i) 5 0 = spill))
  let moved := decide (mem ≠ s.poolMem p) || decide (fld v 29 29 ≠ bit (s.poolSpills p)) || decide (spill ≠ s.poolSpill p)
  (decide (fld v 29 29 = 0) || (decide (mem = 1) && decide (s.poolMem spill = 2) && !s.poolSpills spill && !named))
    && !(moved && s.poolBusy p)
    && (decide (mem = s.poolMem p) || decide (mem = 0) || decide (top ≤ (if mem = 1 then 393216 else s.rf loftWin 0x600 15 8 * 1048576)))
    && !(s.fallowHolds && decide (mem = 1) && decide (s.poolBase p < 393216) && decide (327680 < top) && decide (0 < s.poolSize p))

/-- Whether a table memory region may take a configuration (R381). -/
def State.regionOk (s : State) (r : Nat) (v : Word32) : Bool :=
  let mask : Word32 := 0x7FFF8FFF
  let old := s.reg tmcWin (0x100 + 8 * r)
  let size := s.rf tmcWin (0x104 + 8 * r) 31 20
  let base := s.rf tmcWin (0x104 + 8 * r) 7 0
  let chans := maskBits (fld v 11 0)
  if s.tmEn r then (v &&& mask == old &&& mask) && (decide (fld v 31 31 = 1) || !(decide (r < 15) && s.tmEn (r + 1)))
  else if fld v 31 31 = 0 then true
  else (decide (r = 0) || s.tmEn (r - 1)) && !chans.isEmpty
    && chans.all (fun c => decide ((s.gathOf (tmChannelWin c)).own ≠ .absent))
    && decide (size ≠ 0) && decide (size % chans.length = 0)
    && chans.all (fun c => decide (base + size / chans.length ≤ s.rf (tmChannelWin c) 0x100 31 23))

/-- The size of Rick's ring under a configuration (R375). -/
def rickBytes (v : Word32) : Nat := 32 * (fld v 22 16 * 1048576 * (60 * fld v 28 24))

/-- The rules of the units' chapters that a write must keep (R11 and the chapters): `idx` is the register's index. -/
def State.ruleOk (s : State) (w off idx : Nat) (v : Word32) : Bool :=
  let gib := 0x40000000
  match kindOf w with
  | 0x01 => if off = 0xD10 then decide (fld v 15 8 < fld v 7 0) && decide (fld v 7 0 ≤ 118) else true
  | 0x03 =>
    if 0x22C0 ≤ off ∧ off < 0x2300 then s.entryOk w ((off - 0x2200) / 4) v else true
  | 0x06 =>
    let n := w - 249
    if off = 0x100 then s.portCfgOk n v
    else if off = 0x108 then
      decide (s.portState n = .quiet) || decide (s.portState n = .off) || (decide (fld v 31 30 = 0) && decide (fld v 26 25 = 0))
    else true
  | 0x07 =>
    decide (off ≠ 0x100) || decide (fld v 19 15 = s.rf w 0x100 19 15)
      || (windows 284 32).all (fun c => decide ((s.gathOf c).own = .off) || decide ((s.gathOf c).own = .absent))
  | 0x08 => decide (off ≠ 0x100) || (decide (fld v 11 0 < fld v 23 12) && decide (fld v 23 12 ≤ 128))
  | 0x0A =>
    if 0x100 ≤ off ∧ off < 0x180 then
      if off % 8 = 0 then s.regionOk idx v else !s.tmEn idx || v &&& 0xFFF000FF == s.reg w off &&& 0xFFF000FF
    else if off = 0x200 then
      decide (fld v 23 23 = s.rf w 0x200 23 23)
        || (windows 317 12).all (fun c => decide ((s.gathOf c).own = .off) || decide ((s.gathOf c).own = .absent))
    else true
  | 0x0C => if 0x200 ≤ off ∧ off < 0x280 then s.dbOk idx v else true
  | 0x0E =>
    if off = 0x100 then decide (fld v 4 0 = s.rf w 0x100 4 0) || (List.range 16).all (fun t => decide (s.wtPlace t ≠ 3))
    else if 0x1000 ≤ off ∧ off % 256 = 0 then s.tableOk idx v (s.reg w (off + 4))
    else if 0x1000 ≤ off ∧ off % 256 = 4 then s.tableOk idx (s.reg w (off - 4)) (v &&& 0x3FFFFFFF)
    else true
  | 0x0F => decide (off ≠ 0x1A0) || decide (fld v 27 24 ≤ 6)
  | 0x12 =>
    if 0x600 ≤ off ∧ off < 0x680 then decide (fld v 19 0 + 2 ^ fld v 28 24 ≤ 1048576)
    else if 0x680 ≤ off ∧ off < 0x700 then decide (fld v 12 0 + fld v 26 16 ≤ 8192)
    else if 0x4000 ≤ off then stageLegal (idx % 12) v
    else true
  | 0x18 =>
    if 0x100 ≤ off ∧ off < 0x500 then
      match off % 16 with
      | 0 => s.poolCfgOk ((off - 0x100) / 16) v
      | 12 => true
      | _ => decide (s.poolMem ((off - 0x100) / 16) = 0)
    else if off = 0x600 then
      decide (fld v 7 0 * 0x10000000 + fld v 15 8 * 1048576 * 268 ≤ 0xC00000000)
        && ((fld v 15 0 == s.rf w 0x600 15 0) || (List.range 64).all (fun p => decide (s.poolMem p ≠ 2)))
    else if 0x1000 ≤ off ∧ off < 0x1800 then decide (fld v 15 0 < fld v 31 16)
    else true
  | 0x1A =>
    let en := s.rf w 0x104 31 31 = 1
    let rick := s.rf w 0x200 31 31 = 1
    if off = 0x104 then decide (fld v 11 0 * gib + 543581798400 ≤ s.tmPopulated) && (!en || decide (fld v 11 0 = s.rf w 0x104 11 0))
    else if off = 0x108 then decide (fld v 21 0 * 0x100000 + 2123366400 ≤ s.tmPopulated) && (!en || decide (fld v 21 0 = s.rf w 0x108 21 0))
    else if off = 0x200 then
      decide (s.rf w 0x208 11 0 * gib + rickBytes v ≤ s.tmPopulated)
        && (!rick || (decide (fld v 28 24 = s.rf w 0x200 28 24) && decide (fld v 22 16 = s.rf w 0x200 22 16)))
    else if off = 0x208 then
      decide (fld v 11 0 * gib + rickBytes (s.reg w 0x200) ≤ s.tmPopulated) && (!rick || decide (fld v 11 0 = s.rf w 0x208 11 0))
    else true
  | 0x1B =>
    if 0x2000 ≤ off then
      let x := s.lock idx
      (x.holder.isNone && x.queue.isEmpty) || (decide (fld v 31 30 = s.rf w off 31 30) && decide (fld v 13 0 = s.rf w off 13 0))
    else true
  | 0x1C => if 0x100 ≤ off ∧ off < 0x200 then (match budgetOf (idx / 5) (idx % 5) with
      | some (low, _) => decide (low ≤ fld v 15 0)
      | none => true) else true
  | 0x1F =>
    if 0x1000 ≤ off ∧ off < 0x2000 then
      let f := fld v 29 24
      decide (fld v 31 30 ≠ 2) || decide (f = 0) || (decide (512 ≤ idx) && (decide (idx < 832) || decide (896 ≤ idx)) && decide (fld v 23 16 < 8))
    else true
  | _ => true

/-! ### GPIO inputs (R494, R532) -/

/-- An input of the board. -/
def State.gpio (s : State) (n : Nat) : GpioSt := SMap.get (fun _ => GpioSt.zero) s.board.gpio n

/-- Whether an input's pin is at the level that polarity selects. -/
def State.gpioAtLevel (s : State) (n : Nat) : Bool := (s.gpio n).level == decide (s.rf deviceWin (0xC00 + 16 * n) 30 30 = 1)

/-- The inputs of a set change now as they read: what they hold, they hold from now on. -/
def State.gpioMoved (s : State) (which : Nat → Bool) : State :=
  s.modBoard (fun b => { b with gpio := ((List.range 16).filter which).foldl (fun (m : SMap GpioSt) n =>
    SMap.set (fun _ => GpioSt.zero) m n { SMap.get (fun _ => GpioSt.zero) m n with since := s.time.cycles }) b.gpio })

/-- The pins or the polarities of inputs change: the inputs read so while VDD_IO is good, and inactive without it (R494). -/
def State.gpioTurned (s : State) (which : Nat → Bool) : State := if s.board.railsGood.getD 6 false then s.gpioMoved which else s

/-! ### Writes -/

/-- What a write of a register does beyond setting it, once it is accepted: `old` is what it held, `v` what was written. -/
def State.wrote (s : State) (w : Win) (off idx : Nat) (old v : Word32) : State :=
  let go := fld v 31 31 = 1
  match kindOf w.val with
  | 0x01 =>
    if off = 0x400 ∧ go then (match fld v 1 0 with
      | 1 => s.handover
      | 2 => s.fallowStop
      | _ => s)
    else if 0xC00 ≤ off ∧ off < 0xD00 ∧ off % 16 = 0 ∧ fld old 30 30 ≠ fld v 30 30 then s.gpioTurned (fun n => decide (n = (off - 0xC00) / 16))
    else s
  | 0x03 => if off = 0x204 ∧ go then (if fld v 0 0 = 1 then s.winWrite (w.val - 5) else s.winRead (w.val - 5)) else s
  | 0x04 =>
    if off = 0x100 then
      let t := 8 * (w.val - 29) + fld v 10 8
      match fld v 3 0 with
      | 1 => s.dbgHaltCmd t
      | 2 => s.dbgResumeCmd t
      | 3 => s.dbgStepCmd t
      | 4 => s.dbgResetCmd t
      | _ => s
    else s
  | 0x06 =>
    if off = 0x10C ∧ go then Res.settled s (execPortRecalGo (Fin.ofNat 32 (w.val - 249)) s)
    else if off = 0x108 then s.settleLock (w.val - 249)
    else s
  | 0x07 => if off = 0x200 then s.postponeSet false (fun k => (s.setReg bmcWin 0x200 old).refreshForced k) else s
  | 0x0A => if off = 0x200 then s.postponeSet true (fun k => (s.setReg tmcWin 0x200 old).refreshForced k) else s
  | 0x09 => if off = 0x104 ∧ go then Res.settled s (execChRetrain w s) else s
  | 0x0B => if off = 0x104 ∧ go then Res.settled s (execChRetrain w s) else s
  | 0x0C =>
    if 0x400 ≤ off ∧ off < 0x800 ∧ off % 256 = 0xB0 ∧ go then s.lingGo (off / 256 - 4) (fld v 27 24) (fld v 23 22) (fld v 20 16) (fld v 14 0)
    else if 0x200 ≤ off ∧ off < 0x280 then s.lingRetry
    else s
  | 0x0E =>
    if 0x1000 ≤ off ∧ off % 256 = 0 ∧ (fld v 15 15 = 0 ∨ fld old 15 15 = 0 ∨ fld v 28 24 ≠ fld old 28 24) then s.sweepFree idx true
    else if off = 0x104 then s.learnCfgWritten old
    else s
  | 0x0F =>
    if off = 0x1A0 ∧ go then
      s.warrenGo (w.val - 397) (fld v 27 24) (fld v 23 20) (fld v 19 19 = 1) (fld v 18 18 = 1) (fld v 17 17 = 1)
    else s
  | 0x10 => if off = 0x200 ∧ go then Res.settled s (execGraphSwitch s) else s
  | 0x12 => if off = 0x504 ∧ go then s.windrowIndirect (fld v 1 0) else s
  | 0x16 =>
    if off = 0x104 ∧ go then s.droverIndirect (fld v 1 0)
    else if off = 0x140 ∧ go then Res.settled s (execDroverFlush (BitVec.ofNat 17 (fld v 16 0)) s)
    else if 0x400 ≤ off ∧ off < 0x480 then (s.settlePfc idx).pfcModeSet idx (fld old 31 30)
    else s
  | 0x18 =>
    if 0x100 ≤ off ∧ off < 0x500 ∧ off % 16 = 0 then
      let p := (off - 0x100) / 16
      if fld old 31 30 = fld v 31 30 then s
      else (s.setStack p ⟨[], 0, false⟩).modLoft (fun l => { l with deferred := l.deferred.filter (fun e => decide (e.1 ≠ p)) })
    else if 0x700 ≤ off ∧ off < 0x790 then s.updatePortXoff ((off - 0x700) / 4)
    else if (0x800 ≤ off ∧ off < 0xD00) ∨ (0x1000 ≤ off ∧ off < 0x1800) then s.updateXoff (idx / 8) (idx % 8)
    else if (0x2000 ≤ off ∧ off < 0x4000) ∨ 0x5000 ≤ off then s.keepFormer off old
    else s
  | 0x1A => if off = 0x104 ∧ fld old 31 31 = 0 ∧ go then s.modSheaf (fun x => { x with chains := [], rootPrev := none }) else s
  | 0x1B => if off = 0x10C ∧ go then s.stileForce (fld v 12 0) else s
  | 0x1D => if off = 0x300 ∧ go then s.logClear (fld v 24 16) (fld v 14 8) (fld v 3 0) else s
  | 0x20 =>
    if off = 0x110 then (if fld old 31 30 ≠ fld v 31 30 then s.selectSource else s.showTime)
    else if off = 0x128 ∧ go then Res.settled s (execTimeStepGo s)
    else s
  | _ => s

/-- A write of UCB_CTRL (R17, R539). -/
def State.writeCtrl (s : State) (w : Nat) (v : Word32) : Bool × State :=
  let c := fld v 3 0
  if 8 ≤ c then (false, s.cfgReject w 0x14)
  else match ucbCmdOf c with
    | some c => (true, s.command w c)
    | none => (true, s)

/-- Whether a write of a register is ignored for what the unit says of it: a field that is RO there, or a source that sets it. -/
def State.ignores (s : State) (w off idx : Nat) : Bool :=
  match kindOf w with
  | 0x1C => decide (0x100 ≤ off ∧ off < 0x200 ∧ (budgetOf (idx / 5) (idx % 5)).isNone)
  | 0x20 => decide (off = 0x118 ∧ s.rf timeWin 0x110 31 30 = 2)
  | _ => decide (off = 0x38 ∧ !hasSpares w)

/-- The value that a write gives a register whose row of the map is `r`. -/
def State.newValue (s : State) (w off idx : Nat) (r : RegRow) (v again : Word32) : Word32 :=
  let old := s.reg w off
  if kindOf w = 0x12 ∧ 0x4000 ≤ off then v &&& stageMask (idx % 12)
  else
    let x := r.written old v again
    if kindOf w = 0x10 ∧ 0x100 ≤ off ∧ off < 0x190 ∧ idx ≠ 32 ∧ idx ≠ 33 ∧ idx ≠ 35 then putFld x 8 8 0 else x

/-- A write of UCB_EVENT_SUMMARY beyond its bits: clearing cfg_reject returns UCB_REJECT_ADDR to zero, and a rejection that arrives in the same
cycle is the one captured (R18). Bit 0 of `again` says that one arrives, bits 31 to 16 its offset (log 41). -/
def State.writeSummary (s : State) (w : Nat) (v again : Word32) : State :=
  let s1 := if fld v 0 0 = 1 then s.setReg w 0x28 0 else s
  if fld again 0 0 = 1 then s1.cfgReject w (fld again 31 16) else s1

/-- A write of a register of a window (R6, R8, R10 to R12, R18, R41): whether it was accepted, and the state. `again`: the W1C sources
that assert in the same cycle. -/
def State.writeReg (s : State) (w : Win) (off : Nat) (v again : Word32) : Bool × State :=
  if s.heldInReset ∧ w.val ≠ 0 then (true, s)
  else if w.val = spineWin ∧ off = 0x300 then
    (true, if fld v 31 30 = 0 then s else s.portRequest 64 (fld v 31 30 - 1) (fld v 12 0))
  else if w.val = spineWin ∧ off = 0x308 then (true, s)
  else match regAt w.val off with
    | none => (true, s.count w.val 0x2C)
    | some (r, idx) =>
      if kindOf w.val = 0x03 ∧ 0x1000 ≤ off ∧ off < 0x2000 then
        let s1 := s.pageWrite (w.val - 5) (off - 0x1000) v
        (!(decide (off = 0x1914) && (decide (72 ≤ fld v 6 0) || decide (fld v 9 8 = 3))),
          if off = 0x1910 then s1.setReg w.val off (s1.reg w.val off ||| (again &&& 2)) else s1)
      else if off = 0x14 then s.writeCtrl w.val v
      else if kindOf w.val = 0x04 ∧ off = 0x100 ∧ !s.threadDebug then (true, s.setEvent w.val 0x104 0)
      else if w.val = spineWin ∧ 0x100 ≤ off ∧ off < 0x180 then (true, s.clearEvents 64 idx (v &&& ~~~again))
      else if w.val = spineWin ∧ 0x180 ≤ off ∧ off < 0x200 then (true, s.writeEvMask 64 idx v)
      else if s.ignores w.val off idx then (true, s)
      else if !stagesEntry w.val off && !(r.legal v && s.ruleOk w.val off idx v) then (false, s.cfgReject w.val off)
      else
        let old := s.reg w.val off
        let again' : Word32 := if off = 0x20 then again &&& ~~~1 else again
        let s1 := s.setReg w.val off (s.newValue w.val off idx r v again')
        let s2 := if off = 0x20 then s1.writeSummary w.val v again else s1
        (true, (s2.wrote w off idx old v).settleLevel w.val)

/-! ### BAR0 of a function (R434 to R442, R448, R457) -/

/-- HOST_FUNC and HOST_STATUS. -/
def State.hostFunc (s : State) (f : Nat) : Word32 :=
  let b := (s.func f).bound
  BitVec.ofNat 32 (b.getD 0 * 2 ^ 8 + bit b.isSome * 2 ^ 7 + bit (decide (0 < f)) * 2 ^ 6 + f)
def State.hostStatus (s : State) (f : Nat) : Word32 :=
  BitVec.ofNat 32 ((s.reported deviceWin).1.code * 2 ^ 24 + bit (s.func f).stileOvf * 2 ^ 19 + bit s.fallowRuns * 2 ^ 18 + bit s.spine.slotB * 2 ^ 17
    + bit s.spine.up * 2 ^ 16)

/-- The registers of a function's mailbox page. -/
def FuncSt.page (x : FuncSt) (off : Nat) : Word32 :=
  match off with
  | 0x000 => x.reqBase.setWidth 32
  | 0x004 => (x.reqBase >>> 32).setWidth 32
  | 0x008 => x.rspBase.setWidth 32
  | 0x00C => (x.rspBase >>> 32).setWidth 32
  | 0x010 => BitVec.ofNat 32 (bit x.en * 2 ^ 31 + bit x.err * 2 ^ 30 + bit x.rej * 2 ^ 29 + x.reqLog * 2 ^ 8 + x.rspLog * 2 ^ 4)
  | 0x014 => BitVec.ofNat 32 x.reqTail
  | 0x018 => BitVec.ofNat 32 x.reqHead
  | 0x01C => BitVec.ofNat 32 x.rspTail
  | 0x020 => BitVec.ofNat 32 x.rspHead
  | 0x024 => BitVec.ofNat 32 (x.inFlight * 2 ^ 8 + x.credits)
  | _ => 0

/-- The registers of a queue pair's doorbell page. -/
def QpSt.page (x : QpSt) (off : Nat) : Word32 :=
  match off with
  | 0 => BitVec.ofNat 32 x.sqTail
  | 4 => BitVec.ofNat 32 x.cqHead
  | 8 => BitVec.ofNat 32 (bit (decide (x.kind ≠ 0)) * 2 ^ 31 + bit x.stalled * 2 ^ 30 + x.kind * 2 ^ 28 + x.sqHead % 65536)
  | _ => 0

/-- A read of a register of a function's BAR0. -/
def State.readBar (s : State) (f off : Nat) : Word32 × State :=
  let x := s.func f
  if !s.serving pcieWin then (0, s)
  else if off = 0 then (0x320000B0, s)
  else if off = 4 then (s.hostFunc f, s)
  else if off = 8 then (s.hostStatus f, s)
  else if off = 0x108 then
    let r := s.portRead f
    (r.1.setWidth 32, r.2)
  else if off = 0x110 then (BitVec.ofNat 32 (if f = 0 then x.bar2Tenant else x.bound.getD 0), s)
  else if off = 0x114 then (BitVec.ofNat 32 x.rickView, s)
  else if 0x100000 + 0x1000 * f ≤ off ∧ off < 0x101000 + 0x1000 * f then (x.page (off % 0x1000), s)
  else if 0x200000 ≤ off ∧ off < 0x200080 ∧ off % 4 = 0 then
    let k := (off - 0x200000) / 4
    (s.reg spineWin (0x100 + 4 * k) &&& s.viewMask f k, s)
  else if 0x200100 ≤ off ∧ off < 0x200180 ∧ off % 4 = 0 then
    let k := (off - 0x200100) / 4
    (s.reg spineWin (0x180 + 4 * k) &&& s.viewMask f k, s)
  else if 0x300000 ≤ off ∧ off < 0x300000 + 16 * vectorsOf f ∧ off % 4 = 0 then
    let i := (off - 0x300000) / 4
    (if i % 4 = 3 then BitVec.ofNat 32 (bit (!SMap.get (fun _ => false) x.unmasked (i / 4))) else SMap.get (fun _ => 0) x.msix i, s)
  else if 0x308000 ≤ off ∧ off < 0x308000 + vectorsOf f / 8 ∧ off % 4 = 0 then
    (BitVec.ofNat 32 (flagsWord 32 (fun i => x.isPending (8 * (off - 0x308000) + i))), s)
  else if 0x400000 ≤ off ∧ off < 0x500000 ∧ (s.qp ((off - 0x400000) / 0x1000)).owner = some f then
    ((s.qp ((off - 0x400000) / 0x1000)).page (off % 0x1000), s)
  else (0, s)

/-- A write of MB_CFG (R442). -/
def FuncSt.writeCfg (x : FuncSt) (v again : Word32) : FuncSt :=
  let req := fld v 11 8
  let rsp := fld v 7 4
  let x1 := { x with err := (x.err && !v.getLsbD 30) || again.getLsbD 30, rej := (x.rej && !v.getLsbD 29) || again.getLsbD 29 }
  let bad := req < 4 ∨ 10 < req ∨ rsp < 4 ∨ 10 < rsp ∨ (x.en ∧ (req ≠ x.reqLog ∨ rsp ≠ x.rspLog))
  if bad then { x with rej := true, err := x.err || again.getLsbD 30 }
  else
    let x2 := { x1 with en := v.getLsbD 31, reqLog := req, rspLog := rsp }
    if v.getLsbD 31 ∧ !x.en then { x2 with restart := true, stopped := false }.restarted else x2

/-- A write of a ring base: one that changes it is discarded while the rings are enabled (R442). -/
def FuncSt.writeBase (x : FuncSt) (rsp hi : Bool) (v : Word32) : FuncSt :=
  let put (old : Word64) : Word64 :=
    if hi then (v ++ old.setWidth 32 : BitVec 64) else ((old >>> 32).setWidth 32 ++ (v &&& 0xFFFFFF00) : BitVec 64)
  let y := if rsp then { x with rspBase := put x.rspBase } else { x with reqBase := put x.reqBase }
  if x.en ∧ y ≠ x then { x with rej := true } else y

/-- A write of a function's mailbox page. -/
def FuncSt.writePage (x : FuncSt) (off : Nat) (v again : Word32) : FuncSt :=
  match off with
  | 0x000 => x.writeBase false false v
  | 0x004 => x.writeBase false true v
  | 0x008 => x.writeBase true false v
  | 0x00C => x.writeBase true true v
  | 0x010 => x.writeCfg v again
  | 0x014 => { x with reqTail := fld v 15 0 }
  | 0x020 => { x with rspHead := fld v 15 0 }
  | _ => x

/-- A write of a queue pair's doorbell page. -/
def QpSt.writePage (x : QpSt) (off : Nat) (v : Word32) : QpSt :=
  match off with
  | 0 => { x with sqTail := fld v 15 0 }
  | 4 => { x with cqHead := fld v 15 0 }
  | _ => x

/-- A write of a register of a function's BAR0. -/
def State.writeBar (s : State) (f off : Nat) (v again : Word32) : State :=
  let x := s.func f
  if !s.serving pcieWin then s
  else if off = 8 then (if v.getLsbD 19 ∧ !again.getLsbD 19 then s.setFunc f { x with stileOvf := false } else s)
  else if off = 0x100 then (if fld v 31 30 = 0 then s else s.portRequest f (fld v 31 30 - 1) (fld v 12 0))
  else if off = 0x110 then (if f = 0 then s.setFunc f { x with bar2Tenant := fld v 13 0 } else s)
  else if off = 0x114 then s.setFunc f { x with rickView := fld v 11 0 }
  else if 0x100000 + 0x1000 * f ≤ off ∧ off < 0x101000 + 0x1000 * f then s.setFunc f (x.writePage (off % 0x1000) v again)
  else if 0x200000 ≤ off ∧ off < 0x200080 ∧ off % 4 = 0 then s.clearEvents f ((off - 0x200000) / 4) (v &&& ~~~again)
  else if 0x200100 ≤ off ∧ off < 0x200180 ∧ off % 4 = 0 then s.writeEvMask f ((off - 0x200100) / 4) v
  else if 0x300000 ≤ off ∧ off < 0x300000 + 16 * vectorsOf f ∧ off % 4 = 0 then
    let i := (off - 0x300000) / 4
    if i % 4 = 3 then (s.setFunc f { x with unmasked := SMap.set (fun _ => false) x.unmasked (i / 4) (!v.getLsbD 0) }).flushVectors f
    else s.setFunc f { x with msix := SMap.set (fun _ => 0) x.msix i v }
  else if 0x400000 ≤ off ∧ off < 0x500000 ∧ (s.qp ((off - 0x400000) / 0x1000)).owner = some f then
    s.setQp ((off - 0x400000) / 0x1000) ((s.qp ((off - 0x400000) / 0x1000)).writePage (off % 0x1000) v)
  else s

/-! ### The rows -/

/-- REGISTER_WRITE: a write of one register (R11 and the rules above). -/
def execRegisterWrite (reg : RegAddr) (val again : BitVec 32) (s : State) : Res :=
  match reg with
  | .unit w off => .next (s.writeReg w off.toNat val again).2
  | .bar0 f off => .next (s.writeBar f.val off.toNat val again)

/-- RC_READ: a read of one register; what arrives at an RC counter in the same cycle is held after the clear (R7). -/
def execRcRead (reg : RegAddr) (arriving : BitVec 32) (s : State) : Res :=
  match reg with
  | .unit w off =>
    let r := s.readReg w.val off.toNat
    let counts := match regAt w.val off.toNat with
      | some (row, _) => row.counts
      | none => false
    let s1 := if counts then r.2.countBy w.val off.toNat arriving.toNat else r.2
    .next { s1 with readData := r.1.setWidth 256 }
  | .bar0 f off =>
    let r := s.readBar f.val off.toNat
    .next { r.2 with readData := r.1.setWidth 256 }

/-- RESERVED_ACCESS: an access to an offset that no register holds, or an access of the UCB that is not an aligned one of 32 bits, reads
zero or is ignored, and is counted (R12, R17). -/
def execReservedAccess (w : Fin 512) (off : BitVec 16) (size : BitVec 4) (write : Bool) (s : State) : Res :=
  let o := off.toNat
  let whole := size = 4 ∧ o % 4 = 0
  let stile := w.val = spineWin ∧ (o = 0x300 ∨ o = 0x308)
  if (o < 0x100 ∧ ¬ whole) ∨ ((regAt w.val o).isNone ∧ ¬ stile) then
    let s1 := if w.val < 430 then s.count w.val 0x2C else s
    .next (if write then s1 else { s1 with readData := 0 })
  else .next s

/-- CAPTURE_READ: a read of TIME_NOW_0, or of SHEAF_QUERY_DATA_0, captures all 64 bits (R464). -/
def execCaptureRead (sheaf : Bool) (s : State) : Res :=
  let r := if sheaf then s.readReg sheafWin 0x124 else s.readReg timeWin 0x100
  .next { r.2 with readData := r.1.setWidth 256 }

end Sys2Proof.Machine
end

