-- ==== Sys2Proof/Machine/Trust.lean ====
section
/-! DEFINITION. Boot, resets, zeroisation and the security state (19, R475 to R477, R485, R488 to R491; 20, R493 to R499). -/

namespace Sys2Proof.Machine

/-! ### Zeroisation (R485) -/


/-- Every MACsec slot of a port emptied, every generation raised. -/
def State.zeroPort (s : State) (n : Nat) : State :=
  let p := s.port n
  s.setPort n { p with sas := [], saGens := (List.range 68).map (fun i => (i, s.saGen n i + 1)) }

/-- A thread's Clasp context overwritten: its registers, its selection and stream, and what its operation under way would write. -/
def Thread.zeroClasp (th : Thread) : Thread :=
  { th with
    clasp := ⟨[], th.clasp.ops.map (fun o => { o with writes := o.writes.map (fun l => l.map (fun e => (e.1, 0))) })⟩,
    hidden := .zero }

/-- The save areas of the Clasp contexts of a Quire overwritten (R260). -/
def QuireSt.zeroSaves (x : QuireSt) : QuireSt :=
  { x with shared := x.shared.filter (fun c => decide (c.1 < 0x3F6000) || decide (0x3FF000 ≤ c.1)) }

/-- ZEROISE: every key slot, every MACsec slot, every Clasp context and the unwrap queue is overwritten, every generation raised (R485). -/
def State.zeroise (s : State) : State :=
  let s1 := s.modKeys (fun _ => (List.range 1024).map (fun k => (k, ⟨none, (s.keySlot k).gen + 1⟩)))
  let s2 := (List.range 32).foldl State.zeroPort s1
  let s3 := s2.modThreads (fun m => m.map (fun (e : Nat × Thread) => (e.1, e.2.zeroClasp)))
  (s3.modQuires (fun m => m.map (fun (e : Nat × QuireSt) => (e.1, e.2.zeroSaves)))).abortUnwrapping

/-! ### Tamper and debug (R488 to R491) -/

/-- The JTAG instruction that takes effect: EXTEST and SAMPLE/PRELOAD only in reset, others only in DEBUG with its scope and once step 6 of the
trust chain has given Spine its Folio, else BYPASS (R476). -/
def State.jtagTakes (s : State) (i : JtagIns) : JtagIns :=
  let open' := decide (s.trust.sec = .debug) && s.trust.scope.testBit 1 && s.spine.folio.isSome
  match i with
  | .idcode => i
  | .bypass => i
  | .samplePreload => if s.heldInReset || open' then i else .bypass
  | .extest => if s.heldInReset || open' then i else .bypass
  | .other _ => if open' then i else .bypass

/-- The instruction that was given holds on as far as it is still offered. -/
def State.settleJtag (s : State) : State := s.modBoard (fun b => { b with jtag := s.jtagTakes b.jtag })

/-- What tamper does: zeroisation, the device keys erased, LOCKED (R490). -/
def State.tamper (s : State) : State :=
  ((s.zeroise.modTrust (fun t => { t with erased := true, scope := 0 })).setSec .locked).settleJtag

/-- TAMPER: a supply or clock glitch detector fires; while the AON domain counts, the clock's is not armed, and which of the two it is is free
(R490, R528; log 116). -/
def execTamper (s : State) : Res :=
  if s.counting ∧ s.freeBits.testBit 0 then .next s.stepFresh else .next (if s.counting then s.stepFresh else s).tamper

/-- CHALLENGE_EXPIRY: ten minutes of the TIME domain after its drawing a challenge is no longer valid (R488). -/
def execChallengeExpiry (s : State) : Res :=
  match s.trust.challenge with
  | some (_, t) => if t + 600000000000 ≤ s.time.cycles then .next (s.modTrust (fun t => { t with challenge := none })) else .next s
  | none => .next s

/-! ### Device reset (R9, R495) -/

/-- The straps are latched (R496). -/
def State.latchStraps (s : State) : State := s.modBoard (fun b => { b with latched := b.straps, latchDue := false, unlatched := false })

/-- The board through a device reset: levels, rails, sensors and the trip stay; cycles are counted from zero again. -/
def BoardSt.restart (b : BoardSt) (now : Nat) : BoardSt :=
  { b with powerAt := 0, warn := false, crit := false, jtag := .bypass, bootDue := true, gpio := b.gpio.map (fun (e : Nat × GpioSt) => (e.1, { GpioSt.zero with level := e.2.level })),
           countEnd := b.countEnd - now }

/-- The trust engine through a device reset: the fuses stay, and the security state is theirs (R489, R495). -/
def TrustSt.restart (t : TrustSt) : TrustSt :=
  { State.reset.trust with
    sec := if t.banks.isEmpty then .unowned else .owned
    banks := t.banks
    counters := t.counters
    revoked := t.revoked
    recordSeq := t.recordSeq }

/-- PORT_CFG.mode of every port takes the reset value of the latched port map (R340, R531). -/
def State.resetModes (s : State) : State := (List.range 32).foldl State.resetMode s

/-- The soft repair record with the highest sequence that the trust engine holds. -/
def State.latestRecord (s : State) : Option Image :=
  let recs := (s.trust.images.map (·.2)).filter (fun i => i.kind == 3 && i.recordOk)
  recs.foldl (fun b i => match b with
    | some x => if x.sequence < i.sequence then some i else b
    | none => some i) none

/-- A device start applies the entries of a record that name units that accept no record themselves (R416). -/
def State.applyOthers (s : State) (r : Option Image) : State :=
  match r with
  | some i => (i.repairs.filter (fun e => !acceptsKind e.win 3)).foldl State.applyRepair s
  | none => s

/-- Device reset: every Gathering and the trust engine; fuses, the board and host memory stay (R495). -/
def State.deviceReset (s : State) : State :=
  let fresh : State := { State.reset with
    pending := s.pending
    fresh := s.fresh
    readData := s.readData
    variant := s.variant
    trust := s.trust.restart
    board := s.board.restart s.time.cycles
    spine := { State.reset.spine with host := s.spine.host }
    mower := { State.reset.mower with
      repaired := s.mower.repaired.filter (fun e => e.info = 3)
      errs := s.mower.errs.flatMap (fun e => { e with mask := e.stuck, poison := false, flip := 0 }.left) } }
  fresh.resetModes.absentChannels.applyOthers s.latestRecord

/-- SYS_RESET: SYS_RESET_N has been low for 1 µs and rises: device reset, the straps latched if VDD_IO is good, the trust chain due; a
tripped device that has cooled is released (R495, R496, R536). -/
def execSysReset (s : State) : Res :=
  let b := s.board
  let s1 := s.modBoard (fun b => { b with trip := b.trip && !b.cooled, cooled := false, latchDue := true })
  let s2 := if b.railsGood.getD 6 false ∧ b.railsGood.getD 7 false then s1.latchStraps else s1
  .next s2.deviceReset

/-! ### The trust chain (R475, R498, R499) -/

/-- DEVICE_BOOT.step. -/
def State.bootStep (s : State) (n : Nat) : State := s.setRf deviceWin 0x204 3 0 n

/-- The signing keys, the image key and the wrapping keys are derived (R475 step 2); in LOCKED those that tamper erased stay erased
(R490, log 97). -/
def State.diceLayer0 (s : State) : State := (s.modTrust (fun t => { t with erased := decide (t.sec = .locked) })).bootStep 2

/-- Steps 5 and 6 of R475 for a Folio that passed R472: the CDI, the load of R474, and Spine runs it. `source`: 0 flash slot A, 1 slot B,
2 host push. An image whose tag fails is not run, and the ROM waits. -/
def State.bootFolio (s : State) (i : Image) (source : Nat) : State :=
  let s1 := ((s.modSpine (fun x => { x with folio := some i })).deriveCdi).bootStep 5
  if !i.tagOk then s1.modSpine (fun x => { x with rom := true, folio := none })
  else
    let ms := min 0xFFFF ((s1.time.cycles - s1.board.powerAt) / 1000000)
    let s2 := (s1.setRf deviceWin 0x204 9 8 source).setRf deviceWin 0x204 31 16 ms
    let s3 := (s2.bootStep 6).modSpine (fun x => { x with up := true, rom := false, slotB := decide (source = 1) })
    ((s3.enterState spineWin .inService).setRunning spineWin i).raiseCounter i

/-- An image failed under R472. -/
def State.verifyFailed (s : State) : State := s.setEvent deviceWin 0x120 0

/-- Steps 3 and 4 of R475: the ROM tries slot A, then slot B, unless the straps name host push only; then it waits for a pushed Folio, with
step 3 completed where it has read slot A (log 93). The flash is read through VDD_IO. -/
def State.romBoots (s : State) (flashA flashB : List Byte) : State :=
  let wait (s : State) : State := s.modSpine (fun x => { x with rom := true })
  let read (l : List Byte) : Image := ⟨4, if s.board.railsGood.getD 6 false then l else [], []⟩
  if s.board.latched % 4 = 1 then wait s
  else if (s.verifyImage (read flashA)).isNone then (s.bootStep 3).bootFolio (read flashA) 0
  else if (s.verifyImage (read flashB)).isNone then ((s.verifyFailed).bootStep 4).bootFolio (read flashB) 1
  else wait (s.verifyFailed.bootStep 3)

/-- BOOT: the trust chain, where it is due and the device is out of reset; step 1 is completed already where the chain reruns from step 2 (R494).
`selfTest`: the fuse check and the trust engine's self-test pass; otherwise one of them fails, which of the two is free where both are run, and the
chain stops before it in LOCKED. The AON sequencer starts the PCIe endpoint (R499). -/
def execBoot (flashA flashB : List Byte) (selfTest : Bool) (s : State) : Res :=
  if !s.board.bootDue ∨ s.heldInReset then .next s
  else
    let s0 := s.modBoard (fun b => { b with bootDue := false })
    if selfTest then .next (((s0.bootStep 1).diceLayer0.command pcieWin .start).romBoots flashA flashB)
    else if s.rf deviceWin 0x204 3 0 = 0 ∧ s.freeBits.testBit 0 then .next s0.stepFresh.tamper
    else .next (s0.stepFresh.bootStep 1).tamper

/-! ### Supplies (R493, R494) -/

/-- The effects of a lost VDD_CORE or VDD_SRAM: every Gathering is reset to OFF, Fallow stops, the trust engine forgets all but the fuses and
the security state; the chain is due (R494). -/
def State.coreLost (s : State) : State :=
  let s1 := (List.range 430).foldl State.resetUnit s
  let s2 := s1.modTrust (fun t => { t.restart with sec := t.sec, scope := t.scope, erased := t.erased })
  let s3 := s2.modSpine (fun x => { x with up := false, rom := false, folio := none, leaving := none })
  let s4 := (s3.modKeys (fun _ => [])).modBoard (fun b => { b with bootDue := true })
  (if s.rf deviceWin 0x204 3 0 = 0 ∧ (s.board.bootDue ∨ s.trust.sec = .locked) then s4 else s4.bootStep 1).settleJtag

/-- Gatherings fail with their rail. -/
def State.failAll (s : State) (ws : List Nat) : State := ws.foldl (fun (s : State) w => s.failUnit w) s

/-- Memory channels fail with their rail, and their content is lost. -/
def State.failChannels (s : State) (ws : List Nat) : State := ws.foldl (fun (s : State) w => (s.failUnit w).channelLost w) s

/-- A rail's monitored voltage becomes some value below a limit, or from a low to a high limit. -/
def State.railVolts (s : State) (r low high : Nat) : State :=
  (s.modBoard (fun b => { b with volts := setAt b.volts r (low + s.freeBits % (high - low + 1)) })).stepFresh

/-- The operating range and the monitor threshold of each rail in millivolts (R523). -/
def railRange (r : Nat) : Nat × Nat × Nat :=
  match r with
  | 0 => (728, 772, 690)
  | 1 => (825, 875, 782)
  | 2 => (873, 927, 828)
  | 3 => (1164, 1236, 1104)
  | 4 => (1067, 1133, 1012)
  | 5 => (1067, 1133, 1012)
  | _ => (1710, 1890, 1656)

/-- GPIO inputs read inactive while VDD_IO is not good, so that a change of the rail is one of the inputs that are at their active level (R494). -/
def State.gpioRail (s : State) : State := s.gpioMoved s.gpioAtLevel

/-- RAIL_LOST: what the loss of a rail does (R494). -/
def execRailLost (r : Fin 8) (s : State) : Res :=
  let k := r.val
  if !(s.board.railsGood.getD k false) then .next s
  else
    let s1 := (s.modBoard (fun b => { b with railsGood := setAt b.railsGood k false })).railVolts k 0 ((railRange k).2.2 - 1)
    match k with
    | 0 => .next (s1.coreLost.raise 867)
    | 1 => .next (s1.coreLost.raise 867)
    | 2 => .next ((s1.failAll (windows 249 32 ++ windows 245 4 ++ [pcieWin])).raise 867)
    | 3 => .next ((s1.failAll (windows 249 32 ++ windows 245 4 ++ [pcieWin])).raise 867)
    | 4 => .next ((s1.failChannels ((List.range 430).filter (fun w => decide (kindOf w = 0x09)))).raise 867)
    | 5 => .next ((s1.failChannels ((List.range 430).filter (fun w => decide (kindOf w = 0x0B)))).raise 867)
    | 6 => .next (s1.gpioRail.raise 867)
    | _ => .next ((s1.modBoard (fun b => { b with latchDue := true, unlatched := true, trip := b.trip && !b.cooled, cooled := false, hot := false })).deviceReset)

/-- RAIL_GOOD: a rail is good (R524): the straps that are still to be latched are, once VDD_AON and VDD_IO both are (R496); the ports take the port
map's modes with them only where the device has been held in reset for them (R531). -/
def execRailGood (r : Fin 8) (s : State) : Res :=
  let k := r.val
  if s.board.railsGood.getD k false then .next s
  else
    let s1 := (s.modBoard (fun b => { b with railsGood := setAt b.railsGood k true })).railVolts k (railRange k).1 (railRange k).2.1
    let s2 := if k = 7 then s1.modBoard (fun b => { b with powerAt := s.time.cycles, countEnd := s.time.cycles + 40960 })
      else if k = 6 then s1.gpioRail else s1
    let due : Bool := s2.board.latchDue && s2.board.railsGood.getD 6 false && s2.board.railsGood.getD 7 false
    .next (if !due then s2 else if s2.board.unlatched then s2.latchStraps.resetModes else s2.latchStraps).settleJtag

end Sys2Proof.Machine
end

