-- ==== Sys2Proof/Machine/Commands.lean ====
section
/-! DEFINITION. The mailbox commands of groups 0x01 to 0x04: device, units, ports, images (18, R443, R465, R466; 19, R472; 20, R513, R515,
R519). -/

namespace Sys2Proof.Machine

/-! ### Payloads and answers -/

/-- A field of a command's payload, little-endian, and bytes of it. -/
def Taken.pay (t : Taken) (off n : Nat) : Nat := leNat (bytesAt (cmdPayload t.entry) off n)
def Taken.payBytes (t : Taken) (off n : Nat) : List Byte := bytesAt (cmdPayload t.entry) off n

/-- BAD_FIELD for payload byte off (R443). -/
def badAt (s : State) (off : Nat) : Served := .done s ⟨2, [], [], 32 + off⟩

/-- REFUSED (R443). -/
def refusedAt (s : State) : Served := reply s 10

/-- What a sender's extended buffer holds: the BMC path's is 64 KiB (R466). -/
def extRoom (f : Nat) (t : Taken) : Nat := if f = 64 then 65536 else cmdBufLen t.entry

/-- An answer in the extended buffer: NO_RESOURCE where it is too small. -/
def State.respondExt (s : State) (f : Nat) (t : Taken) (ext : List Byte) : Served :=
  if ext.length ≤ extRoom f t then .done s ⟨0, [], ext, 0⟩ else reply s 6

/-- An answer: inline where it fits the response (96 bytes on the BMC path, R465), else in the extended buffer. -/
def State.respond (s : State) (f : Nat) (t : Taken) (payload : List Byte) : Served :=
  if payload.length ≤ (if f = 64 then 96 else 224) then .done s ⟨0, payload, [], 0⟩ else s.respondExt f t payload

/-- The command's extended buffer as the device reads it, none where host memory is out of reach. -/
def State.extIn (s : State) (t : Taken) : Option (List Byte) :=
  if s.hostUp then some (s.hostRead (cmdBuf t.entry) (cmdBufLen t.entry)) else none

/-- Registers written as Spine writes them: whether each was taken, and the state. -/
def State.setRegs (s : State) (ws : List (Nat × Nat × Word32)) : Bool × State :=
  ws.foldl (fun (acc : Bool × State) e =>
    let r := acc.2.writeReg (Fin.ofNat 430 e.1) e.2.1 e.2.2 0
    (acc.1 && r.1, r.2)) (true, s)

/-- Registers read as Spine reads them. -/
def State.readRegs (s : State) (rs : List (Nat × Nat)) : List Byte × State :=
  rs.foldl (fun (acc : List Byte × State) e =>
    let r := acc.2.readReg e.1 e.2
    (acc.1 ++ leBytes 4 r.1.toNat, r.2)) ([], s)

/-- Registers written: OK, or REFUSED where the unit would discard one (R443). -/
def State.writeAnswer (s : State) (ws : List (Nat × Nat × Word32)) : Served :=
  let r := s.setRegs ws
  if r.1 then reply r.2 0 else refusedAt s

/-- The window of the Gathering that a depth and a path name. -/
def winOfPath (t : Taken) (off : Nat) : Option Nat :=
  let d := t.pay off 1
  (List.range 430).find? (fun w => pathOf w == (List.range d).map (fun i => t.pay (off + 1 + i) 1))

/-! ### Group 0x01 -/

/-- GET_INFO: part, stepping, variant, function, tenant, Folio version, command set; the version is 0 while no Folio runs. -/
def execGetInfo (f : Src) (s : State) : Res :=
  s.perform f.val 0x0101 (fun (s : State) t =>
    let version := if s.spineServes then (s.spine.folio.map Image.version).getD 0 else 0
    s.respond f.val t (leBytes 2 0x3200 ++ leBytes 2 0x00B0 ++ leBytes 1 s.variant.toNat ++ leBytes 1 f.val
      ++ leBytes 2 ((s.func f.val).bound.getD 0) ++ leBytes 4 version ++ leBytes 2 0x0100))

/-- GET_STATE: the device state, the Folio slot, and the ns since device reset. -/
def execGetState (f : Src) (s : State) : Res :=
  s.perform f.val 0x0102 (fun (s : State) t =>
    s.respond f.val t (leBytes 1 (s.reported deviceWin).1.code ++ leBytes 1 (bit s.spine.slotB) ++ leBytes 8 s.time.cycles))

/-- QP_CREATE (R445 to R449). -/
def execQpCreate (f : Src) (s : State) : Res :=
  s.perform f.val 0x0103 (fun (s : State) t =>
    let q := t.pay 0 2
    let kind := t.pay 2 1
    let quire := t.pay 3 1
    let x := s.qp q
    if kind = 3 ∧ f.val ≠ 0 then reply s 4
    else if kind = 0 ∨ 3 < kind then badAt s 2
    else if kind = 3 ∧ 24 ≤ quire then badAt s 3
    else if 15 < t.pay 20 1 then badAt s 20
    else if 15 < t.pay 21 1 then badAt s 21
    else if 128 ≤ t.pay 22 1 then badAt s 22
    else if 256 ≤ q ∨ x.owner ≠ some f.val then reply s 6
    else if x.kind ≠ 0 then reply s 8
    else
      let y : QpSt := { QpSt.zero with
        owner := x.owner
        kind := kind
        quire := quire
        sqBase := BitVec.ofNat 64 (t.pay 4 8)
        cqBase := BitVec.ofNat 64 (t.pay 12 8)
        sqLog := t.pay 20 1
        cqLog := t.pay 21 1
        ctx := t.pay 22 1
        stallUs := t.pay 23 2 }
      reply (s.setQp q y) 0)

/-- Every descriptor posted and not fetched is fetched as ABORTED. -/
def State.abortPosted (s : State) (q : Nat) : Nat → State
  | 0 => s
  | fuel + 1 => match s.nextDesc q with
    | some (i, d) => State.abortPosted (s.takeDesc q (qpDescOf i d none (some (4, 0, false, 0)))) q fuel
    | none => s

/-- The DMA posts of a Quire's supervisor end ABORTED: their operations are marked with the code and none moves data any more; those from
before a reset are gone. -/
def State.abortPosts (s : State) (quire : Nat) : State :=
  let stop (o : LeafOp) : LeafOp := if o.kind = .dma then { o with addr := 4, len := 0, word := 0 } else o
  (s.threads.filter (fun e => tidQuire e.1 == quire)).foldl (fun (s : State) e =>
    s.modThread e.1 (fun th => { th with ops := th.ops.map stop, orphans := [] })) s

/-- QP_DESTROY: the descriptors posted and not completed complete ABORTED, as far as the completion ring has room; then the pair is
disabled. -/
def execQpDestroy (f : Src) (s : State) : Res :=
  s.perform f.val 0x0104 (fun (s : State) t =>
    let q := t.pay 0 2
    let x := s.qp q
    if 256 ≤ q ∨ x.owner ≠ some f.val ∨ x.kind = 0 then reply s 7
    else if x.kind = 3 then reply (((s.abortPosts x.quire).forgetPairs (fun k => decide (k = q))).setQp q { QpSt.zero with owner := x.owner }) 0
    else
      let s1 := s.abortPosted q 65536
      let y := s1.qp q
      let s2 := s1.setQp q { y with descs := y.descs.map (fun d => if d.ended.isNone then { d with ended := some (4, 0, false, 0) } else d) }
      let s3 := s2.completeAll q 65536
      reply ((s3.forgetPairs (fun k => decide (k = q))).setQp q { QpSt.zero with owner := x.owner }) 0)

/-- QP_ASSIGN. -/
def execQpAssign (f : Src) (s : State) : Res :=
  s.perform f.val 0x0105 (fun (s : State) t =>
    let first := t.pay 0 2
    let n := t.pay 2 2
    if 256 ≤ first then badAt s 0
    else if 256 < first + n then badAt s 2
    else if 64 ≤ t.pay 4 1 then badAt s 4
    else
      let qs := windows first n
      if qs.any (fun q => decide ((s.qp q).kind ≠ 0)) then reply s 8
      else reply (qs.foldl (fun (s : State) q => s.setQp q { QpSt.zero with owner := some (t.pay 4 1) }) s) 0)

/-- Whether two ranges of bytes overlap. -/
def overlaps (a n b m : Nat) : Bool := decide (0 < n) && decide (0 < m) && decide (a < b + m) && decide (b < a + n)

/-- Whether a range of a memory (1 buffer, 2 table) overlaps what no DMA window may reach: a tenant window, a Sheaf, root or Rick ring, the
Loft region, a Warren table. -/
def State.dmaForbidden (s : State) (space a n : Nat) : Bool :=
  let tenants := s.quires.any (fun q => q.2.profiles.any (fun e =>
    decide (16 ≤ e.1) && winEn e.2 && winSpace e.2 == space && overlaps a n (winBase e.2) (winSize e.2)))
  let tables := (List.range 16).any (fun w => s.wtPlace w == space && overlaps a n (s.wtAddr w 0) (s.wtBuckets w * (4 * s.wtSize w)))
  let loft := decide (space = 1) && overlaps a n (s.rf loftWin 0x600 7 0 * 0x10000000) (s.rf loftWin 0x600 15 8 * 1048576 * 268)
  let sheaf := decide (space = 2) && decide (s.rf sheafWin 0x104 31 31 = 1)
    && (overlaps a n (s.recordAddr 0 0) 543581798400 || overlaps a n (s.rootAddr 0) 2123366400)
  let rick := decide (space = 2) && decide (s.rf sheafWin 0x200 31 31 = 1)
    && overlaps a n (s.rf sheafWin 0x208 11 0 * 0x40000000) (rickBytes (s.reg sheafWin 0x200))
  tenants || tables || loft || sheaf || rick

/-- DMA_WINDOW_SET (R450). -/
def execDmaWindowSet (f : Src) (s : State) : Res :=
  s.perform f.val 0x0106 (fun (s : State) t =>
    let g := t.pay 0 1
    let w : DmaWin := ⟨t.pay 2 1, t.pay 3 1, t.pay 4 8, t.pay 12 8⟩
    let size := if w.space = 1 then 0xC00000000 else s.tmPopulated
    if bitsOf w.flags 6 2 ≠ 0 then badAt s 3
    else if 64 ≤ g ∨ 16 ≤ t.pay 1 1 ∨ w.space = 0 ∨ 2 < w.space ∨ size < w.base + w.size then reply s 9
    else if w.flags.testBit 7 ∧ s.dmaForbidden w.space w.base w.size then reply s 4
    else reply (s.setFunc g { s.func g with windows := SMap.put (s.func g).windows (t.pay 1 1) w }) 0)

/-- FUNC_BIND: a virtual function is bound to a tenant, or unbound (R44). -/
def execFuncBind (f : Src) (s : State) : Res :=
  s.perform f.val 0x0107 (fun (s : State) t =>
    let g := t.pay 0 1
    let tenant := t.pay 1 2
    let x := s.func g
    if g = 0 ∨ 64 ≤ g then badAt s 0
    else if 16384 ≤ tenant then badAt s 1
    else if 2 ≤ t.pay 3 1 then badAt s 3
    else if t.pay 3 1 = 1 then
      if x.bound.isSome ∨ (List.range 64).any (fun h => decide ((s.func h).bound = some tenant)) then reply s 8
      else reply (s.setFunc g { x with bound := some tenant }) 0
    else if x.bound = some tenant then reply (s.setFunc g { x with bound := none }) 0
    else reply s 8)

/-- CREDIT_SET. -/
def execCreditSet (f : Src) (s : State) : Res :=
  s.perform f.val 0x0108 (fun (s : State) t =>
    let g := t.pay 0 1
    let c := t.pay 1 1
    if 64 ≤ g ∨ c = 0 ∨ 64 < c then reply s 9 else reply (s.setFunc g { s.func g with credits := c }) 0)

/-- BMC_BUF_READ (R466). -/
def execBmcBufRead (f : Src) (s : State) : Res :=
  s.perform f.val 0x0109 (fun (s : State) t =>
    let off := t.pay 0 4
    if s.spine.bmcBuf.length ≤ off then reply s 9 else s.respond f.val t ((s.spine.bmcBuf.drop off).take 96))

/-! ### Group 0x02 -/

/-- The answer of UCB_COMMAND: the result and the state of the Gathering. -/
def State.ucbAnswer (s : State) (f : Nat) (t : Taken) (w : Nat) : Served :=
  s.respond f t (leBytes 1 (s.rf w 0x18 23 16) ++ leBytes 1 (s.reported w).1.code)

/-- UCB_COMMAND: the update slot, where the command uses it, and the command (R17, R540). An UPDATE of Spine in service is a switch-over,
and the new image answers (R519). -/
def execUcbCommand (f : Src) (s : State) : Res :=
  s.perform f.val 0x0201 (fun (s : State) t =>
    if t.phase = 1 then (if (s.gathOf spineWin).cmd.isSome then .later s else s.ucbAnswer f.val t spineWin)
    else match winOfPath t 0 with
      | none => reply s 7
      | some w =>
        let c := t.pay 4 1
        let kind := t.pay 5 1
        if 8 ≤ c ∨ 6 < kind then refusedAt s
        else
          let s1 := if c = 1 ∨ c = 5 then s.setReg w 0x30 (BitVec.ofNat 32 (kind * 2 ^ 24 + t.pay 6 2)) else s
          match ucbCmdOf c with
          | none => s1.ucbAnswer f.val t w
          | some c' =>
            if w = spineWin ∧ c' = .update ∧ s1.inService spineWin ∧ !s1.busy spineWin ∧ !s1.ancestorBusy spineWin then
              .later (s1.switchOver.noteTaken f.val 1 [])
            else (s1.command w c').ucbAnswer f.val t w)

/-- UCB_READ: bytes 0x00 to 0x3F of a UCB. -/
def execUcbRead (f : Src) (s : State) : Res :=
  s.perform f.val 0x0202 (fun (s : State) t => match winOfPath t 0 with
    | none => reply s 7
    | some w =>
      let r := s.readRegs ((List.range 16).map (fun k => (w, 4 * k)))
      r.2.respond f.val t r.1)

/-- The registers that a window, an offset and a count name, none where they leave the unit's window. -/
def regRange (w off n : Nat) : Option (List (Nat × Nat)) :=
  if 430 ≤ w ∨ off % 4 ≠ 0 ∨ n = 0 ∨ 65536 < off + 4 * n then none else some ((List.range n).map (fun k => (w, off + 4 * k)))

/-- REG_READ. -/
def execRegRead (f : Src) (s : State) : Res :=
  s.perform f.val 0x0203 (fun (s : State) t =>
    match regRange (t.pay 0 2) (t.pay 2 2) (t.pay 4 1) with
    | some rs => if 32 < t.pay 4 1 then reply s 9 else let r := s.readRegs rs; r.2.respond f.val t r.1
    | none => reply s 9)

/-- Whether REG_WRITE may not write a register: Spine's and the endpoint's, UCB_CTRL, LEAF_DBG_CTRL. -/
def regDenied (e : Nat × Nat) : Bool := e.1 == pcieWin || e.1 == spineWin || e.2 == 0x14 || (kindOf e.1 == 0x04 && e.2 == 0x100)

/-- REG_WRITE. -/
def execRegWrite (f : Src) (s : State) : Res :=
  s.perform f.val 0x0204 (fun (s : State) t =>
    let n := t.pay 4 1
    match regRange (t.pay 0 2) (t.pay 2 2) n with
      | none => reply s (if t.pay 0 2 = pcieWin ∨ t.pay 0 2 = spineWin then 4 else 9)
      | some rs =>
        if rs.any regDenied then reply s 4
        else s.writeAnswer (rs.zipIdx.map (fun e => (e.1.1, e.1.2, BitVec.ofNat 32 (t.pay (5 + 4 * e.2) 4)))))

/-- BIND_SPARE: a tipping-in, answered when it has ended (R513). -/
def execMbBindSpare (f : Src) (s : State) : Res :=
  s.perform f.val 0x0205 (fun (s : State) t =>
    let w := (winOfPath t 0).getD 430
    let close (s : State) : Served :=
      if (s.gathOf w).cmd = some .bindSpare then .later (s.noteTaken f.val 1 []) else s.respond f.val t (leBytes 1 (s.rf w 0x18 23 16))
    if t.phase = 1 then close s
    else
      let s1 := (s.setRf w 0x38 15 8 (t.pay 4 1)).setRf w 0x38 7 0 (t.pay 5 1)
      if w < 430 ∧ s1.bindOk w ∧ !s1.heldInReset ∧ !s1.ancestorBusy w then close (s1.bindSpare w) else reply s 8)

/-! ### Group 0x03 -/

/-- PORT_SET: mode, FEC and frame limit of a port that is OFF (R340). -/
def execPortSet (f : Src) (s : State) : Res :=
  s.perform f.val 0x0301 (fun (s : State) t =>
    let n := t.pay 0 1
    let v := t.pay 1 1 * 2 ^ 28 + t.pay 2 1 * 2 ^ 27 + t.pay 3 2
    if 32 ≤ n then badAt s 0
    else if 16 ≤ t.pay 1 1 then badAt s 1
    else if 2 ≤ t.pay 2 1 then badAt s 2
    else if 16384 ≤ t.pay 3 2 then badAt s 3
    else if s.portState n ≠ .off then reply s 8
    else s.writeAnswer [(portWin n, 0x100, BitVec.ofNat 32 v)])

/-- PORT_GET: PORT_STATUS and PORT_CNT_0 to 14, eight bytes each. -/
def execPortGet (f : Src) (s : State) : Res :=
  s.perform f.val 0x0302 (fun (s : State) t =>
    let n := t.pay 0 1
    if 32 ≤ n then reply s 9
    else
      let r := s.readRegs ((portWin n, 0x104) :: (List.range 15).map (fun k => (portWin n, 0x200 + 4 * k)))
      r.2.respond f.val t (r.1.take 4 ++ (List.range 15).flatMap (fun k => bytesAt r.1 (4 + 4 * k) 4 ++ leBytes 4 0)))

/-- PORT_RECAL: recalibration of a port that is QUIET, answered when it has ended (R346). -/
def execMbPortRecal (f : Src) (s : State) : Res :=
  s.perform f.val 0x0303 (fun (s : State) t =>
    let n := t.pay 0 1
    let w := portWin n
    if t.phase = 1 then
      if s.rf w 0x10C 30 30 = 1 then .later s else s.respond f.val t (leBytes 1 (s.rf w 0x10C 29 28))
    else if 32 ≤ n then badAt s 0
    else if s.portState n ≠ .quiet then reply s 8
    else .later ((Res.settled s (execPortRecalGo (Fin.ofNat 32 n) s)).noteTaken f.val 1 []))

/-- PORT_TEST: PORT_TEST of a port; test patterns and loopback only in QUIET or OFF (R347). -/
def execPortTest (f : Src) (s : State) : Res :=
  s.perform f.val 0x0304 (fun (s : State) t =>
    let n := t.pay 0 1
    let v : Word32 := BitVec.ofNat 32 (t.pay 1 4)
    if 32 ≤ n then badAt s 0
    else if s.portState n ≠ .quiet ∧ s.portState n ≠ .off ∧ (fld v 31 30 ≠ 0 ∨ fld v 26 25 ≠ 0) then reply s 8
    else s.writeAnswer [(portWin n, 0x108, v)])

/-- MACSEC_SET. -/
def execMacsecSet (f : Src) (s : State) : Res :=
  s.perform f.val 0x0305 (fun (s : State) t =>
    let n := t.pay 0 1
    if 32 ≤ n ∨ 2 ≤ t.pay 1 1 ∨ 2 ≤ t.pay 2 1 ∨ 4 ≤ t.pay 3 1 ∨ 2 ^ 28 ≤ t.pay 4 4 then reply s 9
    else s.writeAnswer [(portWin n, 0x120, BitVec.ofNat 32 (t.pay 1 1 * 2 ^ 31 + t.pay 2 1 * 2 ^ 30 + t.pay 3 1 * 2 ^ 28 + t.pay 4 4))])

/-! ### Group 0x04 -/

/-- The bytes of the staging store: those of BAR2's staging view (R452). -/
def stagingBytes : Nat := 0x100000000

/-- Whether the staging store has room for one image more, and for its payload (R472 check 6). -/
def State.stagingRoom (s : State) (i : Image) : Bool :=
  decide (s.trust.images.length < 32) && decide (sumOf s.trust.images (fun e => e.2.kept.length) + i.kept.length ≤ stagingBytes)

/-- The ROM loads a Folio that the host pushed from the staging store, as FIRMWARE_LOAD tokens allow, and runs it (R474, R499); notes: its handle,
the lines drawn. -/
def State.pushedFolio (s : State) (f : Nat) (t : Taken) (h had : Nat) : Served :=
  match s.staged h with
  | none => s.respond f t (leBytes 2 h)
  | some i =>
    let q := s.drawLoad (i.lines - had)
    if !s.spine.rom then s.respond f t (leBytes 2 h)
    else if had + q.1 < i.lines then .later (q.2.noteTaken f 1 [h, had + q.1])
    else (q.2.bootFolio i 2).respond f t (leBytes 2 h)

/-- IMAGE_STAGE: the checks of R472; while Spine runs its ROM a pushed Folio then continues the boot (R499). -/
def execImageStage (f : Src) (s : State) : Res :=
  s.perform f.val 0x0401 (fun (s : State) t =>
    if t.phase = 1 then s.pushedFolio f.val t (t.notes.getD 0 0) (t.notes.getD 1 0) else match s.extIn t with
    | none => reply s 14
    | some bytes =>
      let i : Image := ⟨t.pay 0 1, bytes, []⟩
      match s.verifyImage i with
      | some st => .failed s.verifyFailed (Reply.plain st)
      | none =>
        let i' : Image := if (kindRow i.kind).map (·.1) = some true then { i with owner := s.owner.getD [] } else i
        if !s.stagingRoom i then .failed s.verifyFailed (Reply.plain 6)
        else match (if i.kind = 5 then graphFault i.payload else none) with
          | some off => .failed s.verifyFailed ⟨10, [], [], off⟩
          | none =>
            let r := s.stageImage i'
            if s.spine.rom ∧ i.kind = 4 then r.2.pushedFolio f.val t r.1 0 else r.2.respond f.val t (leBytes 2 r.1))

/-- IMAGE_RELEASE: BUSY while an update slot names the handle. -/
def execImageRelease (f : Src) (s : State) : Res :=
  s.perform f.val 0x0402 (fun (s : State) t =>
    let h := t.pay 0 2
    if (s.staged h).isNone then reply s 7
    else if (List.range 430).any (fun w => decide (s.rf w 0x30 31 24 ≠ 0) && decide (s.rf w 0x30 15 0 = h)) then reply s 5
    else reply (s.modTrust (fun x => { x with images := SMap.erase x.images h })) 0)

/-- IMAGE_LIST: handle, kind and version of each staged image. -/
def execImageList (f : Src) (s : State) : Res :=
  s.perform f.val 0x0403 (fun (s : State) t =>
    s.respond f.val t ((s.trust.images.take 32).flatMap (fun e => leBytes 2 e.1 ++ leBytes 1 e.2.kind ++ leBytes 4 e.2.version)))

/-- SHEET_ROLL begins on a Quire: its update slot, then DRAIN (R515). -/
def State.rollBegin (s : State) (q h : Nat) : State :=
  let w := quireWin q
  (s.setReg w 0x30 (BitVec.ofNat 32 (2 ^ 24 + h))).command w .drain

/-- SHEET_ROLL: the named Quires one at a time; notes: the Quire, its step (0 draining, 1 starting). A Quire that fails, or whose QUIESCING lasts
longer than its limit, stops the roll (R515). -/
def execSheetRoll (f : Src) (s : State) : Res :=
  s.perform f.val 0x0404 (fun (s : State) t =>
    let h := t.pay 0 2
    let mask := t.pay 2 4
    let begin (s : State) (q : Nat) : Served :=
      .later ((s.rollBegin q h).noteTaken f.val 1 [q, 0])
    let stop (s : State) (q : Nat) : Served := .failed s ⟨8, [], [], 2 ^ q⟩
    if t.phase = 0 then
      if 2 ^ 24 ≤ mask then badAt s 2
      else match maskBits mask with
        | [] => reply s 0
        | q :: _ => begin s q
    else
      let q := t.notes.getD 0 0
      let w := quireWin q
      if t.notes.getD 1 0 = 0 then
        if (s.reported w).1 = .failed ∨ (s.gathOf w).timedOut then stop s q
        else if (s.gathOf w).own = .quiet ∧ !s.busy w then .later ((s.command w .start).noteTaken f.val 1 [q, 1])
        else if (s.gathOf w).own = .quiescing ∨ s.busy w then .later s
        else stop s q
      else if (s.reported w).1 = .inService then
        match (maskBits mask).find? (fun r => decide (q < r)) with
        | some r => begin s r
        | none => reply s 0
      else if (s.gathOf w).own = .starting ∨ s.busy w then .later s
      else stop s q)

end Sys2Proof.Machine
end

