-- ==== Sys2Proof/Machine/LeafAlu.lean ====
section
/-! DEFINITION. The arithmetic, logic and immediate instructions (R233 to R236): each row with its word, its distance (R224)
and its result. -/

namespace Sys2Proof.Machine

/-! ### SPECIAL (R233) -/

/-- ADD, func 0x000: R233, R235. -/
def execAdd (t : Tid) (gd gs gt : Reg) (s : State) : Res :=
  s.flagOp t.val (encR 0x00 gd.val gs.val gt.val 0x000) gd.val 1 (fun th => addF 64 (th.g gs.val) (th.g gt.val))

/-- SUB, func 0x001: R233, R235. -/
def execSub (t : Tid) (gd gs gt : Reg) (s : State) : Res :=
  s.flagOp t.val (encR 0x00 gd.val gs.val gt.val 0x001) gd.val 1 (fun th => subF 64 (th.g gs.val) (th.g gt.val))

/-- NEG, func 0x002: R233, R235. -/
def execNeg (t : Tid) (gd gs : Reg) (s : State) : Res :=
  s.flagOp t.val (encR 0x00 gd.val gs.val 0 0x002) gd.val 1 (fun th => negF 64 (th.g gs.val))

/-- ABS, func 0x003: R233, R235. -/
def execAbs (t : Tid) (gd gs : Reg) (s : State) : Res :=
  s.flagOp t.val (encR 0x00 gd.val gs.val 0 0x003) gd.val 1 (fun th => absF 64 (th.g gs.val))

/-- AND, func 0x004: R233, R235. -/
def execAnd (t : Tid) (gd gs gt : Reg) (s : State) : Res :=
  s.regOp t.val (encR 0x00 gd.val gs.val gt.val 0x004) gd.val 1 (fun th => (th.g gs.val) &&& (th.g gt.val))

/-- OR, func 0x005: R233, R235. -/
def execOr (t : Tid) (gd gs gt : Reg) (s : State) : Res :=
  s.regOp t.val (encR 0x00 gd.val gs.val gt.val 0x005) gd.val 1 (fun th => (th.g gs.val) ||| (th.g gt.val))

/-- XOR, func 0x006: R233, R235. -/
def execXor (t : Tid) (gd gs gt : Reg) (s : State) : Res :=
  s.regOp t.val (encR 0x00 gd.val gs.val gt.val 0x006) gd.val 1 (fun th => (th.g gs.val) ^^^ (th.g gt.val))

/-- NOR, func 0x007: R233, R235. -/
def execNor (t : Tid) (gd gs gt : Reg) (s : State) : Res :=
  s.regOp t.val (encR 0x00 gd.val gs.val gt.val 0x007) gd.val 1 (fun th => ~~~((th.g gs.val) ||| (th.g gt.val)))

/-- ANDN, func 0x008: R233, R235. -/
def execAndn (t : Tid) (gd gs gt : Reg) (s : State) : Res :=
  s.regOp t.val (encR 0x00 gd.val gs.val gt.val 0x008) gd.val 1 (fun th => (th.g gs.val) &&& ~~~(th.g gt.val))

/-- ORN, func 0x009: R233, R235. -/
def execOrn (t : Tid) (gd gs gt : Reg) (s : State) : Res :=
  s.regOp t.val (encR 0x00 gd.val gs.val gt.val 0x009) gd.val 1 (fun th => (th.g gs.val) ||| ~~~(th.g gt.val))

/-- XNOR, func 0x00a: R233, R235. -/
def execXnor (t : Tid) (gd gs gt : Reg) (s : State) : Res :=
  s.regOp t.val (encR 0x00 gd.val gs.val gt.val 0x00a) gd.val 1 (fun th => ~~~((th.g gs.val) ^^^ (th.g gt.val)))

/-- SLT, func 0x00d: R233, R235. -/
def execSlt (t : Tid) (gd gs gt : Reg) (s : State) : Res :=
  s.regOp t.val (encR 0x00 gd.val gs.val gt.val 0x00d) gd.val 1 (fun th => boolV (BitVec.slt (th.g gs.val) (th.g gt.val)))

/-- SLTU, func 0x00e: R233, R235. -/
def execSltu (t : Tid) (gd gs gt : Reg) (s : State) : Res :=
  s.regOp t.val (encR 0x00 gd.val gs.val gt.val 0x00e) gd.val 1 (fun th => boolV (BitVec.ult (th.g gs.val) (th.g gt.val)))

/-- SEQ, func 0x00f: R233, R235. -/
def execSeq (t : Tid) (gd gs gt : Reg) (s : State) : Res :=
  s.regOp t.val (encR 0x00 gd.val gs.val gt.val 0x00f) gd.val 1 (fun th => boolV ((th.g gs.val) == (th.g gt.val)))

/-- SNE, func 0x010: R233, R235. -/
def execSne (t : Tid) (gd gs gt : Reg) (s : State) : Res :=
  s.regOp t.val (encR 0x00 gd.val gs.val gt.val 0x010) gd.val 1 (fun th => boolV ((th.g gs.val) != (th.g gt.val)))

/-- MIN, func 0x011: R233, R235. -/
def execMin (t : Tid) (gd gs gt : Reg) (s : State) : Res :=
  s.regOp t.val (encR 0x00 gd.val gs.val gt.val 0x011) gd.val 1 (fun th => if BitVec.slt (th.g gs.val) (th.g gt.val) then (th.g gs.val) else (th.g gt.val))

/-- MAX, func 0x012: R233, R235. -/
def execMax (t : Tid) (gd gs gt : Reg) (s : State) : Res :=
  s.regOp t.val (encR 0x00 gd.val gs.val gt.val 0x012) gd.val 1 (fun th => if BitVec.slt (th.g gs.val) (th.g gt.val) then (th.g gt.val) else (th.g gs.val))

/-- MINU, func 0x013: R233, R235. -/
def execMinu (t : Tid) (gd gs gt : Reg) (s : State) : Res :=
  s.regOp t.val (encR 0x00 gd.val gs.val gt.val 0x013) gd.val 1 (fun th => if BitVec.ult (th.g gs.val) (th.g gt.val) then (th.g gs.val) else (th.g gt.val))

/-- MAXU, func 0x014: R233, R235. -/
def execMaxu (t : Tid) (gd gs gt : Reg) (s : State) : Res :=
  s.regOp t.val (encR 0x00 gd.val gs.val gt.val 0x014) gd.val 1 (fun th => if BitVec.ult (th.g gs.val) (th.g gt.val) then (th.g gt.val) else (th.g gs.val))

/-- SLL, func 0x018: R233, R235. -/
def execSll (t : Tid) (gd gs gt : Reg) (s : State) : Res :=
  s.regOp t.val (encR 0x00 gd.val gs.val gt.val 0x018) gd.val 1 (fun th => sllV 64 (th.g gs.val) (th.g gt.val))

/-- SRL, func 0x019: R233, R235. -/
def execSrl (t : Tid) (gd gs gt : Reg) (s : State) : Res :=
  s.regOp t.val (encR 0x00 gd.val gs.val gt.val 0x019) gd.val 1 (fun th => srlV 64 (th.g gs.val) (th.g gt.val))

/-- SRA, func 0x01a: R233, R235. -/
def execSra (t : Tid) (gd gs gt : Reg) (s : State) : Res :=
  s.regOp t.val (encR 0x00 gd.val gs.val gt.val 0x01a) gd.val 1 (fun th => sraV 64 (th.g gs.val) (th.g gt.val))

/-- ROL, func 0x01b: R233, R235. -/
def execRol (t : Tid) (gd gs gt : Reg) (s : State) : Res :=
  s.regOp t.val (encR 0x00 gd.val gs.val gt.val 0x01b) gd.val 1 (fun th => rolV 64 (th.g gs.val) (th.g gt.val))

/-- ROR, func 0x01c: R233, R235. -/
def execRor (t : Tid) (gd gs gt : Reg) (s : State) : Res :=
  s.regOp t.val (encR 0x00 gd.val gs.val gt.val 0x01c) gd.val 1 (fun th => rorV 64 (th.g gs.val) (th.g gt.val))

/-- MUL, func 0x020: R233, R235. -/
def execMul (t : Tid) (gd gs gt : Reg) (s : State) : Res :=
  s.flagOp t.val (encR 0x00 gd.val gs.val gt.val 0x020) gd.val 2 (fun th => mulF 64 (th.g gs.val) (th.g gt.val))

/-- MULH, func 0x021: R233, R235. -/
def execMulh (t : Tid) (gd gs gt : Reg) (s : State) : Res :=
  s.regOp t.val (encR 0x00 gd.val gs.val gt.val 0x021) gd.val 3 (fun th => mulhV (th.g gs.val) (th.g gt.val))

/-- MULHU, func 0x022: R233, R235. -/
def execMulhu (t : Tid) (gd gs gt : Reg) (s : State) : Res :=
  s.regOp t.val (encR 0x00 gd.val gs.val gt.val 0x022) gd.val 3 (fun th => mulhuV (th.g gs.val) (th.g gt.val))

/-- MULHSU, func 0x023: R233, R235. -/
def execMulhsu (t : Tid) (gd gs gt : Reg) (s : State) : Res :=
  s.regOp t.val (encR 0x00 gd.val gs.val gt.val 0x023) gd.val 3 (fun th => mulhsuV (th.g gs.val) (th.g gt.val))

/-- DIV, func 0x024: R233, R235. -/
def execDiv (t : Tid) (gd gs gt : Reg) (s : State) : Res :=
  s.flagOp t.val (encR 0x00 gd.val gs.val gt.val 0x024) gd.val 18 (fun th => divF 64 (th.g gs.val) (th.g gt.val))

/-- DIVU, func 0x025: R233, R235. -/
def execDivu (t : Tid) (gd gs gt : Reg) (s : State) : Res :=
  s.flagOp t.val (encR 0x00 gd.val gs.val gt.val 0x025) gd.val 18 (fun th => divuF 64 (th.g gs.val) (th.g gt.val))

/-- REM, func 0x026: R233, R235. -/
def execRem (t : Tid) (gd gs gt : Reg) (s : State) : Res :=
  s.flagOp t.val (encR 0x00 gd.val gs.val gt.val 0x026) gd.val 18 (fun th => remF 64 (th.g gs.val) (th.g gt.val))

/-- REMU, func 0x027: R233, R235. -/
def execRemu (t : Tid) (gd gs gt : Reg) (s : State) : Res :=
  s.flagOp t.val (encR 0x00 gd.val gs.val gt.val 0x027) gd.val 18 (fun th => remuF 64 (th.g gs.val) (th.g gt.val))

/-- CLZ, func 0x028: R233, R235. -/
def execClz (t : Tid) (gd gs : Reg) (s : State) : Res :=
  s.regOp t.val (encR 0x00 gd.val gs.val 0 0x028) gd.val 1 (fun th => clzV (th.g gs.val))

/-- CTZ, func 0x029: R233, R235. -/
def execCtz (t : Tid) (gd gs : Reg) (s : State) : Res :=
  s.regOp t.val (encR 0x00 gd.val gs.val 0 0x029) gd.val 1 (fun th => ctzV (th.g gs.val))

/-- POPC, func 0x02a: R233, R235. -/
def execPopc (t : Tid) (gd gs : Reg) (s : State) : Res :=
  s.regOp t.val (encR 0x00 gd.val gs.val 0 0x02a) gd.val 1 (fun th => popcV (th.g gs.val))

/-- REV, func 0x02b: R233, R235. -/
def execRev (t : Tid) (gd gs : Reg) (s : State) : Res :=
  s.regOp t.val (encR 0x00 gd.val gs.val 0 0x02b) gd.val 1 (fun th => revV 8 (th.g gs.val))

/-- REV4, func 0x02c: R233, R235. -/
def execRev4 (t : Tid) (gd gs : Reg) (s : State) : Res :=
  s.regOp t.val (encR 0x00 gd.val gs.val 0 0x02c) gd.val 1 (fun th => revV 4 (th.g gs.val))

/-- REV2, func 0x02d: R233, R235. -/
def execRev2 (t : Tid) (gd gs : Reg) (s : State) : Res :=
  s.regOp t.val (encR 0x00 gd.val gs.val 0 0x02d) gd.val 1 (fun th => revV 2 (th.g gs.val))

/-- ADDW, func 0x040: R233, R235. -/
def execAddw (t : Tid) (gd gs gt : Reg) (s : State) : Res :=
  s.flagOp t.val (encR 0x00 gd.val gs.val gt.val 0x040) gd.val 1 (fun th => addF 32 (th.g gs.val) (th.g gt.val))

/-- SUBW, func 0x041: R233, R235. -/
def execSubw (t : Tid) (gd gs gt : Reg) (s : State) : Res :=
  s.flagOp t.val (encR 0x00 gd.val gs.val gt.val 0x041) gd.val 1 (fun th => subF 32 (th.g gs.val) (th.g gt.val))

/-- NEGW, func 0x042: R233, R235. -/
def execNegw (t : Tid) (gd gs : Reg) (s : State) : Res :=
  s.flagOp t.val (encR 0x00 gd.val gs.val 0 0x042) gd.val 1 (fun th => negF 32 (th.g gs.val))

/-- ABSW, func 0x043: R233, R235. -/
def execAbsw (t : Tid) (gd gs : Reg) (s : State) : Res :=
  s.flagOp t.val (encR 0x00 gd.val gs.val 0 0x043) gd.val 1 (fun th => absF 32 (th.g gs.val))

/-- SLLW, func 0x058: R233, R235. -/
def execSllw (t : Tid) (gd gs gt : Reg) (s : State) : Res :=
  s.regOp t.val (encR 0x00 gd.val gs.val gt.val 0x058) gd.val 1 (fun th => sllV 32 (th.g gs.val) (th.g gt.val))

/-- SRLW, func 0x059: R233, R235. -/
def execSrlw (t : Tid) (gd gs gt : Reg) (s : State) : Res :=
  s.regOp t.val (encR 0x00 gd.val gs.val gt.val 0x059) gd.val 1 (fun th => srlV 32 (th.g gs.val) (th.g gt.val))

/-- SRAW, func 0x05a: R233, R235. -/
def execSraw (t : Tid) (gd gs gt : Reg) (s : State) : Res :=
  s.regOp t.val (encR 0x00 gd.val gs.val gt.val 0x05a) gd.val 1 (fun th => sraV 32 (th.g gs.val) (th.g gt.val))

/-- ROLW, func 0x05b: R233, R235. -/
def execRolw (t : Tid) (gd gs gt : Reg) (s : State) : Res :=
  s.regOp t.val (encR 0x00 gd.val gs.val gt.val 0x05b) gd.val 1 (fun th => rolV 32 (th.g gs.val) (th.g gt.val))

/-- RORW, func 0x05c: R233, R235. -/
def execRorw (t : Tid) (gd gs gt : Reg) (s : State) : Res :=
  s.regOp t.val (encR 0x00 gd.val gs.val gt.val 0x05c) gd.val 1 (fun th => rorV 32 (th.g gs.val) (th.g gt.val))

/-- MULW, func 0x060: R233, R235. -/
def execMulw (t : Tid) (gd gs gt : Reg) (s : State) : Res :=
  s.flagOp t.val (encR 0x00 gd.val gs.val gt.val 0x060) gd.val 2 (fun th => mulF 32 (th.g gs.val) (th.g gt.val))

/-- DIVW, func 0x064: R233, R235. -/
def execDivw (t : Tid) (gd gs gt : Reg) (s : State) : Res :=
  s.flagOp t.val (encR 0x00 gd.val gs.val gt.val 0x064) gd.val 18 (fun th => divF 32 (th.g gs.val) (th.g gt.val))

/-- DIVUW, func 0x065: R233, R235. -/
def execDivuw (t : Tid) (gd gs gt : Reg) (s : State) : Res :=
  s.flagOp t.val (encR 0x00 gd.val gs.val gt.val 0x065) gd.val 18 (fun th => divuF 32 (th.g gs.val) (th.g gt.val))

/-- REMW, func 0x066: R233, R235. -/
def execRemw (t : Tid) (gd gs gt : Reg) (s : State) : Res :=
  s.flagOp t.val (encR 0x00 gd.val gs.val gt.val 0x066) gd.val 18 (fun th => remF 32 (th.g gs.val) (th.g gt.val))

/-- REMUW, func 0x067: R233, R235. -/
def execRemuw (t : Tid) (gd gs gt : Reg) (s : State) : Res :=
  s.flagOp t.val (encR 0x00 gd.val gs.val gt.val 0x067) gd.val 18 (fun th => remuF 32 (th.g gs.val) (th.g gt.val))

/-- CMOVZ, func 0x00b: gd receives gs under its condition, and is otherwise unchanged (R233). -/
def execCmovz (t : Tid) (gd gs gt : Reg) (s : State) : Res :=
  s.leafRun t.val (encR 0x00 gd.val gs.val gt.val 0x00b) (fun s th =>
    .next (if th.g gt.val = 0 then s.setThread t.val (th.result gd.val 1 (th.g gs.val)) else s))

/-- CMOVN, func 0x00c: gd receives gs under its condition, and is otherwise unchanged (R233). -/
def execCmovn (t : Tid) (gd gs gt : Reg) (s : State) : Res :=
  s.leafRun t.val (encR 0x00 gd.val gs.val gt.val 0x00c) (fun s th =>
    .next (if th.g gt.val ≠ 0 then s.setThread t.val (th.result gd.val 1 (th.g gs.val)) else s))

/-! ### Immediate forms (R234) -/

/-- ADDI, major 0x01: R234. -/
def execAddi (t : Tid) (gd gs : Reg) (imm : BitVec 16) (s : State) : Res :=
  s.flagOp t.val (encI 0x01 gd.val gs.val imm.toNat) gd.val 1 (fun th => addF 64 (th.g gs.val) (simm imm))

/-- ADDIW, major 0x02: R234. -/
def execAddiw (t : Tid) (gd gs : Reg) (imm : BitVec 16) (s : State) : Res :=
  s.flagOp t.val (encI 0x02 gd.val gs.val imm.toNat) gd.val 1 (fun th => addF 32 (th.g gs.val) (simm imm))

/-- ANDI, major 0x03: R234. -/
def execAndi (t : Tid) (gd gs : Reg) (imm : BitVec 16) (s : State) : Res :=
  s.regOp t.val (encI 0x03 gd.val gs.val imm.toNat) gd.val 1 (fun th => (th.g gs.val) &&& zimm imm)

/-- ORI, major 0x04: R234. -/
def execOri (t : Tid) (gd gs : Reg) (imm : BitVec 16) (s : State) : Res :=
  s.regOp t.val (encI 0x04 gd.val gs.val imm.toNat) gd.val 1 (fun th => (th.g gs.val) ||| zimm imm)

/-- XORI, major 0x05: R234. -/
def execXori (t : Tid) (gd gs : Reg) (imm : BitVec 16) (s : State) : Res :=
  s.regOp t.val (encI 0x05 gd.val gs.val imm.toNat) gd.val 1 (fun th => (th.g gs.val) ^^^ zimm imm)

/-- SLTI, major 0x06: R234. -/
def execSlti (t : Tid) (gd gs : Reg) (imm : BitVec 16) (s : State) : Res :=
  s.regOp t.val (encI 0x06 gd.val gs.val imm.toNat) gd.val 1 (fun th => boolV (BitVec.slt (th.g gs.val) (simm imm)))

/-- SLTIU, major 0x07: R234. -/
def execSltiu (t : Tid) (gd gs : Reg) (imm : BitVec 16) (s : State) : Res :=
  s.regOp t.val (encI 0x07 gd.val gs.val imm.toNat) gd.val 1 (fun th => boolV (BitVec.ult (th.g gs.val) (simm imm)))

/-- SEQI, major 0x08: R234. -/
def execSeqi (t : Tid) (gd gs : Reg) (imm : BitVec 16) (s : State) : Res :=
  s.regOp t.val (encI 0x08 gd.val gs.val imm.toNat) gd.val 1 (fun th => boolV ((th.g gs.val) == simm imm))

/-- The immediate word of SHIFTI: kind, count, W form. -/
def shiftImm (kind : Nat) (w : Bool) (cnt : BitVec 6) : Nat := bit w * 512 + kind * 64 + cnt.toNat

/-- A shift count as a register. -/
def cntV (c : BitVec 6) : Word64 := c.zeroExtend 64

/-- SLLI, major 0x09 kind 0: R234, R235. -/
def execSlli (t : Tid) (gd gs : Reg) (cnt : BitVec 6) (s : State) : Res :=
  s.regOp t.val (encI 0x09 gd.val gs.val (shiftImm 0 false cnt)) gd.val 1 (fun th => sllV 64 (th.g gs.val) (cntV cnt))

/-- SRLI, major 0x09 kind 1: R234, R235. -/
def execSrli (t : Tid) (gd gs : Reg) (cnt : BitVec 6) (s : State) : Res :=
  s.regOp t.val (encI 0x09 gd.val gs.val (shiftImm 1 false cnt)) gd.val 1 (fun th => srlV 64 (th.g gs.val) (cntV cnt))

/-- SRAI, major 0x09 kind 2: R234, R235. -/
def execSrai (t : Tid) (gd gs : Reg) (cnt : BitVec 6) (s : State) : Res :=
  s.regOp t.val (encI 0x09 gd.val gs.val (shiftImm 2 false cnt)) gd.val 1 (fun th => sraV 64 (th.g gs.val) (cntV cnt))

/-- RORI, major 0x09 kind 3: R234, R235. -/
def execRori (t : Tid) (gd gs : Reg) (cnt : BitVec 6) (s : State) : Res :=
  s.regOp t.val (encI 0x09 gd.val gs.val (shiftImm 3 false cnt)) gd.val 1 (fun th => rorV 64 (th.g gs.val) (cntV cnt))

/-- SLLIW, major 0x09 kind 0: R234, R235. -/
def execSlliw (t : Tid) (gd gs : Reg) (cnt : BitVec 6) (s : State) : Res :=
  s.regOp t.val (encI 0x09 gd.val gs.val (shiftImm 0 true cnt)) gd.val 1 (fun th => sllV 32 (th.g gs.val) (cntV cnt))

/-- SRLIW, major 0x09 kind 1: R234, R235. -/
def execSrliw (t : Tid) (gd gs : Reg) (cnt : BitVec 6) (s : State) : Res :=
  s.regOp t.val (encI 0x09 gd.val gs.val (shiftImm 1 true cnt)) gd.val 1 (fun th => srlV 32 (th.g gs.val) (cntV cnt))

/-- SRAIW, major 0x09 kind 2: R234, R235. -/
def execSraiw (t : Tid) (gd gs : Reg) (cnt : BitVec 6) (s : State) : Res :=
  s.regOp t.val (encI 0x09 gd.val gs.val (shiftImm 2 true cnt)) gd.val 1 (fun th => sraV 32 (th.g gs.val) (cntV cnt))

/-- RORIW, major 0x09 kind 3: R234, R235. -/
def execRoriw (t : Tid) (gd gs : Reg) (cnt : BitVec 6) (s : State) : Res :=
  s.regOp t.val (encI 0x09 gd.val gs.val (shiftImm 3 true cnt)) gd.val 1 (fun th => rorV 32 (th.g gs.val) (cntV cnt))

/-- MOVZ, major 0x0A op 0: R234. -/
def execMovz (t : Tid) (gd : Reg) (imm : BitVec 16) (hw : BitVec 2) (s : State) : Res :=
  s.regOp t.val (encW gd.val hw.toNat 0 imm.toNat) gd.val 1 (fun _ => zimm imm <<< (16 * hw.toNat))

/-- MOVK, major 0x0A op 1: R234. -/
def execMovk (t : Tid) (gd : Reg) (imm : BitVec 16) (hw : BitVec 2) (s : State) : Res :=
  s.regOp t.val (encW gd.val hw.toNat 1 imm.toNat) gd.val 1 (fun th => movkV (th.g gd.val) imm hw.toNat)

/-- MOVN, major 0x0A op 2: R234. -/
def execMovn (t : Tid) (gd : Reg) (imm : BitVec 16) (hw : BitVec 2) (s : State) : Res :=
  s.regOp t.val (encW gd.val hw.toNat 2 imm.toNat) gd.val 1 (fun _ => ~~~(zimm imm <<< (16 * hw.toNat)))

/-- EXTU, major 0x0B op 0: R234. -/
def execExtu (t : Tid) (gd gs : Reg) (pos lenm1 : BitVec 6) (s : State) : Res :=
  s.regOp t.val (encF gd.val gs.val 0 pos.toNat lenm1.toNat) gd.val 1 (fun th => extuV (th.g gs.val) pos.toNat (lenm1.toNat + 1))

/-- EXTS, major 0x0B op 1: R234. -/
def execExts (t : Tid) (gd gs : Reg) (pos lenm1 : BitVec 6) (s : State) : Res :=
  s.regOp t.val (encF gd.val gs.val 1 pos.toNat lenm1.toNat) gd.val 1 (fun th => extsV (th.g gs.val) pos.toNat (lenm1.toNat + 1))

/-- INS, major 0x0B op 2: R234. -/
def execIns (t : Tid) (gd gs : Reg) (pos lenm1 : BitVec 6) (s : State) : Res :=
  s.regOp t.val (encF gd.val gs.val 2 pos.toNat lenm1.toNat) gd.val 1 (fun th => insV (th.g gd.val) (th.g gs.val) pos.toNat (lenm1.toNat + 1))

/-! ### Branches and jumps (R229 to R231) -/

/-- A branch on a condition of its registers. -/
def State.branchOp (s : State) (t : Nat) (w : Word32) (target : Nat → Nat) (annul : Bool) (c : Thread → Bool) : Res :=
  s.leafRun t w (fun s th => .branch s (target th.pc) (c th) annul)

/-- BEQ, cond 0: R230. -/
def execBeq (t : Tid) (gs gt : Reg) (a : Bool) (off : BitVec 12) (s : State) : Res :=
  s.branchOp t.val (encB gs.val gt.val 0 (bit a) off.toNat) (fun pc => branchTarget pc 12 off.toNat) a (fun th => (th.g gs.val) == (th.g gt.val))

/-- BNE, cond 1: R230. -/
def execBne (t : Tid) (gs gt : Reg) (a : Bool) (off : BitVec 12) (s : State) : Res :=
  s.branchOp t.val (encB gs.val gt.val 1 (bit a) off.toNat) (fun pc => branchTarget pc 12 off.toNat) a (fun th => (th.g gs.val) != (th.g gt.val))

/-- BLT, cond 2: R230. -/
def execBlt (t : Tid) (gs gt : Reg) (a : Bool) (off : BitVec 12) (s : State) : Res :=
  s.branchOp t.val (encB gs.val gt.val 2 (bit a) off.toNat) (fun pc => branchTarget pc 12 off.toNat) a (fun th => BitVec.slt (th.g gs.val) (th.g gt.val))

/-- BGE, cond 3: R230. -/
def execBge (t : Tid) (gs gt : Reg) (a : Bool) (off : BitVec 12) (s : State) : Res :=
  s.branchOp t.val (encB gs.val gt.val 3 (bit a) off.toNat) (fun pc => branchTarget pc 12 off.toNat) a (fun th => !BitVec.slt (th.g gs.val) (th.g gt.val))

/-- BLTU, cond 4: R230. -/
def execBltu (t : Tid) (gs gt : Reg) (a : Bool) (off : BitVec 12) (s : State) : Res :=
  s.branchOp t.val (encB gs.val gt.val 4 (bit a) off.toNat) (fun pc => branchTarget pc 12 off.toNat) a (fun th => BitVec.ult (th.g gs.val) (th.g gt.val))

/-- BGEU, cond 5: R230. -/
def execBgeu (t : Tid) (gs gt : Reg) (a : Bool) (off : BitVec 12) (s : State) : Res :=
  s.branchOp t.val (encB gs.val gt.val 5 (bit a) off.toNat) (fun pc => branchTarget pc 12 off.toNat) a (fun th => !BitVec.ult (th.g gs.val) (th.g gt.val))

/-- BBC, sense 0: R230. -/
def execBbc (t : Tid) (gs : Reg) (bit : BitVec 6) (a : Bool) (off : BitVec 13) (s : State) : Res :=
  s.branchOp t.val (encBB gs.val bit.toNat 0 (Machine.bit a) off.toNat) (fun pc => branchTarget pc 13 off.toNat) a (fun th => !(th.g gs.val).getLsbD bit.toNat)

/-- BBS, sense 1: R230. -/
def execBbs (t : Tid) (gs : Reg) (bit : BitVec 6) (a : Bool) (off : BitVec 13) (s : State) : Res :=
  s.branchOp t.val (encBB gs.val bit.toNat 1 (Machine.bit a) off.toNat) (fun pc => branchTarget pc 13 off.toNat) a (fun th => (th.g gs.val).getLsbD bit.toNat)

/-- J: R231. -/
def execJ (t : Tid) (off : BitVec 26) (s : State) : Res :=
  s.leafRun t.val (encJ 0x12 off.toNat) (fun s th => .branch s (branchTarget th.pc 26 off.toNat) true false)

/-- The link a jump writes: its own address + 8 (R231). -/
def linkOf (th : Thread) : Word64 := BitVec.ofNat 64 (th.pc + 8)

/-- JAL: the link goes to g31 (R231). -/
def execJal (t : Tid) (off : BitVec 26) (s : State) : Res :=
  s.leafRun t.val (encJ 0x13 off.toNat) (fun s th =>
    .branch (s.setThread t.val (th.result 31 1 (linkOf th))) (branchTarget th.pc 26 off.toNat) true false)

/-- Whether a register holds an instruction address (R231). -/
def codeAddr (v : Word64) : Bool := decide (v.toNat % 4 = 0 ∧ v.toNat < 0x80000)

/-- JR: R231. -/
def execJr (t : Tid) (gs : Reg) (s : State) : Res :=
  s.leafRun t.val (encR 0x14 0 gs.val 0 0x000) (fun s th =>
    if codeAddr (th.g gs.val) then .branch s (th.g gs.val).toNat true false else .fault s fDOMAIN (th.g gs.val).toNat)

/-- JALR: gs is read first, also where gd is the same register (R231). -/
def execJalr (t : Tid) (gd gs : Reg) (s : State) : Res :=
  s.leafRun t.val (encR 0x14 gd.val gs.val 0 0x001) (fun s th =>
    if codeAddr (th.g gs.val) then .branch (s.setThread t.val (th.result gd.val 1 (linkOf th))) (th.g gs.val).toNat true false
    else .fault s fDOMAIN (th.g gs.val).toNat)

end Sys2Proof.Machine
end

