-- ==== Sys2Proof/Machine/QueuePairs.lean ====
section
/-! DEFINITION. What the host and the board controller reach: mailbox rings, queue pairs, supervisor DMA, BAR2, resets of functions, internal
ports (18, R430 to R452, R465; 13, R352; 20, R495). -/

namespace Sys2Proof.Machine

/-! ### Mailbox rings (R439 to R442, R465, R499) -/

/-- MB_DOORBELL: a host write of MB_REQ_TAIL. -/
def execMbDoorbell (f : Func) (tail : BitVec 16) (s : State) : Res :=
  .next (s.writeBar f.val (0x100014 + 0x1000 * f.val) (tail.setWidth 32) 0)

/-- MB_RSP_HEAD_WRITE: a host write of MB_RSP_HEAD. -/
def execMbRspHeadWrite (f : Func) (head : BitVec 16) (s : State) : Res :=
  .next (s.writeBar f.val (0x100020 + 0x1000 * f.val) (head.setWidth 32) 0)

/-- MB_RING_ENABLE: a host write that sets MB_CFG.en and keeps the sizes. -/
def execMbRingEnable (f : Func) (s : State) : Res :=
  let x := s.func f.val
  .next (s.writeBar f.val (0x100010 + 0x1000 * f.val) (BitVec.ofNat 32 (2 ^ 31 + x.reqLog * 2 ^ 8 + x.rspLog * 2 ^ 4)) 0)

/-- Whether the entries of a function are fetched: by the Folio, or those of the physical function by the ROM (R431, R499, R519). -/
def State.fetches (s : State) (f : Nat) : Bool := s.hostTakes && (s.spineServes || (s.spine.rom && decide (f = 0)))

/-- Whether a function's rings allow a fetch (R440, R442). -/
def FuncSt.mayFetch (x : FuncSt) : Bool :=
  x.en && !x.stopped && !x.restart && decide (x.reqTail ≠ x.reqHead) && decide (x.inFlight < x.credits)
    && decide (x.unread + x.inFlight + 1 ≤ 2 ^ x.rspLog)

/-- MB_ENTRY_FETCH: the next entry is fetched and its function byte compared; `pcieErr` stops the ring (R439, R440, R442). -/
def execMbEntryFetch (f : Func) (pcieErr : Bool) (s : State) : Res :=
  let k := f.val
  let x := s.func k
  if !s.fetches k ∨ !x.mayFetch then .next s
  else if pcieErr then .next (s.setFunc k { x with err := true, stopped := true })
  else
    let entry := s.hostRead (x.reqBase.toNat + 256 * (x.reqHead % 2 ^ x.reqLog)) 256
    let t : Taken := ⟨entry, decide ((byteAt entry 6).toNat ≠ k), 0, []⟩
    .next ((s.setFunc k { x with reqHead := (x.reqHead + 1) % 65536, taken := x.taken ++ [t] }).settleRing k 1024)

/-- BMC_COMMAND: the reduced mailbox takes one command at a time, of at most 96 payload bytes; the response buffer is kept for
BMC_BUF_READ only (R465, R466). -/
def execBmcCommand (bytes : List Byte) (s : State) : Res :=
  let x := s.func 64
  if !s.board.railsGood.getD 6 false ∨ !x.taken.isEmpty then .next s
  else
    let entry := fitBytes (bytes.take 128) 256
    let t : Taken := ⟨entry, decide ((byteAt entry 6).toNat ≠ 64), 0, []⟩
    let s1 := if cmdOpcode entry = 0x0109 then s else s.modSpine (fun m => { m with bmcBuf := [] })
    .next ((s1.setFunc 64 { x with taken := [t] }).settleRing 64 1024)

/-! ### Doorbells (R448, R449) -/

/-- A host write of a queue pair's doorbell page, by the function that owns it. -/
def State.writeDoorbell (s : State) (q off : Nat) (v : Word32) : State :=
  match (s.qp q).owner with
  | some f => s.writeBar f (0x400000 + 0x1000 * q + off) v 0
  | none => s

/-- QP_DOORBELL: QP_SQ_TAIL. -/
def execQpDoorbell (q : Fin 256) (tail : BitVec 16) (s : State) : Res := .next (s.writeDoorbell q.val 0 (tail.setWidth 32))

/-- QP_CQ_HEAD_WRITE: QP_CQ_HEAD. -/
def execQpCqHeadWrite (q : Fin 256) (head : BitVec 16) (s : State) : Res := .next (s.writeDoorbell q.val 4 (head.setWidth 32))

/-! ### PACKET (R445 to R447) -/

/-- The context of a TX descriptor (R445). -/
def QpSt.txContext (x : QpSt) (d : List Byte) : Nat :=
  if x.owner = some 0 ∧ (descCtxOf d).testBit 15 then descCtxOf d % 128 else x.ctx

/-- DMA_TX: a TX descriptor hands its frame to the receive buffer of port 32, once it has room; a descriptor that a PACKET pair does not
know ends with BAD_DESC. -/
def execDmaTx (q : Fin 256) (s : State) : Res :=
  let k := q.val
  let x := s.qp k
  match s.nextDesc k with
  | none => .next s
  | some (i, d) =>
    if x.kind ≠ 1 ∨ descOp d = 2 then .next s
    else if descOp d ≠ 1 ∨ !descClean d ∨ descLen d < 60 ∨ 9596 < descLen d then
      .next (s.takeDesc k (qpDescOf i d none (some (1, 0, false, 0))))
    else if 32768 < s.rxHeld 32 + descLen d then .next s
    else
      let frame := s.hostRead (descHost d) (descLen d)
      let f : RxFrame := ⟨frame, frame, s.time.ns, true, some (x.txContext d), none, none, false, none, false, some (k, i)⟩
      .next ((s.takeDesc k (qpDescOf i d none none)).bufferFrame 32 f)

/-- DMA_RX_BUF: an RX_BUF descriptor posts a buffer; a stalled pair is stalled no more (R447). -/
def execDmaRxBuf (q : Fin 256) (s : State) : Res :=
  let k := q.val
  match s.nextDesc k with
  | none => .next s
  | some (i, d) =>
    if (s.qp k).kind ≠ 1 ∨ descOp d ≠ 2 then .next s
    else if !descClean d ∨ descLen d < 256 ∨ 16384 < descLen d then .next (s.takeDesc k (qpDescOf i d none (some (1, 0, false, 0))))
    else
      let s1 := s.takeDesc k (qpDescOf i d none none)
      .next (s1.setQp k { s1.qp k with stalled := false, fullSince := none })

/-- The receive buffers of a pair that a frame of n bytes takes, in posting order; none where they do not hold it. -/
def rxBuffers : List QpDesc → Nat → Option (List QpDesc)
  | [], n => if n = 0 then some [] else none
  | d :: rest, n =>
    if n = 0 then some []
    else if d.rx && d.ended.isNone then (rxBuffers rest (n - d.len)).map (fun l => d :: l)
    else rxBuffers rest n

/-- The buffers a frame of n bytes goes into, where they and the completion ring have room for it (R447). -/
def QpSt.rxPlace (x : QpSt) (n : Nat) : Option (List QpDesc) :=
  match rxBuffers x.descs n with
  | some l => if x.descs.countP (fun d => d.ended.isSome) + l.length ≤ x.room then some l else none
  | none => none

/-- A frame is written into receive buffers; the completion of the last says so (R446). -/
def State.fillBuffers (s : State) (q queue : Nat) : List QpDesc → List Byte → State
  | [], _ => s
  | d :: rest, data =>
    let part := data.take d.len
    State.fillBuffers ((s.hostWrite d.host part).endDesc q d.index 0 part.length rest.isEmpty queue) q queue rest (data.drop d.len)

/-- Whether an output may go to a queue pair: an enabled PACKET pair that is not stalled; the reason it may not, as its Sheaf counter
(R446, R447). -/
def State.pairRefuses (s : State) (q tenant : Nat) : Option Nat :=
  let x := s.qp q
  if x.kind ≠ 1 then some 56
  else if (match x.owner with | some f => decide (f ≠ 0) && decide ((s.func f).bound ≠ some tenant) | none => false) then some 51
  else if x.stalled then some 56
  else none

/-- The next output to port 32 goes into the buffers of its queue pair, or waits, or is discarded (R446, R447, R352). -/
def State.port32 (s : State) : State :=
  match s.readyOutput 32 with
  | none => s
  | some (o, x) =>
    let k := x.desc.queue % 256
    match s.pairRefuses k x.desc.tenant with
    | some diag => s.finisherDrop o x diag
    | none =>
      if !s.hostTakes then s
      else match (s.qp k).rxPlace x.frame.length with
        | none => if (s.qp k).fullSince.isSome then s else s.setQp k { s.qp k with fullSince := some s.time.cycles }
        | some l =>
          let s1 := s.fillBuffers k x.desc.queue l x.frame
          (s1.setQp k { s1.qp k with fullSince := none }).leaveOutput o x

/-- PORT32_OUTPUT. -/
def execPort32Output (s : State) : Res := .next (if s.finisherRuns then s.port32 else s)

/-- RX_STALL_TIMEOUT: a pair whose output has found no room for rx_stall_us is stalled (R447). -/
def execRxStallTimeout (q : Fin 256) (s : State) : Res :=
  let x := s.qp q.val
  let lacks : Bool := match s.readyOutput 32 with
    | some (_, y) => decide (y.desc.queue % 256 = q.val) && (x.rxPlace y.frame.length).isNone
    | none => false
  match x.fullSince with
  | some t => if lacks ∧ x.kind = 1 ∧ t + 1000 * x.stallUs ≤ s.time.cycles then .next (s.setQp q.val { x with stalled := true }) else .next s
  | none => .next s

/-- An output to port 34 goes into Spine's receive ring while Spine runs (R352, R431). -/
def State.port34 (s : State) : State :=
  match s.readyOutput 34 with
  | none => s
  | some (o, x) =>
    if !s.spineServes then s
    else
      let p := s.port 34
      (s.setPort 34 { p with wireOut := p.wireOut ++ [x.frame] }).leaveOutput o x

/-- INTERNAL_PORT_OUTPUT: ports 32 to 35 (R352). -/
def execInternalPortOutput (n : Fin 4) (s : State) : Res :=
  let loop (k : Nat) : State := match s.readyOutput k with
    | some (o, x) => s.loopFrame k o x
    | none => s
  if !s.finisherRuns then .next s
  else match n.val with
    | 0 => .next s.port32
    | 1 => .next (loop 33)
    | 2 => .next s.port34
    | _ => .next (loop 35)

/-! ### MEM (R449, R450) -/

/-- Whether an enabled DMA window of a function covers a device range and grants the direction (R450). -/
def FuncSt.dmaOk (x : FuncSt) (space a n : Nat) (write : Bool) : Bool :=
  x.windows.any (fun e => e.2.flags.testBit 7 && decide (e.2.space = space) && decide (e.2.base ≤ a) && decide (a + n ≤ e.2.base + e.2.size)
    && e.2.flags.testBit (if write then 1 else 0))

/-- Whether a MEM descriptor is well formed: operation, length, reserved bits. -/
def descMemOk (d : List Byte) : Bool :=
  (descOp d == 3 || descOp d == 4) && descClean d && decide (8 ≤ descLen d) && decide (descLen d ≤ 16777216) && decide (descLen d % 8 = 0)
    && decide (bitsOf (descDev d) 61 48 = 0)

/-- The next descriptor of a MEM pair is performed: it asks memory, or ends. `write`: MEM_WRITE; the other row takes every other one. -/
def State.memDescriptor (s : State) (k : Nat) (write pcieErr : Bool) : State :=
  let x := s.qp k
  match s.nextDesc k with
  | none => s
  | some (i, d) =>
    let space := bitsOf (descDev d) 63 62
    let a := bitsOf (descDev d) 47 0
    let stop (status : Nat) : State := s.takeDesc k (qpDescOf i d none (some (status, 0, false, 0)))
    if x.kind ≠ 2 ∨ (decide (descOp d = 4) ≠ write) then s
    else if !descMemOk d then stop 1
    else if !(s.func (x.owner.getD 64)).dmaOk space a (descLen d) write then stop 2
    else if pcieErr then stop 3
    else
      let data := if write then some (s.hostRead (descHost d) (descLen d)) else none
      let r := s.issueMem (8192 + k) (newReq (decide (space = 2)) a (descLen d) data none (some 5))
      r.2.takeDesc k (qpDescOf i d (some r.1) none)

/-- DMA_MEM_READ: device memory to host memory. -/
def execDmaMemRead (q : Fin 256) (pcieErr : Bool) (s : State) : Res := .next (s.memDescriptor q.val false pcieErr)

/-- DMA_MEM_WRITE: host memory to device memory. -/
def execDmaMemWrite (q : Fin 256) (pcieErr : Bool) (s : State) : Res := .next (s.memDescriptor q.val true pcieErr)

/-- Whether memory has answered a request, and its answer. -/
def State.answered (s : State) (id : Nat) : Option MemDone := if s.served id then SMap.find s.mem.done id else none

/-- A descriptor whose request memory has answered ends: what a read returned goes to host memory, poisoned where an error is uncorrectable; that is
DATA_ERROR, and the bytes not written are not counted as moved (R405, R450). -/
def State.collectDesc (s : State) (q : Nat) (d : QpDesc) : State :=
  match d.ended, d.req with
  | none, some id => match s.answered id with
    | some m =>
      let s1 := (s.modMem (fun x => { x with done := SMap.erase x.done id })).hostWritePoisoned d.host m.data (if m.data.isEmpty then [] else m.poison)
      s1.endDesc q d.index (if m.bad then 5 else 0) (d.len - (if m.data.isEmpty then sumOf m.poison (·.2) else 0)) false 0
    | none => s
  | _, _ => s

/-- DESCRIPTOR_COMPLETE (R448). -/
def execDescriptorComplete (q : Fin 256) (s : State) : Res :=
  if !s.hostUp then .next s
  else .next (((s.qp q.val).descs.foldl (fun (s : State) d => s.collectDesc q.val d) s).completeAll q.val 65536)

/-! ### Supervisor DMA (R192, R193, R451) -/

/-- The SUP queue pair of a Quire. -/
def State.supPair (s : State) (quire : Nat) : Option (Nat × QpSt) := s.qps.find? (fun e => decide (e.2.kind = 3) && decide (e.2.quire = quire))

/-- The operation of a DMA post. Its word is its op, zero once it has ended: then its address is its completion status and its length the
bytes moved. -/
def dmaOp (th : Thread) (w0 : Nat) (op id a len host : Nat) (data : List Byte) : LeafOp :=
  ⟨id, th.issued, .dma, bitsOf w0 15 14, bitsOf w0 8 4, some (bitsOf w0 13 9), a, len, host, BitVec.ofNat 32 op, data, none, 0⟩

/-- Whether a post is well formed (R451). -/
def Thread.dmaOk (th : Thread) (w0 len : Nat) : Bool :=
  (bitsOf w0 3 0 == 3 || bitsOf w0 3 0 == 4) && decide (bitsOf w0 8 4 < 30) && decide (bitsOf w0 15 14 < 3) && decide (len % 8 = 0)
    && decide (w0 / 2 ^ 40 = 0) && (List.range 5).all (fun i => th.bankWord (3 + i) == 0)

/-- A DMA post of a supervisor is accepted, once its queue pair holds fewer than 64. `write`: op 4; the other row takes every other op. -/
def State.dmaPost (s : State) (t : Nat) (write : Bool) : State :=
  match s.posting t 2 with
  | none => s
  | some th =>
    let w0 := th.bankWord 0
    let a := th.bankWord 1
    let host := th.bankWord 2
    let len := if bitsOf w0 39 16 = 0 then 16777216 else bitsOf w0 39 16
    let sp := bitsOf w0 15 14
    let take (s : State) (o : LeafOp) : State := s.setThread t { th.accepted with ops := th.ops ++ [o] }
    let stop (status : Nat) : State := take s (dmaOp th w0 0 0 status 0 host [])
    if decide (bitsOf w0 3 0 = 4) ≠ write then s
    else match s.supPair (tidQuire t) with
      | none => stop 1
      | some (k, _) =>
        if 64 ≤ th.ops.countP (fun o => o.kind = .dma) + th.orphans.length then s
        else if !th.dmaOk w0 len then stop 1
        else if s.spaceSize sp < a + len ∨ (sp = 0 ∧ 0x3A0000 < a + len) ∨ !s.windowCovers (tidQuire t) 0 sp a len (!write) write then stop 2
        else if write ∧ !s.hostUp then stop 3
        else
          let data := if write then s.hostRead host len else []
          let op := if write then 4 else 3
          if sp = 0 then take s (dmaOp th w0 op 0 a len host data)
          else
            let r := s.issueMem (8192 + k) (newReq (decide (sp = 2)) a len (if write then some data else none) none (some 5))
            take r.2 (dmaOp th w0 op r.1 a len host [])

/-- The DMA posts of a thread that have not ended, in order: those from before its reset come first. -/
def Thread.dmaPosts (th : Thread) : List LeafOp := th.orphans ++ th.ops.filter (fun o => decide (o.kind = .dma))

/-- SUP_MEM_READ: a post that copies device memory to host memory, and a post of an unknown op. -/
def execSupMemRead (t : Tid) (s : State) : Res := .next (s.dmaPost t.val false)

/-- SUP_MEM_WRITE: a post that copies host memory to device memory. -/
def execSupMemWrite (t : Tid) (s : State) : Res := .next (s.dmaPost t.val true)

/-- A post ends: its status word, where it names a status register, then its event; one of the thread before its reset ends without either (R210). -/
def State.endDma (s : State) (t : Nat) (o : LeafOp) (status moved : Nat) : State :=
  match (s.thread t).orphans with
  | _ :: rest => s.modThread t (fun th => { th with orphans := rest })
  | [] => s.endOp t o (if o.dst = 0 ∨ 30 ≤ o.dst then [] else [(o.dst, BitVec.ofNat 64 (status + moved * 2 ^ 32))])

/-- A post whose data has been read ends, with the data in host memory. -/
def State.endDmaRead (s : State) (t : Nat) (o : LeafOp) (d : MemDone) : State :=
  if !s.hostUp then s.endDma t o 3 0 else (s.hostWritePoisoned o.loc d.data d.poison).endDma t o (if d.bad then 5 else 0) d.data.length

/-- SUP_DMA_COMPLETE: the oldest post of a supervisor finishes: shared memory is read or written now, other memory has answered. -/
def execSupDmaComplete (t : Tid) (s : State) : Res :=
  let q := tidQuire t.val
  match (s.thread t.val).dmaPosts.head? with
  | none => .next s
  | some o =>
    if o.word = 0 then .next (s.endDma t.val o o.addr o.len)
    else if o.sp = 0 then
      if o.word = 4 then .next ((s.sharedWrite q o.addr o.data).endDma t.val o 0 o.len)
      else
        let r := s.sharedRead q o.addr o.len
        let bad (a n : Nat) : Bool := (s.sharedRead q a n).1
        let d : MemDone := if r.1 then ⟨spoil bad s.freeBits o.addr r.2.1, true, spoiled bad o.addr r.2.1.length⟩ else ⟨r.2.1, false, []⟩
        .next ((if r.1 then r.2.2.stepFresh else r.2.2).endDmaRead t.val o d)
    else match s.answered o.id with
      | none => .next s
      | some m =>
        let s1 := s.modMem (fun x => { x with done := SMap.erase x.done o.id })
        if o.word = 4 then .next (s1.endDma t.val o (if m.bad then 5 else 0) (o.len - sumOf m.poison (·.2)))
        else .next (s1.endDmaRead t.val o m)

/-! ### BAR2 (R452) -/

/-- Where a view shows an offset: the address in table memory, or none where it reads zero. -/
def State.bar2Place (s : State) (f a : Nat) : Option Nat :=
  let x := s.func f
  let tenant : Option Nat := if f = 0 then some x.bar2Tenant else x.bound
  if a < 0x02000000 then
    match tenant with
    | some t => if a / 256 < 129600 ∧ s.rf sheafWin 0x104 31 31 = 1 then some (s.recordAddr t (a / 256) + a % 256) else none
    | none => none
  else if 0x80000000 ≤ a ∧ a < 0xFE900000 then
    if s.rf sheafWin 0x104 31 31 = 1 then some (s.rootAddr 0 + (a - 0x80000000)) else none
  else if 0x100000000 ≤ a ∧ a < 0x300000000 then
    let o := x.rickView * 0x40000000 + (a - 0x100000000)
    if s.rf sheafWin 0x200 31 31 = 1 ∧ o < rickBytes (s.reg sheafWin 0x200) then some (s.rf sheafWin 0x208 11 0 * 0x40000000 + o) else none
  else none

/-- BAR2_READ: the 32 bytes of the views that hold an offset; a virtual function sees no Rick slot of another tenant, and no staging store,
where what no image covers is free (log 37). -/
def execBar2Read (f : Func) (off : BitVec 34) (s : State) : Res :=
  let a := off.toNat / 32 * 32
  let give (s : State) (v : Nat) (bad : Bool) : Res := .next ({ s with readData := BitVec.ofNat 256 v }.modSpine (fun x => { x with readPoison := bad }))
  let answer (s : State) (v : Nat) : Res := give s v false
  if !s.hostUp then .next s
  else if 0x300000000 ≤ a then
    if f.val ≠ 0 then answer s 0
    else match s.draw 5 (bit Config.stagingInTable) with
      | (false, s1) => .next s1
      | (true, s1) => answer s1.stepFresh (leNat ((List.range 32).map (fun k =>
          (s.stagingByte (a - 0x300000000 + k)).getD (BitVec.ofNat 8 (s.freeBits / 2 ^ (8 * k))))))
  else match s.bar2Place f.val a with
    | none => answer s 0
    | some p => match s.unitGate (.activity pcieWin 5) true false p 32 with
      | (.hold, s0) => .next s0
      | (.bad, s0) => give s0.stepFresh s0.freeBits true
      | (.ok, s0) => match s0.draw 5 1 with
        | (false, s1) => .next s1
        | (true, s1) =>
          let r := s1.unitGet true p 32
          if r.1 then give r.2.2.stepFresh s.freeBits true
          else if 0x100000000 ≤ a ∧ f.val ≠ 0 ∧ (s.func f.val).bound ≠ some (leNat (bytesAt r.2.1 4 2)) then answer r.2.2 0
          else answer r.2.2 (leNat r.2.1)

/-! ### Resets and the link (R436, R453, R495) -/

/-- FUNCTION_LEVEL_RESET (R436). -/
def execFunctionLevelReset (f : Func) (s : State) : Res := .next (s.functionReset f.val)

/-- PCIE_PERST: the endpoint's link, the functions and the endpoint's registers; what the device Gathering holds for the functions stays
(R495). -/
def execPciePerst (s : State) : Res :=
  let s1 := s.endpointReset.resetRegs pcieWin (fun off => decide (off < 0x100))
  .next (if s.spine.link then s1.raise 868 else s1)

/-- PCIE_LINK_CHANGE: the link comes up, while the endpoint is IN_SERVICE, or goes down (R453). -/
def execPcieLinkChange (up : Bool) (s : State) : Res :=
  if s.spine.link = up ∨ (up ∧ !s.inService pcieWin) then .next s
  else .next ((s.modSpine (fun x => { x with link := up })).raise 868)

end Sys2Proof.Machine
end

