-- ==== Sys2Proof/Machine/ServiceCommands.lean ====
section
/-! DEFINITION. The mailbox commands of groups 0x09 to 0x0D: keys, attestation and owner, sensors and repair, events, device time (18, R443,
R453, R460 to R462; 19, R477 to R491; 16, R407, R416, R418; 20, R517; 21, R534). -/

namespace Sys2Proof.Machine

/-! ### Group 0x09 (R479 to R484) -/

/-- WRAP_KEYS. -/
def execWrapKeys (f : Src) (s : State) : Res :=
  s.perform f.val 0x0901 (fun (s : State) t => s.respondExt f.val t Config.wrapChain)

/-- Whether a command of KEY_INSTALL's shape names a slot that there is: the first byte that does not. `sc` 0 is the transmit channel of
a port, 1 to 16 its receive channels. -/
def keyField (t : Taken) : Option Nat :=
  if 2 ≤ t.pay 0 1 then some 0
  else if 1024 ≤ t.pay 1 2 then some 1
  else if 32 ≤ t.pay 3 1 then some 3
  else if 17 ≤ t.pay 4 1 then some 4
  else if 4 ≤ t.pay 5 1 then some 5
  else none

/-- The MACsec slot that sc and an name. -/
def saSlot (t : Taken) : Nat := if t.pay 4 1 = 0 then t.pay 5 1 else 4 * t.pay 4 1 + t.pay 5 1

/-- The key K of a wrapped key (R480). -/
def unwrapKey (b : List Byte) : List Byte :=
  hkdf384 deviceId (fitBytes (Config.kemSecret (bytesAt b 0x40 0x620)) 32 ++ fitBytes (Config.ecSecret (bytesAt b 0x660 96)) 48) (bytesAt b 0 0x6C0) 32

/-- The first six checks of R481 on a wrapped key, in their order: the status of the first that fails, none where all pass. -/
def State.keyCheck (s : State) (f : Nat) (t : Taken) (b : List Byte) : Option Nat :=
  let target := t.pay 0 1
  let slot := t.pay 1 2
  let named := leNat (bytesAt b 2 2)
  let fields := leBytes 2 slot ++ leBytes 1 target ++ leBytes 1 (t.pay 3 1) ++ leBytes 1 (t.pay 4 1) ++ leBytes 1 (t.pay 5 1)
  let tenant : Bool := if target = 1 then decide (named % 16384 = s.defaultTenant (t.pay 3 1))
    else decide (f = 0) || decide ((s.func f).bound = some (named % 16384))
  let held : Bool := match (s.keySlot slot).held with
    | some h => decide (target = 1) || decide (h.1 = named % 16384)
    | none => true
  let alg := leNat (bytesAt b 1 1)
  let form := decide (leNat (bytesAt b 0 1) = 1) && (if target = 1 then decide (alg = 4) else decide (1 ≤ alg) && decide (alg ≤ 3))
    && decide (named < 16384) && (bytesAt b 0x0A 2 ++ bytesAt b 0x6CC 4).all (· == 0) && bytesAt b 0x10 48 == deviceId
    && (if target = 1 then decide (slot = 0) else (bytesAt b 7 3).all (· == 0))
  let gen := if target = 1 then s.saGen (t.pay 3 1) (saSlot t) else (s.keySlot slot).gen
  if bytesAt b 4 6 ≠ fields ∨ !tenant then some 4
  else if s.trust.sec ≠ .owned then some 4
  else if !held then some 4
  else if !form then some 11
  else if leNat (bytesAt b 0x0C 4) ≠ gen + 1 then some 11
  else if gcmTag (unwrapKey b) (bytesAt b 0x6C0 12) (bytesAt b 0 0x6D0) (bytesAt b 0x6D0 96) ≠ bytesAt b 0x730 16 then some 11
  else none

/-- A wrapped key that passed is installed (R482, R349). -/
def State.installKey (s : State) (t : Taken) (b : List Byte) : State :=
  let plain := gcmCrypt (unwrapKey b) (bytesAt b 0x6C0 12) (bytesAt b 0x6D0 96)
  let tenant := leNat (bytesAt b 2 2) % 16384
  let key := bytesAt plain 0 32
  if t.pay 0 1 = 0 then
    let k := t.pay 1 2
    s.setKeySlot k ⟨some (tenant, leNat (bytesAt b 1 1), key), (s.keySlot k).gen + 1⟩
  else
    let n := t.pay 3 1
    let slot := saSlot t
    let a : MacsecSa := ⟨key, bytesAt plain 32 12, BitVec.ofNat 32 (leNat (bytesAt plain 44 4)), BitVec.ofNat 64 (leNat (bytesAt plain 48 8)),
      1, keyId tenant key, false⟩
    let gen := s.saGen n slot
    let s1 := s.setSa n slot a
    let p := s1.port n
    s1.setPort n { p with saGens := SMap.set (fun _ => 0) p.saGens slot (gen + 1) }

/-- KEY_INSTALL: a wrapped key that passes the checks enters the unwrap queue, if one of its 16 places is free; unwrapped, and checked again as it is
installed, it answers the new generation (R481; log 44); notes: the wrapped key. -/
def execKeyInstall (f : Src) (s : State) : Res :=
  s.perform f.val 0x0902 (fun (s : State) t =>
    if t.phase = 1 then
      let b := leBytes 1856 (t.notes.getD 0 0)
      match s.keyCheck f.val t b with
      | some st => reply s st
      | Option.none => (s.installKey t b).respond f.val t (bytesAt b 0x0C 4)
    else if f.val ≠ 0 ∧ t.pay 0 1 = 1 then reply s 4
    else match keyField t, s.extIn t with
      | some i, _ => badAt s i
      | Option.none, Option.none => reply s 14
      | Option.none, some ext =>
        let b := fitBytes ext 1856
        match s.keyCheck f.val t b with
        | some st => reply s st
        | Option.none => if 16 ≤ s.unwrapping.length then reply s 6 else .later (s.noteTaken f.val 1 [leNat b]))

/-- KEY_REVOKE: the slot or SA is emptied, its generation raised (R483). -/
def execKeyRevoke (f : Src) (s : State) : Res :=
  s.perform f.val 0x0903 (fun (s : State) t =>
    if f.val ≠ 0 ∧ t.pay 0 1 = 1 then reply s 4
    else match keyField t with
      | some i => badAt s i
      | Option.none =>
        if t.pay 0 1 = 0 then
          let k := t.pay 1 2
          let x := s.keySlot k
          let mine : Bool := match x.held with
            | some h => decide (f.val = 0) || decide ((s.func f.val).bound = some h.1)
            | Option.none => decide (f.val = 0)
          if !mine then reply s 4
          else if x.held.isNone then reply s 7
          else reply (s.setKeySlot k ⟨Option.none, x.gen + 1⟩) 0
        else
          let n := t.pay 3 1
          let slot := saSlot t
          if (s.sa n slot).isNone then reply s 7
          else
            let p := s.port n
            reply (s.setPort n { p with sas := SMap.erase p.sas slot, saGens := SMap.set (fun _ => 0) p.saGens slot (s.saGen n slot + 1) }) 0)

/-- The Clasp slots held, in ascending order: of one tenant, or of all. -/
def State.heldKeys (s : State) (tenant : Option Nat) : List (Nat × (Nat × Nat × List Byte) × Nat) :=
  s.keys.filterMap (fun e => match e.2.held with
    | some h => if tenant = Option.none ∨ tenant = some h.1 then some (e.1, h, e.2.gen) else Option.none
    | Option.none => Option.none)

/-- KEY_LIST: slot, tenant, algorithm and generation of each key, and the key_id that identifies it (R484; log 119). -/
def execKeyList (f : Src) (s : State) : Res :=
  s.perform f.val 0x0904 (fun (s : State) t =>
    let mine := s.heldKeys (if f.val = 0 then Option.none else (s.func f.val).bound)
    let l := (mine.filter (fun e => decide (t.pay 0 2 ≤ e.1))).take 64
    s.respond f.val t (l.flatMap (fun e => leBytes 2 e.1 ++ leBytes 2 e.2.1.1 ++ leBytes 1 e.2.1.2.1 ++ leBytes 4 e.2.2 ++ keyId e.2.1.1 e.2.1.2.2)))

/-! ### Group 0x0A (R477, R486 to R491) -/

/-- The digests of what runs in a Quire, and its state (R486). -/
def State.quireEntry (s : State) (q : Nat) : List Byte :=
  let d (k : Nat) : List Byte := fitBytes (((s.runningKind (quireWin q) k).map Image.digest).getD []) 48
  d 1 ++ d 2 ++ d 6 ++ leBytes 1 (s.reported (quireWin q)).1.code ++ List.replicate 15 0

/-- The signed part of the attestation report: bytes 0x0000 to 0x14FF (R486, R487). -/
def State.reportHead (s : State) (f : Nat) (nonce challenge : List Byte) : List Byte :=
  let bound : Option Nat := if f = 0 ∨ f = 64 then Option.none else (s.func f).bound
  let keys := (if bound.isNone then [] else s.heldKeys bound).take 64
  let graph := s.graphBank (decide (s.rf tedderWin 0x200 0 0 = 1))
  let folio (g : Image → Nat) : Nat := (s.spine.folio.map g).getD 0
  leBytes 1 1 ++ leBytes 1 s.trust.sec.code ++ leBytes 1 f ++ leBytes 1 (bit bound.isSome + 2 * bit s.owner.isSome)
    ++ leBytes 2 (bound.getD 0) ++ leBytes 2 0x3200 ++ leBytes 2 0x00B0 ++ leBytes 1 s.variant.toNat ++ leBytes 1 keys.length ++ List.replicate 4 0
    ++ fitBytes nonce 48 ++ fitBytes deviceId 48 ++ leBytes 8 s.time.ns.toNat ++ (List.range 16).map (fun c => BitVec.ofNat 8 (s.counter c))
    ++ challenge ++ fitBytes Config.romDigest 48 ++ fitBytes ((s.spine.folio.map Image.digest).getD []) 48 ++ s.ownerDigest
    ++ (if graph.isEmpty then List.replicate 48 0 else sha384 graph) ++ leBytes 4 (folio Image.version) ++ leBytes 1 (folio Image.svn)
    ++ leBytes 1 (bit s.spine.slotB) ++ List.replicate 146 0 ++ (List.range 24).flatMap s.quireEntry
    ++ fitBytes (keys.flatMap (fun e => leBytes 2 e.1 ++ leBytes 1 e.2.1.2.1 ++ [0] ++ leBytes 4 e.2.2 ++ keyId e.2.1.1 e.2.1.2.2)) 1024

/-- ATTEST: the report with its chains, and a new challenge (R486 to R488). -/
def execAttest (f : Src) (s : State) : Res :=
  s.perform f.val 0x0A01 (fun (s : State) t =>
    let challenge := fitBytes (Config.random s.fresh) 32
    let chain := Config.certChain s.trust.cdi
    let head := s.reportHead f.val (t.payBytes 0 48) challenge
    let report := head ++ fitBytes (s.attestSign 0 head) 96 ++ fitBytes (s.attestSign 1 head) 4627 ++ List.replicate 141 0
    if extRoom f.val t < 10244 + chain.length then reply s 6
    else ((s.modTrust (fun x => { x with challenge := some (challenge, s.time.cycles) })).stepFresh).respondExt f.val t
      (report ++ leBytes 4 chain.length ++ chain))

/-- OWNER_ENROL: the owner digest goes into the next of 4 fuse banks; a transfer zeroises; the attestation pair is derived anew (R477). -/
def execOwnerEnrol (f : Src) (s : State) : Res :=
  s.perform f.val 0x0A02 (fun (s : State) t => match s.extIn t with
    | Option.none => reply s 14
    | some cert =>
      if 4 ≤ s.trust.banks.length then reply s 8
      else
        let enrol (s : State) (keys : List Byte) : Served :=
          let s1 := s.modTrust (fun x => { x with banks := x.banks ++ [sha384 keys] })
          reply ((if s1.trust.sec = .unowned then s1.setSec .owned else s1).deriveCdi) 0
        match s.owner, Config.certKeys cert with
        | Option.none, Option.none => reply s 11
        | Option.none, some keys => if Config.certProof cert then enrol s keys else reply s 11
        | some old, keys => match Config.certTransfer old cert, keys with
          | Option.none, _ => reply s 8
          | some true, some keys => if Config.certProof cert then enrol s.zeroise keys else reply s 11
          | _, _ => reply s 11)

/-- Whether a debug token is valid (R491). -/
def State.tokenOk (s : State) (b : List Byte) : Bool :=
  let msg := bytesAt b 0 0x90
  let k := leNat (bytesAt b 2 1)
  let zero (off n : Nat) : Bool := (bytesAt b off n).all (· == 0)
  let fresh : Bool := match s.trust.challenge with
    | some (c, at0) => decide (s.time.cycles < at0 + 600000000000) && c == bytesAt b 0x10 32
    | Option.none => false
  let owner : Bool := match s.owner with
    | some d => fitBytes d 48 == bytesAt b 0x60 48 && Config.verify (ownerSigner d) 0 msg (bytesAt b 0x90 96)
        && Config.verify (ownerSigner d) 1 msg (bytesAt b 0xF0 4627)
    | Option.none => false
  decide (0x2583 ≤ b.length) && decide (leNat (bytesAt b 0 1) = 1) && zero 3 13 && zero 0x1303 13 && (b.drop 0x2583).all (· == 0)
    && fresh && bytesAt b 0x30 48 == deviceId && owner && decide (k < 4) && !s.trust.revoked.testBit k
    && Config.verify k 0 msg (bytesAt b 0x1310 96) && Config.verify k 1 msg (bytesAt b 0x1370 4627)
    && decide (s.trust.sec = .owned) && !s.board.latched.testBit 7

/-- DEBUG_ENABLE: the challenge is used up, zeroisation, DEBUG, a new attestation pair (R491). -/
def execDebugEnable (f : Src) (s : State) : Res :=
  s.perform f.val 0x0A03 (fun (s : State) t => match s.extIn t with
    | Option.none => reply s 14
    | some b =>
      if !s.tokenOk b then reply s 11
      else
        let s1 := (s.modTrust (fun x => { x with challenge := Option.none, scope := leNat (bytesAt b 1 1) % 4 })).zeroise
        reply ((s1.setSec .debug).deriveCdi) 0)

/-- SECURITY_GET. -/
def execSecurityGet (f : Src) (s : State) : Res :=
  s.perform f.val 0x0A04 (fun (s : State) t =>
    s.respond f.val t (leBytes 1 s.trust.sec.code ++ (List.range 16).map (fun c => BitVec.ofNat 8 (s.counter c))))

/-! ### Group 0x0B -/

/-- Sensor 0: the hottest site (R534). -/
def BoardSt.hottest (b : BoardSt) : Word32 := b.sites.foldl (fun (a x : Word32) => if a.toInt < x.toInt then x else a) (b.sites.getD 0 0)

/-- A sensor's value and unit (R534). -/
def BoardSt.sensor (b : BoardSt) (k : Nat) : Option (Word32 × Nat) :=
  if k = 0 then some (b.hottest, 0)
  else if k < 33 then some (b.sites.getD (k - 1) 0, 0)
  else if k < 41 then some (BitVec.ofNat 32 (b.volts.getD (k - 33) 0), 1)
  else Option.none

/-- SENSOR_READ. -/
def execSensorRead (f : Src) (s : State) : Res :=
  s.perform f.val 0x0B01 (fun (s : State) t => match s.board.sensor (t.pay 0 2) with
    | some v => s.respond f.val t (leBytes 4 v.1.toNat ++ leBytes 1 v.2)
    | Option.none => reply s 7)

/-- ECC_LOG_GET: entries 0 to 7, the counters (8), the instance's description (9) (R407, R408). -/
def execEccLogGet (f : Src) (s : State) : Res :=
  s.perform f.val 0x0B02 (fun (s : State) t =>
    let w := t.pay 0 2
    let inst := t.pay 2 1
    if 430 ≤ w ∨ (s.memInstance w inst).isNone ∨ 10 ≤ t.pay 3 1 then reply s 9
    else s.respond f.val t (s.logBytes w inst (t.pay 3 1)))

/-- Repair entries, and others that they do not name yet. -/
def addRepairs (es more : List RepairEntry) : List RepairEntry := more.foldl (fun l e => if l.any e.same then l else l ++ [e]) es

/-- The entries of a new repair record: those applied, those of the newest record, and those taken from the queue or still in it, at most 1,024.
Whether a row of table memory is to be repaired for good is the Folio's policy: perm is free (R416, R418). -/
def State.recordEntries (s : State) : List RepairEntry :=
  let perm (e : RepairEntry × Nat) : RepairEntry := { e.1 with info := if e.1.kind = 2 then bit (s.freeBits.testBit e.2) else 0 }
  let fresh := (addRepairs s.mower.collected s.mower.hardQueue).zipIdx.map perm
  (addRepairs (addRepairs s.mower.repaired ((s.latestRecord.map Image.repairs).getD [])) fresh).take 1024

/-- A soft repair record, signed by the DeviceID keys (R416, R418); after tamper there is no key left to sign it with. -/
def State.repairRecord (s : State) : List Byte :=
  let es := s.recordEntries
  let msg := leBytes 1 1 ++ [0] ++ leBytes 2 es.length ++ List.replicate 4 0 ++ leBytes 8 (s.trust.recordSeq + 1) ++ fitBytes deviceId 48
    ++ es.flatMap RepairEntry.bytes
  let sig (alg n : Nat) : List Byte := fitBytes (if s.trust.erased then [] else Config.sign 1 alg msg) n
  msg ++ sig 0 96 ++ sig 1 4627

/-- REPAIR_RECORD: a new record, staged; the entries queued leave Mower's queue for it. -/
def execRepairRecord (f : Src) (s : State) : Res :=
  s.perform f.val 0x0B03 (fun (s : State) t =>
    let i : Image := ⟨3, s.repairRecord, []⟩
    if !s.stagingRoom i then reply s 6
    else
      let r := (s.modTrust (fun x => { x with recordSeq := x.recordSeq + 1 })).stageImage i
      let s1 := ((r.2.collectRepairs s.mower.hardQueue).modMower (fun m => { m with hardQueue := [] })).stepFresh.setRf mowerWin 0x700 6 0 0
      s1.respond f.val t (leBytes 2 r.1))

/-- CHANNEL_RETRAIN: DRAIN, retraining and RESUME of a memory channel as one command (R399, R517); notes: the window. -/
def execChannelRetrain (f : Src) (s : State) : Res :=
  s.perform f.val 0x0B04 (fun (s : State) t =>
    let w := if t.phase = 0 then (winOfPath t 0).getD 430 else t.notes.getD 0 0
    let result (s : State) : Served := s.respond f.val t (leBytes 1 (s.rf w 0x104 29 28))
    if t.phase = 0 then
      if (kindOf w ≠ 0x09 ∧ kindOf w ≠ 0x0B) ∨ (s.gathOf w).own ≠ .inService ∨ s.busy w ∨ s.ancestorBusy w then reply s 8
      else .later ((s.command w .drain).noteTaken f.val 1 [w])
    else if t.phase = 1 then
      if (s.gathOf w).own = .quiet ∧ !s.busy w then .later ((Res.settled s (execChRetrain (Fin.ofNat 430 w) s)).noteTaken f.val 2 [w])
      else if (s.gathOf w).own = .quiescing ∨ s.busy w then .later s
      else result s
    else if s.rf w 0x104 30 30 = 1 then .later s
    else if (s.gathOf w).own = .quiet then result (s.command w .resume)
    else result s)

/-! ### Group 0x0C (R453 to R458) -/

/-- EVENT_ROUTE: route and limit of a source, taken together. -/
def execEventRoute (f : Src) (s : State) : Res :=
  s.perform f.val 0x0C01 (fun (s : State) t =>
    let k := t.pay 0 2
    if 1024 ≤ k then badAt s 0
    else s.writeAnswer [(spineWin, 0x1000 + 4 * k, BitVec.ofNat 32 (t.pay 2 4)), (spineWin, 0x2000 + 4 * k, BitVec.ofNat 32 (t.pay 6 4))])

/-- EVENT_RAISE. -/
def execEventRaise (f : Src) (s : State) : Res :=
  s.perform f.val 0x0C02 (fun (s : State) t =>
    if t.pay 0 2 < 896 ∨ 1024 ≤ t.pay 0 2 then reply s 9 else reply (s.raise (t.pay 0 2)) 0)

/-- EVENT_GET. -/
def execEventGet (f : Src) (s : State) : Res :=
  s.perform f.val 0x0C03 (fun (s : State) t =>
    let k := t.pay 0 2
    if 1024 ≤ k then reply s 9
    else s.respond f.val t (leBytes 4 (s.reg spineWin (0x1000 + 4 * k)).toNat ++ leBytes 4 (s.reg spineWin (0x2000 + 4 * k)).toNat
      ++ leBytes 1 (bit (s.evStatus k)) ++ leBytes 1 (bit (s.evMasked k))))

/-! ### Group 0x0D (R460 to R462) -/

/-- TIME_GET. -/
def execTimeGet (f : Src) (s : State) : Res :=
  s.perform f.val 0x0D01 (fun (s : State) t =>
    s.respond f.val t (leBytes 8 s.time.ns.toNat ++ leBytes 1 s.sheaf.utc ++ leBytes 1 s.sync))

/-- TIME_ADJUST: the frequency adjustment, then the step. -/
def execTimeAdjust (f : Src) (s : State) : Res :=
  s.perform f.val 0x0D02 (fun (s : State) t =>
    let step : Int := (BitVec.ofNat 64 (t.pay 0 8)).toInt
    let freq := signed (BitVec.ofNat 32 (t.pay 8 4))
    if !stepLegal step ∨ freq < -500000 ∨ 500000 < freq then reply s 9
    else
      let s1 := if s.timeSource = 2 then s else s.setReg timeWin 0x118 (BitVec.ofNat 32 (t.pay 8 4))
      reply (s1.stepTime step) 0)

/-- TIME_SOURCE: TIME_CFG.source and port. -/
def execTimeSource (f : Src) (s : State) : Res :=
  s.perform f.val 0x0D03 (fun (s : State) t =>
    if 3 ≤ t.pay 0 1 ∨ 32 ≤ t.pay 1 1 then reply s 9
    else
      let s1 := (s.setRf timeWin 0x110 31 30 (t.pay 0 1)).setRf timeWin 0x110 21 16 (t.pay 1 1)
      reply (if s.timeSource = t.pay 0 1 then s1 else s1.selectSource) 0)

end Sys2Proof.Machine
end

