-- ==== Sys2Proof/Machine/TableCommands.lean ====
section
/-! DEFINITION. The mailbox commands of groups 0x05 to 0x08: classification, Ling, Warren, Drover, Sheaf and Rick (18, R443, R444; 02, R58;
14, R373). -/

namespace Sys2Proof.Machine

/-! ### Group 0x05 -/

/-- GRAPH_LOAD: a staged graph goes into the standby bank, once its lines have drawn their tokens and no switch is pending (R58, R474); notes:
the lines drawn. -/
def execGraphLoad (f : Src) (s : State) : Res :=
  s.perform f.val 0x0501 (fun (s : State) t =>
    if t.phase = 2 then (if s.tedder.loadWaiting.isSome then .later s else reply s 0)
    else match s.staged (t.pay 0 2) with
      | none => reply s 7
      | some i =>
        if i.kind ≠ 5 then reply s 7
        else if !s.loadOk i then reply s 11
        else if s.rolledBack tedderWin i then reply s 12
        else
          let had := t.notes.getD 0 0
          let q := s.drawLoad (i.lines - had)
          let s1 := q.2.setRunning tedderWin i
          if had + q.1 < i.lines then .later (q.2.noteTaken f.val 1 [had + q.1])
          else if s.rf tedderWin 0x200 9 9 = 1 ∨ s.tedder.loadWaiting.isSome then
            .later ((s1.modTedder (fun x => { x with loadWaiting := some i.payload })).noteTaken f.val 2 [])
          else reply (s1.loadStandby i.payload) 0)

/-- The registers of a payload's words from a byte on, at a window's offset. -/
def wordRegs (t : Taken) (at0 w off n : Nat) : List (Nat × Nat × Word32) :=
  (List.range n).map (fun k => (w, off + 4 * k, BitVec.ofNat 32 (t.pay (at0 + 4 * k) 4)))

/-- The action word of an entry that CLASS_WRITE gives: a direct entry is one, a range entry's is its upper half. -/
def classAct (range : Bool) (v : Nat) : Word128 := BitVec.ofNat 128 (v >>> (if range then 128 else 0))

/-- An indirect write of a direct or range entry, with its address and data. -/
def State.classIndirect (s : State) (range : Bool) (i v : Nat) : State :=
  let s1 := s.setReg windrowWin 0x500 (BitVec.ofNat 32 (bit range * 2 ^ 31 + i))
  (s1.setWindData (if range then 8 else 4) v).windrowIndirect 1

/-- CLASS_WRITE: one entry of Windrow's tables; a stage slot is 48 bytes, or 64 with its reserved ones. -/
def execClassWrite (f : Src) (s : State) : Res :=
  s.perform f.val 0x0502 (fun (s : State) t =>
    let i := t.pay 1 4
    match classTarget (t.pay 0 1) with
    | none => badAt s 0
    | some (n, size, place) =>
      if n ≤ i then reply s 9
      else match place with
        | some (base, stride) => s.writeAnswer (wordRegs t 5 windrowWin (base + stride * i) (min size 48 / 4))
        | none =>
          let range := decide (t.pay 0 1 = 2)
          if s.heldInReset ∨ !actionListed (classAct range (t.pay 5 size)) then refusedAt s
          else reply (s.classIndirect range i (t.pay 5 size)) 0)

/-- The holder of a Ling or a Warren command block: 255 is Spine. -/
def State.lingHolder (s : State) (x : Nat) : Nat := SMap.get (fun _ => 255) s.ling.holders x
def State.warrenHolder (s : State) (x : Nat) : Nat := SMap.get (fun _ => 255) s.warren.holders x

/-- LING_STATUS, LING_RESULT, data, care and action of a block. -/
def State.lingReply (s : State) (x : Nat) : List Byte :=
  let b := blockBase x
  leBytes 4 (s.reg lingWin (b + 0xB4)).toNat ++ leBytes 4 (s.reg lingWin (b + 0xB8)).toNat ++ leBytes 80 (s.blockWords b 20)
    ++ leBytes 80 (s.blockWords (b + 0x50) 20) ++ leBytes 16 (s.blockWords (b + 0xA0) 4)

/-- LING_COMMAND: a command on the block that the function holds, answered when it has completed (R103, R444). -/
def execLingCommand (f : Src) (s : State) : Res :=
  s.perform f.val 0x0503 (fun (s : State) t =>
    match (List.range 4).find? (fun x => s.lingHolder x == f.val) with
    | none => reply s 4
    | some x =>
      let close (s : State) : Served := if (s.blockCmds x).isEmpty then s.respond f.val t (s.lingReply x) else .later (s.noteTaken f.val 1 [])
      if t.phase = 1 then close s
      else if 32 ≤ t.pay 0 1 then badAt s 0
      else if 32768 ≤ t.pay 3 2 then badAt s 3
      else if 7 ≤ t.pay 1 1 ∨ 3 ≤ t.pay 2 1 then refusedAt s
      else if (t.pay 1 1 = 1 ∨ t.pay 1 1 = 3) ∧ !actionListed (BitVec.ofNat 128 (t.pay 165 16)) then refusedAt s
      else if !(s.blockCmds x).isEmpty then .later s
      else
        let b := blockBase x
        let s1 := s.setBlockWords b 20 (t.pay 5 80)
        let s2 := s1.setBlockWords (b + 0x50) 20 (t.pay 85 80)
        let s3 := s2.setBlockWords (b + 0xA0) 4 (t.pay 165 16)
        close (s3.lingGo x (t.pay 1 1) (t.pay 2 1) (t.pay 0 1) (t.pay 3 2)))

/-- BLOCK_ASSIGN of Ling (0x0504) or Warren (0x0604): BAD_STATE while the block has work. -/
def execBlockAssign (f : Src) (s : State) : Res :=
  let warren : Bool := match (s.func f.val).taken with
    | t :: _ => cmdOpcode t.entry == 0x0604
    | [] => false
  s.perform f.val (if warren then 0x0604 else 0x0504) (fun (s : State) t =>
    let x := t.pay 0 1
    let h := t.pay 1 1
    if 4 ≤ x then badAt s 0
    else if 64 ≤ h ∧ h ≠ 255 then badAt s 1
    else if warren then
      if !(s.wQueue x).isEmpty then reply s 8
      else reply (s.modWarren (fun w => { w with holders := SMap.set (fun _ => 255) w.holders x h })) 0
    else if !(s.blockCmds x).isEmpty then reply s 8
    else reply (s.modLing (fun g => { g with holders := SMap.set (fun _ => 255) g.holders x h })) 0)

/-! ### Group 0x06 -/

/-- WARREN_STATUS, index, key and data of a block. -/
def State.warrenReply (s : State) (x : Nat) : List Byte :=
  let w := warrenEngineWin x
  leBytes 4 (s.reg w 0x1A8).toNat ++ leBytes 4 (s.reg w 0x1AC).toNat ++ leBytes 96 (s.engWords x 0x100 24) ++ leBytes 16 (s.engWords x 0x180 4)

/-- WARREN_COMMAND: a command on the block that the function holds, answered when it has completed (R125, R444). -/
def execWarrenCommand (f : Src) (s : State) : Res :=
  s.perform f.val 0x0601 (fun (s : State) t =>
    match (List.range 4).find? (fun x => s.warrenHolder x == f.val) with
    | none => reply s 4
    | some x =>
      let w := warrenEngineWin x
      let close (s : State) : Served := if (s.wQueue x).isEmpty then s.respond f.val t (s.warrenReply x) else .later (s.noteTaken f.val 1 [])
      if t.phase = 1 then close s
      else if 16 ≤ t.pay 1 1 then badAt s 1
      else if 8 ≤ t.pay 2 1 then badAt s 2
      else if 2 ^ 26 ≤ t.pay 3 4 then badAt s 3
      else if 7 ≤ t.pay 0 1 then refusedAt s
      else if !(s.wQueue x).isEmpty then .later s
      else
        let s1 := (s.setRf w 0x1AC 25 0 (t.pay 3 4)).setEngWords x 0x100 24 (t.pay 7 96)
        let s2 := (s1.setEngWords x 0x180 4 (t.pay 103 16)).setEngWords x 0x190 2 (t.pay 119 8)
        let flag (b : Nat) : Bool := (t.pay 2 1).testBit b
        close (s2.warrenGo x (t.pay 0 1) (t.pay 1 1) (flag 0) (flag 1) (flag 2)))

/-- Whether a register's table lists every field of a value. -/
def regLegal (w off : Nat) (v : Word32) : Bool :=
  match regAt w off with
  | some (r, _) => r.legal v
  | none => false

/-- A register takes a value that has been checked, with what the write does. -/
def State.putReg (s : State) (e : Nat × Nat × Word32) : State :=
  match regAt e.1 e.2.1 with
  | some (r, idx) => (s.setReg e.1 e.2.1 (s.newValue e.1 e.2.1 idx r e.2.2 0)).wrote (Fin.ofNat 430 e.1) e.2.1 idx (s.reg e.1 e.2.1) e.2.2
  | none => s

/-- TABLE_SET: configuration, base, policy and the two action words of a Warren table, taken together (R114, R115). -/
def execTableSet (f : Src) (s : State) : Res :=
  s.perform f.val 0x0602 (fun (s : State) t =>
    let n := t.pay 0 1
    let o := 0x1000 + 0x100 * n
    let ws := wordRegs t 1 warrenWin o 3 ++ wordRegs t 13 warrenWin (o + 0x10) 4 ++ wordRegs t 29 warrenWin (o + 0x20) 4
    if 16 ≤ n then badAt s 0
    else if !s.heldInReset && ws.all (fun e => regLegal e.1 e.2.1 e.2.2) && s.tableOk n (BitVec.ofNat 32 (t.pay 1 4)) (BitVec.ofNat 32 (t.pay 5 4 % 2 ^ 30)) then
      reply (ws.foldl State.putReg s) 0
    else refusedAt s)

/-- WARREN_SET: WARREN_CACHE_CFG, WARREN_LEARN_CFG, WARREN_FLAP_CFG. -/
def execWarrenSet (f : Src) (s : State) : Res :=
  s.perform f.val 0x0603 (fun (s : State) t => s.writeAnswer (wordRegs t 0 warrenWin 0x100 3))

/-! ### Group 0x07 -/

/-- NODE_SET (R319, R320). -/
def execNodeSet (f : Src) (s : State) : Res :=
  s.perform f.val 0x0701 (fun (s : State) t =>
    let level := t.pay 0 1
    let i := t.pay 1 3
    let e : BitVec 256 := BitVec.ofNat 256 (t.pay 4 32)
    if 5 ≤ level ∨ nodeCount level ≤ i then reply s 9
    else if s.nodeRejects level (nodeKey level i) e then refusedAt s
    else reply (s.writeNode level (nodeKey level i) e) 0)

/-- NODE_GET. -/
def execNodeGet (f : Src) (s : State) : Res :=
  s.perform f.val 0x0702 (fun (s : State) t =>
    let level := t.pay 0 1
    let i := t.pay 1 3
    if 5 ≤ level ∨ nodeCount level ≤ i then reply s 9 else s.respond f.val t (leBytes 32 (s.nodeEntry (nodeKey level i)).toNat))

/-- POLICER_SET (R326, R327). -/
def execPolicerSet (f : Src) (s : State) : Res :=
  s.perform f.val 0x0703 (fun (s : State) t =>
    let i := t.pay 0 4
    let e : BitVec 256 := BitVec.ofNat 256 (t.pay 4 16)
    if 1048576 ≤ i then badAt s 0 else if polRejects e then refusedAt s else reply (s.writePol i e) 0)

/-- QUEUE_STATS: a virtual function sees the queues whose tenant node is its tenant's. -/
def execQueueStats (f : Src) (s : State) : Res :=
  s.perform f.val 0x0704 (fun (s : State) t =>
    let q := t.pay 0 4
    if 131072 ≤ q then badAt s 0
    else if f.val ≠ 0 ∧ (s.func f.val).bound ≠ some (s.nodeBits (s.queueTenantNode q) 205 192) then reply s 4
    else
      let r := leBytes 32 (s.statsEntry q).toNat
      (if t.pay 4 1 = 0 then s else s.clearStats q).respond f.val t r)

/-- QUEUE_FLUSH (R337). -/
def execQueueFlush (f : Src) (s : State) : Res :=
  s.perform f.val 0x0705 (fun (s : State) t =>
    if 131072 ≤ t.pay 0 4 then reply s 9 else reply (Res.settled s (execDroverFlush (BitVec.ofNat 17 (t.pay 0 4)) s)) 0)

/-- PFC_SET (R333). -/
def execPfcSet (f : Src) (s : State) : Res :=
  s.perform f.val 0x0706 (fun (s : State) t =>
    if 32 ≤ t.pay 0 1 then badAt s 0 else s.writeAnswer (wordRegs t 1 droverWin (0x400 + 4 * t.pay 0 1) 1))

/-! ### Group 0x08 -/


/-- How far a command's reading of table memory has come: complete, waiting after `n` bytes, or at an error. -/
inductive Fetched where
  | all (data : List Byte)
  | waits (data : List Byte)
  | bad

/-- The lines of a stretch of table memory, each with its length. -/
def linesFrom (a n : Nat) : List (Nat × Nat) :=
  (List.range (linesOf a n)).map (fun i =>
    let lo := max a (64 * (a / 64 + i))
    (lo, min (a + n) (64 * (a / 64 + i) + 64) - lo))

/-- Spine reads lines of table memory in turn, each as its token is drawn (R36, R391, R421). -/
def State.fetchLines (s : State) (cls : Nat) : List (Nat × Nat) → List Byte → Fetched × State
  | [], data => (.all data, s)
  | l :: ls, data => match s.unitGate .spine true false l.1 l.2 with
    | (.bad, s1) => (.bad, s1)
    | (.hold, s1) => (.waits data, s1)
    | (.ok, s1) => match s1.draw cls 1 with
      | (false, s2) => (.waits data, s2)
      | (true, s2) =>
        let r := s2.unitGet true l.1 l.2
        if r.1 then (.bad, r.2.2) else r.2.2.fetchLines cls ls (data ++ r.2.1)

/-- A command reads stretches of table memory, over as many rounds as its tokens take (R421): `bad` where the memory does not answer or an error
is uncorrectable. Its notes: the bytes read so far, and how many. -/
def State.tableFetch (s : State) (f : Nat) (t : Taken) (cls : Nat) (parts : List (Nat × Nat)) (bad : State → Served)
    (go : State → List Byte → Served) : Served :=
  let had := leBytes (t.notes.getD 1 0) (t.notes.getD 0 0)
  let left := ((parts.flatMap (fun p => linesFrom p.1 p.2)).foldl (fun (acc : Nat × List (Nat × Nat)) l =>
    if acc.1 < l.2 then (0, acc.2 ++ [l]) else (acc.1 - l.2, acc.2)) (had.length, [])).2
  match s.fetchLines cls left had with
  | (.bad, s1) => bad s1
  | (.waits d, s1) => .later (s1.noteTaken f 1 [leNat d, d.length])
  | (.all d, s1) => go s1 d

/-- RECORD_GET (R372, R45). -/
def execRecordGet (f : Src) (s : State) : Res :=
  s.perform f.val 0x0801 (fun (s : State) t =>
    let tenant := s.actingTenant f.val (t.pay 4 2)
    s.tableFetch f.val t 4 [(s.recordAddr tenant (t.pay 0 4), 256)] (reply · 7) (fun s rec =>
      if leNat (bytesAt rec 4 4) = t.pay 0 4 then s.respondExt f.val t rec else reply s 7))

/-- The siblings of a leaf from its hashes upwards, for a number of levels. -/
def siblings : Nat → Nat → List (List Byte) → List (List Byte)
  | 0, _, _ => []
  | n + 1, i, l => l.getD (i ^^^ 1) [] :: siblings n (i / 2) (treeLevel l)

/-- PROOF_GET: the record, the 14 siblings, the root record up to its group roots (R373). -/
def execProofGet (f : Src) (s : State) : Res :=
  s.perform f.val 0x0802 (fun (s : State) t =>
    let tenant := s.actingTenant f.val (t.pay 4 2)
    let minute := t.pay 0 4
    let g := tenant / 128
    if extRoom f.val t < 6048 then reply s 6
    else
      s.tableFetch f.val t 7 [(s.recordAddr (128 * g) minute, 32768), (s.rootAddr minute, 0x2C00)] (reply · 7) (fun s data =>
        let rec' (i : Nat) : List Byte := bytesAt data (256 * i) 256
        let mine := rec' (tenant % 128)
        let root := data.drop 32768
        let leaves := (List.range 128).map (fun i => leafHash (rec' i))
        let groups := (List.range 128).map (fun i => bytesAt root (0x1400 + 48 * i) 48)
        if leNat (bytesAt mine 4 4) ≠ minute then reply s 7
        else s.respondExt f.val t (mine ++ (siblings 7 (tenant % 128) leaves ++ siblings 7 g groups).flatten ++ root.take 0x1400)))

/-- COUNTER_GET: a tenant's 64 counters in the current record, or in the previous one while its bank is not zeroed. -/
def execCounterGet (f : Src) (s : State) : Res :=
  s.perform f.val 0x0803 (fun (s : State) t =>
    let tenant := s.actingTenant f.val (t.pay 0 2)
    let v (i : Nat) : Nat :=
      if t.pay 2 1 = 0 then (s.sheafCounter s.sheaf.curBank tenant i).toNat
      else if s.sheaf.prev.isSome then (s.sheafCounter (!s.sheaf.curBank) tenant i).toNat else 0
    if 2 ≤ t.pay 2 1 then badAt s 2 else s.respondExt f.val t ((List.range 64).flatMap (fun i => leBytes 8 (v i))))

/-- RICK_GET: the slot of a flow and a minute, from the cache or from table memory (R45, R375). -/
def execRickGet (f : Src) (s : State) : Res :=
  s.perform f.val 0x0804 (fun (s : State) t =>
    let flow := t.pay 0 4
    let minute := t.pay 4 4
    let a := s.rickSlot flow minute
    let close (s : State) (b : List Byte) : Served :=
      if leNat (bytesAt b 0 4) = minute ∧ (f.val = 0 ∨ (s.func f.val).bound = some (leNat (bytesAt b 4 2))) then s.respond f.val t b else reply s 7
    if s.rf sheafWin 0x200 22 16 * 1048576 ≤ flow ∨ s.rf sheafWin 0x200 28 24 = 0 then reply s 7
    else match SMap.find s.sheaf.cache a with
      | some v => close s (slotBytes v)
      | none => s.tableFetch f.val t 4 [(a, 32)] (reply · 7) close)

/-- LEDGER_SET: the six registers that place the ledger, in an order in which each write is legal, if there is one. -/
def execLedgerSet (f : Src) (s : State) : Res :=
  s.perform f.val 0x0805 (fun (s : State) t =>
    let w (k off : Nat) : Nat × Nat × Word32 := (sheafWin, off, BitVec.ofNat 32 (t.pay (4 * k) 4))
    let a := s.setRegs [w 0 0x100, w 2 0x108, w 1 0x104, w 5 0x208, w 4 0x204, w 3 0x200]
    let b := s.setRegs [w 0 0x100, w 1 0x104, w 2 0x108, w 3 0x200, w 4 0x204, w 5 0x208]
    if a.1 then reply a.2 0 else if b.1 then reply b.2 0 else refusedAt s)

end Sys2Proof.Machine
end

