-- ==== Sys2Proof/Machine/Signals.lean ====
section
/-! DEFINITION. Pins: GPIO inputs, temperature, JTAG (19, R476; 21, R532 to R536). -/

namespace Sys2Proof.Machine

/-! ### GPIO (R532, R533) -/

/-- An input of the board replaced. -/
def State.setGpio (s : State) (n : Nat) (g : GpioSt) : State :=
  s.modBoard (fun b => { b with gpio := SMap.set (fun _ => GpioSt.zero) b.gpio n g })

/-- Whether an input is at the level that polarity selects; it reads inactive while VDD_IO is not good (R494, R532). -/
def State.gpioActive (s : State) (n : Nat) : Bool :=
  s.board.railsGood.getD 6 false && s.gpioAtLevel n

/-- Whether an input has held a level other than its filtered one for min_pulse_ns. -/
def State.gpioHeld (s : State) (n : Nat) : Bool :=
  decide (s.gpioActive n ≠ (s.gpio n).asserted) && decide ((s.gpio n).since + s.rf deviceWin (0xC00 + 16 * n) 15 0 ≤ s.time.cycles)

/-- An input fires at a moment: its event source asserts if it is enabled, and a gap begins. -/
def State.gpioFireAt (s : State) (n at0 : Nat) : State :=
  let gap := s.rf deviceWin (0xC04 + 16 * n) 23 0
  let s1 := s.setGpio n { s.gpio n with gapEnd := if gap = 0 then none else some (at0 + gap), coalesced := false }
  if s.rf deviceWin (0xC00 + 16 * n) 31 31 = 1 then s1.raise (832 + n) else s1

/-- An input fires now. -/
def State.gpioFire (s : State) (n : Nat) : State := s.gpioFireAt n s.time.cycles

/-- A gap that ended earlier than now has ended when it was due: what it coalesced fired then, and the new gap may have ended too. -/
def State.gpioOver (s : State) (n : Nat) : State :=
  match (s.gpio n).gapEnd with
  | none => s
  | some e =>
    if s.time.cycles ≤ e then s
    else
      let s1 := if (s.gpio n).coalesced then s.gpioFireAt n e else s.setGpio n { s.gpio n with gapEnd := none }
      s1.setGpio n { s1.gpio n with gapEnd := (s1.gpio n).gapEnd.filter (fun e => decide (s.time.cycles ≤ e)) }

/-- GPIO_INPUT_CHANGE: the filter time begins, where the input as it reads changes with the level (R494). -/
def execGpioInputChange (n : Fin 16) (level : Bool) (s : State) : Res :=
  let g := s.gpio n.val
  if g.level = level then .next s
  else .next ((s.setGpio n.val { g with level := level }).gpioTurned (fun k => decide (k = n.val)))

/-- GPIO_FILTER_ACCEPT: a level held long enough is accepted; an assertion fires, or is coalesced within a gap. -/
def execGpioFilterAccept (n : Fin 16) (s : State) : Res :=
  let k := n.val
  if !s.gpioHeld k then .next s
  else
    let s0 := s.gpioOver k
    let s1 := s0.setGpio k { s0.gpio k with asserted := s.gpioActive k }
    if !s.gpioActive k then .next s1
    else match (s0.gpio k).gapEnd with
      | some e =>
        if s.time.cycles < e then .next ((s1.setGpio k { s1.gpio k with coalesced := true }).count deviceWin (0xC08 + 16 * k))
        else .next (s1.gpioFire k)
      | none => .next (s1.gpioFire k)

/-- GPIO_GAP_END: a gap ends; what was coalesced in it fires once, together with an assertion accepted in the same cycle. -/
def execGpioGapEnd (n : Fin 16) (s : State) : Res :=
  let k := n.val
  let g := s.gpio k
  match g.gapEnd with
  | some e =>
    if s.time.cycles < e then .next s
    else if e < s.time.cycles then .next (s.gpioOver k)
    else if g.coalesced then
      let s1 := if s.gpioHeld k then s.setGpio k { g with asserted := s.gpioActive k } else s
      .next (s1.gpioFire k)
    else .next (s.setGpio k { g with gapEnd := none })
  | none => .next s

/-! ### Temperature (R534 to R536) -/

/-- Whether a thermal condition holds at a temperature: from its threshold on, until 5 °C below it (R535). -/
def thermalHolds (was : Bool) (t : Int) (threshold : Nat) : Bool :=
  if (1000 * threshold : Int) ≤ t then true else if t ≤ 1000 * (threshold : Int) - 5000 then false else was

/-- SENSOR_SAMPLE: the 32 sites are sampled: the thermal events, and the trip at two samples of 120 °C or more, which one that has cooled takes anew
(R534 to R536). -/
def execSensorSample (sites : List (BitVec 32)) (s : State) : Res :=
  let new := (List.range 32).map (fun i => sites.getD i (s.board.sites.getD i 0))
  let t := ({ s.board with sites := new }).hottest.toInt
  let hot := decide (120000 ≤ t)
  let warn := thermalHolds s.board.warn t (s.rf deviceWin 0xD10 15 8)
  let crit := thermalHolds s.board.crit t (s.rf deviceWin 0xD10 7 0)
  let trips := hot && s.board.hot
  let s1 := s.modBoard (fun b => { b with
    sites := new, hot := hot, warn := warn, crit := crit, cooled := b.cooled || (b.trip && decide (t < 100000)) })
  let s2 := (s1.settleLevel 865).settleLevel 866
  .next (if trips then s2.coreLost.modBoard (fun b => { b with trip := true, cooled := false }) else s2)

/-! ### JTAG (R476) -/


/-- JTAG_INSTRUCTION: through pins on VDD_IO. -/
def execJtagInstruction (ins : JtagIns) (s : State) : Res :=
  if s.board.railsGood.getD 6 false then .next (s.modBoard (fun b => { b with jtag := s.jtagTakes ins })) else .next s

end Sys2Proof.Machine
end

