-- ==== Sys2Proof/Machine/Dispatch.lean ====
section
/-! DEFINITION. What each command does: one arm per constructor of Instr, each one direct call of its meaning. -/

namespace Sys2Proof.Machine

/-- The effect of a command on everything but the queue. -/
def exec (i : Instr) (s : State) : Host.Outcome State Fault Refusal :=
  match i with
  | .ucbNop w => Sys2Proof.Machine.execUcbNop w s
  | .ucbStart w => Sys2Proof.Machine.execUcbStart w s
  | .ucbDrain w => Sys2Proof.Machine.execUcbDrain w s
  | .ucbStop w => Sys2Proof.Machine.execUcbStop w s
  | .ucbReset w => Sys2Proof.Machine.execUcbReset w s
  | .ucbUpdate w => Sys2Proof.Machine.execUcbUpdate w s
  | .ucbResume w => Sys2Proof.Machine.execUcbResume w s
  | .ucbBindSpare w => Sys2Proof.Machine.execUcbBindSpare w s
  | .startingEnd w selfTest => Sys2Proof.Machine.execStartingEnd w selfTest s
  | .quiesceDone w => Sys2Proof.Machine.execQuiesceDone w s
  | .updateDone w => Sys2Proof.Machine.execUpdateDone w s
  | .drainTimeout w => Sys2Proof.Machine.execDrainTimeout w s
  | .hardwareFailure w => Sys2Proof.Machine.execHardwareFailure w s
  | .registerWrite reg val again => Sys2Proof.Machine.execRegisterWrite reg val again s
  | .reservedAccess w off size write => Sys2Proof.Machine.execReservedAccess w off size write s
  | .rcRead reg arriving => Sys2Proof.Machine.execRcRead reg arriving s
  | .parseBegin p => Sys2Proof.Machine.execParseBegin p s
  | .recordHandoff p => Sys2Proof.Machine.execRecordHandoff p s
  | .graphSwitch => Sys2Proof.Machine.execGraphSwitch s
  | .graphSwitchDone => Sys2Proof.Machine.execGraphSwitchDone s
  | .standbyLoadDone => Sys2Proof.Machine.execStandbyLoadDone s
  | .fragPendingTimeout p => Sys2Proof.Machine.execFragPendingTimeout p s
  | .fragAgeOut entry => Sys2Proof.Machine.execFragAgeOut entry s
  | .classifyBegin p => Sys2Proof.Machine.execClassifyBegin p s
  | .stageResult p => Sys2Proof.Machine.execStageResult p s
  | .windrowLaneOutput n => Sys2Proof.Machine.execWindrowLaneOutput n s
  | .excBucketRefill => Sys2Proof.Machine.execExcBucketRefill s
  | .windrowIndRead => Sys2Proof.Machine.execWindrowIndRead s
  | .windrowIndWrite => Sys2Proof.Machine.execWindrowIndWrite s
  | .lingRead x db index => Sys2Proof.Machine.execLingRead x db index s
  | .lingWrite x db index => Sys2Proof.Machine.execLingWrite x db index s
  | .lingInvalidate x db index => Sys2Proof.Machine.execLingInvalidate x db index s
  | .lingWriteAction x db index => Sys2Proof.Machine.execLingWriteAction x db index s
  | .lingSearch x db => Sys2Proof.Machine.execLingSearch x db s
  | .lingNextMatch x db index => Sys2Proof.Machine.execLingNextMatch x db index s
  | .lingMoveBlock x db index dir => Sys2Proof.Machine.execLingMoveBlock x db index dir s
  | .lingMoveStep db => Sys2Proof.Machine.execLingMoveStep db s
  | .lingSpareCopyStep => Sys2Proof.Machine.execLingSpareCopyStep s
  | .warrenLookup e table peek => Sys2Proof.Machine.execWarrenLookup e table peek s
  | .warrenInsert e table static => Sys2Proof.Machine.execWarrenInsert e table static s
  | .warrenUpdate e table static => Sys2Proof.Machine.execWarrenUpdate e table static s
  | .warrenDelete e table => Sys2Proof.Machine.execWarrenDelete e table s
  | .warrenReadIndex e table => Sys2Proof.Machine.execWarrenReadIndex e table s
  | .warrenWriteIndex e table static valid => Sys2Proof.Machine.execWarrenWriteIndex e table static valid s
  | .warrenCompareWrite e table => Sys2Proof.Machine.execWarrenCompareWrite e table s
  | .warrenCmdDone e => Sys2Proof.Machine.execWarrenCmdDone e s
  | .warrenThreadPost t => Sys2Proof.Machine.execWarrenThreadPost t s
  | .warrenThreadComplete t => Sys2Proof.Machine.execWarrenThreadComplete t s
  | .bucketOwnershipGrant => Sys2Proof.Machine.execBucketOwnershipGrant s
  | .displacementMove table => Sys2Proof.Machine.execDisplacementMove table s
  | .learnServe => Sys2Proof.Machine.execLearnServe s
  | .moveServe => Sys2Proof.Machine.execMoveServe s
  | .learnWaitExpiry p => Sys2Proof.Machine.execLearnWaitExpiry p s
  | .ageSweepVisit table => Sys2Proof.Machine.execAgeSweepVisit table s
  | .rootTaskCreate n => Sys2Proof.Machine.execRootTaskCreate n s
  | .intakeStallRetry n => Sys2Proof.Machine.execIntakeStallRetry n s
  | .heldTaskDispatch => Sys2Proof.Machine.execHeldTaskDispatch s
  | .quotaRelease tenant => Sys2Proof.Machine.execQuotaRelease tenant s
  | .kettleEmit t => Sys2Proof.Machine.execKettleEmit t s
  | .kettleDrop t => Sys2Proof.Machine.execKettleDrop t s
  | .kettleFork t => Sys2Proof.Machine.execKettleFork t s
  | .forkStatus t => Sys2Proof.Machine.execForkStatus t s
  | .releaseBegin od => Sys2Proof.Machine.execReleaseBegin od s
  | .releaseDeliver pos => Sys2Proof.Machine.execReleaseDeliver pos s
  | .headTimeout od => Sys2Proof.Machine.execHeadTimeout od s
  | .debugHeld od => Sys2Proof.Machine.execDebugHeld od s
  | .promptEventEntry t => Sys2Proof.Machine.execPromptEventEntry t s
  | .forcedBoundary t => Sys2Proof.Machine.execForcedBoundary t s
  | .timerFire t => Sys2Proof.Machine.execTimerFire t s
  | .wfeWake t => Sys2Proof.Machine.execWfeWake t s
  | .waittTimeout t => Sys2Proof.Machine.execWaittTimeout t s
  | .takeWake t => Sys2Proof.Machine.execTakeWake t s
  | .sevDelivery t => Sys2Proof.Machine.execSevDelivery t s
  | .faultRecord t => Sys2Proof.Machine.execFaultRecord t s
  | .autoRestart t => Sys2Proof.Machine.execAutoRestart t s
  | .quietDeadlock q => Sys2Proof.Machine.execQuietDeadlock q s
  | .deadlockEscalation q => Sys2Proof.Machine.execDeadlockEscalation q s
  | .threadRestart q n => Sys2Proof.Machine.execThreadRestart q n s
  | .clearRecord q n => Sys2Proof.Machine.execClearRecord q n s
  | .dbgHalt t => Sys2Proof.Machine.execDbgHalt t s
  | .debugHaltEntry t => Sys2Proof.Machine.execDebugHaltEntry t s
  | .dbgResume t => Sys2Proof.Machine.execDbgResume t s
  | .dbgStep t => Sys2Proof.Machine.execDbgStep t s
  | .resetThread t => Sys2Proof.Machine.execResetThread t s
  | .asyncCompletion t sp => Sys2Proof.Machine.execAsyncCompletion t sp s
  | .add t gd gs gt => Sys2Proof.Machine.execAdd t gd gs gt s
  | .sub t gd gs gt => Sys2Proof.Machine.execSub t gd gs gt s
  | .neg t gd gs => Sys2Proof.Machine.execNeg t gd gs s
  | .abs t gd gs => Sys2Proof.Machine.execAbs t gd gs s
  | .and t gd gs gt => Sys2Proof.Machine.execAnd t gd gs gt s
  | .or t gd gs gt => Sys2Proof.Machine.execOr t gd gs gt s
  | .xor t gd gs gt => Sys2Proof.Machine.execXor t gd gs gt s
  | .nor t gd gs gt => Sys2Proof.Machine.execNor t gd gs gt s
  | .andn t gd gs gt => Sys2Proof.Machine.execAndn t gd gs gt s
  | .orn t gd gs gt => Sys2Proof.Machine.execOrn t gd gs gt s
  | .xnor t gd gs gt => Sys2Proof.Machine.execXnor t gd gs gt s
  | .cmovz t gd gs gt => Sys2Proof.Machine.execCmovz t gd gs gt s
  | .cmovn t gd gs gt => Sys2Proof.Machine.execCmovn t gd gs gt s
  | .slt t gd gs gt => Sys2Proof.Machine.execSlt t gd gs gt s
  | .sltu t gd gs gt => Sys2Proof.Machine.execSltu t gd gs gt s
  | .seq t gd gs gt => Sys2Proof.Machine.execSeq t gd gs gt s
  | .sne t gd gs gt => Sys2Proof.Machine.execSne t gd gs gt s
  | .min t gd gs gt => Sys2Proof.Machine.execMin t gd gs gt s
  | .max t gd gs gt => Sys2Proof.Machine.execMax t gd gs gt s
  | .minu t gd gs gt => Sys2Proof.Machine.execMinu t gd gs gt s
  | .maxu t gd gs gt => Sys2Proof.Machine.execMaxu t gd gs gt s
  | .sll t gd gs gt => Sys2Proof.Machine.execSll t gd gs gt s
  | .srl t gd gs gt => Sys2Proof.Machine.execSrl t gd gs gt s
  | .sra t gd gs gt => Sys2Proof.Machine.execSra t gd gs gt s
  | .rol t gd gs gt => Sys2Proof.Machine.execRol t gd gs gt s
  | .ror t gd gs gt => Sys2Proof.Machine.execRor t gd gs gt s
  | .mul t gd gs gt => Sys2Proof.Machine.execMul t gd gs gt s
  | .mulh t gd gs gt => Sys2Proof.Machine.execMulh t gd gs gt s
  | .mulhu t gd gs gt => Sys2Proof.Machine.execMulhu t gd gs gt s
  | .mulhsu t gd gs gt => Sys2Proof.Machine.execMulhsu t gd gs gt s
  | .div t gd gs gt => Sys2Proof.Machine.execDiv t gd gs gt s
  | .divu t gd gs gt => Sys2Proof.Machine.execDivu t gd gs gt s
  | .rem t gd gs gt => Sys2Proof.Machine.execRem t gd gs gt s
  | .remu t gd gs gt => Sys2Proof.Machine.execRemu t gd gs gt s
  | .clz t gd gs => Sys2Proof.Machine.execClz t gd gs s
  | .ctz t gd gs => Sys2Proof.Machine.execCtz t gd gs s
  | .popc t gd gs => Sys2Proof.Machine.execPopc t gd gs s
  | .rev t gd gs => Sys2Proof.Machine.execRev t gd gs s
  | .rev4 t gd gs => Sys2Proof.Machine.execRev4 t gd gs s
  | .rev2 t gd gs => Sys2Proof.Machine.execRev2 t gd gs s
  | .addw t gd gs gt => Sys2Proof.Machine.execAddw t gd gs gt s
  | .subw t gd gs gt => Sys2Proof.Machine.execSubw t gd gs gt s
  | .negw t gd gs => Sys2Proof.Machine.execNegw t gd gs s
  | .absw t gd gs => Sys2Proof.Machine.execAbsw t gd gs s
  | .sllw t gd gs gt => Sys2Proof.Machine.execSllw t gd gs gt s
  | .srlw t gd gs gt => Sys2Proof.Machine.execSrlw t gd gs gt s
  | .sraw t gd gs gt => Sys2Proof.Machine.execSraw t gd gs gt s
  | .rolw t gd gs gt => Sys2Proof.Machine.execRolw t gd gs gt s
  | .rorw t gd gs gt => Sys2Proof.Machine.execRorw t gd gs gt s
  | .mulw t gd gs gt => Sys2Proof.Machine.execMulw t gd gs gt s
  | .divw t gd gs gt => Sys2Proof.Machine.execDivw t gd gs gt s
  | .divuw t gd gs gt => Sys2Proof.Machine.execDivuw t gd gs gt s
  | .remw t gd gs gt => Sys2Proof.Machine.execRemw t gd gs gt s
  | .remuw t gd gs gt => Sys2Proof.Machine.execRemuw t gd gs gt s
  | .addi t gd gs imm => Sys2Proof.Machine.execAddi t gd gs imm s
  | .addiw t gd gs imm => Sys2Proof.Machine.execAddiw t gd gs imm s
  | .andi t gd gs imm => Sys2Proof.Machine.execAndi t gd gs imm s
  | .ori t gd gs imm => Sys2Proof.Machine.execOri t gd gs imm s
  | .xori t gd gs imm => Sys2Proof.Machine.execXori t gd gs imm s
  | .slti t gd gs imm => Sys2Proof.Machine.execSlti t gd gs imm s
  | .sltiu t gd gs imm => Sys2Proof.Machine.execSltiu t gd gs imm s
  | .seqi t gd gs imm => Sys2Proof.Machine.execSeqi t gd gs imm s
  | .slli t gd gs cnt => Sys2Proof.Machine.execSlli t gd gs cnt s
  | .srli t gd gs cnt => Sys2Proof.Machine.execSrli t gd gs cnt s
  | .srai t gd gs cnt => Sys2Proof.Machine.execSrai t gd gs cnt s
  | .rori t gd gs cnt => Sys2Proof.Machine.execRori t gd gs cnt s
  | .slliw t gd gs cnt => Sys2Proof.Machine.execSlliw t gd gs cnt s
  | .srliw t gd gs cnt => Sys2Proof.Machine.execSrliw t gd gs cnt s
  | .sraiw t gd gs cnt => Sys2Proof.Machine.execSraiw t gd gs cnt s
  | .roriw t gd gs cnt => Sys2Proof.Machine.execRoriw t gd gs cnt s
  | .movz t gd imm hw => Sys2Proof.Machine.execMovz t gd imm hw s
  | .movk t gd imm hw => Sys2Proof.Machine.execMovk t gd imm hw s
  | .movn t gd imm hw => Sys2Proof.Machine.execMovn t gd imm hw s
  | .extu t gd gs pos lenm1 => Sys2Proof.Machine.execExtu t gd gs pos lenm1 s
  | .exts t gd gs pos lenm1 => Sys2Proof.Machine.execExts t gd gs pos lenm1 s
  | .ins t gd gs pos lenm1 => Sys2Proof.Machine.execIns t gd gs pos lenm1 s
  | .beq t gs gt a off => Sys2Proof.Machine.execBeq t gs gt a off s
  | .bne t gs gt a off => Sys2Proof.Machine.execBne t gs gt a off s
  | .blt t gs gt a off => Sys2Proof.Machine.execBlt t gs gt a off s
  | .bge t gs gt a off => Sys2Proof.Machine.execBge t gs gt a off s
  | .bltu t gs gt a off => Sys2Proof.Machine.execBltu t gs gt a off s
  | .bgeu t gs gt a off => Sys2Proof.Machine.execBgeu t gs gt a off s
  | .bbc t gs bit a off => Sys2Proof.Machine.execBbc t gs bit a off s
  | .bbs t gs bit a off => Sys2Proof.Machine.execBbs t gs bit a off s
  | .j t off => Sys2Proof.Machine.execJ t off s
  | .jal t off => Sys2Proof.Machine.execJal t off s
  | .jr t gs => Sys2Proof.Machine.execJr t gs s
  | .jalr t gd gs => Sys2Proof.Machine.execJalr t gd gs s
  | .ldl t gd gs sz sx be off => Sys2Proof.Machine.execLdl t gd gs sz sx be off s
  | .stl t gt gs sz be off => Sys2Proof.Machine.execStl t gt gs sz be off s
  | .lda t gd gs ev sp sz off => Sys2Proof.Machine.execLda t gd gs ev sp sz off s
  | .sta t gt gs ev e sp sz off => Sys2Proof.Machine.execSta t gt gs ev e sp sz off s
  | .amoswap t gd gs gt ev sp wd => Sys2Proof.Machine.execAmoswap t gd gs gt ev sp wd s
  | .amoadd t gd gs gt ev sp wd => Sys2Proof.Machine.execAmoadd t gd gs gt ev sp wd s
  | .amoand t gd gs gt ev sp wd => Sys2Proof.Machine.execAmoand t gd gs gt ev sp wd s
  | .amoor t gd gs gt ev sp wd => Sys2Proof.Machine.execAmoor t gd gs gt ev sp wd s
  | .amoxor t gd gs gt ev sp wd => Sys2Proof.Machine.execAmoxor t gd gs gt ev sp wd s
  | .amomaxu t gd gs gt ev sp wd => Sys2Proof.Machine.execAmomaxu t gd gs gt ev sp wd s
  | .amominu t gd gs gt ev sp wd => Sys2Proof.Machine.execAmominu t gd gs gt ev sp wd s
  | .amocas t gd gs gt ev sp wd => Sys2Proof.Machine.execAmocas t gd gs gt ev sp wd s
  | .xld t gl gs ev sp lenm1 => Sys2Proof.Machine.execXld t gl gs ev sp lenm1 s
  | .xst t gl gs ev sp lenm1 => Sys2Proof.Machine.execXst t gl gs ev sp lenm1 s
  | .wfe t gd gm => Sys2Proof.Machine.execWfe t gd gm s
  | .waitt t gd gt gm => Sys2Proof.Machine.execWaitt t gd gt gm s
  | .sev t gt => Sys2Proof.Machine.execSev t gt s
  | .take t gd => Sys2Proof.Machine.execTake t gd s
  | .fence t => Sys2Proof.Machine.execFence t s
  | .eret t => Sys2Proof.Machine.execEret t s
  | .rdtime t gd => Sys2Proof.Machine.execRdtime t gd s
  | .mft t gd tcr => Sys2Proof.Machine.execMft t gd tcr s
  | .mtt t tcr gs => Sys2Proof.Machine.execMtt t tcr gs s
  | .chw t w gs => Sys2Proof.Machine.execChw t w gs s
  | .chpost t target => Sys2Proof.Machine.execChpost t target s
  | .bkpt t => Sys2Proof.Machine.execBkpt t s
  | .sacq t gd gs ev => Sys2Proof.Machine.execSacq t gd gs ev s
  | .stry t gd gs ev => Sys2Proof.Machine.execStry t gd gs ev s
  | .srel t gs => Sys2Proof.Machine.execSrel t gs s
  | .lockHandoff l => Sys2Proof.Machine.execLockHandoff l s
  | .cpop t cp fn cd cs ct => Sys2Proof.Machine.execCpop t cp fn cd cs ct s
  | .mtc t cp g cr part => Sys2Proof.Machine.execMtc t cp g cr part s
  | .mfc t g cp cr part => Sys2Proof.Machine.execMfc t g cp cr part s
  | .bcb t cp sense a off => Sys2Proof.Machine.execBcb t cp sense a off s
  | .cpopEnd t cp => Sys2Proof.Machine.execCpopEnd t cp s
  | .contextSwitch q => Sys2Proof.Machine.execContextSwitch q s
  | .contextPinExpiry q ctx => Sys2Proof.Machine.execContextPinExpiry q ctx s
  | .savePortBeat q cp we ctx beat data => Sys2Proof.Machine.execSavePortBeat q cp we ctx beat data s
  | .awlMov t cd cs ct => Sys2Proof.Machine.execAwlMov t cd cs ct s
  | .awlXor t cd cs ct => Sys2Proof.Machine.execAwlXor t cd cs ct s
  | .awlAnd t cd cs ct => Sys2Proof.Machine.execAwlAnd t cd cs ct s
  | .awlOr t cd cs ct => Sys2Proof.Machine.execAwlOr t cd cs ct s
  | .awlCsum t cd cs ct => Sys2Proof.Machine.execAwlCsum t cd cs ct s
  | .awlCrc32c t cd cs ct => Sys2Proof.Machine.execAwlCrc32c t cd cs ct s
  | .awlCrc32 t cd cs ct => Sys2Proof.Machine.execAwlCrc32 t cd cs ct s
  | .awlClmul t cd cs ct => Sys2Proof.Machine.execAwlClmul t cd cs ct s
  | .awlExt t cd cs ct => Sys2Proof.Machine.execAwlExt t cd cs ct s
  | .awlIns t cd cs ct => Sys2Proof.Machine.execAwlIns t cd cs ct s
  | .awlShuf t cd cs ct => Sys2Proof.Machine.execAwlShuf t cd cs ct s
  | .awlBswap t cd cs ct => Sys2Proof.Machine.execAwlBswap t cd cs ct s
  | .awlPopc t cd cs ct => Sys2Proof.Machine.execAwlPopc t cd cs ct s
  | .awlCmpeq8 t cd cs ct => Sys2Proof.Machine.execAwlCmpeq8 t cd cs ct s
  | .keysel t cd cs ct => Sys2Proof.Machine.execKeysel t cd cs ct s
  | .gcmInit t cd cs ct => Sys2Proof.Machine.execGcmInit t cd cs ct s
  | .gcmAad t cd cs ct => Sys2Proof.Machine.execGcmAad t cd cs ct s
  | .gcmEnc t cd cs ct => Sys2Proof.Machine.execGcmEnc t cd cs ct s
  | .gcmDec t cd cs ct => Sys2Proof.Machine.execGcmDec t cd cs ct s
  | .gcmTag t cd cs ct => Sys2Proof.Machine.execGcmTag t cd cs ct s
  | .gcmCheck t cd cs ct => Sys2Proof.Machine.execGcmCheck t cd cs ct s
  | .ccpInit t cd cs ct => Sys2Proof.Machine.execCcpInit t cd cs ct s
  | .ccpAad t cd cs ct => Sys2Proof.Machine.execCcpAad t cd cs ct s
  | .ccpEnc t cd cs ct => Sys2Proof.Machine.execCcpEnc t cd cs ct s
  | .ccpDec t cd cs ct => Sys2Proof.Machine.execCcpDec t cd cs ct s
  | .ccpTag t cd cs ct => Sys2Proof.Machine.execCcpTag t cd cs ct s
  | .ccpCheck t cd cs ct => Sys2Proof.Machine.execCcpCheck t cd cs ct s
  | .sha256Init t cd cs ct => Sys2Proof.Machine.execSha256Init t cd cs ct s
  | .sha256Block t cd cs ct => Sys2Proof.Machine.execSha256Block t cd cs ct s
  | .sha256Final t cd cs ct => Sys2Proof.Machine.execSha256Final t cd cs ct s
  | .sha512Init t cd cs ct => Sys2Proof.Machine.execSha512Init t cd cs ct s
  | .sha512Block t cd cs ct => Sys2Proof.Machine.execSha512Block t cd cs ct s
  | .sha512Final t cd cs ct => Sys2Proof.Machine.execSha512Final t cd cs ct s
  | .hmacInit t cd cs ct => Sys2Proof.Machine.execHmacInit t cd cs ct s
  | .claspStatus t cd cs ct => Sys2Proof.Machine.execClaspStatus t cd cs ct s
  | .customInstruction t fn gd gs gt => Sys2Proof.Machine.execCustomInstruction t fn gd gs gt s
  | .microAtomicity t => Sys2Proof.Machine.execMicroAtomicity t s
  | .fnv64K t k gd gs gt => Sys2Proof.Machine.execFnv64K t k gd gs gt s
  | .adds t gd gs gt => Sys2Proof.Machine.execAdds t gd gs gt s
  | .subs t gd gs gt => Sys2Proof.Machine.execSubs t gd gs gt s
  | .addsu t gd gs gt => Sys2Proof.Machine.execAddsu t gd gs gt s
  | .subsu t gd gs gt => Sys2Proof.Machine.execSubsu t gd gs gt s
  | .addsw t gd gs gt => Sys2Proof.Machine.execAddsw t gd gs gt s
  | .subsw t gd gs gt => Sys2Proof.Machine.execSubsw t gd gs gt s
  | .addsuw t gd gs gt => Sys2Proof.Machine.execAddsuw t gd gs gt s
  | .subsuw t gd gs gt => Sys2Proof.Machine.execSubsuw t gd gs gt s
  | .findb t gd gs gt => Sys2Proof.Machine.execFindb t gd gs gt s
  | .findnb t gd gs gt => Sys2Proof.Machine.execFindnb t gd gs gt s
  | .cntb t gd gs gt => Sys2Proof.Machine.execCntb t gd gs gt s
  | .minb t gd gs gt => Sys2Proof.Machine.execMinb t gd gs gt s
  | .maxb t gd gs gt => Sys2Proof.Machine.execMaxb t gd gs gt s
  | .addb t gd gs gt => Sys2Proof.Machine.execAddb t gd gs gt s
  | .subb t gd gs gt => Sys2Proof.Machine.execSubb t gd gs gt s
  | .sadb t gd gs gt => Sys2Proof.Machine.execSadb t gd gs gt s
  | .pdep t gd gs gt => Sys2Proof.Machine.execPdep t gd gs gt s
  | .pext t gd gs gt => Sys2Proof.Machine.execPext t gd gs gt s
  | .brev t gd gs gt => Sys2Proof.Machine.execBrev t gd gs gt s
  | .clmul t gd gs gt => Sys2Proof.Machine.execClmul t gd gs gt s
  | .clmulh t gd gs gt => Sys2Proof.Machine.execClmulh t gd gs gt s
  | .popcand t gd gs gt => Sys2Proof.Machine.execPopcand t gd gs gt s
  | .selb t gd gs gt => Sys2Proof.Machine.execSelb t gd gs gt s
  | .parity t gd gs gt => Sys2Proof.Machine.execParity t gd gs gt s
  | .lcsum t gd gs gt => Sys2Proof.Machine.execLcsum t gd gs gt s
  | .lcrc32c t gd gs gt => Sys2Proof.Machine.execLcrc32c t gd gs gt s
  | .lfill t gd gs gt => Sys2Proof.Machine.execLfill t gd gs gt s
  | .lcopy t gd gs gt => Sys2Proof.Machine.execLcopy t gd gs gt s
  | .lcmp t gd gs gt => Sys2Proof.Machine.execLcmp t gd gs gt s
  | .lfind t gd gs gt => Sys2Proof.Machine.execLfind t gd gs gt s
  | .lswap16 t gd gs gt => Sys2Proof.Machine.execLswap16 t gd gs gt s
  | .lswap32 t gd gs gt => Sys2Proof.Machine.execLswap32 t gd gs gt s
  | .csumadj t gd gs gt => Sys2Proof.Machine.execCsumadj t gd gs gt s
  | .csumadj32 t gd gs gt => Sys2Proof.Machine.execCsumadj32 t gd gs gt s
  | .ipv4csum t gd gs gt => Sys2Proof.Machine.execIpv4csum t gd gs gt s
  | .machash t gd gs gt => Sys2Proof.Machine.execMachash t gd gs gt s
  | .prefixeq t gd gs gt => Sys2Proof.Machine.execPrefixeq t gd gs gt s
  | .masklen t gd gs gt => Sys2Proof.Machine.execMasklen t gd gs gt s
  | .eui64 t gd gs gt => Sys2Proof.Machine.execEui64 t gd gs gt s
  | .subsat0 t gd gs gt => Sys2Proof.Machine.execSubsat0 t gd gs gt s
  | .stileForce l => Sys2Proof.Machine.execStileForce l s
  | .hostStileAcquire f l => Sys2Proof.Machine.execHostStileAcquire f l s
  | .hostStileTry f l => Sys2Proof.Machine.execHostStileTry f l s
  | .hostStileRelease f l => Sys2Proof.Machine.execHostStileRelease f l s
  | .hostStileCplRead f => Sys2Proof.Machine.execHostStileCplRead f s
  | .quireWinRead q => Sys2Proof.Machine.execQuireWinRead q s
  | .quireWinWrite q => Sys2Proof.Machine.execQuireWinWrite q s
  | .firstCellAdmission n => Sys2Proof.Machine.execFirstCellAdmission n s
  | .cellAllocation p => Sys2Proof.Machine.execCellAllocation p s
  | .rxWaitRelease n => Sys2Proof.Machine.execRxWaitRelease n s
  | .poolReady pool => Sys2Proof.Machine.execPoolReady pool s
  | .refIncrement h => Sys2Proof.Machine.execRefIncrement h s
  | .refDecrement h => Sys2Proof.Machine.execRefDecrement h s
  | .droverTakeOutput => Sys2Proof.Machine.execDroverTakeOutput s
  | .droverSelect n => Sys2Proof.Machine.execDroverSelect n s
  | .shaperRefill level index => Sys2Proof.Machine.execShaperRefill level index s
  | .pfcResend p => Sys2Proof.Machine.execPfcResend p s
  | .macControlFrame p frame => Sys2Proof.Machine.execMacControlFrame p frame s
  | .pauseExpiry p q => Sys2Proof.Machine.execPauseExpiry p q s
  | .pauseStorm p q => Sys2Proof.Machine.execPauseStorm p q s
  | .droverFlush queue => Sys2Proof.Machine.execDroverFlush queue s
  | .droverIndRead => Sys2Proof.Machine.execDroverIndRead s
  | .droverIndWrite => Sys2Proof.Machine.execDroverIndWrite s
  | .droverIndReadClear => Sys2Proof.Machine.execDroverIndReadClear s
  | .linkChange p up => Sys2Proof.Machine.execLinkChange p up s
  | .rxWindowDelivery p wire whole fcsOk sfd => Sys2Proof.Machine.execRxWindowDelivery p wire whole fcsOk sfd s
  | .rxBytesDelivery p wire => Sys2Proof.Machine.execRxBytesDelivery p wire s
  | .rxFrameEnd p fcsOk cut => Sys2Proof.Machine.execRxFrameEnd p fcsOk cut s
  | .macTransmit p => Sys2Proof.Machine.execMacTransmit p s
  | .portRecalGo p => Sys2Proof.Machine.execPortRecalGo p s
  | .recalDone p signal => Sys2Proof.Machine.execRecalDone p signal s
  | .finisherTakeOutput n => Sys2Proof.Machine.execFinisherTakeOutput n s
  | .cellReadComplete o => Sys2Proof.Machine.execCellReadComplete o s
  | .editEnd o => Sys2Proof.Machine.execEditEnd o s
  | .editDelete o => Sys2Proof.Machine.execEditDelete o s
  | .editInsert o => Sys2Proof.Machine.execEditInsert o s
  | .editReplace o => Sys2Proof.Machine.execEditReplace o s
  | .editCsumDiff o => Sys2Proof.Machine.execEditCsumDiff o s
  | .editIpv4Csum o => Sys2Proof.Machine.execEditIpv4Csum o s
  | .editTstamp o => Sys2Proof.Machine.execEditTstamp o s
  | .editTruncate o => Sys2Proof.Machine.execEditTruncate o s
  | .editRecirc o => Sys2Proof.Machine.execEditRecirc o s
  | .internalPortOutput n => Sys2Proof.Machine.execInternalPortOutput n s
  | .sheafReport => Sys2Proof.Machine.execSheafReport s
  | .minuteBoundary => Sys2Proof.Machine.execMinuteBoundary s
  | .recordFreeze => Sys2Proof.Machine.execRecordFreeze s
  | .closeComplete => Sys2Proof.Machine.execCloseComplete s
  | .rickUpdate => Sys2Proof.Machine.execRickUpdate s
  | .rickWriteBack slot => Sys2Proof.Machine.execRickWriteBack slot s
  | .memoryRequest src => Sys2Proof.Machine.execMemoryRequest src s
  | .commandSlot ch => Sys2Proof.Machine.execCommandSlot ch s
  | .refreshTick ch => Sys2Proof.Machine.execRefreshTick ch s
  | .generatorReseed w => Sys2Proof.Machine.execGeneratorReseed w s
  | .idleTimerExpiry ch bank => Sys2Proof.Machine.execIdleTimerExpiry ch bank s
  | .panicEntry k => Sys2Proof.Machine.execPanicEntry k s
  | .panicExit k => Sys2Proof.Machine.execPanicExit k s
  | .selfRefreshEntry w => Sys2Proof.Machine.execSelfRefreshEntry w s
  | .selfRefreshExit w => Sys2Proof.Machine.execSelfRefreshExit w s
  | .chRetrain w => Sys2Proof.Machine.execChRetrain w s
  | .retrainDone w ok => Sys2Proof.Machine.execRetrainDone w ok s
  | .scrubStep target w inst addr => Sys2Proof.Machine.execScrubStep target w inst addr s
  | .lapOverdue target => Sys2Proof.Machine.execLapOverdue target s
  | .overlayArm w inst => Sys2Proof.Machine.execOverlayArm w inst s
  | .logClear w inst entry => Sys2Proof.Machine.execLogClear w inst entry s
  | .hardQueuePop => Sys2Proof.Machine.execHardQueuePop s
  | .roundRefill => Sys2Proof.Machine.execRoundRefill s
  | .mbDoorbell f tail => Sys2Proof.Machine.execMbDoorbell f tail s
  | .mbRspHeadWrite f head => Sys2Proof.Machine.execMbRspHeadWrite f head s
  | .mbRingEnable f => Sys2Proof.Machine.execMbRingEnable f s
  | .mbEntryFetch f pcieErr => Sys2Proof.Machine.execMbEntryFetch f pcieErr s
  | .getInfo f => Sys2Proof.Machine.execGetInfo f s
  | .getState f => Sys2Proof.Machine.execGetState f s
  | .qpCreate f => Sys2Proof.Machine.execQpCreate f s
  | .qpDestroy f => Sys2Proof.Machine.execQpDestroy f s
  | .qpAssign f => Sys2Proof.Machine.execQpAssign f s
  | .dmaWindowSet f => Sys2Proof.Machine.execDmaWindowSet f s
  | .funcBind f => Sys2Proof.Machine.execFuncBind f s
  | .creditSet f => Sys2Proof.Machine.execCreditSet f s
  | .bmcBufRead f => Sys2Proof.Machine.execBmcBufRead f s
  | .ucbCommand f => Sys2Proof.Machine.execUcbCommand f s
  | .ucbRead f => Sys2Proof.Machine.execUcbRead f s
  | .regRead f => Sys2Proof.Machine.execRegRead f s
  | .regWrite f => Sys2Proof.Machine.execRegWrite f s
  | .mbBindSpare f => Sys2Proof.Machine.execMbBindSpare f s
  | .portSet f => Sys2Proof.Machine.execPortSet f s
  | .portGet f => Sys2Proof.Machine.execPortGet f s
  | .mbPortRecal f => Sys2Proof.Machine.execMbPortRecal f s
  | .portTest f => Sys2Proof.Machine.execPortTest f s
  | .macsecSet f => Sys2Proof.Machine.execMacsecSet f s
  | .imageStage f => Sys2Proof.Machine.execImageStage f s
  | .imageRelease f => Sys2Proof.Machine.execImageRelease f s
  | .imageList f => Sys2Proof.Machine.execImageList f s
  | .sheetRoll f => Sys2Proof.Machine.execSheetRoll f s
  | .graphLoad f => Sys2Proof.Machine.execGraphLoad f s
  | .classWrite f => Sys2Proof.Machine.execClassWrite f s
  | .lingCommand f => Sys2Proof.Machine.execLingCommand f s
  | .blockAssign f => Sys2Proof.Machine.execBlockAssign f s
  | .warrenCommand f => Sys2Proof.Machine.execWarrenCommand f s
  | .tableSet f => Sys2Proof.Machine.execTableSet f s
  | .warrenSet f => Sys2Proof.Machine.execWarrenSet f s
  | .nodeSet f => Sys2Proof.Machine.execNodeSet f s
  | .nodeGet f => Sys2Proof.Machine.execNodeGet f s
  | .policerSet f => Sys2Proof.Machine.execPolicerSet f s
  | .queueStats f => Sys2Proof.Machine.execQueueStats f s
  | .queueFlush f => Sys2Proof.Machine.execQueueFlush f s
  | .pfcSet f => Sys2Proof.Machine.execPfcSet f s
  | .recordGet f => Sys2Proof.Machine.execRecordGet f s
  | .proofGet f => Sys2Proof.Machine.execProofGet f s
  | .counterGet f => Sys2Proof.Machine.execCounterGet f s
  | .rickGet f => Sys2Proof.Machine.execRickGet f s
  | .ledgerSet f => Sys2Proof.Machine.execLedgerSet f s
  | .wrapKeys f => Sys2Proof.Machine.execWrapKeys f s
  | .keyInstall f => Sys2Proof.Machine.execKeyInstall f s
  | .keyRevoke f => Sys2Proof.Machine.execKeyRevoke f s
  | .keyList f => Sys2Proof.Machine.execKeyList f s
  | .attest f => Sys2Proof.Machine.execAttest f s
  | .ownerEnrol f => Sys2Proof.Machine.execOwnerEnrol f s
  | .debugEnable f => Sys2Proof.Machine.execDebugEnable f s
  | .securityGet f => Sys2Proof.Machine.execSecurityGet f s
  | .sensorRead f => Sys2Proof.Machine.execSensorRead f s
  | .eccLogGet f => Sys2Proof.Machine.execEccLogGet f s
  | .repairRecord f => Sys2Proof.Machine.execRepairRecord f s
  | .channelRetrain f => Sys2Proof.Machine.execChannelRetrain f s
  | .eventRoute f => Sys2Proof.Machine.execEventRoute f s
  | .eventRaise f => Sys2Proof.Machine.execEventRaise f s
  | .eventGet f => Sys2Proof.Machine.execEventGet f s
  | .timeGet f => Sys2Proof.Machine.execTimeGet f s
  | .timeAdjust f => Sys2Proof.Machine.execTimeAdjust f s
  | .timeSource f => Sys2Proof.Machine.execTimeSource f s
  | .functionLevelReset f => Sys2Proof.Machine.execFunctionLevelReset f s
  | .pciePerst => Sys2Proof.Machine.execPciePerst s
  | .qpDoorbell q tail => Sys2Proof.Machine.execQpDoorbell q tail s
  | .qpCqHeadWrite q head => Sys2Proof.Machine.execQpCqHeadWrite q head s
  | .dmaTx q => Sys2Proof.Machine.execDmaTx q s
  | .dmaRxBuf q => Sys2Proof.Machine.execDmaRxBuf q s
  | .dmaMemRead q pcieErr => Sys2Proof.Machine.execDmaMemRead q pcieErr s
  | .dmaMemWrite q pcieErr => Sys2Proof.Machine.execDmaMemWrite q pcieErr s
  | .descriptorComplete q => Sys2Proof.Machine.execDescriptorComplete q s
  | .port32Output => Sys2Proof.Machine.execPort32Output s
  | .rxStallTimeout q => Sys2Proof.Machine.execRxStallTimeout q s
  | .supMemRead t => Sys2Proof.Machine.execSupMemRead t s
  | .supMemWrite t => Sys2Proof.Machine.execSupMemWrite t s
  | .bar2Read f off => Sys2Proof.Machine.execBar2Read f off s
  | .spineRestart => Sys2Proof.Machine.execSpineRestart s
  | .bmcCommand bytes => Sys2Proof.Machine.execBmcCommand bytes s
  | .eventAssert src => Sys2Proof.Machine.execEventAssert src s
  | .coalesceGapEnd src => Sys2Proof.Machine.execCoalesceGapEnd src s
  | .eventStuck src => Sys2Proof.Machine.execEventStuck src s
  | .evtStatusClear viewer k bits => Sys2Proof.Machine.execEvtStatusClear viewer k bits s
  | .evtMaskWrite viewer k bits => Sys2Proof.Machine.execEvtMaskWrite viewer k bits s
  | .timeStepGo => Sys2Proof.Machine.execTimeStepGo s
  | .ppsEdge => Sys2Proof.Machine.execPpsEdge s
  | .refLost => Sys2Proof.Machine.execRefLost s
  | .ppsLost => Sys2Proof.Machine.execPpsLost s
  | .ppsOut => Sys2Proof.Machine.execPpsOut s
  | .boot flashA flashB selfTest => Sys2Proof.Machine.execBoot flashA flashB selfTest s
  | .tamper => Sys2Proof.Machine.execTamper s
  | .challengeExpiry => Sys2Proof.Machine.execChallengeExpiry s
  | .railGood r => Sys2Proof.Machine.execRailGood r s
  | .railLost r => Sys2Proof.Machine.execRailLost r s
  | .sysReset => Sys2Proof.Machine.execSysReset s
  | .fallowPortStart => Sys2Proof.Machine.execFallowPortStart s
  | .fallowFrame p frame => Sys2Proof.Machine.execFallowFrame p frame s
  | .fallowAge key => Sys2Proof.Machine.execFallowAge key s
  | .fallowHandover => Sys2Proof.Machine.execFallowHandover s
  | .fallowPortSwitch p => Sys2Proof.Machine.execFallowPortSwitch p s
  | .fallowStop => Sys2Proof.Machine.execFallowStop s
  | .spineUpTimeout => Sys2Proof.Machine.execSpineUpTimeout s
  | .sensorSample sites => Sys2Proof.Machine.execSensorSample sites s
  | .gpioInputChange n level => Sys2Proof.Machine.execGpioInputChange n level s
  | .gpioFilterAccept n => Sys2Proof.Machine.execGpioFilterAccept n s
  | .gpioGapEnd n => Sys2Proof.Machine.execGpioGapEnd n s
  | .refLock freq => Sys2Proof.Machine.execRefLock freq s
  | .slewEnd => Sys2Proof.Machine.execSlewEnd s
  | .pcieLinkChange up => Sys2Proof.Machine.execPcieLinkChange up s
  | .jtagInstruction ins => Sys2Proof.Machine.execJtagInstruction ins s
  | .supDmaComplete t => Sys2Proof.Machine.execSupDmaComplete t s
  | .msixUnmask f vector whole => Sys2Proof.Machine.execMsixUnmask f vector whole s
  | .captureRead sheaf => Sys2Proof.Machine.execCaptureRead sheaf s
  | .prbsLockChange p lane lock => Sys2Proof.Machine.execPrbsLockChange p lane lock s

end Sys2Proof.Machine
end

