-- ==== Sys2Proof/Safety.lean ====
section
/-! DEFINITION. The terms that the statements use: a command that completes, a thread that issues an instruction word, what an
instruction leaves of its thread and of the rest of the block, and the words and results of the instruction tables as the
spec's tables write them (08_leaf_instruction_set.md, 09_coprocessors_and_tooling.md). -/

namespace Sys2Proof.Safety

open Sys2Proof.Machine

/-- A command completes: `exec` answers a next state. -/
def Completes (i : Instr) (s : State) : Prop := ∃ t, exec i s = .next t

/-- A command completes, and the state it leaves holds `P`. -/
def Leaves (i : Instr) (s : State) (P : State → Prop) : Prop := ∃ u, exec i s = .next u ∧ P u

/-- A step goes on. -/
def Goes (s : State) : Prop := ∃ t, step s = .next t

/-! ### Issue of an instruction (07, 08) -/

/-- Thread `t` as its next instruction finds it: every result that the instruction sees has landed (R225), and a stall before it is over. -/
def ready (s : State) (t : Nat) : Thread := { (s.thread t).landed with stalled := false }

/-- Thread `t` comes to the instruction word `w` in its slot, and nothing that comes before the word is looked at stops it: it
makes its way (R173, R187), its address holds `w`, its task's budget is not spent (R168), its slot is not annulled (R229), and
no codeword of the word is in error (R253, R405). -/
def Fetches (s : State) (t : Nat) (w : Word32) : Prop :=
  s.canIssue t = true ∧ s.fetch t (ready s t).pc = w ∧
  (∀ k x, s.heldTask t = some (k, x) → x.slots < x.budget) ∧
  ((ready s t).inDelay = true → (ready s t).annul = false) ∧
  (s.errsIn (quireWin (tidQuire t)) 1 (ready s t).pc 4).filter EccErr.shows = []

/-- Thread `t` issues the instruction word `w`: it comes to it, and the word may stand where it stands (R232). -/
def Issues (s : State) (t : Nat) (w : Word32) : Prop :=
  Fetches s t w ∧ ((ready s t).inDelay = true → noDelaySlot w = false)

/-- Where control goes after an instruction that is no branch: on by 4, or after a delay slot where the branch sent it
(R212, R229). -/
def nextPc (th : Thread) : Nat := (if th.inDelay then th.after.getD (th.pc + 4) else th.pc + 4) % 0x80000

/-- Of the block, an instruction of thread `t` that touches its own thread only leaves everything as it was but: its thread; the
slots of its task (R174), which rise by one; and the episode of quiet deadlock of its Quire (R203). -/
def OnlyThread (s u : State) (t : Nat) : Prop :=
  u = { s with threads := u.threads, kettle := { s.kettle with tasks := u.kettle.tasks }, quires := u.quires } ∧
  (∀ x, x ≠ t → u.thread x = s.thread x) ∧
  (∀ k x, s.heldTask t = some (k, x) → u.task k = some { x with slots := x.slots + 1 }) ∧
  (∀ k, (s.thread t).task ≠ some k → u.task k = s.task k) ∧
  (∀ q, u.quire q = { s.quire q with episode := (u.quire q).episode })

/-- The record of a thread after an instruction that made it `th` and then moved control: everything of `th` is there, the
instruction has been counted, and beside the place of control only the marks of R188, R201, R208 and R166 (since when it waits,
is quiet or is halted, and the halt that ends a STEP and meets a HALT requested meanwhile, with THR_ESTAT's word on it) may differ. -/
def ThreadIs (x th : Thread) (pc : Nat) (inDelay : Bool) (after : Option Nat) (annul : Bool) : Prop :=
  x = { th with pc := pc, inDelay := inDelay, after := after, annul := annul, issued := th.issued + 1, step := x.step,
                halted := x.halted, haltReq := x.haltReq, haltForced := x.haltForced, forced := x.forced, reqSince := x.reqSince, quietSince := x.quietSince,
                haltedSince := x.haltedSince } ∧
  (th.step = false → x.step = false ∧ x.halted = th.halted ∧ x.haltReq = th.haltReq ∧ x.haltForced = th.haltForced ∧ x.forced = th.forced)

/-- An instruction that is no branch made its thread `th`, and touched nothing else. -/
def Retires (s u : State) (t : Nat) (th : Thread) : Prop :=
  OnlyThread s u t ∧ ThreadIs (u.thread t) th (nextPc (ready s t)) false none false

/-- A branch or jump made its thread `th`: its delay slot comes next, and after it the target, where it is taken (R229). -/
def Branches (s u : State) (t : Nat) (th : Thread) (target : Nat) (taken annul : Bool) : Prop :=
  OnlyThread s u t ∧
  ThreadIs (u.thread t) th ((((ready s t).pc) + 4) % 0x80000) true (if taken then some target else none) (annul && !taken)

/-- An instruction that holds its thread at its own address made it `th`, whose wait begins; a thread let go by STEP halts once the wait has ended
(R173, R208). -/
def Holds (s u : State) (t : Nat) (th : Thread) : Prop :=
  OnlyThread s u t ∧ (u.thread t).regs = th.regs ∧ (u.thread t).pend = th.pend ∧ (u.thread t).flags = th.flags ∧
  (u.thread t).events = th.events ∧ (u.thread t).timer = th.timer ∧ (u.thread t).tctl = th.tctl ∧ (u.thread t).pc = (ready s t).pc ∧
  (u.thread t).issued = (ready s t).issued + 1 ∧ (u.thread t).wait = th.wait ∧ (u.thread t).halted = th.halted

/-- A thread with the result of its next instruction on its way: to register `gd` with value `v`, seen by the instructions
`d` and more after it (R224, R225); g0 takes none (R211); and V or DZ set at the same distance. -/
def withResult (th : Thread) (gd d : Nat) (v : Word64) (vf dz : Bool) : Thread :=
  { th with pend := th.pend ++ (if gd = 0 then [] else [⟨th.issued, th.issued + d, gd, v⟩])
      ++ (if vf || dz then [⟨th.issued, th.issued + d, 64, (if vf then 1 else 0) + (if dz then 2 else 0)⟩] else []) }

/-- A thread stopped by a synchronous fault of its instruction (R195): the fault is recorded with its kind, the instruction's
word and address and the detail, and no instruction is counted. -/
def Faults (s u : State) (t kind : Nat) (w : Word32) (detail : Nat) : Prop :=
  (∀ x, x ≠ t → u.thread x = s.thread x) ∧
  (u.thread t).issued = (ready s t).issued ∧ (u.thread t).pc = (ready s t).pc ∧
  ∃ f, (u.thread t).fault = some f ∧ f.kind = kind ∧ f.async = false ∧ f.insn = w ∧ f.pc = (ready s t).pc ∧
    f.detail = BitVec.ofNat 64 detail ∧ f.time = s.time.ns ∧ f.recorded = false

/-- The registers, flags and local memory of a faulting thread are those its earlier instructions give, and nothing of the
faulting one (R195). -/
def NoEffect (s u : State) (t : Nat) : Prop :=
  (u.thread t).regs = (ready s t).landAll.regs ∧ (u.thread t).flags = (ready s t).landAll.flags ∧ (u.thread t).mem = (ready s t).mem ∧
  (u.thread t).ops = (ready s t).ops

/-! ### The instruction tables (R233, R234) -/

/-- A row of the tables of R233 and R234 for given operand values: its thread, its word, the register it writes with its
distance (R224), its result, none where the table says gd is unchanged, and the flags it sets. -/
structure AluRow where
  t : Nat
  word : Word32
  gd : Nat
  dist : Nat
  val : Option Word64
  v : Bool
  dz : Bool

/-- The low half of a register, and a 32-bit result sign-extended (R235). -/
def lo (x : Word64) : Word32 := x.setWidth 32
def wide (x : Word32) : Word64 := x.signExtend 64

/-- Whether an exact signed result lies outside n bits (R235). -/
def outside (n : Nat) (x : Int) : Bool := decide (x < -(2 ^ (n - 1)) ∨ 2 ^ (n - 1) ≤ x)

/-- Shifts by a count of any size (R235): a count of the width or more leaves zeros, or the sign bit everywhere. -/
def shl {n : Nat} (x : BitVec n) (c : Nat) : BitVec n := if n ≤ c then 0 else x <<< c
def shr {n : Nat} (x : BitVec n) (c : Nat) : BitVec n := if n ≤ c then 0 else x >>> c
def sar {n : Nat} (x : BitVec n) (c : Nat) : BitVec n := if n ≤ c then (if x.msb then BitVec.allOnes n else 0) else x.sshiftRight c

/-- The SPECIAL functions (R233), in the order of their func values. -/
def specialRow (g : Nat → Word64) : Instr → Option AluRow
  | .add t d a b => some ⟨t.val, encR 0 d.val a.val b.val 0x000, d.val, 1, some (g a + g b), outside 64 ((g a).toInt + (g b).toInt), false⟩
  | .sub t d a b => some ⟨t.val, encR 0 d.val a.val b.val 0x001, d.val, 1, some (g a - g b), outside 64 ((g a).toInt - (g b).toInt), false⟩
  | .neg t d a => some ⟨t.val, encR 0 d.val a.val 0 0x002, d.val, 1, some (-(g a)), g a == 0x8000000000000000, false⟩
  | .abs t d a => some ⟨t.val, encR 0 d.val a.val 0 0x003, d.val, 1, some (if (g a).msb then -(g a) else g a), g a == 0x8000000000000000, false⟩
  | .and t d a b => some ⟨t.val, encR 0 d.val a.val b.val 0x004, d.val, 1, some (g a &&& g b), false, false⟩
  | .or t d a b => some ⟨t.val, encR 0 d.val a.val b.val 0x005, d.val, 1, some (g a ||| g b), false, false⟩
  | .xor t d a b => some ⟨t.val, encR 0 d.val a.val b.val 0x006, d.val, 1, some (g a ^^^ g b), false, false⟩
  | .nor t d a b => some ⟨t.val, encR 0 d.val a.val b.val 0x007, d.val, 1, some (~~~(g a ||| g b)), false, false⟩
  | .andn t d a b => some ⟨t.val, encR 0 d.val a.val b.val 0x008, d.val, 1, some (g a &&& ~~~(g b)), false, false⟩
  | .orn t d a b => some ⟨t.val, encR 0 d.val a.val b.val 0x009, d.val, 1, some (g a ||| ~~~(g b)), false, false⟩
  | .xnor t d a b => some ⟨t.val, encR 0 d.val a.val b.val 0x00A, d.val, 1, some (~~~(g a ^^^ g b)), false, false⟩
  | .cmovz t d a b => some ⟨t.val, encR 0 d.val a.val b.val 0x00B, d.val, 1, if g b = 0 then some (g a) else none, false, false⟩
  | .cmovn t d a b => some ⟨t.val, encR 0 d.val a.val b.val 0x00C, d.val, 1, if g b = 0 then none else some (g a), false, false⟩
  | .slt t d a b => some ⟨t.val, encR 0 d.val a.val b.val 0x00D, d.val, 1, some (if (g a).toInt < (g b).toInt then 1 else 0), false, false⟩
  | .sltu t d a b => some ⟨t.val, encR 0 d.val a.val b.val 0x00E, d.val, 1, some (if (g a).toNat < (g b).toNat then 1 else 0), false, false⟩
  | .seq t d a b => some ⟨t.val, encR 0 d.val a.val b.val 0x00F, d.val, 1, some (if g a = g b then 1 else 0), false, false⟩
  | .sne t d a b => some ⟨t.val, encR 0 d.val a.val b.val 0x010, d.val, 1, some (if g a = g b then 0 else 1), false, false⟩
  | .min t d a b => some ⟨t.val, encR 0 d.val a.val b.val 0x011, d.val, 1, some (if (g a).toInt ≤ (g b).toInt then g a else g b), false, false⟩
  | .max t d a b => some ⟨t.val, encR 0 d.val a.val b.val 0x012, d.val, 1, some (if (g a).toInt ≤ (g b).toInt then g b else g a), false, false⟩
  | .minu t d a b => some ⟨t.val, encR 0 d.val a.val b.val 0x013, d.val, 1, some (if (g a).toNat ≤ (g b).toNat then g a else g b), false, false⟩
  | .maxu t d a b => some ⟨t.val, encR 0 d.val a.val b.val 0x014, d.val, 1, some (if (g a).toNat ≤ (g b).toNat then g b else g a), false, false⟩
  | .sll t d a b => some ⟨t.val, encR 0 d.val a.val b.val 0x018, d.val, 1, some (shl (g a) (g b).toNat), false, false⟩
  | .srl t d a b => some ⟨t.val, encR 0 d.val a.val b.val 0x019, d.val, 1, some (shr (g a) (g b).toNat), false, false⟩
  | .sra t d a b => some ⟨t.val, encR 0 d.val a.val b.val 0x01A, d.val, 1, some (sar (g a) (g b).toNat), false, false⟩
  | .rol t d a b => some ⟨t.val, encR 0 d.val a.val b.val 0x01B, d.val, 1, some ((g a).rotateLeft (g b).toNat), false, false⟩
  | .ror t d a b => some ⟨t.val, encR 0 d.val a.val b.val 0x01C, d.val, 1, some ((g a).rotateRight (g b).toNat), false, false⟩
  | .mul t d a b => some ⟨t.val, encR 0 d.val a.val b.val 0x020, d.val, 2, some (g a * g b), outside 64 ((g a).toInt * (g b).toInt), false⟩
  | .mulh t d a b => some ⟨t.val, encR 0 d.val a.val b.val 0x021, d.val, 3, some (((g a).signExtend 128 * (g b).signExtend 128).extractLsb' 64 64), false, false⟩
  | .mulhu t d a b => some ⟨t.val, encR 0 d.val a.val b.val 0x022, d.val, 3, some (((g a).zeroExtend 128 * (g b).zeroExtend 128).extractLsb' 64 64), false, false⟩
  | .mulhsu t d a b => some ⟨t.val, encR 0 d.val a.val b.val 0x023, d.val, 3, some (((g a).signExtend 128 * (g b).zeroExtend 128).extractLsb' 64 64), false, false⟩
  | .div t d a b => some ⟨t.val, encR 0 d.val a.val b.val 0x024, d.val, 18, some (if g b = 0 then BitVec.allOnes 64 else (g a).sdiv (g b)),
      g a == 0x8000000000000000 && g b == BitVec.allOnes 64, g b == 0⟩
  | .divu t d a b => some ⟨t.val, encR 0 d.val a.val b.val 0x025, d.val, 18, some (if g b = 0 then BitVec.allOnes 64 else (g a).udiv (g b)), false, g b == 0⟩
  | .rem t d a b => some ⟨t.val, encR 0 d.val a.val b.val 0x026, d.val, 18, some (if g b = 0 then g a else (g a).srem (g b)),
      g a == 0x8000000000000000 && g b == BitVec.allOnes 64, g b == 0⟩
  | .remu t d a b => some ⟨t.val, encR 0 d.val a.val b.val 0x027, d.val, 18, some (if g b = 0 then g a else (g a).umod (g b)), false, g b == 0⟩
  | .clz t d a => some ⟨t.val, encR 0 d.val a.val 0 0x028, d.val, 1, some ((g a).clz), false, false⟩
  | .ctz t d a => some ⟨t.val, encR 0 d.val a.val 0 0x029, d.val, 1, some ((g a).reverse.clz), false, false⟩
  | .popc t d a => some ⟨t.val, encR 0 d.val a.val 0 0x02A, d.val, 1, some (BitVec.ofNat 64 ((List.finRange 64).countP (fun i => (g a).getLsb i))), false, false⟩
  | .rev t d a => some ⟨t.val, encR 0 d.val a.val 0 0x02B, d.val, 1, some ((g a).extractLsb' 0 8 ++ (g a).extractLsb' 8 8 ++ (g a).extractLsb' 16 8
      ++ (g a).extractLsb' 24 8 ++ (g a).extractLsb' 32 8 ++ (g a).extractLsb' 40 8 ++ (g a).extractLsb' 48 8 ++ (g a).extractLsb' 56 8), false, false⟩
  | .rev4 t d a => some ⟨t.val, encR 0 d.val a.val 0 0x02C, d.val, 1, some (0#32 ++ (g a).extractLsb' 0 8 ++ (g a).extractLsb' 8 8
      ++ (g a).extractLsb' 16 8 ++ (g a).extractLsb' 24 8), false, false⟩
  | .rev2 t d a => some ⟨t.val, encR 0 d.val a.val 0 0x02D, d.val, 1, some (0#48 ++ (g a).extractLsb' 0 8 ++ (g a).extractLsb' 8 8), false, false⟩
  | .addw t d a b => some ⟨t.val, encR 0 d.val a.val b.val 0x040, d.val, 1, some (wide (lo (g a) + lo (g b))), outside 32 ((lo (g a)).toInt + (lo (g b)).toInt), false⟩
  | .subw t d a b => some ⟨t.val, encR 0 d.val a.val b.val 0x041, d.val, 1, some (wide (lo (g a) - lo (g b))), outside 32 ((lo (g a)).toInt - (lo (g b)).toInt), false⟩
  | .negw t d a => some ⟨t.val, encR 0 d.val a.val 0 0x042, d.val, 1, some (wide (-(lo (g a)))), lo (g a) == 0x80000000, false⟩
  | .absw t d a => some ⟨t.val, encR 0 d.val a.val 0 0x043, d.val, 1, some (wide (if (lo (g a)).msb then -(lo (g a)) else lo (g a))), lo (g a) == 0x80000000, false⟩
  | .sllw t d a b => some ⟨t.val, encR 0 d.val a.val b.val 0x058, d.val, 1, some (wide (shl (lo (g a)) (g b).toNat)), false, false⟩
  | .srlw t d a b => some ⟨t.val, encR 0 d.val a.val b.val 0x059, d.val, 1, some (wide (shr (lo (g a)) (g b).toNat)), false, false⟩
  | .sraw t d a b => some ⟨t.val, encR 0 d.val a.val b.val 0x05A, d.val, 1, some (wide (sar (lo (g a)) (g b).toNat)), false, false⟩
  | .rolw t d a b => some ⟨t.val, encR 0 d.val a.val b.val 0x05B, d.val, 1, some (wide ((lo (g a)).rotateLeft (g b).toNat)), false, false⟩
  | .rorw t d a b => some ⟨t.val, encR 0 d.val a.val b.val 0x05C, d.val, 1, some (wide ((lo (g a)).rotateRight (g b).toNat)), false, false⟩
  | .mulw t d a b => some ⟨t.val, encR 0 d.val a.val b.val 0x060, d.val, 2, some (wide (lo (g a) * lo (g b))), outside 32 ((lo (g a)).toInt * (lo (g b)).toInt), false⟩
  | .divw t d a b => some ⟨t.val, encR 0 d.val a.val b.val 0x064, d.val, 18, some (if lo (g b) = 0 then BitVec.allOnes 64 else wide ((lo (g a)).sdiv (lo (g b)))),
      lo (g a) == 0x80000000 && lo (g b) == BitVec.allOnes 32, lo (g b) == 0⟩
  | .divuw t d a b => some ⟨t.val, encR 0 d.val a.val b.val 0x065, d.val, 18, some (if lo (g b) = 0 then BitVec.allOnes 64 else wide ((lo (g a)).udiv (lo (g b)))),
      false, lo (g b) == 0⟩
  | .remw t d a b => some ⟨t.val, encR 0 d.val a.val b.val 0x066, d.val, 18, some (wide (if lo (g b) = 0 then lo (g a) else (lo (g a)).srem (lo (g b)))),
      lo (g a) == 0x80000000 && lo (g b) == BitVec.allOnes 32, lo (g b) == 0⟩
  | .remuw t d a b => some ⟨t.val, encR 0 d.val a.val b.val 0x067, d.val, 18, some (wide (if lo (g b) = 0 then lo (g a) else (lo (g a)).umod (lo (g b)))),
      false, lo (g b) == 0⟩
  | _ => none

/-- The immediate forms (R234). -/
def immediateRow (g : Nat → Word64) : Instr → Option AluRow
  | .addi t d a i => some ⟨t.val, encI 0x01 d.val a.val i.toNat, d.val, 1, some (g a + i.signExtend 64), outside 64 ((g a).toInt + i.toInt), false⟩
  | .addiw t d a i => some ⟨t.val, encI 0x02 d.val a.val i.toNat, d.val, 1, some (wide (lo (g a) + i.signExtend 32)), outside 32 ((lo (g a)).toInt + i.toInt), false⟩
  | .andi t d a i => some ⟨t.val, encI 0x03 d.val a.val i.toNat, d.val, 1, some (g a &&& i.zeroExtend 64), false, false⟩
  | .ori t d a i => some ⟨t.val, encI 0x04 d.val a.val i.toNat, d.val, 1, some (g a ||| i.zeroExtend 64), false, false⟩
  | .xori t d a i => some ⟨t.val, encI 0x05 d.val a.val i.toNat, d.val, 1, some (g a ^^^ i.zeroExtend 64), false, false⟩
  | .slti t d a i => some ⟨t.val, encI 0x06 d.val a.val i.toNat, d.val, 1, some (if (g a).toInt < i.toInt then 1 else 0), false, false⟩
  | .sltiu t d a i => some ⟨t.val, encI 0x07 d.val a.val i.toNat, d.val, 1, some (if (g a).toNat < (i.signExtend 64).toNat then 1 else 0), false, false⟩
  | .seqi t d a i => some ⟨t.val, encI 0x08 d.val a.val i.toNat, d.val, 1, some (if g a = i.signExtend 64 then 1 else 0), false, false⟩
  | .slli t d a c => some ⟨t.val, encI 0x09 d.val a.val (0 * 64 + c.toNat), d.val, 1, some (g a <<< c.toNat), false, false⟩
  | .srli t d a c => some ⟨t.val, encI 0x09 d.val a.val (1 * 64 + c.toNat), d.val, 1, some (g a >>> c.toNat), false, false⟩
  | .srai t d a c => some ⟨t.val, encI 0x09 d.val a.val (2 * 64 + c.toNat), d.val, 1, some ((g a).sshiftRight c.toNat), false, false⟩
  | .rori t d a c => some ⟨t.val, encI 0x09 d.val a.val (3 * 64 + c.toNat), d.val, 1, some ((g a).rotateRight c.toNat), false, false⟩
  | .slliw t d a c => some ⟨t.val, encI 0x09 d.val a.val (512 + 0 * 64 + c.toNat), d.val, 1, some (wide (shl (lo (g a)) c.toNat)), false, false⟩
  | .srliw t d a c => some ⟨t.val, encI 0x09 d.val a.val (512 + 1 * 64 + c.toNat), d.val, 1, some (wide (shr (lo (g a)) c.toNat)), false, false⟩
  | .sraiw t d a c => some ⟨t.val, encI 0x09 d.val a.val (512 + 2 * 64 + c.toNat), d.val, 1, some (wide (sar (lo (g a)) c.toNat)), false, false⟩
  | .roriw t d a c => some ⟨t.val, encI 0x09 d.val a.val (512 + 3 * 64 + c.toNat), d.val, 1, some (wide ((lo (g a)).rotateRight c.toNat)), false, false⟩
  | .movz t d i hw => some ⟨t.val, encW d.val hw.toNat 0 i.toNat, d.val, 1, some (i.zeroExtend 64 <<< (16 * hw.toNat)), false, false⟩
  | .movk t d i hw => some ⟨t.val, encW d.val hw.toNat 1 i.toNat, d.val, 1,
      some ((g d &&& ~~~((0xFFFF : Word64) <<< (16 * hw.toNat))) ||| (i.zeroExtend 64 <<< (16 * hw.toNat))), false, false⟩
  | .movn t d i hw => some ⟨t.val, encW d.val hw.toNat 2 i.toNat, d.val, 1, some (~~~(i.zeroExtend 64 <<< (16 * hw.toNat))), false, false⟩
  | .extu t d a p l => some ⟨t.val, encF d.val a.val 0 p.toNat l.toNat, d.val, 1,
      some (((g a >>> p.toNat) <<< (63 - l.toNat)) >>> (63 - l.toNat)), false, false⟩
  | .exts t d a p l => some ⟨t.val, encF d.val a.val 1 p.toNat l.toNat, d.val, 1,
      some ((((g a >>> p.toNat) <<< (63 - l.toNat))).sshiftRight (63 - l.toNat)), false, false⟩
  | .ins t d a p l => some ⟨t.val, encF d.val a.val 2 p.toNat l.toNat, d.val, 1,
      some (let m : Word64 := (BitVec.allOnes 64 >>> (63 - l.toNat)) <<< p.toNat; (g d &&& ~~~m) ||| ((g a <<< p.toNat) &&& m)), false, false⟩
  | _ => none

/-- Whether a row meets a trap that is enabled (R236). -/
def AluRow.traps (r : AluRow) (flags : Word64) : Bool := (r.v && flags.getLsbD 8) || (r.dz && flags.getLsbD 9)

/-! ### Branches, memory and SYSTEM instructions (R230, R231, R237 to R240, R246) -/

/-- A branch or jump for given register values at an address: its thread, its word, whether it is taken, its annul bit, its
target and the register it links (R230, R231). -/
structure BranchRow where
  t : Nat
  word : Word32
  taken : Bool
  annul : Bool
  target : Nat
  link : Nat

/-- An address plus 4 times a signed offset, modulo 0x8_0000 (R230). -/
def targetAt (pc : Nat) {n : Nat} (off : BitVec n) : Nat := (((pc : Int) + 4 * off.toInt) % 0x80000).toNat

/-- The branches and jumps (R230, R231). -/
def branchRow (g : Nat → Word64) (pc : Nat) : Instr → Option BranchRow
  | .beq t a b n o => some ⟨t.val, encB a.val b.val 0 (bit n) o.toNat, decide (g a = g b), n, targetAt pc o, 0⟩
  | .bne t a b n o => some ⟨t.val, encB a.val b.val 1 (bit n) o.toNat, decide (g a ≠ g b), n, targetAt pc o, 0⟩
  | .blt t a b n o => some ⟨t.val, encB a.val b.val 2 (bit n) o.toNat, decide ((g a).toInt < (g b).toInt), n, targetAt pc o, 0⟩
  | .bge t a b n o => some ⟨t.val, encB a.val b.val 3 (bit n) o.toNat, decide ((g b).toInt ≤ (g a).toInt), n, targetAt pc o, 0⟩
  | .bltu t a b n o => some ⟨t.val, encB a.val b.val 4 (bit n) o.toNat, decide ((g a).toNat < (g b).toNat), n, targetAt pc o, 0⟩
  | .bgeu t a b n o => some ⟨t.val, encB a.val b.val 5 (bit n) o.toNat, decide ((g b).toNat ≤ (g a).toNat), n, targetAt pc o, 0⟩
  | .bbc t a p n o => some ⟨t.val, encBB a.val p.toNat 0 (bit n) o.toNat, !(g a).getLsbD p.toNat, n, targetAt pc o, 0⟩
  | .bbs t a p n o => some ⟨t.val, encBB a.val p.toNat 1 (bit n) o.toNat, (g a).getLsbD p.toNat, n, targetAt pc o, 0⟩
  | .j t o => some ⟨t.val, encJ 0x12 o.toNat, true, false, targetAt pc o, 0⟩
  | .jal t o => some ⟨t.val, encJ 0x13 o.toNat, true, false, targetAt pc o, 31⟩
  | .jr t a => some ⟨t.val, encR 0x14 0 a.val 0 0x000, true, false, (g a).toNat, 0⟩
  | .jalr t d a => some ⟨t.val, encR 0x14 d.val a.val 0 0x001, true, false, (g a).toNat, d.val⟩
  | _ => none

/-- A remote memory instruction for given register values: its thread, its word, the operation it makes of those values (but
for its number and the bytes of a packet), the alignment it needs, and whether it reads and writes its space (R238 to R240). -/
structure RemoteRow where
  t : Nat
  word : Word32
  op : LeafOp
  align : Nat
  reads : Bool
  writes : Bool

/-- An operation of instruction number `no`. -/
def remoteOf (no : Nat) (kind : OpKind) (sp : Nat) (w : Word32) (dst : Nat) (ev : Option Nat) (addr len loc : Nat) (data : List Byte)
    (amo : Option (Nat × Word64 × Word64)) : LeafOp := ⟨0, no, kind, sp, dst, ev, addr, len, loc, w, data, amo, 0⟩

/-- An AMO. -/
def amoRow (g : Nat → Word64) (no op : Nat) (t : Tid) (d a b : Reg) (ev : BitVec 5) (sp : BitVec 2) (wd : Bool) : RemoteRow :=
  let w := encA d.val a.val b.val ev.toNat op sp.toNat (bit wd)
  ⟨t.val, w, remoteOf no .amo sp.toNat w d.val (some ev.toNat) (g a).toNat (if wd then 8 else 4) 0 [] (some (op, g b, g d)),
    if wd then 8 else 4, true, true⟩

/-- LDA, STA, AMO, XLD and XST (R238 to R240); `loc` gives the local bytes that XST takes. -/
def remoteRow (g : Nat → Word64) (no : Nat) (loc : Nat → Nat → List Byte) : Instr → Option RemoteRow
  | .lda t d a ev sp sz o =>
    let w := encM 0x1A d.val a.val ev.toNat 1 sp.toNat sz.toNat o.toNat
    let n := 2 ^ sz.toNat
    some ⟨t.val, w, remoteOf no .load sp.toNat w d.val (some ev.toNat) (g a + o.signExtend 64 * BitVec.ofNat 64 n).toNat n 0 [] none, n, true, false⟩
  | .sta t b a ev e sp sz o =>
    let w := encM 0x1B b.val a.val ev.toNat (bit e) sp.toNat sz.toNat o.toNat
    let n := 2 ^ sz.toNat
    some ⟨t.val, w, remoteOf no .store sp.toNat w 0 (if e then some ev.toNat else none) (g a + o.signExtend 64 * BitVec.ofNat 64 n).toNat n 0
      (leBytes n (g b).toNat) none, n, false, true⟩
  | .amoswap t d a b ev sp wd => some (amoRow g no 0 t d a b ev sp wd)
  | .amoadd t d a b ev sp wd => some (amoRow g no 1 t d a b ev sp wd)
  | .amoand t d a b ev sp wd => some (amoRow g no 2 t d a b ev sp wd)
  | .amoor t d a b ev sp wd => some (amoRow g no 3 t d a b ev sp wd)
  | .amoxor t d a b ev sp wd => some (amoRow g no 4 t d a b ev sp wd)
  | .amomaxu t d a b ev sp wd => some (amoRow g no 5 t d a b ev sp wd)
  | .amominu t d a b ev sp wd => some (amoRow g no 6 t d a b ev sp wd)
  | .amocas t d a b ev sp wd => some (amoRow g no 7 t d a b ev sp wd)
  | .xld t l a ev sp n =>
    let w := encX 0x1D l.val a.val ev.toNat sp.toNat n.toNat
    some ⟨t.val, w, remoteOf no .xld sp.toNat w 0 (some ev.toNat) (g a).toNat (8 * (n.toNat + 1)) (g l).toNat [] none, 8, true, false⟩
  | .xst t l a ev sp n =>
    let w := encX 0x1E l.val a.val ev.toNat sp.toNat n.toNat
    some ⟨t.val, w, remoteOf no .xst sp.toNat w 0 (some ev.toNat) (g a).toNat (8 * (n.toNat + 1)) (g l).toNat
      (loc (g l).toNat (8 * (n.toNat + 1))) none, 8, false, true⟩
  | _ => none

/-- Whether the local side of XLD or XST is one that R240 allows: 8-byte-aligned; XLD stores from 0x0200 up, XST reads anywhere. -/
def localSide (o : LeafOp) : Prop :=
  (o.kind = .xld → o.loc % 8 = 0 ∧ 0x200 ≤ o.loc ∧ o.loc + o.len ≤ 0x1800) ∧ (o.kind = .xst → o.loc % 8 = 0 ∧ o.loc + o.len ≤ 0x1800)


/-! ### Words and their instructions (R220, R221) -/

/-- The thread and the word of an instruction: its format with the operands in their places, reserved fields zero (R220, R221,
R230, R231, R234, R237 to R240, R246, R248, R250, R252, R267, R269, R282). -/
def leafWord (i : Instr) : Option (Nat × Word32) :=
  match specialRow (fun _ => 0) i, immediateRow (fun _ => 0) i with
  | some r, _ => some (r.t, r.word)
  | _, some r => some (r.t, r.word)
  | none, none =>
    match i with
    | .beq t a b n o => some (t.val, encB a.val b.val 0 (bit n) o.toNat)
    | .bne t a b n o => some (t.val, encB a.val b.val 1 (bit n) o.toNat)
    | .blt t a b n o => some (t.val, encB a.val b.val 2 (bit n) o.toNat)
    | .bge t a b n o => some (t.val, encB a.val b.val 3 (bit n) o.toNat)
    | .bltu t a b n o => some (t.val, encB a.val b.val 4 (bit n) o.toNat)
    | .bgeu t a b n o => some (t.val, encB a.val b.val 5 (bit n) o.toNat)
    | .bbc t a p n o => some (t.val, encBB a.val p.toNat 0 (bit n) o.toNat)
    | .bbs t a p n o => some (t.val, encBB a.val p.toNat 1 (bit n) o.toNat)
    | .j t o => some (t.val, encJ 0x12 o.toNat)
    | .jal t o => some (t.val, encJ 0x13 o.toNat)
    | .jr t a => some (t.val, encR 0x14 0 a.val 0 0)
    | .jalr t d a => some (t.val, encR 0x14 d.val a.val 0 1)
    | .ldl t d a sz sx be o => some (t.val, encL 0x18 d.val a.val sz.toNat (bit sx) (bit be) o.toNat)
    | .stl t b a sz be o => some (t.val, encL 0x19 b.val a.val sz.toNat 0 (bit be) o.toNat)
    | .lda t d a ev sp sz o => some (t.val, encM 0x1A d.val a.val ev.toNat 1 sp.toNat sz.toNat o.toNat)
    | .sta t b a ev e sp sz o => some (t.val, encM 0x1B b.val a.val ev.toNat (bit e) sp.toNat sz.toNat o.toNat)
    | .amoswap t d a b ev sp w => some (t.val, encA d.val a.val b.val ev.toNat 0 sp.toNat (bit w))
    | .amoadd t d a b ev sp w => some (t.val, encA d.val a.val b.val ev.toNat 1 sp.toNat (bit w))
    | .amoand t d a b ev sp w => some (t.val, encA d.val a.val b.val ev.toNat 2 sp.toNat (bit w))
    | .amoor t d a b ev sp w => some (t.val, encA d.val a.val b.val ev.toNat 3 sp.toNat (bit w))
    | .amoxor t d a b ev sp w => some (t.val, encA d.val a.val b.val ev.toNat 4 sp.toNat (bit w))
    | .amomaxu t d a b ev sp w => some (t.val, encA d.val a.val b.val ev.toNat 5 sp.toNat (bit w))
    | .amominu t d a b ev sp w => some (t.val, encA d.val a.val b.val ev.toNat 6 sp.toNat (bit w))
    | .amocas t d a b ev sp w => some (t.val, encA d.val a.val b.val ev.toNat 7 sp.toNat (bit w))
    | .xld t l a ev sp n => some (t.val, encX 0x1D l.val a.val ev.toNat sp.toNat n.toNat)
    | .xst t l a ev sp n => some (t.val, encX 0x1E l.val a.val ev.toNat sp.toNat n.toNat)
    | .wfe t d m => some (t.val, encR 0x20 d.val m.val 0 0x001)
    | .waitt t d b m => some (t.val, encR 0x20 d.val b.val m.val 0x002)
    | .sev t b => some (t.val, encR 0x20 0 b.val 0 0x003)
    | .take t d => some (t.val, encR 0x20 d.val 0 0 0x004)
    | .fence t => some (t.val, encR 0x20 0 0 0 0x005)
    | .eret t => some (t.val, encR 0x20 0 0 0 0x006)
    | .rdtime t d => some (t.val, encR 0x20 d.val 0 0 0x007)
    | .mft t d n => some (t.val, encR 0x20 d.val 0 n.toNat 0x008)
    | .mtt t n a => some (t.val, encR 0x20 0 a.val n.toNat 0x009)
    | .chw t n a => some (t.val, encR 0x20 0 a.val n.toNat 0x00A)
    | .chpost t n => some (t.val, encR 0x20 0 0 n.toNat 0x00B)
    | .bkpt t => some (t.val, encR 0x20 0 0 0 0x00C)
    | .sacq t d a ev => some (t.val, encR 0x20 d.val a.val ev.toNat 0x010)
    | .stry t d a ev => some (t.val, encR 0x20 d.val a.val ev.toNat 0x011)
    | .srel t a => some (t.val, encR 0x20 0 a.val 0 0x012)
    | .cpop t c f d a b => some (t.val, encCO c.toNat f.toNat d.toNat a.toNat b.toNat)
    | .mtc t c g r p => some (t.val, encCM 0x39 c.toNat g.val r.toNat p.toNat)
    | .mfc t g c r p => some (t.val, encCM 0x3A c.toNat g.val r.toNat p.toNat)
    | .bcb t c n a o => some (t.val, encCB c.toNat (bit n) (bit a) o.toNat)
    | .customInstruction t f d a b => some (t.val, encCX f.toNat d.val a.val b.val)
    | _ => none

/-! ### The function tables of the coprocessors and of Tooling (R267, R269, R282) -/

/-- A function of Awl or Clasp as its row of the table gives it: its thread, coprocessor, number and register fields. -/
structure CoRow where
  t : Nat
  cp : Nat
  fn : Nat
  cd : Nat
  cs : Nat
  ct : Nat

/-- One bit of a reflected CRC (R116): the register moves down by one, and where the bit that leaves it and the bit that comes in differ, the
polynomial is added. -/
def crcBit (poly crc : Nat) (b : Bool) : Nat := if crc.testBit 0 = b then crc / 2 else crc / 2 ^^^ poly

/-- The functions of Awl and Clasp, and a CPOP of either. -/
def coprocRow : Instr → Option CoRow
  | .awlMov t cd cs ct => some ⟨t.val, 0, 0x00, cd.toNat, cs.toNat, ct.toNat⟩
  | .awlXor t cd cs ct => some ⟨t.val, 0, 0x01, cd.toNat, cs.toNat, ct.toNat⟩
  | .awlAnd t cd cs ct => some ⟨t.val, 0, 0x02, cd.toNat, cs.toNat, ct.toNat⟩
  | .awlOr t cd cs ct => some ⟨t.val, 0, 0x03, cd.toNat, cs.toNat, ct.toNat⟩
  | .awlCsum t cd cs ct => some ⟨t.val, 0, 0x04, cd.toNat, cs.toNat, ct.toNat⟩
  | .awlCrc32c t cd cs ct => some ⟨t.val, 0, 0x05, cd.toNat, cs.toNat, ct.toNat⟩
  | .awlCrc32 t cd cs ct => some ⟨t.val, 0, 0x06, cd.toNat, cs.toNat, ct.toNat⟩
  | .awlClmul t cd cs ct => some ⟨t.val, 0, 0x07, cd.toNat, cs.toNat, ct.toNat⟩
  | .awlExt t cd cs ct => some ⟨t.val, 0, 0x08, cd.toNat, cs.toNat, ct.toNat⟩
  | .awlIns t cd cs ct => some ⟨t.val, 0, 0x09, cd.toNat, cs.toNat, ct.toNat⟩
  | .awlShuf t cd cs ct => some ⟨t.val, 0, 0x0A, cd.toNat, cs.toNat, ct.toNat⟩
  | .awlBswap t cd cs ct => some ⟨t.val, 0, 0x0B, cd.toNat, cs.toNat, ct.toNat⟩
  | .awlPopc t cd cs ct => some ⟨t.val, 0, 0x0C, cd.toNat, cs.toNat, ct.toNat⟩
  | .awlCmpeq8 t cd cs ct => some ⟨t.val, 0, 0x0D, cd.toNat, cs.toNat, ct.toNat⟩
  | .keysel t cd cs ct => some ⟨t.val, 1, 0x00, cd.toNat, cs.toNat, ct.toNat⟩
  | .gcmInit t cd cs ct => some ⟨t.val, 1, 0x01, cd.toNat, cs.toNat, ct.toNat⟩
  | .gcmAad t cd cs ct => some ⟨t.val, 1, 0x02, cd.toNat, cs.toNat, ct.toNat⟩
  | .gcmEnc t cd cs ct => some ⟨t.val, 1, 0x03, cd.toNat, cs.toNat, ct.toNat⟩
  | .gcmDec t cd cs ct => some ⟨t.val, 1, 0x04, cd.toNat, cs.toNat, ct.toNat⟩
  | .gcmTag t cd cs ct => some ⟨t.val, 1, 0x05, cd.toNat, cs.toNat, ct.toNat⟩
  | .gcmCheck t cd cs ct => some ⟨t.val, 1, 0x06, cd.toNat, cs.toNat, ct.toNat⟩
  | .ccpInit t cd cs ct => some ⟨t.val, 1, 0x08, cd.toNat, cs.toNat, ct.toNat⟩
  | .ccpAad t cd cs ct => some ⟨t.val, 1, 0x09, cd.toNat, cs.toNat, ct.toNat⟩
  | .ccpEnc t cd cs ct => some ⟨t.val, 1, 0x0A, cd.toNat, cs.toNat, ct.toNat⟩
  | .ccpDec t cd cs ct => some ⟨t.val, 1, 0x0B, cd.toNat, cs.toNat, ct.toNat⟩
  | .ccpTag t cd cs ct => some ⟨t.val, 1, 0x0C, cd.toNat, cs.toNat, ct.toNat⟩
  | .ccpCheck t cd cs ct => some ⟨t.val, 1, 0x0D, cd.toNat, cs.toNat, ct.toNat⟩
  | .sha256Init t cd cs ct => some ⟨t.val, 1, 0x10, cd.toNat, cs.toNat, ct.toNat⟩
  | .sha256Block t cd cs ct => some ⟨t.val, 1, 0x11, cd.toNat, cs.toNat, ct.toNat⟩
  | .sha256Final t cd cs ct => some ⟨t.val, 1, 0x12, cd.toNat, cs.toNat, ct.toNat⟩
  | .sha512Init t cd cs ct => some ⟨t.val, 1, 0x14, cd.toNat, cs.toNat, ct.toNat⟩
  | .sha512Block t cd cs ct => some ⟨t.val, 1, 0x15, cd.toNat, cs.toNat, ct.toNat⟩
  | .sha512Final t cd cs ct => some ⟨t.val, 1, 0x16, cd.toNat, cs.toNat, ct.toNat⟩
  | .hmacInit t cd cs ct => some ⟨t.val, 1, 0x18, cd.toNat, cs.toNat, ct.toNat⟩
  | .claspStatus t cd cs ct => some ⟨t.val, 1, 0x1F, cd.toNat, cs.toNat, ct.toNat⟩
  | .cpop t cp fn cd cs ct => some ⟨t.val, cp.toNat, fn.toNat, cd.toNat, cs.toNat, ct.toNat⟩
  | _ => none

/-- Byte i of a register, lowest first, and a register of bytes. -/
def byteOf (x : Word64) (i : Nat) : Byte := x.extractLsb' (8 * i) 8
def ofBytes (f : Nat → Byte) : Word64 := f 7 ++ f 6 ++ f 5 ++ f 4 ++ f 3 ++ f 2 ++ f 1 ++ f 0

/-- The greatest and least of a saturating sum at width n, and a result brought between them. -/
def saturate (lo hi x : Int) : Int := max lo (min hi x)
def satSigned (n : Nat) (x : Int) : Word64 := (BitVec.ofInt n (saturate (-(2 ^ (n - 1))) (2 ^ (n - 1) - 1) x)).signExtend 64
def satUnsigned (n : Nat) (x : Int) : Word64 := (BitVec.ofInt n (saturate 0 (2 ^ n - 1) x)).signExtend 64

/-- A device-defined function of registers alone (R282): its thread, number and register fields, and what gd receives. -/
structure ToolRow where
  t : Nat
  fn : Nat
  gd : Nat
  gs : Nat
  gt : Nat
  val : Word64

/-- Its word (R221). -/
def ToolRow.word (r : ToolRow) : Word32 := encCX r.fn r.gd r.gs r.gt

/-- The functions of registers alone, for the values g of the registers. -/
def toolRow (g : Nat → Word64) : Instr → Option ToolRow
  | .adds t gd gs gt =>
    let a := g gs
    let b := g gt
    some ⟨t.val, 0x008, gd.val, gs.val, gt.val, satSigned 64 (a.toInt + b.toInt)⟩
  | .subs t gd gs gt =>
    let a := g gs
    let b := g gt
    some ⟨t.val, 0x009, gd.val, gs.val, gt.val, satSigned 64 (a.toInt - b.toInt)⟩
  | .addsu t gd gs gt =>
    let a := g gs
    let b := g gt
    some ⟨t.val, 0x00A, gd.val, gs.val, gt.val, satUnsigned 64 (a.toNat + b.toNat)⟩
  | .subsu t gd gs gt =>
    let a := g gs
    let b := g gt
    some ⟨t.val, 0x00B, gd.val, gs.val, gt.val, satUnsigned 64 ((a.toNat : Int) - b.toNat)⟩
  | .addsw t gd gs gt =>
    let a := g gs
    let b := g gt
    some ⟨t.val, 0x00C, gd.val, gs.val, gt.val, satSigned 32 ((lo a).toInt + (lo b).toInt)⟩
  | .subsw t gd gs gt =>
    let a := g gs
    let b := g gt
    some ⟨t.val, 0x00D, gd.val, gs.val, gt.val, satSigned 32 ((lo a).toInt - (lo b).toInt)⟩
  | .addsuw t gd gs gt =>
    let a := g gs
    let b := g gt
    some ⟨t.val, 0x00E, gd.val, gs.val, gt.val, satUnsigned 32 ((lo a).toNat + (lo b).toNat)⟩
  | .subsuw t gd gs gt =>
    let a := g gs
    let b := g gt
    some ⟨t.val, 0x00F, gd.val, gs.val, gt.val, satUnsigned 32 (((lo a).toNat : Int) - (lo b).toNat)⟩
  | .findb t gd gs gt =>
    let a := g gs
    let b := g gt
    some ⟨t.val, 0x010, gd.val, gs.val, gt.val, BitVec.ofNat 64 (((List.range 8).find? (fun i => byteOf a i == byteOf b 0)).getD 8)⟩
  | .findnb t gd gs gt =>
    let a := g gs
    let b := g gt
    some ⟨t.val, 0x011, gd.val, gs.val, gt.val, BitVec.ofNat 64 (((List.range 8).find? (fun i => byteOf a i != byteOf b 0)).getD 8)⟩
  | .cntb t gd gs gt =>
    let a := g gs
    let b := g gt
    some ⟨t.val, 0x012, gd.val, gs.val, gt.val, BitVec.ofNat 64 ((List.range 8).countP (fun i => byteOf a i == byteOf b 0))⟩
  | .minb t gd gs gt =>
    let a := g gs
    let b := g gt
    some ⟨t.val, 0x013, gd.val, gs.val, gt.val, ofBytes (fun i => if (byteOf a i).toNat ≤ (byteOf b i).toNat then byteOf a i else byteOf b i)⟩
  | .maxb t gd gs gt =>
    let a := g gs
    let b := g gt
    some ⟨t.val, 0x014, gd.val, gs.val, gt.val, ofBytes (fun i => if (byteOf a i).toNat ≤ (byteOf b i).toNat then byteOf b i else byteOf a i)⟩
  | .addb t gd gs gt =>
    let a := g gs
    let b := g gt
    some ⟨t.val, 0x015, gd.val, gs.val, gt.val, ofBytes (fun i => byteOf a i + byteOf b i)⟩
  | .subb t gd gs gt =>
    let a := g gs
    let b := g gt
    some ⟨t.val, 0x016, gd.val, gs.val, gt.val, ofBytes (fun i => byteOf a i - byteOf b i)⟩
  | .sadb t gd gs gt =>
    let a := g gs
    let b := g gt
    some ⟨t.val, 0x017, gd.val, gs.val, gt.val, BitVec.ofNat 64 (sumOf (List.range 8) (fun i => max (byteOf a i).toNat (byteOf b i).toNat - min (byteOf a i).toNat (byteOf b i).toNat))⟩
  | .pdep t gd gs gt =>
    let a := g gs
    let b := g gt
    some ⟨t.val, 0x018, gd.val, gs.val, gt.val, pdepV a b⟩
  | .pext t gd gs gt =>
    let a := g gs
    let b := g gt
    some ⟨t.val, 0x019, gd.val, gs.val, gt.val, pextV a b⟩
  | .brev t gd gs gt =>
    let a := g gs
    some ⟨t.val, 0x01A, gd.val, gs.val, gt.val, a.reverse⟩
  | .clmul t gd gs gt =>
    let a := g gs
    let b := g gt
    some ⟨t.val, 0x01B, gd.val, gs.val, gt.val, BitVec.ofNat 64 (clmulNat 64 a.toNat b.toNat)⟩
  | .clmulh t gd gs gt =>
    let a := g gs
    let b := g gt
    some ⟨t.val, 0x01C, gd.val, gs.val, gt.val, BitVec.ofNat 64 (clmulNat 64 a.toNat b.toNat >>> 64)⟩
  | .popcand t gd gs gt =>
    let a := g gs
    let b := g gt
    some ⟨t.val, 0x01D, gd.val, gs.val, gt.val, BitVec.ofNat 64 ((List.finRange 64).countP (fun i => (a &&& b).getLsb i))⟩
  | .selb t gd gs gt =>
    let d := g gd
    let a := g gs
    let b := g gt
    some ⟨t.val, 0x01E, gd.val, gs.val, gt.val, (a &&& d) ||| (b &&& ~~~d)⟩
  | .parity t gd gs gt =>
    let a := g gs
    some ⟨t.val, 0x01F, gd.val, gs.val, gt.val, BitVec.ofNat 64 ((List.finRange 64).countP (fun i => a.getLsb i) % 2)⟩
  | .csumadj t gd gs gt =>
    let d := g gd
    let a := g gs
    let b := g gt
    some ⟨t.val, 0x028, gd.val, gs.val, gt.val, BitVec.ofNat 64 (csumUpdate d.toNat [(a.toNat % 65536, b.toNat % 65536)])⟩
  | .csumadj32 t gd gs gt =>
    let d := g gd
    let a := g gs
    let b := g gt
    some ⟨t.val, 0x029, gd.val, gs.val, gt.val, BitVec.ofNat 64 (csumUpdate d.toNat [(a.toNat / 65536 % 65536, b.toNat / 65536 % 65536), (a.toNat % 65536, b.toNat % 65536)])⟩
  | .machash t gd gs gt =>
    let a := g gs
    some ⟨t.val, 0x02B, gd.val, gs.val, gt.val, (a.extractLsb' 0 16 ^^^ a.extractLsb' 16 16 ^^^ a.extractLsb' 32 16).zeroExtend 64⟩
  | .prefixeq t gd gs gt =>
    let a := g gs
    let b := g gt
    some ⟨t.val, 0x02C, gd.val, gs.val, gt.val, (a ^^^ b).clz⟩
  | .masklen t gd gs gt =>
    let a := g gs
    some ⟨t.val, 0x02D, gd.val, gs.val, gt.val, if a = ~~~(BitVec.allOnes 64 >>> (~~~a).clz.toNat) then (~~~a).clz else 0xFF⟩
  | .eui64 t gd gs gt =>
    let a := g gs
    some ⟨t.val, 0x02E, gd.val, gs.val, gt.val, ((a.extractLsb' 24 24 ++ 0xFFFE#16 ++ a.extractLsb' 0 24) ^^^ 0x0200000000000000)⟩
  | .subsat0 t gd gs gt =>
    let a := g gs
    let b := g gt
    some ⟨t.val, 0x02F, gd.val, gs.val, gt.val, if b.toNat ≤ a.toNat then a - b else 0⟩
  | .fnv64K t k gd gs gt =>
    let a := g gs
    let b := g gt
    some ⟨t.val, k.toNat, gd.val, gs.val, gt.val, BitVec.ofNat 64 ((List.range (k.toNat + 1)).foldl
      (fun h i => (h ^^^ (byteOf a i).toNat) * 0x100000001B3 % 2 ^ 64) (if b = 0 then 0xCBF29CE484222325 else b.toNat))⟩
  | _ => none

/-- A device-defined function of local memory (R282): its thread, number and register fields, what gd receives and what it stores. -/
structure LocalRow where
  t : Nat
  fn : Nat
  gd : Nat
  gs : Nat
  gt : Nat
  val : Word64
  store : Option (Nat × List Byte)

/-- Its word (R221). -/
def LocalRow.word (r : LocalRow) : Word32 := encCX r.fn r.gd r.gs r.gt

/-- The bytes of each unit of `k` bytes of a list in the other order; the bytes of a unit that is not whole stay. -/
def swapUnits (k : Nat) (b : List Byte) : List Byte :=
  (List.range b.length).map (fun i => if i / k * k + k ≤ b.length then byteAt b (i / k * k + (k - 1 - i % k)) else byteAt b i)

/-- The functions of local memory, for the values g of the registers and the bytes of local memory. -/
def localRow (g : Nat → Word64) (bytes : Nat → Nat → List Byte) : Instr → Option LocalRow
  | .lcsum t d a b => some ⟨t.val, 0x20, d.val, a.val, b.val,
      BitVec.ofNat 64 (onesFold 8 (onesSum ((g d).toNat % 65536) (bytes (g a).toNat (g b).toNat))), none⟩
  | .lcrc32c t d a b => some ⟨t.val, 0x21, d.val, a.val, b.val,
      BitVec.ofNat 64 (crcReflected 0x82F63B78 ((g d).toNat % 2 ^ 32) (bytes (g a).toNat (g b).toNat)), none⟩
  | .lfill t d a b => some ⟨t.val, 0x22, d.val, a.val, b.val, g a + g b, some ((g a).toNat, List.replicate (g b).toNat ((g d).setWidth 8))⟩
  | .lcopy t d a b => some ⟨t.val, 0x23, d.val, a.val, b.val, g d + g b, some ((g d).toNat, bytes (g a).toNat (g b).toNat)⟩
  | .lcmp t d a b => some ⟨t.val, 0x24, d.val, a.val, b.val,
      match (List.range (g b).toNat).find? (fun i => byteAt (bytes (g a).toNat (g b).toNat) i != byteAt (bytes (g d).toNat (g b).toNat) i) with
      | some i => BitVec.ofNat 64 (i + 1)
      | none => 0, none⟩
  | .lfind t d a b => some ⟨t.val, 0x25, d.val, a.val, b.val,
      BitVec.ofNat 64 (((List.range (g b).toNat).find? (fun i => byteAt (bytes (g a).toNat (g b).toNat) i == (g d).setWidth 8)).getD (g b).toNat), none⟩
  | .lswap16 t d a b => some ⟨t.val, 0x26, d.val, a.val, b.val, g a + g b, some ((g a).toNat, swapUnits 2 (bytes (g a).toNat (g b).toNat))⟩
  | .lswap32 t d a b => some ⟨t.val, 0x27, d.val, a.val, b.val, g a + g b, some ((g a).toNat, swapUnits 4 (bytes (g a).toNat (g b).toNat))⟩
  | .ipv4csum t d a b =>
    if 20 ≤ (g b).toNat ∧ (g b).toNat ≤ 60 then
      some ⟨t.val, 0x2A, d.val, a.val, b.val,
        BitVec.ofNat 64 (0xFFFF - onesFold 8 (onesSum 0 (patchBytes (bytes (g a).toNat (g b).toNat) 10 [0, 0]))), none⟩
    else none
  | _ => none

/-! ### Gatherings (01) -/

/-- The commands of UCB_CTRL but NOP: their window and their command. -/
def ucbRow : Instr → Option (Nat × UcbCmd)
  | .ucbStart w => some (w.val, .start)
  | .ucbDrain w => some (w.val, .drain)
  | .ucbStop w => some (w.val, .stop)
  | .ucbReset w => some (w.val, .reset)
  | .ucbUpdate w => some (w.val, .update)
  | .ucbResume w => some (w.val, .resume)
  | .ucbBindSpare w => some (w.val, .bindSpare)
  | _ => none

/-- Commands reach Gatherings: none is held in reset, and the security state is not LOCKED. -/
def Commandable (s : State) : Prop := s.heldInReset = false ∧ s.trust.sec ≠ .locked

/-- No Gathering above w has a command or a tipping-in under way. -/
def QuietAbove (s : State) (w : Nat) : Prop := ∀ a ∈ ancestorsOf w, (s.gathOf a).cmd = none ∧ (s.gathOf a).tip = none

/-- A Gathering with its members, `d` levels down. -/
def groupIn (members : Nat → List Nat) : Nat → Nat → List Nat
  | 0, w => [w]
  | d + 1, w => w :: (members w).flatMap (groupIn members d)

/-- A group's own logic and its bound members, recursively (R25); and with its spare and retired members. -/
def groupOf (s : State) (w : Nat) : List Nat := groupIn s.boundOf 3 w
def wholeGroup (w : Nat) : List Nat := groupIn membersOf 3 w

/-- The states from which R19 lists a command, and the state it lists for them; Stile, Commons and the time unit hold no work to drain (R22). -/
def listedFrom : UcbCmd → List GState
  | .start => [.off, .quiet]
  | .drain => [.inService]
  | .stop => [.quiet, .failed]
  | .update => [.quiet]
  | .resume => [.quiet]
  | _ => []
def listedTo (c : UcbCmd) (w : Nat) : GState :=
  match c with
  | .start => .starting
  | .drain => if kindOf w = 0x1B ∨ kindOf w = 0x1C ∨ kindOf w = 0x20 then .quiet else .quiescing
  | .update => .updating
  | .resume => .inService
  | _ => .off

/-- Where a state stands in the order of R26. -/
def rankOf : GState → Nat
  | .failed => 1 | .updating => 2 | .starting => 3 | .quiescing => 4 | .inService => 5 | .quiet => 6 | .off => 7 | .absent => 8

/-- The latest command of a Gathering as UCB_CMD_STATUS shows it: its code, its result and aborted (R540). -/
def Shows (u : State) (w code result aborted : Nat) : Prop := u.rf w 0x18 27 24 = code ∧ u.rf w 0x18 23 16 = result ∧ u.rf w 0x18 30 30 = aborted

/-- A Gathering has gone into a state: state_change set, and every other Gathering where it was. -/
def Entered (s u : State) (w : Nat) (g : GState) : Prop :=
  (u.gathOf w).own = g ∧ (u.reg w 0x20).getLsbD 3 = true ∧ ∀ x, x ≠ w → u.gathOf x = s.gathOf x

/-! ### Reports and counters -/

/-- A counter register of a window has risen by one, and saturates. -/
def Counted (s u : State) (w off : Nat) : Prop := (u.reg w off).toNat = min 0xFFFFFFFF ((s.reg w off).toNat + 1)

/-- A counter has risen by n, and saturates (R40). -/
def CountedBy (s u : State) (w off n : Nat) : Prop := (u.reg w off).toNat = min 0xFFFFFFFF ((s.reg w off).toNat + n)

/-- The drop of a packet under a diagnostic counter, as Sheaf is told of it (R366). -/
def dropReport (tenant : Nat) (ts : Word64) (diag bytes : Nat) : Report := ⟨tenant, ts, [(diag, 1), (dropClass diag, 1), (18, bytes)], none⟩

/-- Every packet but one is as it was. -/
def OtherPackets (s u : State) (p : Nat) : Prop := ∀ x, x ≠ p → u.packet x = s.packet x

/-- Every register is as it was but those of some windows. -/
def OtherWindows (s u : State) (ws : List Nat) : Prop := ∀ x o, x ∉ ws → o < 65536 → u.reg x o = s.reg x o

/-! ### Ling (04) -/

/-- Block x has no command in progress, and Ling takes one on an enabled database in which nothing moves. -/
def LingIdle (s : State) (x d : Nat) : Prop :=
  s.blockCmds x = [] ∧ s.inService lingWin = true ∧ s.dbBanks d ≠ 0 ∧ s.dbBusy d = false

/-- No waiting work of class c stands before the next on resource r, and its tokens there suffice (R421). -/
def HasTokens (s : State) (c r n : Nat) : Prop := s.tokensHeld c r = 0 ∧ n ≤ s.tokensLeft c r

/-- Of the block, a Ling command changes Ling, its counters and registers, its tokens in Commons and the codewords it wrote. -/
def OnlyLing (s u : State) : Prop :=
  u = { s with ling := u.ling, regs := u.regs, commons := u.commons, mower := u.mower } ∧ OtherWindows s u [lingWin, commonsWin, mowerWin]

/-- Block x's command has completed, with a result, an index and a number of moves. -/
def LingEnds (u : State) (x result index moves : Nat) : Prop :=
  u.blockCmds x = [] ∧ u.rf lingWin (blockBase x + 0xB4) 31 31 = 0 ∧ u.rf lingWin (blockBase x + 0xB4) 7 0 = result ∧
  u.rf lingWin (blockBase x + 0xB8) 14 0 = index % 32768 ∧ u.rf lingWin (blockBase x + 0xB8) 31 16 = moves % 65536

/-- No codeword of an entry's shadows and action word is in error. -/
def CleanEntry (s : State) (d e : Nat) : Prop :=
  ∀ k, k < s.dbRows d →
    let p := s.dbPlace d (s.dbRows d * e + k)
    s.errsIn (lingBankWin (s.lingPos p.1)) 0 (48 * p.2) 48 = [] ∧ s.errsIn (lingBankWin (s.lingPos p.1)) 1 (16 * p.2) 16 = []

/-- Every row and action word is as it was, but in the rows of entry e of database d, at the positions that serve its slot. -/
def OtherRows (s u : State) (d e : Nat) : Prop :=
  let p := s.dbPlace d (s.dbRows d * e)
  ∀ pos r, r < 4096 → pos ∉ s.writePositions p.1 ∨ r < p.2 ∨ p.2 + s.dbRows d ≤ r →
    u.lingRow pos r = s.lingRow pos r ∧ u.lingAct pos r = s.lingAct pos r

/-- Entry f is the nearest free one after entry p of a database, or the nearest before it (R107). -/
def FreeDown (s : State) (d p f : Nat) : Prop :=
  p < f ∧ f < s.dbEntries d ∧ s.entryValid d f = false ∧ ∀ e, p < e → e < f → s.entryValid d e = true
def FreeUp (s : State) (d p f : Nat) : Prop :=
  f < p ∧ s.entryValid d f = false ∧ ∀ e, f < e → e < p → s.entryValid d e = true

/-- The command that a go of block x captures (R103). -/
def capturedOf (s : State) (x op dir d index : Nat) : LingCmd :=
  let b := blockBase x
  ⟨op, dir, d, index, BitVec.ofNat 640 (s.blockWords b 20), BitVec.ofNat 640 (s.blockWords (b + 0x50) 20),
    BitVec.ofNat 128 (s.blockWords (b + 0xA0) 4), none, !s.inService lingWin⟩

/-! ### Warren (05) -/

/-- Bucket b of table t is in reach: pinned and read without an error, or cached whole; no bucket is cached twice (R122). -/
def Reach (s : State) (t b : Nat) : Prop :=
  s.warren.lines.Pairwise (fun l l' => l.table ≠ l'.table ∨ l.addr ≠ l'.addr) ∧
  (s.wtPlace t = 3 ∧ (s.errsIn warrenWin 0 (s.wtAddr t b) (4 * s.wtSize t)).filter EccErr.shows = [] ∨
    s.wtPlace t ≠ 0 ∧ s.wtPlace t ≠ 3 ∧ ∃ l, s.wLine (decide (s.wtPlace t = 2)) (s.wtAddr t b) = some l ∧ l.data.length = 4 * s.wtSize t)

/-- A way holds a key: it is valid and its key bytes are those (R117). -/
def WayHolds (s : State) (t b w : Nat) (key : List Byte) : Prop :=
  w < 4 ∧ entFlag (s.way t b w) 0 = true ∧ bytesAt (s.way t b w) 0x20 (s.wtKeyLen t) = key

/-- No way of the candidate buckets of a key holds it; or one does, with its check code, and it alone. -/
def KeyAbsent (s : State) (t : Nat) (key : List Byte) : Prop :=
  ∀ b w, b = (s.candidates t key).1 ∨ b = (s.candidates t key).2 → ¬ WayHolds s t b w key
def KeyAt (s : State) (t : Nat) (key : List Byte) (b w : Nat) : Prop :=
  (b = (s.candidates t key).1 ∨ b = (s.candidates t key).2) ∧ WayHolds s t b w key ∧
  leNat (bytesAt (s.way t b w) 4 4) = entCheck t b (s.way t b w) ∧
  ∀ b' w', b' = (s.candidates t key).1 ∨ b' = (s.candidates t key).2 → WayHolds s t b' w' key → b' = b ∧ w' = w

/-- An entry as a write stores it: with the check code of its place (R119). -/
def checked (t b : Nat) (e : List Byte) : List Byte := patchBytes e 4 (leBytes 4 (entCheck t b e))

/-- Every way of a table is as it was, or every way but one. -/
def SameWays (s u : State) (t : Nat) : Prop := ∀ b w, w < 4 → u.way t b w = s.way t b w
def OtherWays (s u : State) (t b w : Nat) : Prop := ∀ b' w', w' < 4 → (b', w') ≠ (b, w) → u.way t b' w' = s.way t b' w'

/-- The command of block e is done, with x; it waits for WARREN_CMD_DONE. -/
def WarrenEnds (u : State) (e : Nat) (x : WarrenEnd) : Prop := ∃ j, u.wQueue e = [j] ∧ j.ended = some x ∧ j.owns = []

/-- Of the block, a command of engine block e changes Warren, its counters and registers, the tokens in Commons and the codewords
it wrote; and no other block's command. -/
def OnlyWarren (s u : State) (e : Nat) : Prop :=
  u = { s with warren := u.warren, regs := u.regs, commons := u.commons, mower := u.mower } ∧
  OtherWindows s u [warrenWin, warrenEngineWin e, commonsWin, mowerWin] ∧
  ∀ k, k < 5 → k ≠ e → u.wQueue k = s.wQueue k

/-- Block e takes a command on an enabled table at once: it has none, its engine is in service, and no other writer owns the buckets or
came before it for them (R125, R126, R144). -/
def WarrenIdle (s : State) (e t : Nat) (bs : List Nat) : Prop :=
  s.wQueue e = [] ∧ s.inService (warrenEngineWin e) = true ∧ s.wtPlace t ≠ 0 ∧ s.wConflict e t bs = false

/-! ### Drover, ports and Finisher (12, 13) -/

/-- The drop of an output under a diagnostic counter, as Sheaf is told of it (R326, R358, R366). -/
def outDropReport (s : State) (d : OutDesc) (diag : Nat) (len : Int) : Report :=
  ⟨d.tenant, d.ts, [(diag, 1), (dropClass diag, 1), (18, (BitVec.ofInt 64 len).toNat)], s.rickFlow d.md⟩

/-- The head of a node's ring has a deficit above zero: R329 takes it. -/
def TakesChild (s : State) (k c : Nat) : Prop := ∃ d, ringHead (s.ring k) = some (c, d) ∧ 0 < d.deficit

/-- A frame as it goes out: padded to 60 bytes, with its FCS (R343). -/
def onWire (f : List Byte) : List Byte :=
  let g := if f.length < 60 then fitBytes f 60 else f
  g ++ leBytes 4 (crc32 g)

/-- The operations of an edit script that change the frame: the output after the operation (R354). -/
def editRow (x : Output) : Instr → Option (Nat × Nat × Output)
  | .editEnd o => some (o, 0, x)
  | .editDelete o => some (o, 1, { x with frame := x.frame.take x.off ++ x.frame.drop (x.off + x.opLen) })
  | .editInsert o => some (o, 2, { x with frame := x.frame.take x.off ++ x.data ++ x.frame.drop x.off })
  | .editReplace o => some (o, 3, { x with frame := patchBytes x.frame x.off x.data })
  | .editCsumDiff o =>
    let hc := beNat (bytesAt x.frame x.off 2)
    let d := leNat x.data % 65536
    let udp := (leNat x.data).testBit 16
    let sum := 0xFFFF - onesFold 4 (0xFFFF - hc + d)
    some (o, 4, { x with frame := patchBytes x.frame x.off (beBytes 2 (if udp ∧ hc = 0 then 0 else if udp ∧ sum = 0 then 0xFFFF else sum)) })
  | .editIpv4Csum o =>
    let n := 4 * ((byteAt x.frame x.off).toNat % 16)
    some (o, 5, if n < 20 ∨ min x.frame.length 768 < x.off + n then x
      else { x with frame := patchBytes x.frame (x.off + 10) (beBytes 2 (0xFFFF - onesSum 0 (patchBytes (bytesAt x.frame x.off n) 10 [0, 0]))) })
  | .editTstamp o => some (o, 6, { x with tstamp := some (x.opLen, x.off, leNat x.data % 65536) })
  | .editTruncate o => some (o, 7, { x with frame := x.frame.take x.off })
  | .editRecirc o => some (o, 8, { x with recirc := some (x.off % 128) })
  | _ => none

/-! ### Sheaf and the memory controllers (14, 15) -/

/-- What a report adds to counter i. -/
def addedBy (r : Report) (i : Nat) : Nat := sumOf (r.adds.filter (fun a => a.1 = i)) (fun a => a.2)

/-- A report has been counted in bank b, and, late, in counter 23 (R361). -/
def CountedReport (s u : State) (r : Report) (b late : Bool) : Prop :=
  (∀ t i, i < 64 → u.sheafCounter b t i = s.sheafCounter b t i +
    (if t = r.tenant then BitVec.ofNat 64 (addedBy r i + if late ∧ i = 23 then 1 else 0) else 0)) ∧
  (∀ t i, u.sheafCounter (!b) t i = s.sheafCounter (!b) t i) ∧
  (u.reg sheafWin 0x180).toNat = min 0xFFFFFFFF ((s.reg sheafWin 0x180).toNat + r.adds.length)

/-- An item of a unit's own state has no codeword in error (R405). -/
def CleanItem (s : State) (w inst item : Nat) : Prop := s.errsIn w inst (Config.stateAddr (128 * w + inst) item) 16 = []

/-- No codeword of an access is in error. -/
def CleanAccess (s : State) (table : Bool) (a len : Nat) : Prop :=
  ∀ p, some p ∈ s.allPieces table a len → s.errsIn p.win p.inst p.addr p.len = []

/-- Every byte of a memory is as it was, but for n of them from a up: those of table memory by the channel addresses that the access maps to
(R382). -/
def OtherBytes (s u : State) (table : Bool) (a n : Nat) : Prop :=
  if table then
    u.mem.buffer = s.mem.buffer ∧ ∀ c, (∀ p, some p ∈ s.allPieces true a n → c < tableCell p.win p.addr ∨ tableCell p.win p.addr + p.len ≤ c) →
      Memory.read u.mem.table c = Memory.read s.mem.table c
  else u.mem.table = s.mem.table ∧ ∀ c, c < a ∨ a + n ≤ c → Memory.read u.mem.buffer c = Memory.read s.mem.buffer c

/-- No two pieces of an access to table memory share a byte of a channel. -/
def Apart (s : State) (table : Bool) (a n : Nat) : Prop :=
  table = true → ((s.allPieces true a n).filterMap id).Pairwise (fun p q =>
    tableCell p.win p.addr + p.len ≤ tableCell q.win q.addr ∨ tableCell q.win q.addr + q.len ≤ tableCell p.win p.addr)

/-- No channel of an access is in self-refresh. -/
def Awake (s : State) (table : Bool) (a n : Nat) : Prop := ∀ p, some p ∈ s.allPieces table a n → (s.chan p.win).selfRefresh = none

/-- A unit's request goes at once: none of its source waits, its channels are in service and awake, and a write has room (R384, R389,
R390, R398). -/
def UnitReady (s : State) (src : UnitSrc) (table write : Bool) (a n : Nat) : Prop :=
  s.memWaiting (unitNo src) = [] ∧ s.memAvail table a n = .ok ∧ Awake s table a n ∧
  (write = true → n ≤ s.writeFits table a n)
/-! ### Mailbox commands (18) -/

/-- Sender f's one command is t, of opcode op and not begun; Spine serves it and its host is in reach; cases 1 to 5 of R443 pass it. -/
def Asks (s : State) (f op : Nat) (t : Taken) : Prop :=
  (s.func f).taken = [t] ∧ t.bad = false ∧ cmdOpcode t.entry = op ∧ t.phase = 0 ∧ s.spineServes = true ∧ (f = 64 ∨ s.hostUp = true) ∧
  s.preCheck f t = none

/-- Sender f's one command is t, of opcode op, begun before and now in a later phase; its tenant still allows it. -/
def GoesOn (s : State) (f op : Nat) (t : Taken) (phase : Nat) (notes : List Nat) : Prop :=
  (s.func f).taken = [t] ∧ t.bad = false ∧ cmdOpcode t.entry = op ∧ t.phase = phase ∧ t.notes = notes ∧ 0 < phase ∧ s.spineServes = true ∧
  (f = 64 ∨ s.hostUp = true) ∧ s.tenantOk f t.entry = true

/-- The same of function 0, where Spine runs its ROM and no Folio (R499): its one command is t, of opcode op, in a phase with what it noted; a
command that begins passes the checks and is one that the ROM performs. -/
def AtRom (s : State) (op : Nat) (t : Taken) (phase : Nat) (notes : List Nat) : Prop :=
  (s.func 0).taken = [t] ∧ t.bad = false ∧ cmdOpcode t.entry = op ∧ t.phase = phase ∧ t.notes = notes ∧ s.spineServes = false ∧ s.spine.rom = true ∧
  s.hostUp = true ∧ s.checkNow 0 t = none

/-- Sender f's command has not been answered: it is in a phase, with what it noted. -/
def Waits (u : State) (f : Nat) (t : Taken) (phase : Nat) (notes : List Nat) : Prop :=
  (u.func f).taken = [{ t with phase := phase, notes := notes }]

/-- The entry of the response ring that sender f's next response goes into. -/
def slotAt (s : State) (f : Nat) : Nat := (s.func f).rspBase.toNat + 256 * ((s.func f).rspTail % 2 ^ (s.func f).rspLog)

/-- State u is v with sender f's one command t answered by r (R441, R466): the command is gone, the response stands in the next entry of the
response ring, the tail has advanced, the extended buffer holds what it was given, and the event is raised; a response on the board controller's path stands
in its own buffer. Nothing else differs. -/
def Responds (v u : State) (f : Nat) (t : Taken) (r : Reply) : Prop :=
  u = { v with funcs := u.funcs, ev := { v.ev with raised := v.ev.raised ++ [if f = 64 then 869 else 512 + f] },
               spine := { v.spine with host := u.spine.host, bmcResp := u.spine.bmcResp, bmcBuf := u.spine.bmcBuf } } ∧
  (u.func f).taken = [] ∧ (∀ g, g ≠ f → u.func g = v.func g) ∧
  (f = 64 → u.spine.host = v.spine.host ∧ u.spine.bmcResp = responseBytes t.entry r ∧
    u.spine.bmcBuf = (if r.ext = [] then v.spine.bmcBuf else r.ext)) ∧
  (f ≠ 64 → u.spine.bmcResp = v.spine.bmcResp ∧ u.spine.bmcBuf = v.spine.bmcBuf ∧
    (u.func f).rspTail = ((v.func f).rspTail + 1) % 65536 ∧ u.hostRead (slotAt v f) 256 = fitBytes (responseBytes t.entry r) 256 ∧
    (∀ a, a < slotAt v f ∨ slotAt v f + 256 ≤ a → a < cmdBuf t.entry ∨ cmdBuf t.entry + r.ext.length ≤ a →
      Memory.read u.spine.host a = Memory.read v.spine.host a) ∧
    (cmdBuf t.entry + r.ext.length ≤ slotAt v f ∨ slotAt v f + 256 ≤ cmdBuf t.entry → u.hostRead (cmdBuf t.entry) r.ext.length = r.ext))

/-- The answer that carries bytes: inline where they fit, else in the extended buffer (R441, R465); and whether the buffer, where it is needed, holds
them. -/
def asReply (f : Nat) (ext : Bool) (b : List Byte) : Reply :=
  if !ext && decide (b.length ≤ (if f = 64 then 96 else 224)) then ⟨0, b, [], 0⟩ else ⟨0, [], b, 0⟩
def Fits (f : Nat) (t : Taken) (r : Reply) : Prop := r.ext = [] ∨ r.ext.length ≤ (if f = 64 then 65536 else cmdBufLen t.entry)

/-- The mailbox commands: sender and opcode (command set 1.0). -/
def mailRows : Instr → List (Nat × Nat)
  | .getInfo f => [(f.val, 0x0101)]
  | .getState f => [(f.val, 0x0102)]
  | .qpCreate f => [(f.val, 0x0103)]
  | .qpDestroy f => [(f.val, 0x0104)]
  | .qpAssign f => [(f.val, 0x0105)]
  | .dmaWindowSet f => [(f.val, 0x0106)]
  | .funcBind f => [(f.val, 0x0107)]
  | .creditSet f => [(f.val, 0x0108)]
  | .bmcBufRead f => [(f.val, 0x0109)]
  | .ucbCommand f => [(f.val, 0x0201)]
  | .ucbRead f => [(f.val, 0x0202)]
  | .regRead f => [(f.val, 0x0203)]
  | .regWrite f => [(f.val, 0x0204)]
  | .mbBindSpare f => [(f.val, 0x0205)]
  | .portSet f => [(f.val, 0x0301)]
  | .portGet f => [(f.val, 0x0302)]
  | .mbPortRecal f => [(f.val, 0x0303)]
  | .portTest f => [(f.val, 0x0304)]
  | .macsecSet f => [(f.val, 0x0305)]
  | .imageStage f => [(f.val, 0x0401)]
  | .imageRelease f => [(f.val, 0x0402)]
  | .imageList f => [(f.val, 0x0403)]
  | .sheetRoll f => [(f.val, 0x0404)]
  | .graphLoad f => [(f.val, 0x0501)]
  | .classWrite f => [(f.val, 0x0502)]
  | .lingCommand f => [(f.val, 0x0503)]
  | .blockAssign f => [(f.val, 0x0504), (f.val, 0x0604)]
  | .warrenCommand f => [(f.val, 0x0601)]
  | .tableSet f => [(f.val, 0x0602)]
  | .warrenSet f => [(f.val, 0x0603)]
  | .nodeSet f => [(f.val, 0x0701)]
  | .nodeGet f => [(f.val, 0x0702)]
  | .policerSet f => [(f.val, 0x0703)]
  | .queueStats f => [(f.val, 0x0704)]
  | .queueFlush f => [(f.val, 0x0705)]
  | .pfcSet f => [(f.val, 0x0706)]
  | .recordGet f => [(f.val, 0x0801)]
  | .proofGet f => [(f.val, 0x0802)]
  | .counterGet f => [(f.val, 0x0803)]
  | .rickGet f => [(f.val, 0x0804)]
  | .ledgerSet f => [(f.val, 0x0805)]
  | .wrapKeys f => [(f.val, 0x0901)]
  | .keyInstall f => [(f.val, 0x0902)]
  | .keyRevoke f => [(f.val, 0x0903)]
  | .keyList f => [(f.val, 0x0904)]
  | .attest f => [(f.val, 0x0A01)]
  | .ownerEnrol f => [(f.val, 0x0A02)]
  | .debugEnable f => [(f.val, 0x0A03)]
  | .securityGet f => [(f.val, 0x0A04)]
  | .sensorRead f => [(f.val, 0x0B01)]
  | .eccLogGet f => [(f.val, 0x0B02)]
  | .repairRecord f => [(f.val, 0x0B03)]
  | .channelRetrain f => [(f.val, 0x0B04)]
  | .eventRoute f => [(f.val, 0x0C01)]
  | .eventRaise f => [(f.val, 0x0C02)]
  | .eventGet f => [(f.val, 0x0C03)]
  | .timeGet f => [(f.val, 0x0D01)]
  | .timeAdjust f => [(f.val, 0x0D02)]
  | .timeSource f => [(f.val, 0x0D03)]
  | _ => []

/-- The commands that only answer: sender, opcode, the bytes they answer, and whether these go into the extended buffer whatever their length. -/
def readRow (s : State) (t : Taken) : Instr → Option (Nat × Nat × List Byte × Bool)
  | .getInfo f => some (f.val, 0x0101, leBytes 2 0x3200 ++ leBytes 2 0x00B0 ++ leBytes 1 s.variant.toNat ++ leBytes 1 f.val
      ++ leBytes 2 ((s.func f.val).bound.getD 0) ++ leBytes 4 ((s.spine.folio.map Image.version).getD 0) ++ leBytes 2 0x0100, false)
  | .getState f => some (f.val, 0x0102, leBytes 1 (s.reported deviceWin).1.code ++ leBytes 1 (bit s.spine.slotB) ++ leBytes 8 s.time.cycles, false)
  | .bmcBufRead f => if t.pay 0 4 < s.spine.bmcBuf.length then some (f.val, 0x0109, (s.spine.bmcBuf.drop (t.pay 0 4)).take 96, false) else none
  | .imageList f => some (f.val, 0x0403, (s.trust.images.take 32).flatMap (fun e => leBytes 2 e.1 ++ leBytes 1 e.2.kind ++ leBytes 4 e.2.version), false)
  | .nodeGet f => if t.pay 0 1 < 5 ∧ t.pay 1 3 < nodeCount (t.pay 0 1) then
      some (f.val, 0x0702, leBytes 32 (s.nodeEntry (nodeKey (t.pay 0 1) (t.pay 1 3))).toNat, false) else none
  | .queueStats f => if t.pay 4 1 = 0 ∧ t.pay 0 4 < 131072 ∧
        (f.val = 0 ∨ (s.func f.val).bound = some (s.nodeBits (s.queueTenantNode (t.pay 0 4)) 205 192)) then
      some (f.val, 0x0704, leBytes 32 (s.statsEntry (t.pay 0 4)).toNat, false) else none
  | .counterGet f =>
    let tenant := s.actingTenant f.val (t.pay 0 2)
    if t.pay 2 1 = 0 then some (f.val, 0x0803, (List.range 64).flatMap (fun i => leBytes 8 (s.sheafCounter s.sheaf.curBank tenant i).toNat), true)
    else if t.pay 2 1 = 1 ∧ s.sheaf.prev.isSome = true then
      some (f.val, 0x0803, (List.range 64).flatMap (fun i => leBytes 8 (s.sheafCounter (!s.sheaf.curBank) tenant i).toNat), true)
    else none
  | .rickGet f => match SMap.find s.sheaf.cache (s.rickSlot (t.pay 0 4) (t.pay 4 4)) with
    | some v => if t.pay 0 4 < s.rf sheafWin 0x200 22 16 * 1048576 ∧ s.rf sheafWin 0x200 28 24 ≠ 0 ∧ rickBits v 31 0 = t.pay 4 4 ∧
          (f.val = 0 ∨ (s.func f.val).bound = some (rickBits v 47 32)) then some (f.val, 0x0804, leBytes 32 v.toNat, false) else none
    | none => none
  | .wrapKeys f => some (f.val, 0x0901, Config.wrapChain, true)
  | .keyList f => some (f.val, 0x0904, (((s.heldKeys (if f.val = 0 then none else (s.func f.val).bound)).filter (fun e => decide (t.pay 0 2 ≤ e.1))).take 64).flatMap
      (fun e => leBytes 2 e.1 ++ leBytes 2 e.2.1.1 ++ leBytes 1 e.2.1.2.1 ++ leBytes 4 e.2.2 ++
        (sha384 (3 :: (leBytes 2 e.2.1.1 ++ e.2.1.2.2))).take 8), false)
  | .securityGet f => some (f.val, 0x0A04, leBytes 1 s.trust.sec.code ++ (List.range 16).map (fun c => BitVec.ofNat 8 (s.counter c)), false)
  | .sensorRead f =>
    if t.pay 0 2 < 33 then
      some (f.val, 0x0B01, leBytes 4 (if t.pay 0 2 = 0 then s.board.hottest else s.board.sites.getD (t.pay 0 2 - 1) 0).toNat ++ [0], false)
    else if t.pay 0 2 < 41 then some (f.val, 0x0B01, leBytes 4 (s.board.volts.getD (t.pay 0 2 - 33) 0) ++ [1], false)
    else none
  | .eccLogGet f => if t.pay 0 2 < 430 ∧ (s.memInstance (t.pay 0 2) (t.pay 2 1)).isSome = true ∧ t.pay 3 1 < 10 then
      some (f.val, 0x0B02, s.logBytes (t.pay 0 2) (t.pay 2 1) (t.pay 3 1), false) else none
  | .eventGet f => if t.pay 0 2 < 1024 then
      some (f.val, 0x0C03, leBytes 4 (s.reg spineWin (0x1000 + 4 * t.pay 0 2)).toNat ++ leBytes 4 (s.reg spineWin (0x2000 + 4 * t.pay 0 2)).toNat
        ++ leBytes 1 (bit (s.evStatus (t.pay 0 2))) ++ leBytes 1 (bit (s.evMasked (t.pay 0 2))), false) else none
  | .timeGet f => some (f.val, 0x0D01, leBytes 8 s.time.ns.toNat ++ leBytes 1 s.sheaf.utc ++ leBytes 1 s.sync, false)
  | _ => none

/-- The commands that read registers: sender, opcode, the registers in the order of the answer, and the bytes answered of the bytes they read. -/
def regReadRow (t : Taken) : Instr → Option (Nat × Nat × List (Nat × Nat) × (List Byte → List Byte))
  | .ucbRead f => (winOfPath t 0).map (fun w => (f.val, 0x0202, (List.range 16).map (fun k => (w, 4 * k)), fun b => b))
  | .regRead f => if t.pay 0 2 < 430 ∧ t.pay 2 2 % 4 = 0 ∧ 0 < t.pay 4 1 ∧ t.pay 4 1 ≤ 32 ∧ t.pay 2 2 + 4 * t.pay 4 1 ≤ 65536 then
      some (f.val, 0x0203, (List.range (t.pay 4 1)).map (fun k => (t.pay 0 2, t.pay 2 2 + 4 * k)), fun b => b) else none
  | .portGet f => if t.pay 0 1 < 32 then
      some (f.val, 0x0302, (portWin (t.pay 0 1), 0x104) :: (List.range 15).map (fun k => (portWin (t.pay 0 1), 0x200 + 4 * k)),
        fun b => b.take 4 ++ (List.range 15).flatMap (fun k => bytesAt b (4 + 4 * k) 4 ++ [0, 0, 0, 0])) else none
  | _ => none

/-- The commands that write registers: sender, opcode, when they do, and the registers with their values in the order written. -/
def regWriteRow (s : State) (t : Taken) : Instr → Option (Nat × Nat × Prop × List (Nat × Nat × Word32))
  | .regWrite f => some (f.val, 0x0204, t.pay 0 2 < 430 ∧ t.pay 2 2 % 4 = 0 ∧ 0 < t.pay 4 1 ∧ t.pay 2 2 + 4 * t.pay 4 1 ≤ 65536 ∧
        cmdLength t.entry = 5 + 4 * t.pay 4 1 ∧ (∀ k, k < t.pay 4 1 → regDenied (t.pay 0 2, t.pay 2 2 + 4 * k) = false),
      (List.range (t.pay 4 1)).map (fun k => (t.pay 0 2, t.pay 2 2 + 4 * k, BitVec.ofNat 32 (t.pay (5 + 4 * k) 4))))
  | .portSet f => some (f.val, 0x0301, t.pay 0 1 < 32 ∧ t.pay 1 1 < 16 ∧ t.pay 2 1 < 2 ∧ t.pay 3 2 < 16384 ∧ s.portState (t.pay 0 1) = .off,
      [(portWin (t.pay 0 1), 0x100, BitVec.ofNat 32 (t.pay 1 1 * 2 ^ 28 + t.pay 2 1 * 2 ^ 27 + t.pay 3 2))])
  | .portTest f => some (f.val, 0x0304, t.pay 0 1 < 32 ∧ (s.portState (t.pay 0 1) = .quiet ∨ s.portState (t.pay 0 1) = .off ∨
        (fld (BitVec.ofNat 32 (t.pay 1 4)) 31 30 = 0 ∧ fld (BitVec.ofNat 32 (t.pay 1 4)) 26 25 = 0)),
      [(portWin (t.pay 0 1), 0x108, BitVec.ofNat 32 (t.pay 1 4))])
  | .macsecSet f => some (f.val, 0x0305, t.pay 0 1 < 32 ∧ t.pay 1 1 < 2 ∧ t.pay 2 1 < 2 ∧ t.pay 3 1 < 4 ∧ t.pay 4 4 < 2 ^ 28,
      [(portWin (t.pay 0 1), 0x120, BitVec.ofNat 32 (t.pay 1 1 * 2 ^ 31 + t.pay 2 1 * 2 ^ 30 + t.pay 3 1 * 2 ^ 28 + t.pay 4 4))])
  | .classWrite f => match classTarget (t.pay 0 1) with
    | some (n, size, some (base, stride)) => some (f.val, 0x0502, t.pay 1 4 < n ∧ (cmdLength t.entry = 5 + size ∨ (t.pay 0 1 = 0 ∧ cmdLength t.entry = 53)),
        (List.range (min size 48 / 4)).map (fun k => (windrowWin, base + stride * t.pay 1 4 + 4 * k, BitVec.ofNat 32 (t.pay (5 + 4 * k) 4))))
    | _ => none
  | .warrenSet f => some (f.val, 0x0603, True, (List.range 3).map (fun k => (warrenWin, 0x100 + 4 * k, BitVec.ofNat 32 (t.pay (4 * k) 4))))
  | .pfcSet f => some (f.val, 0x0706, t.pay 0 1 < 32, [(droverWin, 0x400 + 4 * t.pay 0 1, BitVec.ofNat 32 (t.pay 1 4))])
  | .eventRoute f => some (f.val, 0x0C01, t.pay 0 2 < 1024,
      [(spineWin, 0x1000 + 4 * t.pay 0 2, BitVec.ofNat 32 (t.pay 2 4)), (spineWin, 0x2000 + 4 * t.pay 0 2, BitVec.ofNat 32 (t.pay 6 4))])
  | _ => none

/-- The commands that act and answer OK without content: sender, opcode, when they do, and the state v that they leave before they are
answered. -/
def actRow (s : State) (t : Taken) (v : State) : Instr → Option (Nat × Nat × Prop × Prop)
  | .qpCreate f =>
    let q := t.pay 0 2
    let kind := t.pay 2 1
    some (f.val, 0x0103, q < 256 ∧ (s.qp q).owner = some f.val ∧ (s.qp q).kind = 0 ∧
        (kind = 1 ∨ kind = 2 ∨ (kind = 3 ∧ f.val = 0 ∧ t.pay 3 1 < 24)) ∧ t.pay 20 1 < 16 ∧ t.pay 21 1 < 16 ∧ t.pay 22 1 < 128,
      v = { s with qps := v.qps } ∧ (∀ k, k ≠ q → v.qp k = s.qp k) ∧
        v.qp q = ⟨some f.val, kind, t.pay 3 1, BitVec.ofNat 64 (t.pay 4 8), BitVec.ofNat 64 (t.pay 12 8), t.pay 20 1, t.pay 21 1, t.pay 22 1,
          t.pay 23 2, 0, 0, 0, 0, false, [], none⟩)
  | .qpDestroy f =>
    let q := t.pay 0 2
    let x := s.qp q
    some (f.val, 0x0104, q < 256 ∧ x.owner = some f.val ∧ (x.kind = 1 ∨ x.kind = 2) ∧ s.nextDesc q = none,
      v.qp q = { QpSt.zero with owner := some f.val } ∧ (∀ k, k ≠ q → v.qp k = s.qp k) ∧ v.regs = s.regs ∧ v.funcs = s.funcs ∧
        (x.descs = [] → v.spine = s.spine) ∧
        (∀ d, x.descs = [d] → d.ended = none → x.room ≠ 0 →
          v.hostRead (x.cqBase.toNat + 16 * (x.written % 2 ^ x.cqLog)) 16 =
            leBytes 2 d.index ++ [4, if x.written.testBit x.cqLog then 0 else 1] ++ leBytes 4 0 ++ leBytes 4 d.cookie ++ leBytes 4 0))
  | .qpAssign f =>
    let first := t.pay 0 2
    let n := t.pay 2 2
    some (f.val, 0x0105, first < 256 ∧ first + n ≤ 256 ∧ t.pay 4 1 < 64 ∧ (∀ q, first ≤ q → q < first + n → (s.qp q).kind = 0),
      v = { s with qps := v.qps } ∧
        ∀ q, v.qp q = if first ≤ q ∧ q < first + n then { QpSt.zero with owner := some (t.pay 4 1) } else s.qp q)
  | .dmaWindowSet f =>
    let g := t.pay 0 1
    let i := t.pay 1 1
    let w : DmaWin := ⟨t.pay 2 1, t.pay 3 1, t.pay 4 8, t.pay 12 8⟩
    some (f.val, 0x0106, g < 64 ∧ i < 16 ∧ (w.space = 1 ∧ w.base + w.size ≤ 0xC00000000 ∨ w.space = 2 ∧ w.base + w.size ≤ s.tmPopulated) ∧
        bitsOf w.flags 6 2 = 0 ∧ (w.flags.testBit 7 = true → s.dmaForbidden w.space w.base w.size = false),
      v = { s with funcs := v.funcs } ∧ (∀ h, h ≠ g → v.func h = s.func h) ∧ v.func g = { s.func g with windows := (v.func g).windows } ∧
        SMap.find (v.func g).windows i = some w ∧ ∀ j, j ≠ i → SMap.find (v.func g).windows j = SMap.find (s.func g).windows j)
  | .funcBind f =>
    let g := t.pay 0 1
    let tenant := t.pay 1 2
    some (f.val, 0x0107, 0 < g ∧ g < 64 ∧ tenant < 16384 ∧
        (t.pay 3 1 = 1 ∧ (∀ h, h < 64 → (s.func h).bound ≠ some tenant) ∧ (s.func g).bound = none ∨ t.pay 3 1 = 0 ∧ (s.func g).bound = some tenant),
      v = { s with funcs := v.funcs } ∧ (∀ h, h ≠ g → v.func h = s.func h) ∧
        v.func g = { s.func g with bound := if t.pay 3 1 = 1 then some tenant else none })
  | .creditSet f =>
    let g := t.pay 0 1
    some (f.val, 0x0108, g < 64 ∧ 0 < t.pay 1 1 ∧ t.pay 1 1 ≤ 64,
      v = { s with funcs := v.funcs } ∧ (∀ h, h ≠ g → v.func h = s.func h) ∧ v.func g = { s.func g with credits := t.pay 1 1 })
  | .imageRelease f =>
    let h := t.pay 0 2
    some (f.val, 0x0402, (s.staged h).isSome = true ∧ (∀ w, w < 430 → s.rf w 0x30 31 24 = 0 ∨ s.rf w 0x30 15 0 ≠ h),
      v = { s with trust := { s.trust with images := v.trust.images } } ∧ v.staged h = none ∧ ∀ k, k ≠ h → v.staged k = s.staged k)
  | .blockAssign f =>
    let x := t.pay 0 1
    let h := t.pay 1 1
    if cmdOpcode t.entry = 0x0604 then
      some (f.val, 0x0604, x < 4 ∧ (h < 64 ∨ h = 255) ∧ s.wQueue x = [], v = { s with warren := { s.warren with holders := v.warren.holders } } ∧
        v.warrenHolder x = h ∧ ∀ y, y ≠ x → v.warrenHolder y = s.warrenHolder y)
    else some (f.val, 0x0504, x < 4 ∧ (h < 64 ∨ h = 255) ∧ s.blockCmds x = [], v = { s with ling := { s.ling with holders := v.ling.holders } } ∧
        v.lingHolder x = h ∧ ∀ y, y ≠ x → v.lingHolder y = s.lingHolder y)
  | .nodeSet f =>
    let level := t.pay 0 1
    let k := nodeKey level (t.pay 1 3)
    let e : BitVec 256 := BitVec.ofNat 256 (t.pay 4 32)
    some (f.val, 0x0701, level < 5 ∧ t.pay 1 3 < nodeCount level ∧ s.nodeRejects level k e = false,
      v = { s with drover := v.drover } ∧ v.nodeEntry k = BitVec.ofNat 256 (e.toNat &&& nodeMask level) ∧
        ∀ j, j ≠ k → v.nodeEntry j = s.nodeEntry j)
  | .policerSet f =>
    let i := t.pay 0 4
    let e : BitVec 256 := BitVec.ofNat 256 (t.pay 4 16)
    some (f.val, 0x0703, i < 1048576 ∧ polRejects e = false,
      v = { s with drover := v.drover } ∧ (∀ j, j ≠ i → v.polEntry j = s.polEntry j) ∧
        ∀ p ∈ [(19, 0), (51, 32), (87, 64), (88, 88), (119, 96)], entBits (v.polEntry i) p.1 p.2 = entBits e p.1 p.2)
  | .queueFlush f => some (f.val, 0x0705, t.pay 0 4 < 131072, execDroverFlush (BitVec.ofNat 17 (t.pay 0 4)) s = .next v)
  | .ledgerSet f =>
    let w (k off : Nat) : Nat × Nat × Word32 := (sheafWin, off, BitVec.ofNat 32 (t.pay (4 * k) 4))
    let ws := [w 0 0x100, w 2 0x108, w 1 0x104, w 5 0x208, w 4 0x204, w 3 0x200]
    some (f.val, 0x0805, (s.setRegs ws).1 = true, v = (s.setRegs ws).2)
  | .tableSet f =>
    let n := t.pay 0 1
    let o := 0x1000 + 0x100 * n
    let r (off at0 n : Nat) : List (Nat × Nat × Word32) := (List.range n).map (fun k => (warrenWin, o + off + 4 * k, BitVec.ofNat 32 (t.pay (at0 + 4 * k) 4)))
    let ws := r 0 1 3 ++ r 0x10 13 4 ++ r 0x20 29 4
    some (f.val, 0x0602, n < 16 ∧ s.heldInReset = false ∧ (∀ e ∈ ws, regLegal e.1 e.2.1 e.2.2 = true) ∧
        s.tableOk n (BitVec.ofNat 32 (t.pay 1 4)) (BitVec.ofNat 32 (t.pay 5 4 % 2 ^ 30)) = true,
      v = ws.foldl State.putReg s)
  | .keyRevoke f =>
    let slot := t.pay 1 2
    let n := t.pay 3 1
    let m := saSlot t
    some (f.val, 0x0903, keyField t = none ∧
        (t.pay 0 1 = 0 ∧ (∃ h, (s.keySlot slot).held = some h ∧ (f.val = 0 ∨ (s.func f.val).bound = some h.1)) ∨
          t.pay 0 1 = 1 ∧ f.val = 0 ∧ (s.sa n m).isSome = true),
      if t.pay 0 1 = 0 then v = { s with keys := v.keys } ∧ v.keySlot slot = ⟨none, (s.keySlot slot).gen + 1⟩ ∧ ∀ k, k ≠ slot → v.keySlot k = s.keySlot k
      else v = { s with ports := v.ports } ∧ v.sa n m = none ∧ v.saGen n m = s.saGen n m + 1 ∧
        (∀ k, k ≠ m → v.sa n k = s.sa n k ∧ v.saGen n k = s.saGen n k) ∧ ∀ p, p ≠ n → v.port p = s.port p)
  | .eventRaise f => some (f.val, 0x0C02, 896 ≤ t.pay 0 2 ∧ t.pay 0 2 < 1024, v = { s with ev := { s.ev with raised := s.ev.raised ++ [t.pay 0 2] } })
  | .timeAdjust f =>
    let d : Int := (BitVec.ofNat 64 (t.pay 0 8)).toInt
    let w : Word32 := BitVec.ofNat 32 (t.pay 8 4)
    some (f.val, 0x0D02, -1000000000 ≤ d ∧ d ≤ 2 ^ 50 ∧ -500000 ≤ w.toInt ∧ w.toInt ≤ 500000,
      v.reg timeWin 0x118 = (if s.rf timeWin 0x110 31 30 = 2 then s.reg timeWin 0x118 else w) ∧ v.threads = s.threads ∧ v.mem = s.mem ∧
        (d = 0 → v.time = s.time ∧ v.ev = s.ev) ∧
        (0 < d → s.time.slewHalf = 0 → s.time.frac < 1000000000 → v.time.ns = s.time.ns + BitVec.ofInt 64 d ∧ v.time.slewHalf = 0 ∧ v.time.frac = s.time.frac ∧
          Counted s v timeWin 0x148) ∧
        (d < 0 → s.time.frac < 1000000000 → v.time.ns = s.time.ns ∧ v.time.slewHalf = s.time.slewHalf + 2 * d.natAbs ∧ Counted s v timeWin 0x148))
  | .timeSource f => some (f.val, 0x0D03, t.pay 0 1 < 3 ∧ t.pay 1 1 < 32,
      v.rf timeWin 0x110 31 30 = t.pay 0 1 ∧ v.rf timeWin 0x110 21 16 = t.pay 1 1 ∧ v.time.ns = s.time.ns ∧ v = { s with time := v.time, regs := v.regs } ∧
        (s.rf timeWin 0x110 31 30 = t.pay 0 1 → v.time = s.time) ∧
        (s.rf timeWin 0x110 31 30 ≠ t.pay 0 1 → v.time.wasLocked = false ∧ v.time.refOk = false ∧ v.time.ppsOk = false ∧ v.time.lastPps = none))
  | _ => none
/-! ### Queue pairs and functions (18) -/

/-- A queue pair of a kind has a descriptor posted and not fetched, and the endpoint takes new work; the descriptor. -/
def HasPosted (s : State) (q kind : Nat) : Prop :=
  (s.qp q).kind = kind ∧ (s.qp q).sqHead % 65536 ≠ (s.qp q).sqTail ∧ s.hostTakes = true
def postedDesc (s : State) (q : Nat) : List Byte := s.hostRead ((s.qp q).sqBase.toNat + 64 * ((s.qp q).sqHead % 2 ^ (s.qp q).sqLog)) 64

/-- Every queue pair is as it was, or every one but one. -/
def OtherPairs (s u : State) (q : Nat) : Prop := ∀ k, k ≠ q → u.qp k = s.qp k

/-- The next descriptor of a queue pair has been fetched: it stands behind the others, with the request it made and how it has ended, if it has. -/
def Fetched (s u : State) (q : Nat) (req : Option Nat) (ended : Option (Nat × Nat × Bool × Nat)) : Prop :=
  u.qp q = { s.qp q with sqHead := (s.qp q).sqHead + 1,
                         descs := (s.qp q).descs ++ [qpDescOf ((s.qp q).sqHead % 65536) (postedDesc s q) req ended] } ∧ OtherPairs s u q

/-- A completion entry of a descriptor: index, status, phase and last, length, cookie, output queue (R448). -/
def completionOf (x : QpSt) (d : QpDesc) (status len : Nat) (last : Bool) (queue : Nat) : List Byte :=
  leBytes 2 d.index ++ leBytes 1 status ++ leBytes 1 ((if x.written.testBit x.cqLog then 0 else 1) + 2 * bit last) ++ leBytes 4 len ++ leBytes 4 d.cookie
    ++ leBytes 4 queue

/-- Function f alone has changed, and it is x now. -/
def OnlyFunc (s u : State) (f : Nat) (x : FuncSt) : Prop :=
  u = { s with funcs := u.funcs } ∧ u.func f = x ∧ ∀ g, g ≠ f → u.func g = s.func g

/-- A function after its reset (R436): everything but its binding, windows and credits as after device reset; its queue pairs disabled, but still its
own; no completion of a lock unread. -/
def FuncIsReset (s u : State) (f : Nat) : Prop :=
  u.func f = { funcReset f with bound := (s.func f).bound, credits := (s.func f).credits, windows := (s.func f).windows } ∧
  (∀ q, (s.qp q).owner = some f → u.qp q = { QpSt.zero with owner := some f }) ∧ u.stilePort f = []

/-! ### Events, time, pins and trust (18 to 21) -/

/-- Of events and of what they reach, nothing has been delivered. -/
def NotDelivered (s u : State) : Prop :=
  u.ev.toSpine = s.ev.toSpine ∧ u.ev.messages = s.ev.messages ∧ u.threads = s.threads ∧ u.funcs = s.funcs ∧ u.ev.gapEnd = s.ev.gapEnd ∧
  u.reg spineWin 0x280 = s.reg spineWin 0x280

/-- Source k has been delivered to its route, once (R455, R456): counted and with its gap begun, unless it is routed to none. -/
def Delivered (s u : State) (k : Nat) : Prop :=
  let target := s.evRoute k 31 30
  let f := s.evRoute k 29 24
  let v := s.evRoute k 23 16
  (∀ j, j ≠ k → SMap.find u.ev.gapEnd j = SMap.find s.ev.gapEnd j) ∧
  (target = 0 → u.reg spineWin 0x280 = s.reg spineWin 0x280) ∧
  (target ≠ 0 → Counted s u spineWin 0x280 ∧
    (s.evGapNs k ≠ 0 → SMap.find u.ev.gapEnd k = some (s.time.cycles + s.evGapNs k))) ∧
  u.ev.toSpine = s.ev.toSpine ++ (if target = 1 then [k] else []) ∧
  u.ev.messages = s.ev.messages ++ (if target = 2 ∧ (s.func f).sends v = true then [(f, v)] else []) ∧
  (∀ g, u.func g = if target = 2 ∧ g = f then { s.func g with pendingVec := (u.func g).pendingVec } else s.func g) ∧
  (∀ g x, x ∈ (u.func g).pendingVec ↔ x ∈ (s.func g).pendingVec ∨ (target = 2 ∧ g = f ∧ x = (v, k) ∧ (s.func f).sends v = false)) ∧
  (∀ t b, (u.thread t).events.getLsbD b = ((s.thread t).events.getLsbD b ||
    decide (target = 3 ∧ b = s.evRoute k 15 11 ∧ ∃ q ∈ quiresOf (s.evRoute k 5 0), t = s.supOf q))) ∧
  (∀ t, (u.thread t).pc = (s.thread t).pc ∧ (u.thread t).regs = (s.thread t).regs ∧ (u.thread t).wait = (s.thread t).wait)

/-- Source k has asserted (R454, R456): within its gap it is coalesced and counted; else its status bit sets, and it is delivered if it is not masked. -/
def Asserted (s u : State) (k : Nat) : Prop :=
  (∀ j, j < 1024 → u.evMasked j = s.evMasked j) ∧ (∀ j, j < 1024 → j ≠ k → u.evStatus j = s.evStatus j) ∧
  (s.inGap k = true → Counted s u spineWin 0x284 ∧ k ∈ u.ev.coalesced ∧ u.evStatus k = s.evStatus k ∧ NotDelivered s u) ∧
  (s.inGap k = false → u.evStatus k = true ∧ k ∉ u.ev.coalesced ∧ (s.evMasked k = true → NotDelivered s u) ∧
    (s.evMasked k = false → Delivered s u k))

/-- The vectors of function f that wait and may go out, once it holds y, go out in ascending order (R455). -/
def Flushed (s u : State) (f : Nat) (y : FuncSt) : Prop :=
  let go := (List.range (vectorsOf f)).filter (fun v => y.isPending v && y.sends v)
  u.ev.messages = s.ev.messages ++ go.map (fun v => (f, v)) ∧
  u.func f = { y with pendingVec := y.pendingVec.filter (fun e => !go.contains e.1) } ∧ (∀ g, g ≠ f → u.func g = s.func g) ∧
  u = { s with funcs := u.funcs, ev := { s.ev with messages := u.ev.messages } }

/-- Events have been raised: some, each the minute's, and then others. -/
def Raised (s u : State) (l : List Nat) : Prop := ∃ m : List Nat, (∀ e ∈ m, e = 852) ∧ u.ev.raised = s.ev.raised ++ m ++ l

/-- TIME_STATUS shows a sync state and the two references (R462). -/
def ShowsSync (u : State) (sync : Nat) : Prop :=
  u.rf timeWin 0x12C 31 30 = sync ∧ u.rf timeWin 0x12C 29 29 = bit u.time.refOk ∧ u.rf timeWin 0x12C 28 28 = bit u.time.ppsOk

/-- Zeroised (R485): every key slot and MACsec slot is empty with its generation raised, every Clasp context and save area is zero. -/
def Zeroised (s u : State) : Prop :=
  (∀ k, k < 1024 → u.keySlot k = ⟨none, (s.keySlot k).gen + 1⟩) ∧
  (∀ n slot, n < 32 → slot < 68 → u.sa n slot = none ∧ u.saGen n slot = s.saGen n slot + 1) ∧
  (∀ t, (u.thread t).clasp.regs = [] ∧ (u.thread t).hidden = .zero ∧ (u.thread t).regs = (s.thread t).regs ∧
    (u.thread t).pc = (s.thread t).pc ∧ (u.thread t).awl = (s.thread t).awl) ∧
  (∀ q a, Memory.read (u.quire q).shared a = if 0x3F6000 ≤ a ∧ a < 0x3FF000 then 0 else Memory.read (s.quire q).shared a)

/-- The device has been reset (R9, R489, R495): every Gathering, thread, key and time as after reset, but a table memory channel without a DIMM ABSENT
(R379) and what a repair record held does to table memory (R416, R418); the fuses as they were, and the security state theirs. -/
def DeviceIsReset (s u : State) : Prop :=
  (∀ w, u.gathOf w = if 317 ≤ w ∧ w < 329 ∧ s.dimmsOf w = [] then { State.reset.gathOf w with own := .absent } else State.reset.gathOf w) ∧ u.threads = State.reset.threads ∧ u.quires = State.reset.quires ∧ u.keys = State.reset.keys ∧ u.time = State.reset.time ∧
  u.ev = State.reset.ev ∧ u.kettle = State.reset.kettle ∧ u.drover = State.reset.drover ∧
  u.mem.buffer = State.reset.mem.buffer ∧ (s.latestRecord = none → u.mem = State.reset.mem) ∧
  u.trust.banks = s.trust.banks ∧ u.trust.counters = s.trust.counters ∧ u.trust.revoked = s.trust.revoked ∧
  u.trust.sec = (if s.trust.banks = [] then .unowned else .owned) ∧ u.trust.challenge = none ∧ u.spine.up = false ∧
  u.spine.host = s.spine.host ∧ u.pending = s.pending ∧ u.board.bootDue = true

/-- The core has lost its supply or its clocks (R494): every Gathering that is there is OFF, no key and no Folio is left; the fuses and the security
state are as they were. -/
def CoreIsLost (s u : State) : Prop :=
  (∀ w, w < 430 → (u.gathOf w).own = if (s.gathOf w).own = .absent then .absent else .off) ∧ u.keys = [] ∧ u.spine.up = false ∧ u.spine.folio = none ∧
  u.trust.banks = s.trust.banks ∧ u.trust.counters = s.trust.counters ∧ u.trust.sec = s.trust.sec ∧ u.board.bootDue = true ∧
  u.rf deviceWin 0x204 3 0 = (if s.rf deviceWin 0x204 3 0 = 0 ∧ (s.board.bootDue = true ∨ s.trust.sec = .locked) then 0 else 1)

/-- The ROM has restarted the image before (R520). -/
def FellBack (s u : State) (old : Image) : Prop :=
  u.spine.folio = some old ∧ u.spine.up = true ∧ u.spine.leaving = none ∧ u.spine.slotB = s.spine.slotB ∧ (u.gathOf spineWin).own = .inService ∧
  u.reg spineWin 0x34 = 4 ∧ 870 ∈ u.ev.raised ∧ u.trust.counters = s.trust.counters

/-- The ROM runs a Folio that the host pushed (R475 steps 5 and 6, R499). -/
def RunsPushed (v : State) (i : Image) : Prop :=
  v.spine.folio = some i ∧ v.spine.up = true ∧ v.spine.rom = false ∧ (v.gathOf spineWin).own = .inService ∧
  v.rf deviceWin 0x204 3 0 = 6 ∧ v.rf deviceWin 0x204 9 8 = 2

/-- Fallow's counter k of port n has risen by an amount (R504). -/
def FallowCounted (s u : State) (n k amount unit : Nat) : Prop :=
  let i := 8 * n + k
  let total := SMap.get (fun _ => 0) s.fallow.rem i + amount
  SMap.get (fun _ => 0) u.fallow.rem i = total % unit ∧
  (u.reg deviceWin (0x800 + 4 * i)).toNat = min 0xFFFFFFFF ((s.reg deviceWin (0x800 + 4 * i)).toNat + total / unit)

/-- What the fuses and the lists of the board keep to (R473, R477, R489, R493): at most 4 owner banks, counters up to 128, a handle that can be given;
no owner where UNOWNED and one where OWNED; 8 rails, 8 voltages and 32 sites. -/
def DeviceInv (s : State) : Prop :=
  s.trust.banks.length ≤ 4 ∧ (∀ c, s.counter c ≤ 128) ∧ 1 ≤ s.trust.nextHandle ∧ s.trust.nextHandle ≤ 65535 ∧
  (s.trust.sec = .unowned → s.trust.banks = []) ∧ (s.trust.sec = .owned → s.trust.banks ≠ []) ∧
  s.board.railsGood.length = 8 ∧ s.board.volts.length = 8 ∧ s.board.sites.length = 32

/-- The security state changes as R489's table lists, each way by its own command: from UNOWNED to OWNED by OWNER_ENROL, from OWNED to DEBUG by
DEBUG_ENABLE, to LOCKED by TAMPER or by a trust chain whose tests fail, and by device reset to what the fuses say. -/
def SecMoves (s u : State) : Prop :=
  let next (i : Instr) : Prop := ∃ rest, s.pending = i :: rest
  u.trust.sec = s.trust.sec ∨
  ((∃ f, next (.ownerEnrol f)) ∧ s.trust.sec = .unowned ∧ u.trust.sec = .owned) ∨
  ((∃ f, next (.debugEnable f)) ∧ s.trust.sec = .owned ∧ u.trust.sec = .debug) ∨
  ((next .tamper ∨ ∃ a b, next (.boot a b false)) ∧ u.trust.sec = .locked) ∨
  ((next .sysReset ∨ next (.railLost 7)) ∧ u.trust.sec = if s.trust.banks = [] then .unowned else .owned)

/-- Every memory lists its bytes in one form, by rising address and none that reads as an unlisted one would: buffer and table memory, host memory,
Spine's SRAM, Warren's pinned cache, each Quire's shared memory and each thread's local memory. -/
def MemoryInv (s : State) : Prop :=
  Memory.wf s.mem.buffer = true ∧ Memory.wf s.mem.table = true ∧ Memory.wf s.spine.host = true ∧ Memory.wf s.spine.sram = true ∧
  Memory.wf s.warren.pin = true ∧ (∀ q, Memory.wf (s.quire q).shared = true) ∧ ∀ t, Memory.wf (s.thread t).mem = true

end Sys2Proof.Safety
end

