-- ==== Sys2Proof/Certificates/Slice0/Obligations.lean ====
section
/-! DEFINITION. The statements for the provers: what the rules of spec/ say of the commands of the block, and of every step. -/

open Sys2Proof Sys2Proof.Machine Sys2Proof.Safety

/-! ### Steps -/

/-- A step takes the command at the front of the queue and runs it with the queue's rest (the row's cut). -/
def Obligations.StepRunsTheFrontCommand : Prop :=
  ∀ (c : Instr) (rest : List Instr) (s : State), step { s with pending := c :: rest } = exec c { s with pending := rest }

/-- Every command completes in every state: no row of the table stops the block. -/
def Obligations.EveryCommandCompletes : Prop := ∀ (i : Instr) (s : State), Completes i s

/-! ### Leaf instructions (08) -/

/-- R220, R221, R222: a word that is defined is the word of exactly one instruction of chapter 08, with exactly one value of each of
its operands. -/
def Obligations.DefinedWordSpellsOneInstruction : Prop :=
  ∀ (t : Tid) (w : Word32), leafKnown w = true → ∃! i : Instr, leafWord i = some (t.val, w)

/-- R211: register g0 reads zero, and a result for it is never put on its way.

R225: instruction j receives, in a register, the result of the latest earlier instruction whose distance has elapsed, whatever
the order in which results were produced; without one, the value the register held. -/
def Obligations.RegistersReadTheirLatestResult : Prop :=
  (∀ (th : Thread) (d : Nat) (v : Word64), th.g 0 = 0 ∧ (th.setG 0 v) = th ∧ (th.result 0 d v) = th) ∧
  (∀ (th : Thread) (j r : Nat), 0 < r → r < 32 → (∀ p ∈ th.pend, ∀ q ∈ th.pend, p.dst = r → q.dst = r → p.no = q.no → p = q) →
     (∀ p ∈ th.pend, p.dst = r → p.due ≤ j → (∀ q ∈ th.pend, q.dst = r → q.due ≤ j → q.no ≤ p.no) → (th.land j).g r = p.val) ∧
     ((∀ p ∈ th.pend, p.dst = r → j < p.due) → (th.land j).g r = th.g r))

/-- R233, R235: an issued SPECIAL instruction gives gd the result of its row at its distance, with the row's flags; where the row says gd is
unchanged, nothing.

R234: an issued immediate form gives gd the result of its row. -/
def Obligations.AluInstructionsWriteTheirResult : Prop :=
  (∀ (i : Instr) (s : State) (t : Nat) (r : AluRow), specialRow (ready s t).g i = some r → r.t = t → Issues s t r.word →
     r.traps (ready s t).flags = false →
     Leaves i s (fun u => Retires s u t (match r.val with
       | some v => withResult (ready s t) r.gd r.dist v r.v r.dz
       | none => ready s t))) ∧
  (∀ (i : Instr) (s : State) (t : Nat) (r : AluRow), immediateRow (ready s t).g i = some r → r.t = t → Issues s t r.word →
     r.traps (ready s t).flags = false →
     Leaves i s (fun u => Retires s u t (withResult (ready s t) r.gd r.dist (r.val.getD 0) r.v r.dz)))

/-- R236: an instruction that would set V while trapv_en is 1 raises TRAPV, one that would set DZ while trapdz_en is 1 raises TRAPDZ; in
both cases it has no effect. -/
def Obligations.EnabledTrapStopsTheInstruction : Prop :=
  ∀ (i : Instr) (s : State) (t : Nat) (r : AluRow),
    (specialRow (ready s t).g i = some r ∨ immediateRow (ready s t).g i = some r) → r.t = t → Issues s t r.word →
    (r.dz = true → (ready s t).flags.getLsbD 9 = true → Leaves i s (fun u => Faults s u t fTRAPDZ r.word 0 ∧ NoEffect s u t)) ∧
    (r.v = true → (ready s t).flags.getLsbD 8 = true → Leaves i s (fun u => Faults s u t fTRAPV r.word 0 ∧ NoEffect s u t))

/-- R230, R231: an issued branch or jump puts its delay slot next and its target after it where it is taken, and JAL and JALR link; a
JR or JALR to an address that is misaligned or outside the program store raises DOMAIN; cond 6 and 7 are no instruction. -/
def Obligations.BranchesTakeTheirDelaySlot : Prop :=
  (∀ (i : Instr) (s : State) (t : Nat) (r : BranchRow), branchRow (ready s t).g (ready s t).pc i = some r → r.t = t →
    Issues s t r.word →
    (r.target % 4 = 0 → r.target < 0x80000 →
      Leaves i s (fun u => Branches s u t (withResult (ready s t) r.link 1 (BitVec.ofNat 64 ((ready s t).pc + 8)) false false)
        r.target r.taken r.annul)) ∧
    (r.target % 4 ≠ 0 ∨ 0x80000 ≤ r.target → fld r.word 31 26 = 0x14 →
      Leaves i s (fun u => Faults s u t fDOMAIN r.word r.target ∧ NoEffect s u t))) ∧
  (∀ w : Word32, fld w 31 26 = 0x10 → 6 ≤ fld w 15 13 → leafKnown w = false)

/-- R222, R232: a word that is undefined, or may not stand in the delay slot it stands in, raises UNDEF with no effect, whatever
instruction the command names.

R253: an uncorrectable error in the word that a thread comes to raises DATA_ERROR there, with its address as detail.

R168: a task that has used its budget faults with BUDGET at its next instruction, before the instruction is looked at. -/
def Obligations.UnreadyWordsRaiseTheirFault : Prop :=
  (∀ (i : Instr) (s : State) (t : Nat) (w0 w : Word32), leafWord i = some (t, w0) → Fetches s t w →
     (leafKnown w = false ∨ (w = w0 ∧ (ready s t).inDelay = true ∧ noDelaySlot w = true)) →
     Leaves i s (fun u => Faults s u t fUNDEF w 0 ∧ NoEffect s u t)) ∧
  (∀ (i : Instr) (s : State) (t : Nat) (w : Word32), leafWord i = some (t, w) → s.canIssue t = true →
     s.fetch t (ready s t).pc = w → (∀ k x, s.heldTask t = some (k, x) → x.slots < x.budget) →
     ((ready s t).inDelay = true → (ready s t).annul = false) →
     (∃ e ∈ s.errsIn (quireWin (tidQuire t)) 1 (ready s t).pc 4, e.shows = true ∧ s.errFatal e = true) →
     Leaves i s (fun u => Faults s u t fDATA w (ready s t).pc ∧ NoEffect s u t)) ∧
  (∀ (i : Instr) (s : State) (t : Nat) (w : Word32) (k : Nat) (x : Task), leafWord i = some (t, w) → s.canIssue t = true →
     s.fetch t (ready s t).pc = w → s.heldTask t = some (k, x) → x.budget ≤ x.slots →
     Leaves i s (fun u => Faults s u t fBUDGET w x.slots ∧ NoEffect s u t))

/-- R237, R214, R218: LDL gives gd the bytes at its local address in the order be selects, extended as sx says, two instructions on; STL
writes the low bytes of gt there and leaves every other byte of local memory as it was; a misaligned access, one beyond local memory or a
store below 0x0200 raises DOMAIN. -/
def Obligations.LocalLoadsAndStores : Prop :=
  (∀ (s : State) (t : Tid) (gd gs : Reg) (sz : BitVec 2) (sx be : Bool) (off : BitVec 12),
    let a := ((ready s t).g gs + off.signExtend 64).toNat
    let n := 2 ^ sz.toNat
    let w := encL 0x18 gd.val gs.val sz.toNat (bit sx) (bit be) off.toNat
    let data := s.eccFixed (tidLeafWin t) 0 (localBase t + a) (Memory.readBytes (ready s t).mem a n)
    let v := if be then beNat data else leNat data
    leafKnown w = true → Issues s t w →
    (a % n = 0 → a + n ≤ 0x1800 → (s.errsIn (tidLeafWin t) 0 (localBase t + a) n).filter EccErr.shows = [] →
      Leaves (.ldl t gd gs sz sx be off) s (fun u => Retires s u t
        (withResult (ready s t) gd.val 2 (if sx then (BitVec.ofNat (8 * n) v).signExtend 64 else BitVec.ofNat 64 v) false false))) ∧
    (a % n ≠ 0 ∨ 0x1800 < a + n → Leaves (.ldl t gd gs sz sx be off) s (fun u => Faults s u t fDOMAIN w a ∧ NoEffect s u t))) ∧
  (∀ (s : State) (t : Tid) (gt gs : Reg) (sz : BitVec 2) (be : Bool) (off : BitVec 12),
    let a := ((ready s t).g gs + off.signExtend 64).toNat
    let n := 2 ^ sz.toNat
    let w := encL 0x19 gt.val gs.val sz.toNat 0 (bit be) off.toNat
    let data := (if be then beBytes n else leBytes n) ((ready s t).g gt).toNat
    leafKnown w = true → Issues s t w →
    (a % n = 0 → 0x200 ≤ a → a + n ≤ 0x1800 →
      Leaves (.stl t gt gs sz be off) s (fun u =>
        ThreadIs (u.thread t) { ready s t with mem := Memory.writeBytes (ready s t).mem a data } (nextPc (ready s t)) false none false ∧
        (∀ c, c < a ∨ a + n ≤ c → Memory.read (u.thread t).mem c = Memory.read (ready s t).mem c) ∧
        (∀ x, x ≠ t.val → u.thread x = s.thread x) ∧ u.mem = s.mem ∧ (∀ q, (u.quire q).shared = (s.quire q).shared))) ∧
    (a % n ≠ 0 ∨ a < 0x200 ∨ 0x1800 < a + n →
      Leaves (.stl t gt gs sz be off) s (fun u => Faults s u t fDOMAIN w a ∧ NoEffect s u t)))

/-- R238, R239, R240: an issued LDA, STA, AMO, XLD or XST that its checks allow becomes an outstanding operation of its thread, with the
address, the data and the event of its row; in buffer and table memory its request is queued behind the thread's earlier ones there. It
writes no register and no memory as it issues.

R217, R218: a remote access that is misaligned, or that its space or the tenant's windows do not allow, raises DOMAIN with the
address, and is not performed. -/
def Obligations.RemoteAccessesGoOutOrAreRefused : Prop :=
  (∀ (i : Instr) (s : State) (t : Nat) (r : RemoteRow),
     remoteRow (ready s t).g (ready s t).issued
       (fun a n => s.eccFixed (tidLeafWin t) 0 (localBase t + a) (Memory.readBytes (ready s t).mem a n)) i = some r →
     r.t = t → leafKnown r.word = true → Issues s t r.word → localSide r.op →
     (r.op.kind = .xst → (s.errsIn (tidLeafWin t) 0 (localBase t + r.op.loc) r.op.len).filter EccErr.shows = []) →
     r.op.addr % r.align = 0 → s.accessOk t r.op.sp r.op.addr r.op.len r.reads r.writes = true → (ready s t).outstanding < 16 →
     Leaves i s (fun u => ∃ o, (ready s t).ops ++ [o] = (u.thread t).ops ∧
       o = { r.op with id := o.id, data := if r.op.sp = 3 then o.data else r.op.data, pid := if r.op.sp = 3 then o.pid else 0 } ∧
       (r.op.sp = 0 ∨ r.op.sp = 3 → o.id = 0) ∧
       (r.op.sp = 3 → ∀ k x p, s.heldTask t = some (k, x) → s.packet x.pid = some p → o.data = bytesAt (s.packetData p) r.op.addr r.op.len) ∧
       (u.thread t).regs = (ready s t).regs ∧ (u.thread t).pend = (ready s t).pend ∧ (u.thread t).flags = (ready s t).flags ∧
       (u.thread t).mem = (ready s t).mem ∧ (u.thread t).pc = nextPc (ready s t) ∧ (u.thread t).issued = (ready s t).issued + 1 ∧
       (∀ x, x ≠ t → u.thread x = s.thread x) ∧
       u.mem.buffer = s.mem.buffer ∧ u.mem.table = s.mem.table ∧ (∀ q, (u.quire q).shared = (s.quire q).shared) ∧
       (r.op.sp = 1 ∨ r.op.sp = 2 → ∃ m, u.memWaiting (4 * t + r.op.sp) = s.memWaiting (4 * t + r.op.sp) ++ [m] ∧
         m.id = o.id ∧ m.addr = r.op.addr ∧ m.len = r.op.len ∧ m.table = (r.op.sp == 2) ∧
         m.write = (if r.op.kind = .store ∨ r.op.kind = .xst then some r.op.data else none) ∧
         m.amo = r.op.amo.map (fun x => (x.1, x.2.1, x.2.2, r.op.len == 8))))) ∧
  (∀ (i : Instr) (s : State) (t : Nat) (r : RemoteRow),
     remoteRow (ready s t).g (ready s t).issued
       (fun a n => s.eccFixed (tidLeafWin t) 0 (localBase t + a) (Memory.readBytes (ready s t).mem a n)) i = some r →
     r.t = t → leafKnown r.word = true → Issues s t r.word → localSide r.op →
     (r.op.kind = .xst → (s.errsIn (tidLeafWin t) 0 (localBase t + r.op.loc) r.op.len).filter EccErr.shows = []) →
     r.op.addr % r.align ≠ 0 ∨ s.accessOk t r.op.sp r.op.addr r.op.len r.reads r.writes = false →
     Leaves i s (fun u => Faults s u t fDOMAIN r.word r.op.addr ∧ NoEffect s u t ∧ u.mem = s.mem ∧
       ∀ q, (u.quire q).shared = (s.quire q).shared))

/-- R246, R213, R184: RDTIME gives gd device time, MFT the control register named; MTT puts a control register's new value on its way at
distance 2; SEV sends its word, and one with reserved bits is UNDEF; CHW writes a word of the active staging bank.

R213, R6: a write that MTT made takes effect, when it lands, under the access codes of the register: enables and sticky flags of
THR_FLAGS, W1C of THR_EVENTS, the writable fields of THR_EVEC and THR_TCTL, and nothing of a read-only register. -/
def Obligations.TimeAndControlRegisterInstructions : Prop :=
  (∀ (s : State) (t : Tid) (gd gs : Reg) (n : BitVec 5),
    (Issues s t (encR 0x20 gd.val 0 0 0x007) →
      Leaves (.rdtime t gd) s (fun u => Retires s u t (withResult (ready s t) gd.val 1 s.time.ns false false))) ∧
    (n.toNat < 12 → Issues s t (encR 0x20 gd.val 0 n.toNat 0x008) →
      Leaves (.mft t gd n) s (fun u => Retires s u t (withResult (ready s t) gd.val 1 (s.readTcr t (ready s t) n.toNat) false false))) ∧
    (n.toNat < 12 → Issues s t (encR 0x20 0 gs.val n.toNat 0x009) →
      Leaves (.mtt t n gs) s (fun u => Retires s u t (withResult (ready s t) (32 + n.toNat) 2 ((ready s t).g gs) false false))) ∧
    (((ready s t).g gs).toNat < 2 ^ 18 → Issues s t (encR 0x20 0 gs.val 0 0x003) →
      Leaves (.sev t gs) s (fun u => Retires s u t { ready s t with sevs := (ready s t).sevs ++ [((ready s t).g gs).toNat] })) ∧
    (2 ^ 18 ≤ ((ready s t).g gs).toNat → Issues s t (encR 0x20 0 gs.val 0 0x003) →
      Leaves (.sev t gs) s (fun u => Faults s u t fUNDEF (encR 0x20 0 gs.val 0 0x003) 0 ∧ NoEffect s u t)) ∧
    (n.toNat < 8 → Issues s t (encR 0x20 0 gs.val n.toNat 0x00A) →
      Leaves (.chw t n gs) s (fun u => Retires s u t
        ((ready s t).setBank (SMap.set (fun _ => 0) (ready s t).bank n.toNat ((ready s t).g gs)))))) ∧
  ∀ (th : Thread) (v : Word64),
    (th.writeTcr 0 v).flags = v &&& 0x303 ∧
    (∀ b, (th.writeTcr 1 v).events.getLsbD b = (th.events.getLsbD b && !v.getLsbD b)) ∧
    (th.writeTcr 2 v).prompt = v.setWidth 32 ∧ (th.writeTcr 3 v).evec = v.toNat % 0x80000 / 4 * 4 ∧
    (th.writeTcr 6 v).timer = v ∧ (th.writeTcr 7 v).tctl = v &&& 0x1F01 ∧
    (∀ n ∈ [4, 5, 8, 9, 10, 11], th.writeTcr n v = th)

/-- R180, R181, R183, R243, R192, R247, R189: WFE and WAITT go on at once with a masked event, which they consume, and otherwise wait; WAITT
also loads THR_TIMER and disarms the comparator; FENCE waits for the thread's writes; TAKE gives a worker the oldest descriptor bound to its
Leaf, or waits; CHPOST waits for its target; BKPT halts under authenticated debug and is else a no-op; ERET returns to THR_EPC. -/
def Obligations.WaitsAndReturnsBegin : Prop :=
  ∀ (s : State) (t : Tid) (gd gt gm : Reg) (n : BitVec 5),
    let th := ready s t
    let m : Word32 := (th.g gm).setWidth 32
    let hit := th.events &&& m
    (Issues s t (encR 0x20 gd.val gm.val 0 0x001) →
      (hit ≠ 0 → Leaves (.wfe t gd gm) s (fun u => Retires s u t
        (withResult { th with events := th.events &&& ~~~m } gd.val 1 (hit.setWidth 64) false false))) ∧
      (hit = 0 → Leaves (.wfe t gd gm) s (fun u => Holds s u t { th with wait := .wfe gd.val m }))) ∧
    (Issues s t (encR 0x20 gd.val gt.val gm.val 0x002) →
      let armed := { th with timer := th.g gt, tctl := th.tctl &&& ~~~1 }
      (hit ≠ 0 → Leaves (.waitt t gd gt gm) s (fun u => Retires s u t
        (withResult { armed with events := th.events &&& ~~~m } gd.val 1 (hit.setWidth 64) false false))) ∧
      (hit = 0 → (th.g gt).toNat ≤ s.time.ns.toNat →
        Leaves (.waitt t gd gt gm) s (fun u => Retires s u t (withResult armed gd.val 1 0 false false))) ∧
      (hit = 0 → s.time.ns.toNat < (th.g gt).toNat →
        Leaves (.waitt t gd gt gm) s (fun u => Holds s u t { armed with wait := .waitt gd.val m (th.g gt) }))) ∧
    (Issues s t (encR 0x20 0 0 0 0x005) →
      (th.ops.any LeafOp.writes = false → Leaves (.fence t) s (fun u => Retires s u t th)) ∧
      (th.ops.any LeafOp.writes = true → Leaves (.fence t) s (fun u => Holds s u t { th with wait := .fence }))) ∧
    (Issues s t (encR 0x20 gd.val 0 0 0x004) → s.isSup t = false → th.task = none →
      (s.readyTask (tidLeaf t) = none → Leaves (.take t gd) s (fun u => Holds s u t { th with wait := .take gd.val })) ∧
      (∀ k x, s.readyTask (tidLeaf t) = some (k, x) →
        (x.child = true ∨ (s.readPacket x.pid 0 2).1 = false) →
        Leaves (.take t gd) s (fun u => (u.thread t).task = some k ∧ (∃ y, u.task k = some y ∧ y.taken = some t.val) ∧
          (u.thread t).mem = Memory.writeBytes [] 0 (s.headerWindow (s.withHeader x)) ∧ (u.thread t).regs = th.regs ∧
          (u.thread t).pend = (withResult th gd.val 1 1 false false).pend ∧ (u.thread t).pc = nextPc th))) ∧
    (Issues s t (encR 0x20 gd.val 0 0 0x004) → s.isSup t = true ∨ th.task.isSome = true →
      Leaves (.take t gd) s (fun u => Faults s u t fDOMAIN (encR 0x20 gd.val 0 0 0x004) 0 ∧ NoEffect s u t)) ∧
    (Issues s t (encR 0x20 0 0 n.toNat 0x00B) → n.toNat < 3 →
      ((if n = 2 then s.isSup t = true else s.isSup t = false ∧ th.task.isSome = true) → (th.postCounts n.toNat = true → th.outstanding < 16) →
        Leaves (.chpost t n) s (fun u => Holds s u t { th with wait := .post n.toNat })) ∧
      ((if n = 2 then s.isSup t = false else s.isSup t = true ∨ th.task = none) →
        Leaves (.chpost t n) s (fun u => Faults s u t fDOMAIN (encR 0x20 0 0 n.toNat 0x00B) 0 ∧ NoEffect s u t))) ∧
    (Issues s t (encR 0x20 0 0 0 0x00C) →
      (s.threadDebug = false → Leaves (.bkpt t) s (fun u => Retires s u t th)) ∧
      (s.threadDebug = true → Leaves (.bkpt t) s (fun u => OnlyThread s u t ∧ (u.thread t).halted = true ∧ (u.thread t).forced = false ∧
        (u.thread t).pc = th.pc ∧ (u.thread t).regs = th.regs))) ∧
    (Issues s t (encR 0x20 0 0 0 0x006) →
      (th.handler = true → Leaves (.eret t) s (fun u => OnlyThread s u t ∧ (u.thread t).pc = th.epc ∧ (u.thread t).handler = false ∧
        (u.thread t).regs = th.regs ∧ (u.thread t).pend = th.pend)) ∧
      (th.handler = false → Leaves (.eret t) s (fun u => Faults s u t fUNDEF (encR 0x20 0 0 0 0x006) 0 ∧ NoEffect s u t)))

/-- R187, R188, R207, R182: at a quiet boundary a due entry saves the address in THR_EPC and goes to THR_EVEC; at a forced one the results on
their way land first and forced is set; a requested halt comes before an entry; the armed comparator sets its event bit and disarms.
The model's readings and choices that it shows: log 59. -/
def Obligations.EntriesHaltsAndTimer : Prop :=
  ∀ (s : State) (t : Tid),
    let th := (s.thread t).landed
    (s.threadLive t = true → th.wantEntry (s.isSup t) = true → th.haltReq = false →
      (th.atBoundary = true → Leaves (.promptEventEntry t) s (fun u => (u.thread t).epc = th.pc ∧ (u.thread t).pc = th.evec ∧
        (u.thread t).handler = true ∧ (u.thread t).forced = false ∧ (u.thread t).regs = th.regs ∧ (u.thread t).pend = th.pend ∧
        (u.thread t).wait = .none ∧ (u.thread t).nmi = (th.nmi && !s.isSup t) ∧ ∀ x, x ≠ t.val → u.thread x = s.thread x)) ∧
      (th.atBoundary = false → s.forcedDue th = true → Leaves (.forcedBoundary t) s (fun u => (u.thread t).epc = th.pc ∧
        (u.thread t).pc = th.evec ∧ (u.thread t).handler = true ∧ (u.thread t).forced = true ∧ (u.thread t).regs = th.landAll.regs ∧
        ∀ x, x ≠ t.val → u.thread x = s.thread x))) ∧
    (s.threadLive t = true → th.haltReq = true → th.atBoundary = true →
      Leaves (.debugHaltEntry t) s (fun u => (u.thread t).halted = true ∧ (u.thread t).haltReq = false ∧ (u.thread t).haltForced = false ∧
        (u.thread t).forced = false ∧ (u.thread t).pc = th.pc ∧ (u.thread t).regs = th.regs ∧ ∀ x, x ≠ t.val → u.thread x = s.thread x)) ∧
    (s.threadLive t = true → th.haltReq = true → th.atBoundary = false → s.forcedDue th = true →
      Leaves (.forcedBoundary t) s (fun u => (u.thread t).halted = true ∧ (u.thread t).haltForced = true ∧ (u.thread t).forced = true ∧
        (u.thread t).pc = th.pc ∧
        (u.thread t).regs = th.landAll.regs)) ∧
    (th.started = true → s.leafRuns t = true → th.tctl.getLsbD 0 = true → th.timer.toNat ≤ s.time.ns.toNat →
      Leaves (.timerFire t) s (fun u => (∀ b, (u.thread t).events.getLsbD b = (th.events.getLsbD b || b == bitsOf th.tctl.toNat 12 8)) ∧
        (u.thread t).tctl.getLsbD 0 = false ∧ (u.thread t).pc = th.pc ∧ (u.thread t).regs = th.regs ∧
        ∀ x, x ≠ t.val → u.thread x = s.thread x))

/-- R180, R181, R183, R184, R185: a masked event ends WFE or WAITT and is consumed; the time ends WAITT with 0; a bound descriptor ends TAKE;
a SEV sets its bit in a thread it may reach, and is counted and discarded where it may not. -/
def Obligations.WaitsEndAndEventsArrive : Prop :=
  ∀ (s : State) (t : Tid),
    let th := s.thread t
    (∀ gd m, th.wait.masked = some (gd, m) → th.events &&& m ≠ 0 → s.mayWake t = true →
      Leaves (.wfeWake t) s (fun u => (u.thread t).wait = .none ∧ (u.thread t).events = th.events &&& ~~~m ∧
        (u.thread t).pend = th.pend ++ (if gd = 0 then [] else [⟨th.issued - 1, th.issued, gd, (th.events &&& m).setWidth 64⟩]) ∧
        (u.thread t).pc = nextPc th ∧ (u.thread t).regs = th.regs ∧ ∀ x, x ≠ t.val → u.thread x = s.thread x)) ∧
    (∀ gd m till, th.wait = .waitt gd m till → s.mayWake t = true → till.toNat ≤ s.time.ns.toNat →
      Leaves (.waittTimeout t) s (fun u => (u.thread t).wait = .none ∧ (u.thread t).events = th.events ∧
        (u.thread t).pend = th.pend ++ (if gd = 0 then [] else [⟨th.issued - 1, th.issued, gd, 0⟩]) ∧
        (u.thread t).pc = nextPc th ∧ ∀ x, x ≠ t.val → u.thread x = s.thread x)) ∧
    (∀ gd k y, th.wait = .take gd → s.mayWake t = true → s.readyTask (tidLeaf t) = some (k, y) →
      (y.child = true ∨ (s.readPacket y.pid 0 2).1 = false) →
      Leaves (.takeWake t) s (fun u => (u.thread t).wait = .none ∧ (u.thread t).task = some k ∧
        (u.thread t).mem = Memory.writeBytes [] 0 (s.headerWindow (s.withHeader y)) ∧ (u.thread t).pc = nextPc th)) ∧
    (∀ v rest x, th.sevs = v :: rest → s.sevTarget v = some x → s.sevAllowed t x = true →
      Leaves (.sevDelivery t) s (fun u => (u.thread t).sevs = rest ∧
        (∀ b, (u.thread x).events.getLsbD b = ((s.thread x).events.getLsbD b || b == v % 32)) ∧
        ∀ y, y ≠ t.val → y ≠ x → u.thread y = s.thread y)) ∧
    (∀ v rest, th.sevs = v :: rest → (s.sevTarget v = none ∨ ∃ x, s.sevTarget v = some x ∧ s.sevAllowed t x = false) →
      Leaves (.sevDelivery t) s (fun u => (u.thread t).sevs = rest ∧ (u.thread t).events = th.events ∧
        (u.reg (quireWin (tidQuire t)) 0x104).toNat = min 0xFFFFFFFF ((s.reg (quireWin (tidQuire t)) 0x104).toNat + 1) ∧
        ∀ y, y ≠ t.val → u.thread y = s.thread y))

/-! ### Stile (10) and the requester ports (18) -/

/-- R291 to R295, R437, R438: what a request of a function's port, or of Spine's, does while Stile is IN_SERVICE: a free lock that admits the
requester is granted; one it holds itself is answered HELD_BY_SELF; a held one is queued for by ACQUIRE, or answered QUEUE_FULL where the
requester has 4 queued waits or Stile 4,096, and answered BUSY to TRY; a lock that does not let it in is answered DENIED. An admitted RELEASE
hands the lock to its first waiter or frees it, whoever holds it, and counts as foreign where another does; where the holder went away with
writes under way it leaves the lock to them (the model's reading, log 71); on a free lock, and where the class does not admit the requester, it only counts. Reading a
completion takes the oldest. Every other lock is as it was.

R291 to R293, R295, R228: SACQ and STRY of a thread whose lock is free end at once with the grant in gd and the event, those of a lock it holds with
HELD_BY_SELF, and those of no lock with BAD_LOCK; STRY of a held lock ends with BUSY; SACQ of a held lock becomes an outstanding operation that
waits in the lock's queue, or ends with QUEUE_FULL; SREL releases as a port's RELEASE does, and leaves no operation outstanding.
The model's readings and choices that it shows: log 71, 106. -/
def Obligations.RequestersUseLocks : Prop :=
  (∀ (s : State) (f : Fin 65) (l : BitVec 13),
     let w := portWord f.val
     let x := s.lock l.toNat
     let port := s.stilePort f.val
     let answered (u : State) (code : Nat) (ab : Bool) : Prop := u.stilePort f.val = port ++ [BitVec.ofNat 64 (2 ^ 31 + grantWord code l.toNat ab)]
     let others (u : State) : Prop := ∀ k, k ≠ l.toNat → u.lock k = s.lock k
     let full : Prop := 4 ≤ s.waitsOf w ∨ 4096 ≤ s.waitsAll
     let rises (u : State) (o : Nat) : Prop := (u.reg stileWin o).toNat = min 0xFFFFFFFF ((s.reg stileWin o).toNat + 1)
     (s.inService stileWin = true → port.length < 8 → s.stileLate f.val = [] →
       (s.lockAdmits l.toNat w = true → x.holder = none → ∀ i ∈ [Instr.hostStileAcquire f l, Instr.hostStileTry f l],
         Leaves i s (fun u => u.lock l.toNat = { x with holder := some w, carried := x.abandoned } ∧ answered u 0 x.abandoned ∧ others u)) ∧
       (s.lockAdmits l.toNat w = true → x.holder = some w → x.leaving = none → ∀ i ∈ [Instr.hostStileAcquire f l, Instr.hostStileTry f l],
         Leaves i s (fun u => u.lock l.toNat = x ∧ answered u 2 x.abandoned ∧ others u)) ∧
       (s.lockAdmits l.toNat w = true → (∃ h, x.holder = some h ∧ h ≠ w) →
         (¬ full → Leaves (.hostStileAcquire f l) s (fun u =>
           u.lock l.toNat = { x with queue := x.queue ++ [⟨w, 0⟩] } ∧ u.stilePort f.val = port ∧ others u)) ∧
         (full → Leaves (.hostStileAcquire f l) s (fun u => u.lock l.toNat = x ∧ answered u 5 x.abandoned ∧ others u ∧
           (u.reg stileWin 0x240).getLsbD 2 = true)) ∧
         Leaves (.hostStileTry f l) s (fun u => u.lock l.toNat = x ∧ answered u 1 x.abandoned ∧ others u)) ∧
       (s.lockAdmits l.toNat w = false → ∀ i ∈ [Instr.hostStileAcquire f l, Instr.hostStileTry f l],
         Leaves i s (fun u => u.lock l.toNat = x ∧ answered u 3 x.abandoned ∧ others u)) ∧
       (s.lockAdmits l.toNat w = true → (∃ h, x.holder = some h) → Leaves (.hostStileRelease f l) s (fun u =>
         u.lock l.toNat = (if x.leaving.isSome then x else ({ x with abandoned := x.abandoned && !x.carried } : LockSt).pass) ∧
         u.stilePort f.val = port ∧ others u ∧ (x.holder ≠ some w → rises u 0x208 ∧ (u.reg stileWin 0x240).getLsbD 0 = true))) ∧
       (s.lockAdmits l.toNat w = true → x.holder = none → Leaves (.hostStileRelease f l) s (fun u =>
         u.stile = s.stile ∧ rises u 0x20C)) ∧
       (s.lockAdmits l.toNat w = false → Leaves (.hostStileRelease f l) s (fun u => u.stile = s.stile ∧ rises u 0x210))) ∧
     (∀ c rest, port = c :: rest → Leaves (.hostStileCplRead f) s (fun u => u.readData = c.setWidth 256 ∧
       u.stilePort f.val = (rest ++ s.stileLate f.val).take 8 ∧ u.stileLate f.val = (rest ++ s.stileLate f.val).drop 8 ∧
       u.stile.locks = s.stile.locks))) ∧
  (∀ (s : State) (t : Tid) (gd gs : Reg) (ev : BitVec 5),
     let th := ready s t
     let l := (th.g gs).toNat
     let x := s.lock l
     let w := tidWord t
     let full : Prop := 4 ≤ s.waitsOf w ∨ 4096 ≤ s.waitsAll
     let acq : Prop := Issues s t (encR 0x20 gd.val gs.val ev.toNat 0x010)
     let try' : Prop := Issues s t (encR 0x20 gd.val gs.val ev.toNat 0x011)
     let word (u : State) (v : Nat) : Prop := (gd.val ≠ 0 → (u.thread t).g gd = BitVec.ofNat 64 v) ∧
       (∀ b, (u.thread t).events.getLsbD b = (th.events.getLsbD b || b == ev.toNat)) ∧ (u.thread t).ops = th.ops ∧ (u.thread t).pc = nextPc th
     let ended (u : State) (code : Nat) : Prop := word u (grantWord code l x.abandoned)
     let released (u : State) : Prop := (u.thread t).ops = th.ops ∧ (u.thread t).regs = th.regs ∧ (u.thread t).pc = nextPc th
     let rises (u : State) (o : Nat) : Prop := (u.reg stileWin o).toNat = min 0xFFFFFFFF ((s.reg stileWin o).toNat + 1)
     s.inService stileWin = true → th.outstanding < 16 → (∀ o ∈ th.ops, o.no ≠ th.issued) →
     (8192 ≤ l →
       (acq → Leaves (.sacq t gd gs ev) s (fun u => u.stile = s.stile ∧ word u (grantWord 4 (l % 8192) (s.lock (l % 8192)).abandoned))) ∧
       (try' → Leaves (.stry t gd gs ev) s (fun u => u.stile = s.stile ∧ word u (grantWord 4 (l % 8192) (s.lock (l % 8192)).abandoned)))) ∧
     (l < 8192 → s.lockAdmits l w = false →
       (acq → Leaves (.sacq t gd gs ev) s (fun u => u.stile = s.stile ∧ ended u 3)) ∧
       (try' → Leaves (.stry t gd gs ev) s (fun u => u.stile = s.stile ∧ ended u 3)) ∧
       (Issues s t (encR 0x20 0 gs.val 0 0x012) → Leaves (.srel t gs) s (fun u => u.stile = s.stile ∧ rises u 0x210 ∧ released u))) ∧
     (l < 8192 → s.lockAdmits l w = true → x.holder = none →
       (acq → Leaves (.sacq t gd gs ev) s (fun u => u.lock l = { x with holder := some w, carried := x.abandoned } ∧ ended u 0)) ∧
       (try' → Leaves (.stry t gd gs ev) s (fun u => u.lock l = { x with holder := some w, carried := x.abandoned } ∧ ended u 0)) ∧
       (Issues s t (encR 0x20 0 gs.val 0 0x012) → Leaves (.srel t gs) s (fun u => u.stile = s.stile ∧ rises u 0x20C ∧ released u))) ∧
     (l < 8192 → s.lockAdmits l w = true → x.holder = some w → x.leaving = none →
       (acq → Leaves (.sacq t gd gs ev) s (fun u => u.stile = s.stile ∧ ended u 2)) ∧
       (try' → Leaves (.stry t gd gs ev) s (fun u => u.stile = s.stile ∧ ended u 2))) ∧
     (l < 8192 → s.lockAdmits l w = true → (∃ h, x.holder = some h ∧ h ≠ w) →
       (try' → Leaves (.stry t gd gs ev) s (fun u => u.lock l = x ∧ ended u 1)) ∧
       (acq → full → Leaves (.sacq t gd gs ev) s (fun u => u.stile = s.stile ∧ ended u 5 ∧ (u.reg stileWin 0x240).getLsbD 2 = true)) ∧
       (acq → ¬ full →
         Leaves (.sacq t gd gs ev) s (fun u => u.lock l = { x with queue := x.queue ++ [⟨w, th.issued⟩] } ∧
           (∃ o, (u.thread t).ops = th.ops ++ [o] ∧ o.kind = .lock ∧ o.no = th.issued ∧ o.dst = gd.val ∧ o.ev = some ev.toNat) ∧
           (u.thread t).regs = th.regs ∧ (u.thread t).pc = nextPc th))) ∧
     (l < 8192 → s.lockAdmits l w = true → (∃ h, x.holder = some h) → Issues s t (encR 0x20 0 gs.val 0 0x012) → Leaves (.srel t gs) s (fun u =>
       u.lock l = (if x.leaving.isSome then x else ({ x with abandoned := x.abandoned && !x.carried } : LockSt).pass) ∧
       (∀ k, k ≠ l → u.lock k = s.lock k) ∧ released u ∧ (x.holder ≠ some w → rises u 0x208 ∧ (u.reg stileWin 0x240).getLsbD 0 = true))))

/-- R294, R296: a lock handed on is granted to its waiter; a held lock that Spine forces is freed as abandoned, with the events abandoned and
forced, but a thread's with writes under way only once they are complete; a lock whose departed holder's writes are complete is freed as
abandoned. Every other lock is as it was.
The model's readings and choices that it shows: log 71. -/
def Obligations.LocksAreHandedOnAndForced : Prop :=
  ∀ (s : State) (l : BitVec 13),
    let x := s.lock l.toNat
    let others (u : State) : Prop := ∀ k, k ≠ l.toNat → u.lock k = s.lock k
    let freed (u : State) : Prop := u.lock l.toNat = ({ x with abandoned := true } : LockSt).pass ∧ (u.reg stileWin 0x240).getLsbD 1 = true ∧ others u
    let writing (h : Nat) : Bool := (s.thread (whoThread h)).ops.any LeafOp.writes || s.leavingWrites h != []
    (∀ w ab rest, x.grants = (w, ab) :: rest →
      (whoKind w.who ≠ 0 → Leaves (.lockHandoff l) s (fun u => u.lock l.toNat = { x with grants := rest } ∧
        u.stilePort (whoPort w.who) ++ u.stileLate (whoPort w.who) = s.stilePort (whoPort w.who) ++ s.stileLate (whoPort w.who) ++
          [BitVec.ofNat 64 (2 ^ 31 + grantWord 0 l.toNat ab % 2 ^ 24)] ∧ (u.stilePort (whoPort w.who)).length ≤ 8 ∧ others u)) ∧
      (∀ o, whoKind w.who = 0 → (s.thread (whoThread w.who)).ops.find? (fun o => o.kind == .lock && o.no == w.op) = some o →
        Leaves (.lockHandoff l) s (fun u => u.lock l.toNat = { x with grants := rest } ∧ others u ∧
          (o.dst ≠ 0 → (u.thread (whoThread w.who)).g o.dst = BitVec.ofNat 64 (grantWord 0 l.toNat ab)) ∧
          (∀ b, o.ev = some b → b < 32 → (u.thread (whoThread w.who)).events.getLsbD b = true)))) ∧
    (∀ w, x.grants = [] → x.leaving = some w → s.writesDone x w = true → Leaves (.lockHandoff l) s freed) ∧
    (∀ h, x.holder = some h → x.leaving = none →
      ((whoKind h ≠ 0 ∨ writing h = false) → Leaves (.stileForce l) s (fun u => freed u ∧ (u.reg stileWin 0x240).getLsbD 3 = true)) ∧
      (whoKind h = 0 → writing h = true → Leaves (.stileForce l) s (fun u =>
        u.lock l.toNat = { x with leaving := some ⟨s.leavingWrites h, some (s.thread (whoThread h)).issued⟩ } ∧ (u.reg stileWin 0x240).getLsbD 3 = true ∧ others u)))

/-! ### Faults, supervisor and debugger (07) -/

/-- R197, R198, R199, R204, R205: the Quire writes a stopped thread's record and map bit, counts the fault and makes the supervisor's entry
pending; an automatic restart starts the thread at its role's entry; RESTART does so and clears the record; CLEAR_RECORD clears the map bit. -/
def Obligations.FaultsAreRecordedAndThreadsRestart : Prop :=
  ∀ (s : State) (t : Tid),
    let q := tidQuire t
    let w := quireWin q
    let n := t.val % 72
    let restarted (u : State) : Prop := ∀ e, (s.quire q).entries = some e → (u.thread t).started = true ∧ (u.thread t).fault = none ∧
      (u.thread t).pc = programAddr (if s.isSup t then e.1 else e.2.2.1) ∧ (u.thread t).evec = programAddr (if s.isSup t then e.2.1 else e.2.2.2) ∧
      (u.thread t).regs = [] ∧ (u.thread t).task = none ∧ (u.thread t).notBefore = s.time.cycles + 8
    (∀ f, (s.thread t).fault = some f → f.recorded = false → 1 ≤ f.kind → f.kind ≤ 8 →
      Leaves (.faultRecord t) s (fun u =>
        (u.reg w (0x1000 + 0x20 * n)).toNat = f.kind + 256 * (bit f.hadTask + 2 * bit f.async + 4 * bit f.handler) + 65536 * (f.tenant % 65536) ∧
        u.reg w (0x1000 + 0x20 * n + 8) = f.insn ∧ (u.reg w (0x1000 + 0x20 * n + 12)).toNat = f.pc % 2 ^ 32 ∧
        (u.reg w (0x1900 + 4 * (n / 32))).getLsbD (n % 32) = true ∧
        (u.reg w (0x1940 + 4 * (f.kind - 1))).toNat = min 0xFFFFFFFF ((s.reg w (0x1940 + 4 * (f.kind - 1))).toNat + 1) ∧
        (∃ g, (u.thread t).fault = some g ∧ g.recorded = true) ∧ (u.thread (s.supOf q)).nmi = true)) ∧
    (∀ f, (s.thread t).fault = some f → f.recorded = true → f.restart = true → s.leafServes t = true →
      Leaves (.autoRestart t) s restarted) ∧
    (s.leafServes t = true → ∀ r : Fin 24, r.val = q →
      Leaves (.threadRestart r (BitVec.ofNat 7 n)) s (fun u => restarted u ∧ (u.reg w (0x1900 + 4 * (n / 32))).getLsbD (n % 32) = false) ∧
      Leaves (.clearRecord r (BitVec.ofNat 7 n)) s (fun u => (u.reg w (0x1900 + 4 * (n / 32))).getLsbD (n % 32) = false ∧
        u.reg w (0x1000 + 0x20 * n) = 0 ∧ u.threads = s.threads))

/-- R201 to R203: when every counted thread of a Quire has been quiet for 256 LEAF cycles, an episode begins (or goes on), quiet_deadlock is set,
the detections rise and the supervisor's entry is pending; an episode longer than limit_us sets the deadlock event, once.
The model's readings and choices that it shows: log 58. -/
def Obligations.QuietDeadlockIsDetectedAndEscalates : Prop :=
  ∀ (s : State) (q : Fin 24),
    let w := quireWin q
    let x := s.quire q
    (∀ since, s.allQuiet q = some since → since + 128 ≤ s.time.cycles → x.deadSeen ≠ some since →
      Leaves (.quietDeadlock q) s (fun u => (u.quire q).deadSeen = some since ∧
        (u.quire q).episode = (match x.episode with | some e => some e | none => some (s.time.cycles, false)) ∧
        (u.reg w 0x1910).getLsbD 1 = true ∧ u.rf w 0x1920 15 0 = min 0xFFFF (s.rf w 0x1920 15 0 + 1) ∧ (u.thread (s.supOf q)).nmi = true ∧
        ∀ y, y ≠ s.supOf q → u.thread y = s.thread y)) ∧
    (∀ since, x.episode = some (since, false) → (s.reg w 0x191C).toNat ≠ 0 → since + 1000 * (s.reg w 0x191C).toNat < s.time.cycles →
      Leaves (.deadlockEscalation q) s (fun u => (u.quire q).episode = some (since, true) ∧ (u.reg w 0x100).getLsbD 0 = true ∧
        u.threads = s.threads))

/-- R206 to R210: under authenticated debug HALT asks a running thread to halt, RESUME and STEP let a halted thread go (STEP for one
instruction), and RESET_THREAD leaves it zero and halted at its role's entry; without it each command sets refused and does nothing else.
The model's readings and choices that it shows: log 64. -/
def Obligations.DebugCommandsActOnThreads : Prop :=
  ∀ (s : State) (t : Tid),
    let th := s.thread t
    let others (u : State) : Prop := ∀ x, x ≠ t.val → u.thread x = s.thread x
    (s.threadDebug = true →
      (th.started = true → th.halted = false → th.fault = none → Leaves (.dbgHalt t) s (fun u => (u.thread t).haltReq = true ∧
        (u.thread t).pc = th.pc ∧ (u.thread t).regs = th.regs ∧ others u)) ∧
      (th.halted = true → Leaves (.dbgResume t) s (fun u => (u.thread t).halted = false ∧ (u.thread t).step = false ∧
        (u.thread t).pc = th.pc ∧ (u.thread t).regs = th.regs ∧ others u)) ∧
      (th.halted = true → Leaves (.dbgStep t) s (fun u => (u.thread t).halted = false ∧ (u.thread t).step = true ∧
        (u.thread t).pc = th.pc ∧ (u.thread t).regs = th.regs ∧ others u)) ∧
      (∀ e, (s.quire (tidQuire t)).entries = some e → Leaves (.resetThread t) s (fun u => (u.thread t).halted = true ∧
        (u.thread t).pc = programAddr (if s.isSup t then e.1 else e.2.2.1) ∧ (u.thread t).regs = [] ∧ (u.thread t).mem = [] ∧
        (u.thread t).task = none))) ∧
    (s.threadDebug = false → ∀ i ∈ [Instr.dbgHalt t, Instr.dbgResume t, Instr.dbgStep t, Instr.resetThread t],
      Leaves i s (fun u => (u.reg (tidLeafWin t) 0x104).getLsbD 0 = true ∧ u.threads = s.threads ∧ u.quires = s.quires))

/-- R226, R238 to R240, R244: a thread's oldest operation in its Quire's shared memory completes: a load gives its register the bytes and
raises its event; an XLD writes the bytes into local memory and no other byte there; a store or an AMO leaves shared memory with its bytes
written and every other byte as it was; an answer of buffer or table memory that has been served does the same for the operation that asked;
one that met an uncorrectable error writes no register and raises DATA_ERROR.

R242: a read of packet space completes once the cells it reads can be read: its register or local memory takes the bytes; it waits while a
channel holds its requests, and raises DATA_ERROR where a cell is uncorrectable or its channel is lost.
The model's readings and choices that it shows: log 79, 81. -/
def Obligations.OperationsComplete : Prop :=
  ∀ (s : State) (t : Tid) (o : LeafOp),
    let th := s.thread t
    let q := tidQuire t
    let old := Memory.readBytes (s.quire q).shared o.addr o.len
    let new := leBytes o.len (match o.amo with | some (op, g, c) => amoResult op (leNat old) g.toNat c.toNat o.len | none => 0)
    let event (u : State) : Prop := ∀ b, o.ev = some b → b < 32 → (u.thread t).events.getLsbD b = true
    let local' (u : State) (data : List Byte) : Prop :=
      Memory.readBytes (u.thread t).mem o.loc data.length = data ∧
      ∀ c, c < o.loc ∨ o.loc + data.length ≤ c → Memory.read (u.thread t).mem c = Memory.read th.mem c
    let failed (u : State) : Prop := ∃ f, (u.thread t).fault = some f ∧ f.kind = fDATA ∧ f.async = true ∧ f.insn = o.word ∧
      f.detail = BitVec.ofNat 64 o.addr
    (th.ops.find? (fun o => o.inSpace 0) = some o → o.addr < 0x3FF000 → o.addr + o.len ≤ 0x3FF000 → s.errsIn (quireWin q) 0 o.addr o.len = [] →
      (o.kind = .load → o.amo = none → o.dst ≠ 0 → Leaves (.asyncCompletion t 0) s (fun u =>
        (u.thread t).g o.dst = BitVec.ofNat 64 (leNat old) ∧ event u ∧ (u.quire q).shared = (s.quire q).shared)) ∧
      (o.kind = .xld → o.amo = none → Leaves (.asyncCompletion t 0) s (fun u => local' u old ∧ event u ∧ (u.quire q).shared = (s.quire q).shared)) ∧
      (o.kind = .store ∨ o.kind = .xst → Leaves (.asyncCompletion t 0) s (fun u => event u ∧
        (∀ c, Memory.read (u.quire q).shared c = Memory.read (Memory.writeBytes (s.quire q).shared o.addr o.data) c) ∧
        (∀ c, c < o.addr ∨ o.addr + o.data.length ≤ c → Memory.read (u.quire q).shared c = Memory.read (s.quire q).shared c))) ∧
      (o.kind = .amo → o.amo.isSome = true → o.dst ≠ 0 → Leaves (.asyncCompletion t 0) s (fun u =>
        (u.thread t).g o.dst = BitVec.ofNat 64 (leNat old) ∧ event u ∧
        (∀ c, Memory.read (u.quire q).shared c = Memory.read (Memory.writeBytes (s.quire q).shared o.addr new) c)))) ∧
    (∀ (sp : BitVec 2) (d : MemDone), (sp = 1 ∨ sp = 2) → th.ops.find? (fun o => o.inSpace sp.toNat) = some o →
      SMap.find s.mem.done o.id = some d → s.served o.id = true →
      (d.bad = false → o.kind = .load ∨ o.kind = .amo → o.dst ≠ 0 → Leaves (.asyncCompletion t sp) s (fun u =>
        (u.thread t).g o.dst = BitVec.ofNat 64 (leNat d.data) ∧ event u ∧ SMap.find u.mem.done o.id = none)) ∧
      (d.bad = false → o.kind = .xld → Leaves (.asyncCompletion t sp) s (fun u => local' u d.data ∧ event u ∧ SMap.find u.mem.done o.id = none)) ∧
      (d.bad = true → th.fault = none → Leaves (.asyncCompletion t sp) s (fun u => failed u ∧ (u.thread t).regs = th.landAll.regs))) ∧
    (th.ops.find? (fun o => o.inSpace 3) = some o →
      let found := (s.readPacket o.pid (o.addr / 256) ((o.addr + o.len - 1) / 256 + 1 - o.addr / 256)).1
      (s.cellsAvail o.pid = .hold → Leaves (.asyncCompletion t 3) s (fun u => u = s)) ∧
      (s.cellsAvail o.pid = .ok → found = false →
        (o.kind = .load → o.dst ≠ 0 → Leaves (.asyncCompletion t 3) s (fun u => (u.thread t).g o.dst = BitVec.ofNat 64 (leNat o.data) ∧ event u)) ∧
        (o.kind = .xld → Leaves (.asyncCompletion t 3) s (fun u => local' u o.data ∧ event u))) ∧
      (s.cellsAvail o.pid = .bad ∨ (s.cellsAvail o.pid ≠ .hold ∧ found = true) → th.fault = none →
        Leaves (.asyncCompletion t 3) s (fun u => failed u ∧ (u.thread t).regs = th.landAll.regs)))

/-! ### Coprocessors and Tooling (09) -/

/-- R248, R255, R256, R267: an accepted CPOP of Awl stands in its thread's context as an operation that will write cd with its function's
result of cd, cs and ct; it writes no register of the context yet. One that names a register beyond Awl's sixteen is UNDEF.

R267, bit by bit, byte by byte and word by word, for 128-bit values c of cs, x of ct and d of cd: MOV, XOR, AND, OR, the ones'-complement sum of CSUM,
the remainders of CRC32C and CRC32, the carry-less product of CLMUL, EXT, INS, SHUF, BSWAP, POPC and CMPEQ8. -/
def Obligations.AwlFunctionsComputeBitByBit : Prop :=
  (∀ (i : Instr) (s : State) (r : CoRow), coprocRow i = some r → r.cp = 0 →
     let t := r.t
     let th := ready s t
     Issues s t (encCO 0 r.fn r.cd r.cs r.ct) → r.fn ≤ 0x0D →
     (16 ≤ r.cd ∨ 16 ≤ r.cs ∨ (16 ≤ r.ct ∧ r.fn ≠ 0x05 ∧ r.fn ≠ 0x06) →
       Leaves i s (fun u => Faults s u t fUNDEF (encCO 0 r.fn r.cd r.cs r.ct) 0 ∧ NoEffect s u t)) ∧
     (r.cd < 16 → r.cs < 16 → r.ct < 16 ∨ r.fn = 0x05 ∨ r.fn = 0x06 → th.awl.ops = [] →
     Leaves i s (fun u => (u.thread t).awl.regs = th.awl.regs ∧
       (∃ o, (u.thread t).awl.ops = [o] ∧ o.fn = r.fn ∧
         o.writes = some [(r.cd, awlResult r.fn (th.awl.r r.cd) (th.awl.r r.cs) (th.awl.r r.ct) r.ct s.freeBits)]) ∧
       (u.thread t).regs = th.regs ∧ (u.thread t).pend = th.pend ∧ (u.thread t).flags = th.flags ∧ (u.thread t).mem = th.mem ∧
       (u.thread t).pc = nextPc th ∧ ∀ x, x ≠ t → u.thread x = s.thread x))) ∧
  (∀ (d c x imm free k : Nat), c < 2 ^ 128 → x < 2 ^ 128 → d < 2 ^ 128 →
     let res (fn : Nat) : Nat := awlResult fn d c x imm free
     let byte (v i : Nat) : Nat := v / 256 ^ i % 256
     (res 0).testBit k = c.testBit k ∧ (res 1).testBit k = (c.testBit k != x.testBit k) ∧ (res 2).testBit k = (c.testBit k && x.testBit k) ∧
     (res 3).testBit k = (c.testBit k || x.testBit k) ∧
     (let total := d % 65536 + ((List.range 8).map (fun i => 256 * byte c (2 * i) + byte c (2 * i + 1))).sum
      res 4 = if total = 0 then 0 else (total - 1) % 65535 + 1) ∧
     (imm < 16 → res 5 = ((List.range (8 * imm + 8)).map c.testBit).foldl (crcBit 0x82F63B78) (d % 2 ^ 32) ∧
       res 6 = ((List.range (8 * imm + 8)).map c.testBit).foldl (crcBit 0xEDB88320) (d % 2 ^ 32)) ∧
     (res 7).testBit k = decide ((List.range 64).countP (fun i => decide (i ≤ k) && decide (k < i + 64) && c.testBit i && x.testBit (k - i)) % 2 = 1) ∧
     (bitsOf x 14 8 < 64 → (res 8).testBit k = (decide (k ≤ bitsOf x 14 8) && c.testBit (bitsOf x 6 0 + k))) ∧
     (res 9).testBit k = (decide (k < 128) && (if bitsOf x 6 0 ≤ k ∧ k ≤ bitsOf x 6 0 + bitsOf x 14 8 then c.testBit (k - bitsOf x 6 0) else d.testBit k)) ∧
     (k < 16 → byte (res 0x0A) k = (if 128 ≤ byte x k then 0 else byte c (byte x k % 16)) ∧ byte (res 0x0B) k = byte c (15 - k) ∧
       (res 0x0D).testBit k = decide (byte c k = byte x k)) ∧
     res 0x0C = (List.range 128).countP (fun i => c.testBit i))

/-- R256, R259, R268 to R270: an accepted CPOP of Clasp, with its context resident and no operation before it, runs: it stands in its context
with the result writes and leaves the hidden state that its function gives; KEYSEL needs a slot of the requesting task's tenant, a function
that needs a key writes zeros and sets no_key without one, and zeros and key_gone where the slot's generation has changed.
The model's readings and choices that it shows: log 66. -/
def Obligations.ClaspFunctionsRun : Prop :=
  ∀ (i : Instr) (s : State) (r : CoRow), coprocRow i = some r → r.cp = 1 →
    let t := r.t
    let q := tidQuire t
    let th := ready s t
    let slot := th.clasp.r r.cs % 1024
    let op : CpOp := { s.newCpOp t r.fn r.cd r.cs (if r.fn = 0 then slot else r.ct) with gen := if r.fn = 0 then (s.keySlot slot).gen else 0 }
    let run := s.claspRun op th.clasp th.hidden
    let zeros := (List.range (((claspShape r.fn).map (·.2)).getD 0)).map (fun n => (r.cd + n, 0))
    Issues s t (encCO 1 r.fn r.cd r.cs r.ct) → claspKnown r.fn r.cd r.cs r.ct = true → s.isResident t = true → th.clasp.ops = [] →
    (s.quire q).claspQ = [] →
    ((r.fn = 0 → ∃ k x, s.heldTask t = some (k, x) ∧ (s.keySlot slot).held.map (·.1) = some x.tenant) →
      Leaves i s (fun u => (u.thread t).clasp.regs = th.clasp.regs ∧ (u.thread t).hidden = run.2 ∧
        (u.thread t).clasp.ops = [{ op with writes := some run.1 }] ∧ (u.quire q).claspQ = [ctxOf t] ∧
        (u.reg (quireWin q) 0x2040).toNat = min 0xFFFFFFFF ((s.reg (quireWin q) 0x2040).toNat + 1) ∧
        (u.thread t).regs = th.regs ∧ (u.thread t).pend = th.pend ∧ (u.thread t).pc = nextPc th ∧ u.keys = s.keys ∧
        ∀ x, x ≠ t → u.thread x = s.thread x)) ∧
    (r.fn = 0 → (∀ k x, s.heldTask t = some (k, x) → (s.keySlot slot).held.map (·.1) ≠ some x.tenant) →
      Leaves i s (fun u => Faults s u t fDOMAIN (encCO 1 0 r.cd r.cs r.ct) slot ∧
        (u.reg (quireWin q) 0x2048).toNat = min 0xFFFFFFFF ((s.reg (quireWin q) 0x2048).toNat + 1))) ∧
    (r.fn ≠ 0 → r.fn ≠ 0x1F → s.claspKey th.hidden = .gone → run = (zeros, { th.hidden with status := th.hidden.status ||| 1 })) ∧
    (claspNeedsKey r.fn = true → s.claspKey th.hidden = .noKey → run = (zeros, { th.hidden with status := th.hidden.status ||| 4 }))

/-- R248, R252, R255, R256: MTC writes one 64-bit part of a coprocessor register and nothing else of the context, also where a CPOP accepted before it
has not ended, which it then comes after; MFC gives its register the part as most recently written, three instructions on; BCB branches as its
context is busy or not.

R248, R223, R2: a CPOP of customer logic that is attached joins its context, and its end writes cd alone with a value that the model leaves free, for what
the logic computes is not given (log 34); one that names a register beyond the file is UNDEF. A CPOP, MTC, MFC or BCB of a coprocessor that is not
attached, as 2 and 3 never are, and 4 to 7 only in the -C variant, raises NOCP with cp as detail.

R256, R259, R260, R266: the end of a CPOP writes its results and leaves the context free; a context that waits takes the place of the least
recently used resident one that is neither busy nor pinned, whose registers go to its save area; its own come from its save area, and it is
pinned for 64 LEAF cycles, which the pin's expiry ends; a beat of a customer coprocessor's save port moves 32 bytes of its save area.
The model's readings and choices that it shows: log 65, 69. -/
def Obligations.CoprocessorRegistersAndContexts : Prop :=
  (∀ (s : State) (t : Tid) (cp : BitVec 3) (g : Reg) (cr : BitVec 5) (part : BitVec 2) (f : Nat × Nat),
     let th := ready s t
     let c := cp.toNat
     let x := th.cp c
     s.cpFile c = some f → cr.toNat < f.1 → part.toNat < f.2 → (c = 1 → s.isResident t = true) →
     (Issues s t (encCM 0x39 c g.val cr.toNat part.toNat) → Leaves (.mtc t cp g cr part) s (fun u =>
       let y := (u.thread t).cp c
       (∀ k, (y.seen.r cr.toNat).testBit k =
         (if 64 * part.toNat ≤ k ∧ k < 64 * part.toNat + 64 then (th.g g).getLsbD (k - 64 * part.toNat) else (x.seen.r cr.toNat).testBit k)) ∧
       (∀ n, n ≠ cr.toNat → y.seen.r n = x.seen.r n) ∧ (x.ops = [] → y.ops = []) ∧
       (x.ops ≠ [] → y.regs = x.regs ∧ ∃ o, y.ops = x.ops ++ [o] ∧ o.cd = cr.toNat ∧ o.mtc = some (part.toNat, th.g g)) ∧
       (u.thread t).regs = th.regs ∧ (u.thread t).pc = nextPc th ∧ ∀ z, z ≠ t.val → u.thread z = s.thread z)) ∧
     (Issues s t (encCM 0x3A c g.val cr.toNat part.toNat) → Leaves (.mfc t g cp cr part) s (fun u =>
       (u.thread t).pend = (withResult th g.val 3 (BitVec.ofNat 64 (x.seen.r cr.toNat >>> (64 * part.toNat))) false false).pend ∧
       (u.thread t).cp c = x ∧ (u.thread t).regs = th.regs ∧ (u.thread t).pc = nextPc th ∧ ∀ y, y ≠ t.val → u.thread y = s.thread y)) ∧
     (∀ (sense a : Bool) (off : BitVec 12), Issues s t (encCB c (bit sense) (bit a) off.toNat) → Leaves (.bcb t cp sense a off) s (fun u =>
       let taken : Bool := (!x.ops.isEmpty) != sense
       ThreadIs (u.thread t) th ((th.pc + 4) % 0x80000) true (if taken then some (targetAt th.pc off) else none) (a && !taken) ∧
       ∀ y, y ≠ t.val → u.thread y = s.thread y))) ∧
  (∀ (s : State) (t : Tid) (cp : BitVec 3) (fn : BitVec 8) (cd cs ct : BitVec 5) (g : Reg) (part : BitVec 2) (sense a : Bool) (off : BitVec 12),
     let th := ready s t
     let c := cp.toNat
     let w := encCO c fn.toNat cd.toNat cs.toNat ct.toNat
     (∀ f : Nat × Nat, 4 ≤ c → s.cpFile c = some f → Issues s t w →
       (cd.toNat < f.1 → cs.toNat < f.1 → ct.toNat < f.1 → Leaves (.cpop t cp fn cd cs ct) s (fun u =>
         (∃ o, ((u.thread t).cp c).ops = (th.cp c).ops ++ [o] ∧ o.fn = fn.toNat ∧ o.cd = cd.toNat ∧ o.cs = cs.toNat ∧ o.ct = ct.toNat ∧ o.mtc = none) ∧
         ((u.thread t).cp c).regs = (th.cp c).regs ∧ (u.thread t).regs = th.regs ∧ (u.thread t).pc = nextPc th ∧
         ∀ x, x ≠ t.val → u.thread x = s.thread x)) ∧
       (f.1 ≤ cd.toNat ∨ f.1 ≤ cs.toNat ∨ f.1 ≤ ct.toNat →
         Leaves (.cpop t cp fn cd cs ct) s (fun u => Faults s u t fUNDEF w 0 ∧ NoEffect s u t))) ∧
     (∀ o : CpOp, 4 ≤ c → ((s.thread t).cp c).ops = [o] → Leaves (.cpopEnd t cp) s (fun u => ((u.thread t).cp c).ops = [] ∧
       (∀ n, n ≠ o.cd → ((u.thread t).cp c).r n = ((s.thread t).cp c).r n) ∧ (u.thread t).regs = (s.thread t).regs ∧
       ∀ x, x ≠ t.val → u.thread x = s.thread x)) ∧
     (c = 2 ∨ c = 3 ∨ (4 ≤ c ∧ s.variant ≠ 2) → ∀ (i : Instr) (v : Word32),
       (i = .cpop t cp fn cd cs ct ∧ v = w) ∨ (i = .mtc t cp g cd part ∧ v = encCM 0x39 c g.val cd.toNat part.toNat) ∨
         (i = .mfc t g cp cd part ∧ v = encCM 0x3A c g.val cd.toNat part.toNat) ∨ (i = .bcb t cp sense a off ∧ v = encCB c (bit sense) (bit a) off.toNat) →
       Issues s t v → Leaves i s (fun u => Faults s u t fNOCP v c ∧ NoEffect s u t))) ∧
  ((∀ (s : State) (t : Tid) (o : CpOp) (r v : Nat), (s.thread t).awl.ops = [o] → o.writes = some [(r, v)] →
     Leaves (.cpopEnd t 0) s (fun u => (u.thread t).awl.r r = v ∧ (u.thread t).awl.ops = [] ∧
       (∀ n, n ≠ r → (u.thread t).awl.r n = (s.thread t).awl.r n) ∧ (u.thread t).regs = (s.thread t).regs ∧
       ∀ x, x ≠ t.val → u.thread x = s.thread x)) ∧
   (∀ (s : State) (t : Tid) (o : CpOp) (ws : List (Nat × Nat)), (s.thread t).clasp.ops = [o] → o.writes = some ws →
     (s.quire (tidQuire t)).claspQ = [ctxOf t] →
     Leaves (.cpopEnd t 1) s (fun u => (u.thread t).clasp = { (s.thread t).clasp.apply ws with ops := [] } ∧
       (u.quire (tidQuire t)).claspQ = [] ∧
       (∀ tn, o.tenant = some tn → claspReport o.fn (o.ct + 1) ≠ 0 → u.reports = s.reports ++ [⟨tn, o.ts, [(5, claspReport o.fn (o.ct + 1))], none⟩]) ∧
       (o.tenant = none → u.reports = s.reports) ∧ ∀ x, x ≠ t.val → u.thread x = s.thread x)) ∧
   (∀ (s : State) (q : Fin 24) (c : Nat) (rest : List Nat),
     let x := s.quire q
     let image (m : List Host.Cell) (n i : Nat) : Nat := leNat (Memory.readBytes m (claspSave n + 32 * i) 32)
     let pinned (u : State) : Prop := SMap.find (u.quire q).pins c = some (s.time.cycles + 32) ∧ (u.quire q).switchQ = rest ∧
       (u.reg (quireWin q) 0x2044).toNat = min 0xFFFFFFFF ((s.reg (quireWin q) 0x2044).toNat + 1) ∧
       (∀ i, i < 8 → (u.thread (ctxThread q c)).clasp.r i = image x.shared c i) ∧
       (u.thread (ctxThread q c)).hidden = (s.thread (ctxThread q c)).hidden ∧ ∀ t, t ≠ ctxThread q c → u.thread t = s.thread t
     x.switchQ = c :: rest → c ∉ x.resident → s.errsIn (quireWin q) 0 (claspSave c) 512 = [] →
     (x.resident.length < 4 → Leaves (.contextSwitch q) s (fun u => (u.quire q).resident = x.resident ++ [c] ∧ pinned u ∧
       (u.quire q).shared = x.shared)) ∧
     (∀ pre v post, 4 ≤ x.resident.length → x.resident = pre ++ v :: post → v ∉ pre → v ∉ post →
       (∀ y ∈ pre, (s.thread (ctxThread q y)).clasp.ops ≠ [] ∨ (SMap.find x.pins y).isSome = true) →
       (s.thread (ctxThread q v)).clasp.ops = [] → SMap.find x.pins v = none →
       Leaves (.contextSwitch q) s (fun u => (u.quire q).resident = pre ++ post ++ [c] ∧ pinned u ∧
         (∀ i, i < 8 → image (u.quire q).shared v i = (s.thread (ctxThread q v)).clasp.r i % 2 ^ 256) ∧
         ∀ a, a < claspSave v ∨ claspSave v + 512 ≤ a → Memory.read (u.quire q).shared a = Memory.read x.shared a))) ∧
   (∀ (s : State) (q : Fin 24) (ctx : Fin 72) (e : Nat), SMap.find (s.quire q).pins ctx = some e → e ≤ s.time.cycles →
     Leaves (.contextPinExpiry q ctx) s (fun u => SMap.find (u.quire q).pins ctx = none ∧ (u.quire q).resident = (s.quire q).resident ∧
       u.threads = s.threads)) ∧
   (∀ (s : State) (q : Fin 24) (cp : BitVec 2) (ctx : Fin 72) (beat : BitVec 5) (data : BitVec 256),
     let a := 0x3A0000 + 0x12000 * cp.toNat + 0x400 * ctx.val + 32 * beat.toNat
     let old := (s.quire q).shared
     let on := (s.cpFile (4 + cp.toNat)).isSome
     Leaves (.savePortBeat q cp true ctx beat data) s (fun u =>
       (∀ b, Memory.read (u.quire q).shared b = Memory.read (if on then Memory.writeBytes old a (leBytes 32 data.toNat) else old) b) ∧
       (∀ b, b < a ∨ a + 32 ≤ b → Memory.read (u.quire q).shared b = Memory.read old b)) ∧
     (s.errsIn (quireWin q) 0 a 32 = [] → Leaves (.savePortBeat q cp false ctx beat data) s (fun u => (u.quire q).shared = old ∧
       u.readData = (if on then BitVec.ofNat 256 (leNat (Memory.readBytes old a 32)) else s.readData)))))

/-- R250, R274, R282: a custom instruction whose function has its ROM default, unpatched, gives gd the function's result as its next instruction
sees it, after the slots of its row; its completion is counted. A named row and CUSTOM_INSTRUCTION with its number are the same instruction. R280: a
function of more than one slot that finds an entry or halt pending completes so, or stops at a stitch, where THR_MPC shows it outside a handler.

R282, R214: the device-defined functions of local memory, for at most 2,048 bytes that lie in local memory: gd receives the result of the
row, the row's bytes are stored and no other byte changes; more than 2,048 bytes raise DOMAIN before any store. The checksum of an odd number of
header bytes is padded as LCSUM's is (log entry 68).

R222, R275: a custom instruction whose function no valid decode entry holds is UNDEF.
The model's readings and choices that it shows: log 61, 68. -/
def Obligations.RomFunctionsCompute : Prop :=
  (∀ (i : Instr) (s : State) (r : ToolRow) (t : Tid) (fn : BitVec 10) (gd gs gt : Reg), toolRow (ready s t).g i = some r →
     r.t = t.val → r.fn = fn.toNat → r.gd = gd.val → r.gs = gs.val → r.gt = gt.val →
     let th := ready s t
     let q := tidQuire t
     let slots := if r.fn < 8 then (r.fn + 2) / 2 + 1 else 1
     let completes (u : State) : Prop :=
       (u.thread t).pend = (withResult th r.gd 1 r.val false false).pend ∧ (u.thread t).regs = th.regs ∧ (u.thread t).flags = th.flags ∧
       (u.thread t).mem = th.mem ∧ (u.thread t).pc = nextPc th ∧ (u.thread t).issued = th.issued + 1 ∧
       (∀ k x, s.heldTask t = some (k, x) → u.task k = some { x with slots := x.slots + slots }) ∧
       (u.reg (quireWin q) 0x2380).toNat = min 0xFFFFFFFF ((s.reg (quireWin q) 0x2380).toNat + 1) ∧ ∀ x, x ≠ t.val → u.thread x = s.thread x
     let stops (u : State) : Prop := (u.thread t).pc = th.pc ∧ (u.thread t).regs = th.regs ∧ (u.thread t).pend = th.pend ∧ (u.thread t).mem = th.mem ∧
       (th.handler = false → (u.thread t).mpc.isSome = true) ∧
       (u.reg (quireWin q) 0x2384).toNat = min 0xFFFFFFFF ((s.reg (quireWin q) 0x2384).toNat + 1) ∧ ∀ x, x ≠ t.val → u.thread x = s.thread x
     Issues s t r.word → th.routine = none → s.decodeEntry q r.fn = some r.fn → s.romEntry q r.fn = true →
     (∀ k x, s.heldTask t = some (k, x) → x.slots + slots ≤ x.budget) →
     (∀ j, j = i ∨ j = .customInstruction t fn gd gs gt →
       (slots = 1 ∨ (th.wantEntry (s.isSup t) = false ∧ th.haltReq = false) → Leaves j s completes) ∧
       Leaves j s (fun u => completes u ∨ stops u))) ∧
  (∀ (i : Instr) (s : State) (r : LocalRow) (t : Tid), localRow (ready s t).g (Memory.readBytes (ready s t).mem) i = some r → r.t = t.val →
     let th := ready s t
     let q := tidQuire t
     let n := (th.g r.gt).toNat
     Issues s t r.word → th.routine = none → s.decodeEntry q r.fn = some r.fn → s.romEntry q r.fn = true →
     (∀ a k, s.errsIn (tidLeafWin t) 0 a k = []) →
     (n ≤ 2048 → (r.fn ≠ 0x22 → (th.g r.gs).toNat + n ≤ 0x1800) → (r.fn = 0x24 → (th.g r.gd).toNat + n ≤ 0x1800) →
       (∀ w data, r.store = some (w, data) → 0x200 ≤ w ∧ w + n ≤ 0x1800) →
       (∀ k x, s.heldTask t = some (k, x) → x.slots + fnSlots r.fn n ≤ x.budget) → th.wantEntry (s.isSup t) = false → th.haltReq = false →
       Leaves i s (fun u => (u.thread t).pend = (withResult th r.gd 1 r.val false false).pend ∧ (u.thread t).regs = th.regs ∧
         (u.thread t).mem = (match r.store with | some (w, data) => Memory.writeBytes th.mem w data | none => th.mem) ∧
         (∀ w data, r.store = some (w, data) → ∀ c, c < w ∨ w + n ≤ c → Memory.read (u.thread t).mem c = Memory.read th.mem c) ∧
         (u.thread t).pc = nextPc th ∧ (∀ k x, s.heldTask t = some (k, x) → u.task k = some { x with slots := x.slots + fnSlots r.fn n }) ∧
         ∀ x, x ≠ t.val → u.thread x = s.thread x)) ∧
     (2048 < n → Leaves i s (fun u => Faults s u t fDOMAIN r.word (th.g r.gs).toNat ∧ NoEffect s u t))) ∧
  (∀ (s : State) (t : Tid) (fn : BitVec 10) (gd gs gt : Reg),
     let entry (n : Nat) : Nat := 0x2200 + 4 * n
     let w := encCX fn.toNat gd.val gs.val gt.val
     Issues s t w → (ready s t).routine = none →
     (∀ n, n < 64 → s.rf (quireWin (tidQuire t)) (entry n) 31 31 = 1 → s.rf (quireWin (tidQuire t)) (entry n) 25 16 ≠ fn.toNat) →
     Leaves (.customInstruction t fn gd gs gt) s (fun u => Faults s u t fUNDEF w 0 ∧ NoEffect s u t))

/-- R281, R286: 256 microcycles of a routine with an entry or halt pending and no stitch raise MICRO_ATOMICITY with the microaddress (here a
routine of the owner store whose microword branches to itself); QUIRE_WIN reads and writes reach the tenant map and the profile entries.
The model's readings and choices that it shows: log 70, 115. -/
def Obligations.MicroAtomicityAndTenantWindows : Prop :=
  (∀ (s : State) (t : Tid) (r : Routine) (w : Word32),
    let th := ready s t
    Issues s t w → fld w 31 26 = 0x3C → leafKnown w = true → th.micro = true → th.wantEntry (s.isSup t) = true ∨ th.haltReq = true →
    (s.thread t).task = none → th.routine = some r → r.left = none → r.owner = true → 0x8000 ≤ r.upc → r.upc < 0x8800 →
    SMap.get (fun _ => 0) (s.quire (tidQuire t)).owner r.upc = BitVec.ofNat 32 (0x20000000 + r.upc) →
    Leaves (.microAtomicity t) s (fun u => Faults s u t fMICRO w r.upc ∧ (u.thread t).regs = th.landAll.regs ∧ (u.thread t).mem = th.mem ∧
      (u.reg (quireWin (tidQuire t)) 0x2388).toNat = min 0xFFFFFFFF ((s.reg (quireWin (tidQuire t)) 0x2388).toNat + 1))) ∧
  (∀ (s : State) (q : Fin 24),
    let w := quireWin q
    let i := s.rf w 0x200 13 0
    let x := s.quire q
    (s.rf w 0x200 31 31 = 1 →
      Leaves (.quireWinWrite q) s (fun u => SMap.get (fun _ => 0) (u.quire q).tenantMap i = s.rf w 0x210 8 0 ∧
        (∀ k, k ≠ i → SMap.get (fun _ => 0) (u.quire q).tenantMap k = SMap.get (fun _ => 0) x.tenantMap k) ∧ (u.quire q).profiles = x.profiles) ∧
      Leaves (.quireWinRead q) s (fun u => u.reg w 0x210 = BitVec.ofNat 32 (SMap.get (fun _ => 0) x.tenantMap i) ∧ u.quires = s.quires)) ∧
    (s.rf w 0x200 31 31 = 0 → i < 8192 →
      (s.windowLegal (s.winData q &&& windowFields) = true → Leaves (.quireWinWrite q) s (fun u =>
        SMap.get (fun _ => 0) (u.quire q).profiles i = BitVec.ofNat 128 (s.winData q &&& windowFields) ∧
        (∀ k, k ≠ i → SMap.get (fun _ => 0) (u.quire q).profiles k = SMap.get (fun _ => 0) x.profiles k) ∧ (u.quire q).tenantMap = x.tenantMap)) ∧
      (s.windowLegal (s.winData q &&& windowFields) = false → Leaves (.quireWinWrite q) s (fun u => u.quires = s.quires ∧
        (u.reg w 0x20).getLsbD 0 = true)) ∧
      Leaves (.quireWinRead q) s (fun u => u.winData q = (SMap.get (fun _ => (0 : Word128)) x.profiles i).toNat ∧ u.quires = s.quires)))

/-! ### Gatherings (01) -/

/-- R19, R20, R540: of a Gathering without members each command takes its own logic from the states that R19 lists to the state it lists, and
shows as accepted; RESET also ends a command in progress, and shows it as aborted. Every other Gathering stays where it is.

R20, R24, R25, R539, R540: a command other than NOP is refused with LOCKED in LOCKED security state, one other than RESET with BUSY while
the Gathering or one above it is busy, and one that nothing takes with REFUSED_STATE; a refusal counts and changes nothing else. NOP has no
effect at all. -/
def Obligations.GatheringCommandsMoveOrAreRefused : Prop :=
  (∀ (i : Instr) (s : State) (w : Nat) (c : UcbCmd), ucbRow i = some (w, c) → membersOf w = [] → Commandable s → QuietAbove s w →
     (s.gathOf w).tip = none →
     let g := s.gathOf w
     (g.cmd = none → c = .start → g.own = .off ∨ g.own = .quiet →
       Leaves i s (fun u => Entered s u w .starting ∧ (u.gathOf w).cmd = some .start ∧ Shows u w 1 0 0)) ∧
     (g.cmd = none → c = .drain → g.own = .inService →
       Leaves i s (fun u => Entered s u w (if kindOf w = 0x1B ∨ kindOf w = 0x1C ∨ kindOf w = 0x20 then .quiet else .quiescing) ∧ Shows u w 2 0 0)) ∧
     (g.cmd = none → c = .stop → g.own = .quiet ∨ g.own = .failed →
       Leaves i s (fun u => Entered s u w .off ∧ (u.gathOf w).cmd = none ∧ Shows u w 3 0 0)) ∧
     (c = .reset → g.own ≠ .absent → g.own ≠ .off →
       Leaves i s (fun u => Entered s u w .off ∧ (u.gathOf w).cmd = none ∧ Shows u w 4 0 (bit g.cmd.isSome))) ∧
     (g.cmd = none → c = .update → g.own = .quiet →
       Leaves i s (fun u => Entered s u w .updating ∧ (u.gathOf w).cmd = some .update ∧ Shows u w 5 0 0)) ∧
     (g.cmd = none → c = .resume → g.own = .quiet →
       Leaves i s (fun u => Entered s u w .inService ∧ (u.gathOf w).cmd = none ∧ Shows u w 6 0 0))) ∧
  ((∀ (s : State) (w : Win), Leaves (.ucbNop w) s (fun u => u = s)) ∧
   (∀ (i : Instr) (s : State) (w : Nat) (c : UcbCmd), ucbRow i = some (w, c) → s.heldInReset = false →
     let refused (result : Nat) : Prop := Leaves i s (fun u => u = { s with regs := u.regs } ∧ u.rf w 0x18 27 24 = c.code ∧
       u.rf w 0x18 23 16 = result ∧ u.rf w 0x18 15 0 = min 0xFFFF (s.rf w 0x18 15 0 + 1) ∧ u.rf w 0x18 30 30 = s.rf w 0x18 30 30 ∧
       ∀ x o, (x, o) ≠ (w, 0x18) → o < 65536 → u.reg x o = s.reg x o)
     (s.trust.sec = .locked → refused 3) ∧
     (s.trust.sec ≠ .locked → c ≠ .reset → (s.gathOf w).cmd.isSome = true ∨ (∃ a ∈ ancestorsOf w, (s.gathOf a).cmd.isSome = true) → refused 2) ∧
     (s.trust.sec ≠ .locked → (s.gathOf w).cmd = none → QuietAbove s w →
       (c ≠ .bindSpare → s.someTakes c 3 w = false → refused 1) ∧ (c = .bindSpare → s.bindOk w = false → refused 1))))

/-- R25: START, DRAIN, STOP, UPDATE and RESUME of a group whose own logic and bound members, recursively, are all in a state that R19 lists for it
move each of them as R19 lists, and RESET the spare and retired members with them; where some of the group's own logic and its bound members take the
command and some refuse it, each shows its own result and the group PARTIAL.

R26: a group reports the state that its own logic and its bound members hold, or mixed with the first of R26's order that any of them holds.

R27: a QUIESCING group enters QUIET once its own work is done and every bound member is QUIET, and not before.

R19, R513: BIND_SPARE of a Quire or of Ling, in a state that R19 lists, with a bound target and a spare that can be started, drains the target that
is IN_SERVICE; where the target needs no draining it starts the spare that is OFF or QUIET; where the spare is IN_SERVICE too, the roles of a
Quire's Leaves swap at once, and Ling's tipping-in goes on to its copy.
The model's readings and choices that it shows: log 46, 47, 117. -/
def Obligations.GroupsSpreadTheirCommands : Prop :=
  (∀ (i : Instr) (s : State) (w : Nat) (c : UcbCmd), ucbRow i = some (w, c) → c ≠ .bindSpare → Commandable s → QuietAbove s w →
    let untouched (u : State) (ms : List Nat) : Prop := ∀ x, x ∉ ms → u.gathOf x = s.gathOf x
    let idle (m : Nat) : Prop := (s.gathOf m).cmd = none ∧ (s.gathOf m).tip = none
    (c ≠ .reset → (∀ m ∈ groupOf s w, (s.gathOf m).own ∈ listedFrom c ∧ idle m) →
      Leaves i s (fun u => (∀ m ∈ groupOf s w, (u.gathOf m).own = listedTo c m ∧ Shows u m c.code 0 0 ∧
        (c ≠ .drain → (u.gathOf m).cmd = if c = .start ∨ c = .update then some c else none)) ∧ untouched u (groupOf s w))) ∧
    (c = .reset → (∀ m ∈ wholeGroup w, (s.gathOf m).own ≠ .absent ∧ (s.gathOf m).own ≠ .off) →
      Leaves i s (fun u => (∀ m ∈ wholeGroup w, (u.gathOf m).own = .off ∧ (u.gathOf m).cmd = none ∧ (u.gathOf m).tip = none ∧
        Shows u m 4 0 (bit (s.gathOf m).cmd.isSome)) ∧ untouched u (wholeGroup w))) ∧
    (c ≠ .reset → (∀ m ∈ w :: s.boundOf w, idle m) → (∀ m ∈ s.boundOf w, membersOf m = []) →
      (∃ m ∈ w :: s.boundOf w, (s.gathOf m).own ∈ listedFrom c) → (∃ m ∈ w :: s.boundOf w, (s.gathOf m).own ∉ listedFrom c) →
      Leaves i s (fun u => u.rf w 0x18 27 24 = c.code ∧ u.rf w 0x18 23 16 = 4 ∧
        (∀ m ∈ s.boundOf w, (s.gathOf m).own ∈ listedFrom c → (u.gathOf m).own = listedTo c m ∧ Shows u m c.code 0 0) ∧
        (∀ m ∈ s.boundOf w, (s.gathOf m).own ∉ listedFrom c → u.gathOf m = s.gathOf m ∧ u.rf m 0x18 27 24 = c.code ∧ u.rf m 0x18 23 16 = 1) ∧
        (u.gathOf w).own = (if (s.gathOf w).own ∈ listedFrom c then listedTo c w else (s.gathOf w).own) ∧ untouched u (w :: s.boundOf w)))) ∧
  (∀ (s : State) (w : Nat),
    let held := (s.gathOf w).own :: (s.boundOf w).map (fun m => (s.reported m).1)
    fld (s.ucbRead w 0x10) 3 0 = (s.reported w).1.code ∧ fld (s.ucbRead w 0x10) 8 8 = bit (s.reported w).2 ∧
    ((∀ g ∈ held, g = (s.gathOf w).own) → s.reported w = ((s.gathOf w).own, false)) ∧
    ((∃ g ∈ held, g ≠ (s.gathOf w).own) → (s.reported w).2 = true ∧ (s.reported w).1 ∈ held ∧ ∀ g ∈ held, rankOf (s.reported w).1 ≤ rankOf g)) ∧
  (∀ (s : State) (w : Win), membersOf w ≠ [] → QuietAbove s w →
    let g := s.gathOf w
    let quiet (m : Nat) : Prop := (s.reported m).1 = .quiet ∨ (s.gathOf m).own = .absent
    g.own = .quiescing → g.tip = none → (kindOf w ≠ 0x0E ∨ s.warren.lines = []) →
    (s.workDone w = true → g.timedOut = false → ¬ ((s.reg w 0x1C).toNat ≠ 0 ∧ g.entered + 1000 * (s.reg w 0x1C).toNat < s.time.cycles) →
      (∀ m ∈ s.boundOf w, quiet m ∧ (s.gathOf m).cmd = none) →
      Leaves (.quiesceDone w) s (fun u => Entered s u w .quiet ∧ (g.cmd = some .drain → (u.gathOf w).cmd = none))) ∧
    ((∃ m ∈ s.boundOf w, ¬ quiet m) → Leaves (.quiesceDone w) s (fun u => u = s))) ∧
  (∀ (s : State) (w : Win),
    let target := s.rf w 0x38 15 8
    let spare := s.rf w 0x38 7 0
    let t := memberWin w target
    let p := memberWin w spare
    let runs (g : GState) : Prop := g = .quiescing ∨ g = .starting ∨ g = .updating
    let roles (u : State) : Prop := (u.gathOf t).role = .bound ∧ (u.gathOf p).role = .spare
    Commandable s → QuietAbove s w → (kindOf w = 0x03 ∨ kindOf w = 0x0C) → (s.gathOf w).cmd = none →
    ((s.reported w).1 = .quiet ∨ (s.reported w).1 = .inService ∨ ((s.reported w).1 = .failed ∧ (s.gathOf w).own ≠ .failed)) →
    target < (membersOf w).length → spare < (membersOf w).length → roles s →
    (s.inService t = true → (s.gathOf p).own = .off ∨ (s.gathOf p).own = .quiet ∨ s.inService p = true →
      Leaves (.ucbBindSpare w) s (fun u => (u.gathOf w).cmd = some .bindSpare ∧ (u.gathOf w).tip = some ⟨target, spare, 0, false⟩ ∧
        (u.gathOf t).own = .quiescing ∧ (u.gathOf p).own = (s.gathOf p).own ∧ roles u ∧ Shows u w 7 0 0)) ∧
    (s.inService t = false → ¬ runs (s.gathOf t).own →
      ((s.gathOf p).own = .off ∨ (s.gathOf p).own = .quiet → Leaves (.ucbBindSpare w) s (fun u =>
        (u.gathOf w).cmd = some .bindSpare ∧ (u.gathOf w).tip = some ⟨target, spare, 0, true⟩ ∧ (u.gathOf p).own = .starting ∧
        (u.gathOf t).own = (s.gathOf t).own ∧ roles u ∧ Shows u w 7 0 0)) ∧
      (s.inService p = true → kindOf w = 0x03 → Leaves (.ucbBindSpare w) s (fun u => (u.gathOf w).cmd = none ∧ (u.gathOf w).tip = none ∧
        (u.gathOf t).role = .retired ∧ (u.gathOf p).role = .bound ∧ (u.gathOf p).own = .inService ∧ Shows u w 7 0 0)) ∧
      (s.inService p = true → kindOf w = 0x0C → Leaves (.ucbBindSpare w) s (fun u => (u.gathOf w).cmd = some .bindSpare ∧
        (u.gathOf w).tip = some ⟨target, spare, 0, true⟩ ∧ u.ling.acts = s.ling.acts ∧ roles u ∧ Shows u w 7 0 0))) ∧
    (s.inService t = false → runs (s.gathOf t).own → (s.gathOf p).own = .off ∨ (s.gathOf p).own = .quiet ∨ s.inService p = true →
      Leaves (.ucbBindSpare w) s (fun u => (u.gathOf w).cmd = some .bindSpare ∧ (u.gathOf w).tip = some ⟨target, spare, 0, false⟩ ∧
        (u.gathOf t).own = (s.gathOf t).own ∧ (u.gathOf p).own = (s.gathOf p).own ∧ roles u ∧ Shows u w 7 0 0)))

/-- R19, R21, R22, R23, R474, R542: what ends a transition of a Gathering without members: STARTING ends in IN_SERVICE, or in FAILED with start_fail,
once what it loads has drawn its tokens, and not before; QUIESCING in QUIET once its work is done, and past its limit it sets drain_timeout and
stays; UPDATING ends in QUIET with the status of R542 and update_result, once its image has drawn its tokens; a failure ends the command in
progress with ABORTED.
The model's readings and choices that it shows: log 47, 62, 93, 95, 117. -/
def Obligations.TransitionsEnd : Prop :=
  ∀ (s : State) (w : Win), membersOf w = [] → QuietAbove s w → (s.gathOf w).tip = none →
    let g := s.gathOf w
    let paid := (s.payLoad w (s.loadLines w)).1
    let late : Prop := (s.reg w 0x1C).toNat ≠ 0 ∧ g.entered + 1000 * (s.reg w 0x1C).toNat < s.time.cycles
    (g.own = .starting → s.heldInReset = false → (w.val ≠ spineWin ∨ s.spine.leaving = none) →
      (∀ st, paid = true → (st && decide (g.found ≤ 1) && s.railOk w && s.equipped w) = true →
        Leaves (.startingEnd w st) s (fun u => Entered s u w .inService ∧
          (u.gathOf w).cmd = none ∧ (g.found ≠ 0 → u.reg w 0x34 = BitVec.ofNat 32 g.found ∧ (u.reg w 0x20).getLsbD 1 = true))) ∧
      (∀ st, paid = true → (st && decide (g.found ≤ 1) && s.railOk w && s.equipped w) = false →
        Leaves (.startingEnd w st) s (fun u => Entered s u w .failed ∧ (u.gathOf w).cmd = none ∧ (u.reg w 0x20).getLsbD 8 = true)) ∧
      (∀ st, paid = false → Leaves (.startingEnd w st) s (fun u => u.gath = s.gath ∧
        u = { s with regs := u.regs, commons := u.commons } ∧ s.loaded w ≤ u.loaded w))) ∧
    (g.own = .quiescing → s.workDone w = true → g.timedOut = false → ¬ late → (w.val ≠ spineWin ∨ g.cmd ≠ some .update) →
      Leaves (.quiesceDone w) s (fun u => Entered s u w .quiet ∧ (u.gathOf w).cmd = none)) ∧
    (g.own = .quiescing → g.timedOut = true ∨ late → Leaves (.quiesceDone w) s (fun u => u = s)) ∧
    (g.own = .updating → w.val ≠ spineWin → paid = true → Leaves (.updateDone w) s (fun u => Entered s u w .quiet ∧
      u.reg w 0x34 = BitVec.ofNat 32 (s.slotStatus w) ∧ (u.reg w 0x20).getLsbD 1 = true)) ∧
    (g.own = .quiescing → late → g.timedOut = false →
      Leaves (.drainTimeout w) s (fun u => (u.reg w 0x20).getLsbD 2 = true ∧ u.gathOf w = { g with timedOut := true } ∧
        (∀ x, x ≠ w.val → u.gathOf x = s.gathOf x) ∧ u = { s with regs := u.regs, gath := u.gath })) ∧
    (g.own ≠ .absent → g.own ≠ .off → g.own ≠ .failed → Leaves (.hardwareFailure w) s (fun u => Entered s u w .failed ∧ (u.gathOf w).cmd = none ∧
      ∀ c, g.cmd = some c → u.rf w 0x18 27 24 = c.code ∧ u.rf w 0x18 23 16 = 5))

/-! ### Registers (00, R6 to R12; 01, R17, R18; 18) -/

/-- R6, R7, R10, R11, R12, R17, R18, R464: on the registers that every window has, and on those of a function's BAR0: a write sets an RW
register and no other; ones clear W1C bits but where the source asserts again; a write of a reserved encoding is discarded, raises cfg_reject and
is captured, until cfg_reject is cleared, and one that arrives as it is cleared is the one captured (log entry 41 says how the row's operand names
it); a read clears an RC counter, which then holds what arrives; an access to a reserved address reads zero
and is counted; a read of the low word of a 64-bit value captures the high one. -/
def Obligations.RegistersAreReadAndWritten : Prop :=
  ∀ (s : State) (w : Win),
    let others (u : State) (off : Nat) : Prop := ∀ x o, (x, o) ≠ (w.val, off) → o < 65536 → u.reg x o = s.reg x o
    let old := s.reg w 0x20
    (s.heldInReset = false ∨ w.val = 0 →
      (∀ v again, Leaves (.registerWrite (.unit w 0x1C) v again) s (fun u => u.reg w 0x1C = v ∧ others u 0x1C ∧ u.gath = s.gath)) ∧
      (∀ v again, Leaves (.registerWrite (.unit w 0x18) v again) s (fun u => u.reg w 0x18 = s.reg w 0x18 ∧ others u 0x18 ∧ u.gath = s.gath)) ∧
      (∀ v again, Leaves (.registerWrite (.unit w 0x20) v again) s (fun u =>
        (∀ b ∈ [1, 2, 3, 4, 5, 8], (u.reg w 0x20).getLsbD b = ((old.getLsbD b && !v.getLsbD b) || again.getLsbD b)) ∧
        (u.reg w 0x20).getLsbD 0 = ((old.getLsbD 0 && !v.getLsbD 0) || again.getLsbD 0) ∧
        (again.getLsbD 0 = false → u.reg w 0x28 = (if v.getLsbD 0 then 0 else s.reg w 0x28)) ∧
        (again.getLsbD 0 = true → v.getLsbD 0 = true ∨ old.getLsbD 0 = false →
          fld (u.reg w 0x28) 15 0 = fld again 31 16 ∧ fld (u.reg w 0x28) 31 16 = 1))) ∧
      (∀ (off : BitVec 16) (v again : BitVec 32), (off = 0x14 ∧ 8 ≤ fld v 3 0) ∨ (off = 0x30 ∧ 6 < fld v 31 24) →
        Leaves (.registerWrite (.unit w off) v again) s (fun u => u.reg w off.toNat = s.reg w off.toNat ∧ u.gath = s.gath ∧
          (u.reg w 0x20).getLsbD 0 = true ∧
          (old.getLsbD 0 = false → fld (u.reg w 0x28) 15 0 = off.toNat ∧ fld (u.reg w 0x28) 31 16 = 1) ∧
          (old.getLsbD 0 = true → fld (u.reg w 0x28) 15 0 = s.rf w 0x28 15 0 ∧ fld (u.reg w 0x28) 31 16 = min 0xFFFF (s.rf w 0x28 31 16 + 1))))) ∧
    (∀ arriving, Leaves (.rcRead (.unit w 0x2C) arriving) s (fun u => u.readData = (s.reg w 0x2C).setWidth 256 ∧ u.reg w 0x2C = arriving ∧
      others u 0x2C)) ∧
    (∀ arriving, Leaves (.rcRead (.unit w 0x04) arriving) s (fun u =>
      u.readData = BitVec.ofNat 256 (s.variant.toNat * 2 ^ 28 + kindOf w * 2 ^ 16 + 2 ^ 8) ∧ u.regs = s.regs)) ∧
    (∀ (off : BitVec 16) (size : BitVec 4) (write : Bool), ¬ (w.val = spineWin ∧ (off = 0x300 ∨ off = 0x308)) →
      regAt w off.toNat = none ∨ (off.toNat < 0x100 ∧ ¬ (size = 4 ∧ off.toNat % 4 = 0)) →
      Leaves (.reservedAccess (Fin.castLE (by decide) w) off size write) s (fun u =>
        (u.reg w 0x2C).toNat = min 0xFFFFFFFF ((s.reg w 0x2C).toNat + 1) ∧ others u 0x2C ∧ u.gath = s.gath ∧
        u.readData = (if write then s.readData else 0))) ∧
    (∀ (f : Func) (v again : BitVec 32), s.serving pcieWin = true →
      Leaves (.registerWrite (.bar0 f 0x114) v again) s (fun u => (u.func f).rickView = fld v 11 0 ∧ u.regs = s.regs ∧
        ∀ x, x ≠ f.val → u.func x = s.func x) ∧
      Leaves (.rcRead (.bar0 f 0x0) again) s (fun u => u.readData = 0x320000B0 ∧ u.regs = s.regs)) ∧
    Leaves (.captureRead false) s (fun u => u.readData = (s.time.ns.setWidth 32).setWidth 256 ∧ u.reg timeWin 0x104 = (s.time.ns >>> 32).setWidth 32) ∧
    (let c := s.sheafCounter s.sheaf.curBank (s.rf sheafWin 0x120 13 0) (s.rf sheafWin 0x120 29 24)
     s.rf sheafWin 0x120 31 31 = 0 → Leaves (.captureRead true) s (fun u => u.readData = (c.setWidth 32).setWidth 256 ∧
      u.sheaf.queryHi = (c >>> 32).setWidth 32))

/-! ### Tedder (02) and Windrow (03) -/

/-- R46, R49, R55, R58, R67, R70, R71, R545: Tedder parses an admitted packet whose window is there with its context and the bank the lanes have
seen; a parsed, complete packet that is the oldest of its port there goes to its Windrow lane, or is dropped with MALFORMED's counter where its
context says so, or as DATA_ERROR where its fragment entry is uncorrectable; a pending fragment times out, an entry ages out; a switch of graphs swaps the banks, is refused without a standby graph or with
a switch pending, and ends; a standby load ends in the standby bank.
The model's readings and choices that it shows: log 54, 105. -/
def Obligations.TedderParsesAndHandsOver : Prop :=
  ∀ (s : State) (p : Pid) (k : Packet),
    let g := s.graphBank s.activeBank
    let ctx := s.packetCtx k
    let lane := laneOf k.port
    let sel := s.reg tedderWin 0x200
    (s.packet p = some k → k.place = .rx → (k.complete = true ∨ ctxWindow g ctx ≤ k.bytes.length) → s.serving tedderWin = true →
      s.serving (402 + lane) = true →
      Leaves (.parseBegin p) s (fun u => ∃ w, w = parseWindow g s.activeBank ctx k.port k.ts (k.bytes.take (ctxWindow g ctx)) ∧
        u.packet p = some { k with place := .parsed, parse := some w, fragMissAction := w.fragMissAction } ∧ OtherPackets s u p ∧ u.regs = s.regs)) ∧
    (∀ w, s.packet p = some k → k.parse = some w → k.place = .parsed → k.complete = true → s.oldestInTedder p k = true →
      let e := w.finish k.bytes false
      let drops := (∃ r, e.reason = some r ∧ malActionOf w.malAction r = 1) ∨ (e.truncated = true ∧ w.truncAction = 1)
      (drops → (∀ r, e.reason = some r → 1 ≤ malActionOf w.malAction r) → (e.truncated = true → 1 ≤ w.truncAction) →
        Leaves (.recordHandoff p) s (fun u => u.reports = s.reports ++ [dropReport (s.defaultTenant k.port) k.ts 39 k.bytes.length] ∧
          (∀ q, u.packet p = some q → q.place = .gone) ∧ u.windrow = s.windrow)) ∧
      (¬ drops → s.windrowStalled lane = false → (s.fragRead w).1 = true → Leaves (.recordHandoff p) s (fun u =>
        u.reports = s.reports ++ [dropReport (s.defaultTenant k.port) k.ts 59 k.bytes.length] ∧
        (∀ q, u.packet p = some q → q.place = .gone) ∧ u.windrow = s.windrow)) ∧
      (¬ drops → s.windrowStalled lane = false → (s.fragRead w).1 = false → Leaves (.recordHandoff p) s (fun u =>
        (∃ q, u.packet p = some q ∧ q.place = .handed ∧ q.bytes = k.bytes ∧ q.parse = some w) ∧
        u.windrowLane lane = s.windrowLane lane ++ [p] ∧ OtherPackets s u p ∧ u.reports = s.reports))) ∧
    (∀ t, s.packet p = some k → k.waitSince = some t → k.place = .laneOut → t + 1000 * s.rf tedderWin 0x210 23 16 ≤ s.time.cycles →
      Leaves (.fragPendingTimeout p) s (fun u => u.packet p = some { k with waitSince := none, fragBind := .noEntry } ∧ Counted s u tedderWin 0x230 ∧
        OtherPackets s u p)) ∧
    (∀ key e, SMap.find s.tedder.frags key = some e → e.created + e.ageMs * 1000000 ≤ s.now →
      Leaves (.fragAgeOut key) s (fun u => SMap.find u.tedder.frags key = none ∧
        (∀ x, x ≠ key → SMap.find u.tedder.frags x = SMap.find s.tedder.frags x) ∧ Counted s u tedderWin 0x234 ∧
        u.rf tedderWin 0x214 16 0 = u.tedder.frags.length % 2 ^ 17)) ∧
    (fld sel 8 8 = 1 → fld sel 9 9 = 0 → Leaves .graphSwitch s (fun u => u.rf tedderWin 0x200 9 9 = 1 ∧
      u.rf tedderWin 0x200 8 8 = bit (!(s.graphBank (decide (fld sel 0 0 = 1))).isEmpty) ∧
      u.rf tedderWin 0x200 0 0 = 1 - fld sel 0 0 ∧ u.rf tedderWin 0x204 31 16 = s.rf tedderWin 0x204 15 0 ∧
      u.rf tedderWin 0x204 15 0 = s.rf tedderWin 0x204 31 16 ∧ u.tedder = s.tedder)) ∧
    (fld sel 8 8 = 0 ∨ fld sel 9 9 = 1 → Leaves .graphSwitch s (fun u => u.rf tedderWin 0x200 10 10 = 1 ∧ u.rf tedderWin 0x200 0 0 = fld sel 0 0 ∧
      u.reg tedderWin 0x204 = s.reg tedderWin 0x204 ∧ u.tedder = s.tedder)) ∧
    (fld sel 9 9 = 1 → Leaves .graphSwitchDone s (fun u => u.rf tedderWin 0x200 9 9 = 0 ∧ u.activeBank = decide (fld sel 0 0 = 1) ∧
      (u.reg tedderWin 0x240).getLsbD 1 = true ∧ u.packets = s.packets)) ∧
    (∀ image, s.tedder.loadWaiting = some image → fld sel 9 9 = 0 → Leaves .standbyLoadDone s (fun u =>
      u.graphBank (decide (fld sel 0 0 = 0)) = image ∧ u.graphBank (decide (fld sel 0 0 ≠ 0)) = s.graphBank (decide (fld sel 0 0 ≠ 0)) ∧
      u.tedder.loadWaiting = none ∧ u.rf tedderWin 0x200 8 8 = 1 ∧ u.rf tedderWin 0x204 15 0 = graphId image))

/-- R79, R81, R84, R86, R87: a lane starts a packet with its context's profile and its port's default tenant and order domain; a DIRECT stage
that hits a usable action word which ends the profile applies it, marks the hit and counts it; an uncorrectable entry drops the packet. -/
def Obligations.WindrowClassifies : Prop :=
  ∀ (s : State) (p : Pid) (k : Packet), s.packet p = some k →
    (∀ w, k.parse = some w → k.place = .handed → s.serving windrowWin = true → s.serving (407 + laneOf k.port) = true →
      Leaves (.classifyBegin p) s (fun u => ∃ q, u.packet p = some q ∧ q.profile = s.rf windrowWin (0x100 + 4 * w.ctx) 5 0 ∧
        mdTenant q.md = s.defaultTenant k.port ∧ mdOd q.md = s.rf windrowWin (0x300 + 4 * k.port) 15 0 ∧ q.bytes = k.bytes ∧
        (∀ c, k.exc = some c → c < 256 → mdBits q.md 94 94 = 1 ∧ mdBits q.md 103 96 = c) ∧
        (s.stageCount q.profile = 0 → q.profileDone = true ∧ q.place = .laneOut) ∧ OtherPackets s u p ∧ u.regs = s.regs)) ∧
    (let t := slotBits k.stageSlot 0 28 24
     let i := s.rf windrowWin (0x600 + 4 * t) 19 0 + keyNumber k.stageKey 3 % 2 ^ s.rf windrowWin (0x600 + 4 * t) 28 24
     let act := s.directEntry i
     k.place = .classifying → s.serving (407 + laneOf k.port) = true → k.learnWait = none → slotBits k.stageSlot 0 2 0 = 1 →
     (s.errsIn windrowWin 0 (16 * i) 16 = [] → usableAction act = true → actBits act 62 61 = 1 →
      Leaves (.stageResult p) s (fun u => (∃ q, u.packet p = some q ∧ q.profileDone = true ∧ q.place = .laneOut ∧ q.bytes = k.bytes ∧
          q.md = applyAction (mdPut (mdPut k.md (116 + k.stage) (116 + k.stage) 1) 115 112 (mdBits k.md 115 112 + 1)) act) ∧
        Counted s u windrowWin (0x1800 + 4 * (12 * k.profile + k.stage)) ∧ OtherPackets s u p)) ∧
     ((∃ e ∈ s.errsIn windrowWin 0 (16 * i) 16, e.shows = true ∧ s.errFatal e = true) →
      Leaves (.stageResult p) s (fun u => u.reports = s.reports ++ [dropReport (mdTenant k.md) k.ts 59 k.bytes.length] ∧
        u.windrowLane (laneOf k.port) = (s.windrowLane (laneOf k.port)).erase p ∧ ∀ q, u.packet p = some q → q.place = .gone)))

/-- R88, R89, R92, R541: the first packet of a lane, its profile ended, goes to its Kettle lane, or is dropped as its record says; every exception
bucket gains its class's rate up to its burst, once in 1 µs; WINDROW_IND_CMD reads and writes an entry whole, refuses a range index beyond the
store, and discards a write whose action word carries a reserved encoding.
The model's readings and choices that it shows: log 51, 52, 110. -/
def Obligations.WindrowOutputsAndStores : Prop :=
  (∀ (s : State) (n : Lane) (p : Nat) (rest : List Nat) (k : Packet), s.windrowLane n = p :: rest → s.packet p = some k → k.place = .laneOut →
    laneOf k.port = n → s.serving (407 + n) = true → s.intakeOpen n = true → k.fragBind = .notLooked → mdBits k.md 95 95 = 0 →
    (mdBits k.md 93 93 = 0 → mdBits k.md 94 94 = 0 → (∀ h, k.handle = some h → (s.cell h).tenant = mdTenant k.md) →
      Leaves (.windrowLaneOutput n) s (fun u => SMap.find u.kettle.intake n = some ⟨p, true, none, none, false⟩ ∧
        u.packet p = some { k with place := .kettle } ∧ u.windrowLane n = rest ∧ Counted s u windrowWin 0x700 ∧ u.reports = s.reports ∧
        OtherPackets s u p)) ∧
    (mdBits k.md 93 93 = 1 → Leaves (.windrowLaneOutput n) s (fun u => u.reports = s.reports ++ [dropReport (mdTenant k.md) k.ts 40 k.bytes.length] ∧
      u.windrowLane n = rest ∧ SMap.find u.kettle.intake n = none ∧ Counted s u windrowWin 0x704 ∧ ∀ q, u.packet p = some q → q.place = .gone))) ∧
  (∀ (s : State),
    let bucket (u : State) (t : Nat) : Nat := SMap.get (fun _ => excFull) u.windrow.excTokens t
    (s.time.cycles < s.windrow.refilled + 1000 → Leaves .excBucketRefill s (fun u => u = s)) ∧
    (s.windrow.refilled + 1000 ≤ s.time.cycles → (∀ t, s.windrow.excTokens.countP (fun e => e.1 == t) ≤ 1) →
    Leaves .excBucketRefill s (fun u => u.regs = s.regs ∧ u.windrow.refilled = s.windrow.refilled + 1000 ∧ ∀ t, t < 16384 →
      let rate := s.rf windrowWin (0x1000 + 4 * s.excClass t) 15 0
      bucket u t = (if rate = 0 then 0 else min (1000 * s.rf windrowWin (0x1000 + 4 * s.excClass t) 31 16) (bucket s t + rate))))) ∧
  (∀ (s : State),
    let a := s.reg windrowWin 0x500
    let i := fld a 19 0
    let discarded (u : State) : Prop := u.windrow = s.windrow ∧ (u.reg windrowWin 0x20).getLsbD 0 = true
    (fld a 31 31 = 0 →
      (actionListed (BitVec.ofNat 128 (s.windData 4)) = true →
        Leaves .windrowIndWrite s (fun u => u.directEntry i = BitVec.ofNat 128 (s.windData 4) ∧ ∀ x, x ≠ i → u.directEntry x = s.directEntry x)) ∧
      (actionListed (BitVec.ofNat 128 (s.windData 4)) = false → Leaves .windrowIndWrite s discarded) ∧
      (s.errsIn windrowWin 0 (16 * i) 16 = [] → Leaves .windrowIndRead s (fun u => u.windData 4 = (s.directEntry i).toNat ∧ u.windrow = s.windrow))) ∧
    (fld a 31 31 = 1 → i < 8192 →
      (actionListed (BitVec.ofNat 128 (s.windData 8 >>> 128)) = true → Leaves .windrowIndWrite s (fun u =>
        u.rangeEntry i = BitVec.ofNat 256 (s.windData 8) &&& rangeMask ∧ ∀ x, x ≠ i → u.rangeEntry x = s.rangeEntry x)) ∧
      (actionListed (BitVec.ofNat 128 (s.windData 8 >>> 128)) = false → Leaves .windrowIndWrite s discarded) ∧
      (s.errsIn windrowWin 1 (32 * i) 32 = [] → Leaves .windrowIndRead s (fun u => u.windData 8 = (s.rangeEntry i).toNat ∧ u.windrow = s.windrow))) ∧
    (fld a 31 31 = 1 → 8192 ≤ i → Leaves .windrowIndWrite s (fun u => u.rf windrowWin 0x504 29 29 = 1 ∧ u.windrow = s.windrow) ∧
      Leaves .windrowIndRead s (fun u => u.rf windrowWin 0x504 29 29 = 1 ∧ u.windrow = s.windrow)))

/-! ### Ling (04) -/

/-- R103 to R105, R109, R110: with the tokens R109 asks for, READ returns the rows, action word and valid bit of an entry, WRITE writes every row of it
with its shadow, its parity and valid 1, INVALIDATE clears its valid bit, WRITE_ACTION replaces its action word, and SEARCH and NEXT_MATCH return hit,
lowest index, multi and match_count; an index beyond the database ends with RANGE and a database without banks with DB_DISABLED; each
leaves every other row as it was. A WRITE or WRITE_ACTION whose action word carries a reserved encoding writes nothing and raises cfg_reject
(R541).
The model's readings and choices that it shows: log 48, 49, 51, 103, 104. -/
def Obligations.LingCommandsReadWriteAndSearch : Prop :=
  ∀ (s : State) (x : Fin 4) (db : BitVec 5) (index : BitVec 15),
    let d := db.toNat
    let i := index.toNat
    let b := blockBase x.val
    let w := s.dbRows d
    let c := capturedOf s x.val 1 0 d i
    let at0 := s.dbPlace d (w * i)
    let holds (u : State) (a : Word128) : Prop := ∀ pos ∈ s.writePositions at0.1, u.lingAct pos at0.2 = a
    let discarded (u : State) : Prop := u.blockCmds x.val = [] ∧ u.ling.rows = s.ling.rows ∧ u.ling.acts = s.ling.acts ∧
      (u.reg lingWin 0x20).getLsbD 0 = true ∧ OnlyLing s u
    (LingIdle s x.val d → i < s.dbEntries d →
      (HasTokens s 3 2 w →
        (actionListed c.act = true →
          Leaves (.lingWrite x db index) s (fun u => (∀ k, k < w → u.entryRow d i k = lingRowOf (slice c.data k) (slice c.care k) true) ∧
            holds u c.act ∧ LingEnds u x.val 0 i 0 ∧ OtherRows s u d i ∧ OnlyLing s u)) ∧
        (actionListed c.act = false → Leaves (.lingWrite x db index) s discarded) ∧
        (CleanEntry s d i → Leaves (.lingRead x db index) s (fun u =>
          (∀ k, k < w → slice (BitVec.ofNat 640 (u.blockWords b 20)) k = (s.entryRow d i k).data ∧
            slice (BitVec.ofNat 640 (u.blockWords (b + 0x50) 20)) k = (s.entryRow d i k).care) ∧
          BitVec.ofNat 128 (u.blockWords (b + 0xA0) 4) = s.entryAct d i ∧
          u.rf lingWin (b + 0xB4) 14 14 = bit (s.entryValid d i) ∧ u.rf lingWin (b + 0xB4) 31 31 = 0 ∧ u.blockCmds x.val = [] ∧
          (s.ling.lost = [] → LingEnds u x.val 0 i 0) ∧ u.ling.rows = s.ling.rows ∧ u.ling.acts = s.ling.acts ∧ OnlyLing s u))) ∧
      (HasTokens s 3 2 1 →
        Leaves (.lingInvalidate x db index) s (fun u =>
          u.entryRow d i 0 = lingRowOf (s.entryRow d i 0).data (s.entryRow d i 0).care false ∧
          (∀ k, 0 < k → k < w → u.entryRow d i k = s.entryRow d i k) ∧ u.ling.acts = s.ling.acts ∧
          LingEnds u x.val 0 i 0 ∧ OtherRows s u d i ∧ OnlyLing s u) ∧
        (actionListed c.act = true → Leaves (.lingWriteAction x db index) s (fun u => holds u c.act ∧ u.ling.rows = s.ling.rows ∧
          LingEnds u x.val 0 i 0 ∧ OtherRows s u d i ∧ OnlyLing s u)) ∧
        (actionListed c.act = false → Leaves (.lingWriteAction x db index) s discarded)) ∧
      (HasTokens s 3 2 (s.dbBanks d) →
        let found (m : List Nat) (u : State) : Prop := LingEnds u x.val 0 (m.headD 0) 0 ∧
          u.rf lingWin (b + 0xB4) 14 14 = bit (!m.isEmpty) ∧ u.rf lingWin (b + 0xB4) 15 15 = bit (decide (2 ≤ m.length)) ∧
          u.rf lingWin (b + 0xB4) 23 16 = min 255 m.length ∧ u.ling.rows = s.ling.rows ∧ u.ling.acts = s.ling.acts ∧ OnlyLing s u
        Leaves (.lingSearch x db) s (found (s.dbMatches d c.data)) ∧
        Leaves (.lingNextMatch x db index) s (found ((s.dbMatches d c.data).filter (fun e => decide (i < e)))))) ∧
    (LingIdle s x.val d → s.dbEntries d ≤ i →
      Leaves (.lingWrite x db index) s (fun u => LingEnds u x.val 2 i 0 ∧ u.ling.rows = s.ling.rows ∧ u.ling.acts = s.ling.acts ∧ OnlyLing s u)) ∧
    (s.blockCmds x.val = [] → s.inService lingWin = true → s.dbBanks d = 0 →
      Leaves (.lingSearch x db) s (fun u => u.rf lingWin (b + 0xB4) 7 0 = 3 ∧ u.blockCmds x.val = [] ∧ u.ling.rows = s.ling.rows ∧ OnlyLing s u))

/-- R106 to R109, R112: MOVE_BLOCK at a free entry has no entry to move; else it moves down to the nearest free entry after it where that needs no
more moves, and up otherwise, as dir allows, unless its action word carries a reserved encoding (R541; that this is seen before the first copy is log
49's reading), and with no free entry it ends with NO_ROOM; each move step copies one entry to its neighbour, and the last writes the new entry; each
spare step copies a row of the target from its shadow, and the last moves the slot to the spare.
The model's readings and choices that it shows: log 49, 50, 104. -/
def Obligations.LingMovesEntriesAndBanks : Prop :=
  (∀ (s : State) (x : Fin 4) (db : BitVec 5) (index : BitVec 15) (dir : BitVec 2),
    let d := db.toNat
    let p := index.toNat
    let c := capturedOf s x.val 6 dir.toNat d p
    let begins (m : LingMove) : Prop :=
      (actionListed c.act = true → Leaves (.lingMoveBlock x db index dir) s (fun u => u.blockCmds x.val = [{ c with move := some m }] ∧
        u.dbBusy d = true ∧ u.rf lingWin (blockBase x.val + 0xB4) 31 31 = 1 ∧ u.ling.rows = s.ling.rows ∧ u.ling.acts = s.ling.acts ∧ OnlyLing s u)) ∧
      (actionListed c.act = false → Leaves (.lingMoveBlock x db index dir) s (fun u => u.blockCmds x.val = [] ∧ u.dbBusy d = false ∧
        u.ling.rows = s.ling.rows ∧ u.ling.acts = s.ling.acts ∧ (u.reg lingWin 0x20).getLsbD 0 = true ∧ OnlyLing s u))
    LingIdle s x.val d → s.tokensHeld 3 2 = 0 → p < s.dbEntries d → dir.toNat ≠ 3 →
      (s.entryValid d p = false → begins ⟨p, false, 0, p, 0⟩) ∧
      (s.entryValid d p = true → ∀ f, FreeDown s d p f → dir.toNat ≠ 2 → (dir.toNat = 1 ∨ ∀ g, FreeUp s d p g → f - p ≤ p - 1 - g) →
        begins ⟨f - 1, true, f - p, p, 0⟩) ∧
      (s.entryValid d p = true → ∀ g, FreeUp s d p g → dir.toNat ≠ 1 → (dir.toNat = 2 ∨ ∀ f, FreeDown s d p f → p - 1 - g < f - p) →
        begins ⟨g + 1, false, p - 1 - g, p - 1, 0⟩) ∧
      (s.entryValid d p = true → (dir.toNat = 2 ∨ ∀ f, ¬ FreeDown s d p f) → (dir.toNat = 1 ∨ ∀ g, ¬ FreeUp s d p g) →
        Leaves (.lingMoveBlock x db index dir) s (fun u => LingEnds u x.val 1 p 0 ∧ Counted s u lingWin 0x818 ∧
          (u.reg lingWin 0x840).getLsbD 2 = true ∧ u.ling.rows = s.ling.rows ∧ u.ling.acts = s.ling.acts ∧ OnlyLing s u))) ∧
  (∀ (s : State) (db : BitVec 5) (x : Nat) (c : LingCmd) (m : LingMove),
    let d := db.toNat
    let dst := if m.down then m.src + 1 else m.src - 1
    let holds (u : State) (e : Nat) (a : Word128) : Prop :=
      ∀ pos ∈ s.writePositions (s.dbPlace d (s.dbRows d * e)).1, u.lingAct pos (s.dbPlace d (s.dbRows d * e)).2 = a
    s.movingBlock d = some (x, c, m) → s.serving lingWin = true →
      (m.left ≠ 0 → HasTokens s 0 2 (s.dbRows d) → CleanEntry s d m.src → Leaves (.lingMoveStep db) s (fun u =>
        (∀ k, k < s.dbRows d → u.entryRow d dst k = s.entryRow d m.src k) ∧
        holds u dst (s.entryAct d m.src) ∧ OtherRows s u d dst ∧ Counted s u lingWin 0x814 ∧
        u.blockCmds x = { c with move := some { m with src := if m.down then m.src - 1 else m.src + 1, left := m.left - 1, moved := m.moved + 1 } }
          :: (s.blockCmds x).drop 1 ∧ OnlyLing s u)) ∧
      (m.left = 0 → HasTokens s 3 2 (s.dbRows d) → s.blockCmds x = [c] → (∀ y, y < 4 → y ≠ x → s.blockCmds y = []) →
        Leaves (.lingMoveStep db) s (fun u =>
          (∀ k, k < s.dbRows d → u.entryRow d m.place k = lingRowOf (slice c.data k) (slice c.care k) true) ∧ holds u m.place c.act ∧
          u.dbBusy d = s.dbCopying d ∧ LingEnds u x 0 m.place m.moved ∧ OtherRows s u d m.place ∧ OnlyLing s u))) ∧
  (∀ (s : State) (j : TipJob), (s.gathOf lingWin).tip = some j → j.begun = true → s.inService (lingBankWin j.spare) = true → HasTokens s 0 2 1 →
    s.errsIn (lingBankWin j.target) 0 (48 * j.rows) 48 = [] → s.errsIn (lingBankWin j.target) 1 (16 * j.rows) 16 = [] →
    let x := s.lingRow j.target j.rows
    (j.rows + 1 < 4096 → Leaves .lingSpareCopyStep s (fun u => u.lingRow j.spare j.rows = lingRowOf x.sdata x.scare x.svalid ∧
      u.lingAct j.spare j.rows = s.lingAct j.target j.rows ∧
      (∀ pos r, r < 4096 → pos ≠ j.spare ∨ r ≠ j.rows → u.lingRow pos r = s.lingRow pos r ∧ u.lingAct pos r = s.lingAct pos r) ∧
      (u.gathOf lingWin).tip = some { j with rows := j.rows + 1 } ∧ (∀ y, y ≠ lingWin → u.gathOf y = s.gathOf y))) ∧
    (∀ k, j.rows = 4095 → s.slotOf j.target = some k → j.target < 66 → j.spare < 66 → j.spare ≠ j.target → (∀ y, y < 4 → s.blockCmds y = []) →
      Leaves .lingSpareCopyStep s (fun u => u.lingPos k = j.spare ∧ u.lingRow j.spare 4095 = lingRowOf x.sdata x.scare x.svalid ∧
        (u.gathOf (lingBankWin j.target)).role = .retired ∧ (u.gathOf (lingBankWin j.spare)).role = .bound ∧
        (u.gathOf lingWin).tip = none ∧ (u.gathOf lingWin).cmd = none ∧ (u.reg lingWin 0x840).getLsbD 3 = true ∧
        ∀ d, d < 32 → s.dbSlot d ≤ k → k < s.dbSlot d + s.dbBanks d → u.dbBusy d = false)))

/-! ### Warren (05) -/

/-- R117, R124 to R127, R143: with the candidate buckets in reach, unowned, and the tokens of R143: LOOKUP answers the entry and sets hit unless
peek, or NOT_FOUND; INSERT answers EXISTS, or puts a new entry into the lowest free way of B0, else of B1; UPDATE, DELETE and COMPARE_WRITE change
the way that holds the key, or answer NOT_FOUND or CMP_FAIL; READ_INDEX and WRITE_INDEX act on the way they name, with RANGE, MISPLACED and EXISTS as
R125 says; on a table with placement 0 each ends with DISABLED; a write whose action word is reserved is not made and raises cfg_reject (R541;
what WARREN_STATUS then shows is log 51's choice). Every other way stays as it was.
The model's readings and choices that it shows: log 51, 57, 102. -/
def Obligations.WarrenCommandsActOnWays : Prop :=
  ∀ (s : State) (n : Fin 4) (table : BitVec 4),
    let e := n.val
    let t := table.toNat
    let win := warrenEngineWin e
    let key := s.wtKey t (leBytes 96 (s.engWords e 0x100 24))
    let data : Word128 := BitVec.ofNat 128 (s.engWords e 0x180 4)
    let cmp : Word64 := BitVec.ofNat 64 (s.engWords e 0x190 2)
    let index := s.rf win 0x1AC 25 0
    let c := s.candidates t key
    let unchanged (x : WarrenEnd) (u : State) : Prop := WarrenEnds u e x ∧ SameWays s u t ∧ OnlyWarren s u e
    let wrote (b w : Nat) (x : List Byte) (u : State) : Prop := u.way t b w = checked t b x ∧ WarrenEnds u e (endEntry 0 b w x) ∧ OtherWays s u t b w ∧
      OnlyWarren s u e
    let refused (u : State) : Prop := unchanged (endCode 256) u ∧ (u.reg win 0x20).getLsbD 0 = true ∧ u.reg win 0x1A8 = s.reg win 0x1A8
    (s.wQueue e = [] → s.inService win = true → s.wtPlace t = 0 → ∀ f v : Bool,
      Leaves (.warrenLookup n table f) s (unchanged (endCode 7)) ∧ Leaves (.warrenInsert n table f) s (unchanged (endCode 7)) ∧
      Leaves (.warrenUpdate n table f) s (unchanged (endCode 7)) ∧ Leaves (.warrenDelete n table) s (unchanged (endCode 7)) ∧
      Leaves (.warrenReadIndex n table) s (unchanged (endCode 7)) ∧ Leaves (.warrenWriteIndex n table f v) s (unchanged (endCode 7)) ∧
      Leaves (.warrenCompareWrite n table) s (unchanged (endCode 7))) ∧
    (WarrenIdle s e t [c.1, c.2] → Reach s t c.1 → Reach s t c.2 → HasTokens s 3 3 3 → ∀ f : Bool,
      (KeyAbsent s t key →
        Leaves (.warrenLookup n table f) s (unchanged (endCode 1)) ∧ Leaves (.warrenUpdate n table f) s (unchanged (endCode 1)) ∧
        Leaves (.warrenDelete n table) s (unchanged (endCode 1)) ∧ Leaves (.warrenCompareWrite n table) s (unchanged (endCode 1)) ∧
        (∀ b w, (b = c.1 ∧ s.freeWay t c.1 = some w) ∨ (b = c.2 ∧ s.freeWay t c.1 = none ∧ s.freeWay t c.2 = some w) →
          (actionListed data = true → Leaves (.warrenInsert n table f) s (fun u => wrote b w (newEntry (s.wtSize t) f false 0 data key) u ∧
            Counted s u warrenWin (0x104C + 0x100 * t))) ∧
          (actionListed data = false → Leaves (.warrenInsert n table f) s refused))) ∧
      (∀ b w, KeyAt s t key b w →
        let x := s.way t b w
        Leaves (.warrenLookup n table true) s (unchanged (endEntry 0 b w x)) ∧
        (s.wtCfg t 12 12 = 0 → Leaves (.warrenLookup n table false) s (fun u => u.way t b w = entSetFlag x 2 true ∧
          WarrenEnds u e (endEntry 0 b w x) ∧ OtherWays s u t b w ∧ OnlyWarren s u e)) ∧
        Leaves (.warrenInsert n table f) s (unchanged (endEntry 2 b w x)) ∧
        (actionListed data = true →
          Leaves (.warrenUpdate n table f) s (wrote b w (patchBytes (entSetFlag (entSetFlag x 1 f) 2 true) 0x10 (leBytes 16 data.toNat)))) ∧
        (actionListed data = false → Leaves (.warrenUpdate n table f) s refused) ∧
        Leaves (.warrenDelete n table) s (fun u => wrote b w (entSetFlag x 0 false) u ∧ Counted s u warrenWin (0x1050 + 0x100 * t)) ∧
        ((entAction x).toNat / 2 ^ 64 ≠ cmp.toNat → Leaves (.warrenCompareWrite n table) s (unchanged (endEntry 4 b w x))) ∧
        ((entAction x).toNat / 2 ^ 64 = cmp.toNat → Leaves (.warrenCompareWrite n table) s (wrote b w (patchBytes (entSetFlag x 2 true) 0x10
          (leBytes 16 ((entAction x).toNat % 2 ^ 64 + data.toNat / 2 ^ 64 * 2 ^ 64))))))) ∧
    (s.wQueue e = [] → s.inService win = true → s.wtPlace t ≠ 0 → 4 * s.wtBuckets t ≤ index → ∀ f v : Bool,
      Leaves (.warrenReadIndex n table) s (unchanged (endCode 6)) ∧ Leaves (.warrenWriteIndex n table f v) s (unchanged (endCode 6))) ∧
    (index < 4 * s.wtBuckets t → s.wQueue e = [] → s.inService win = true → s.wtPlace t ≠ 0 →
      let b := index / 4
      let w := index % 4
      let x := s.way t b w
      (Reach s t b → HasTokens s 3 3 1 → Leaves (.warrenReadIndex n table) s (unchanged (endEntry 0 b w x))) ∧
      (Reach s t b → HasTokens s 3 3 2 → s.wConflict e t [b] = false → ∀ f : Bool,
        Leaves (.warrenWriteIndex n table f false) s (wrote b w (entSetFlag x 0 false))) ∧
      (b ≠ c.1 → b ≠ c.2 → ∀ f : Bool, Leaves (.warrenWriteIndex n table f true) s (unchanged (endCode 5))) ∧
      (b = c.1 ∨ b = c.2 → s.wConflict e t [c.1, c.2] = false → Reach s t c.1 → Reach s t c.2 → HasTokens s 3 3 3 → ∀ f : Bool,
        (KeyAbsent s t key ∨ KeyAt s t key b w → (actionListed data = true →
          Leaves (.warrenWriteIndex n table f true) s (wrote b w (newEntry (s.wtSize t) f false 0 data key))) ∧
          (actionListed data = false → Leaves (.warrenWriteIndex n table f true) s refused)) ∧
        (∀ b' w', KeyAt s t key b' w' → (b', w') ≠ (b, w) →
          Leaves (.warrenWriteIndex n table f true) s (unchanged (endEntry 2 b w (s.way t b' w'))))))

/-- R125 to R127, R133 to R138, R140, R143: a command that is done writes its status, and a READ_INDEX its key and action word; a writer is granted the
buckets it waits for; a displacement copies one entry to its other bucket, and after the last copy the new entry takes its way; the learn engine
creates, moves or refuses; a learn's wait ends; the age sweep clears hits and removes ways without one, but no static one, and none whose hit bit
has been set since it was read. What a late visit does to the next one's time is the model's choice (log 55).
The model's readings and choices that it shows: log 55, 102. -/
def Obligations.WarrenServesLearnsAndAges : Prop :=
  (∀ (s : State) (n : Fin 4) (j : WarrenJob) (x : WarrenEnd), s.wQueue n.val = [j] → j.ended = some x →
    let win := warrenEngineWin n.val
    Leaves (.warrenCmdDone n) s (fun u => u.wQueue n.val = [] ∧ u.rf win 0x1A4 0 0 = 0 ∧
      u.reg win 0x1A8 = (if x.code = 256 then s.reg win 0x1A8 else BitVec.ofNat 32 (x.code + x.flags)) ∧
      (x.code = 0 → u.rf win 0x1AC 25 0 = x.index % 2 ^ 26) ∧
      (x.code = 0 → j.op = 0 ∨ j.op = 4 → BitVec.ofNat 128 (u.engWords n.val 0x180 4) = x.action) ∧
      (x.code = 0 → j.op = 4 → leBytes 96 (u.engWords n.val 0x100 24) = fitBytes x.key 96) ∧
      u = { s with regs := u.regs, warren := u.warren } ∧ OtherWindows s u [win])) ∧
  (∀ (s : State) (e : Nat) (j : WarrenJob) (bs : List Nat), e < 4 →
    s.warren.waitq.find? (fun q => !s.wConflict q.1 q.2.1 q.2.2) = some (e, j.table, bs) → s.wFront e = some j → j.who = e →
    j.ended = none → j.path = [] → j.plan = [] → j.owns = [] → j.engine = some e → j.op ∈ [1, 2, 3, 6] → bs = [(s.candidates j.table j.key).1, (s.candidates j.table j.key).2] →
    s.wtPlace j.table ≠ 0 → j.read = [] → j.paid = none → j.turn = false → s.tokensHeld 3 3 = 0 → s.tokensLeft 3 3 = 0 →
    Leaves .bucketOwnershipGrant s (fun u => u.wFront e = some { j with owns := bs } ∧
      (∀ q ∈ u.warren.waitq, q.1 ≠ e ∧ q ∈ s.warren.waitq) ∧ SameWays s u j.table)) ∧
  (∀ (s : State) (table : BitVec 4) (j : WarrenJob) (b w b' w' : Nat) (rest : List (Nat × Nat × Nat × Nat)),
    s.wFronts.find? (fun k => k.table == table.toNat && !k.path.isEmpty) = some j → j.path = (b, w, b', w') :: rest → j.who < 4 →
    s.wFront j.who = some j → w < 4 → w' < 4 → (b', w') ≠ (b, w) → Reach s j.table b → Reach s j.table b' → s.wFront 4 = none →
    j.drawn = 0 → b ∈ j.read → b' ∈ j.read → HasTokens s 3 3 (if rest = [] then 2 else 1) →
    (rest ≠ [] → Leaves (.displacementMove table) s (fun u => u.way j.table b' w' = checked j.table b' (s.way j.table b w) ∧
      OtherWays s u j.table b' w' ∧ u.wFront j.who = some { j with path := rest } ∧ Counted s u warrenWin (0x1054 + 0x100 * j.table))) ∧
    (rest = [] → j.place = some (b, w) → j.op < 16 → Leaves (.displacementMove table) s (fun u =>
      u.way j.table b' w' = checked j.table b' (s.way j.table b w) ∧ u.way j.table b w = checked j.table b (s.jobEntry j) ∧
      (∀ x y, y < 4 → (x, y) ≠ (b, w) → (x, y) ≠ (b', w') → u.way j.table x y = s.way j.table x y) ∧
      ∃ k, u.wFront j.who = some k ∧ k.ended = some (endEntry 0 b w (s.jobEntry j))))) ∧
  (∀ (s : State) (j : WarrenJob) (rest : List WarrenJob),
    let t := j.table
    let key := s.wtKey t j.key
    let c := s.candidates t key
    let T := s.now / 1000000
    let told (code : Nat) (u : State) : Prop := u.warren.learns = rest ∧ (∀ p k dl, j.pid = some p → s.packet p = some k → k.learnWait = some (dl, 0) →
      u.packet p = some { k with learnWait := some (dl, if dl < s.time.cycles then 6 else code) }) ∧ (∀ x, j.pid ≠ some x → u.packet x = s.packet x)
    s.warren.learns = j :: rest → j.who = 4 → j.ended = none → j.path = [] → j.plan = [] → j.key = key → s.wtPlace t ≠ 0 → s.inService warrenWin = true →
    s.wConflict 4 t [c.1, c.2] = false → Reach s t c.1 → Reach s t c.2 → j.turn = false → HasTokens s (if j.event = 1 then 3 else 2) 3 3 →
    (∀ w, j.op = 16 → KeyAbsent s t key → s.freeWay t c.1 = some w → Leaves .learnServe s (fun u =>
      u.way t c.1 w = checked t c.1 (newEntry (s.wtSize t) false true j.port (s.learnAction t j.port (s.learnTemplate t (0x1010))) key) ∧
      OtherWays s u t c.1 w ∧ told 1 u ∧ Counted s u warrenWin 0x180)) ∧
    (∀ b w, KeyAt s t key b w →
      let x := s.way t b w
      (entPort x = j.port → (j.op = 16 → Leaves .learnServe s (fun u => SameWays s u t ∧ told 3 u ∧ Counted s u warrenWin 0x184)) ∧
        (j.op = 17 → Leaves .moveServe s (fun u => SameWays s u t ∧ told 3 u ∧ Counted s u warrenWin 0x184))) ∧
      (entPort x ≠ j.port → entFlag x 1 = true → j.op = 17 →
        Leaves .moveServe s (fun u => SameWays s u t ∧ told 4 u ∧ Counted s u warrenWin 0x18C)) ∧
      (entPort x ≠ j.port → entFlag x 1 = false → entFlag x 5 = false → byteAt x 2 = 0 → j.op = 17 →
        Leaves .moveServe s (fun u => u.way t b w = checked t b (patchBytes (patchBytes (patchBytes (patchBytes x 8 (leBytes 4 T)) 2 [1]) 1
            (leBytes 1 j.port)) 0x10 (leBytes 16 (s.learnAction t j.port (entAction x)).toNat)) ∧
          OtherWays s u t b w ∧ told 2 u ∧ Counted s u warrenWin 0x188)))) ∧
  (∀ (s : State) (p : Pid) (k : Packet) (dl : Nat), s.packet p = some k → k.learnWait = some (dl, 0) → dl ≤ s.time.cycles →
    Leaves (.learnWaitExpiry p) s (fun u => u.packet p = some { k with learnWait := some (dl, 6) } ∧ OtherPackets s u p ∧
      Counted s u warrenWin 0x19C ∧ u.warren = s.warren)) ∧
  (∀ (s : State) (table : BitVec 4),
    let t := table.toNat
    let v := s.sweep t
    let period := s.rf warrenWin (0x1008 + 0x100 * t) 31 16 * 1000000
    let due := v.base + v.next * period / s.wtBuckets t
    s.wtPlace t ≠ 0 → s.wtCfg t 15 15 = 1 → s.inService warrenWin = true → s.wConflict 5 t [v.next] = false → Reach s t v.next →
    (v.todo = none → due ≤ s.now → HasTokens s 1 3 5 → Leaves (.ageSweepVisit table) s (fun u =>
      (∀ w, w < 4 →
        let x := s.way t v.next w
        u.way t v.next w = (if entFlag x 0 = false ∨ entFlag x 1 = true then x
          else if entFlag x 2 = true then entSetFlag x 2 false else checked t v.next (entSetFlag x 0 false))) ∧
      (∀ b w, w < 4 → b ≠ v.next → u.way t b w = s.way t b w) ∧ (v.next + 1 < s.wtBuckets t → (u.sweep t).next = v.next + 1 ∧ (u.sweep t).base = v.base + (s.now - due)) ∧
      (v.next + 1 = s.wtBuckets t → (u.sweep t).next = 0 ∧ (u.sweep t).base = v.base + (s.now - due) + period) ∧
      (v.late = false → v.began + 2 * period < s.now → (u.reg warrenWin 0x10C).getLsbD 4 = true))) ∧
    (∀ w, w < 4 → v.todo = some [(w, false)] → entFlag (s.way t v.next w) 0 = true → entFlag (s.way t v.next w) 1 = false →
      entFlag (s.way t v.next w) 2 = true → Leaves (.ageSweepVisit table) s (fun u => SameWays s u t ∧ Counted s u warrenWin 0x1A4)))

/-! ### Kettle (06) -/

/-- R146, R148, R152, R153, R156, R157: the packet at a lane's intake takes a position with one token and, unless it is an exception, its root task,
which is dispatched to the Leaf R153 chooses or waits for its tenant's quota; a tenant at its cap loses the packet with KETTLE_CAP; a lane
without a token stalls; a held task and a task that waited for quota are dispatched.
The model's readings and choices that it shows: log 63. -/
def Obligations.KettleCreatesAndDispatchesTasks : Prop :=
  (∀ (s : State) (n : Lane) (i : Intake) (p : Packet), SMap.find s.kettle.intake n = some i → s.packet i.pid = some p → s.serving kettleWin = true →
    s.serving (412 + n) = true →
    let c : Instr := if i.stalled then .intakeStallRetry n else .rootTaskCreate n
    let t := mdTenant p.md
    let k := s.kettle.nextPos
    let m := s.kettle.nextTask
    let held := s.tokensOf t
    let class' := s.kettleClass t
    let free := 16384 - s.kettle.positions.length
    let waits := s.quotaOf class' ≤ s.taskCountOf t ∨ ∃ e ∈ s.kettle.tasks, e.1 < m ∧ e.2.quotaWait = true ∧ e.2.tenant = t
    let taken (u : State) : Prop := SMap.find u.kettle.intake n = none ∧ u.kettle.nextPos = k + 1 ∧ u.tokensOf t = held + 1 ∧
      u.reports = s.reports ++ [⟨t, p.ts, [(0, 1), (1, p.bytes.length)], s.rickFlow p.md⟩] ∧
      ∃ x, u.position k = some x ∧ x.pid = i.pid ∧ x.tenant = t ∧ x.od = mdOd p.md ∧ x.nextNode = 1 ∧ x.mirror = i.mirror ∧ x.dropped = none ∧
        x.releasing = false ∧ x.ownRef = i.alive ∧ x.live = (if i.alive && i.exception.isNone then [0] else [])
    let root (x : Task) : Prop := x.pos = k ∧ x.node = 0 ∧ x.tenant = t ∧ x.od = mdOd p.md ∧ x.entry = mdEntry p.md ∧ x.pid = i.pid ∧
      x.budget = s.budgetOfClass class' ∧ x.hdr = p.bytes.take 512 ∧ x.frameLen = p.bytes.length ∧ x.slots = 0 ∧ x.taken = none ∧ x.ts = p.ts
    (held < s.tokenReserve class' ∧ 0 < free ∨ held < s.tokenCap class' ∧ s.tokensOwed t < free →
      (i.alive = true → i.exception = none → s.kettle.tasks.length < 28672 → s.task m = none →
        (waits → Leaves c s (fun u => taken u ∧ Counted s u kettleWin 0x300 ∧ u.taskCountOf t = s.taskCountOf t ∧
          ∃ x, u.task m = some x ∧ root x ∧ x.quotaWait = true ∧ x.leaf = none)) ∧
        (∀ l, ¬ waits → s.olderHeld m = false → s.chooseLeaf (mdOd p.md) = some l →
          Leaves c s (fun u => taken u ∧ Counted s u kettleWin 0x300 ∧ u.taskCountOf t = s.taskCountOf t + 1 ∧
            SMap.find u.kettle.affinity (mdOd p.md) = some l ∧ ∃ x, u.task m = some x ∧ root x ∧ x.quotaWait = false ∧ x.leaf = some l))) ∧
      (∀ q, i.alive = true → i.exception = some q → Leaves c s (fun u => taken u ∧ u.kettle.tasks = s.kettle.tasks ∧
        ∃ x, u.position k = some x ∧ x.outs.map (fun e => (e.1, e.2.pid, e.2.queue, e.2.exc)) = [(0, i.pid, q, true)]))) ∧
    (¬ (held < s.tokenReserve class' ∧ 0 < free) → s.tokenCap class' ≤ held →
      Leaves c s (fun u => SMap.find u.kettle.intake n = none ∧ u.kettle.positions = s.kettle.positions ∧ u.kettle.tasks = s.kettle.tasks ∧
        Counted s u kettleWin 0x310 ∧ u.reports = s.reports ++ [dropReport t p.ts 38 p.bytes.length])) ∧
    (¬ (held < s.tokenReserve class' ∧ 0 < free) → held < s.tokenCap class' → free ≤ s.tokensOwed t →
      Leaves c s (fun u => SMap.find u.kettle.intake n = some { i with stalled := true } ∧ Counted s u kettleWin 0x328 ∧
        u.kettle.positions = s.kettle.positions ∧ u.packets = s.packets ∧ u.reports = s.reports))) ∧
  (∀ (s : State) (k l : Nat) (x : Task), s.task k = some x →
    let first := x.child = true ∨ (s.taskCountOf x.tenant < s.quotaOf (s.kettleClass x.tenant) ∧
      ∀ e ∈ s.kettle.tasks, e.1 < k → e.2.quotaWait = true → e.2.tenant ≠ x.tenant)
    let bound (u : State) : Prop := u.task k = some { x with leaf := some l, quotaWait := false, arrived := s.kettle.nextSeq } ∧
      SMap.find u.kettle.affinity x.od = some l ∧ u.taskCountOf x.tenant = s.taskCountOf x.tenant + 1 ∧ u = { s with kettle := u.kettle } ∧
      (∀ j, j ≠ k → u.task j = s.task j)
    (s.kettle.tasks.find? (fun e => e.2.leaf.isNone && e.2.taken.isNone && !e.2.quotaWait) = some (k, x) →
      (first → s.olderHeld k = false → s.chooseLeaf x.od = some l → Leaves .heldTaskDispatch s bound) ∧
      (¬ first → Leaves .heldTaskDispatch s (fun u => u.task k = some { x with quotaWait := true } ∧ u.taskCountOf x.tenant = s.taskCountOf x.tenant ∧
        u = { s with kettle := u.kettle } ∧ ∀ j, j ≠ k → u.task j = s.task j))) ∧
    (∀ t : BitVec 14, s.taskCountOf t.toNat < s.quotaOf (s.kettleClass t.toNat) → first → s.olderHeld k = false → s.chooseLeaf x.od = some l →
      s.kettle.tasks.find? (fun e => e.2.quotaWait && e.2.tenant == t.toNat) = some (k, x) → Leaves (.quotaRelease t) s bound))

/-- R163 to R166: the head of an order domain, complete, begins its release; the earliest begun is delivered to Drover, its mirror copy first and then its
outputs by node, or nothing where all its nodes dropped, and the position ends and gives back its token; a head that stays incomplete past its limit is dropped, with its outputs and its
tasks that no thread has taken, and past the limit for debug-held nodes likewise. -/
def Obligations.KettleReleasesInOrder : Prop :=
  (∀ (s : State) (od : BitVec 16) (k : Nat) (p : Position), s.headOf od.toNat = some (k, p) → p.dropped.isSome = true ∨ p.live = [] →
    Leaves (.releaseBegin od) s (fun u => u.position k = some { p with releasing := true } ∧ u.kettle.releaseQ = s.kettle.releaseQ ++ [k] ∧
      u = { s with kettle := { s.kettle with positions := u.kettle.positions, releaseQ := u.kettle.releaseQ } })) ∧
  (∀ (s : State) (k : Nat) (rest : List Nat) (p : Position), s.kettle.releaseQ = k :: rest → s.position k = some p →
    let handed := if p.outs = [] ∧ p.nodeDrops ≠ [] then []
      else p.mirror.toList ++ (List.range 16).flatMap (fun n => (p.outs.filter (fun e => e.1 = n)).map (·.2))
    CleanItem s kettleWin 0 k → handed = [] ∨ s.inService droverWin = true → Leaves (.releaseDeliver k) s (fun u => u.position k = none ∧ (∀ j, j ≠ k → u.position j = s.position j) ∧ u.kettle.releaseQ = rest ∧
      u.tokensOf p.tenant = s.tokensOf p.tenant - 1 ∧ u.drover.handed.map (·.2) = s.drover.handed.map (·.2) ++ handed ∧
      Counted s u kettleWin 0x308 ∧ u.kettle.tasks = s.kettle.tasks ∧
      (p.dropped = none → p.nodeDrops = [] → (∀ e ∈ handed, e.exc = false) → u.reports = s.reports))) ∧
  (∀ (s : State) (od : BitVec 16) (k : Nat) (p : Position), s.headOf od.toNat = some (k, p) → s.position k = some p → p.dropped = none → p.live ≠ [] →
    let dropped (diag : Nat) (u : State) : Prop := u.position k = some { p with dropped := some diag, outs := [], mirror := none } ∧
      (∀ m x, s.task m = some x → x.pos = k → x.taken = none → u.task m = none) ∧ Counted s u kettleWin (0x300 + 4 * (diag - 41)) ∧
      (u.reg kettleWin 0x380).getLsbD (diag - 47) = true ∧ u.reports = s.reports
    let since := p.headSince.getD s.time.cycles
    (s.heldByDebug k = none → since + 1000000 * s.rf kettleWin 0x100 31 16 < s.time.cycles → Leaves (.headTimeout od) s (dropped 48)) ∧
    (∀ h, s.heldByDebug k = some h → max since h + 1000 * s.rf kettleWin 0x100 15 0 < s.time.cycles → Leaves (.debugHeld od) s (dropped 47)))

/-- R159 to R162, R167, R129 to R132, R547: an EMIT that is well formed ends its task with an output of its position; a DROP ends it with a drop to report;
a post with a reserved op does nothing; a FORK that R161 lets through creates a child of the next node number and answers OK, and one past the limit of children CHILD_LIMIT; the status is then
written and its event raised; a Warren command posted is accepted with its tenant's key bytes, or raises DOMAIN, and when it has ended writes status,
action word and event. -/
def Obligations.ThreadsPostToKettleAndWarren : Prop :=
  (∀ (s : State) (t : Tid) (th : Thread) (k : Nat) (x : Task) (p : Position) (pk : Packet),
    let w := th.bankWord 0
    let goesOn (u : State) : Prop := (u.thread t).wait = .none ∧ (u.thread t).pc = nextPc th ∧ (∀ i, i < 8 → (u.thread t).bankWord i = 0)
    s.posting t 0 = some th → s.heldTask t = some (k, x) → s.position x.pos = some p → p.dropped = none → p.releasing = false →
    s.packet x.pid = some pk →
      (th.ops.any LeafOp.writes = false → th.restZero = true →
        (∀ len, w % 32 = 0 → w / 2 ^ 40 = 0 → 8 * bitsOf w 28 22 + bitsOf w 39 29 ≤ 1024 →
          s.errsIn (tidLeafWin t) 0 (localBase t + (0x400 + 8 * bitsOf w 28 22)) (bitsOf w 39 29) = [] →
          editedLength (Memory.readBytes (s.thread t).mem (0x400 + 8 * bitsOf w 28 22) (bitsOf w 39 29)) x.frameLen = some len →
          Leaves (.kettleEmit t) s (fun u => u.task k = none ∧ (u.thread t).task = none ∧ goesOn u ∧
            (∃ q, u.position x.pos = some q ∧ q.live = p.live.filter (· ≠ x.node) ∧ q.dropped = none ∧ q.outs.take p.outs.length = p.outs ∧
              (q.outs.drop p.outs.length).map (fun e => (e.1, e.2.pid, e.2.tenant, e.2.queue, e.2.len)) = [(x.node, x.pid, x.tenant, bitsOf w 21 5, len)]) ∧
            u.reports = s.reports ++ [⟨x.tenant, x.ts, [(4, x.slots), (7, 1)], none⟩] ∧ u.taskCountOf x.tenant = s.taskCountOf x.tenant - 1)) ∧
        (w = 1 → Leaves (.kettleDrop t) s (fun u => u.task k = none ∧ (u.thread t).task = none ∧ goesOn u ∧
          u.position x.pos = some { p with live := p.live.filter (· ≠ x.node), nodeDrops := p.nodeDrops ++ [42] } ∧
          u.reports = s.reports ++ [⟨x.tenant, x.ts, [(4, x.slots), (7, 1)], none⟩] ∧ u.taskCountOf x.tenant = s.taskCountOf x.tenant - 1))) ∧
      (3 ≤ w % 16 → Leaves (.kettleDrop t) s (fun u => goesOn u ∧ (u.thread t).task = th.task ∧ u = { s with threads := u.threads })) ∧
      (w % 16 = 2 → w / 2 ^ 32 = 0 → bitsOf w 26 22 < 30 → (∀ i ∈ [5, 6, 7], th.bankWord i = 0) → th.outstanding < 16 →
        s.errsIn (tidLeafWin t) 0 (localBase t + 0x200) 512 = [] →
        let n := s.kettle.nextTask
        let answers (code : Nat) (u : State) : Prop := (∃ o, (u.thread t).ops = th.ops ++ [o] ∧ o.kind = .fork ∧ o.dst = bitsOf w 26 22 ∧
          o.ev = some (bitsOf w 31 27) ∧ o.data = leBytes 8 code) ∧ goesOn u
        (x.forks < 8 → p.nextNode < 16 → s.kettle.tasks.length < 32768 → n ≠ k → s.task n = none →
          Leaves (.kettleFork t) s (fun u => answers (256 * p.nextNode) u ∧ Counted s u kettleWin 0x304 ∧
            (∃ c, u.task n = some c ∧ c.pos = x.pos ∧ c.node = p.nextNode ∧ c.parent = x.node ∧ c.child = true ∧ c.tenant = x.tenant ∧ c.od = x.od ∧
              c.entry = bitsOf w 15 4 ∧ c.budget = s.budgetOfClass (s.kettleClass x.tenant) ∧
              c.args = (List.range 4).map (fun i => BitVec.ofNat 64 (th.bankWord (i + 1))) ∧
              c.hdr = Memory.readBytes (s.thread t).mem 0x200 512 ∧ c.slots = 0 ∧ c.taken = none) ∧
            u.task k = some { x with forks := x.forks + 1 } ∧
            u.position x.pos = some { p with nextNode := p.nextNode + 1, live := p.live ++ [p.nextNode] })) ∧
        (8 ≤ x.forks → Leaves (.kettleFork t) s (fun u => answers 1 u ∧ Counted s u kettleWin 0x324 ∧ u.kettle = s.kettle)))) ∧
  (∀ (s : State) (t : Tid) (o : LeafOp), (s.thread t).ops.find? (fun o => o.kind == .fork) = some o →
    Leaves (.forkStatus t) s (fun u => (o.dst ≠ 0 → (u.thread t).g o.dst = BitVec.ofNat 64 (leNat o.data)) ∧
      (∀ b, o.ev = some b → b < 32 → (u.thread t).events.getLsbD b = true) ∧ (∀ r, r ≠ 0 → r ≠ o.dst → (u.thread t).g r = (s.thread t).g r) ∧
      (∀ y, y ≠ t.val → u.thread y = s.thread y) ∧ u = { s with threads := u.threads })) ∧
  (∀ (s : State) (t : Tid) (th : Thread) (k : Nat) (x : Task) (e : Nat), s.posting t 1 = some th → s.heldTask t = some (k, x) →
    s.engineFor (8 + t.val) = some e → th.outstanding < 16 →
    let w := th.bankWord 0
    let table := bitsOf w 7 4
    let mode := s.wtCfg table 14 13
    let who := 8 + t.val
    th.warrenBad = false →
      (mode = 2 ∨ mode = 1 ∧ w % 16 = 0 → s.wtPlace table ≠ 0 → s.wtKeyLen table ≤ 40 → Leaves (.warrenThreadPost t) s (fun u =>
        (∃ j, u.wQueue who = s.wQueue who ++ [j] ∧ j.op = w % 16 ∧ j.table = table ∧ j.key.take 2 = leBytes 2 x.tenant ∧ j.engine = some e ∧
          j.dst = bitsOf w 14 10 ∧ j.event = bitsOf w 20 16 ∧ j.ended = none) ∧
        (∃ o, (u.thread t).ops = th.ops ++ [o] ∧ o.kind = .warren) ∧ (u.thread t).wait = .none ∧ (u.thread t).pc = nextPc th)) ∧
      (mode = 0 ∨ mode = 1 ∧ w % 16 ≠ 0 → Leaves (.warrenThreadPost t) s (fun u => (∃ f, (u.thread t).fault = some f ∧ f.kind = fDOMAIN ∧ f.async = false) ∧
        u.warren = s.warren))) ∧
  (∀ (s : State) (t : Tid) (j : WarrenJob) (rest : List WarrenJob) (x : WarrenEnd) (o : LeafOp), s.wQueue (8 + t.val) = j :: rest → j.ended = some x →
    j.pid = none → x.code ≠ 8 → (s.thread t).ops.find? (fun o => o.kind == .warren) = some o →
    Leaves (.warrenThreadComplete t) s (fun u => u.wQueue (8 + t.val) = rest ∧ u.reports = s.reports ++ [⟨j.tenant, j.ts, [(6, 1)], none⟩] ∧
      (j.dst ≠ 0 → (u.thread t).g j.dst = BitVec.ofNat 64 (x.code + x.flags + x.index * 2 ^ 32)) ∧
      (j.op = 0 → x.code = 0 → j.dst ≠ 0 → (u.thread t).g (j.dst + 1) = x.action.setWidth 64 ∧ (u.thread t).g (j.dst + 2) = (x.action >>> 64).setWidth 64) ∧
      (∀ b, o.ev = some b → b < 32 → (u.thread t).events.getLsbD b = true) ∧ (∀ y, y ≠ t.val → u.thread y = s.thread y)))

/-! ### Loft (11) -/

/-- R299 to R306, R310, R312 to R315: the oldest frame of a port is admitted, waits or is refused as R304 decides; a packet takes a further cell, or is dropped with
NO_CELL; a frame that waited is admitted once its condition has cleared; a pool's cells are pushed and it is ready; references are counted, the last
one frees the cell, and a release of what is no allocated head is refused.
The model's readings and choices that it shows: log 43, 72, 76, 77, 79, 110. -/
def Obligations.LoftAdmitsAndFreesCells : Prop :=
  (∀ (s : State) (n : Port) (f : RxFrame), s.openFrame n = some f → n.val ≠ 32 → n.val ≠ 34 → (∀ g ∈ (s.port n).rx, g.pid ≠ some s.nextPid) →
    let q := s.ingressPrio n f.bytes
    let pool := s.ppPool n q
    let t := s.defaultTenant n
    let k := s.loftClass t
    let held := s.loftUsed t pool
    let free := s.logicalFree pool
    let owed : Int := (free : Int) - s.poolHeadroom pool - s.loftOwed pool
    let a := s.loftAlpha pool k
    let admits := s.laneStalled n = false ∧ s.inService loftWin = true ∧ s.logicalReady pool = true ∧ s.poolHeadroom pool < free ∧
      (held < s.loftReserve pool k ∨ held < s.loftCap pool k ∧ 0 < owed ∧ (a = 0 ∨ ((held : Int) - s.loftReserve pool k) * 128 < owed * 2 ^ a))
    let admitted (u : State) : Prop := ∀ i rest, (s.poolStack pool).pushed = i :: rest →
      s.cellServed (cellPtr (s.poolMem pool) i) = true →
      let ptr := cellPtr (s.poolMem pool) i
      (u.cell ptr = ⟨t, 1, n, q, true, true, true, 0⟩ ∧ Counted s u loftWin 0x618 ∧ u.nextPid = s.nextPid + 1 ∧
        ∃ p, u.packet s.nextPid = some p ∧ p.port = n ∧ p.prio = q ∧ p.ts = f.ts ∧ p.bytes = f.bytes ∧ p.handle = some ptr ∧ p.place = .rx ∧
          (f.whole = false → p.complete = false))
    let refused (r : Nat) (u : State) : Prop := u.loft = s.loft ∧ u.packets = s.packets ∧ Counted s u loftWin (0x1800 + 4 * (8 * n + r)) ∧
      u.reports = s.reports ++ [dropReport t f.ts (31 + r) f.bytes.length]
    (f.waitTold = false → f.noToken = false →
      (admits → f.whole = false → (s.poolStack pool).pushed ≠ [] → Leaves (.firstCellAdmission n) s admitted) ∧
      (f.whole = true → f.qp = none →
        (s.laneStalled n = true ∨ s.inService loftWin = false → s.lossless n q = false → Leaves (.firstCellAdmission n) s (refused 2)) ∧
        (s.laneStalled n = false → s.inService loftWin = true → s.logicalReady pool = false → Leaves (.firstCellAdmission n) s (refused 4)) ∧
        (s.laneStalled n = false → s.inService loftWin = true → s.logicalReady pool = true → free ≤ s.poolHeadroom pool →
          Leaves (.firstCellAdmission n) s (refused 0)) ∧
        (s.laneStalled n = false → s.inService loftWin = true → s.logicalReady pool = true → s.poolHeadroom pool < free → ¬ admits →
          Leaves (.firstCellAdmission n) s (refused 1))) ∧
      (s.laneStalled n = true ∨ s.inService loftWin = false → s.lossless n q = true → Leaves (.firstCellAdmission n) s (fun u =>
        u.openFrame n = some { f with waitTold := true } ∧ u.loft = s.loft ∧ u.packets = s.packets ∧ u.reports = s.reports))) ∧
    (f.waitTold = true → admits → f.whole = false → (s.poolStack pool).pushed ≠ [] → Leaves (.rxWaitRelease n) s admitted)) ∧
  (∀ (s : State) (p : Pid) (k : Packet) (h last : Nat), s.packet p = some k → k.handle = some h → k.complete = false → k.place ≠ .gone →
    (s.cellsOf h).getLast? = some last → (s.cellsOf h).length < (k.bytes.length + 255) / 256 → k.port ≠ 32 → k.port ≠ 34 →
    let pool := s.ppPool k.port k.prio
    (∀ i rest, (s.poolStack pool).pushed = i :: rest → s.cellServed (cellPtr (s.poolMem pool) i) = true → cellPtr (s.poolMem pool) i ≠ last →
      Leaves (.cellAllocation p) s (fun u =>
        u.cell (cellPtr (s.poolMem pool) i) = ⟨(s.cell h).tenant, 0, k.port, k.prio, true, false, true, 0⟩ ∧
        u.cell last = { s.cell last with last := false, next := cellPtr (s.poolMem pool) i } ∧ (u.poolStack pool).pushed = rest ∧ OtherPackets s u p)) ∧
    (s.poolFree pool = 0 → s.poolSpills pool = false → (∀ f ∈ (s.port k.port).rx, f.pid ≠ some p) →
      Leaves (.cellAllocation p) s (fun u => (u.reg loftWin 0x604).getLsbD 3 = true ∧ Counted s u loftWin (0x1800 + 4 * (8 * k.port + 3)) ∧
        u.reports = s.reports ++ [dropReport (s.defaultTenant k.port) k.ts 34 k.bytes.length] ∧ ∀ y, u.packet p = some y → y.place = .gone))) ∧
  (∀ (s : State) (pool : Fin 64), s.poolMem pool ≠ 0 → (s.poolStack pool).ready = false →
    Leaves (.poolReady pool) s (fun u => u.poolStack pool = ⟨[], s.poolSize pool, true⟩ ∧ (∀ j, j ≠ pool.val → u.poolStack j = s.poolStack j) ∧
      u = { s with loft := { s.loft with poolStacks := u.loft.poolStacks } })) ∧
  (∀ (s : State) (handle : BitVec 32),
    let h := handle.toNat
    let c := s.cell h
    let only (u : State) : Prop := (∀ j, j ≠ h → u.cell j = s.cell j) ∧
      u = { s with loft := { s.loft with cells := u.loft.cells }, mower := u.mower, regs := u.regs, mem := { s.mem with buffer := u.mem.buffer } } ∧
      OtherWindows s u (mowerWin :: if h < 0x80000000 then [] else memoryChannels 0) ∧
      ∀ a, h < 0x80000000 ∨ a < s.metaAddr h ∨ s.metaAddr h + 8 ≤ a → Memory.read u.mem.buffer a = Memory.read s.mem.buffer a
    (s.isHead h = true →
      Leaves (.refIncrement handle) s (fun u => u.cell h = { c with refs := c.refs + 1 } ∧ only u) ∧
      (1 < c.refs → Leaves (.refDecrement handle) s (fun u => u.cell h = { c with refs := c.refs - 1 } ∧ only u)) ∧
      (∀ pool, c.refs ≤ 1 → c.last = true → s.cellBad h = false → s.poolOfCell h = some pool → Leaves (.refDecrement handle) s (fun u =>
        u.cell h = { c with alloc := false } ∧ (u.poolStack pool).pushed = (h % 0x10000000) :: (s.poolStack pool).pushed ∧
        (∀ j, j ≠ h → u.cell j = s.cell j) ∧ u.poolUsed c.tenant pool = s.poolUsed c.tenant pool - 1 ∧
        (∀ t p, p < 64 → (t, p) ≠ (c.tenant, pool) → u.poolUsed t p = s.poolUsed t p) ∧
        (0 < s.poolUsed c.tenant pool → s.poolSpill (s.logicalHead pool) ≠ s.logicalHead pool →
          u.loftUsed c.tenant (s.logicalHead pool) = s.loftUsed c.tenant (s.logicalHead pool) - 1)))) ∧
    (c.alloc = false →
      Leaves (.refIncrement handle) s (fun u => u.reg loftWin 0x608 = handle ∧ Counted s u loftWin 0x620 ∧ (u.reg loftWin 0x604).getLsbD 0 = true ∧
        u.loft = s.loft) ∧
      Leaves (.refDecrement handle) s (fun u => u.reg loftWin 0x608 = handle ∧ Counted s u loftWin 0x620 ∧ (u.reg loftWin 0x604).getLsbD 0 = true ∧
        u.loft = s.loft)))

/-! ### Drover (12) -/

/-- R319, R321 to R326, R329, R331, R333 to R337, R541: an output handed over is policed and put into its queue, or dropped with the reason of the check
that fails; a lane hands the oldest output of the queue that its rings lead to, to Finisher, and charges the path; a bucket gains what its refills
give; XOFF is sent again; a received pause ends, or is ignored after a storm; a flush empties a queue; an indirect command reads or writes one entry.
The model's readings and choices that it shows: log 75, 78, 109. -/
def Obligations.DroverQueuesAndSelects : Prop :=
  (∀ (s : State) (first : Bool) (d : OutDesc) (rest : List (Bool × OutDesc)), s.drover.handed = (first, d) :: rest → s.serving droverWin = true →
    let i := mdBits d.md 67 48
    let e := s.polEntry i
    let colour := if d.mirrorTrunc.isSome then 0 else if first then 0 else s.drover.colour
    let q := d.queue
    let k := nodeKey 4 q
    let t := s.queueTenantNode q
    let len := s.outLen d
    let limit : Int := ((256 * (if colour = 1 then s.nodeBits k 243 224 else s.nodeBits k 211 192) : Nat) : Int)
    let cap := 64 * s.nodeBits t 222 208
    let enabled := ∀ n ∈ s.nodePath q, s.nodeBits n 24 24 = 1
    let mine := s.nodeBits t 205 192 = d.tenant ∨ s.nodeBits t 207 207 = 1
    let fits := s.queueDepth q + len ≤ limit
    let dropped (diag : Nat) (u : State) : Prop := u.reports = s.reports ++ [outDropReport s d diag len] ∧ u.queued q = s.queued q ∧ u.drover.handed = rest ∧
      Counted s u droverWin 0x200 ∧ Counted s u droverWin (0x200 + 4 * droverDropCnt diag)
    ((first = false ∨ mdBits d.md 68 68 = 0 ∨ entBits e 88 88 = 0) →
      (colour ≠ 2 → enabled → mine → fits →
        (cap = 0 ∨ s.drover.outs.countP (fun e => e.2.tnode == t && decide (e.2.place = .queued)) < cap) →
        s.drover.outs.countP (fun e => decide (e.2.place = .queued)) < 1048576 →
        Leaves .droverTakeOutput s (fun u => u.queued q = s.queued q ++ [s.drover.nextOut] ∧ u.drover.handed = rest ∧ Counted s u droverWin 0x200 ∧
          u.reports = s.reports ∧ ∃ x, u.output s.drover.nextOut = some x ∧ x.desc = d ∧ x.len = len ∧ x.port = s.queuePort q ∧ x.place = .queued)) ∧
      (colour = 2 → entBits e 90 90 = 0 → Leaves .droverTakeOutput s (dropped 49)) ∧
      (colour ≠ 2 → ¬ enabled → Leaves .droverTakeOutput s (dropped 52)) ∧
      (colour ≠ 2 → enabled → ¬ mine → Leaves .droverTakeOutput s (dropped 51)) ∧
      (colour ≠ 2 → enabled → mine → ¬ fits → Leaves .droverTakeOutput s (dropped 50))) ∧
    (first = true → mdBits d.md 68 68 = 1 → entBits e 88 88 = 1 → entBits e 89 89 = 0 → ∀ p, s.packet d.pid = some p →
      let was := s.polDyn i
      let el : Int := (s.time.ns.toNat : Int) - was.last
      let tc := min (8000 * entBits e 87 64 : Int) (was.tc + entBits e 19 0 * el)
      let tp := min (8000 * entBits e 119 96 : Int) (was.tp + entBits e 51 32 * el)
      let b : Int := 8000 * ((p.bytes.length : Int) + 4)
      let uses (c : Nat) (tc tp : Int) : Prop := Leaves .droverTakeOutput s (fun u => u.polDyn i = ⟨tc, tp, s.time.ns.toNat⟩ ∧ u.drover.colour = c ∧
        Counted s u droverWin (0x204 + 4 * c) ∧ ⟨d.tenant, d.ts, [(19 + c, 1)], none⟩ ∈ u.reports ∧ u.drover.handed = rest)
      (tp < b → uses 2 tc tp) ∧ (b ≤ tp → tc < b → uses 1 tc (tp - b)) ∧ (b ≤ tp → b ≤ tc → uses 0 (tc - b) (tp - b)))) ∧
  (∀ (s : State) (n : Lane) (k0 k1 k2 k3 q o : Nat) (rest : List Nat) (x : Output), s.laneSelects n = true →
    TakesChild s (nodeKey 5 n) k0 → TakesChild s k0 k1 → TakesChild s k1 k2 → TakesChild s k2 k3 → TakesChild s k3 (nodeKey 4 q) →
    s.queued q = o :: rest → s.output o = some x → CleanItem s droverWin 0 n →
    Leaves (.droverSelect n) s (fun u => u.output o = some { x with place := .selected } ∧ u.queued q = rest ∧ u.selectedOf n = s.selectedOf n ++ [o] ∧
      Counted s u droverWin 0x234 ∧ u.reports = s.reports ++ [⟨x.desc.tenant, x.desc.ts, [(2, 1), (3, (BitVec.ofInt 64 x.len).toNat)], none⟩] ∧
      ([nodeKey 4 q, k3, k2, k1, k0].Nodup → ∀ k ∈ [nodeKey 4 q, k3, k2, k1, k0],
        (u.node k).cTok = (if s.bucketOn k 95 then (s.node k).cTok - 65536 * x.len else (s.node k).cTok) ∧
        (u.node k).pTok = (if s.bucketOn k 127 then (s.node k).pTok - 65536 * x.len else (s.node k).pTok)))) ∧
  (∀ (s : State) (level : Fin 5) (index : BitVec 17), index.toNat < nodeCount level →
    let k := nodeKey level index.toNat
    let e := s.nodeEntry k
    let d := s.node k
    let n := s.time.ns.toNat / refillNs e - d.last / refillNs e
    0 < n → entBits e 95 95 = 1 → entBits d.applied 95 95 = 1 → Leaves (.shaperRefill level index) s (fun u =>
      (u.node k).cTok = min (64 * 65536 * entBits e 147 128 : Int) (d.cTok + ((d.cFrac + n * entBits e 83 64 * refillNs e * 65536) / 8000 : Nat)) ∧
      (u.node k).cFrac = (d.cFrac + n * entBits e 83 64 * refillNs e * 65536) % 8000 ∧ (u.node k).applied = e ∧ (u.node k).last = s.time.ns.toNat ∧
      u = { s with drover := u.drover })) ∧
  (∀ (s : State) (p : EthPort),
    let n := p.val
    let cfg := s.reg droverWin (0x400 + 4 * n)
    let x := s.xoffBits n
    let due (q : Nat) : Bool := decide ((SMap.find (s.port n).pfcSent q).getD 0 + halfQuantaNs (fld cfg 15 0) (s.portSpeed n) ≤ s.time.cycles)
    let sends (f : List Byte) (qs : List Nat) : Prop := Leaves (.pfcResend p) s (fun u => (u.port n).ctl = (s.port n).ctl ++ [f] ∧
      (∀ q ∈ qs, SMap.find (u.port n).pfcSent q = some s.time.cycles) ∧
      (∀ q, q ∉ qs → SMap.find (u.port n).pfcSent q = SMap.find (s.port n).pfcSent q) ∧ u = { s with ports := u.ports })
    let qs := (List.range 8).filter (fun q => x.testBit q && due q)
    x ≠ 0 → s.serving (portWin n) = true → s.linkUp n = true →
    (fld cfg 31 30 = 1 → due 8 = true → sends (pauseFrame n (fld cfg 15 0)) [8]) ∧
    (fld cfg 31 30 = 2 → qs ≠ [] → sends (pfcFrame n (sumOf qs (fun q => 2 ^ q)) (fun _ => fld cfg 15 0)) qs)) ∧
  (∀ (s : State) (p : EthPort) (q : Fin 8),
    (∀ t, SMap.find (s.port p).pauseEnd q = some t → t ≤ s.time.cycles → Leaves (.pauseExpiry p q) s (fun u => u.pauseRuns p q = false ∧
      SMap.find (u.port p).pauseEnd q = none ∧ (∀ r, r < 8 → r ≠ q.val → u.pauseRuns p r = s.pauseRuns p r))) ∧
    (∀ t, SMap.find (s.port p).pauseSince q = some t → s.rf droverWin (0x400 + 4 * p) 29 16 ≠ 0 → s.paused p q = true →
      t + s.rf droverWin (0x400 + 4 * p) 29 16 * 1000000 < s.time.cycles → Leaves (.pauseStorm p q) s (fun u => u.paused p q = false ∧
        u.rf droverWin (0x480 + 4 * p) q q = 1 ∧ Counted s u droverWin 0x230 ∧ (u.reg droverWin 0x180).getLsbD 0 = true))) ∧
  (∀ (s : State) (queue : BitVec 17), Leaves (.droverFlush queue) s (fun u => u.queued queue.toNat = [] ∧ u.rf droverWin 0x140 16 0 = queue.toNat ∧
    (∀ o ∈ s.queued queue.toNat, u.output o = none) ∧ ∀ q, q ≠ queue.toNat → u.queued q = s.queued q)) ∧
  (∀ (s : State),
    let a := s.reg droverWin 0x100
    let target := fld a 31 30
    let level := fld a 29 27
    let i := fld a 19 0
    let k := nodeKey level i
    let data := s.indData droverWin 0x110
    (target = 0 → level ≤ 4 → i < nodeCount level →
      Leaves .droverIndRead s (fun u => u.indData droverWin 0x110 = s.nodeEntry k ∧ u.drover = s.drover) ∧
      (s.nodeRejects level k data = false → Leaves .droverIndWrite s (fun u => u.nodeEntry k = BitVec.ofNat 256 (data.toNat &&& nodeMask level) ∧
        ∀ j, j ≠ k → u.nodeEntry j = s.nodeEntry j)) ∧
      (s.nodeRejects level k data = true → Leaves .droverIndWrite s (fun u => u.drover = s.drover ∧ (u.reg droverWin 0x20).getLsbD 0 = true))) ∧
    (target = 1 → Leaves .droverIndRead s (fun u => u.indData droverWin 0x110 = s.polRead i ∧ u.drover = s.drover)) ∧
    (target = 2 → i < 131072 →
      Leaves .droverIndRead s (fun u => u.indData droverWin 0x110 = s.statsEntry i ∧ u.drover = s.drover) ∧
      Leaves .droverIndReadClear s (fun u => u.indData droverWin 0x110 = s.statsEntry i ∧ bitsOf (u.statsEntry i).toNat 191 0 = 0 ∧
        ∀ j, j ≠ i → u.statsEntry j = s.statsEntry j)) ∧
    (target = 0 → level ≤ 4 → nodeCount level ≤ i → Leaves .droverIndRead s (fun u => u.rf droverWin 0x104 29 29 = 1 ∧ u.drover = s.drover) ∧
      Leaves .droverIndWrite s (fun u => u.rf droverWin 0x104 29 29 = 1 ∧ u.drover = s.drover)))

/-! ### Ports (13) -/

/-- R306, R334, R342 to R347, R543: a whole frame that passes its checks joins the port's receive buffer with its timestamp, and one that fails a check is
counted and reported; a cut-through frame grows and ends; a MAC Control frame is consumed and obeyed; the port sends a waiting MAC Control frame, else its
next edited output, padded and with its FCS; link_up changes and the PCS tells its symbol error ratio and its codewords; recalibration is taken in
QUIET only; a checker's lock and its errors show, behind the near-end loopback those of the port's own generator.
The model's readings and choices that it shows: log 73, 74, 108. -/
def Obligations.PortsReceiveAndSend : Prop :=
  ∀ (s : State) (p : EthPort),
    let n := p.val
    let w := portWin n
    let max := s.prf n 0x100 13 0
    let macDrop (cnt diag : Nat) (ts : Word64) (len : Nat) (u : State) : Prop := Counted s u w (0x200 + 4 * cnt) ∧
      u.reports = s.reports ++ [dropReport (s.defaultTenant n) ts diag len]
    (s.macReceives n = true → s.fallowOwns n = false → s.portState n = .inService →
      (∀ (wire : List Byte) (whole fcs : Bool) (sfd : BitVec 64),
        let ts := sfd + (BitVec.ofNat 8 (s.prf n 0x110 7 0)).signExtend 64
        (whole = true → fcs = false → Leaves (.rxWindowDelivery p wire whole fcs sfd) s (fun u => macDrop 1 24 ts wire.length u ∧ u.ports = s.ports)) ∧
        (whole = true → fcs = true → wire.length < 60 →
          Leaves (.rxWindowDelivery p wire whole fcs sfd) s (fun u => macDrop 2 25 ts wire.length u ∧ u.ports = s.ports)) ∧
        (whole = true → fcs = true → 60 ≤ wire.length → max < wire.length + 4 →
          Leaves (.rxWindowDelivery p wire whole fcs sfd) s (fun u => macDrop 3 26 ts wire.length u ∧ u.ports = s.ports)) ∧
        ((whole = true → fcs = true ∧ 60 ≤ wire.length) → wire.length + 4 ≤ max → etherType wire ≠ 0x8808 → s.prf n 0x120 31 31 = 0 →
          s.rxHeld n + wire.length ≤ 32768 → Leaves (.rxWindowDelivery p wire whole fcs sfd) s (fun u =>
            (u.port n).rx = (s.port n).rx ++ [⟨wire, wire, ts, whole, none, none, none, false, none, false, none⟩] ∧
            (whole = true → Counted s u w 0x200) ∧ u.reports = s.reports ∧ u = { s with ports := u.ports, regs := u.regs }))) ∧
      (∀ frame : List Byte, etherType frame = 0x8808 → 60 ≤ frame.length → frame.length + 4 ≤ max → s.rf droverWin (0x400 + 4 * n) 31 30 = 1 →
        beNat (bytesAt frame 14 2) = 1 → Leaves (.macControlFrame p frame) s (fun u => Counted s u w 0x210 ∧ Counted s u droverWin 0x22C ∧
          (∀ q, q < 8 → u.pauseRuns n q = decide (beNat (bytesAt frame 16 2) ≠ 0)) ∧ (u.port n).rx = (s.port n).rx ∧ u.reports = s.reports))) ∧
    (∀ f : RxFrame, s.arriving n = some f → f.refused = none →
      (∀ (more : List Byte) (pid : Nat) (k : Packet), f.sec = none → f.wire.length + more.length + 4 ≤ max → f.pid = some pid → s.packet pid = some k →
        Leaves (.rxBytesDelivery p more) s (fun u => u.arriving n = some { f with wire := f.wire ++ more, bytes := f.wire ++ more } ∧
          u.packet pid = some { k with bytes := f.wire ++ more } ∧ OtherPackets s u pid)) ∧
      (∀ fcs cut : Bool, (fcs && !cut) = false → Leaves (.rxFrameEnd p fcs cut) s (fun u => macDrop 1 24 f.ts f.wire.length u ∧
        (u.port n).rx.length + 1 = (s.port n).rx.length ∧ ∀ pid k, f.pid = some pid → u.packet pid = some k → k.place = .gone)) ∧
      (f.sec = none → f.pid = none → Leaves (.rxFrameEnd p true false) s (fun u => Counted s u w 0x200 ∧ { f with whole := true } ∈ (u.port n).rx ∧
        (u.port n).rx.length = (s.port n).rx.length ∧ u.reports = s.reports))) ∧
    (s.portState n = .inService ∨ s.portState n = .quiescing → s.linkUp n = true →
      (∀ c cs, (s.port n).ctl = c :: cs → Leaves (.macTransmit p) s (fun u => (u.port n).wireOut = (s.port n).wireOut ++ [onWire c] ∧
        (u.port n).ctl = cs ∧ Counted s u droverWin 0x228 ∧ u = { s with ports := u.ports, regs := u.regs } ∧ OtherWindows s u [droverWin])) ∧
      (∀ (o : Nat) (rest : List Nat) (x : Output), (s.port n).ctl = [] → (s.port n).txq = o :: rest → s.output o = some x → x.place = .edited →
        s.fallowQueue n = [] → s.fallowOwns n = false → x.tstamp = none → s.prf n 0x120 31 31 = 0 → x.port = n →
        Leaves (.macTransmit p) s (fun u => (u.port n).wireOut = (s.port n).wireOut ++ [onWire x.frame] ∧ Counted s u w 0x224 ∧ u.output o = none ∧
          o ∉ (u.port n).txq ∧ u.reports = s.reports))) ∧
    (s.portState n = .inService → s.prf n 0x100 31 28 ≠ 0 → ∀ (hiSer : Bool) (corrected bad : BitVec 32),
      let tells (u : State) : Prop := u.rf w 0x104 3 3 = bit hiSer ∧
        (s.prf n 0x100 31 28 ≠ 1 ∨ s.prf n 0x100 27 27 = 0 → CountedBy s u w 0x230 corrected.toNat ∧ CountedBy s u w 0x234 bad.toNat)
      (Leaves (.linkChange p ⟨s.linkUp n, hiSer, corrected, bad⟩) s (fun u => tells u ∧ u.linkUp n = s.linkUp n ∧ u = { s with regs := u.regs })) ∧
      (s.linkUp n = false → Leaves (.linkChange p ⟨true, hiSer, corrected, bad⟩) s (fun u => tells u ∧ u.rf w 0x104 2 0 = 7 ∧
        (u.reg w 0x180).getLsbD 0 = true ∧ u = { s with regs := u.regs })) ∧
      (s.linkUp n = true → Leaves (.linkChange p ⟨false, hiSer, corrected, bad⟩) s (fun u => tells u ∧ u.linkUp n = false ∧
        (u.reg w 0x180).getLsbD 0 = true ∧ Counted s u w 0x238 ∧ (u.port n).ctl = [] ∧
        (∀ o x, s.output o = some x → x.port = n → x.place ≠ .queued → u.output o = none) ∧ ∀ q, q < 8 → u.pauseRuns n q = false))) ∧
    (s.portState n = .quiet → Leaves (.portRecalGo p) s (fun u => u.rf w 0x10C 30 30 = 1 ∧ u.rf w 0x10C 29 28 = 0 ∧ u = { s with regs := u.regs })) ∧
    (s.portState n ≠ .quiet → Leaves (.portRecalGo p) s (fun u => u.rf w 0x10C 29 28 = 3 ∧ u.rf w 0x10C 30 30 = s.rf w 0x10C 30 30)) ∧
    (∀ signal : Bool, s.rf w 0x10C 30 30 = 1 → Leaves (.recalDone p signal) s (fun u => u.rf w 0x10C 30 30 = 0 ∧
      u.rf w 0x10C 29 28 = (if signal then 1 else 2) ∧ (u.reg w 0x180).getLsbD 3 = true ∧ u = { s with regs := u.regs })) ∧
    (∀ (lane : Fin 8) (lock : Bool) (bits symbols : BitVec 32), s.rf w 0x108 30 30 = 1 → s.portState n = .quiet ∨ s.portState n = .off →
      (s.rf w 0x108 26 25 ≠ 1 → Leaves (.prbsLockChange p lane ⟨lock, bits, symbols⟩) s (fun u => u.rf w 0x104 (8 + lane) (8 + lane) = bit lock ∧
        CountedBy s u w (0x140 + 4 * lane) (if 2 ≤ s.rf w 0x108 29 27 ∧ s.rf w 0x108 29 27 ≤ 4 then symbols.toNat else bits.toNat) ∧
        u = { s with regs := u.regs })) ∧
      (s.rf w 0x108 26 25 = 1 → Leaves (.prbsLockChange p lane ⟨lock, bits, symbols⟩) s (fun u =>
        u.rf w 0x104 (8 + lane) (8 + lane) = s.rf w 0x108 31 31 ∧ u.reg w (0x140 + 4 * lane) = s.reg w (0x140 + 4 * lane) ∧
        u = { s with regs := u.regs })))

/-- R315, R352 to R359, R396: Finisher takes the next output of a lane and its cells are read at once; when they have been, its frame stands, cut for a mirror
copy, or the output is dropped with DATA_ERROR; each operation of its script changes the frame as R354 says and END, or the script's end, ends the
editing; an internal port hands its frame on.
The model's readings and choices that it shows: log 40, 79, 120. -/
def Obligations.FinisherEditsOutputs : Prop :=
  (∀ (s : State) (n : Lane) (o : Nat) (rest : List Nat) (x : Output), s.finisherRuns = true → s.selectedOf n = o :: rest → s.output o = some x →
    (s.portDead x.port = false →
      let taken (y : Output) (u : State) : Prop := u.selectedOf n = rest ∧ (u.port x.port).txq = (s.port x.port).txq ++ [o] ∧
        u.output o = some y ∧ u.reports = s.reports
      (s.cellsAvail x.desc.pid = .ok → (∀ q, some q ∈ s.cellPieces x.desc.pid → (s.chan q.win).selfRefresh = none) →
        Leaves (.finisherTakeOutput n) s (fun u => taken { x with place := .finisher, readId := some s.mem.nextId } u ∧
          u.mem.nextId = s.mem.nextId + 1)) ∧
      (s.cellsAvail x.desc.pid ≠ .ok → Leaves (.finisherTakeOutput n) s (fun u => taken { x with place := .finisher } u ∧ u.mem = s.mem))) ∧
    (s.portDead x.port = true → Leaves (.finisherTakeOutput n) s (fun u => (o ∉ rest → u.selectedOf n = rest) ∧ u.output o = none ∧
      Counted s u (portWin x.port) 0x228 ∧ u.reports = s.reports ++ [outDropReport s x.desc 56 x.len]))) ∧
  (∀ (s : State) (o : Oid) (x : Output) (p : Packet), s.finisherRuns = true → s.output o = some x → x.place = .finisher → s.packet x.desc.pid = some p →
    (∀ cells id, s.cellsAvail x.desc.pid = .ok → x.readId = some id → s.served id = true → s.packetCells x.desc.pid = (cells, false) →
      s.readCells cells = (false, s) → (∀ h, p.handle = some h → s.followChain h = s) →
      let frame := s.packetData p
      (p.handle = none → frame = p.bytes) ∧
      (∀ h c, p.handle = some h → s.chainOf h = ([c], none) → p.bytes.length ≤ 256 → (c < 0x80000000 → s.errsIn loftWin 0 (256 * c) 256 = []) →
        frame = if c < 0x80000000 then p.bytes else ((s.bmMap (s.cellAddr c)).elim p.bytes (fun m =>
          s.eccFixed m.win m.inst m.addr (Memory.readBytes s.mem.buffer (s.cellAddr c) p.bytes.length)))) ∧
      (x.desc.mirrorTrunc = none → x.desc.script = [] → Leaves (.cellReadComplete o) s (fun u =>
        u.output o = some { x with frame := frame, place := .edited } ∧ Counted s u finisherWin 0x100)) ∧
      (x.desc.mirrorTrunc = none → x.desc.script ≠ [] → Leaves (.cellReadComplete o) s (fun u =>
        u.output o = some { x with frame := frame, place := .editing, opPos := 0 } ∧ u.reports = s.reports)) ∧
      (∀ t, x.desc.mirrorTrunc = some t → t ≠ 0 → 64 * t < frame.length → Leaves (.cellReadComplete o) s (fun u =>
        u.output o = some { x with frame := frame.take (64 * t), place := .edited } ∧ Counted s u finisherWin 0x104))) ∧
    (s.cellsAvail x.desc.pid = .bad → Leaves (.cellReadComplete o) s (fun u => u.output o = none ∧ Counted s u finisherWin 0x110 ∧
      u.reports = s.reports ++ [outDropReport s x.desc 59 x.len]))) ∧
  (∀ (i : Instr) (s : State) (o op : Nat) (x y : Output), editRow x i = some (o, op, y) → s.output o = some x → x.place = .editing → x.op = op →
    s.finisherRuns = true →
    let next := x.opPos + 4 + (dataLen op x.opLen + 3) / 4 * 4
    (op = 0 ∨ x.desc.script.length ≤ next → Leaves i s (fun u => u.output o = some { y with opPos := next, place := .edited } ∧
      Counted s u finisherWin 0x100 ∧ ∀ z, z ≠ o → u.output z = s.output z)) ∧
    (op ≠ 0 → next < x.desc.script.length → Leaves i s (fun u => u.output o = some { y with opPos := next } ∧
      (∀ z, z ≠ o → u.output z = s.output z) ∧ u = { s with drover := u.drover }))) ∧
  (∀ (s : State) (n : Fin 4) (o : Nat) (x : Output), n.val = 1 ∨ n.val = 3 → s.finisherRuns = true → s.readyOutput (32 + n) = some (o, x) →
    s.rxHeld (32 + n) + x.frame.length ≤ 32768 → Leaves (.internalPortOutput n) s (fun u => u.output o = none ∧ Counted s u finisherWin 0x108 ∧
      (u.port (32 + n)).rx = (s.port (32 + n)).rx ++ [⟨x.frame, x.frame, s.time.ns, true, x.recirc, none, none, false, none, false, none⟩])) ∧
  (∀ (s : State) (o : Nat) (x : Output), s.finisherRuns = true → s.readyOutput 34 = some (o, x) → s.spineServes = true →
    Leaves (.internalPortOutput 2) s (fun u => u.output o = none ∧ (u.port 34).wireOut = (s.port 34).wireOut ++ [x.frame] ∧ u.reports = s.reports))

/-! ### Sheaf and Rick (14) -/

/-- R360 to R363, R368, R372, R374 to R377, R421: the oldest report is counted in the record its timestamp belongs to, late ones in the current record; a boundary opens a
record in the other bank or merges the minute; a record freezes once its settle time has passed; a close writes its lines each for a token, and, all
written, zeroes its bank and counts, and chains the records' hashes or starts every chain again; it stalls while it may not progress; an update of Rick is added to its slot, and a cached slot is written back.
The model's readings and choices that it shows: log 82, 84, 111. -/
def Obligations.SheafMetersAndCloses : Prop :=
  (∀ (s : State) (r : Report) (rest : List Report), s.reports = r :: rest → (∀ a ∈ r.adds, a.1 < 64) → 0 < s.sheaf.span →
    (∀ flow, r.rick = some flow → flow < s.rf sheafWin 0x200 22 16 * 1048576 ∧ s.sheaf.queue.length < 65536) →
    let x := s.sheaf
    let m := s.minuteOf r.ts.toNat
    let now := x.c ≤ m ∧ m < x.c + x.span
    let before := (x.prev = none ∧ m = x.c + x.span) ∨ ∃ p, x.prev = some p ∧ p.first ≤ m ∧ m < p.first + p.span ∧ p.frozen = false
    (∀ a ∈ r.adds, ∀ b, s.errsIn sheafWin 0 (counterPlace b r.tenant a.1) 8 = []) →
    (now → Leaves .sheafReport s (fun u => CountedReport s u r x.curBank false ∧ u.reports = rest ∧
      u.sheaf.queue = x.queue ++ (r.rick.bind (fun flow => rickOf r flow x.c false)).toList)) ∧
    (¬ now → before → Leaves .sheafReport s (fun u => CountedReport s u r (!x.curBank) false ∧ u.reports = rest)) ∧
    (¬ now → ¬ before → Leaves .sheafReport s (fun u => CountedReport s u r x.curBank true ∧ u.reports = rest ∧
      u.sheaf.queue = x.queue ++ (r.rick.bind (fun flow => rickOf r flow x.c true)).toList ∧
      (u.reg sheafWin 0x140).getLsbD 2 = true))) ∧
  (∀ s : State,
    let x := s.sheaf
    let e := (x.c + x.span) * 60000000000 + 1000000000 * x.utc
    e ≤ s.time.ns.toNat →
      (x.prev = none → Leaves .minuteBoundary s (fun u => u.sheaf.c = x.c + x.span ∧ u.sheaf.span = 1 ∧ u.sheaf.curBank = !x.curBank ∧
        u.sheaf.prev = some ⟨x.c, x.span, e, s.rf sheafWin 0x100 15 0 * 1000000, false, 0, 0, none⟩ ∧ u.sheaf.bank0 = x.bank0 ∧ u.sheaf.bank1 = x.bank1 ∧
        u.reg sheafWin 0x110 = BitVec.ofNat 32 (x.c + x.span))) ∧
      (x.prev.isSome = true → Leaves .minuteBoundary s (fun u => u.sheaf.c = x.c ∧ u.sheaf.span = x.span + 1 ∧ u.sheaf.curBank = x.curBank ∧
        u.sheaf.prev = x.prev ∧ u.sheaf.bank0 = x.bank0 ∧ u.sheaf.bank1 = x.bank1))) ∧
  (∀ (s : State) (p : PrevRecord), s.sheaf.prev = some p →
    (p.frozen = false → p.endTime + p.settle ≤ s.time.ns.toNat → Leaves .recordFreeze s (fun u =>
      u.sheaf = { s.sheaf with prev := some { p with frozen := true, freezeTime := s.time.ns.toNat } } ∧
      u.rf sheafWin 0x118 1 1 = 1 ∧ u = { s with sheaf := u.sheaf, regs := u.regs })) ∧
    (p.frozen = true → s.closeRuns = false → Leaves .closeComplete s (fun u => u.sheaf = s.sheaf ∧ u.mem = s.mem ∧
      (u.reg sheafWin 0x140).getLsbD 1 = true)) ∧
    (∀ s1, s.closeWritten p = false →
      let q := s.closeSigned p
      let l := s.closeLine q p.written
      s.unitGate (.activity sheafWin 7) true true l.1 64 = (.ok, s1) → HasTokens s1 7 1 1 → Apart s true l.1 64 →
      let u := s.writeLines p 1
      u.memBytes true l.1 64 = l.2 ∧ OtherBytes s u true l.1 64 ∧ u.tokensLeft 7 1 = s1.tokensLeft 7 1 - 1 ∧
        u.sheaf = { s.sheaf with prev := some { q with written := p.written + 1 } } ∧ (p.written ≠ 65536 ∨ p.sigs.isSome = true → q = p) ∧
        (p.written = 65536 → p.sigs = none → ∃ head, q = { p with sigs := some (decide (s.trust.sec ≠ .locked), s.attestSign 0 head, s.attestSign 1 head) })) ∧
    (p.frozen = true → s.closeRuns = true → s.closeWritten p = true →
      let b := !s.sheaf.curBank
      Leaves .closeComplete s (fun u => u.sheaf.prev = none ∧ (∀ t i, u.sheafCounter b t i = 0) ∧ (∀ t i, u.sheafCounter (!b) t i = s.sheafCounter (!b) t i) ∧
        u.reg sheafWin 0x114 = BitVec.ofNat 32 p.first ∧ Counted s u sheafWin 0x188 ∧ (u.reg sheafWin 0x140).getLsbD 0 = true ∧ u.mem = s.mem ∧
        (s.ringOn = false → u.sheaf.chains = s.sheaf.chains ∧ u.sheaf.rootPrev = s.sheaf.rootPrev) ∧
        (s.ringOn = true → s.closeLost p.first = true → u.sheaf.chains = [] ∧ u.sheaf.rootPrev = none) ∧
        (s.ringOn = true → s.closeLost p.first = false →
          (∀ t, t < 16384 → SMap.find u.sheaf.chains t = some (leafHash (s.minuteRecord b p t))) ∧
          u.sheaf.rootPrev = some (sha384 ((s.closeRoot p).take 256)))))) ∧
  (∀ (s : State) (x : RickUpdate) (rest : List RickUpdate) (v : BitVec 256),
    let a := s.rickSlot x.flow x.minute
    s.sheaf.queue = x :: rest → SMap.find s.sheaf.cache a = some v → x.tenant < 65536 → CleanItem s sheafWin 1 a →
    let slot (old : BitVec 256) (w : BitVec 256) : Prop := rickBits w 31 0 = x.minute % 2 ^ 32 ∧ rickBits w 47 32 = x.tenant ∧
      rickBits w 103 64 = (rickBits old 103 64 + x.pkts) % 2 ^ 40 ∧ rickBits w 151 104 = (rickBits old 151 104 + x.bytes) % 2 ^ 48 ∧
      rickBits w 191 152 = (rickBits old 191 152 + x.drops) % 2 ^ 40 ∧ slotOk w = true
    let others (u : State) : Prop := u.sheaf.queue = rest ∧ ∀ c, c ≠ a → SMap.find u.sheaf.cache c = SMap.find s.sheaf.cache c
    (rickBits v 31 0 ≠ x.minute % 2 ^ 32 → Leaves .rickUpdate s (fun u => (∃ w, SMap.find u.sheaf.cache a = some w ∧ slot 0 w) ∧ others u ∧
      Counted s u sheafWin 0x190)) ∧
    (rickBits v 31 0 = x.minute % 2 ^ 32 → slotOk v = false → Leaves .rickUpdate s (fun u => (∃ w, SMap.find u.sheaf.cache a = some w ∧ slot 0 w ∧
      rickBits w 49 49 = 1) ∧ others u ∧ Counted s u sheafWin 0x194)) ∧
    (rickBits v 31 0 = x.minute % 2 ^ 32 → slotOk v = true → rickBits v 45 32 = x.tenant → Leaves .rickUpdate s (fun u =>
      (∃ w, SMap.find u.sheaf.cache a = some w ∧ slot v w) ∧ others u)) ∧
    (rickBits v 31 0 = x.minute % 2 ^ 32 → slotOk v = true → rickBits v 45 32 ≠ x.tenant → Leaves .rickUpdate s (fun u =>
      u.sheaf.cache = s.sheaf.cache ∧ u.sheaf.queue = rest ∧ (u.reg sheafWin 0x140).getLsbD 3 = true))) ∧
  (∀ (s : State) (a : Nat) (v : BitVec 256), SMap.find s.sheaf.cache a = some v → UnitReady s (.activity sheafWin 6) true true a 32 → HasTokens s 6 1 1 →
    Apart s true a 32 →
    Leaves (.rickWriteBack a) s (fun u => u.memBytes true a 32 = leBytes 32 v.toNat ∧ OtherBytes s u true a 32 ∧ SMap.find u.sheaf.cache a = none ∧
      ∀ c, c ≠ a → SMap.find u.sheaf.cache c = SMap.find s.sheaf.cache c))

/-! ### Memory controllers, Mower and Commons (15, 16, 17) -/

/-- R384, R386 to R401: the oldest request of a source is performed with its tokens: a write stores its bytes, a read and an atomic operation answer
the bytes as they stood and the atomic operation stores its result; a slot issues a forced refresh, else the column access, activate or precharge of
its request, else a pending neighbour-row refresh, else an owed refresh; what is forced holds back real-time reads, each counted once; ticks owe
refreshes; panic, self-refresh, retraining and the generator do as their rules say. The bytes of memory that are undefined are free (log 1).
The model's readings and choices that it shows: log 40, 79, 80, 81, 83, 90, 112, 113, 115. -/
def Obligations.MemoryControllersServe : Prop :=
  (∀ (s : State) (src : MemSrc) (r : MemReq) (rest : List MemReq), s.memWaiting (srcNo src) = r :: rest →
    let k := srcNo src
    let lines := (r.addr + r.len - 1) / 64 + 1 - r.addr / 64
    let served (u : State) (d : MemDone) : Prop := u.memWaiting k = rest ∧ SMap.find u.mem.done r.id = some d
    let front := s.frontLen k r
    let same (u : State) : Prop := u.mem.buffer = s.mem.buffer ∧ u.mem.table = s.mem.table
    let goesOn (u : State) (x : MemReq) : Prop := x.addr = r.addr + front ∧ x.len = r.len - front ∧ x.done = r.done + front ∧
      u.memWaiting k = x :: rest ∧ u.mem.done = s.mem.done
    (s.memAvail r.table r.addr front = .bad →
      (k < 8192 → Leaves (.memoryRequest src) s (fun u => served u ⟨[], true, [(0, r.len)]⟩ ∧ same u)) ∧
      (8192 ≤ k → front = r.len → Leaves (.memoryRequest src) s (fun u => same u ∧ ∃ free, free.length = (if r.write.isSome then 0 else r.len) ∧
        served u (r.got.join r.done ⟨free, true, [(0, r.len)]⟩))) ∧
      (8192 ≤ k → front < r.len → Leaves (.memoryRequest src) s (fun u => same u ∧ ∃ x, goesOn u x ∧ x.got.bad = true))) ∧
    (s.memAvail r.table r.addr front = .hold → r.held = false → Leaves (.memoryRequest src) s (fun u => u.memWaiting k = { r with held := true } :: rest ∧
      same u ∧ u.mem.done = s.mem.done)) ∧
    (s.memAvail r.table r.addr front = .ok → s.sleeping r front ≠ [] → r.waited = false → Leaves (.memoryRequest src) s (fun u =>
      u.memWaiting k = { r with waited := true } :: rest ∧ same u ∧ u.mem.done = s.mem.done)) ∧
    (s.memAvail r.table r.addr front = .ok → s.sleeping r front = [] → front < r.len → r.write = none → r.amo = none → r.cls = none →
      Leaves (.memoryRequest src) s (fun u => same u ∧ ∃ x, goesOn u x ∧ x.got.data = r.got.data ++ (s.readNow r.table r.addr front r.id).1.data)) ∧
    (s.memAvail r.table r.addr r.len = .ok → front = r.len → s.sleeping r r.len = [] → (∀ c, r.cls = some c → HasTokens s c (if r.table then 1 else 0) lines) →
      CleanAccess s r.table r.addr r.len → Apart s r.table r.addr r.len →
      (∀ data, r.write = some data → data.length = r.len → r.len ≤ s.writeFits r.table r.addr r.len →
        Leaves (.memoryRequest src) s (fun u => served u r.got ∧ u.memBytes r.table r.addr r.len = data ∧ OtherBytes s u r.table r.addr r.len)) ∧
      (r.write = none → r.amo = none → Leaves (.memoryRequest src) s (fun u =>
        served u (r.got.join r.done ⟨s.memBytes r.table r.addr r.len, false, []⟩) ∧ same u)) ∧
      (∀ op opnd cmp wide, r.write = none → r.amo = some (op, opnd, cmp, wide) → r.len ≤ s.writeFits r.table r.addr r.len →
        Leaves (.memoryRequest src) s (fun u =>
        let old := s.memBytes r.table r.addr r.len
        served u ⟨old, false, []⟩ ∧ u.memBytes r.table r.addr r.len = leBytes r.len (amoResult op (leNat old) opnd.toNat cmp.toNat r.len) ∧
        OtherBytes s u r.table r.addr r.len)))) ∧
  (∀ (s : State) (ch : SchedId),
    let k := schedNo ch
    let w := schedWin k
    let x := s.sched k
    let held := if k < 64 then x.queue.map (fun r => { r with held := r.held || r.rt }) else x.queue
    let holdsBack (u : State) : Prop := (u.sched k).queue = held ∧
      (k < 64 → CountedBy s u (282 + k / 32) 0x118 (x.queue.countP (fun r => r.rt && !r.held)))
    s.serving w = true → (s.chan w).selfRefresh = none →
      (s.refreshForced k = true → x.banks = [] → Leaves (.commandSlot ch) s (fun u => (u.sched k).debt = x.debt - 1 ∧ holdsBack u ∧
        Counted s u w 0x148 ∧ ∀ j, j ≠ k → u.sched j = s.sched j)) ∧
      (s.refreshForced k = true → x.banks ≠ [] → Leaves (.commandSlot ch) s (fun u => (u.sched k).banks = [] ∧ (u.sched k).debt = x.debt ∧
        holdsBack u ∧ ∀ j, j ≠ k → u.sched j = s.sched j)) ∧
      (∀ e, s.refreshForced k = false → x.nrr = [e] → 64 ≤ k → s.rf w 0x100 8 8 = 1 → s.time.cycles < e.marked + 2000 →
        (SMap.find x.banks e.bank = none → Leaves (.commandSlot ch) s (fun u => (u.sched k).nrr = [] ∧ (u.sched k).queue = x.queue ∧
          (u.sched k).banks = x.banks ∧ Counted s u w 0x154 ∧ ∀ j, j ≠ k → u.sched j = s.sched j)) ∧
        ((SMap.find x.banks e.bank).isSome = true → Leaves (.commandSlot ch) s (fun u => (u.sched k).nrr = [e] ∧
          SMap.find (u.sched k).banks e.bank = none ∧ (u.sched k).queue = x.queue ∧ ∀ j, j ≠ k → u.sched j = s.sched j))) ∧
      (∀ r, s.refreshForced k = false → x.nrr = [] → x.queue = [r] →
        (∀ b, SMap.find x.banks r.bank = some b → b.row = r.row → r.cols ≤ 1 → Leaves (.commandSlot ch) s (fun u => (u.sched k).queue = [] ∧
          (u.sched k).debt = x.debt ∧ ((SMap.find (u.sched k).banks r.bank).isNone = true ↔ s.pagePolicy r.region = (false, 0)) ∧
          ∀ j, j ≠ k → u.sched j = s.sched j)) ∧
        (∀ b, SMap.find x.banks r.bank = some b → b.row ≠ r.row → Leaves (.commandSlot ch) s (fun u => (u.sched k).queue = [r] ∧
          SMap.find (u.sched k).banks r.bank = none ∧ ∀ j, j ≠ k → u.sched j = s.sched j)) ∧
        (SMap.find x.banks r.bank = none → Leaves (.commandSlot ch) s (fun u => (u.sched k).queue = [{ r with act := true }] ∧
          (∃ b, SMap.find (u.sched k).banks r.bank = some b ∧ b.row = r.row) ∧ (u.chan w).gen = Config.generatorNext (s.chan w).gen ∧
          (u.sched k).nrr = (if Config.generatorSample (s.chan w).gen % 2 ^ s.rf (ctrlWin k) 0x204 15 12 = 0
            then [⟨r.bank, r.row, s.time.cycles, s.rf (ctrlWin k) 0x204 1 0⟩] else []) ∧ Counted s u w 0x140))) ∧
      (s.refreshForced k = false → x.nrr = [] → x.queue = [] → x.banks = [] → 1 ≤ x.debt → Leaves (.commandSlot ch) s (fun u =>
        (u.sched k).debt = x.debt - 1 ∧ Counted s u w 0x14C)) ∧
      Leaves (.refreshTick ch) s (fun u => (u.sched k).debt = x.debt + 1 ∧
        (((max 1 (s.postponeLimit k) : Nat) : Int) ≤ x.debt + 1 → (u.reg w 0x180).getLsbD 0 = true ∧ holdsBack u) ∧
        (x.debt + 1 < ((max 1 (s.postponeLimit k) : Nat) : Int) → (u.sched k).queue = x.queue ∧ u.regs = s.regs) ∧
        ∀ j, j ≠ k → u.sched j = s.sched j)) ∧
  (∀ (s : State) (ch : SchedId) (bank : BitVec 6) (b : BankSt), SMap.find (s.sched (schedNo ch)).banks bank.toNat = some b → b.compat = false →
    b.touched + idleNs (schedNo ch) b.idle ≤ s.time.cycles → Leaves (.idleTimerExpiry ch bank) s (fun u =>
      SMap.find (u.sched (schedNo ch)).banks bank.toNat = some { b with expired := true } ∧ u = { s with mem := u.mem })) ∧
  (∀ (s : State) (k : Fin 2),
    let w := 282 + k.val
    (s.rf w 0x104 31 31 = 0 → s.prefetched k < 1024 * s.rf w 0x100 11 0 → s.stackAwake k = true → Leaves (.panicEntry k) s (fun u =>
      u.rf w 0x104 31 31 = 1 ∧ Counted s u w 0x110 ∧ SMap.find u.mem.panicSince k = some s.time.cycles)) ∧
    (1024 * s.rf w 0x100 11 0 ≤ s.prefetched k → Leaves (.panicEntry k) s (fun u => u = s)) ∧
    (∀ t, SMap.find s.mem.panicSince k = some t → t + 64 * s.rf w 0x100 31 24 ≤ s.time.cycles →
      (1024 * s.rf w 0x100 23 12 ≤ s.prefetched k → Leaves (.panicExit k) s (fun u => u.rf w 0x104 31 31 = 0 ∧ SMap.find u.mem.panicSince k = none)) ∧
      (s.prefetched k < 1024 * s.rf w 0x100 23 12 → Leaves (.panicExit k) s (fun u => u = s)))) ∧
  (∀ (s : State) (w : Win), kindOf w = 0x09 ∨ kindOf w = 0x0B →
    let idle := s.rf (if kindOf w = 0x09 then bmcWin else tmcWin) 0x208 15 0
    ((s.gathOf w).own ∉ [.absent, .off, .failed] → (s.chan w).seeded + 1000000000 ≤ s.time.cycles →
      Leaves (.generatorReseed w) s (fun u => u.chan w = { s.chan w with gen := BitVec.ofNat 64 (Config.freeValue s.fresh), seeded := s.time.cycles } ∧
        u.fresh = s.fresh + 1 ∧ (∀ v, v ≠ w.val → u.chan v = s.chan v) ∧ u.regs = s.regs)) ∧
    (s.inService w = true →
      (idle ≠ 0 → (s.chan w).selfRefresh = none → (∀ k ∈ schedsOf w, (s.sched k).queue = [] ∧ (s.sched k).nrr = []) → (s.chan w).idleSince + 1000 * idle ≤ s.time.cycles →
        Leaves (.selfRefreshEntry w) s (fun u => (u.chan w).selfRefresh = some s.time.cycles ∧
          ∀ k ∈ schedsOf w, (u.sched k).banks = [] ∧ (u.sched k).debt = 0)) ∧
      ((s.chan w).selfRefresh.isSome = true → Leaves (.selfRefreshExit w) s (fun u => (u.chan w).selfRefresh = none ∧ (u.chan w).idleSince = s.time.cycles ∧
        u.regs = s.regs))) ∧
    ((s.gathOf w).own = .quiet → Leaves (.chRetrain w) s (fun u => u.rf w 0x104 30 30 = 1 ∧ u.rf w 0x104 29 28 = 0 ∧ u = { s with regs := u.regs })) ∧
    ((s.gathOf w).own ≠ .quiet → Leaves (.chRetrain w) s (fun u => u.rf w 0x104 29 28 = 3 ∧ u = { s with regs := u.regs })) ∧
    (s.rf w 0x104 30 30 = 1 →
      Leaves (.retrainDone w true) s (fun u => u.rf w 0x104 30 30 = 0 ∧ u.rf w 0x104 29 28 = 1 ∧ (u.reg w 0x180).getLsbD 1 = true ∧ u.gath = s.gath) ∧
      ((s.gathOf w).own = .quiet → QuietAbove s w → Leaves (.retrainDone w false) s (fun u => (u.gathOf w).own = .failed ∧ u.rf w 0x104 29 28 = 2 ∧
        (u.reg w 0x180).getLsbD 2 = true))))

/-- R405 to R413, R419, R421, R425, R428: Mower counts each codeword it visits, reads a correctable one and then writes it back, unless another write came
between, leaves an uncorrectable one, and repairs a Ling row from its shadow; a lap past its limit is reported once; an overlay is armed; a log entry is freed; the oldest repair entry leaves its queue; and a
round gives every class its budget, or its floor while Commons is not in service.
The model's readings and choices that it shows: log 27, 87, 89, 95, 112, 114. -/
def Obligations.MowerScrubsAndCommonsRefills : Prop :=
  (∀ (s : State) (target : Fin 11) (w : Win) (inst : BitVec 7) (addr : BitVec 40),
    let a := addr.toNat
    let n := codeBytes (s.memClass w inst.toNat)
    s.inService mowerWin = true → (s.reg mowerWin 0x100).getLsbD target = true → s.scrubValid target w inst.toNat a = true →
      let here : Nat × Nat × Nat := (w.val, inst.toNat, a)
      (target.val < 9 → target.val ≠ 5 → (∀ b ∈ s.mower.back, b.1 ≠ here) →
        (s.errsIn w inst.toNat a n = [] → Leaves (.scrubStep target w inst addr) s (fun u => u.mower.errs = s.mower.errs ∧ Counted s u mowerWin 0x800)) ∧
        (∀ e, s.errsIn w inst.toNat a n = [e] → e.shows = true → e.addr = a →
          (s.errFatal e = false → Leaves (.scrubStep target w inst addr) s (fun u => u.mower.errs = s.mower.errs ∧
            u.mower.back = s.mower.back ++ [(here, false)] ∧ u.reg mowerWin 0x800 = s.reg mowerWin 0x800)) ∧
          (s.errFatal e = true → Leaves (.scrubStep target w inst addr) s (fun u => u.mower.errs = s.mower.errs ∧ u.mower.back = s.mower.back ∧
            Counted s u mowerWin 0x800 ∧ Counted s u mowerWin 0x814)))) ∧
      (∀ late, target.val < 9 → s.mower.back.find? (fun b => b.1 == here) = some (here, late) →
        let ends (u : State) : Prop := u.mower.back = s.mower.back.filter (fun b => b.1 ≠ here) ∧ Counted s u mowerWin 0x800
        (late = true → Leaves (.scrubStep target w inst addr) s (fun u => ends u ∧ u.mower.errs = s.mower.errs ∧ Counted s u mowerWin 0x808)) ∧
        (∀ e, late = false → s.errsIn w inst.toNat a n = [e] → e.addr = a → e.stuck = 0 → e.flip = 0 → e.poison = false →
          Leaves (.scrubStep target w inst addr) s (fun u => ends u ∧ e ∉ u.mower.errs ∧
            (∀ f ∈ s.mower.errs, ¬ (f.win = w.val ∧ f.inst = inst.toNat ∧ f.addr = a) → f ∈ u.mower.errs) ∧ Counted s u mowerWin 0x804))) ∧
      (target.val = 5 → 330 ≤ w.val → (∀ b ∈ s.mower.back, b.1 ≠ here) →
        let pos := w.val - 330
        let x := s.lingRow pos (a / 48)
        let y := s.shadowRow pos (a / 48)
        (∀ e ∈ s.errsIn w 0 (48 * (a / 48)) 48, e.shows = true → s.errFatal e = false) →
        lingParity x.data x.care x.valid ≠ x.parity ∨ (x.data, x.care, x.valid) ≠ (y.data, y.care, y.valid) → a / 48 < 4096 →
        Leaves (.scrubStep target w inst addr) s (fun u => u.lingRow pos (a / 48) = y ∧ Counted s u lingWin 0x80C ∧
          (u.reg lingWin 0x840).getLsbD 0 = true ∧ Counted s u mowerWin 0x800))) ∧
  (∀ (s : State) (target : Fin 11), s.inService mowerWin = true → (s.reg mowerWin 0x100).getLsbD target = true →
    (s.reg mowerWin (0x204 + 8 * target)).toNat ≠ 0 → SMap.get (fun _ => false) s.mower.lapLate target = false →
    s.lapStarted target + 1000000 * (s.reg mowerWin (0x204 + 8 * target)).toNat < s.time.cycles → Leaves (.lapOverdue target) s (fun u =>
      (u.reg mowerWin 0x780).getLsbD 0 = true ∧ SMap.get (fun _ => false) u.mower.lapLate target = true ∧ u.mower.errs = s.mower.errs)) ∧
  (∀ (s : State) (w : BitVec 9) (inst : BitVec 7), Leaves (.overlayArm w inst) s (fun u => u.rf mowerWin 0x610 31 31 = 1 ∧
    u.rf mowerWin 0x610 24 16 = w.toNat ∧ u.rf mowerWin 0x610 14 8 = inst.toNat ∧ u = { s with regs := u.regs })) ∧
  (∀ (s : State) (w : BitVec 9) (inst : BitVec 7) (entry : BitVec 4),
    let l := s.instLog w.toNat inst.toNat
    (entry.toNat < 8 → Leaves (.logClear w inst entry) s (fun u => SMap.find (u.instLog w.toNat inst.toNat).entries entry.toNat = none ∧
      (∀ j, j ≠ entry.toNat → SMap.find (u.instLog w.toNat inst.toNat).entries j = SMap.find l.entries j) ∧ u.mower.errs = s.mower.errs)) ∧
    (entry = 8 → Leaves (.logClear w inst entry) s (fun u => u.instLog w.toNat inst.toNat = { l with corrected := 0, uncorrected := 0, overflow := 0 })) ∧
    (10 ≤ entry.toNat → Leaves (.logClear w inst entry) s (fun u => u.mower = s.mower ∧ (u.reg mowerWin 0x20).getLsbD 0 = true))) ∧
  (∀ (s : State) (e : RepairEntry) (rest : List RepairEntry), s.mower.hardQueue = e :: rest → Leaves .hardQueuePop s (fun u => u.mower.hardQueue = rest ∧
    u.rf mowerWin 0x700 6 0 = rest.length % 128 ∧ u.readData = (s.hardData 3).setWidth 256 ∧ u.mower.errs = s.mower.errs)) ∧
  (∀ s : State, s.commons.round < s.time.ns.toNat / 1024 → s.sheaf.prev = none → s.wFronts = [] → (∀ x, x < 4 → s.blockCmds x = []) →
    let refill (c r : Nat) : Nat := if s.inService commonsWin = true then s.rf commonsWin (0x100 + 4 * (5 * c + r)) 15 0 else tokenFloor (5 * c + r)
    let recal (r : Nat) : Prop := (s.tokensHeld 8 r ≠ 0 ∨ Config.recalDue (s.time.ns.toNat / 1024) r = true) ∧ (∃ w ∈ memoryChannels r, s.inService w = true)
    Leaves .roundRefill s (fun u => u.commons.round = s.time.ns.toNat / 1024 ∧ (∀ c, c ≠ 8 → SMap.find u.commons.waited c = none) ∧
      (∀ c r, c < 11 → r < 5 → ¬ (c = 8 ∧ r < 2 ∧ recal r) → u.tokensLeft c r = refill c r ∧ u.tokensHeld c r = s.tokensHeld c r) ∧
      (∀ r, r < 2 → recal r → (s.heldBy 8 r).1 = 0 → 16 ≤ s.tokensHeld 8 r + refill 8 r → s.tokensHeld 8 r ≤ 16 →
        u.tokensLeft 8 r = refill 8 r - (16 - s.tokensHeld 8 r) ∧ u.tokensHeld 8 r = 0) ∧
      u = { s with commons := u.commons, regs := u.regs }))

/-! ### Mailboxes (18) -/

/-- R45, R443, R465, R499: a mailbox command is answered FORBIDDEN to a sender that may not issue it or whose tenant it does not allow, then BAD_FIELD with
the first offending byte, then LOCKED in LOCKED security state for what that state bars, and BUSY while the ROM, or the hardware of the board controller's
path, serves what it does not know (in this order: log 92); one that goes on after waiting is answered FORBIDDEN where its tenant no longer allows it; with
any of these it has no effect. -/
def Obligations.MailboxCommandsAreChecked : Prop :=
  ∀ (i : Instr) (s : State) (f op : Nat) (t : Taken) (row : CmdRow), (f, op) ∈ mailRows i → cmdRow op = some row →
    (s.func f).taken = [t] → t.bad = false → cmdOpcode t.entry = op → s.answers f = true → (f = 64 ∨ s.hostUp = true) →
    let gets (r : Reply) : Prop := Leaves i s (fun u => Responds s u f t r)
    let busy : Prop := s.spineServes = false ∧ ((f = 64 ∧ op ≠ 0x0B01) ∨ (f ≠ 64 ∧ op ≠ 0x0101 ∧ ¬ (op = 0x0401 ∧ byteAt (cmdPayload t.entry) 0 = 4)))
    (0 < t.phase → s.tenantOk f t.entry = false → gets (Reply.plain 4)) ∧
    (t.phase = 0 →
      (row.from f = false ∨ s.tenantOk f t.entry = false → gets (Reply.plain 4)) ∧
      (row.from f = true → s.tenantOk f t.entry = true →
        (∀ n, row.size = some n → cmdLength t.entry ≠ n → gets ⟨2, [], [], 4⟩) ∧
        (224 < cmdLength t.entry → gets ⟨2, [], [], 4⟩) ∧
        (op = 0x0204 → cmdLength t.entry ≠ 5 + 4 * (byteAt (cmdPayload t.entry) 4).toNat → gets ⟨2, [], [], 4⟩) ∧
        (∀ n size place, op = 0x0502 → classTarget (byteAt (cmdPayload t.entry) 0).toNat = some (n, size, place) → cmdLength t.entry ≠ 5 + size →
          ¬ (byteAt (cmdPayload t.entry) 0 = 0 ∧ cmdLength t.entry = 53) → gets ⟨2, [], [], 4⟩) ∧
        (row.sizeOk t.entry = true →
          (byteAt t.entry 7 ≠ 0 → gets ⟨2, [], [], 7⟩) ∧
          (∀ k, byteAt t.entry 7 = 0 → k < 12 → byteAt t.entry (0x14 + k) ≠ 0 → (∀ j, j < k → byteAt t.entry (0x14 + j) = 0) → gets ⟨2, [], [], 0x14 + k⟩) ∧
          (byteAt t.entry 7 = 0 → (∀ j, j < 12 → byteAt t.entry (0x14 + j) = 0) → s.trust.sec = .locked → op / 256 ∉ [0x01, 0x0A, 0x0B, 0x0D] →
            gets (Reply.plain 13)))) ∧
      (s.preCheck f t = none → busy → gets (Reply.plain 5)))

/-- R441, R443, R45, R372, R373, R391, R421, R486 to R488: the mailbox commands that read answer what they read and change nothing else, but for RC registers, tokens
and the challenge of an attestation.
The model's readings and choices that it shows: log 85, 119. -/
def Obligations.MailboxReadsAnswer : Prop :=
  (∀ (i : Instr) (s : State) (f op : Nat) (t : Taken) (b : List Byte) (ext : Bool), readRow s t i = some (f, op, b, ext) → Asks s f op t →
    Fits f t (asReply f ext b) → Leaves i s (fun u => Responds s u f t (asReply f ext b))) ∧
  (∀ (i : Instr) (s : State) (f op : Nat) (t : Taken) (rs : List (Nat × Nat)) (g : List Byte → List Byte), regReadRow t i = some (f, op, rs, g) →
    Asks s f op t →
    let r := s.readRegs rs
    Fits f t (asReply f false (g r.1)) → Leaves i s (fun u => Responds r.2 u f t (asReply f false (g r.1)))) ∧
  (∀ (s : State) (f : Src) (t : Taken), Asks s f 0x0704 t → t.pay 0 4 < 131072 → t.pay 4 1 ≠ 0 →
    (f.val = 0 ∨ (s.func f).bound = some (s.nodeBits (s.queueTenantNode (t.pay 0 4)) 205 192)) →
    Leaves (.queueStats f) s (fun u => ∃ v, Responds v u f t (asReply f false (leBytes 32 (s.statsEntry (t.pay 0 4)).toNat)) ∧
      v = { s with drover := { s.drover with stats := v.drover.stats } } ∧ entBits (v.statsEntry (t.pay 0 4)) 191 0 = 0 ∧
      ∀ q, q ≠ t.pay 0 4 → v.statsEntry q = s.statsEntry q)) ∧
  (∀ (s : State) (f : Src) (t : Taken), Asks s f 0x0801 t → t.notes = [] →
    let a := s.recordAddr (s.actingTenant f (t.pay 4 2)) (t.pay 0 4)
    let data := s.memBytes true a 256
    (UnitReady s .spine true false a 256 → CleanAccess s true a 256 → HasTokens s 4 1 4 → 256 ≤ cmdBufLen t.entry →
      leNat (bytesAt data 4 4) = t.pay 0 4 → Leaves (.recordGet f) s (fun u => ∃ v, Responds v u f t ⟨0, [], data, 0⟩ ∧
        v = { s with commons := v.commons, regs := v.regs, mem := v.mem } ∧ OtherWindows s v [commonsWin] ∧ v.mem.buffer = s.mem.buffer ∧
        v.mem.table = s.mem.table ∧ v.tokensLeft 4 1 = s.tokensLeft 4 1 - 4)) ∧
    (s.memWaiting (unitNo .spine) = [] → s.memAvail true a 256 = .bad → Leaves (.recordGet f) s (fun u => ∃ v, Responds v u f t (Reply.plain 7) ∧
      v = { s with mem := v.mem } ∧ v.mem.buffer = s.mem.buffer ∧ v.mem.table = s.mem.table))) ∧
  (∀ (s : State) (f : Src) (t : Taken),
    let tenant := s.actingTenant f (t.pay 4 2)
    let minute := t.pay 0 4
    let a := s.recordAddr (128 * (tenant / 128)) minute
    let data := s.memBytes true a 32768
    let root := s.memBytes true (s.rootAddr minute) 0x2C00
    let mine := bytesAt data (256 * (tenant % 128)) 256
    let leaves := (List.range 128).map (fun k => leafHash (bytesAt data (256 * k) 256))
    let groups := (List.range 128).map (fun k => bytesAt root (0x1400 + 48 * k) 48)
    let proof := mine ++ (siblings 7 (tenant % 128) leaves ++ siblings 7 (tenant / 128) groups).flatten ++ root.take 0x1400
    let part (n : Nat) : List Nat := [leNat ((data ++ root).take (64 * n)), 64 * n]
    UnitReady s .spine true false a 32768 → UnitReady s .spine true false (s.rootAddr minute) 0x2C00 → CleanAccess s true a 32768 →
    CleanAccess s true (s.rootAddr minute) 0x2C00 → s.tokensHeld 7 1 = 0 → 6048 ≤ cmdBufLen t.entry → f.val ≠ 64 →
    (Asks s f 0x0802 t → t.notes = [] → s.tokensLeft 7 1 < 592 → Leaves (.proofGet f) s (fun u => Waits u f t 1 (part (s.tokensLeft 7 1)) ∧
      u.tokensLeft 7 1 = 0 ∧ u.spine = s.spine ∧ u.mem.buffer = s.mem.buffer ∧ u.mem.table = s.mem.table)) ∧
    (∀ n, GoesOn s f 0x0802 t 1 (part n) → n ≤ 592 → 592 ≤ n + s.tokensLeft 7 1 →
      leNat (bytesAt mine 4 4) = minute → proof.length ≤ cmdBufLen t.entry →
      Leaves (.proofGet f) s (fun u => ∃ v, Responds v u f t ⟨0, [], proof, 0⟩ ∧
        v = { s with commons := v.commons, regs := v.regs, mem := v.mem } ∧ v.mem.buffer = s.mem.buffer ∧ v.mem.table = s.mem.table ∧
        v.tokensLeft 7 1 = s.tokensLeft 7 1 - (592 - n)))) ∧
  (∀ (s : State) (f : Src) (t : Taken), Asks s f 0x0A01 t →
    let challenge := fitBytes (Config.random s.fresh) 32
    let chain := Config.certChain s.trust.cdi
    let head := s.reportHead f (t.payBytes 0 48) challenge
    let answer := head ++ fitBytes (s.attestSign 0 head) 96 ++ fitBytes (s.attestSign 1 head) 4627 ++ List.replicate 141 0 ++ leBytes 4 chain.length ++ chain
    answer.length ≤ (if f.val = 64 then 65536 else cmdBufLen t.entry) → 10244 + chain.length ≤ (if f.val = 64 then 65536 else cmdBufLen t.entry) →
    Leaves (.attest f) s (fun u => Responds { s with trust := { s.trust with challenge := some (challenge, s.time.cycles) }, fresh := s.fresh + 1 } u f t
      ⟨0, [], answer, 0⟩))

/-- R443, R444 to R450, R472 to R474, R477, R481 to R483, R485, R491, R416: the mailbox commands that act write their registers, or are answered REFUSED with none of them changed where the unit would
discard one; else they change what their rows name, and are answered OK.
The model's readings and choices that it shows: log 37, 44, 88, 96, 114. -/
def Obligations.MailboxCommandsAct : Prop :=
  (∀ (i : Instr) (s : State) (f op : Nat) (t : Taken) (w : Prop) (ws : List (Nat × Nat × Word32)), regWriteRow s t i = some (f, op, w, ws) → w →
    Asks s f op t →
    ((s.setRegs ws).1 = true → Leaves i s (fun u => Responds (s.setRegs ws).2 u f t (Reply.plain 0))) ∧
    ((s.setRegs ws).1 = false → Leaves i s (fun u => Responds s u f t (Reply.plain 10)))) ∧
  (∀ (i : Instr) (s : State) (f op : Nat) (t : Taken), Asks s f op t → (∃ w e, actRow s t s i = some (f, op, w, e) ∧ w) →
    Leaves i s (fun u => ∃ v w e, actRow s t v i = some (f, op, w, e) ∧ e ∧ Responds v u f t (Reply.plain 0))) ∧
  (∀ (s : State) (f : Src) (t : Taken), Asks s f 0x0502 t →
    let refused : Prop := Leaves (.classWrite f) s (fun u => Responds s u f t (Reply.plain 10))
    (t.pay 0 1 = 1 → t.pay 1 4 < 1048576 → cmdLength t.entry = 21 →
      (s.heldInReset = false → actionListed (BitVec.ofNat 128 (t.pay 5 16)) = true → Leaves (.classWrite f) s (fun u => ∃ v,
        Responds v u f t (Reply.plain 0) ∧ SMap.get (fun _ => 0) v.windrow.direct (t.pay 1 4) = BitVec.ofNat 128 (t.pay 5 16) ∧
        (∀ k, k ≠ t.pay 1 4 → SMap.get (fun _ => 0) v.windrow.direct k = SMap.get (fun _ => 0) s.windrow.direct k) ∧ v.windrow.range = s.windrow.range)) ∧
      (actionListed (BitVec.ofNat 128 (t.pay 5 16)) = false → refused)) ∧
    (t.pay 0 1 = 2 → t.pay 1 4 < 8192 → cmdLength t.entry = 37 →
      (s.heldInReset = false → actionListed (BitVec.ofNat 128 (t.pay 5 32 / 2 ^ 128)) = true → Leaves (.classWrite f) s (fun u => ∃ v,
        Responds v u f t (Reply.plain 0) ∧ SMap.get (fun _ => 0) v.windrow.range (t.pay 1 4) = BitVec.ofNat 256 (t.pay 5 32) &&& rangeMask ∧
        (∀ k, k ≠ t.pay 1 4 → SMap.get (fun _ => 0) v.windrow.range k = SMap.get (fun _ => 0) s.windrow.range k) ∧ v.windrow.direct = s.windrow.direct)) ∧
      (actionListed (BitVec.ofNat 128 (t.pay 5 32 / 2 ^ 128)) = false → refused))) ∧
  (∀ (s : State) (f : Src) (t : Taken), Asks s f 0x0401 t →
    let i : Image := ⟨t.pay 0 1, s.hostRead (cmdBuf t.entry) (cmdBufLen t.entry), []⟩
    let owned : Bool := decide (i.kind = 1 ∨ i.kind = 5 ∨ i.kind = 6)
    (s.spine.rom = false → s.verifyImage i = none → s.stagingRoom i = true → (i.kind = 5 → graphFault i.payload = none) →
      Leaves (.imageStage f) s (fun u => ∃ v, Responds v u f t (asReply f false (leBytes 2 s.trust.nextHandle)) ∧ v = { s with trust := v.trust } ∧
        v.staged s.trust.nextHandle = some { i with owner := if owned then s.owner.getD [] else [] } ∧
        (∀ h, h ≠ s.trust.nextHandle → v.staged h = s.staged h) ∧ v.trust.nextHandle = s.trust.nextHandle % 65535 + 1)) ∧
    (∀ off, s.verifyImage i = none → s.stagingRoom i = true → i.kind = 5 → graphFault i.payload = some off → Leaves (.imageStage f) s (fun u =>
      ∃ v, Responds v u f t ⟨10, [], [], off⟩ ∧ v = { s with regs := v.regs } ∧ (v.reg deviceWin 0x120).getLsbD 0 = true)) ∧
    (∀ st, s.verifyImage i = some st → Leaves (.imageStage f) s (fun u => ∃ v, Responds v u f t (Reply.plain st) ∧ v = { s with regs := v.regs } ∧
      (v.reg deviceWin 0x120).getLsbD 0 = true))) ∧
  (∀ (s : State) (t : Taken), AtRom s 0x0401 t 0 [] →
    let i : Image := ⟨t.pay 0 1, s.hostRead (cmdBuf t.entry) (cmdBufLen t.entry), []⟩
    let r := bit Config.stagingInTable
    let h := s.trust.nextHandle
    (i.kind = 4 → s.verifyImage i = none → s.stagingRoom i = true → s.tokensHeld 9 r = 0 →
      (s.tokensLeft 9 r < i.lines → Leaves (.imageStage 0) s (fun u => Waits u 0 t 1 [h, s.tokensLeft 9 r] ∧ u.tokensLeft 9 r = 0 ∧
        u.staged h = some i ∧ u.spine = s.spine)) ∧
      (i.lines ≤ s.tokensLeft 9 r → i.tagOk = true → Leaves (.imageStage 0) s (fun u => ∃ v, Responds v u 0 t (asReply 0 false (leBytes 2 h)) ∧
        RunsPushed v i)))) ∧
  (∀ (s : State) (t : Taken) (h n : Nat) (i : Image), AtRom s 0x0401 t 1 [h, n] → s.staged h = some i →
    let r := bit Config.stagingInTable
    s.tokensHeld 9 r = 0 → n < i.lines →
    (n + s.tokensLeft 9 r < i.lines → Leaves (.imageStage 0) s (fun u => Waits u 0 t 1 [h, n + s.tokensLeft 9 r] ∧ u.spine = s.spine)) ∧
    (i.lines ≤ n + s.tokensLeft 9 r → i.tagOk = true → Leaves (.imageStage 0) s (fun u => ∃ v, Responds v u 0 t (asReply 0 false (leBytes 2 h)) ∧
      RunsPushed v i))) ∧
  (∀ (s : State) (f : Src) (t : Taken) (i : Image), Asks s f 0x0501 t → t.notes = [] → s.staged (t.pay 0 2) = some i → i.kind = 5 → s.loadOk i = true →
    s.rolledBack tedderWin i = false → s.rf tedderWin 0x200 9 9 = 0 → s.tedder.loadWaiting = none →
    HasTokens s 9 (bit Config.stagingInTable) i.lines →
    let standby : Bool := decide (s.rf tedderWin 0x200 0 0 = 0)
    Leaves (.graphLoad f) s (fun u => ∃ v, Responds v u f t (Reply.plain 0) ∧ v.graphBank standby = i.payload ∧
      v.graphBank (!standby) = s.graphBank (!standby) ∧ v.rf tedderWin 0x200 8 8 = 1)) ∧
  (∀ (s : State) (f : Src) (t : Taken), Asks s f 0x0902 t → keyField t = none →
    let b := fitBytes (s.hostRead (cmdBuf t.entry) (cmdBufLen t.entry)) 1856
    (∀ st, s.keyCheck f t b = some st → t.pay 0 1 = 0 → Leaves (.keyInstall f) s (fun u => Responds s u f t (Reply.plain st))) ∧
    (s.keyCheck f t b = none → t.pay 0 1 = 0 ∨ f.val = 0 →
      (16 ≤ s.unwrapping.length → Leaves (.keyInstall f) s (fun u => Responds s u f t (Reply.plain 6))) ∧
      (s.unwrapping.length < 16 → Leaves (.keyInstall f) s (fun u => Waits u f t 1 [leNat b] ∧ f.val ∈ u.unwrapping ∧
        u = { s with funcs := u.funcs })))) ∧
  (∀ (s : State) (f : Src) (t : Taken) (b : List Byte), b.length = 1856 → GoesOn s f 0x0902 t 1 [leNat b] → keyField t = none →
    let plain := gcmCrypt (unwrapKey b) (bytesAt b 0x6C0 12) (bytesAt b 0x6D0 96)
    let r := asReply f false (bytesAt b 0x0C 4)
    (s.keyCheck f t b = none → t.pay 0 1 = 0 → Leaves (.keyInstall f) s (fun u => ∃ v, Responds v u f t r ∧ v = { s with keys := v.keys } ∧
      v.keySlot (t.pay 1 2) = ⟨some (leNat (bytesAt b 2 2) % 16384, leNat (bytesAt b 1 1), bytesAt plain 0 32), (s.keySlot (t.pay 1 2)).gen + 1⟩ ∧
      ∀ k, k ≠ t.pay 1 2 → v.keySlot k = s.keySlot k)) ∧
    (s.keyCheck f t b = none → t.pay 0 1 = 1 → Leaves (.keyInstall f) s (fun u => ∃ v a, Responds v u f t r ∧ v = { s with ports := v.ports } ∧
      v.sa (t.pay 3 1) (saSlot t) = some a ∧ a.sak = bytesAt plain 0 32 ∧ a.salt = bytesAt plain 32 12 ∧ a.pn = 1 ∧
      v.saGen (t.pay 3 1) (saSlot t) = s.saGen (t.pay 3 1) (saSlot t) + 1 ∧
      (∀ k, k ≠ saSlot t → v.sa (t.pay 3 1) k = s.sa (t.pay 3 1) k) ∧ ∀ p, p ≠ t.pay 3 1 → v.port p = s.port p)) ∧
    (∀ st, s.keyCheck f t b = some st → Leaves (.keyInstall f) s (fun u => Responds s u f t (Reply.plain st)))) ∧
  (∀ (s : State) (f : Src) (t : Taken), Asks s f 0x0A02 t → s.trust.banks.length < 4 →
    let cert := s.hostRead (cmdBuf t.entry) (cmdBufLen t.entry)
    (∀ keys, s.owner = none → Config.certKeys cert = some keys → Config.certProof cert = true → Leaves (.ownerEnrol f) s (fun u => ∃ v,
      Responds v u f t (Reply.plain 0) ∧ v.trust.banks = s.trust.banks ++ [sha384 keys] ∧
      v.trust.sec = (if s.trust.sec = .unowned then .owned else s.trust.sec) ∧ v.keys = s.keys ∧ v.trust.counters = s.trust.counters)) ∧
    (∀ old keys, s.owner = some old → Config.certTransfer old cert = some true → Config.certKeys cert = some keys → Config.certProof cert = true →
      Leaves (.ownerEnrol f) s (fun u => ∃ v, Responds v u f t (Reply.plain 0) ∧ v.trust.banks = s.trust.banks ++ [sha384 keys] ∧
        (∀ k, k < 1024 → v.keySlot k = ⟨none, (s.keySlot k).gen + 1⟩) ∧ ∀ n k, n < 32 → v.sa n k = none)) ∧
    (∀ old, s.owner = some old → Config.certTransfer old cert = none → Leaves (.ownerEnrol f) s (fun u => Responds s u f t (Reply.plain 8)))) ∧
  (∀ (s : State) (f : Src) (t : Taken), Asks s f 0x0A03 t →
    let b := s.hostRead (cmdBuf t.entry) (cmdBufLen t.entry)
    (s.tokenOk b = true → Leaves (.debugEnable f) s (fun u => ∃ v, Responds v u f t (Reply.plain 0) ∧ v.trust.sec = .debug ∧ v.trust.challenge = none ∧
      v.trust.scope = leNat (bytesAt b 1 1) % 4 ∧ v.trust.banks = s.trust.banks ∧ ∀ k, k < 1024 → v.keySlot k = ⟨none, (s.keySlot k).gen + 1⟩)) ∧
    (s.tokenOk b = false → Leaves (.debugEnable f) s (fun u => Responds s u f t (Reply.plain 11)))) ∧
  (∀ (s : State) (f : Src) (t : Taken), Asks s f 0x0B03 t → s.stagingRoom ⟨3, s.repairRecord, []⟩ = true → Leaves (.repairRecord f) s (fun u => ∃ v,
    Responds v u f t (asReply f false (leBytes 2 s.trust.nextHandle)) ∧ v.staged s.trust.nextHandle = some ⟨3, s.repairRecord, []⟩ ∧
    v.mower.hardQueue = [] ∧ v.rf mowerWin 0x700 6 0 = 0 ∧ v.trust.recordSeq = s.trust.recordSeq + 1 ∧ v.mower.errs = s.mower.errs))

/-- R444, R513, R515, R517, R346, R19: the mailbox commands that take more than one step begin their work and wait, and answer its result once it has ended. -/
def Obligations.MailboxCommandsGoOn : Prop :=
  (∀ (s : State) (f : Src) (t : Taken) (w : Nat), Asks s f 0x0201 t → winOfPath t 0 = some w → membersOf w = [] → w ∉ [stileWin, pcieWin, spineWin] →
    t.pay 5 1 ≤ 6 →
    let result (v : State) : Reply := asReply f false (leBytes 1 (v.rf w 0x18 23 16) ++ leBytes 1 (v.reported w).1.code)
    (t.pay 4 1 = 0 → Leaves (.ucbCommand f) s (fun u => Responds s u f t (result s))) ∧
    (∀ c : UcbCmd, t.pay 4 1 = c.code →
      let s1 := if c = .start ∨ c = .update then s.setReg w 0x30 (BitVec.ofNat 32 (t.pay 5 1 * 2 ^ 24 + t.pay 6 2)) else s
      Leaves (.ucbCommand f) s (fun u => Responds (s1.command w c) u f t (result (s1.command w c))))) ∧
  (∀ (s : State) (f : Src) (t : Taken) (w : Nat),
    (Asks s f 0x0205 t → winOfPath t 0 = some w →
      let s1 := (s.setRf w 0x38 15 8 (t.pay 4 1)).setRf w 0x38 7 0 (t.pay 5 1)
      s1.bindOk w = true → s.heldInReset = false → s.ancestorBusy w = false → s.inService (memberWin w (t.pay 4 1)) = true →
      Leaves (.mbBindSpare f) s (fun u => Waits u f t 1 [] ∧ (u.gathOf w).cmd = some .bindSpare ∧
        (u.gathOf w).tip = some ⟨t.pay 4 1, t.pay 5 1, 0, false⟩ ∧ (u.gathOf (memberWin w (t.pay 4 1))).own = .quiescing)) ∧
    (∀ notes, GoesOn s f 0x0205 t 1 notes → winOfPath t 0 = some w → (s.gathOf w).cmd = none →
      Leaves (.mbBindSpare f) s (fun u => Responds s u f t (asReply f false (leBytes 1 (s.rf w 0x18 23 16)))))) ∧
  (∀ (s : State) (f : Src) (t : Taken),
    let n := t.pay 0 1
    (Asks s f 0x0303 t → n < 32 → s.portState n = .quiet → Leaves (.mbPortRecal f) s (fun u => Waits u f t 1 [] ∧ u.rf (portWin n) 0x10C 30 30 = 1 ∧
      u.rf (portWin n) 0x10C 29 28 = 0 ∧ u = { s with regs := u.regs, funcs := u.funcs })) ∧
    (∀ notes, GoesOn s f 0x0303 t 1 notes → s.rf (portWin n) 0x10C 30 30 = 0 →
      Leaves (.mbPortRecal f) s (fun u => Responds s u f t (asReply f false (leBytes 1 (s.rf (portWin n) 0x10C 29 28)))))) ∧
  (∀ (s : State) (f : Src) (t : Taken),
    let h := t.pay 0 2
    let mask := t.pay 2 4
    (Asks s f 0x0404 t → mask = 0 → Leaves (.sheetRoll f) s (fun u => Responds s u f t (Reply.plain 0))) ∧
    (∀ q, Asks s f 0x0404 t → mask < 2 ^ 24 → mask.testBit q = true → (∀ x, x < q → mask.testBit x = false) → Leaves (.sheetRoll f) s (fun u =>
      u = { (s.setReg (quireWin q) 0x30 (BitVec.ofNat 32 (2 ^ 24 + h))).command (quireWin q) .drain with funcs := u.funcs } ∧
      Waits u f t 1 [q, 0])) ∧
    (∀ q, GoesOn s f 0x0404 t 1 [q, 0] → (s.gathOf (quireWin q)).own = .quiet → s.busy (quireWin q) = false →
      (s.reported (quireWin q)).1 ≠ .failed → (s.gathOf (quireWin q)).timedOut = false → Leaves (.sheetRoll f) s (fun u =>
        u = { s.command (quireWin q) .start with funcs := u.funcs } ∧ Waits u f t 1 [q, 1])) ∧
    (∀ q, GoesOn s f 0x0404 t 1 [q, 1] → (s.reported (quireWin q)).1 = .inService →
      ((∀ r, r < 24 → mask.testBit r = true → r ≤ q) → Leaves (.sheetRoll f) s (fun u => Responds s u f t (Reply.plain 0))) ∧
      (∀ r, q < r → r < 24 → mask.testBit r = true → (∀ x, q < x → x < r → mask.testBit x = false) → Leaves (.sheetRoll f) s (fun u =>
        u = { (s.setReg (quireWin r) 0x30 (BitVec.ofNat 32 (2 ^ 24 + h))).command (quireWin r) .drain with funcs := u.funcs } ∧
        Waits u f t 1 [r, 0]))) ∧
    (∀ q, GoesOn s f 0x0404 t 1 [q, 0] → (s.reported (quireWin q)).1 = .failed ∨ (s.gathOf (quireWin q)).timedOut = true →
      Leaves (.sheetRoll f) s (fun u => Responds s u f t ⟨8, [], [], 2 ^ q⟩))) ∧
  (∀ (s : State) (f : Src) (t : Taken) (x : Nat), Asks s f 0x0503 t → x < 4 → s.lingHolder x = f.val → (∀ y, y < x → s.lingHolder y ≠ f.val) →
    t.pay 0 1 < 32 → t.pay 1 1 < 7 → t.pay 2 1 < 3 → t.pay 3 2 < 32768 →
    let b := blockBase x
    let s1 := ((s.setBlockWords b 20 (t.pay 5 80)).setBlockWords (b + 0x50) 20 (t.pay 85 80)).setBlockWords (b + 0xA0) 4 (t.pay 165 16)
    let v := s1.lingGo x (t.pay 1 1) (t.pay 2 1) (t.pay 0 1) (t.pay 3 2)
    let writes : Prop := t.pay 1 1 = 1 ∨ t.pay 1 1 = 3
    let listed := actionListed (BitVec.ofNat 128 (t.pay 165 16))
    (writes → listed = false → Leaves (.lingCommand f) s (fun u => Responds s u f t (Reply.plain 10))) ∧
    ((writes → listed = true) → s.blockCmds x ≠ [] → Leaves (.lingCommand f) s (fun u => u = s)) ∧
    ((writes → listed = true) → s.blockCmds x = [] →
      (v.blockCmds x = [] → Leaves (.lingCommand f) s (fun u => Responds v u f t (asReply f false (v.lingReply x)))) ∧
      (v.blockCmds x ≠ [] → Leaves (.lingCommand f) s (fun u => Waits u f t 1 [] ∧ u = { v with funcs := u.funcs })))) ∧
  (∀ (s : State) (f : Src) (t : Taken) (x : Nat), Asks s f 0x0601 t → x < 4 → s.warrenHolder x = f.val → (∀ y, y < x → s.warrenHolder y ≠ f.val) →
    t.pay 0 1 < 7 → t.pay 1 1 < 16 → t.pay 2 1 < 8 → t.pay 3 4 < 2 ^ 26 → s.wQueue x = [] →
    let w := warrenEngineWin x
    let s1 := ((s.setRf w 0x1AC 25 0 (t.pay 3 4)).setEngWords x 0x100 24 (t.pay 7 96)).setEngWords x 0x180 4 (t.pay 103 16)
    let v := (s1.setEngWords x 0x190 2 (t.pay 119 8)).warrenGo x (t.pay 0 1) (t.pay 1 1) ((t.pay 2 1).testBit 0) ((t.pay 2 1).testBit 1) ((t.pay 2 1).testBit 2)
    (v.wQueue x = [] → Leaves (.warrenCommand f) s (fun u => Responds v u f t (asReply f false (v.warrenReply x)))) ∧
    (v.wQueue x ≠ [] → Leaves (.warrenCommand f) s (fun u => Waits u f t 1 [] ∧ u = { v with funcs := u.funcs }))) ∧
  (∀ (s : State) (f : Src) (t : Taken) (x : Nat) (notes : List Nat), x < 4 →
    (GoesOn s f 0x0503 t 1 notes → s.lingHolder x = f.val → (∀ y, y < x → s.lingHolder y ≠ f.val) → s.blockCmds x = [] →
      Leaves (.lingCommand f) s (fun u => Responds s u f t (asReply f false (s.lingReply x)))) ∧
    (GoesOn s f 0x0601 t 1 notes → s.warrenHolder x = f.val → (∀ y, y < x → s.warrenHolder y ≠ f.val) → s.wQueue x = [] →
      Leaves (.warrenCommand f) s (fun u => Responds s u f t (asReply f false (s.warrenReply x))))) ∧
  (∀ (s : State) (f : Src) (t : Taken) (i : Image) (n : Nat), s.staged (t.pay 0 2) = some i → i.kind = 5 → s.loadOk i = true →
    s.rolledBack tedderWin i = false → (Asks s f 0x0501 t ∧ t.notes = [] ∧ n = 0) ∨ GoesOn s f 0x0501 t 1 [n] → n ≤ i.lines →
    let r := bit Config.stagingInTable
    let keeps (u : State) : Prop := u.reg tedderWin 0x200 = s.reg tedderWin 0x200 ∧ u.spine = s.spine
    s.tokensHeld 9 r = 0 →
    (n + s.tokensLeft 9 r < i.lines → Leaves (.graphLoad f) s (fun u => Waits u f t 1 [n + s.tokensLeft 9 r] ∧ u.tokensLeft 9 r = 0 ∧
      u.tedder = s.tedder ∧ keeps u)) ∧
    (i.lines ≤ n + s.tokensLeft 9 r → s.rf tedderWin 0x200 9 9 = 1 → Leaves (.graphLoad f) s (fun u => Waits u f t 2 [] ∧
      u.tedder = { s.tedder with loadWaiting := some i.payload } ∧ keeps u))) ∧
  (∀ (s : State) (f : Src) (t : Taken) (notes : List Nat), GoesOn s f 0x0501 t 2 notes →
    (s.tedder.loadWaiting = none → Leaves (.graphLoad f) s (fun u => Responds s u f t (Reply.plain 0))) ∧
    (s.tedder.loadWaiting ≠ none → Leaves (.graphLoad f) s (fun u => u = s))) ∧
  (∀ (s : State) (f : Src) (t : Taken) (w : Win), kindOf w = 0x09 ∨ kindOf w = 0x0B →
    (Asks s f 0x0B04 t → winOfPath t 0 = some w.val → s.inService w = true → s.busy w = false → s.ancestorBusy w = false →
      Leaves (.channelRetrain f) s (fun u => u = { s.command w .drain with funcs := u.funcs } ∧ Waits u f t 1 [w.val])) ∧
    (GoesOn s f 0x0B04 t 1 [w.val] → (s.gathOf w).own = .quiet → s.busy w = false → Leaves (.channelRetrain f) s (fun u =>
      u.rf w 0x104 30 30 = 1 ∧ u.rf w 0x104 29 28 = 0 ∧ u = { s with regs := u.regs, funcs := u.funcs } ∧ Waits u f t 2 [w.val])) ∧
    (GoesOn s f 0x0B04 t 2 [w.val] → s.rf w 0x104 30 30 = 0 → (s.gathOf w).own = .quiet → Leaves (.channelRetrain f) s (fun u =>
      Responds (s.command w .resume) u f t (asReply f false (leBytes 1 ((s.command w .resume).rf w 0x104 29 28))))))

/-- R431, R435, R436, R439, R440, R442, R453, R452, R465, R466, R495, R499: the host's writes of its rings' registers, the fetch of an entry with its function byte compared, a command of the
board controller, a read of BAR2, and the resets of a function, of the endpoint and its link.
The model's readings and choices that it shows: log 37, 81, 98, 99, 100. -/
def Obligations.FunctionsReachTheDevice : Prop :=
  (∀ (s : State) (f : Func), s.serving pcieWin = true →
    let x := s.func f
    (∀ tail, Leaves (.mbDoorbell f tail) s (fun u => OnlyFunc s u f { x with reqTail := tail.toNat })) ∧
    (∀ head, Leaves (.mbRspHeadWrite f head) s (fun u => OnlyFunc s u f { x with rspHead := head.toNat })) ∧
    (x.en = false → 4 ≤ x.reqLog → x.reqLog ≤ 10 → 4 ≤ x.rspLog → x.rspLog ≤ 10 →
      (x.taken = [] → Leaves (.mbRingEnable f) s (fun u => OnlyFunc s u f { x with en := true, restart := false, stopped := false, reqHead := x.reqTail })) ∧
      (x.taken ≠ [] → Leaves (.mbRingEnable f) s (fun u => OnlyFunc s u f { x with en := true, restart := true, stopped := false })))) ∧
  (∀ (s : State) (f : Func),
    let x := s.func f
    let entry := s.hostRead (x.reqBase.toNat + 256 * (x.reqHead % 2 ^ x.reqLog)) 256
    x.en = true → x.stopped = false → x.restart = false → x.reqTail ≠ x.reqHead → x.taken = [] → 0 < x.credits → x.unread + 1 ≤ 2 ^ x.rspLog →
    s.hostTakes = true → (s.spineServes = true ∨ (s.spine.rom = true ∧ f.val = 0)) →
    Leaves (.mbEntryFetch f true) s (fun u => OnlyFunc s u f { x with err := true, stopped := true }) ∧
    ((byteAt entry 6).toNat = f.val → (cmdRow (cmdOpcode entry)).isSome = true → Leaves (.mbEntryFetch f false) s (fun u =>
      OnlyFunc s u f { x with reqHead := (x.reqHead + 1) % 65536, taken := [⟨entry, false, 0, []⟩] })) ∧
    ((byteAt entry 6).toNat ≠ f.val → Leaves (.mbEntryFetch f false) s (fun u => ∃ v,
      OnlyFunc s v f { x with reqHead := (x.reqHead + 1) % 65536, taken := [⟨entry, true, 0, []⟩] } ∧ Responds v u f ⟨entry, true, 0, []⟩ (Reply.plain 3))) ∧
    ((byteAt entry 6).toNat = f.val → cmdRow (cmdOpcode entry) = none → Leaves (.mbEntryFetch f false) s (fun u => ∃ v,
      OnlyFunc s v f { x with reqHead := (x.reqHead + 1) % 65536, taken := [⟨entry, false, 0, []⟩] } ∧
      Responds v u f ⟨entry, false, 0, []⟩ (Reply.plain 1)))) ∧
  (∀ (s : State) (f : Func) (err : Bool), (s.func f).reqTail = (s.func f).reqHead ∨ (s.func f).en = false ∨ (s.func f).stopped = true ∨
    (s.func f).credits ≤ (s.func f).taken.length ∨ s.hostTakes = false → Leaves (.mbEntryFetch f err) s (fun u => u = s)) ∧
  (∀ (s : State) (bytes : List Byte), s.board.railsGood.getD 6 false = true →
    let entry := fitBytes (bytes.take 128) 256
    let buf := if cmdOpcode entry = 0x0109 then s.spine.bmcBuf else []
    ((s.func 64).taken ≠ [] → Leaves (.bmcCommand bytes) s (fun u => u = s)) ∧
    ((s.func 64).taken = [] → (byteAt entry 6).toNat = 64 → (cmdRow (cmdOpcode entry)).isSome = true → Leaves (.bmcCommand bytes) s (fun u =>
      u = { s with funcs := u.funcs, spine := { s.spine with bmcBuf := buf } } ∧ u.func 64 = { s.func 64 with taken := [⟨entry, false, 0, []⟩] } ∧
      ∀ g, g ≠ 64 → u.func g = s.func g)) ∧
    ((s.func 64).taken = [] → (byteAt entry 6).toNat ≠ 64 → Leaves (.bmcCommand bytes) s (fun u => (u.func 64).taken = [] ∧
      u.spine.bmcResp = responseBytes entry (Reply.plain 3) ∧ u.spine.bmcBuf = buf ∧ u.ev.raised = s.ev.raised ++ [869] ∧ u.spine.host = s.spine.host))) ∧
  (∀ (s : State) (f : Func) (off : BitVec 34), s.hostUp = true →
    let a := off.toNat / 32 * 32
    let clean : SpineSt := { s.spine with readPoison := false }
    (0x300000000 ≤ a → f.val ≠ 0 → Leaves (.bar2Read f off) s (fun u => u = { s with readData := 0, spine := clean })) ∧
    (0x300000000 ≤ a → f.val = 0 → HasTokens s 5 (bit Config.stagingInTable) 1 → Leaves (.bar2Read f off) s (fun u =>
      u = { s with readData := u.readData, fresh := u.fresh, spine := clean, commons := u.commons, regs := u.regs } ∧
      u.tokensLeft 5 (bit Config.stagingInTable) = s.tokensLeft 5 (bit Config.stagingInTable) - 1 ∧ OtherWindows s u [commonsWin] ∧
      ∀ h i k, k < 32 → s.trust.images = [(h, i)] → Config.stagingPlace h ≤ a - 0x300000000 + k →
        a - 0x300000000 + k < Config.stagingPlace h + i.kept.length →
        u.readData.toNat / 2 ^ (8 * k) % 256 = (byteAt i.kept (a - 0x300000000 + k - Config.stagingPlace h)).toNat)) ∧
    (a < 0x300000000 → s.bar2Place f a = none → Leaves (.bar2Read f off) s (fun u => u = { s with readData := 0, spine := clean })) ∧
    (∀ p, a < 0x300000000 → s.bar2Place f a = some p → UnitReady s (.activity pcieWin 5) true false p 32 → HasTokens s 5 1 1 →
      (s.memRead true p 32).1 = true → Leaves (.bar2Read f off) s (fun u => u.spine = { s.spine with readPoison := true } ∧ u.mem.buffer = s.mem.buffer ∧
        u.mem.table = s.mem.table)) ∧
    (∀ p, a < 0x300000000 → s.bar2Place f a = some p → UnitReady s (.activity pcieWin 5) true false p 32 → HasTokens s 5 1 1 →
      CleanAccess s true p 32 →
      let shows (v : BitVec 256) : Prop := Leaves (.bar2Read f off) s (fun u => u.readData = v ∧ u.mem.buffer = s.mem.buffer ∧
        u.mem.table = s.mem.table ∧ u.tokensLeft 5 1 = s.tokensLeft 5 1 - 1 ∧ OtherWindows s u [commonsWin] ∧
        u = { s with readData := v, spine := clean, mem := u.mem, commons := u.commons, regs := u.regs })
      (a < 0x100000000 ∨ f.val = 0 ∨ (s.func f).bound = some (leNat (bytesAt (s.memBytes true p 32) 4 2)) →
        shows (BitVec.ofNat 256 (leNat (s.memBytes true p 32)))) ∧
      (0x100000000 ≤ a → f.val ≠ 0 → (s.func f).bound ≠ some (leNat (bytesAt (s.memBytes true p 32) 4 2)) → shows 0))) ∧
  (∀ (s : State) (f : Func), Leaves (.functionLevelReset f) s (fun u => FuncIsReset s u f ∧ (∀ g, g ≠ f.val → u.func g = s.func g) ∧
    (∀ q, (s.qp q).owner ≠ some f.val → u.qp q = s.qp q) ∧ (∀ l, (s.lock l).leaving = none → (u.lock l).holder ≠ some (portWord f)) ∧
    (∀ k, k < 1024 → s.evRoute k 31 30 = 2 → s.evRoute k 29 24 = f.val → u.evStatus k = false ∧ u.evMasked k = true) ∧
    u.mem.buffer = s.mem.buffer ∧ u.mem.table = s.mem.table ∧ u.spine = s.spine)) ∧
  (∀ s : State, Leaves .pciePerst s (fun u => (∀ f, f < 64 → FuncIsReset s u f) ∧ u.spine.link = false ∧ u.spine.host = s.spine.host ∧
    (∀ o, 0x100 ≤ o → o < 65536 → u.reg pcieWin o = regReset (pcieWin * 65536 + o)) ∧ (s.spine.link = true → 868 ∈ u.ev.raised) ∧ u.gath = s.gath)) ∧
  (∀ (s : State) (up : Bool), s.spine.link ≠ up → (up = true → s.inService pcieWin = true) → Leaves (.pcieLinkChange up) s (fun u =>
    u = { s with spine := { s.spine with link := up }, ev := { s.ev with raised := s.ev.raised ++ [868] } }))

/-- R192, R193, R352, R445 to R451: a queue pair's doorbells, its PACKET descriptors sent and posted, an output written into a receive buffer, left to wait, or discarded under its counter, a
stall, the MEM descriptors and a supervisor's DMA posts with the request they make of memory or the status they end with, and completions written whole in ring order.
The model's readings and choices that it shows: log 99, 100, 113. -/
def Obligations.QueuePairsMoveData : Prop :=
  (∀ (s : State) (q : Fin 256) (f : Nat) (v : BitVec 16), (s.qp q).owner = some f → f < 64 → s.serving pcieWin = true →
    Leaves (.qpDoorbell q v) s (fun u => u = { s with qps := u.qps } ∧ u.qp q = { s.qp q with sqTail := v.toNat } ∧ OtherPairs s u q) ∧
    Leaves (.qpCqHeadWrite q v) s (fun u => u = { s with qps := u.qps } ∧ u.qp q = { s.qp q with cqHead := v.toNat } ∧ OtherPairs s u q)) ∧
  (∀ (s : State) (q : Fin 256), HasPosted s q 1 →
    let x := s.qp q
    let d := postedDesc s q
    let frame := s.hostRead (descHost d) (descLen d)
    let ctx := if x.owner = some 0 ∧ (descCtxOf d).testBit 15 = true then descCtxOf d % 128 else x.ctx
    (descOp d = 1 → descClean d = true → 60 ≤ descLen d → descLen d ≤ 9596 → s.rxHeld 32 + descLen d ≤ 32768 → Leaves (.dmaTx q) s (fun u =>
      Fetched s u q none none ∧ u = { s with qps := u.qps, ports := u.ports } ∧ (∀ n, n ≠ 32 → u.port n = s.port n) ∧
      u.port 32 = { s.port 32 with rx := (s.port 32).rx ++
        [⟨frame, frame, s.time.ns, true, some ctx, none, none, false, none, false, some (q.val, x.sqHead % 65536)⟩] })) ∧
    (descOp d ≠ 2 → descOp d ≠ 1 ∨ descClean d = false ∨ descLen d < 60 ∨ 9596 < descLen d → Leaves (.dmaTx q) s (fun u =>
      Fetched s u q none (some (1, 0, false, 0)) ∧ u = { s with qps := u.qps })) ∧
    (descOp d = 2 → descClean d = true → 256 ≤ descLen d → descLen d ≤ 16384 → Leaves (.dmaRxBuf q) s (fun u => u = { s with qps := u.qps } ∧
      OtherPairs s u q ∧ u.qp q = { x with sqHead := x.sqHead + 1, descs := x.descs ++ [qpDescOf (x.sqHead % 65536) d none none],
                                           stalled := false, fullSince := none })) ∧
    (descOp d = 2 → descClean d = false ∨ descLen d < 256 ∨ 16384 < descLen d → Leaves (.dmaRxBuf q) s (fun u =>
      Fetched s u q none (some (1, 0, false, 0)) ∧ u = { s with qps := u.qps }))) ∧
  (∀ (s : State) (o : Nat) (y : Output) (i : Instr), i = .port32Output ∨ i = .internalPortOutput 0 → s.finisherRuns = true →
    s.readyOutput 32 = some (o, y) →
    let k := y.desc.queue % 256
    let x := s.qp k
    (∀ diag, s.pairRefuses k y.desc.tenant = some diag → Leaves i s (fun u => u.output o = none ∧ u.qps = s.qps ∧ u.spine = s.spine ∧
      u.reports = s.reports ++ [outDropReport s y.desc diag y.len])) ∧
    (s.pairRefuses k y.desc.tenant = none → s.hostTakes = true →
      (x.rxPlace y.frame.length = none → x.fullSince = none → Leaves i s (fun u => u = { s with qps := u.qps } ∧
        u.qp k = { x with fullSince := some s.time.cycles } ∧ OtherPairs s u k)) ∧
      (∀ d, x.rxPlace y.frame.length = some [d] → Leaves i s (fun u => u.output o = none ∧ u.hostRead d.host y.frame.length = y.frame ∧
        (∃ e ∈ (u.qp k).descs, e.index = d.index ∧ e.ended = some (0, y.frame.length, true, y.desc.queue)) ∧ (u.qp k).fullSince = none ∧
        ∀ a, a < d.host ∨ d.host + y.frame.length ≤ a → Memory.read u.spine.host a = Memory.read s.spine.host a)))) ∧
  (∀ (s : State) (q : Fin 256) (t o : Nat) (y : Output), (s.qp q).fullSince = some t → s.readyOutput 32 = some (o, y) → y.desc.queue % 256 = q.val →
    (s.qp q).rxPlace y.frame.length = none → (s.qp q).kind = 1 → t + 1000 * (s.qp q).stallUs ≤ s.time.cycles → Leaves (.rxStallTimeout q) s (fun u =>
      u = { s with qps := u.qps } ∧ u.qp q = { s.qp q with stalled := true } ∧ OtherPairs s u q)) ∧
  (∀ (s : State) (q : Fin 256) (write err : Bool) (i : Instr), (i = .dmaMemRead q err ∧ write = false) ∨ (i = .dmaMemWrite q err ∧ write = true) →
    HasPosted s q 2 →
    let d := postedDesc s q
    let space := bitsOf (descDev d) 63 62
    let a := bitsOf (descDev d) 47 0
    let f := s.func ((s.qp q).owner.getD 64)
    let granted := f.dmaOk space a (descLen d) write
    (descOp d = 4 ↔ write = true) →
      (descMemOk d = false → Leaves i s (fun u => Fetched s u q none (some (1, 0, false, 0)) ∧ u = { s with qps := u.qps })) ∧
      (descMemOk d = true → granted = false → Leaves i s (fun u => Fetched s u q none (some (2, 0, false, 0)) ∧ u = { s with qps := u.qps })) ∧
      (descMemOk d = true → granted = true → err = true → Leaves i s (fun u => Fetched s u q none (some (3, 0, false, 0)) ∧ u = { s with qps := u.qps })) ∧
      (descMemOk d = true → granted = true → err = false → Leaves i s (fun u => ∃ m, Fetched s u q (some m.id) none ∧
        u.memWaiting (8192 + q) = s.memWaiting (8192 + q) ++ [m] ∧ m.addr = a ∧ m.len = descLen d ∧ m.table = decide (space = 2) ∧ m.amo = none ∧
        m.write = (if write then some (s.hostRead (descHost d) (descLen d)) else none) ∧ u.mem.buffer = s.mem.buffer ∧ u.mem.table = s.mem.table ∧
        u.spine = s.spine))) ∧
  (∀ (s : State) (q : Fin 256) (d : QpDesc), s.hostUp = true → (s.qp q).descs = [d] → (s.qp q).room ≠ 0 →
    let x := s.qp q
    let at0 := x.cqBase.toNat + 16 * (x.written % 2 ^ x.cqLog)
    let done (u : State) (e : List Byte) : Prop := u.hostRead at0 16 = e ∧ u.qp q = { x with written := x.written + 1, descs := [] } ∧ OtherPairs s u q ∧
      u.ev.raised = s.ev.raised ++ (if d.irq = true then [576 + q.val] else [])
    (∀ st len last queue, d.ended = some (st, len, last, queue) → Leaves (.descriptorComplete q) s (fun u => done u (completionOf x d st len last queue) ∧
      ∀ a, a < at0 ∨ at0 + 16 ≤ a → Memory.read u.spine.host a = Memory.read s.spine.host a)) ∧
    (∀ id m, d.ended = none → d.req = some id → s.served id = true → SMap.find s.mem.done id = some m → Leaves (.descriptorComplete q) s (fun u =>
      done u (completionOf x d (if m.bad then 5 else 0) (d.len - (if m.data.isEmpty then sumOf m.poison (·.2) else 0)) false 0) ∧
      SMap.find u.mem.done id = none ∧
      (m.data ≠ [] → u.spine.poisoned = s.spine.poisoned ++ m.poison.map (fun p => (d.host + p.1, p.2))) ∧
      (d.host + m.data.length ≤ at0 ∨ at0 + 16 ≤ d.host → u.hostRead d.host m.data.length = m.data))) ∧
    (d.ended = none → d.req = none → Leaves (.descriptorComplete q) s (fun u => u.qp q = x ∧ u.spine = s.spine))) ∧
  (∀ (s : State) (t : Tid) (th : Thread) (write : Bool) (i : Instr), (i = .supMemRead t ∧ write = false) ∨ (i = .supMemWrite t ∧ write = true) →
    s.posting t 2 = some th →
    let w0 := th.bankWord 0
    let a := th.bankWord 1
    let host := th.bankWord 2
    let len := if bitsOf w0 39 16 = 0 then 16777216 else bitsOf w0 39 16
    let sp := bitsOf w0 15 14
    let accepted (u : State) (o : LeafOp) : Prop :=
      u.thread t = { th.accepted with ops := th.ops ++ [o], reqSince := (u.thread t).reqSince, quietSince := (u.thread t).quietSince,
                                      haltedSince := (u.thread t).haltedSince } ∧
      o.kind = .dma ∧ o.dst = bitsOf w0 8 4 ∧ o.ev = some (bitsOf w0 13 9) ∧ ∀ y, y ≠ t.val → u.thread y = s.thread y
    (bitsOf w0 3 0 = 4 ↔ write = true) →
      (s.supPair (tidQuire t) = none → Leaves i s (fun u => ∃ o, accepted u o ∧ o.word = 0 ∧ o.addr = 1 ∧ o.len = 0)) ∧
      (∀ k x, s.supPair (tidQuire t) = some (k, x) → th.ops.countP (fun o => o.kind = .dma) + th.orphans.length < 64 →
        (th.dmaOk w0 len = false → Leaves i s (fun u => ∃ o, accepted u o ∧ o.word = 0 ∧ o.addr = 1 ∧ o.len = 0)) ∧
        (th.dmaOk w0 len = true → s.spaceSize sp < a + len ∨ s.windowCovers (tidQuire t) 0 sp a len (!write) write = false →
          Leaves i s (fun u => ∃ o, accepted u o ∧ o.word = 0 ∧ o.addr = 2 ∧ o.len = 0)) ∧
        (th.dmaOk w0 len = true → a + len ≤ s.spaceSize sp → (sp = 0 → a + len ≤ 0x3A0000) → s.windowCovers (tidQuire t) 0 sp a len (!write) write = true →
          (write = true → s.hostUp = true) →
          (sp = 0 → Leaves i s (fun u => ∃ o, accepted u o ∧ o.word = (if write then 4 else 3) ∧ o.sp = 0 ∧ o.addr = a ∧ o.len = len ∧ o.loc = host ∧
            o.data = (if write then s.hostRead host len else []))) ∧
          (sp ≠ 0 → Leaves i s (fun u => ∃ o m, accepted u o ∧ o.id = m.id ∧ o.addr = a ∧ o.len = len ∧ o.loc = host ∧
            u.memWaiting (8192 + k) = s.memWaiting (8192 + k) ++ [m] ∧ m.addr = a ∧ m.len = len ∧ m.table = decide (sp = 2) ∧
            m.write = (if write then some (s.hostRead host len) else none)))))) ∧
  (∀ (s : State) (t : Tid) (o : LeafOp) (rest : List LeafOp), (s.thread t).orphans = o :: rest →
    let gone (u : State) : Prop := (u.thread t).orphans = rest ∧ (u.thread t).ops = (s.thread t).ops ∧ (u.thread t).regs = (s.thread t).regs ∧
      (u.thread t).events = (s.thread t).events ∧ ∀ y, y ≠ t.val → u.thread y = s.thread y
    (o.word = 0 → Leaves (.supDmaComplete t) s (fun u => gone u ∧ u.spine = s.spine ∧ u.mem = s.mem)) ∧
    (o.word = 4 → o.sp = 0 → Leaves (.supDmaComplete t) s (fun u => gone u ∧ ∀ c, Memory.read (u.quire (tidQuire t)).shared c =
      Memory.read (Memory.writeBytes (s.quire (tidQuire t)).shared o.addr o.data) c))) ∧
  (∀ (s : State) (t : Tid) (o : LeafOp), (s.thread t).ops.find? (fun o => decide (o.kind = .dma)) = some o → (s.thread t).orphans = [] →
    let q := tidQuire t
    let ended (u : State) (status moved : Nat) : Prop :=
      (o.dst ≠ 0 → o.dst < 30 → (u.thread t).g o.dst = BitVec.ofNat 64 (status + moved * 2 ^ 32)) ∧
      (o.dst = 0 ∨ 30 ≤ o.dst → (u.thread t).regs = (s.thread t).regs) ∧
      (∀ b, o.ev = some b → b < 32 → (u.thread t).events.getLsbD b = true) ∧ (u.thread t).ops = removeFirst (fun x => decide (x = o)) (s.thread t).ops ∧
      ∀ y, y ≠ t.val → u.thread y = s.thread y
    (o.word = 0 → Leaves (.supDmaComplete t) s (fun u => ended u o.addr o.len ∧ u.spine = s.spine ∧ u.mem = s.mem)) ∧
    (o.word = 4 → o.sp = 0 → Leaves (.supDmaComplete t) s (fun u => ended u 0 o.len ∧
      (∀ c, Memory.read (u.quire q).shared c = Memory.read (Memory.writeBytes (s.quire q).shared o.addr o.data) c) ∧ u.spine = s.spine)) ∧
    (o.word = 3 → o.sp = 0 → s.hostUp = true → s.errsIn (quireWin q) 0 o.addr o.len = [] → Leaves (.supDmaComplete t) s (fun u => ended u 0 o.len ∧
      u.hostRead o.loc o.len = Memory.readBytes (s.quire q).shared o.addr o.len ∧ (u.quire q).shared = (s.quire q).shared)) ∧
    (∀ m, o.sp ≠ 0 → s.served o.id = true → SMap.find s.mem.done o.id = some m →
      (o.word = 4 → Leaves (.supDmaComplete t) s (fun u => ended u (if m.bad then 5 else 0) (o.len - sumOf m.poison (·.2)) ∧
        SMap.find u.mem.done o.id = none ∧ u.spine = s.spine)) ∧
      (o.word = 3 → s.hostUp = true → Leaves (.supDmaComplete t) s (fun u => ended u (if m.bad then 5 else 0) m.data.length ∧
        u.hostRead o.loc m.data.length = m.data ∧ u.spine.poisoned = s.spine.poisoned ++ m.poison.map (fun p => (o.loc + p.1, p.2)) ∧
        SMap.find u.mem.done o.id = none))))

/-! ### Events, time, pins and trust (18 to 21) -/

/-- R8, R453 to R457: the oldest assertion of a source that waits, or a condition that has begun to hold, is taken: within the source's gap it is coalesced,
else its status sets and unmasked it is delivered once to its route; at the end of the gap what was coalesced is delivered; a source that stays
asserted for stuck_ms is masked and reported; clearing a status and writing a mask act within the viewer's view, a status asserted again in the same cycle
stays, and clearing a mask delivers a status that is set; unmasking MSI-X sends what waits.
The model's readings and choices that it shows: log 99. -/
def Obligations.EventsAssertAndAreDelivered : Prop :=
  (∀ (s : State) (src : BitVec 10),
    let k := src.toNat
    (k ∈ s.ev.raised → Leaves (.eventAssert src) s (fun u => u.ev.raised = s.ev.raised.erase k ∧ u.ev.level = s.ev.level ∧ Asserted s u k)) ∧
    (k ∉ s.ev.raised → s.levelOf k = true → SMap.find s.ev.level k = none → Leaves (.eventAssert src) s (fun u =>
      SMap.find u.ev.level k = some s.time.cycles ∧ u.ev.raised = s.ev.raised ∧ Asserted s u k)) ∧
    (s.inGap k = false →
      (k ∈ s.ev.coalesced → s.evStatus k = true → s.evMasked k = false → Leaves (.coalesceGapEnd src) s (fun u =>
        k ∉ u.ev.coalesced ∧ Delivered s u k)) ∧
      (k ∉ s.ev.coalesced ∨ s.evStatus k = false ∨ s.evMasked k = true → Leaves (.coalesceGapEnd src) s (fun u =>
        k ∉ u.ev.coalesced ∧ SMap.find u.ev.gapEnd k = none ∧
        u = { s with ev := { s.ev with gapEnd := u.ev.gapEnd, coalesced := u.ev.coalesced } }))) ∧
    (∀ since, SMap.find s.ev.level k = some since → s.evStuckNs k ≠ 0 → since + s.evStuckNs k < s.time.cycles → s.levelOf k = true →
      s.evMasked k = false → Leaves (.eventStuck src) s (fun u => u.evMasked k = true ∧ (∀ j, j < 1024 → j ≠ k → u.evMasked j = s.evMasked j) ∧
        s.evStatus k = u.evStatus k ∧ u.rf spineWin (0x200 + 4 * (k / 32)) (k % 32) (k % 32) = 1 ∧ Counted s u spineWin 0x288 ∧
        u = { s with regs := u.regs, ev := { s.ev with raised := s.ev.raised ++ [864] } }))) ∧
  (∀ (s : State) (viewer : Src) (g : BitVec 5) (bits : BitVec 32),
    let at' (i : Nat) : Nat := 32 * g.toNat + i
    let sees (i : Nat) : Bool := s.seesEvent viewer.val (at' i)
    let opens (i : Nat) : Prop := i < 32 ∧ sees i = true ∧ s.evMasked (at' i) = true ∧ bits.getLsbD i = false ∧ s.evStatus (at' i) = true
    (∀ again, Leaves (.evtStatusClear viewer g ⟨bits, again⟩) s (fun u =>
      (∀ i, i < 32 → u.evStatus (at' i) = (s.evStatus (at' i) && !(bits.getLsbD i && !again.getLsbD i && sees i))) ∧
      (∀ j, j < 1024 → j / 32 ≠ g.toNat → u.evStatus j = s.evStatus j) ∧ (∀ j, j < 1024 → u.evMasked j = s.evMasked j) ∧
      (∀ f, f < 64 → u.func f = { s.func f with pendingVec := (s.func f).pendingVec.filter (fun e =>
        !(decide (e.2 / 32 = g.toNat) && bits.getLsbD (e.2 % 32) && !again.getLsbD (e.2 % 32) && sees (e.2 % 32))) }) ∧
      (∀ f, 64 ≤ f → u.func f = s.func f) ∧ u = { s with regs := u.regs, funcs := u.funcs })) ∧
    Leaves (.evtMaskWrite viewer g bits) s (fun u =>
      (∀ i, i < 32 → u.evMasked (at' i) = if sees i then bits.getLsbD i else s.evMasked (at' i)) ∧
      (∀ j, j < 1024 → j / 32 ≠ g.toNat → u.evMasked j = s.evMasked j) ∧ (∀ j, j < 1024 → u.evStatus j = s.evStatus j) ∧
      (∀ i since, i < 32 → sees i = true → s.evMasked (at' i) = true → bits.getLsbD i = false → SMap.find s.ev.level (at' i) = some since →
        SMap.find u.ev.level (at' i) = some s.time.cycles) ∧
      ((∀ i, ¬ opens i) → NotDelivered s u) ∧ (∀ i, opens i → (∀ j, opens j → j = i) → Delivered s u (at' i)))) ∧
  (∀ (s : State) (f : Func) (v : BitVec 8),
    let x := s.func f.val
    Leaves (.msixUnmask f v true) s (fun u => Flushed s u f.val { x with msixOn := true }) ∧
    (v.toNat < vectorsOf f.val → Leaves (.msixUnmask f v false) s (fun u => ∃ m, (∀ i, SMap.get (fun _ => false) m i =
      (decide (i = v.toNat) || SMap.get (fun _ => false) x.unmasked i)) ∧ Flushed s u f.val { x with unmasked := m })))

/-- R459 to R464: a cycle of TIME takes device time on by 1 ns plus f, or by 0.5 ns while a slew is taken up (that one passes when no command waits is the
model's choice, log 15); a forward step is applied at once, a backward one becomes a slew, and either is combined with the slew still to be taken up
(TIME_SLEW_LEFT shows half a nanosecond as a whole one, which is the model's choice, log 16); a step out of bounds is discarded; an edge of 1PPS within the
window corrects device time and is stored and counted, one outside is rejected; a lost reference or 1PPS is reported; the pin rises once for the
seconds reached. -/
def Obligations.DeviceTimeIsKeptAndDisciplined : Prop :=
  (∀ s : State, s.pending = [] →
    (s.time.slewHalf = 0 → (s.reg timeWin 0x118).toInt.natAbs ≤ 500000 → ∃ u, step s = .next u ∧ u.time.cycles = s.time.cycles + 1 ∧
      (let total := s.time.frac + (1000000000 + (s.reg timeWin 0x118).toInt).toNat
       u.time.ns = s.time.ns + BitVec.ofNat 64 (total / 1000000000) ∧ u.time.frac = total % 1000000000) ∧ Raised s u [] ∧ u.regs = s.regs ∧
      u.threads = s.threads) ∧
    (s.time.slewHalf ≠ 0 → ∃ u, step s = .next u ∧ u.time.cycles = s.time.cycles + 1 ∧ u.time.slewHalf = s.time.slewHalf - 1 ∧
      (let total := s.time.frac + 500000000
       u.time.ns = s.time.ns + BitVec.ofNat 64 (total / 1000000000) ∧ u.time.frac = total % 1000000000) ∧ Raised s u [] ∧
      u.threads = s.threads)) ∧
  (∀ s : State,
    let d := s.stepWritten
    (d = 0 → Leaves .timeStepGo s (fun u => u = s)) ∧
    (0 < d → d ≤ 2 ^ 50 → s.time.slewHalf = 0 → s.time.frac < 1000000000 → Leaves .timeStepGo s (fun u =>
      u.time = { s.time with ns := s.time.ns + BitVec.ofInt 64 d } ∧ u.rf timeWin 0x128 30 30 = 0 ∧ Counted s u timeWin 0x148 ∧ Raised s u [851])) ∧
    (0 < d → d ≤ 2 ^ 50 → s.time.slewHalf ≠ 0 → Leaves .timeStepGo s (fun u =>
      let left := s.time.slewHalf - 2 * d.natAbs
      let total := s.time.frac + (2 * d.natAbs - s.time.slewHalf) * 500000000
      u.time = { s.time with slewHalf := left, ns := s.time.ns + BitVec.ofNat 64 (total / 1000000000), frac := total % 1000000000 } ∧
      u.rf timeWin 0x128 30 30 = bit (decide (left ≠ 0)) ∧ (u.reg timeWin 0x134).toNat = min 0xFFFFFFFF ((left + 1) / 2) ∧
      Counted s u timeWin 0x148 ∧ Raised s u [851])) ∧
    (d < 0 → -1000000000 ≤ d → s.time.frac < 1000000000 → Leaves .timeStepGo s (fun u =>
      u.time = { s.time with slewHalf := s.time.slewHalf + 2 * d.natAbs } ∧ u.rf timeWin 0x128 30 30 = 1 ∧
      (u.reg timeWin 0x134).toNat = min 0xFFFFFFFF ((s.time.slewHalf + 2 * d.natAbs + 1) / 2) ∧ Counted s u timeWin 0x148 ∧
      u.ev.raised = s.ev.raised ++ [851])) ∧
    (d < -1000000000 ∨ 2 ^ 50 < d → Leaves .timeStepGo s (fun u => u.time = s.time ∧ u.ev = s.ev ∧ (u.reg timeWin 0x20).getLsbD 0 = true ∧
      u.reg timeWin 0x148 = s.reg timeWin 0x148)) ∧
    (s.time.slewHalf = 0 → Leaves .slewEnd s (fun u => u = { s with regs := u.regs } ∧ u.rf timeWin 0x128 30 30 = 0 ∧
      ∀ x o, (x, o) ≠ (timeWin, 0x128) → o < 65536 → u.reg x o = s.reg x o)) ∧
    (s.time.seconds < s.time.ns.toNat / 1000000000 → Leaves .ppsOut s (fun u =>
      u = { s with time := { s.time with seconds := s.time.ns.toNat / 1000000000, ppsFall := some (s.time.cycles + 100000000) } }))) ∧
  (∀ s : State, s.timeSource = 2 →
    (∀ c, s.time.ppsOk = true → s.time.lastPps = some c → c + 1100000000 ≤ s.time.cycles → s.board.railsGood.getD 6 false = false →
      Leaves .ppsEdge s (fun u => u.time.ppsOk = false ∧ u.time.ns = s.time.ns ∧ u.ev.raised = s.ev.raised ++ [849] ∧
        u.reg timeWin 0x140 = s.reg timeWin 0x140)) ∧
    let window := s.rf timeWin 0x110 15 0
    let fed : Prop := s.board.railsGood.getD 6 false = true ∧
      ∀ c, s.time.ppsOk = true → s.time.lastPps = some c → s.time.cycles < c + 1100000000
    let held (u : State) : Prop := u.threads = s.threads ∧ u.time.ns = s.time.ns ∧ u.reg timeWin 0x118 = s.reg timeWin 0x118
    (∀ e m : Int, fed → (s.time.ns.toNat : Int) - (s.reg timeWin 0x114).toInt = e + 1000000000 * m → -500000000 ≤ e → e < 500000000 →
      (e.natAbs ≤ window → s.time.slewHalf = 0 → s.time.frac < 1000000000 → Leaves .ppsEdge s (fun u =>
        u.time.ns = (if e < 0 then s.time.ns + BitVec.ofInt 64 (-e) else s.time.ns) ∧ u.time.slewHalf = (if 0 < e then 2 * e.natAbs else 0) ∧
        u.time.frac = s.time.frac ∧ u.time.ppsOk = true ∧ u.time.lastPps = some s.time.cycles ∧ u.reg timeWin 0x130 = BitVec.ofInt 32 e ∧
        Counted s u timeWin 0x140 ∧ u.reg timeWin 0x144 = s.reg timeWin 0x144 ∧
        (e = 0 → u.ev.raised = s.ev.raised ++ [848] ∧ u.reg timeWin 0x148 = s.reg timeWin 0x148) ∧
        (e ≠ 0 → 848 ∈ u.ev.raised ∧ 851 ∈ u.ev.raised ∧ Counted s u timeWin 0x148) ∧
        ShowsSync u (if s.time.refOk then 1 else if s.time.wasLocked then 2 else 3) ∧ u.threads = s.threads)) ∧
      (window < e.natAbs → Leaves .ppsEdge s (fun u => u = { s with regs := u.regs } ∧ Counted s u timeWin 0x144 ∧
        u.reg timeWin 0x130 = s.reg timeWin 0x130 ∧ u.reg timeWin 0x140 = s.reg timeWin 0x140))) ∧
    (∀ c, s.time.ppsOk = true → s.time.lastPps = some c → c + 1100000000 ≤ s.time.cycles → Leaves .ppsLost s (fun u =>
      u.time.ppsOk = false ∧ u.time.refOk = s.time.refOk ∧ u.ev.raised = s.ev.raised ++ [849] ∧
      ShowsSync u (if s.time.wasLocked then 2 else 3) ∧ held u)) ∧
    (s.time.refOk = true → Leaves .refLost s (fun u => u.time.refOk = false ∧ u.time.ppsOk = s.time.ppsOk ∧ u.ev.raised = s.ev.raised ++ [850] ∧
      ShowsSync u (if s.time.wasLocked then 2 else 3) ∧ held u)) ∧
    (∀ f : BitVec 32, f.toInt.natAbs ≤ 500000 → Leaves (.refLock f) s (fun u => u.time.refOk = true ∧ u.time.ppsOk = s.time.ppsOk ∧
      u.reg timeWin 0x118 = f ∧ u.time.ns = s.time.ns ∧ u.ev = s.ev ∧ u.threads = s.threads ∧
      ShowsSync u (if s.time.ppsOk then 1 else if s.time.wasLocked then 2 else 3))))

/-- R476, R532 to R536: a GPIO input's level is noted; held for min_pulse_ns it is accepted, and an assertion fires the input or is coalesced in its gap,
whose end fires it once, as of that end; a sample of the sites sets the thermal conditions and trips at the second one of 120 °C; JTAG takes what its state allows.
The model's readings and choices that it shows: log 118. -/
def Obligations.PinsAndSensorsAct : Prop :=
  (∀ (s : State) (n : Fin 16),
    let g := s.gpio n
    let others (u : State) : Prop := (∀ m, m ≠ n.val → u.gpio m = s.gpio m) ∧ u.threads = s.threads ∧ u.gath = s.gath
    let gap := s.rf deviceWin (0xC04 + 16 * n.val) 23 0
    let fires (u : State) (asserted : Bool) : Prop :=
      u.gpio n = { g with asserted := asserted, coalesced := false, gapEnd := if gap = 0 then none else some (s.time.cycles + gap) } ∧
      u.ev.raised = s.ev.raised ++ (if s.rf deviceWin (0xC00 + 16 * n.val) 31 31 = 1 then [832 + n.val] else []) ∧ u.regs = s.regs ∧ others u
    (∀ level, level ≠ g.level → Leaves (.gpioInputChange n level) s (fun u =>
      u.gpio n = { g with level := level, since := if s.board.railsGood.getD 6 false then s.time.cycles else g.since } ∧
      u = { s with board := u.board } ∧ others u)) ∧
    (s.gpioHeld n = true → s.gpioActive n = false → (∀ e, g.gapEnd = some e → s.time.cycles ≤ e) → Leaves (.gpioFilterAccept n) s (fun u =>
      u.gpio n = { g with asserted := false } ∧ u = { s with board := u.board } ∧ others u)) ∧
    (s.gpioHeld n = true → s.gpioActive n = true →
      ((∀ e, g.gapEnd = some e → e ≤ s.time.cycles) → (∀ e, g.gapEnd = some e → e < s.time.cycles → g.coalesced = false) →
        Leaves (.gpioFilterAccept n) s (fun u => fires u true)) ∧
      (∀ e, g.gapEnd = some e → s.time.cycles < e → Leaves (.gpioFilterAccept n) s (fun u =>
        u.gpio n = { g with asserted := true, coalesced := true } ∧ Counted s u deviceWin (0xC08 + 16 * n.val) ∧ u.ev = s.ev ∧ others u))) ∧
    (∀ e, g.gapEnd = some e → e ≤ s.time.cycles →
      (e = s.time.cycles → g.coalesced = true → Leaves (.gpioGapEnd n) s (fun u => fires u (if s.gpioHeld n then s.gpioActive n else g.asserted))) ∧
      (e < s.time.cycles → g.coalesced = true → Leaves (.gpioGapEnd n) s (fun u =>
        u.gpio n = { g with coalesced := false, gapEnd := if gap = 0 ∨ e + gap < s.time.cycles then none else some (e + gap) } ∧
        u.ev.raised = s.ev.raised ++ (if s.rf deviceWin (0xC00 + 16 * n.val) 31 31 = 1 then [832 + n.val] else []) ∧ u.regs = s.regs ∧ others u)) ∧
      (g.coalesced = false → Leaves (.gpioGapEnd n) s (fun u => u.gpio n = { g with gapEnd := none } ∧ u = { s with board := u.board } ∧ others u)))) ∧
  (∀ (s : State) (sites : List (BitVec 32)) (t : Int), sites.length = 32 → (∃ x ∈ sites, x.toInt = t) → (∀ x ∈ sites, x.toInt ≤ t) →
    let warnAt : Int := 1000 * s.rf deviceWin 0xD10 15 8
    let critAt : Int := 1000 * s.rf deviceWin 0xD10 7 0
    Leaves (.sensorSample sites) s (fun u => u.board.sites = sites ∧
      (warnAt ≤ t → u.board.warn = true) ∧ (t ≤ warnAt - 5000 → u.board.warn = false) ∧ (warnAt - 5000 < t → t < warnAt → u.board.warn = s.board.warn) ∧
      (critAt ≤ t → u.board.crit = true) ∧ (t ≤ critAt - 5000 → u.board.crit = false) ∧ (critAt - 5000 < t → t < critAt → u.board.crit = s.board.crit) ∧
      (t < 120000 ∨ s.board.hot = false → u.board.trip = s.board.trip ∧
        (u.board.cooled = true ↔ s.board.cooled = true ∨ (s.board.trip = true ∧ t < 100000)) ∧
        u = { s with board := u.board, ev := { s.ev with level := u.ev.level } }) ∧
      (120000 ≤ t → s.board.hot = true → u.board.trip = true ∧ u.board.cooled = false ∧ u.heldInReset = true ∧ CoreIsLost s u))) ∧
  (∀ (s : State) (i : JtagIns), s.board.railsGood.getD 6 false = true →
    let takes (x : JtagIns) : Prop := Leaves (.jtagInstruction i) s (fun u => u = { s with board := { s.board with jtag := x } })
    let open' : Prop := s.trust.sec = .debug ∧ s.trust.scope.testBit 1 = true ∧ s.spine.folio.isSome = true
    (i = .idcode ∨ i = .bypass → takes i) ∧ (open' → takes i) ∧ (s.heldInReset = true → i = .samplePreload ∨ i = .extest → takes i) ∧
    (¬ open' → (∃ ir, i = .other ir) ∨ (s.heldInReset = false ∧ (i = .samplePreload ∨ i = .extest)) → takes .bypass))

/-- R475, R485, R488 to R490, R494 to R496, R519, R520: the trust chain runs the Folio that verifies, or waits for one, or stops in LOCKED where a test fails;
tamper zeroises, erases and locks; a challenge expires; a lost rail does what R494's table says, and raises EV_SUPPLY; a good one latches the straps
that are due; a device reset keeps the fuses; an image that does not come up, or faults, gives way to the one before; and Spine restarts.
The model's readings and choices that it shows: log 93, 97, 116. -/
def Obligations.TrustResetsAndSupplies : Prop :=
  (∀ (s : State) (flashA flashB : List Byte), s.board.bootDue = true → s.heldInReset = false →
    let image (l : List Byte) : Image := ⟨4, if s.board.railsGood.getD 6 false then l else [], []⟩
    let runs (i : Image) (source : Nat) (slotB : Bool) : Prop := Leaves (.boot flashA flashB true) s (fun u => u.board.bootDue = false ∧
      u.trust.erased = decide (s.trust.sec = .locked) ∧ u.trust.sec = s.trust.sec ∧ u.spine.folio = some i ∧ u.spine.up = true ∧ u.spine.rom = false ∧ u.spine.slotB = slotB ∧
      (u.gathOf spineWin).own = .inService ∧ u.rf deviceWin 0x204 3 0 = 6 ∧ u.rf deviceWin 0x204 9 8 = source)
    let waits (at0 : Nat) : Prop := Leaves (.boot flashA flashB true) s (fun u => u.board.bootDue = false ∧
      u.trust.erased = decide (s.trust.sec = .locked) ∧ u.trust.sec = s.trust.sec ∧ u.spine.rom = true ∧ u.spine.up = s.spine.up ∧
      u.rf deviceWin 0x204 3 0 = at0)
    Leaves (.boot flashA flashB false) s (fun u => u.board.bootDue = false ∧ u.trust.sec = .locked ∧ u.trust.erased = true ∧ Zeroised s u ∧
      u.rf deviceWin 0x204 3 0 ≤ 1 ∧ (s.rf deviceWin 0x204 3 0 ≠ 0 → u.rf deviceWin 0x204 3 0 = 1)) ∧
    (s.board.latched % 4 = 1 → waits 2) ∧
    (s.board.latched % 4 ≠ 1 →
      (s.verifyImage (image flashA) = none → (image flashA).tagOk = true → runs (image flashA) 0 false) ∧
      (s.verifyImage (image flashA) ≠ none → s.verifyImage (image flashB) = none → (image flashB).tagOk = true → runs (image flashB) 1 true) ∧
      (s.verifyImage (image flashA) ≠ none → s.verifyImage (image flashB) ≠ none → waits 3))) ∧
  (∀ s : State,
    (s.board.countEnd ≤ s.time.cycles →
      Leaves .tamper s (fun u => u.trust = { s.trust with sec := .locked, scope := 0, erased := true } ∧ Zeroised s u ∧ u.gath = s.gath ∧
        ∀ f t, s.unwrapping = [f] → (s.func f).taken = [t] → (u.func f).taken = [] ∧
          (f ≠ 64 → s.hostUp = true → u.hostRead (slotAt s f) 256 = fitBytes (responseBytes t.entry (Reply.plain 15)) 256))) ∧
    (∀ c at0, s.trust.challenge = some (c, at0) →
      (at0 + 600000000000 ≤ s.time.cycles → Leaves .challengeExpiry s (fun u => u = { s with trust := { s.trust with challenge := none } })) ∧
      (s.time.cycles < at0 + 600000000000 → Leaves .challengeExpiry s (fun u => u = s))) ∧
    Leaves .sysReset s (fun u => DeviceIsReset s u ∧ u.board.railsGood = s.board.railsGood ∧ u.board.volts = s.board.volts ∧
      (s.board.railsGood.getD 6 false = true → s.board.railsGood.getD 7 false = true → u.board.latched = s.board.straps ∧ u.board.latchDue = false) ∧
      (s.board.railsGood.getD 6 false = false → u.board.latched = s.board.latched ∧ u.board.latchDue = true) ∧
      u.board.trip = (s.board.trip && !s.board.cooled) ∧ u.board.hot = s.board.hot)) ∧
  (∀ (s : State) (r : Fin 8), s.board.railsGood.length = 8 → s.board.volts.length = 8 →
    let k := r.val
    let rails (u : State) (good : Bool) (lo hi : Nat) : Prop := u.board.railsGood = s.board.railsGood.set k good ∧ lo ≤ u.board.volts.getD k 0 ∧
      u.board.volts.getD k 0 ≤ hi ∧ ∀ j, j ≠ k → u.board.volts.getD j 0 = s.board.volts.getD j 0
    let fails (u : State) (ws : List Nat) : Prop := ∀ w ∈ ws, QuietAbove s w → (u.gathOf w).own =
      if (s.gathOf w).own = .absent ∨ (s.gathOf w).own = .off then (s.gathOf w).own else .failed
    (s.board.railsGood.getD k false = true → Leaves (.railLost r) s (fun u => rails u false 0 ((railRange k).2.2 - 1) ∧
      (k ≤ 1 → CoreIsLost s u) ∧ (k = 2 ∨ k = 3 → fails u (windows 249 32 ++ windows 245 4 ++ [pcieWin])) ∧
      (k = 4 → ∀ w, kindOf w = 0x09 → fails u [w]) ∧ (k = 5 → ∀ w, kindOf w = 0x0B → fails u [w]) ∧
      (k = 6 → u.gath = s.gath ∧ u.threads = s.threads ∧ ∀ n, n < 16 → u.gpioActive n = false) ∧
      (k = 7 → DeviceIsReset s u ∧ u.board.latchDue = true ∧ u.heldInReset = true) ∧ (k < 7 → 867 ∈ u.ev.raised ∧ u.trust.sec = s.trust.sec))) ∧
    (s.board.railsGood.getD k false = false → Leaves (.railGood r) s (fun u => rails u true (railRange k).1 (railRange k).2.1 ∧
      u.gath = s.gath ∧ u.threads = s.threads ∧ u.trust = s.trust ∧ (k = 7 → u.board.powerAt = s.time.cycles ∧ u.heldInReset = true) ∧
      (s.board.unlatched = false → u.regs = s.regs) ∧
      (s.board.latchDue = true → u.board.railsGood.getD 6 false = true → u.board.railsGood.getD 7 false = true →
        u.board.latched = s.board.straps ∧ u.board.latchDue = false) ∧
      (s.board.latchDue = false → u.board.latched = s.board.latched ∧ u.regs = s.regs)))) ∧
  (∀ (s : State) (old : Image) (at0 : Nat), QuietAbove s spineWin → s.spine.leaving = some (old, at0) →
    (at0 + 2000000000 ≤ s.time.cycles → Leaves .spineUpTimeout s (FellBack s · old)) ∧ Leaves .spineRestart s (FellBack s · old) ∧
    ((s.gathOf spineWin).own = .starting → s.heldInReset = false →
      Leaves (.startingEnd ⟨spineWin, by decide⟩ false) s (FellBack s · old) ∧
      Leaves (.startingEnd ⟨spineWin, by decide⟩ true) s (fun u => u.spine.slotB = !s.spine.slotB ∧ u.spine.up = true ∧ u.spine.leaving = none ∧
        u.spine.folio = s.spine.folio ∧ (u.gathOf spineWin).own = .inService ∧ u.reg spineWin 0x34 = 1))) ∧
  (∀ s : State, s.spine.leaving = none → s.spine.up = true → (∀ f, (s.func f).taken = []) →
    (∀ l, (s.lock l).holder = some (portWord 64) → (s.lock l).leaving = none) → Leaves .spineRestart s (fun u =>
    u.stilePort 64 = [] ∧ u.ev.raised = s.ev.raised ++ [870] ∧ u.spine.folio = s.spine.folio ∧ u.spine.up = true ∧ u.gath = s.gath ∧
    ∀ l, l < 8192 → ∀ h, (u.lock l).holder = some h → h ≠ portWord 64))

/-- R500 to R508: Fallow begins with its ports; a frame of a Fallow port is counted, dropped, queued to the port its destination names or flooded, and its
source is learned; an entry that should have aged out counts for nothing; MAC Control frames are consumed; an entry ages out; a handover is refused, or copies the table, and ends once every port has
switched; a port's hold begins, and its release hands the frames held to Loft's path; STOP ends Fallow without copying.
The model's readings and choices that it shows: log 94, 107, 108. -/
def Obligations.FallowForwardsAndHandsOver : Prop :=
  (∀ s : State, s.heldInReset = false → s.board.bootDue = false → s.board.latched.testBit 2 = true → s.fallowState = 0 → s.board.powerAt + 150000000 ≤ s.time.cycles →
    Leaves .fallowPortStart s (fun u => u.fallowState = 1 ∧ u.fallow = s.fallow ∧
      (Commandable s → (s.gathOf deviceWin).cmd = none → (s.gathOf deviceWin).tip = none →
        ∀ g ∈ windows 245 4, (∀ m ∈ g :: s.boundOf g, (s.gathOf m).own = .off ∧ (s.gathOf m).cmd = none ∧ (s.gathOf m).tip = none) →
          ∀ m ∈ g :: s.boundOf g, (u.gathOf m).own = .starting))) ∧
  (∀ (s : State) (p : EthPort) (frame : List Byte),
    let n := p.val
    let pvid := s.fallowPvid n
    let dst := fallowKey pvid (bytesAt frame 0 6)
    let src := fallowKey pvid (bytesAt frame 6 6)
    let room (m : Nat) : Prop := sumOf (s.fallowQueue m) frameCells + frameCells frame ≤ 2048
    let queued (u : State) (ms : List Nat) : Prop := ∀ m, u.fallowQueue m = s.fallowQueue m ++ (if m ∈ ms then [frame] else [])
    let received (u : State) : Prop := Counted s u (portWin n) 0x200 ∧ FallowCounted s u n 0 frame.length 256 ∧ FallowCounted s u n 1 1 16
    let learns (u : State) : Prop :=
      (∀ e, SMap.find s.fallowLive src = some e → SMap.find u.fallow.table src = some (n, s.time.cycles, e.2.2)) ∧
      (∀ b, SMap.find s.fallowLive src = none → s.fallowAged.bucketFor src = some b → SMap.find u.fallow.table src = some (n, s.time.cycles, b)) ∧
      (∀ k, k ≠ src → SMap.find u.fallow.table k = SMap.find s.fallowLive k)
    let barred : Prop := badTags pvid frame 4096 12 = true ∨ (byteAt frame 6).getLsbD 0 = true
    s.fallowPort n = true → s.fallowOwns n = true →
    (etherType frame = 0x8808 → Leaves (.fallowFrame p frame) s (fun u => Counted s u (portWin n) 0x210 ∧ u = { s with regs := u.regs })) ∧
    (etherType frame ≠ 0x8808 → s.fallowRuns = false → Leaves (.fallowFrame p frame) s (fun u => received u ∧ FallowCounted s u n 4 1 16 ∧ queued u [] ∧
      u.fallow.table = s.fallow.table)) ∧
    (etherType frame ≠ 0x8808 → s.fallowRuns = true →
      (∀ l, SMap.find s.fallow.held n = some l → s.fallowCells + frameCells frame ≤ 65536 → Leaves (.fallowFrame p frame) s (fun u => received u ∧
        queued u [] ∧ ∃ f : RxFrame, f.bytes = frame ∧ SMap.find u.fallow.held n = some (l ++ [f]))) ∧
      (SMap.find s.fallow.held n = none → s.fallowPaced = false → Leaves (.fallowFrame p frame) s (fun u => received u ∧
        FallowCounted s u n 4 1 16 ∧ queued u [] ∧ u.fallow.table = s.fallow.table)) ∧
      (SMap.find s.fallow.held n = none → s.fallowPaced = true →
        (barred → Leaves (.fallowFrame p frame) s (fun u => received u ∧ FallowCounted s u n 4 1 16 ∧ queued u [] ∧ u.fallow.table = s.fallowLive)) ∧
        (¬ barred →
          (∀ e, SMap.find s.fallowLive dst = some e → e.1 = n → Leaves (.fallowFrame p frame) s (fun u => received u ∧ FallowCounted s u n 4 1 16 ∧
            queued u [] ∧ learns u)) ∧
          (∀ e, SMap.find s.fallowLive dst = some e → e.1 ≠ n → e.1 ∈ s.fallowPeers n → room e.1 → s.fallowCells + frameCells frame ≤ 65536 →
            Leaves (.fallowFrame p frame) s (fun u => received u ∧ queued u [e.1] ∧ learns u)) ∧
          (SMap.find s.fallowLive dst = none ∨ (∃ e, SMap.find s.fallowLive dst = some e ∧ e.1 ≠ n ∧ e.1 ∉ s.fallowPeers n) →
            (∀ m ∈ s.fallowPeers n, room m) → s.fallowCells + 32 * frameCells frame ≤ 65536 →
            Leaves (.fallowFrame p frame) s (fun u => received u ∧ FallowCounted s u n 5 1 16 ∧ queued u (s.fallowPeers n) ∧ learns u)))))) ∧
  (∀ (s : State) (key : Nat) (e : Nat × Nat × Nat), SMap.find s.fallow.table key = some e → s.fallowRuns = true →
    e.2.1 + 1000000000 * s.rf deviceWin 0x408 31 16 ≤ s.time.cycles → Leaves (.fallowAge key) s (fun u => SMap.find u.fallow.table key = none ∧
      (∀ k, k ≠ key → SMap.find u.fallow.table k = SMap.find s.fallow.table k) ∧ u.fallow.queues = s.fallow.queues ∧ u = { s with fallow := u.fallow })) ∧
  (∀ s : State,
    let ends (u : State) : Prop := u.fallowState = 3 ∧ u.rf deviceWin 0x404 29 28 = 1 ∧ u.rf deviceWin 0x404 27 27 = 1 ∧
      u.rf deviceWin 0x400 30 30 = 0 ∧ u.fallow.table = [] ∧ u.fallow.rem = []
    (s.fallowState = 1 → s.handoverOk = false → Leaves .fallowHandover s (fun u => u.fallowState = 1 ∧ u.rf deviceWin 0x404 29 28 = 2 ∧
      u = { s with regs := u.regs })) ∧
    (s.fallowState = 1 → s.handoverOk = true → s.fallowLive ≠ [] → s.warren.learns.length + s.fallowLive.length ≤ 1024 → SMap.sorted s.fallow.table = true →
      Leaves .fallowHandover s (fun u => u.fallowState = 2 ∧ u.fallow = { s.fallow with table := s.fallowLive, copies := [] } ∧
        (u.warren.learns.drop s.warren.learns.length).map (fun j => (j.key, j.port)) =
          s.fallowLive.map (fun e => (s.wtKey s.fallowTable (warrenKeyOf e.1), e.2.1)) ∧
        u.warren.learns.take s.warren.learns.length = s.warren.learns ∧ u.warren.learns.length = s.warren.learns.length + s.fallowLive.length)) ∧
    (s.fallowState = 2 → s.copied = true → s.fallow.held = [] → s.toSwitch = [] → Leaves .fallowHandover s ends) ∧
    (∀ p : EthPort, s.fallowState = 2 → s.copied = true →
      (s.fallow.held = [] → s.toSwitch.head? = some p.val → Leaves (.fallowPortSwitch p) s (fun u => SMap.find u.fallow.held p = some [] ∧
        u = { s with fallow := { s.fallow with held := u.fallow.held } } ∧ ∀ k, k ≠ p.val → SMap.find u.fallow.held k = none)) ∧
      (∀ l, SMap.find s.fallow.held p = some l → Leaves (.fallowPortSwitch p) s (fun u => SMap.find u.fallow.held p = none ∧
        (u.port p).rx = (s.port p).rx ++ l ∧ u.fallowSwitched p = true ∧ u.fallow.queues = s.fallow.queues ∧
        ∀ n, n < 32 → n ≠ p.val → u.fallowSwitched n = s.fallowSwitched n ∧ u.port n = s.port n))) ∧
    (s.fallowRuns = true → Leaves .fallowStop s (fun u => u.fallowState = 3 ∧ u.fallow.stopped = true ∧ u.fallow.table = [] ∧ u.fallow.held = [] ∧
      u.fallow.queues = s.fallow.queues ∧ (s.fallow.queues = [] → u.rf deviceWin 0x404 29 28 = 3) ∧ u.warren = s.warren ∧ u.ports = s.ports)))

/-! ### The device's invariant (19, 20) -/

/-- R300, R371, R383: every step keeps every addressed memory in its one form, whatever command it takes. The form, and what a byte that nothing has
written reads as, are the model's own (log 7): equal memories are equal lists. -/
def Obligations.EveryStepKeepsTheMemories : Prop := ∀ s u : State, MemoryInv s → step s = .next u → MemoryInv u

/-- R473, R477, R489: every step keeps the fuses' bounds and the lists of the board; owner banks are only added to, counters never fall, revoked keys stay
revoked, and the security state moves as R489's table lists, each way only by the command that the table names. -/
def Obligations.EveryStepKeepsTheFuses : Prop :=
  ∀ s u : State, DeviceInv s → step s = .next u → DeviceInv u ∧ s.trust.banks <+: u.trust.banks ∧ (∀ c, s.counter c ≤ u.counter c) ∧
    (∀ k, s.trust.revoked.testBit k = true → u.trust.revoked.testBit k = true) ∧ SecMoves s u

/-- R489, R453, R459: the state right after reset keeps the fuses' bounds and the memories' form; no owner bank is used and it is UNOWNED, device time is 0, no command waits, and
every event is masked with its status clear. That the fuses are a new part's is the model's choice (log 12). -/
def Obligations.ResetKeepsTheFuses : Prop :=
  DeviceInv State.reset ∧ MemoryInv State.reset ∧ State.reset.trust.banks = [] ∧ State.reset.trust.sec = .unowned ∧ State.reset.time.ns = 0 ∧ State.reset.pending = [] ∧
  (∀ k, k < 32 → State.reset.reg spineWin (0x100 + 4 * k) = 0 ∧ State.reset.reg spineWin (0x180 + 4 * k) = 0xFFFFFFFF)
end

