-- ==== Sys2Proof/Laws/State.lean ====
section
/-! SUPPORT. Each part of the state after the update of a part: one lemma per field per update, true by rfl. -/

namespace Sys2Proof.Machine

/-! ### modTime -/

@[simp] theorem State.modTime_time (s : State) (f : TimeSt → TimeSt) : (s.modTime f).time = f s.time := rfl
@[simp] theorem State.modTime_pending (s : State) (f : TimeSt → TimeSt) : (s.modTime f).pending = s.pending := rfl
@[simp] theorem State.modTime_fresh (s : State) (f : TimeSt → TimeSt) : (s.modTime f).fresh = s.fresh := rfl
@[simp] theorem State.modTime_readData (s : State) (f : TimeSt → TimeSt) : (s.modTime f).readData = s.readData := rfl
@[simp] theorem State.modTime_variant (s : State) (f : TimeSt → TimeSt) : (s.modTime f).variant = s.variant := rfl
@[simp] theorem State.modTime_regs (s : State) (f : TimeSt → TimeSt) : (s.modTime f).regs = s.regs := rfl
@[simp] theorem State.modTime_gath (s : State) (f : TimeSt → TimeSt) : (s.modTime f).gath = s.gath := rfl
@[simp] theorem State.modTime_ev (s : State) (f : TimeSt → TimeSt) : (s.modTime f).ev = s.ev := rfl
@[simp] theorem State.modTime_reports (s : State) (f : TimeSt → TimeSt) : (s.modTime f).reports = s.reports := rfl
@[simp] theorem State.modTime_packets (s : State) (f : TimeSt → TimeSt) : (s.modTime f).packets = s.packets := rfl
@[simp] theorem State.modTime_nextPid (s : State) (f : TimeSt → TimeSt) : (s.modTime f).nextPid = s.nextPid := rfl
@[simp] theorem State.modTime_tedder (s : State) (f : TimeSt → TimeSt) : (s.modTime f).tedder = s.tedder := rfl
@[simp] theorem State.modTime_windrow (s : State) (f : TimeSt → TimeSt) : (s.modTime f).windrow = s.windrow := rfl
@[simp] theorem State.modTime_loft (s : State) (f : TimeSt → TimeSt) : (s.modTime f).loft = s.loft := rfl
@[simp] theorem State.modTime_kettle (s : State) (f : TimeSt → TimeSt) : (s.modTime f).kettle = s.kettle := rfl
@[simp] theorem State.modTime_ports (s : State) (f : TimeSt → TimeSt) : (s.modTime f).ports = s.ports := rfl
@[simp] theorem State.modTime_drover (s : State) (f : TimeSt → TimeSt) : (s.modTime f).drover = s.drover := rfl
@[simp] theorem State.modTime_commons (s : State) (f : TimeSt → TimeSt) : (s.modTime f).commons = s.commons := rfl
@[simp] theorem State.modTime_mower (s : State) (f : TimeSt → TimeSt) : (s.modTime f).mower = s.mower := rfl
@[simp] theorem State.modTime_mem (s : State) (f : TimeSt → TimeSt) : (s.modTime f).mem = s.mem := rfl
@[simp] theorem State.modTime_sheaf (s : State) (f : TimeSt → TimeSt) : (s.modTime f).sheaf = s.sheaf := rfl
@[simp] theorem State.modTime_ling (s : State) (f : TimeSt → TimeSt) : (s.modTime f).ling = s.ling := rfl
@[simp] theorem State.modTime_warren (s : State) (f : TimeSt → TimeSt) : (s.modTime f).warren = s.warren := rfl
@[simp] theorem State.modTime_threads (s : State) (f : TimeSt → TimeSt) : (s.modTime f).threads = s.threads := rfl
@[simp] theorem State.modTime_quires (s : State) (f : TimeSt → TimeSt) : (s.modTime f).quires = s.quires := rfl
@[simp] theorem State.modTime_keys (s : State) (f : TimeSt → TimeSt) : (s.modTime f).keys = s.keys := rfl
@[simp] theorem State.modTime_stile (s : State) (f : TimeSt → TimeSt) : (s.modTime f).stile = s.stile := rfl
@[simp] theorem State.modTime_trust (s : State) (f : TimeSt → TimeSt) : (s.modTime f).trust = s.trust := rfl
@[simp] theorem State.modTime_funcs (s : State) (f : TimeSt → TimeSt) : (s.modTime f).funcs = s.funcs := rfl
@[simp] theorem State.modTime_qps (s : State) (f : TimeSt → TimeSt) : (s.modTime f).qps = s.qps := rfl
@[simp] theorem State.modTime_spine (s : State) (f : TimeSt → TimeSt) : (s.modTime f).spine = s.spine := rfl
@[simp] theorem State.modTime_fallow (s : State) (f : TimeSt → TimeSt) : (s.modTime f).fallow = s.fallow := rfl
@[simp] theorem State.modTime_board (s : State) (f : TimeSt → TimeSt) : (s.modTime f).board = s.board := rfl

/-! ### modEv -/

@[simp] theorem State.modEv_ev (s : State) (f : EventSt → EventSt) : (s.modEv f).ev = f s.ev := rfl
@[simp] theorem State.modEv_pending (s : State) (f : EventSt → EventSt) : (s.modEv f).pending = s.pending := rfl
@[simp] theorem State.modEv_fresh (s : State) (f : EventSt → EventSt) : (s.modEv f).fresh = s.fresh := rfl
@[simp] theorem State.modEv_readData (s : State) (f : EventSt → EventSt) : (s.modEv f).readData = s.readData := rfl
@[simp] theorem State.modEv_variant (s : State) (f : EventSt → EventSt) : (s.modEv f).variant = s.variant := rfl
@[simp] theorem State.modEv_regs (s : State) (f : EventSt → EventSt) : (s.modEv f).regs = s.regs := rfl
@[simp] theorem State.modEv_gath (s : State) (f : EventSt → EventSt) : (s.modEv f).gath = s.gath := rfl
@[simp] theorem State.modEv_time (s : State) (f : EventSt → EventSt) : (s.modEv f).time = s.time := rfl
@[simp] theorem State.modEv_reports (s : State) (f : EventSt → EventSt) : (s.modEv f).reports = s.reports := rfl
@[simp] theorem State.modEv_packets (s : State) (f : EventSt → EventSt) : (s.modEv f).packets = s.packets := rfl
@[simp] theorem State.modEv_nextPid (s : State) (f : EventSt → EventSt) : (s.modEv f).nextPid = s.nextPid := rfl
@[simp] theorem State.modEv_tedder (s : State) (f : EventSt → EventSt) : (s.modEv f).tedder = s.tedder := rfl
@[simp] theorem State.modEv_windrow (s : State) (f : EventSt → EventSt) : (s.modEv f).windrow = s.windrow := rfl
@[simp] theorem State.modEv_loft (s : State) (f : EventSt → EventSt) : (s.modEv f).loft = s.loft := rfl
@[simp] theorem State.modEv_kettle (s : State) (f : EventSt → EventSt) : (s.modEv f).kettle = s.kettle := rfl
@[simp] theorem State.modEv_ports (s : State) (f : EventSt → EventSt) : (s.modEv f).ports = s.ports := rfl
@[simp] theorem State.modEv_drover (s : State) (f : EventSt → EventSt) : (s.modEv f).drover = s.drover := rfl
@[simp] theorem State.modEv_commons (s : State) (f : EventSt → EventSt) : (s.modEv f).commons = s.commons := rfl
@[simp] theorem State.modEv_mower (s : State) (f : EventSt → EventSt) : (s.modEv f).mower = s.mower := rfl
@[simp] theorem State.modEv_mem (s : State) (f : EventSt → EventSt) : (s.modEv f).mem = s.mem := rfl
@[simp] theorem State.modEv_sheaf (s : State) (f : EventSt → EventSt) : (s.modEv f).sheaf = s.sheaf := rfl
@[simp] theorem State.modEv_ling (s : State) (f : EventSt → EventSt) : (s.modEv f).ling = s.ling := rfl
@[simp] theorem State.modEv_warren (s : State) (f : EventSt → EventSt) : (s.modEv f).warren = s.warren := rfl
@[simp] theorem State.modEv_threads (s : State) (f : EventSt → EventSt) : (s.modEv f).threads = s.threads := rfl
@[simp] theorem State.modEv_quires (s : State) (f : EventSt → EventSt) : (s.modEv f).quires = s.quires := rfl
@[simp] theorem State.modEv_keys (s : State) (f : EventSt → EventSt) : (s.modEv f).keys = s.keys := rfl
@[simp] theorem State.modEv_stile (s : State) (f : EventSt → EventSt) : (s.modEv f).stile = s.stile := rfl
@[simp] theorem State.modEv_trust (s : State) (f : EventSt → EventSt) : (s.modEv f).trust = s.trust := rfl
@[simp] theorem State.modEv_funcs (s : State) (f : EventSt → EventSt) : (s.modEv f).funcs = s.funcs := rfl
@[simp] theorem State.modEv_qps (s : State) (f : EventSt → EventSt) : (s.modEv f).qps = s.qps := rfl
@[simp] theorem State.modEv_spine (s : State) (f : EventSt → EventSt) : (s.modEv f).spine = s.spine := rfl
@[simp] theorem State.modEv_fallow (s : State) (f : EventSt → EventSt) : (s.modEv f).fallow = s.fallow := rfl
@[simp] theorem State.modEv_board (s : State) (f : EventSt → EventSt) : (s.modEv f).board = s.board := rfl

/-! ### modReports -/

@[simp] theorem State.modReports_reports (s : State) (f : List Report → List Report) : (s.modReports f).reports = f s.reports := rfl
@[simp] theorem State.modReports_pending (s : State) (f : List Report → List Report) : (s.modReports f).pending = s.pending := rfl
@[simp] theorem State.modReports_fresh (s : State) (f : List Report → List Report) : (s.modReports f).fresh = s.fresh := rfl
@[simp] theorem State.modReports_readData (s : State) (f : List Report → List Report) : (s.modReports f).readData = s.readData := rfl
@[simp] theorem State.modReports_variant (s : State) (f : List Report → List Report) : (s.modReports f).variant = s.variant := rfl
@[simp] theorem State.modReports_regs (s : State) (f : List Report → List Report) : (s.modReports f).regs = s.regs := rfl
@[simp] theorem State.modReports_gath (s : State) (f : List Report → List Report) : (s.modReports f).gath = s.gath := rfl
@[simp] theorem State.modReports_time (s : State) (f : List Report → List Report) : (s.modReports f).time = s.time := rfl
@[simp] theorem State.modReports_ev (s : State) (f : List Report → List Report) : (s.modReports f).ev = s.ev := rfl
@[simp] theorem State.modReports_packets (s : State) (f : List Report → List Report) : (s.modReports f).packets = s.packets := rfl
@[simp] theorem State.modReports_nextPid (s : State) (f : List Report → List Report) : (s.modReports f).nextPid = s.nextPid := rfl
@[simp] theorem State.modReports_tedder (s : State) (f : List Report → List Report) : (s.modReports f).tedder = s.tedder := rfl
@[simp] theorem State.modReports_windrow (s : State) (f : List Report → List Report) : (s.modReports f).windrow = s.windrow := rfl
@[simp] theorem State.modReports_loft (s : State) (f : List Report → List Report) : (s.modReports f).loft = s.loft := rfl
@[simp] theorem State.modReports_kettle (s : State) (f : List Report → List Report) : (s.modReports f).kettle = s.kettle := rfl
@[simp] theorem State.modReports_ports (s : State) (f : List Report → List Report) : (s.modReports f).ports = s.ports := rfl
@[simp] theorem State.modReports_drover (s : State) (f : List Report → List Report) : (s.modReports f).drover = s.drover := rfl
@[simp] theorem State.modReports_commons (s : State) (f : List Report → List Report) : (s.modReports f).commons = s.commons := rfl
@[simp] theorem State.modReports_mower (s : State) (f : List Report → List Report) : (s.modReports f).mower = s.mower := rfl
@[simp] theorem State.modReports_mem (s : State) (f : List Report → List Report) : (s.modReports f).mem = s.mem := rfl
@[simp] theorem State.modReports_sheaf (s : State) (f : List Report → List Report) : (s.modReports f).sheaf = s.sheaf := rfl
@[simp] theorem State.modReports_ling (s : State) (f : List Report → List Report) : (s.modReports f).ling = s.ling := rfl
@[simp] theorem State.modReports_warren (s : State) (f : List Report → List Report) : (s.modReports f).warren = s.warren := rfl
@[simp] theorem State.modReports_threads (s : State) (f : List Report → List Report) : (s.modReports f).threads = s.threads := rfl
@[simp] theorem State.modReports_quires (s : State) (f : List Report → List Report) : (s.modReports f).quires = s.quires := rfl
@[simp] theorem State.modReports_keys (s : State) (f : List Report → List Report) : (s.modReports f).keys = s.keys := rfl
@[simp] theorem State.modReports_stile (s : State) (f : List Report → List Report) : (s.modReports f).stile = s.stile := rfl
@[simp] theorem State.modReports_trust (s : State) (f : List Report → List Report) : (s.modReports f).trust = s.trust := rfl
@[simp] theorem State.modReports_funcs (s : State) (f : List Report → List Report) : (s.modReports f).funcs = s.funcs := rfl
@[simp] theorem State.modReports_qps (s : State) (f : List Report → List Report) : (s.modReports f).qps = s.qps := rfl
@[simp] theorem State.modReports_spine (s : State) (f : List Report → List Report) : (s.modReports f).spine = s.spine := rfl
@[simp] theorem State.modReports_fallow (s : State) (f : List Report → List Report) : (s.modReports f).fallow = s.fallow := rfl
@[simp] theorem State.modReports_board (s : State) (f : List Report → List Report) : (s.modReports f).board = s.board := rfl

/-! ### modPackets -/

@[simp] theorem State.modPackets_packets (s : State) (f : SMap Packet → SMap Packet) : (s.modPackets f).packets = f s.packets := rfl
@[simp] theorem State.modPackets_pending (s : State) (f : SMap Packet → SMap Packet) : (s.modPackets f).pending = s.pending := rfl
@[simp] theorem State.modPackets_fresh (s : State) (f : SMap Packet → SMap Packet) : (s.modPackets f).fresh = s.fresh := rfl
@[simp] theorem State.modPackets_readData (s : State) (f : SMap Packet → SMap Packet) : (s.modPackets f).readData = s.readData := rfl
@[simp] theorem State.modPackets_variant (s : State) (f : SMap Packet → SMap Packet) : (s.modPackets f).variant = s.variant := rfl
@[simp] theorem State.modPackets_regs (s : State) (f : SMap Packet → SMap Packet) : (s.modPackets f).regs = s.regs := rfl
@[simp] theorem State.modPackets_gath (s : State) (f : SMap Packet → SMap Packet) : (s.modPackets f).gath = s.gath := rfl
@[simp] theorem State.modPackets_time (s : State) (f : SMap Packet → SMap Packet) : (s.modPackets f).time = s.time := rfl
@[simp] theorem State.modPackets_ev (s : State) (f : SMap Packet → SMap Packet) : (s.modPackets f).ev = s.ev := rfl
@[simp] theorem State.modPackets_reports (s : State) (f : SMap Packet → SMap Packet) : (s.modPackets f).reports = s.reports := rfl
@[simp] theorem State.modPackets_nextPid (s : State) (f : SMap Packet → SMap Packet) : (s.modPackets f).nextPid = s.nextPid := rfl
@[simp] theorem State.modPackets_tedder (s : State) (f : SMap Packet → SMap Packet) : (s.modPackets f).tedder = s.tedder := rfl
@[simp] theorem State.modPackets_windrow (s : State) (f : SMap Packet → SMap Packet) : (s.modPackets f).windrow = s.windrow := rfl
@[simp] theorem State.modPackets_loft (s : State) (f : SMap Packet → SMap Packet) : (s.modPackets f).loft = s.loft := rfl
@[simp] theorem State.modPackets_kettle (s : State) (f : SMap Packet → SMap Packet) : (s.modPackets f).kettle = s.kettle := rfl
@[simp] theorem State.modPackets_ports (s : State) (f : SMap Packet → SMap Packet) : (s.modPackets f).ports = s.ports := rfl
@[simp] theorem State.modPackets_drover (s : State) (f : SMap Packet → SMap Packet) : (s.modPackets f).drover = s.drover := rfl
@[simp] theorem State.modPackets_commons (s : State) (f : SMap Packet → SMap Packet) : (s.modPackets f).commons = s.commons := rfl
@[simp] theorem State.modPackets_mower (s : State) (f : SMap Packet → SMap Packet) : (s.modPackets f).mower = s.mower := rfl
@[simp] theorem State.modPackets_mem (s : State) (f : SMap Packet → SMap Packet) : (s.modPackets f).mem = s.mem := rfl
@[simp] theorem State.modPackets_sheaf (s : State) (f : SMap Packet → SMap Packet) : (s.modPackets f).sheaf = s.sheaf := rfl
@[simp] theorem State.modPackets_ling (s : State) (f : SMap Packet → SMap Packet) : (s.modPackets f).ling = s.ling := rfl
@[simp] theorem State.modPackets_warren (s : State) (f : SMap Packet → SMap Packet) : (s.modPackets f).warren = s.warren := rfl
@[simp] theorem State.modPackets_threads (s : State) (f : SMap Packet → SMap Packet) : (s.modPackets f).threads = s.threads := rfl
@[simp] theorem State.modPackets_quires (s : State) (f : SMap Packet → SMap Packet) : (s.modPackets f).quires = s.quires := rfl
@[simp] theorem State.modPackets_keys (s : State) (f : SMap Packet → SMap Packet) : (s.modPackets f).keys = s.keys := rfl
@[simp] theorem State.modPackets_stile (s : State) (f : SMap Packet → SMap Packet) : (s.modPackets f).stile = s.stile := rfl
@[simp] theorem State.modPackets_trust (s : State) (f : SMap Packet → SMap Packet) : (s.modPackets f).trust = s.trust := rfl
@[simp] theorem State.modPackets_funcs (s : State) (f : SMap Packet → SMap Packet) : (s.modPackets f).funcs = s.funcs := rfl
@[simp] theorem State.modPackets_qps (s : State) (f : SMap Packet → SMap Packet) : (s.modPackets f).qps = s.qps := rfl
@[simp] theorem State.modPackets_spine (s : State) (f : SMap Packet → SMap Packet) : (s.modPackets f).spine = s.spine := rfl
@[simp] theorem State.modPackets_fallow (s : State) (f : SMap Packet → SMap Packet) : (s.modPackets f).fallow = s.fallow := rfl
@[simp] theorem State.modPackets_board (s : State) (f : SMap Packet → SMap Packet) : (s.modPackets f).board = s.board := rfl

/-! ### modTedder -/

@[simp] theorem State.modTedder_tedder (s : State) (f : TedderSt → TedderSt) : (s.modTedder f).tedder = f s.tedder := rfl
@[simp] theorem State.modTedder_pending (s : State) (f : TedderSt → TedderSt) : (s.modTedder f).pending = s.pending := rfl
@[simp] theorem State.modTedder_fresh (s : State) (f : TedderSt → TedderSt) : (s.modTedder f).fresh = s.fresh := rfl
@[simp] theorem State.modTedder_readData (s : State) (f : TedderSt → TedderSt) : (s.modTedder f).readData = s.readData := rfl
@[simp] theorem State.modTedder_variant (s : State) (f : TedderSt → TedderSt) : (s.modTedder f).variant = s.variant := rfl
@[simp] theorem State.modTedder_regs (s : State) (f : TedderSt → TedderSt) : (s.modTedder f).regs = s.regs := rfl
@[simp] theorem State.modTedder_gath (s : State) (f : TedderSt → TedderSt) : (s.modTedder f).gath = s.gath := rfl
@[simp] theorem State.modTedder_time (s : State) (f : TedderSt → TedderSt) : (s.modTedder f).time = s.time := rfl
@[simp] theorem State.modTedder_ev (s : State) (f : TedderSt → TedderSt) : (s.modTedder f).ev = s.ev := rfl
@[simp] theorem State.modTedder_reports (s : State) (f : TedderSt → TedderSt) : (s.modTedder f).reports = s.reports := rfl
@[simp] theorem State.modTedder_packets (s : State) (f : TedderSt → TedderSt) : (s.modTedder f).packets = s.packets := rfl
@[simp] theorem State.modTedder_nextPid (s : State) (f : TedderSt → TedderSt) : (s.modTedder f).nextPid = s.nextPid := rfl
@[simp] theorem State.modTedder_windrow (s : State) (f : TedderSt → TedderSt) : (s.modTedder f).windrow = s.windrow := rfl
@[simp] theorem State.modTedder_loft (s : State) (f : TedderSt → TedderSt) : (s.modTedder f).loft = s.loft := rfl
@[simp] theorem State.modTedder_kettle (s : State) (f : TedderSt → TedderSt) : (s.modTedder f).kettle = s.kettle := rfl
@[simp] theorem State.modTedder_ports (s : State) (f : TedderSt → TedderSt) : (s.modTedder f).ports = s.ports := rfl
@[simp] theorem State.modTedder_drover (s : State) (f : TedderSt → TedderSt) : (s.modTedder f).drover = s.drover := rfl
@[simp] theorem State.modTedder_commons (s : State) (f : TedderSt → TedderSt) : (s.modTedder f).commons = s.commons := rfl
@[simp] theorem State.modTedder_mower (s : State) (f : TedderSt → TedderSt) : (s.modTedder f).mower = s.mower := rfl
@[simp] theorem State.modTedder_mem (s : State) (f : TedderSt → TedderSt) : (s.modTedder f).mem = s.mem := rfl
@[simp] theorem State.modTedder_sheaf (s : State) (f : TedderSt → TedderSt) : (s.modTedder f).sheaf = s.sheaf := rfl
@[simp] theorem State.modTedder_ling (s : State) (f : TedderSt → TedderSt) : (s.modTedder f).ling = s.ling := rfl
@[simp] theorem State.modTedder_warren (s : State) (f : TedderSt → TedderSt) : (s.modTedder f).warren = s.warren := rfl
@[simp] theorem State.modTedder_threads (s : State) (f : TedderSt → TedderSt) : (s.modTedder f).threads = s.threads := rfl
@[simp] theorem State.modTedder_quires (s : State) (f : TedderSt → TedderSt) : (s.modTedder f).quires = s.quires := rfl
@[simp] theorem State.modTedder_keys (s : State) (f : TedderSt → TedderSt) : (s.modTedder f).keys = s.keys := rfl
@[simp] theorem State.modTedder_stile (s : State) (f : TedderSt → TedderSt) : (s.modTedder f).stile = s.stile := rfl
@[simp] theorem State.modTedder_trust (s : State) (f : TedderSt → TedderSt) : (s.modTedder f).trust = s.trust := rfl
@[simp] theorem State.modTedder_funcs (s : State) (f : TedderSt → TedderSt) : (s.modTedder f).funcs = s.funcs := rfl
@[simp] theorem State.modTedder_qps (s : State) (f : TedderSt → TedderSt) : (s.modTedder f).qps = s.qps := rfl
@[simp] theorem State.modTedder_spine (s : State) (f : TedderSt → TedderSt) : (s.modTedder f).spine = s.spine := rfl
@[simp] theorem State.modTedder_fallow (s : State) (f : TedderSt → TedderSt) : (s.modTedder f).fallow = s.fallow := rfl
@[simp] theorem State.modTedder_board (s : State) (f : TedderSt → TedderSt) : (s.modTedder f).board = s.board := rfl

/-! ### modWindrow -/

@[simp] theorem State.modWindrow_windrow (s : State) (f : WindrowSt → WindrowSt) : (s.modWindrow f).windrow = f s.windrow := rfl
@[simp] theorem State.modWindrow_pending (s : State) (f : WindrowSt → WindrowSt) : (s.modWindrow f).pending = s.pending := rfl
@[simp] theorem State.modWindrow_fresh (s : State) (f : WindrowSt → WindrowSt) : (s.modWindrow f).fresh = s.fresh := rfl
@[simp] theorem State.modWindrow_readData (s : State) (f : WindrowSt → WindrowSt) : (s.modWindrow f).readData = s.readData := rfl
@[simp] theorem State.modWindrow_variant (s : State) (f : WindrowSt → WindrowSt) : (s.modWindrow f).variant = s.variant := rfl
@[simp] theorem State.modWindrow_regs (s : State) (f : WindrowSt → WindrowSt) : (s.modWindrow f).regs = s.regs := rfl
@[simp] theorem State.modWindrow_gath (s : State) (f : WindrowSt → WindrowSt) : (s.modWindrow f).gath = s.gath := rfl
@[simp] theorem State.modWindrow_time (s : State) (f : WindrowSt → WindrowSt) : (s.modWindrow f).time = s.time := rfl
@[simp] theorem State.modWindrow_ev (s : State) (f : WindrowSt → WindrowSt) : (s.modWindrow f).ev = s.ev := rfl
@[simp] theorem State.modWindrow_reports (s : State) (f : WindrowSt → WindrowSt) : (s.modWindrow f).reports = s.reports := rfl
@[simp] theorem State.modWindrow_packets (s : State) (f : WindrowSt → WindrowSt) : (s.modWindrow f).packets = s.packets := rfl
@[simp] theorem State.modWindrow_nextPid (s : State) (f : WindrowSt → WindrowSt) : (s.modWindrow f).nextPid = s.nextPid := rfl
@[simp] theorem State.modWindrow_tedder (s : State) (f : WindrowSt → WindrowSt) : (s.modWindrow f).tedder = s.tedder := rfl
@[simp] theorem State.modWindrow_loft (s : State) (f : WindrowSt → WindrowSt) : (s.modWindrow f).loft = s.loft := rfl
@[simp] theorem State.modWindrow_kettle (s : State) (f : WindrowSt → WindrowSt) : (s.modWindrow f).kettle = s.kettle := rfl
@[simp] theorem State.modWindrow_ports (s : State) (f : WindrowSt → WindrowSt) : (s.modWindrow f).ports = s.ports := rfl
@[simp] theorem State.modWindrow_drover (s : State) (f : WindrowSt → WindrowSt) : (s.modWindrow f).drover = s.drover := rfl
@[simp] theorem State.modWindrow_commons (s : State) (f : WindrowSt → WindrowSt) : (s.modWindrow f).commons = s.commons := rfl
@[simp] theorem State.modWindrow_mower (s : State) (f : WindrowSt → WindrowSt) : (s.modWindrow f).mower = s.mower := rfl
@[simp] theorem State.modWindrow_mem (s : State) (f : WindrowSt → WindrowSt) : (s.modWindrow f).mem = s.mem := rfl
@[simp] theorem State.modWindrow_sheaf (s : State) (f : WindrowSt → WindrowSt) : (s.modWindrow f).sheaf = s.sheaf := rfl
@[simp] theorem State.modWindrow_ling (s : State) (f : WindrowSt → WindrowSt) : (s.modWindrow f).ling = s.ling := rfl
@[simp] theorem State.modWindrow_warren (s : State) (f : WindrowSt → WindrowSt) : (s.modWindrow f).warren = s.warren := rfl
@[simp] theorem State.modWindrow_threads (s : State) (f : WindrowSt → WindrowSt) : (s.modWindrow f).threads = s.threads := rfl
@[simp] theorem State.modWindrow_quires (s : State) (f : WindrowSt → WindrowSt) : (s.modWindrow f).quires = s.quires := rfl
@[simp] theorem State.modWindrow_keys (s : State) (f : WindrowSt → WindrowSt) : (s.modWindrow f).keys = s.keys := rfl
@[simp] theorem State.modWindrow_stile (s : State) (f : WindrowSt → WindrowSt) : (s.modWindrow f).stile = s.stile := rfl
@[simp] theorem State.modWindrow_trust (s : State) (f : WindrowSt → WindrowSt) : (s.modWindrow f).trust = s.trust := rfl
@[simp] theorem State.modWindrow_funcs (s : State) (f : WindrowSt → WindrowSt) : (s.modWindrow f).funcs = s.funcs := rfl
@[simp] theorem State.modWindrow_qps (s : State) (f : WindrowSt → WindrowSt) : (s.modWindrow f).qps = s.qps := rfl
@[simp] theorem State.modWindrow_spine (s : State) (f : WindrowSt → WindrowSt) : (s.modWindrow f).spine = s.spine := rfl
@[simp] theorem State.modWindrow_fallow (s : State) (f : WindrowSt → WindrowSt) : (s.modWindrow f).fallow = s.fallow := rfl
@[simp] theorem State.modWindrow_board (s : State) (f : WindrowSt → WindrowSt) : (s.modWindrow f).board = s.board := rfl

/-! ### modLoft -/

@[simp] theorem State.modLoft_loft (s : State) (f : LoftSt → LoftSt) : (s.modLoft f).loft = f s.loft := rfl
@[simp] theorem State.modLoft_pending (s : State) (f : LoftSt → LoftSt) : (s.modLoft f).pending = s.pending := rfl
@[simp] theorem State.modLoft_fresh (s : State) (f : LoftSt → LoftSt) : (s.modLoft f).fresh = s.fresh := rfl
@[simp] theorem State.modLoft_readData (s : State) (f : LoftSt → LoftSt) : (s.modLoft f).readData = s.readData := rfl
@[simp] theorem State.modLoft_variant (s : State) (f : LoftSt → LoftSt) : (s.modLoft f).variant = s.variant := rfl
@[simp] theorem State.modLoft_regs (s : State) (f : LoftSt → LoftSt) : (s.modLoft f).regs = s.regs := rfl
@[simp] theorem State.modLoft_gath (s : State) (f : LoftSt → LoftSt) : (s.modLoft f).gath = s.gath := rfl
@[simp] theorem State.modLoft_time (s : State) (f : LoftSt → LoftSt) : (s.modLoft f).time = s.time := rfl
@[simp] theorem State.modLoft_ev (s : State) (f : LoftSt → LoftSt) : (s.modLoft f).ev = s.ev := rfl
@[simp] theorem State.modLoft_reports (s : State) (f : LoftSt → LoftSt) : (s.modLoft f).reports = s.reports := rfl
@[simp] theorem State.modLoft_packets (s : State) (f : LoftSt → LoftSt) : (s.modLoft f).packets = s.packets := rfl
@[simp] theorem State.modLoft_nextPid (s : State) (f : LoftSt → LoftSt) : (s.modLoft f).nextPid = s.nextPid := rfl
@[simp] theorem State.modLoft_tedder (s : State) (f : LoftSt → LoftSt) : (s.modLoft f).tedder = s.tedder := rfl
@[simp] theorem State.modLoft_windrow (s : State) (f : LoftSt → LoftSt) : (s.modLoft f).windrow = s.windrow := rfl
@[simp] theorem State.modLoft_kettle (s : State) (f : LoftSt → LoftSt) : (s.modLoft f).kettle = s.kettle := rfl
@[simp] theorem State.modLoft_ports (s : State) (f : LoftSt → LoftSt) : (s.modLoft f).ports = s.ports := rfl
@[simp] theorem State.modLoft_drover (s : State) (f : LoftSt → LoftSt) : (s.modLoft f).drover = s.drover := rfl
@[simp] theorem State.modLoft_commons (s : State) (f : LoftSt → LoftSt) : (s.modLoft f).commons = s.commons := rfl
@[simp] theorem State.modLoft_mower (s : State) (f : LoftSt → LoftSt) : (s.modLoft f).mower = s.mower := rfl
@[simp] theorem State.modLoft_mem (s : State) (f : LoftSt → LoftSt) : (s.modLoft f).mem = s.mem := rfl
@[simp] theorem State.modLoft_sheaf (s : State) (f : LoftSt → LoftSt) : (s.modLoft f).sheaf = s.sheaf := rfl
@[simp] theorem State.modLoft_ling (s : State) (f : LoftSt → LoftSt) : (s.modLoft f).ling = s.ling := rfl
@[simp] theorem State.modLoft_warren (s : State) (f : LoftSt → LoftSt) : (s.modLoft f).warren = s.warren := rfl
@[simp] theorem State.modLoft_threads (s : State) (f : LoftSt → LoftSt) : (s.modLoft f).threads = s.threads := rfl
@[simp] theorem State.modLoft_quires (s : State) (f : LoftSt → LoftSt) : (s.modLoft f).quires = s.quires := rfl
@[simp] theorem State.modLoft_keys (s : State) (f : LoftSt → LoftSt) : (s.modLoft f).keys = s.keys := rfl
@[simp] theorem State.modLoft_stile (s : State) (f : LoftSt → LoftSt) : (s.modLoft f).stile = s.stile := rfl
@[simp] theorem State.modLoft_trust (s : State) (f : LoftSt → LoftSt) : (s.modLoft f).trust = s.trust := rfl
@[simp] theorem State.modLoft_funcs (s : State) (f : LoftSt → LoftSt) : (s.modLoft f).funcs = s.funcs := rfl
@[simp] theorem State.modLoft_qps (s : State) (f : LoftSt → LoftSt) : (s.modLoft f).qps = s.qps := rfl
@[simp] theorem State.modLoft_spine (s : State) (f : LoftSt → LoftSt) : (s.modLoft f).spine = s.spine := rfl
@[simp] theorem State.modLoft_fallow (s : State) (f : LoftSt → LoftSt) : (s.modLoft f).fallow = s.fallow := rfl
@[simp] theorem State.modLoft_board (s : State) (f : LoftSt → LoftSt) : (s.modLoft f).board = s.board := rfl

/-! ### modKettle -/

@[simp] theorem State.modKettle_kettle (s : State) (f : KettleSt → KettleSt) : (s.modKettle f).kettle = f s.kettle := rfl
@[simp] theorem State.modKettle_pending (s : State) (f : KettleSt → KettleSt) : (s.modKettle f).pending = s.pending := rfl
@[simp] theorem State.modKettle_fresh (s : State) (f : KettleSt → KettleSt) : (s.modKettle f).fresh = s.fresh := rfl
@[simp] theorem State.modKettle_readData (s : State) (f : KettleSt → KettleSt) : (s.modKettle f).readData = s.readData := rfl
@[simp] theorem State.modKettle_variant (s : State) (f : KettleSt → KettleSt) : (s.modKettle f).variant = s.variant := rfl
@[simp] theorem State.modKettle_regs (s : State) (f : KettleSt → KettleSt) : (s.modKettle f).regs = s.regs := rfl
@[simp] theorem State.modKettle_gath (s : State) (f : KettleSt → KettleSt) : (s.modKettle f).gath = s.gath := rfl
@[simp] theorem State.modKettle_time (s : State) (f : KettleSt → KettleSt) : (s.modKettle f).time = s.time := rfl
@[simp] theorem State.modKettle_ev (s : State) (f : KettleSt → KettleSt) : (s.modKettle f).ev = s.ev := rfl
@[simp] theorem State.modKettle_reports (s : State) (f : KettleSt → KettleSt) : (s.modKettle f).reports = s.reports := rfl
@[simp] theorem State.modKettle_packets (s : State) (f : KettleSt → KettleSt) : (s.modKettle f).packets = s.packets := rfl
@[simp] theorem State.modKettle_nextPid (s : State) (f : KettleSt → KettleSt) : (s.modKettle f).nextPid = s.nextPid := rfl
@[simp] theorem State.modKettle_tedder (s : State) (f : KettleSt → KettleSt) : (s.modKettle f).tedder = s.tedder := rfl
@[simp] theorem State.modKettle_windrow (s : State) (f : KettleSt → KettleSt) : (s.modKettle f).windrow = s.windrow := rfl
@[simp] theorem State.modKettle_loft (s : State) (f : KettleSt → KettleSt) : (s.modKettle f).loft = s.loft := rfl
@[simp] theorem State.modKettle_ports (s : State) (f : KettleSt → KettleSt) : (s.modKettle f).ports = s.ports := rfl
@[simp] theorem State.modKettle_drover (s : State) (f : KettleSt → KettleSt) : (s.modKettle f).drover = s.drover := rfl
@[simp] theorem State.modKettle_commons (s : State) (f : KettleSt → KettleSt) : (s.modKettle f).commons = s.commons := rfl
@[simp] theorem State.modKettle_mower (s : State) (f : KettleSt → KettleSt) : (s.modKettle f).mower = s.mower := rfl
@[simp] theorem State.modKettle_mem (s : State) (f : KettleSt → KettleSt) : (s.modKettle f).mem = s.mem := rfl
@[simp] theorem State.modKettle_sheaf (s : State) (f : KettleSt → KettleSt) : (s.modKettle f).sheaf = s.sheaf := rfl
@[simp] theorem State.modKettle_ling (s : State) (f : KettleSt → KettleSt) : (s.modKettle f).ling = s.ling := rfl
@[simp] theorem State.modKettle_warren (s : State) (f : KettleSt → KettleSt) : (s.modKettle f).warren = s.warren := rfl
@[simp] theorem State.modKettle_threads (s : State) (f : KettleSt → KettleSt) : (s.modKettle f).threads = s.threads := rfl
@[simp] theorem State.modKettle_quires (s : State) (f : KettleSt → KettleSt) : (s.modKettle f).quires = s.quires := rfl
@[simp] theorem State.modKettle_keys (s : State) (f : KettleSt → KettleSt) : (s.modKettle f).keys = s.keys := rfl
@[simp] theorem State.modKettle_stile (s : State) (f : KettleSt → KettleSt) : (s.modKettle f).stile = s.stile := rfl
@[simp] theorem State.modKettle_trust (s : State) (f : KettleSt → KettleSt) : (s.modKettle f).trust = s.trust := rfl
@[simp] theorem State.modKettle_funcs (s : State) (f : KettleSt → KettleSt) : (s.modKettle f).funcs = s.funcs := rfl
@[simp] theorem State.modKettle_qps (s : State) (f : KettleSt → KettleSt) : (s.modKettle f).qps = s.qps := rfl
@[simp] theorem State.modKettle_spine (s : State) (f : KettleSt → KettleSt) : (s.modKettle f).spine = s.spine := rfl
@[simp] theorem State.modKettle_fallow (s : State) (f : KettleSt → KettleSt) : (s.modKettle f).fallow = s.fallow := rfl
@[simp] theorem State.modKettle_board (s : State) (f : KettleSt → KettleSt) : (s.modKettle f).board = s.board := rfl

/-! ### modPorts -/

@[simp] theorem State.modPorts_ports (s : State) (f : SMap PortSt → SMap PortSt) : (s.modPorts f).ports = f s.ports := rfl
@[simp] theorem State.modPorts_pending (s : State) (f : SMap PortSt → SMap PortSt) : (s.modPorts f).pending = s.pending := rfl
@[simp] theorem State.modPorts_fresh (s : State) (f : SMap PortSt → SMap PortSt) : (s.modPorts f).fresh = s.fresh := rfl
@[simp] theorem State.modPorts_readData (s : State) (f : SMap PortSt → SMap PortSt) : (s.modPorts f).readData = s.readData := rfl
@[simp] theorem State.modPorts_variant (s : State) (f : SMap PortSt → SMap PortSt) : (s.modPorts f).variant = s.variant := rfl
@[simp] theorem State.modPorts_regs (s : State) (f : SMap PortSt → SMap PortSt) : (s.modPorts f).regs = s.regs := rfl
@[simp] theorem State.modPorts_gath (s : State) (f : SMap PortSt → SMap PortSt) : (s.modPorts f).gath = s.gath := rfl
@[simp] theorem State.modPorts_time (s : State) (f : SMap PortSt → SMap PortSt) : (s.modPorts f).time = s.time := rfl
@[simp] theorem State.modPorts_ev (s : State) (f : SMap PortSt → SMap PortSt) : (s.modPorts f).ev = s.ev := rfl
@[simp] theorem State.modPorts_reports (s : State) (f : SMap PortSt → SMap PortSt) : (s.modPorts f).reports = s.reports := rfl
@[simp] theorem State.modPorts_packets (s : State) (f : SMap PortSt → SMap PortSt) : (s.modPorts f).packets = s.packets := rfl
@[simp] theorem State.modPorts_nextPid (s : State) (f : SMap PortSt → SMap PortSt) : (s.modPorts f).nextPid = s.nextPid := rfl
@[simp] theorem State.modPorts_tedder (s : State) (f : SMap PortSt → SMap PortSt) : (s.modPorts f).tedder = s.tedder := rfl
@[simp] theorem State.modPorts_windrow (s : State) (f : SMap PortSt → SMap PortSt) : (s.modPorts f).windrow = s.windrow := rfl
@[simp] theorem State.modPorts_loft (s : State) (f : SMap PortSt → SMap PortSt) : (s.modPorts f).loft = s.loft := rfl
@[simp] theorem State.modPorts_kettle (s : State) (f : SMap PortSt → SMap PortSt) : (s.modPorts f).kettle = s.kettle := rfl
@[simp] theorem State.modPorts_drover (s : State) (f : SMap PortSt → SMap PortSt) : (s.modPorts f).drover = s.drover := rfl
@[simp] theorem State.modPorts_commons (s : State) (f : SMap PortSt → SMap PortSt) : (s.modPorts f).commons = s.commons := rfl
@[simp] theorem State.modPorts_mower (s : State) (f : SMap PortSt → SMap PortSt) : (s.modPorts f).mower = s.mower := rfl
@[simp] theorem State.modPorts_mem (s : State) (f : SMap PortSt → SMap PortSt) : (s.modPorts f).mem = s.mem := rfl
@[simp] theorem State.modPorts_sheaf (s : State) (f : SMap PortSt → SMap PortSt) : (s.modPorts f).sheaf = s.sheaf := rfl
@[simp] theorem State.modPorts_ling (s : State) (f : SMap PortSt → SMap PortSt) : (s.modPorts f).ling = s.ling := rfl
@[simp] theorem State.modPorts_warren (s : State) (f : SMap PortSt → SMap PortSt) : (s.modPorts f).warren = s.warren := rfl
@[simp] theorem State.modPorts_threads (s : State) (f : SMap PortSt → SMap PortSt) : (s.modPorts f).threads = s.threads := rfl
@[simp] theorem State.modPorts_quires (s : State) (f : SMap PortSt → SMap PortSt) : (s.modPorts f).quires = s.quires := rfl
@[simp] theorem State.modPorts_keys (s : State) (f : SMap PortSt → SMap PortSt) : (s.modPorts f).keys = s.keys := rfl
@[simp] theorem State.modPorts_stile (s : State) (f : SMap PortSt → SMap PortSt) : (s.modPorts f).stile = s.stile := rfl
@[simp] theorem State.modPorts_trust (s : State) (f : SMap PortSt → SMap PortSt) : (s.modPorts f).trust = s.trust := rfl
@[simp] theorem State.modPorts_funcs (s : State) (f : SMap PortSt → SMap PortSt) : (s.modPorts f).funcs = s.funcs := rfl
@[simp] theorem State.modPorts_qps (s : State) (f : SMap PortSt → SMap PortSt) : (s.modPorts f).qps = s.qps := rfl
@[simp] theorem State.modPorts_spine (s : State) (f : SMap PortSt → SMap PortSt) : (s.modPorts f).spine = s.spine := rfl
@[simp] theorem State.modPorts_fallow (s : State) (f : SMap PortSt → SMap PortSt) : (s.modPorts f).fallow = s.fallow := rfl
@[simp] theorem State.modPorts_board (s : State) (f : SMap PortSt → SMap PortSt) : (s.modPorts f).board = s.board := rfl

/-! ### modDrover -/

@[simp] theorem State.modDrover_drover (s : State) (f : DroverSt → DroverSt) : (s.modDrover f).drover = f s.drover := rfl
@[simp] theorem State.modDrover_pending (s : State) (f : DroverSt → DroverSt) : (s.modDrover f).pending = s.pending := rfl
@[simp] theorem State.modDrover_fresh (s : State) (f : DroverSt → DroverSt) : (s.modDrover f).fresh = s.fresh := rfl
@[simp] theorem State.modDrover_readData (s : State) (f : DroverSt → DroverSt) : (s.modDrover f).readData = s.readData := rfl
@[simp] theorem State.modDrover_variant (s : State) (f : DroverSt → DroverSt) : (s.modDrover f).variant = s.variant := rfl
@[simp] theorem State.modDrover_regs (s : State) (f : DroverSt → DroverSt) : (s.modDrover f).regs = s.regs := rfl
@[simp] theorem State.modDrover_gath (s : State) (f : DroverSt → DroverSt) : (s.modDrover f).gath = s.gath := rfl
@[simp] theorem State.modDrover_time (s : State) (f : DroverSt → DroverSt) : (s.modDrover f).time = s.time := rfl
@[simp] theorem State.modDrover_ev (s : State) (f : DroverSt → DroverSt) : (s.modDrover f).ev = s.ev := rfl
@[simp] theorem State.modDrover_reports (s : State) (f : DroverSt → DroverSt) : (s.modDrover f).reports = s.reports := rfl
@[simp] theorem State.modDrover_packets (s : State) (f : DroverSt → DroverSt) : (s.modDrover f).packets = s.packets := rfl
@[simp] theorem State.modDrover_nextPid (s : State) (f : DroverSt → DroverSt) : (s.modDrover f).nextPid = s.nextPid := rfl
@[simp] theorem State.modDrover_tedder (s : State) (f : DroverSt → DroverSt) : (s.modDrover f).tedder = s.tedder := rfl
@[simp] theorem State.modDrover_windrow (s : State) (f : DroverSt → DroverSt) : (s.modDrover f).windrow = s.windrow := rfl
@[simp] theorem State.modDrover_loft (s : State) (f : DroverSt → DroverSt) : (s.modDrover f).loft = s.loft := rfl
@[simp] theorem State.modDrover_kettle (s : State) (f : DroverSt → DroverSt) : (s.modDrover f).kettle = s.kettle := rfl
@[simp] theorem State.modDrover_ports (s : State) (f : DroverSt → DroverSt) : (s.modDrover f).ports = s.ports := rfl
@[simp] theorem State.modDrover_commons (s : State) (f : DroverSt → DroverSt) : (s.modDrover f).commons = s.commons := rfl
@[simp] theorem State.modDrover_mower (s : State) (f : DroverSt → DroverSt) : (s.modDrover f).mower = s.mower := rfl
@[simp] theorem State.modDrover_mem (s : State) (f : DroverSt → DroverSt) : (s.modDrover f).mem = s.mem := rfl
@[simp] theorem State.modDrover_sheaf (s : State) (f : DroverSt → DroverSt) : (s.modDrover f).sheaf = s.sheaf := rfl
@[simp] theorem State.modDrover_ling (s : State) (f : DroverSt → DroverSt) : (s.modDrover f).ling = s.ling := rfl
@[simp] theorem State.modDrover_warren (s : State) (f : DroverSt → DroverSt) : (s.modDrover f).warren = s.warren := rfl
@[simp] theorem State.modDrover_threads (s : State) (f : DroverSt → DroverSt) : (s.modDrover f).threads = s.threads := rfl
@[simp] theorem State.modDrover_quires (s : State) (f : DroverSt → DroverSt) : (s.modDrover f).quires = s.quires := rfl
@[simp] theorem State.modDrover_keys (s : State) (f : DroverSt → DroverSt) : (s.modDrover f).keys = s.keys := rfl
@[simp] theorem State.modDrover_stile (s : State) (f : DroverSt → DroverSt) : (s.modDrover f).stile = s.stile := rfl
@[simp] theorem State.modDrover_trust (s : State) (f : DroverSt → DroverSt) : (s.modDrover f).trust = s.trust := rfl
@[simp] theorem State.modDrover_funcs (s : State) (f : DroverSt → DroverSt) : (s.modDrover f).funcs = s.funcs := rfl
@[simp] theorem State.modDrover_qps (s : State) (f : DroverSt → DroverSt) : (s.modDrover f).qps = s.qps := rfl
@[simp] theorem State.modDrover_spine (s : State) (f : DroverSt → DroverSt) : (s.modDrover f).spine = s.spine := rfl
@[simp] theorem State.modDrover_fallow (s : State) (f : DroverSt → DroverSt) : (s.modDrover f).fallow = s.fallow := rfl
@[simp] theorem State.modDrover_board (s : State) (f : DroverSt → DroverSt) : (s.modDrover f).board = s.board := rfl

/-! ### modCommons -/

@[simp] theorem State.modCommons_commons (s : State) (f : CommonsSt → CommonsSt) : (s.modCommons f).commons = f s.commons := rfl
@[simp] theorem State.modCommons_pending (s : State) (f : CommonsSt → CommonsSt) : (s.modCommons f).pending = s.pending := rfl
@[simp] theorem State.modCommons_fresh (s : State) (f : CommonsSt → CommonsSt) : (s.modCommons f).fresh = s.fresh := rfl
@[simp] theorem State.modCommons_readData (s : State) (f : CommonsSt → CommonsSt) : (s.modCommons f).readData = s.readData := rfl
@[simp] theorem State.modCommons_variant (s : State) (f : CommonsSt → CommonsSt) : (s.modCommons f).variant = s.variant := rfl
@[simp] theorem State.modCommons_regs (s : State) (f : CommonsSt → CommonsSt) : (s.modCommons f).regs = s.regs := rfl
@[simp] theorem State.modCommons_gath (s : State) (f : CommonsSt → CommonsSt) : (s.modCommons f).gath = s.gath := rfl
@[simp] theorem State.modCommons_time (s : State) (f : CommonsSt → CommonsSt) : (s.modCommons f).time = s.time := rfl
@[simp] theorem State.modCommons_ev (s : State) (f : CommonsSt → CommonsSt) : (s.modCommons f).ev = s.ev := rfl
@[simp] theorem State.modCommons_reports (s : State) (f : CommonsSt → CommonsSt) : (s.modCommons f).reports = s.reports := rfl
@[simp] theorem State.modCommons_packets (s : State) (f : CommonsSt → CommonsSt) : (s.modCommons f).packets = s.packets := rfl
@[simp] theorem State.modCommons_nextPid (s : State) (f : CommonsSt → CommonsSt) : (s.modCommons f).nextPid = s.nextPid := rfl
@[simp] theorem State.modCommons_tedder (s : State) (f : CommonsSt → CommonsSt) : (s.modCommons f).tedder = s.tedder := rfl
@[simp] theorem State.modCommons_windrow (s : State) (f : CommonsSt → CommonsSt) : (s.modCommons f).windrow = s.windrow := rfl
@[simp] theorem State.modCommons_loft (s : State) (f : CommonsSt → CommonsSt) : (s.modCommons f).loft = s.loft := rfl
@[simp] theorem State.modCommons_kettle (s : State) (f : CommonsSt → CommonsSt) : (s.modCommons f).kettle = s.kettle := rfl
@[simp] theorem State.modCommons_ports (s : State) (f : CommonsSt → CommonsSt) : (s.modCommons f).ports = s.ports := rfl
@[simp] theorem State.modCommons_drover (s : State) (f : CommonsSt → CommonsSt) : (s.modCommons f).drover = s.drover := rfl
@[simp] theorem State.modCommons_mower (s : State) (f : CommonsSt → CommonsSt) : (s.modCommons f).mower = s.mower := rfl
@[simp] theorem State.modCommons_mem (s : State) (f : CommonsSt → CommonsSt) : (s.modCommons f).mem = s.mem := rfl
@[simp] theorem State.modCommons_sheaf (s : State) (f : CommonsSt → CommonsSt) : (s.modCommons f).sheaf = s.sheaf := rfl
@[simp] theorem State.modCommons_ling (s : State) (f : CommonsSt → CommonsSt) : (s.modCommons f).ling = s.ling := rfl
@[simp] theorem State.modCommons_warren (s : State) (f : CommonsSt → CommonsSt) : (s.modCommons f).warren = s.warren := rfl
@[simp] theorem State.modCommons_threads (s : State) (f : CommonsSt → CommonsSt) : (s.modCommons f).threads = s.threads := rfl
@[simp] theorem State.modCommons_quires (s : State) (f : CommonsSt → CommonsSt) : (s.modCommons f).quires = s.quires := rfl
@[simp] theorem State.modCommons_keys (s : State) (f : CommonsSt → CommonsSt) : (s.modCommons f).keys = s.keys := rfl
@[simp] theorem State.modCommons_stile (s : State) (f : CommonsSt → CommonsSt) : (s.modCommons f).stile = s.stile := rfl
@[simp] theorem State.modCommons_trust (s : State) (f : CommonsSt → CommonsSt) : (s.modCommons f).trust = s.trust := rfl
@[simp] theorem State.modCommons_funcs (s : State) (f : CommonsSt → CommonsSt) : (s.modCommons f).funcs = s.funcs := rfl
@[simp] theorem State.modCommons_qps (s : State) (f : CommonsSt → CommonsSt) : (s.modCommons f).qps = s.qps := rfl
@[simp] theorem State.modCommons_spine (s : State) (f : CommonsSt → CommonsSt) : (s.modCommons f).spine = s.spine := rfl
@[simp] theorem State.modCommons_fallow (s : State) (f : CommonsSt → CommonsSt) : (s.modCommons f).fallow = s.fallow := rfl
@[simp] theorem State.modCommons_board (s : State) (f : CommonsSt → CommonsSt) : (s.modCommons f).board = s.board := rfl

/-! ### modMower -/

@[simp] theorem State.modMower_mower (s : State) (f : MowerSt → MowerSt) : (s.modMower f).mower = f s.mower := rfl
@[simp] theorem State.modMower_pending (s : State) (f : MowerSt → MowerSt) : (s.modMower f).pending = s.pending := rfl
@[simp] theorem State.modMower_fresh (s : State) (f : MowerSt → MowerSt) : (s.modMower f).fresh = s.fresh := rfl
@[simp] theorem State.modMower_readData (s : State) (f : MowerSt → MowerSt) : (s.modMower f).readData = s.readData := rfl
@[simp] theorem State.modMower_variant (s : State) (f : MowerSt → MowerSt) : (s.modMower f).variant = s.variant := rfl
@[simp] theorem State.modMower_regs (s : State) (f : MowerSt → MowerSt) : (s.modMower f).regs = s.regs := rfl
@[simp] theorem State.modMower_gath (s : State) (f : MowerSt → MowerSt) : (s.modMower f).gath = s.gath := rfl
@[simp] theorem State.modMower_time (s : State) (f : MowerSt → MowerSt) : (s.modMower f).time = s.time := rfl
@[simp] theorem State.modMower_ev (s : State) (f : MowerSt → MowerSt) : (s.modMower f).ev = s.ev := rfl
@[simp] theorem State.modMower_reports (s : State) (f : MowerSt → MowerSt) : (s.modMower f).reports = s.reports := rfl
@[simp] theorem State.modMower_packets (s : State) (f : MowerSt → MowerSt) : (s.modMower f).packets = s.packets := rfl
@[simp] theorem State.modMower_nextPid (s : State) (f : MowerSt → MowerSt) : (s.modMower f).nextPid = s.nextPid := rfl
@[simp] theorem State.modMower_tedder (s : State) (f : MowerSt → MowerSt) : (s.modMower f).tedder = s.tedder := rfl
@[simp] theorem State.modMower_windrow (s : State) (f : MowerSt → MowerSt) : (s.modMower f).windrow = s.windrow := rfl
@[simp] theorem State.modMower_loft (s : State) (f : MowerSt → MowerSt) : (s.modMower f).loft = s.loft := rfl
@[simp] theorem State.modMower_kettle (s : State) (f : MowerSt → MowerSt) : (s.modMower f).kettle = s.kettle := rfl
@[simp] theorem State.modMower_ports (s : State) (f : MowerSt → MowerSt) : (s.modMower f).ports = s.ports := rfl
@[simp] theorem State.modMower_drover (s : State) (f : MowerSt → MowerSt) : (s.modMower f).drover = s.drover := rfl
@[simp] theorem State.modMower_commons (s : State) (f : MowerSt → MowerSt) : (s.modMower f).commons = s.commons := rfl
@[simp] theorem State.modMower_mem (s : State) (f : MowerSt → MowerSt) : (s.modMower f).mem = s.mem := rfl
@[simp] theorem State.modMower_sheaf (s : State) (f : MowerSt → MowerSt) : (s.modMower f).sheaf = s.sheaf := rfl
@[simp] theorem State.modMower_ling (s : State) (f : MowerSt → MowerSt) : (s.modMower f).ling = s.ling := rfl
@[simp] theorem State.modMower_warren (s : State) (f : MowerSt → MowerSt) : (s.modMower f).warren = s.warren := rfl
@[simp] theorem State.modMower_threads (s : State) (f : MowerSt → MowerSt) : (s.modMower f).threads = s.threads := rfl
@[simp] theorem State.modMower_quires (s : State) (f : MowerSt → MowerSt) : (s.modMower f).quires = s.quires := rfl
@[simp] theorem State.modMower_keys (s : State) (f : MowerSt → MowerSt) : (s.modMower f).keys = s.keys := rfl
@[simp] theorem State.modMower_stile (s : State) (f : MowerSt → MowerSt) : (s.modMower f).stile = s.stile := rfl
@[simp] theorem State.modMower_trust (s : State) (f : MowerSt → MowerSt) : (s.modMower f).trust = s.trust := rfl
@[simp] theorem State.modMower_funcs (s : State) (f : MowerSt → MowerSt) : (s.modMower f).funcs = s.funcs := rfl
@[simp] theorem State.modMower_qps (s : State) (f : MowerSt → MowerSt) : (s.modMower f).qps = s.qps := rfl
@[simp] theorem State.modMower_spine (s : State) (f : MowerSt → MowerSt) : (s.modMower f).spine = s.spine := rfl
@[simp] theorem State.modMower_fallow (s : State) (f : MowerSt → MowerSt) : (s.modMower f).fallow = s.fallow := rfl
@[simp] theorem State.modMower_board (s : State) (f : MowerSt → MowerSt) : (s.modMower f).board = s.board := rfl

/-! ### modMem -/

@[simp] theorem State.modMem_mem (s : State) (f : MemSt → MemSt) : (s.modMem f).mem = f s.mem := rfl
@[simp] theorem State.modMem_pending (s : State) (f : MemSt → MemSt) : (s.modMem f).pending = s.pending := rfl
@[simp] theorem State.modMem_fresh (s : State) (f : MemSt → MemSt) : (s.modMem f).fresh = s.fresh := rfl
@[simp] theorem State.modMem_readData (s : State) (f : MemSt → MemSt) : (s.modMem f).readData = s.readData := rfl
@[simp] theorem State.modMem_variant (s : State) (f : MemSt → MemSt) : (s.modMem f).variant = s.variant := rfl
@[simp] theorem State.modMem_regs (s : State) (f : MemSt → MemSt) : (s.modMem f).regs = s.regs := rfl
@[simp] theorem State.modMem_gath (s : State) (f : MemSt → MemSt) : (s.modMem f).gath = s.gath := rfl
@[simp] theorem State.modMem_time (s : State) (f : MemSt → MemSt) : (s.modMem f).time = s.time := rfl
@[simp] theorem State.modMem_ev (s : State) (f : MemSt → MemSt) : (s.modMem f).ev = s.ev := rfl
@[simp] theorem State.modMem_reports (s : State) (f : MemSt → MemSt) : (s.modMem f).reports = s.reports := rfl
@[simp] theorem State.modMem_packets (s : State) (f : MemSt → MemSt) : (s.modMem f).packets = s.packets := rfl
@[simp] theorem State.modMem_nextPid (s : State) (f : MemSt → MemSt) : (s.modMem f).nextPid = s.nextPid := rfl
@[simp] theorem State.modMem_tedder (s : State) (f : MemSt → MemSt) : (s.modMem f).tedder = s.tedder := rfl
@[simp] theorem State.modMem_windrow (s : State) (f : MemSt → MemSt) : (s.modMem f).windrow = s.windrow := rfl
@[simp] theorem State.modMem_loft (s : State) (f : MemSt → MemSt) : (s.modMem f).loft = s.loft := rfl
@[simp] theorem State.modMem_kettle (s : State) (f : MemSt → MemSt) : (s.modMem f).kettle = s.kettle := rfl
@[simp] theorem State.modMem_ports (s : State) (f : MemSt → MemSt) : (s.modMem f).ports = s.ports := rfl
@[simp] theorem State.modMem_drover (s : State) (f : MemSt → MemSt) : (s.modMem f).drover = s.drover := rfl
@[simp] theorem State.modMem_commons (s : State) (f : MemSt → MemSt) : (s.modMem f).commons = s.commons := rfl
@[simp] theorem State.modMem_mower (s : State) (f : MemSt → MemSt) : (s.modMem f).mower = s.mower := rfl
@[simp] theorem State.modMem_sheaf (s : State) (f : MemSt → MemSt) : (s.modMem f).sheaf = s.sheaf := rfl
@[simp] theorem State.modMem_ling (s : State) (f : MemSt → MemSt) : (s.modMem f).ling = s.ling := rfl
@[simp] theorem State.modMem_warren (s : State) (f : MemSt → MemSt) : (s.modMem f).warren = s.warren := rfl
@[simp] theorem State.modMem_threads (s : State) (f : MemSt → MemSt) : (s.modMem f).threads = s.threads := rfl
@[simp] theorem State.modMem_quires (s : State) (f : MemSt → MemSt) : (s.modMem f).quires = s.quires := rfl
@[simp] theorem State.modMem_keys (s : State) (f : MemSt → MemSt) : (s.modMem f).keys = s.keys := rfl
@[simp] theorem State.modMem_stile (s : State) (f : MemSt → MemSt) : (s.modMem f).stile = s.stile := rfl
@[simp] theorem State.modMem_trust (s : State) (f : MemSt → MemSt) : (s.modMem f).trust = s.trust := rfl
@[simp] theorem State.modMem_funcs (s : State) (f : MemSt → MemSt) : (s.modMem f).funcs = s.funcs := rfl
@[simp] theorem State.modMem_qps (s : State) (f : MemSt → MemSt) : (s.modMem f).qps = s.qps := rfl
@[simp] theorem State.modMem_spine (s : State) (f : MemSt → MemSt) : (s.modMem f).spine = s.spine := rfl
@[simp] theorem State.modMem_fallow (s : State) (f : MemSt → MemSt) : (s.modMem f).fallow = s.fallow := rfl
@[simp] theorem State.modMem_board (s : State) (f : MemSt → MemSt) : (s.modMem f).board = s.board := rfl

/-! ### modSheaf -/

@[simp] theorem State.modSheaf_sheaf (s : State) (f : SheafSt → SheafSt) : (s.modSheaf f).sheaf = f s.sheaf := rfl
@[simp] theorem State.modSheaf_pending (s : State) (f : SheafSt → SheafSt) : (s.modSheaf f).pending = s.pending := rfl
@[simp] theorem State.modSheaf_fresh (s : State) (f : SheafSt → SheafSt) : (s.modSheaf f).fresh = s.fresh := rfl
@[simp] theorem State.modSheaf_readData (s : State) (f : SheafSt → SheafSt) : (s.modSheaf f).readData = s.readData := rfl
@[simp] theorem State.modSheaf_variant (s : State) (f : SheafSt → SheafSt) : (s.modSheaf f).variant = s.variant := rfl
@[simp] theorem State.modSheaf_regs (s : State) (f : SheafSt → SheafSt) : (s.modSheaf f).regs = s.regs := rfl
@[simp] theorem State.modSheaf_gath (s : State) (f : SheafSt → SheafSt) : (s.modSheaf f).gath = s.gath := rfl
@[simp] theorem State.modSheaf_time (s : State) (f : SheafSt → SheafSt) : (s.modSheaf f).time = s.time := rfl
@[simp] theorem State.modSheaf_ev (s : State) (f : SheafSt → SheafSt) : (s.modSheaf f).ev = s.ev := rfl
@[simp] theorem State.modSheaf_reports (s : State) (f : SheafSt → SheafSt) : (s.modSheaf f).reports = s.reports := rfl
@[simp] theorem State.modSheaf_packets (s : State) (f : SheafSt → SheafSt) : (s.modSheaf f).packets = s.packets := rfl
@[simp] theorem State.modSheaf_nextPid (s : State) (f : SheafSt → SheafSt) : (s.modSheaf f).nextPid = s.nextPid := rfl
@[simp] theorem State.modSheaf_tedder (s : State) (f : SheafSt → SheafSt) : (s.modSheaf f).tedder = s.tedder := rfl
@[simp] theorem State.modSheaf_windrow (s : State) (f : SheafSt → SheafSt) : (s.modSheaf f).windrow = s.windrow := rfl
@[simp] theorem State.modSheaf_loft (s : State) (f : SheafSt → SheafSt) : (s.modSheaf f).loft = s.loft := rfl
@[simp] theorem State.modSheaf_kettle (s : State) (f : SheafSt → SheafSt) : (s.modSheaf f).kettle = s.kettle := rfl
@[simp] theorem State.modSheaf_ports (s : State) (f : SheafSt → SheafSt) : (s.modSheaf f).ports = s.ports := rfl
@[simp] theorem State.modSheaf_drover (s : State) (f : SheafSt → SheafSt) : (s.modSheaf f).drover = s.drover := rfl
@[simp] theorem State.modSheaf_commons (s : State) (f : SheafSt → SheafSt) : (s.modSheaf f).commons = s.commons := rfl
@[simp] theorem State.modSheaf_mower (s : State) (f : SheafSt → SheafSt) : (s.modSheaf f).mower = s.mower := rfl
@[simp] theorem State.modSheaf_mem (s : State) (f : SheafSt → SheafSt) : (s.modSheaf f).mem = s.mem := rfl
@[simp] theorem State.modSheaf_ling (s : State) (f : SheafSt → SheafSt) : (s.modSheaf f).ling = s.ling := rfl
@[simp] theorem State.modSheaf_warren (s : State) (f : SheafSt → SheafSt) : (s.modSheaf f).warren = s.warren := rfl
@[simp] theorem State.modSheaf_threads (s : State) (f : SheafSt → SheafSt) : (s.modSheaf f).threads = s.threads := rfl
@[simp] theorem State.modSheaf_quires (s : State) (f : SheafSt → SheafSt) : (s.modSheaf f).quires = s.quires := rfl
@[simp] theorem State.modSheaf_keys (s : State) (f : SheafSt → SheafSt) : (s.modSheaf f).keys = s.keys := rfl
@[simp] theorem State.modSheaf_stile (s : State) (f : SheafSt → SheafSt) : (s.modSheaf f).stile = s.stile := rfl
@[simp] theorem State.modSheaf_trust (s : State) (f : SheafSt → SheafSt) : (s.modSheaf f).trust = s.trust := rfl
@[simp] theorem State.modSheaf_funcs (s : State) (f : SheafSt → SheafSt) : (s.modSheaf f).funcs = s.funcs := rfl
@[simp] theorem State.modSheaf_qps (s : State) (f : SheafSt → SheafSt) : (s.modSheaf f).qps = s.qps := rfl
@[simp] theorem State.modSheaf_spine (s : State) (f : SheafSt → SheafSt) : (s.modSheaf f).spine = s.spine := rfl
@[simp] theorem State.modSheaf_fallow (s : State) (f : SheafSt → SheafSt) : (s.modSheaf f).fallow = s.fallow := rfl
@[simp] theorem State.modSheaf_board (s : State) (f : SheafSt → SheafSt) : (s.modSheaf f).board = s.board := rfl

/-! ### modLing -/

@[simp] theorem State.modLing_ling (s : State) (f : LingSt → LingSt) : (s.modLing f).ling = f s.ling := rfl
@[simp] theorem State.modLing_pending (s : State) (f : LingSt → LingSt) : (s.modLing f).pending = s.pending := rfl
@[simp] theorem State.modLing_fresh (s : State) (f : LingSt → LingSt) : (s.modLing f).fresh = s.fresh := rfl
@[simp] theorem State.modLing_readData (s : State) (f : LingSt → LingSt) : (s.modLing f).readData = s.readData := rfl
@[simp] theorem State.modLing_variant (s : State) (f : LingSt → LingSt) : (s.modLing f).variant = s.variant := rfl
@[simp] theorem State.modLing_regs (s : State) (f : LingSt → LingSt) : (s.modLing f).regs = s.regs := rfl
@[simp] theorem State.modLing_gath (s : State) (f : LingSt → LingSt) : (s.modLing f).gath = s.gath := rfl
@[simp] theorem State.modLing_time (s : State) (f : LingSt → LingSt) : (s.modLing f).time = s.time := rfl
@[simp] theorem State.modLing_ev (s : State) (f : LingSt → LingSt) : (s.modLing f).ev = s.ev := rfl
@[simp] theorem State.modLing_reports (s : State) (f : LingSt → LingSt) : (s.modLing f).reports = s.reports := rfl
@[simp] theorem State.modLing_packets (s : State) (f : LingSt → LingSt) : (s.modLing f).packets = s.packets := rfl
@[simp] theorem State.modLing_nextPid (s : State) (f : LingSt → LingSt) : (s.modLing f).nextPid = s.nextPid := rfl
@[simp] theorem State.modLing_tedder (s : State) (f : LingSt → LingSt) : (s.modLing f).tedder = s.tedder := rfl
@[simp] theorem State.modLing_windrow (s : State) (f : LingSt → LingSt) : (s.modLing f).windrow = s.windrow := rfl
@[simp] theorem State.modLing_loft (s : State) (f : LingSt → LingSt) : (s.modLing f).loft = s.loft := rfl
@[simp] theorem State.modLing_kettle (s : State) (f : LingSt → LingSt) : (s.modLing f).kettle = s.kettle := rfl
@[simp] theorem State.modLing_ports (s : State) (f : LingSt → LingSt) : (s.modLing f).ports = s.ports := rfl
@[simp] theorem State.modLing_drover (s : State) (f : LingSt → LingSt) : (s.modLing f).drover = s.drover := rfl
@[simp] theorem State.modLing_commons (s : State) (f : LingSt → LingSt) : (s.modLing f).commons = s.commons := rfl
@[simp] theorem State.modLing_mower (s : State) (f : LingSt → LingSt) : (s.modLing f).mower = s.mower := rfl
@[simp] theorem State.modLing_mem (s : State) (f : LingSt → LingSt) : (s.modLing f).mem = s.mem := rfl
@[simp] theorem State.modLing_sheaf (s : State) (f : LingSt → LingSt) : (s.modLing f).sheaf = s.sheaf := rfl
@[simp] theorem State.modLing_warren (s : State) (f : LingSt → LingSt) : (s.modLing f).warren = s.warren := rfl
@[simp] theorem State.modLing_threads (s : State) (f : LingSt → LingSt) : (s.modLing f).threads = s.threads := rfl
@[simp] theorem State.modLing_quires (s : State) (f : LingSt → LingSt) : (s.modLing f).quires = s.quires := rfl
@[simp] theorem State.modLing_keys (s : State) (f : LingSt → LingSt) : (s.modLing f).keys = s.keys := rfl
@[simp] theorem State.modLing_stile (s : State) (f : LingSt → LingSt) : (s.modLing f).stile = s.stile := rfl
@[simp] theorem State.modLing_trust (s : State) (f : LingSt → LingSt) : (s.modLing f).trust = s.trust := rfl
@[simp] theorem State.modLing_funcs (s : State) (f : LingSt → LingSt) : (s.modLing f).funcs = s.funcs := rfl
@[simp] theorem State.modLing_qps (s : State) (f : LingSt → LingSt) : (s.modLing f).qps = s.qps := rfl
@[simp] theorem State.modLing_spine (s : State) (f : LingSt → LingSt) : (s.modLing f).spine = s.spine := rfl
@[simp] theorem State.modLing_fallow (s : State) (f : LingSt → LingSt) : (s.modLing f).fallow = s.fallow := rfl
@[simp] theorem State.modLing_board (s : State) (f : LingSt → LingSt) : (s.modLing f).board = s.board := rfl

/-! ### modWarren -/

@[simp] theorem State.modWarren_warren (s : State) (f : WarrenSt → WarrenSt) : (s.modWarren f).warren = f s.warren := rfl
@[simp] theorem State.modWarren_pending (s : State) (f : WarrenSt → WarrenSt) : (s.modWarren f).pending = s.pending := rfl
@[simp] theorem State.modWarren_fresh (s : State) (f : WarrenSt → WarrenSt) : (s.modWarren f).fresh = s.fresh := rfl
@[simp] theorem State.modWarren_readData (s : State) (f : WarrenSt → WarrenSt) : (s.modWarren f).readData = s.readData := rfl
@[simp] theorem State.modWarren_variant (s : State) (f : WarrenSt → WarrenSt) : (s.modWarren f).variant = s.variant := rfl
@[simp] theorem State.modWarren_regs (s : State) (f : WarrenSt → WarrenSt) : (s.modWarren f).regs = s.regs := rfl
@[simp] theorem State.modWarren_gath (s : State) (f : WarrenSt → WarrenSt) : (s.modWarren f).gath = s.gath := rfl
@[simp] theorem State.modWarren_time (s : State) (f : WarrenSt → WarrenSt) : (s.modWarren f).time = s.time := rfl
@[simp] theorem State.modWarren_ev (s : State) (f : WarrenSt → WarrenSt) : (s.modWarren f).ev = s.ev := rfl
@[simp] theorem State.modWarren_reports (s : State) (f : WarrenSt → WarrenSt) : (s.modWarren f).reports = s.reports := rfl
@[simp] theorem State.modWarren_packets (s : State) (f : WarrenSt → WarrenSt) : (s.modWarren f).packets = s.packets := rfl
@[simp] theorem State.modWarren_nextPid (s : State) (f : WarrenSt → WarrenSt) : (s.modWarren f).nextPid = s.nextPid := rfl
@[simp] theorem State.modWarren_tedder (s : State) (f : WarrenSt → WarrenSt) : (s.modWarren f).tedder = s.tedder := rfl
@[simp] theorem State.modWarren_windrow (s : State) (f : WarrenSt → WarrenSt) : (s.modWarren f).windrow = s.windrow := rfl
@[simp] theorem State.modWarren_loft (s : State) (f : WarrenSt → WarrenSt) : (s.modWarren f).loft = s.loft := rfl
@[simp] theorem State.modWarren_kettle (s : State) (f : WarrenSt → WarrenSt) : (s.modWarren f).kettle = s.kettle := rfl
@[simp] theorem State.modWarren_ports (s : State) (f : WarrenSt → WarrenSt) : (s.modWarren f).ports = s.ports := rfl
@[simp] theorem State.modWarren_drover (s : State) (f : WarrenSt → WarrenSt) : (s.modWarren f).drover = s.drover := rfl
@[simp] theorem State.modWarren_commons (s : State) (f : WarrenSt → WarrenSt) : (s.modWarren f).commons = s.commons := rfl
@[simp] theorem State.modWarren_mower (s : State) (f : WarrenSt → WarrenSt) : (s.modWarren f).mower = s.mower := rfl
@[simp] theorem State.modWarren_mem (s : State) (f : WarrenSt → WarrenSt) : (s.modWarren f).mem = s.mem := rfl
@[simp] theorem State.modWarren_sheaf (s : State) (f : WarrenSt → WarrenSt) : (s.modWarren f).sheaf = s.sheaf := rfl
@[simp] theorem State.modWarren_ling (s : State) (f : WarrenSt → WarrenSt) : (s.modWarren f).ling = s.ling := rfl
@[simp] theorem State.modWarren_threads (s : State) (f : WarrenSt → WarrenSt) : (s.modWarren f).threads = s.threads := rfl
@[simp] theorem State.modWarren_quires (s : State) (f : WarrenSt → WarrenSt) : (s.modWarren f).quires = s.quires := rfl
@[simp] theorem State.modWarren_keys (s : State) (f : WarrenSt → WarrenSt) : (s.modWarren f).keys = s.keys := rfl
@[simp] theorem State.modWarren_stile (s : State) (f : WarrenSt → WarrenSt) : (s.modWarren f).stile = s.stile := rfl
@[simp] theorem State.modWarren_trust (s : State) (f : WarrenSt → WarrenSt) : (s.modWarren f).trust = s.trust := rfl
@[simp] theorem State.modWarren_funcs (s : State) (f : WarrenSt → WarrenSt) : (s.modWarren f).funcs = s.funcs := rfl
@[simp] theorem State.modWarren_qps (s : State) (f : WarrenSt → WarrenSt) : (s.modWarren f).qps = s.qps := rfl
@[simp] theorem State.modWarren_spine (s : State) (f : WarrenSt → WarrenSt) : (s.modWarren f).spine = s.spine := rfl
@[simp] theorem State.modWarren_fallow (s : State) (f : WarrenSt → WarrenSt) : (s.modWarren f).fallow = s.fallow := rfl
@[simp] theorem State.modWarren_board (s : State) (f : WarrenSt → WarrenSt) : (s.modWarren f).board = s.board := rfl

/-! ### modThreads -/

@[simp] theorem State.modThreads_threads (s : State) (f : SMap Thread → SMap Thread) : (s.modThreads f).threads = f s.threads := rfl
@[simp] theorem State.modThreads_pending (s : State) (f : SMap Thread → SMap Thread) : (s.modThreads f).pending = s.pending := rfl
@[simp] theorem State.modThreads_fresh (s : State) (f : SMap Thread → SMap Thread) : (s.modThreads f).fresh = s.fresh := rfl
@[simp] theorem State.modThreads_readData (s : State) (f : SMap Thread → SMap Thread) : (s.modThreads f).readData = s.readData := rfl
@[simp] theorem State.modThreads_variant (s : State) (f : SMap Thread → SMap Thread) : (s.modThreads f).variant = s.variant := rfl
@[simp] theorem State.modThreads_regs (s : State) (f : SMap Thread → SMap Thread) : (s.modThreads f).regs = s.regs := rfl
@[simp] theorem State.modThreads_gath (s : State) (f : SMap Thread → SMap Thread) : (s.modThreads f).gath = s.gath := rfl
@[simp] theorem State.modThreads_time (s : State) (f : SMap Thread → SMap Thread) : (s.modThreads f).time = s.time := rfl
@[simp] theorem State.modThreads_ev (s : State) (f : SMap Thread → SMap Thread) : (s.modThreads f).ev = s.ev := rfl
@[simp] theorem State.modThreads_reports (s : State) (f : SMap Thread → SMap Thread) : (s.modThreads f).reports = s.reports := rfl
@[simp] theorem State.modThreads_packets (s : State) (f : SMap Thread → SMap Thread) : (s.modThreads f).packets = s.packets := rfl
@[simp] theorem State.modThreads_nextPid (s : State) (f : SMap Thread → SMap Thread) : (s.modThreads f).nextPid = s.nextPid := rfl
@[simp] theorem State.modThreads_tedder (s : State) (f : SMap Thread → SMap Thread) : (s.modThreads f).tedder = s.tedder := rfl
@[simp] theorem State.modThreads_windrow (s : State) (f : SMap Thread → SMap Thread) : (s.modThreads f).windrow = s.windrow := rfl
@[simp] theorem State.modThreads_loft (s : State) (f : SMap Thread → SMap Thread) : (s.modThreads f).loft = s.loft := rfl
@[simp] theorem State.modThreads_kettle (s : State) (f : SMap Thread → SMap Thread) : (s.modThreads f).kettle = s.kettle := rfl
@[simp] theorem State.modThreads_ports (s : State) (f : SMap Thread → SMap Thread) : (s.modThreads f).ports = s.ports := rfl
@[simp] theorem State.modThreads_drover (s : State) (f : SMap Thread → SMap Thread) : (s.modThreads f).drover = s.drover := rfl
@[simp] theorem State.modThreads_commons (s : State) (f : SMap Thread → SMap Thread) : (s.modThreads f).commons = s.commons := rfl
@[simp] theorem State.modThreads_mower (s : State) (f : SMap Thread → SMap Thread) : (s.modThreads f).mower = s.mower := rfl
@[simp] theorem State.modThreads_mem (s : State) (f : SMap Thread → SMap Thread) : (s.modThreads f).mem = s.mem := rfl
@[simp] theorem State.modThreads_sheaf (s : State) (f : SMap Thread → SMap Thread) : (s.modThreads f).sheaf = s.sheaf := rfl
@[simp] theorem State.modThreads_ling (s : State) (f : SMap Thread → SMap Thread) : (s.modThreads f).ling = s.ling := rfl
@[simp] theorem State.modThreads_warren (s : State) (f : SMap Thread → SMap Thread) : (s.modThreads f).warren = s.warren := rfl
@[simp] theorem State.modThreads_quires (s : State) (f : SMap Thread → SMap Thread) : (s.modThreads f).quires = s.quires := rfl
@[simp] theorem State.modThreads_keys (s : State) (f : SMap Thread → SMap Thread) : (s.modThreads f).keys = s.keys := rfl
@[simp] theorem State.modThreads_stile (s : State) (f : SMap Thread → SMap Thread) : (s.modThreads f).stile = s.stile := rfl
@[simp] theorem State.modThreads_trust (s : State) (f : SMap Thread → SMap Thread) : (s.modThreads f).trust = s.trust := rfl
@[simp] theorem State.modThreads_funcs (s : State) (f : SMap Thread → SMap Thread) : (s.modThreads f).funcs = s.funcs := rfl
@[simp] theorem State.modThreads_qps (s : State) (f : SMap Thread → SMap Thread) : (s.modThreads f).qps = s.qps := rfl
@[simp] theorem State.modThreads_spine (s : State) (f : SMap Thread → SMap Thread) : (s.modThreads f).spine = s.spine := rfl
@[simp] theorem State.modThreads_fallow (s : State) (f : SMap Thread → SMap Thread) : (s.modThreads f).fallow = s.fallow := rfl
@[simp] theorem State.modThreads_board (s : State) (f : SMap Thread → SMap Thread) : (s.modThreads f).board = s.board := rfl

/-! ### modQuires -/

@[simp] theorem State.modQuires_quires (s : State) (f : SMap QuireSt → SMap QuireSt) : (s.modQuires f).quires = f s.quires := rfl
@[simp] theorem State.modQuires_pending (s : State) (f : SMap QuireSt → SMap QuireSt) : (s.modQuires f).pending = s.pending := rfl
@[simp] theorem State.modQuires_fresh (s : State) (f : SMap QuireSt → SMap QuireSt) : (s.modQuires f).fresh = s.fresh := rfl
@[simp] theorem State.modQuires_readData (s : State) (f : SMap QuireSt → SMap QuireSt) : (s.modQuires f).readData = s.readData := rfl
@[simp] theorem State.modQuires_variant (s : State) (f : SMap QuireSt → SMap QuireSt) : (s.modQuires f).variant = s.variant := rfl
@[simp] theorem State.modQuires_regs (s : State) (f : SMap QuireSt → SMap QuireSt) : (s.modQuires f).regs = s.regs := rfl
@[simp] theorem State.modQuires_gath (s : State) (f : SMap QuireSt → SMap QuireSt) : (s.modQuires f).gath = s.gath := rfl
@[simp] theorem State.modQuires_time (s : State) (f : SMap QuireSt → SMap QuireSt) : (s.modQuires f).time = s.time := rfl
@[simp] theorem State.modQuires_ev (s : State) (f : SMap QuireSt → SMap QuireSt) : (s.modQuires f).ev = s.ev := rfl
@[simp] theorem State.modQuires_reports (s : State) (f : SMap QuireSt → SMap QuireSt) : (s.modQuires f).reports = s.reports := rfl
@[simp] theorem State.modQuires_packets (s : State) (f : SMap QuireSt → SMap QuireSt) : (s.modQuires f).packets = s.packets := rfl
@[simp] theorem State.modQuires_nextPid (s : State) (f : SMap QuireSt → SMap QuireSt) : (s.modQuires f).nextPid = s.nextPid := rfl
@[simp] theorem State.modQuires_tedder (s : State) (f : SMap QuireSt → SMap QuireSt) : (s.modQuires f).tedder = s.tedder := rfl
@[simp] theorem State.modQuires_windrow (s : State) (f : SMap QuireSt → SMap QuireSt) : (s.modQuires f).windrow = s.windrow := rfl
@[simp] theorem State.modQuires_loft (s : State) (f : SMap QuireSt → SMap QuireSt) : (s.modQuires f).loft = s.loft := rfl
@[simp] theorem State.modQuires_kettle (s : State) (f : SMap QuireSt → SMap QuireSt) : (s.modQuires f).kettle = s.kettle := rfl
@[simp] theorem State.modQuires_ports (s : State) (f : SMap QuireSt → SMap QuireSt) : (s.modQuires f).ports = s.ports := rfl
@[simp] theorem State.modQuires_drover (s : State) (f : SMap QuireSt → SMap QuireSt) : (s.modQuires f).drover = s.drover := rfl
@[simp] theorem State.modQuires_commons (s : State) (f : SMap QuireSt → SMap QuireSt) : (s.modQuires f).commons = s.commons := rfl
@[simp] theorem State.modQuires_mower (s : State) (f : SMap QuireSt → SMap QuireSt) : (s.modQuires f).mower = s.mower := rfl
@[simp] theorem State.modQuires_mem (s : State) (f : SMap QuireSt → SMap QuireSt) : (s.modQuires f).mem = s.mem := rfl
@[simp] theorem State.modQuires_sheaf (s : State) (f : SMap QuireSt → SMap QuireSt) : (s.modQuires f).sheaf = s.sheaf := rfl
@[simp] theorem State.modQuires_ling (s : State) (f : SMap QuireSt → SMap QuireSt) : (s.modQuires f).ling = s.ling := rfl
@[simp] theorem State.modQuires_warren (s : State) (f : SMap QuireSt → SMap QuireSt) : (s.modQuires f).warren = s.warren := rfl
@[simp] theorem State.modQuires_threads (s : State) (f : SMap QuireSt → SMap QuireSt) : (s.modQuires f).threads = s.threads := rfl
@[simp] theorem State.modQuires_keys (s : State) (f : SMap QuireSt → SMap QuireSt) : (s.modQuires f).keys = s.keys := rfl
@[simp] theorem State.modQuires_stile (s : State) (f : SMap QuireSt → SMap QuireSt) : (s.modQuires f).stile = s.stile := rfl
@[simp] theorem State.modQuires_trust (s : State) (f : SMap QuireSt → SMap QuireSt) : (s.modQuires f).trust = s.trust := rfl
@[simp] theorem State.modQuires_funcs (s : State) (f : SMap QuireSt → SMap QuireSt) : (s.modQuires f).funcs = s.funcs := rfl
@[simp] theorem State.modQuires_qps (s : State) (f : SMap QuireSt → SMap QuireSt) : (s.modQuires f).qps = s.qps := rfl
@[simp] theorem State.modQuires_spine (s : State) (f : SMap QuireSt → SMap QuireSt) : (s.modQuires f).spine = s.spine := rfl
@[simp] theorem State.modQuires_fallow (s : State) (f : SMap QuireSt → SMap QuireSt) : (s.modQuires f).fallow = s.fallow := rfl
@[simp] theorem State.modQuires_board (s : State) (f : SMap QuireSt → SMap QuireSt) : (s.modQuires f).board = s.board := rfl

/-! ### modKeys -/

@[simp] theorem State.modKeys_keys (s : State) (f : SMap KeySlot → SMap KeySlot) : (s.modKeys f).keys = f s.keys := rfl
@[simp] theorem State.modKeys_pending (s : State) (f : SMap KeySlot → SMap KeySlot) : (s.modKeys f).pending = s.pending := rfl
@[simp] theorem State.modKeys_fresh (s : State) (f : SMap KeySlot → SMap KeySlot) : (s.modKeys f).fresh = s.fresh := rfl
@[simp] theorem State.modKeys_readData (s : State) (f : SMap KeySlot → SMap KeySlot) : (s.modKeys f).readData = s.readData := rfl
@[simp] theorem State.modKeys_variant (s : State) (f : SMap KeySlot → SMap KeySlot) : (s.modKeys f).variant = s.variant := rfl
@[simp] theorem State.modKeys_regs (s : State) (f : SMap KeySlot → SMap KeySlot) : (s.modKeys f).regs = s.regs := rfl
@[simp] theorem State.modKeys_gath (s : State) (f : SMap KeySlot → SMap KeySlot) : (s.modKeys f).gath = s.gath := rfl
@[simp] theorem State.modKeys_time (s : State) (f : SMap KeySlot → SMap KeySlot) : (s.modKeys f).time = s.time := rfl
@[simp] theorem State.modKeys_ev (s : State) (f : SMap KeySlot → SMap KeySlot) : (s.modKeys f).ev = s.ev := rfl
@[simp] theorem State.modKeys_reports (s : State) (f : SMap KeySlot → SMap KeySlot) : (s.modKeys f).reports = s.reports := rfl
@[simp] theorem State.modKeys_packets (s : State) (f : SMap KeySlot → SMap KeySlot) : (s.modKeys f).packets = s.packets := rfl
@[simp] theorem State.modKeys_nextPid (s : State) (f : SMap KeySlot → SMap KeySlot) : (s.modKeys f).nextPid = s.nextPid := rfl
@[simp] theorem State.modKeys_tedder (s : State) (f : SMap KeySlot → SMap KeySlot) : (s.modKeys f).tedder = s.tedder := rfl
@[simp] theorem State.modKeys_windrow (s : State) (f : SMap KeySlot → SMap KeySlot) : (s.modKeys f).windrow = s.windrow := rfl
@[simp] theorem State.modKeys_loft (s : State) (f : SMap KeySlot → SMap KeySlot) : (s.modKeys f).loft = s.loft := rfl
@[simp] theorem State.modKeys_kettle (s : State) (f : SMap KeySlot → SMap KeySlot) : (s.modKeys f).kettle = s.kettle := rfl
@[simp] theorem State.modKeys_ports (s : State) (f : SMap KeySlot → SMap KeySlot) : (s.modKeys f).ports = s.ports := rfl
@[simp] theorem State.modKeys_drover (s : State) (f : SMap KeySlot → SMap KeySlot) : (s.modKeys f).drover = s.drover := rfl
@[simp] theorem State.modKeys_commons (s : State) (f : SMap KeySlot → SMap KeySlot) : (s.modKeys f).commons = s.commons := rfl
@[simp] theorem State.modKeys_mower (s : State) (f : SMap KeySlot → SMap KeySlot) : (s.modKeys f).mower = s.mower := rfl
@[simp] theorem State.modKeys_mem (s : State) (f : SMap KeySlot → SMap KeySlot) : (s.modKeys f).mem = s.mem := rfl
@[simp] theorem State.modKeys_sheaf (s : State) (f : SMap KeySlot → SMap KeySlot) : (s.modKeys f).sheaf = s.sheaf := rfl
@[simp] theorem State.modKeys_ling (s : State) (f : SMap KeySlot → SMap KeySlot) : (s.modKeys f).ling = s.ling := rfl
@[simp] theorem State.modKeys_warren (s : State) (f : SMap KeySlot → SMap KeySlot) : (s.modKeys f).warren = s.warren := rfl
@[simp] theorem State.modKeys_threads (s : State) (f : SMap KeySlot → SMap KeySlot) : (s.modKeys f).threads = s.threads := rfl
@[simp] theorem State.modKeys_quires (s : State) (f : SMap KeySlot → SMap KeySlot) : (s.modKeys f).quires = s.quires := rfl
@[simp] theorem State.modKeys_stile (s : State) (f : SMap KeySlot → SMap KeySlot) : (s.modKeys f).stile = s.stile := rfl
@[simp] theorem State.modKeys_trust (s : State) (f : SMap KeySlot → SMap KeySlot) : (s.modKeys f).trust = s.trust := rfl
@[simp] theorem State.modKeys_funcs (s : State) (f : SMap KeySlot → SMap KeySlot) : (s.modKeys f).funcs = s.funcs := rfl
@[simp] theorem State.modKeys_qps (s : State) (f : SMap KeySlot → SMap KeySlot) : (s.modKeys f).qps = s.qps := rfl
@[simp] theorem State.modKeys_spine (s : State) (f : SMap KeySlot → SMap KeySlot) : (s.modKeys f).spine = s.spine := rfl
@[simp] theorem State.modKeys_fallow (s : State) (f : SMap KeySlot → SMap KeySlot) : (s.modKeys f).fallow = s.fallow := rfl
@[simp] theorem State.modKeys_board (s : State) (f : SMap KeySlot → SMap KeySlot) : (s.modKeys f).board = s.board := rfl

/-! ### modStile -/

@[simp] theorem State.modStile_stile (s : State) (f : StileSt → StileSt) : (s.modStile f).stile = f s.stile := rfl
@[simp] theorem State.modStile_pending (s : State) (f : StileSt → StileSt) : (s.modStile f).pending = s.pending := rfl
@[simp] theorem State.modStile_fresh (s : State) (f : StileSt → StileSt) : (s.modStile f).fresh = s.fresh := rfl
@[simp] theorem State.modStile_readData (s : State) (f : StileSt → StileSt) : (s.modStile f).readData = s.readData := rfl
@[simp] theorem State.modStile_variant (s : State) (f : StileSt → StileSt) : (s.modStile f).variant = s.variant := rfl
@[simp] theorem State.modStile_regs (s : State) (f : StileSt → StileSt) : (s.modStile f).regs = s.regs := rfl
@[simp] theorem State.modStile_gath (s : State) (f : StileSt → StileSt) : (s.modStile f).gath = s.gath := rfl
@[simp] theorem State.modStile_time (s : State) (f : StileSt → StileSt) : (s.modStile f).time = s.time := rfl
@[simp] theorem State.modStile_ev (s : State) (f : StileSt → StileSt) : (s.modStile f).ev = s.ev := rfl
@[simp] theorem State.modStile_reports (s : State) (f : StileSt → StileSt) : (s.modStile f).reports = s.reports := rfl
@[simp] theorem State.modStile_packets (s : State) (f : StileSt → StileSt) : (s.modStile f).packets = s.packets := rfl
@[simp] theorem State.modStile_nextPid (s : State) (f : StileSt → StileSt) : (s.modStile f).nextPid = s.nextPid := rfl
@[simp] theorem State.modStile_tedder (s : State) (f : StileSt → StileSt) : (s.modStile f).tedder = s.tedder := rfl
@[simp] theorem State.modStile_windrow (s : State) (f : StileSt → StileSt) : (s.modStile f).windrow = s.windrow := rfl
@[simp] theorem State.modStile_loft (s : State) (f : StileSt → StileSt) : (s.modStile f).loft = s.loft := rfl
@[simp] theorem State.modStile_kettle (s : State) (f : StileSt → StileSt) : (s.modStile f).kettle = s.kettle := rfl
@[simp] theorem State.modStile_ports (s : State) (f : StileSt → StileSt) : (s.modStile f).ports = s.ports := rfl
@[simp] theorem State.modStile_drover (s : State) (f : StileSt → StileSt) : (s.modStile f).drover = s.drover := rfl
@[simp] theorem State.modStile_commons (s : State) (f : StileSt → StileSt) : (s.modStile f).commons = s.commons := rfl
@[simp] theorem State.modStile_mower (s : State) (f : StileSt → StileSt) : (s.modStile f).mower = s.mower := rfl
@[simp] theorem State.modStile_mem (s : State) (f : StileSt → StileSt) : (s.modStile f).mem = s.mem := rfl
@[simp] theorem State.modStile_sheaf (s : State) (f : StileSt → StileSt) : (s.modStile f).sheaf = s.sheaf := rfl
@[simp] theorem State.modStile_ling (s : State) (f : StileSt → StileSt) : (s.modStile f).ling = s.ling := rfl
@[simp] theorem State.modStile_warren (s : State) (f : StileSt → StileSt) : (s.modStile f).warren = s.warren := rfl
@[simp] theorem State.modStile_threads (s : State) (f : StileSt → StileSt) : (s.modStile f).threads = s.threads := rfl
@[simp] theorem State.modStile_quires (s : State) (f : StileSt → StileSt) : (s.modStile f).quires = s.quires := rfl
@[simp] theorem State.modStile_keys (s : State) (f : StileSt → StileSt) : (s.modStile f).keys = s.keys := rfl
@[simp] theorem State.modStile_trust (s : State) (f : StileSt → StileSt) : (s.modStile f).trust = s.trust := rfl
@[simp] theorem State.modStile_funcs (s : State) (f : StileSt → StileSt) : (s.modStile f).funcs = s.funcs := rfl
@[simp] theorem State.modStile_qps (s : State) (f : StileSt → StileSt) : (s.modStile f).qps = s.qps := rfl
@[simp] theorem State.modStile_spine (s : State) (f : StileSt → StileSt) : (s.modStile f).spine = s.spine := rfl
@[simp] theorem State.modStile_fallow (s : State) (f : StileSt → StileSt) : (s.modStile f).fallow = s.fallow := rfl
@[simp] theorem State.modStile_board (s : State) (f : StileSt → StileSt) : (s.modStile f).board = s.board := rfl

/-! ### modTrust -/

@[simp] theorem State.modTrust_trust (s : State) (f : TrustSt → TrustSt) : (s.modTrust f).trust = f s.trust := rfl
@[simp] theorem State.modTrust_pending (s : State) (f : TrustSt → TrustSt) : (s.modTrust f).pending = s.pending := rfl
@[simp] theorem State.modTrust_fresh (s : State) (f : TrustSt → TrustSt) : (s.modTrust f).fresh = s.fresh := rfl
@[simp] theorem State.modTrust_readData (s : State) (f : TrustSt → TrustSt) : (s.modTrust f).readData = s.readData := rfl
@[simp] theorem State.modTrust_variant (s : State) (f : TrustSt → TrustSt) : (s.modTrust f).variant = s.variant := rfl
@[simp] theorem State.modTrust_regs (s : State) (f : TrustSt → TrustSt) : (s.modTrust f).regs = s.regs := rfl
@[simp] theorem State.modTrust_gath (s : State) (f : TrustSt → TrustSt) : (s.modTrust f).gath = s.gath := rfl
@[simp] theorem State.modTrust_time (s : State) (f : TrustSt → TrustSt) : (s.modTrust f).time = s.time := rfl
@[simp] theorem State.modTrust_ev (s : State) (f : TrustSt → TrustSt) : (s.modTrust f).ev = s.ev := rfl
@[simp] theorem State.modTrust_reports (s : State) (f : TrustSt → TrustSt) : (s.modTrust f).reports = s.reports := rfl
@[simp] theorem State.modTrust_packets (s : State) (f : TrustSt → TrustSt) : (s.modTrust f).packets = s.packets := rfl
@[simp] theorem State.modTrust_nextPid (s : State) (f : TrustSt → TrustSt) : (s.modTrust f).nextPid = s.nextPid := rfl
@[simp] theorem State.modTrust_tedder (s : State) (f : TrustSt → TrustSt) : (s.modTrust f).tedder = s.tedder := rfl
@[simp] theorem State.modTrust_windrow (s : State) (f : TrustSt → TrustSt) : (s.modTrust f).windrow = s.windrow := rfl
@[simp] theorem State.modTrust_loft (s : State) (f : TrustSt → TrustSt) : (s.modTrust f).loft = s.loft := rfl
@[simp] theorem State.modTrust_kettle (s : State) (f : TrustSt → TrustSt) : (s.modTrust f).kettle = s.kettle := rfl
@[simp] theorem State.modTrust_ports (s : State) (f : TrustSt → TrustSt) : (s.modTrust f).ports = s.ports := rfl
@[simp] theorem State.modTrust_drover (s : State) (f : TrustSt → TrustSt) : (s.modTrust f).drover = s.drover := rfl
@[simp] theorem State.modTrust_commons (s : State) (f : TrustSt → TrustSt) : (s.modTrust f).commons = s.commons := rfl
@[simp] theorem State.modTrust_mower (s : State) (f : TrustSt → TrustSt) : (s.modTrust f).mower = s.mower := rfl
@[simp] theorem State.modTrust_mem (s : State) (f : TrustSt → TrustSt) : (s.modTrust f).mem = s.mem := rfl
@[simp] theorem State.modTrust_sheaf (s : State) (f : TrustSt → TrustSt) : (s.modTrust f).sheaf = s.sheaf := rfl
@[simp] theorem State.modTrust_ling (s : State) (f : TrustSt → TrustSt) : (s.modTrust f).ling = s.ling := rfl
@[simp] theorem State.modTrust_warren (s : State) (f : TrustSt → TrustSt) : (s.modTrust f).warren = s.warren := rfl
@[simp] theorem State.modTrust_threads (s : State) (f : TrustSt → TrustSt) : (s.modTrust f).threads = s.threads := rfl
@[simp] theorem State.modTrust_quires (s : State) (f : TrustSt → TrustSt) : (s.modTrust f).quires = s.quires := rfl
@[simp] theorem State.modTrust_keys (s : State) (f : TrustSt → TrustSt) : (s.modTrust f).keys = s.keys := rfl
@[simp] theorem State.modTrust_stile (s : State) (f : TrustSt → TrustSt) : (s.modTrust f).stile = s.stile := rfl
@[simp] theorem State.modTrust_funcs (s : State) (f : TrustSt → TrustSt) : (s.modTrust f).funcs = s.funcs := rfl
@[simp] theorem State.modTrust_qps (s : State) (f : TrustSt → TrustSt) : (s.modTrust f).qps = s.qps := rfl
@[simp] theorem State.modTrust_spine (s : State) (f : TrustSt → TrustSt) : (s.modTrust f).spine = s.spine := rfl
@[simp] theorem State.modTrust_fallow (s : State) (f : TrustSt → TrustSt) : (s.modTrust f).fallow = s.fallow := rfl
@[simp] theorem State.modTrust_board (s : State) (f : TrustSt → TrustSt) : (s.modTrust f).board = s.board := rfl

/-! ### modFuncs -/

@[simp] theorem State.modFuncs_funcs (s : State) (f : SMap FuncSt → SMap FuncSt) : (s.modFuncs f).funcs = f s.funcs := rfl
@[simp] theorem State.modFuncs_pending (s : State) (f : SMap FuncSt → SMap FuncSt) : (s.modFuncs f).pending = s.pending := rfl
@[simp] theorem State.modFuncs_fresh (s : State) (f : SMap FuncSt → SMap FuncSt) : (s.modFuncs f).fresh = s.fresh := rfl
@[simp] theorem State.modFuncs_readData (s : State) (f : SMap FuncSt → SMap FuncSt) : (s.modFuncs f).readData = s.readData := rfl
@[simp] theorem State.modFuncs_variant (s : State) (f : SMap FuncSt → SMap FuncSt) : (s.modFuncs f).variant = s.variant := rfl
@[simp] theorem State.modFuncs_regs (s : State) (f : SMap FuncSt → SMap FuncSt) : (s.modFuncs f).regs = s.regs := rfl
@[simp] theorem State.modFuncs_gath (s : State) (f : SMap FuncSt → SMap FuncSt) : (s.modFuncs f).gath = s.gath := rfl
@[simp] theorem State.modFuncs_time (s : State) (f : SMap FuncSt → SMap FuncSt) : (s.modFuncs f).time = s.time := rfl
@[simp] theorem State.modFuncs_ev (s : State) (f : SMap FuncSt → SMap FuncSt) : (s.modFuncs f).ev = s.ev := rfl
@[simp] theorem State.modFuncs_reports (s : State) (f : SMap FuncSt → SMap FuncSt) : (s.modFuncs f).reports = s.reports := rfl
@[simp] theorem State.modFuncs_packets (s : State) (f : SMap FuncSt → SMap FuncSt) : (s.modFuncs f).packets = s.packets := rfl
@[simp] theorem State.modFuncs_nextPid (s : State) (f : SMap FuncSt → SMap FuncSt) : (s.modFuncs f).nextPid = s.nextPid := rfl
@[simp] theorem State.modFuncs_tedder (s : State) (f : SMap FuncSt → SMap FuncSt) : (s.modFuncs f).tedder = s.tedder := rfl
@[simp] theorem State.modFuncs_windrow (s : State) (f : SMap FuncSt → SMap FuncSt) : (s.modFuncs f).windrow = s.windrow := rfl
@[simp] theorem State.modFuncs_loft (s : State) (f : SMap FuncSt → SMap FuncSt) : (s.modFuncs f).loft = s.loft := rfl
@[simp] theorem State.modFuncs_kettle (s : State) (f : SMap FuncSt → SMap FuncSt) : (s.modFuncs f).kettle = s.kettle := rfl
@[simp] theorem State.modFuncs_ports (s : State) (f : SMap FuncSt → SMap FuncSt) : (s.modFuncs f).ports = s.ports := rfl
@[simp] theorem State.modFuncs_drover (s : State) (f : SMap FuncSt → SMap FuncSt) : (s.modFuncs f).drover = s.drover := rfl
@[simp] theorem State.modFuncs_commons (s : State) (f : SMap FuncSt → SMap FuncSt) : (s.modFuncs f).commons = s.commons := rfl
@[simp] theorem State.modFuncs_mower (s : State) (f : SMap FuncSt → SMap FuncSt) : (s.modFuncs f).mower = s.mower := rfl
@[simp] theorem State.modFuncs_mem (s : State) (f : SMap FuncSt → SMap FuncSt) : (s.modFuncs f).mem = s.mem := rfl
@[simp] theorem State.modFuncs_sheaf (s : State) (f : SMap FuncSt → SMap FuncSt) : (s.modFuncs f).sheaf = s.sheaf := rfl
@[simp] theorem State.modFuncs_ling (s : State) (f : SMap FuncSt → SMap FuncSt) : (s.modFuncs f).ling = s.ling := rfl
@[simp] theorem State.modFuncs_warren (s : State) (f : SMap FuncSt → SMap FuncSt) : (s.modFuncs f).warren = s.warren := rfl
@[simp] theorem State.modFuncs_threads (s : State) (f : SMap FuncSt → SMap FuncSt) : (s.modFuncs f).threads = s.threads := rfl
@[simp] theorem State.modFuncs_quires (s : State) (f : SMap FuncSt → SMap FuncSt) : (s.modFuncs f).quires = s.quires := rfl
@[simp] theorem State.modFuncs_keys (s : State) (f : SMap FuncSt → SMap FuncSt) : (s.modFuncs f).keys = s.keys := rfl
@[simp] theorem State.modFuncs_stile (s : State) (f : SMap FuncSt → SMap FuncSt) : (s.modFuncs f).stile = s.stile := rfl
@[simp] theorem State.modFuncs_trust (s : State) (f : SMap FuncSt → SMap FuncSt) : (s.modFuncs f).trust = s.trust := rfl
@[simp] theorem State.modFuncs_qps (s : State) (f : SMap FuncSt → SMap FuncSt) : (s.modFuncs f).qps = s.qps := rfl
@[simp] theorem State.modFuncs_spine (s : State) (f : SMap FuncSt → SMap FuncSt) : (s.modFuncs f).spine = s.spine := rfl
@[simp] theorem State.modFuncs_fallow (s : State) (f : SMap FuncSt → SMap FuncSt) : (s.modFuncs f).fallow = s.fallow := rfl
@[simp] theorem State.modFuncs_board (s : State) (f : SMap FuncSt → SMap FuncSt) : (s.modFuncs f).board = s.board := rfl

/-! ### modQps -/

@[simp] theorem State.modQps_qps (s : State) (f : SMap QpSt → SMap QpSt) : (s.modQps f).qps = f s.qps := rfl
@[simp] theorem State.modQps_pending (s : State) (f : SMap QpSt → SMap QpSt) : (s.modQps f).pending = s.pending := rfl
@[simp] theorem State.modQps_fresh (s : State) (f : SMap QpSt → SMap QpSt) : (s.modQps f).fresh = s.fresh := rfl
@[simp] theorem State.modQps_readData (s : State) (f : SMap QpSt → SMap QpSt) : (s.modQps f).readData = s.readData := rfl
@[simp] theorem State.modQps_variant (s : State) (f : SMap QpSt → SMap QpSt) : (s.modQps f).variant = s.variant := rfl
@[simp] theorem State.modQps_regs (s : State) (f : SMap QpSt → SMap QpSt) : (s.modQps f).regs = s.regs := rfl
@[simp] theorem State.modQps_gath (s : State) (f : SMap QpSt → SMap QpSt) : (s.modQps f).gath = s.gath := rfl
@[simp] theorem State.modQps_time (s : State) (f : SMap QpSt → SMap QpSt) : (s.modQps f).time = s.time := rfl
@[simp] theorem State.modQps_ev (s : State) (f : SMap QpSt → SMap QpSt) : (s.modQps f).ev = s.ev := rfl
@[simp] theorem State.modQps_reports (s : State) (f : SMap QpSt → SMap QpSt) : (s.modQps f).reports = s.reports := rfl
@[simp] theorem State.modQps_packets (s : State) (f : SMap QpSt → SMap QpSt) : (s.modQps f).packets = s.packets := rfl
@[simp] theorem State.modQps_nextPid (s : State) (f : SMap QpSt → SMap QpSt) : (s.modQps f).nextPid = s.nextPid := rfl
@[simp] theorem State.modQps_tedder (s : State) (f : SMap QpSt → SMap QpSt) : (s.modQps f).tedder = s.tedder := rfl
@[simp] theorem State.modQps_windrow (s : State) (f : SMap QpSt → SMap QpSt) : (s.modQps f).windrow = s.windrow := rfl
@[simp] theorem State.modQps_loft (s : State) (f : SMap QpSt → SMap QpSt) : (s.modQps f).loft = s.loft := rfl
@[simp] theorem State.modQps_kettle (s : State) (f : SMap QpSt → SMap QpSt) : (s.modQps f).kettle = s.kettle := rfl
@[simp] theorem State.modQps_ports (s : State) (f : SMap QpSt → SMap QpSt) : (s.modQps f).ports = s.ports := rfl
@[simp] theorem State.modQps_drover (s : State) (f : SMap QpSt → SMap QpSt) : (s.modQps f).drover = s.drover := rfl
@[simp] theorem State.modQps_commons (s : State) (f : SMap QpSt → SMap QpSt) : (s.modQps f).commons = s.commons := rfl
@[simp] theorem State.modQps_mower (s : State) (f : SMap QpSt → SMap QpSt) : (s.modQps f).mower = s.mower := rfl
@[simp] theorem State.modQps_mem (s : State) (f : SMap QpSt → SMap QpSt) : (s.modQps f).mem = s.mem := rfl
@[simp] theorem State.modQps_sheaf (s : State) (f : SMap QpSt → SMap QpSt) : (s.modQps f).sheaf = s.sheaf := rfl
@[simp] theorem State.modQps_ling (s : State) (f : SMap QpSt → SMap QpSt) : (s.modQps f).ling = s.ling := rfl
@[simp] theorem State.modQps_warren (s : State) (f : SMap QpSt → SMap QpSt) : (s.modQps f).warren = s.warren := rfl
@[simp] theorem State.modQps_threads (s : State) (f : SMap QpSt → SMap QpSt) : (s.modQps f).threads = s.threads := rfl
@[simp] theorem State.modQps_quires (s : State) (f : SMap QpSt → SMap QpSt) : (s.modQps f).quires = s.quires := rfl
@[simp] theorem State.modQps_keys (s : State) (f : SMap QpSt → SMap QpSt) : (s.modQps f).keys = s.keys := rfl
@[simp] theorem State.modQps_stile (s : State) (f : SMap QpSt → SMap QpSt) : (s.modQps f).stile = s.stile := rfl
@[simp] theorem State.modQps_trust (s : State) (f : SMap QpSt → SMap QpSt) : (s.modQps f).trust = s.trust := rfl
@[simp] theorem State.modQps_funcs (s : State) (f : SMap QpSt → SMap QpSt) : (s.modQps f).funcs = s.funcs := rfl
@[simp] theorem State.modQps_spine (s : State) (f : SMap QpSt → SMap QpSt) : (s.modQps f).spine = s.spine := rfl
@[simp] theorem State.modQps_fallow (s : State) (f : SMap QpSt → SMap QpSt) : (s.modQps f).fallow = s.fallow := rfl
@[simp] theorem State.modQps_board (s : State) (f : SMap QpSt → SMap QpSt) : (s.modQps f).board = s.board := rfl

/-! ### modSpine -/

@[simp] theorem State.modSpine_spine (s : State) (f : SpineSt → SpineSt) : (s.modSpine f).spine = f s.spine := rfl
@[simp] theorem State.modSpine_pending (s : State) (f : SpineSt → SpineSt) : (s.modSpine f).pending = s.pending := rfl
@[simp] theorem State.modSpine_fresh (s : State) (f : SpineSt → SpineSt) : (s.modSpine f).fresh = s.fresh := rfl
@[simp] theorem State.modSpine_readData (s : State) (f : SpineSt → SpineSt) : (s.modSpine f).readData = s.readData := rfl
@[simp] theorem State.modSpine_variant (s : State) (f : SpineSt → SpineSt) : (s.modSpine f).variant = s.variant := rfl
@[simp] theorem State.modSpine_regs (s : State) (f : SpineSt → SpineSt) : (s.modSpine f).regs = s.regs := rfl
@[simp] theorem State.modSpine_gath (s : State) (f : SpineSt → SpineSt) : (s.modSpine f).gath = s.gath := rfl
@[simp] theorem State.modSpine_time (s : State) (f : SpineSt → SpineSt) : (s.modSpine f).time = s.time := rfl
@[simp] theorem State.modSpine_ev (s : State) (f : SpineSt → SpineSt) : (s.modSpine f).ev = s.ev := rfl
@[simp] theorem State.modSpine_reports (s : State) (f : SpineSt → SpineSt) : (s.modSpine f).reports = s.reports := rfl
@[simp] theorem State.modSpine_packets (s : State) (f : SpineSt → SpineSt) : (s.modSpine f).packets = s.packets := rfl
@[simp] theorem State.modSpine_nextPid (s : State) (f : SpineSt → SpineSt) : (s.modSpine f).nextPid = s.nextPid := rfl
@[simp] theorem State.modSpine_tedder (s : State) (f : SpineSt → SpineSt) : (s.modSpine f).tedder = s.tedder := rfl
@[simp] theorem State.modSpine_windrow (s : State) (f : SpineSt → SpineSt) : (s.modSpine f).windrow = s.windrow := rfl
@[simp] theorem State.modSpine_loft (s : State) (f : SpineSt → SpineSt) : (s.modSpine f).loft = s.loft := rfl
@[simp] theorem State.modSpine_kettle (s : State) (f : SpineSt → SpineSt) : (s.modSpine f).kettle = s.kettle := rfl
@[simp] theorem State.modSpine_ports (s : State) (f : SpineSt → SpineSt) : (s.modSpine f).ports = s.ports := rfl
@[simp] theorem State.modSpine_drover (s : State) (f : SpineSt → SpineSt) : (s.modSpine f).drover = s.drover := rfl
@[simp] theorem State.modSpine_commons (s : State) (f : SpineSt → SpineSt) : (s.modSpine f).commons = s.commons := rfl
@[simp] theorem State.modSpine_mower (s : State) (f : SpineSt → SpineSt) : (s.modSpine f).mower = s.mower := rfl
@[simp] theorem State.modSpine_mem (s : State) (f : SpineSt → SpineSt) : (s.modSpine f).mem = s.mem := rfl
@[simp] theorem State.modSpine_sheaf (s : State) (f : SpineSt → SpineSt) : (s.modSpine f).sheaf = s.sheaf := rfl
@[simp] theorem State.modSpine_ling (s : State) (f : SpineSt → SpineSt) : (s.modSpine f).ling = s.ling := rfl
@[simp] theorem State.modSpine_warren (s : State) (f : SpineSt → SpineSt) : (s.modSpine f).warren = s.warren := rfl
@[simp] theorem State.modSpine_threads (s : State) (f : SpineSt → SpineSt) : (s.modSpine f).threads = s.threads := rfl
@[simp] theorem State.modSpine_quires (s : State) (f : SpineSt → SpineSt) : (s.modSpine f).quires = s.quires := rfl
@[simp] theorem State.modSpine_keys (s : State) (f : SpineSt → SpineSt) : (s.modSpine f).keys = s.keys := rfl
@[simp] theorem State.modSpine_stile (s : State) (f : SpineSt → SpineSt) : (s.modSpine f).stile = s.stile := rfl
@[simp] theorem State.modSpine_trust (s : State) (f : SpineSt → SpineSt) : (s.modSpine f).trust = s.trust := rfl
@[simp] theorem State.modSpine_funcs (s : State) (f : SpineSt → SpineSt) : (s.modSpine f).funcs = s.funcs := rfl
@[simp] theorem State.modSpine_qps (s : State) (f : SpineSt → SpineSt) : (s.modSpine f).qps = s.qps := rfl
@[simp] theorem State.modSpine_fallow (s : State) (f : SpineSt → SpineSt) : (s.modSpine f).fallow = s.fallow := rfl
@[simp] theorem State.modSpine_board (s : State) (f : SpineSt → SpineSt) : (s.modSpine f).board = s.board := rfl

/-! ### modFallow -/

@[simp] theorem State.modFallow_fallow (s : State) (f : FallowSt → FallowSt) : (s.modFallow f).fallow = f s.fallow := rfl
@[simp] theorem State.modFallow_pending (s : State) (f : FallowSt → FallowSt) : (s.modFallow f).pending = s.pending := rfl
@[simp] theorem State.modFallow_fresh (s : State) (f : FallowSt → FallowSt) : (s.modFallow f).fresh = s.fresh := rfl
@[simp] theorem State.modFallow_readData (s : State) (f : FallowSt → FallowSt) : (s.modFallow f).readData = s.readData := rfl
@[simp] theorem State.modFallow_variant (s : State) (f : FallowSt → FallowSt) : (s.modFallow f).variant = s.variant := rfl
@[simp] theorem State.modFallow_regs (s : State) (f : FallowSt → FallowSt) : (s.modFallow f).regs = s.regs := rfl
@[simp] theorem State.modFallow_gath (s : State) (f : FallowSt → FallowSt) : (s.modFallow f).gath = s.gath := rfl
@[simp] theorem State.modFallow_time (s : State) (f : FallowSt → FallowSt) : (s.modFallow f).time = s.time := rfl
@[simp] theorem State.modFallow_ev (s : State) (f : FallowSt → FallowSt) : (s.modFallow f).ev = s.ev := rfl
@[simp] theorem State.modFallow_reports (s : State) (f : FallowSt → FallowSt) : (s.modFallow f).reports = s.reports := rfl
@[simp] theorem State.modFallow_packets (s : State) (f : FallowSt → FallowSt) : (s.modFallow f).packets = s.packets := rfl
@[simp] theorem State.modFallow_nextPid (s : State) (f : FallowSt → FallowSt) : (s.modFallow f).nextPid = s.nextPid := rfl
@[simp] theorem State.modFallow_tedder (s : State) (f : FallowSt → FallowSt) : (s.modFallow f).tedder = s.tedder := rfl
@[simp] theorem State.modFallow_windrow (s : State) (f : FallowSt → FallowSt) : (s.modFallow f).windrow = s.windrow := rfl
@[simp] theorem State.modFallow_loft (s : State) (f : FallowSt → FallowSt) : (s.modFallow f).loft = s.loft := rfl
@[simp] theorem State.modFallow_kettle (s : State) (f : FallowSt → FallowSt) : (s.modFallow f).kettle = s.kettle := rfl
@[simp] theorem State.modFallow_ports (s : State) (f : FallowSt → FallowSt) : (s.modFallow f).ports = s.ports := rfl
@[simp] theorem State.modFallow_drover (s : State) (f : FallowSt → FallowSt) : (s.modFallow f).drover = s.drover := rfl
@[simp] theorem State.modFallow_commons (s : State) (f : FallowSt → FallowSt) : (s.modFallow f).commons = s.commons := rfl
@[simp] theorem State.modFallow_mower (s : State) (f : FallowSt → FallowSt) : (s.modFallow f).mower = s.mower := rfl
@[simp] theorem State.modFallow_mem (s : State) (f : FallowSt → FallowSt) : (s.modFallow f).mem = s.mem := rfl
@[simp] theorem State.modFallow_sheaf (s : State) (f : FallowSt → FallowSt) : (s.modFallow f).sheaf = s.sheaf := rfl
@[simp] theorem State.modFallow_ling (s : State) (f : FallowSt → FallowSt) : (s.modFallow f).ling = s.ling := rfl
@[simp] theorem State.modFallow_warren (s : State) (f : FallowSt → FallowSt) : (s.modFallow f).warren = s.warren := rfl
@[simp] theorem State.modFallow_threads (s : State) (f : FallowSt → FallowSt) : (s.modFallow f).threads = s.threads := rfl
@[simp] theorem State.modFallow_quires (s : State) (f : FallowSt → FallowSt) : (s.modFallow f).quires = s.quires := rfl
@[simp] theorem State.modFallow_keys (s : State) (f : FallowSt → FallowSt) : (s.modFallow f).keys = s.keys := rfl
@[simp] theorem State.modFallow_stile (s : State) (f : FallowSt → FallowSt) : (s.modFallow f).stile = s.stile := rfl
@[simp] theorem State.modFallow_trust (s : State) (f : FallowSt → FallowSt) : (s.modFallow f).trust = s.trust := rfl
@[simp] theorem State.modFallow_funcs (s : State) (f : FallowSt → FallowSt) : (s.modFallow f).funcs = s.funcs := rfl
@[simp] theorem State.modFallow_qps (s : State) (f : FallowSt → FallowSt) : (s.modFallow f).qps = s.qps := rfl
@[simp] theorem State.modFallow_spine (s : State) (f : FallowSt → FallowSt) : (s.modFallow f).spine = s.spine := rfl
@[simp] theorem State.modFallow_board (s : State) (f : FallowSt → FallowSt) : (s.modFallow f).board = s.board := rfl

/-! ### modBoard -/

@[simp] theorem State.modBoard_board (s : State) (f : BoardSt → BoardSt) : (s.modBoard f).board = f s.board := rfl
@[simp] theorem State.modBoard_pending (s : State) (f : BoardSt → BoardSt) : (s.modBoard f).pending = s.pending := rfl
@[simp] theorem State.modBoard_fresh (s : State) (f : BoardSt → BoardSt) : (s.modBoard f).fresh = s.fresh := rfl
@[simp] theorem State.modBoard_readData (s : State) (f : BoardSt → BoardSt) : (s.modBoard f).readData = s.readData := rfl
@[simp] theorem State.modBoard_variant (s : State) (f : BoardSt → BoardSt) : (s.modBoard f).variant = s.variant := rfl
@[simp] theorem State.modBoard_regs (s : State) (f : BoardSt → BoardSt) : (s.modBoard f).regs = s.regs := rfl
@[simp] theorem State.modBoard_gath (s : State) (f : BoardSt → BoardSt) : (s.modBoard f).gath = s.gath := rfl
@[simp] theorem State.modBoard_time (s : State) (f : BoardSt → BoardSt) : (s.modBoard f).time = s.time := rfl
@[simp] theorem State.modBoard_ev (s : State) (f : BoardSt → BoardSt) : (s.modBoard f).ev = s.ev := rfl
@[simp] theorem State.modBoard_reports (s : State) (f : BoardSt → BoardSt) : (s.modBoard f).reports = s.reports := rfl
@[simp] theorem State.modBoard_packets (s : State) (f : BoardSt → BoardSt) : (s.modBoard f).packets = s.packets := rfl
@[simp] theorem State.modBoard_nextPid (s : State) (f : BoardSt → BoardSt) : (s.modBoard f).nextPid = s.nextPid := rfl
@[simp] theorem State.modBoard_tedder (s : State) (f : BoardSt → BoardSt) : (s.modBoard f).tedder = s.tedder := rfl
@[simp] theorem State.modBoard_windrow (s : State) (f : BoardSt → BoardSt) : (s.modBoard f).windrow = s.windrow := rfl
@[simp] theorem State.modBoard_loft (s : State) (f : BoardSt → BoardSt) : (s.modBoard f).loft = s.loft := rfl
@[simp] theorem State.modBoard_kettle (s : State) (f : BoardSt → BoardSt) : (s.modBoard f).kettle = s.kettle := rfl
@[simp] theorem State.modBoard_ports (s : State) (f : BoardSt → BoardSt) : (s.modBoard f).ports = s.ports := rfl
@[simp] theorem State.modBoard_drover (s : State) (f : BoardSt → BoardSt) : (s.modBoard f).drover = s.drover := rfl
@[simp] theorem State.modBoard_commons (s : State) (f : BoardSt → BoardSt) : (s.modBoard f).commons = s.commons := rfl
@[simp] theorem State.modBoard_mower (s : State) (f : BoardSt → BoardSt) : (s.modBoard f).mower = s.mower := rfl
@[simp] theorem State.modBoard_mem (s : State) (f : BoardSt → BoardSt) : (s.modBoard f).mem = s.mem := rfl
@[simp] theorem State.modBoard_sheaf (s : State) (f : BoardSt → BoardSt) : (s.modBoard f).sheaf = s.sheaf := rfl
@[simp] theorem State.modBoard_ling (s : State) (f : BoardSt → BoardSt) : (s.modBoard f).ling = s.ling := rfl
@[simp] theorem State.modBoard_warren (s : State) (f : BoardSt → BoardSt) : (s.modBoard f).warren = s.warren := rfl
@[simp] theorem State.modBoard_threads (s : State) (f : BoardSt → BoardSt) : (s.modBoard f).threads = s.threads := rfl
@[simp] theorem State.modBoard_quires (s : State) (f : BoardSt → BoardSt) : (s.modBoard f).quires = s.quires := rfl
@[simp] theorem State.modBoard_keys (s : State) (f : BoardSt → BoardSt) : (s.modBoard f).keys = s.keys := rfl
@[simp] theorem State.modBoard_stile (s : State) (f : BoardSt → BoardSt) : (s.modBoard f).stile = s.stile := rfl
@[simp] theorem State.modBoard_trust (s : State) (f : BoardSt → BoardSt) : (s.modBoard f).trust = s.trust := rfl
@[simp] theorem State.modBoard_funcs (s : State) (f : BoardSt → BoardSt) : (s.modBoard f).funcs = s.funcs := rfl
@[simp] theorem State.modBoard_qps (s : State) (f : BoardSt → BoardSt) : (s.modBoard f).qps = s.qps := rfl
@[simp] theorem State.modBoard_spine (s : State) (f : BoardSt → BoardSt) : (s.modBoard f).spine = s.spine := rfl
@[simp] theorem State.modBoard_fallow (s : State) (f : BoardSt → BoardSt) : (s.modBoard f).fallow = s.fallow := rfl

end Sys2Proof.Machine
end

