-- ==== Sys2Proof/Laws/Tables.lean ====
section
/-! SUPPORT. What the operations on sparse tables and on memories do: a read after a write gives what was written at its number
and what was there at every other, and every write of a memory keeps the canonical form. -/

namespace Sys2Proof.Machine

variable {α : Type}

/-! ### Finding -/

@[simp] theorem SMap.find_nil (k : Nat) : SMap.find ([] : SMap α) k = none := rfl

@[simp] theorem SMap.find_erase_self (m : SMap α) (k : Nat) : SMap.find (SMap.erase m k) k = none := by
  induction m with
  | nil => rfl
  | cons e m ih =>
    obtain ⟨j, v⟩ := e
    by_cases h : k = j <;> simp [SMap.erase, SMap.find, h, ih]
    simpa [h] using ih

theorem SMap.find_erase_of_ne (m : SMap α) {j k : Nat} (h : k ≠ j) : SMap.find (SMap.erase m j) k = SMap.find m k := by
  induction m with
  | nil => rfl
  | cons e m ih =>
    obtain ⟨i, v⟩ := e
    by_cases hj : j = i
    · subst hj; simp [SMap.erase, SMap.find, h, ih]
    · by_cases hk : k = i <;> simp [SMap.erase, SMap.find, hj, hk, ih]

theorem SMap.find_insert_self (m : SMap α) (k : Nat) (v : α) (h : SMap.find m k = none) :
    SMap.find (SMap.insert m k v) k = some v := by
  induction m with
  | nil => simp [SMap.insert, SMap.find]
  | cons e m ih =>
    obtain ⟨i, x⟩ := e
    by_cases hk : k = i
    · simp [SMap.find, hk] at h
    · simp only [SMap.find, hk, if_false] at h
      by_cases hlt : k < i <;> simp [SMap.insert, SMap.find, hlt, hk, ih h]

theorem SMap.find_insert_of_ne (m : SMap α) {j k : Nat} (v : α) (h : k ≠ j) :
    SMap.find (SMap.insert m j v) k = SMap.find m k := by
  induction m with
  | nil => simp [SMap.insert, SMap.find, h]
  | cons e m ih =>
    obtain ⟨i, x⟩ := e
    by_cases hlt : j < i
    · simp [SMap.insert, SMap.find, hlt, h]
    · by_cases hk : k = i <;> simp [SMap.insert, SMap.find, hlt, hk, ih]

@[simp] theorem SMap.find_put_self (m : SMap α) (k : Nat) (v : α) : SMap.find (SMap.put m k v) k = some v :=
  SMap.find_insert_self _ _ _ (SMap.find_erase_self m k)

theorem SMap.find_put_of_ne (m : SMap α) {j k : Nat} (v : α) (h : k ≠ j) : SMap.find (SMap.put m j v) k = SMap.find m k := by
  rw [SMap.put, SMap.find_insert_of_ne _ _ h, SMap.find_erase_of_ne _ h]

/-! ### Tables whose unlisted numbers hold a default -/

@[simp] theorem SMap.get_set_self [DecidableEq α] (d : Nat → α) (m : SMap α) (k : Nat) (v : α) :
    SMap.get d (SMap.set d m k v) k = v := by
  by_cases h : v = d k <;> simp [SMap.get, SMap.set, h]

theorem SMap.get_set_of_ne [DecidableEq α] (d : Nat → α) (m : SMap α) {j k : Nat} (v : α) (h : k ≠ j) :
    SMap.get d (SMap.set d m j v) k = SMap.get d m k := by
  by_cases hv : v = d j <;> simp [SMap.get, SMap.set, hv, SMap.find_erase_of_ne _ h, SMap.find_put_of_ne _ _ h]

/-! ### Memories -/

@[simp] theorem Memory.read_write_self (m : List Host.Cell) (a : Nat) (b : Byte) : Memory.read (Memory.write m a b) a = b :=
  SMap.get_set_self _ _ _ _

theorem Memory.read_write_of_ne (m : List Host.Cell) {a c : Nat} (b : Byte) (h : c ≠ a) :
    Memory.read (Memory.write m a b) c = Memory.read m c := SMap.get_set_of_ne _ _ _ h

/-- A write of bytes leaves every address outside them as it was. -/
theorem Memory.read_writeBytes_outside (bs : List Byte) (m : List Host.Cell) (a c : Nat) (h : c < a ∨ a + bs.length ≤ c) :
    Memory.read (Memory.writeBytes m a bs) c = Memory.read m c := by
  induction bs generalizing m a with
  | nil => rfl
  | cons b bs ih =>
    simp only [List.length_cons] at h
    rw [Memory.writeBytes, ih _ _ (by omega), Memory.read_write_of_ne _ _ (by omega)]

/-! ### The canonical form -/

/-- Every number of a table is above `k`. -/
def SMap.above (k : Nat) (m : SMap α) : Prop := ∀ e ∈ m, k < e.1

theorem SMap.sorted_cons (e : Nat × α) (m : SMap α) : SMap.sorted (e :: m) = true ↔ SMap.above e.1 m ∧ SMap.sorted m = true := by
  induction m generalizing e with
  | nil => simp [SMap.sorted, SMap.above]
  | cons f m ih =>
    obtain ⟨k, v⟩ := e
    obtain ⟨j, w⟩ := f
    simp only [SMap.sorted, Bool.and_eq_true, decide_eq_true_eq, SMap.above, List.mem_cons, forall_eq_or_imp]
    constructor
    · rintro ⟨hkj, hs⟩
      exact ⟨⟨hkj, fun e he => lt_trans hkj (((ih (j, w)).1 hs).1 e he)⟩, hs⟩
    · rintro ⟨⟨hkj, -⟩, hs⟩
      exact ⟨hkj, hs⟩

theorem SMap.mem_erase {m : SMap α} {k : Nat} {e : Nat × α} (h : e ∈ SMap.erase m k) : e ∈ m ∧ e.1 ≠ k := by
  induction m with
  | nil => simp [SMap.erase] at h
  | cons f m ih =>
    obtain ⟨j, v⟩ := f
    by_cases hk : k = j
    · simp only [SMap.erase, hk, if_true] at h
      have := ih (by simpa [hk] using h)
      exact ⟨List.mem_cons_of_mem _ this.1, this.2⟩
    · simp only [SMap.erase, hk, if_false, List.mem_cons] at h
      rcases h with rfl | h
      · exact ⟨List.mem_cons_self, fun hj => hk hj.symm⟩
      · exact ⟨List.mem_cons_of_mem _ (ih h).1, (ih h).2⟩

theorem SMap.sorted_erase {m : SMap α} (k : Nat) (h : SMap.sorted m = true) : SMap.sorted (SMap.erase m k) = true := by
  induction m with
  | nil => rfl
  | cons f m ih =>
    obtain ⟨j, v⟩ := f
    rw [SMap.sorted_cons] at h
    by_cases hk : k = j
    · simpa [SMap.erase, hk] using ih h.2
    · simp only [SMap.erase, hk, if_false]
      rw [SMap.sorted_cons]
      exact ⟨fun e he => h.1 e (SMap.mem_erase he).1, ih h.2⟩

theorem SMap.mem_insert {m : SMap α} {k : Nat} {v : α} {e : Nat × α} (h : e ∈ SMap.insert m k v) : e = (k, v) ∨ e ∈ m := by
  induction m with
  | nil => simpa [SMap.insert] using h
  | cons f m ih =>
    obtain ⟨j, w⟩ := f
    by_cases hk : k < j
    · simpa [SMap.insert, hk] using h
    · simp only [SMap.insert, hk, if_false, List.mem_cons] at h
      rcases h with rfl | h
      · exact .inr List.mem_cons_self
      · exact (ih h).imp_right (List.mem_cons_of_mem _)

theorem SMap.sorted_insert {m : SMap α} (k : Nat) (v : α) (h : SMap.sorted m = true) (hk : ∀ e ∈ m, e.1 ≠ k) :
    SMap.sorted (SMap.insert m k v) = true := by
  induction m with
  | nil => rfl
  | cons f m ih =>
    obtain ⟨j, w⟩ := f
    have hs := (SMap.sorted_cons _ _).1 h
    by_cases hlt : k < j
    · simp only [SMap.insert, hlt, if_true]
      rw [SMap.sorted_cons]
      refine ⟨fun e he => ?_, h⟩
      rcases List.mem_cons.1 he with rfl | he
      · exact hlt
      · exact lt_trans hlt (hs.1 e he)
    · simp only [SMap.insert, hlt, if_false]
      rw [SMap.sorted_cons]
      refine ⟨fun e he => ?_, ih hs.2 fun e he => hk e (List.mem_cons_of_mem _ he)⟩
      rcases SMap.mem_insert he with rfl | he
      · have := hk (j, w) List.mem_cons_self
        simp only at this
        show j < k
        omega
      · exact hs.1 e he

/-- A table in canonical form stays so when a number is written. -/
theorem SMap.wf_set [DecidableEq α] (d : Nat → α) {m : SMap α} (k : Nat) (v : α) (h : SMap.wf d m = true) :
    SMap.wf d (SMap.set d m k v) = true := by
  simp only [SMap.wf, Bool.and_eq_true, List.all_eq_true, decide_eq_true_eq] at h ⊢
  by_cases hv : v = d k
  · simp only [SMap.set, hv, if_true]
    exact ⟨SMap.sorted_erase k h.1, fun e he => h.2 e (SMap.mem_erase he).1⟩
  · simp only [SMap.set, hv, if_false, SMap.put]
    refine ⟨SMap.sorted_insert k v (SMap.sorted_erase k h.1) fun e he => (SMap.mem_erase he).2, fun e he => ?_⟩
    rcases SMap.mem_insert he with rfl | he
    · exact hv
    · exact h.2 e (SMap.mem_erase he).1

/-- A memory in canonical form stays so when a byte is written. -/
theorem Memory.wf_write {m : List Host.Cell} (a : Nat) (b : Byte) (h : Memory.wf m = true) : Memory.wf (Memory.write m a b) = true :=
  SMap.wf_set _ _ _ h

/-- A table of which only some entries are kept is still sorted, and canonical. -/
theorem SMap.sorted_filter (p : Nat × α → Bool) : ∀ {m : SMap α}, SMap.sorted m = true → SMap.sorted (m.filter p) = true
  | [], _ => rfl
  | e :: m, h => by
    have hm := (SMap.sorted_cons e m).1 h
    rcases Bool.eq_false_or_eq_true (p e) with he | he
    · rw [List.filter_cons_of_pos he, SMap.sorted_cons]
      exact ⟨fun x hx => hm.1 x (List.mem_filter.1 hx).1, SMap.sorted_filter p hm.2⟩
    · rw [List.filter_cons_of_neg (by simp [he])]
      exact SMap.sorted_filter p hm.2

theorem SMap.wf_filter [DecidableEq α] (d : Nat → α) (p : Nat × α → Bool) {m : SMap α} (h : SMap.wf d m = true) : SMap.wf d (m.filter p) = true := by
  simp only [SMap.wf, Bool.and_eq_true, List.all_eq_true] at h ⊢
  exact ⟨SMap.sorted_filter p h.1, fun x hx => h.2 x (List.mem_filter.1 hx).1⟩

/-- A memory of which some stretch is cleared keeps the canonical form. -/
theorem Memory.wf_filter (p : Host.Cell → Bool) {m : List Host.Cell} (h : Memory.wf m = true) : Memory.wf (m.filter p) = true :=
  SMap.wf_filter unlistedByte p h

/-- A memory in canonical form stays so when bytes are written. -/
theorem Memory.wf_writeBytes (bs : List Byte) {m : List Host.Cell} (a : Nat) (h : Memory.wf m = true) :
    Memory.wf (Memory.writeBytes m a bs) = true := by
  induction bs generalizing m a with
  | nil => exact h
  | cons b bs ih => exact ih _ (Memory.wf_write a b h)

end Sys2Proof.Machine
end

