-- ==== Sys2Proof/Laws/Leaf.lean ====
section
/-! SUPPORT. What the shared operations of Leaf threads do: the record of a thread after it is replaced, an instruction that is
issued, and what its slot leaves. -/

namespace Sys2Proof.Machine

open Sys2Proof.Safety

/-! ### Threads, tasks and Quires after an update -/

@[simp] theorem State.thread_setThread_self (s : State) (t : Nat) (th : Thread) :
    (s.setThread t th).thread t = th.noted s.time.cycles (s.isSup t) := by
  simp [State.setThread, State.thread]

theorem State.thread_setThread_of_ne (s : State) {t x : Nat} (th : Thread) (h : x ≠ t) :
    (s.setThread t th).thread x = s.thread x := by
  simp [State.setThread, State.thread, SMap.get_set_of_ne _ _ _ h]

@[simp] theorem State.quire_setThread (s : State) (t q : Nat) (th : Thread) : (s.setThread t th).quire q = s.quire q := rfl
@[simp] theorem State.isSup_setThread (s : State) (t x : Nat) (th : Thread) : (s.setThread t th).isSup x = s.isSup x := rfl
@[simp] theorem State.time_setThread (s : State) (t : Nat) (th : Thread) : (s.setThread t th).time = s.time := rfl
@[simp] theorem State.kettle_setThread (s : State) (t : Nat) (th : Thread) : (s.setThread t th).kettle = s.kettle := rfl
@[simp] theorem State.mower_setThread (s : State) (t : Nat) (th : Thread) : (s.setThread t th).mower = s.mower := rfl
@[simp] theorem State.regs_setThread (s : State) (t : Nat) (th : Thread) : (s.setThread t th).regs = s.regs := rfl
@[simp] theorem State.task_setThread (s : State) (t k : Nat) (th : Thread) : (s.setThread t th).task k = s.task k := rfl

/-- A thread replaced changes the threads of the block and nothing else. -/
theorem State.setThread_frame (s : State) (t : Nat) (th : Thread) : s.setThread t th = { s with threads := (s.setThread t th).threads } := rfl

@[simp] theorem State.quire_setQuire_self (s : State) (q : Nat) (x : QuireSt) : (s.setQuire q x).quire q = x := by
  simp [State.setQuire, State.quire]

theorem State.quire_setQuire_of_ne (s : State) {q r : Nat} (x : QuireSt) (h : r ≠ q) : (s.setQuire q x).quire r = s.quire r := by
  simp [State.setQuire, State.quire, SMap.get_set_of_ne _ _ _ h]

@[simp] theorem State.task_setTask_self (s : State) (k : Nat) (x : Task) : (s.setTask k x).task k = some x := by
  simp [State.setTask, State.task]

theorem State.task_setTask_of_ne (s : State) {k j : Nat} (x : Task) (h : j ≠ k) : (s.setTask k x).task j = s.task j := by
  simp [State.setTask, State.task, SMap.find_put_of_ne _ _ h]

/-! ### Slots (R174) -/

/-- Slots are charged to the task that is named, and touch nothing else. -/
theorem State.charge_frame (s : State) (k : Option Nat) (n : Nat) :
    s.charge k n = { s with kettle := { s.kettle with tasks := (s.charge k n).kettle.tasks } } := by
  unfold State.charge
  split
  · split <;> rfl
  · rfl

theorem State.task_charge_self (s : State) {k : Nat} {x : Task} (n : Nat) (h : s.task k = some x) :
    (s.charge (some k) n).task k = some { x with slots := x.slots + n } := by
  simp [State.charge, h]

theorem State.task_charge_of_ne (s : State) {k : Option Nat} {j : Nat} (n : Nat) (h : k ≠ some j) :
    (s.charge k n).task j = s.task j := by
  unfold State.charge
  split
  · rename_i k
    split
    · exact State.task_setTask_of_ne s _ (fun hj => h (by rw [hj]))
    · rfl
  · rfl

@[simp] theorem State.thread_charge (s : State) (k : Option Nat) (n t : Nat) : (s.charge k n).thread t = s.thread t := by
  rw [State.charge_frame]; rfl
@[simp] theorem State.quire_charge (s : State) (k : Option Nat) (n q : Nat) : (s.charge k n).quire q = s.quire q := by
  rw [State.charge_frame]; rfl
@[simp] theorem State.isSup_charge (s : State) (k : Option Nat) (n t : Nat) : (s.charge k n).isSup t = s.isSup t := by
  rw [State.charge_frame]; rfl
@[simp] theorem State.time_charge (s : State) (k : Option Nat) (n : Nat) : (s.charge k n).time = s.time := by
  rw [State.charge_frame]

/-! ### Landing changes registers, flags and control registers only -/

theorem Thread.setG_keeps (th : Thread) (r : Nat) (v : Word64) : th.setG r v = { th with regs := (th.setG r v).regs } := by
  unfold Thread.setG; split <;> rfl

/-- What landing keeps of a thread. -/
theorem Thread.landOne_keeps (th : Thread) (p : Pend) :
    (th.landOne p).pc = th.pc ∧ (th.landOne p).issued = th.issued ∧ (th.landOne p).task = th.task ∧ (th.landOne p).wait = th.wait ∧
    (th.landOne p).inDelay = th.inDelay ∧ (th.landOne p).after = th.after ∧ (th.landOne p).annul = th.annul ∧
    (th.landOne p).mem = th.mem ∧ (th.landOne p).ops = th.ops ∧ (th.landOne p).handler = th.handler ∧ (th.landOne p).step = th.step := by
  unfold Thread.landOne Thread.setG Thread.writeTcr
  split
  · split <;> simp
  · split <;> [(split <;> simp); simp]

theorem Thread.landN_keeps (n j : Nat) (th : Thread) :
    (th.landN n j).pc = th.pc ∧ (th.landN n j).issued = th.issued ∧ (th.landN n j).task = th.task ∧ (th.landN n j).wait = th.wait ∧
    (th.landN n j).inDelay = th.inDelay ∧ (th.landN n j).after = th.after ∧ (th.landN n j).annul = th.annul ∧
    (th.landN n j).mem = th.mem ∧ (th.landN n j).ops = th.ops ∧ (th.landN n j).handler = th.handler ∧ (th.landN n j).step = th.step := by
  induction n generalizing th with
  | zero => simp [Thread.landN]
  | succ n ih =>
    unfold Thread.landN
    split
    · rename_i p _
      have h := ih (th.landOne p)
      have k := Thread.landOne_keeps th p
      simp_all
    · simp

theorem Thread.landed_keeps (th : Thread) :
    th.landed.pc = th.pc ∧ th.landed.issued = th.issued ∧ th.landed.task = th.task ∧ th.landed.wait = th.wait ∧
    th.landed.inDelay = th.inDelay ∧ th.landed.after = th.after ∧ th.landed.annul = th.annul ∧
    th.landed.mem = th.mem ∧ th.landed.ops = th.ops ∧ th.landed.handler = th.handler ∧ th.landed.step = th.step := by
  unfold Thread.landed
  split
  · exact Thread.landN_keeps _ _ _
  · simp

/-! ### Issue (R173, R222, R232) -/

/-- A read that meets no codeword in error finds none, and logs nothing. -/
theorem State.eccRead_clean (s : State) (w inst a n : Nat) (h : (s.errsIn w inst a n).filter EccErr.shows = []) :
    s.eccRead w inst a n = (false, s) := by
  simp [State.eccRead, h]

theorem State.heldTask_budget {s : State} {t : Nat} (h : ∀ k x, s.heldTask t = some (k, x) → x.slots < x.budget) :
    (s.heldTask t).any (fun x => decide (x.2.budget ≤ x.2.slots)) = false := by
  cases hk : s.heldTask t with
  | none => rfl
  | some p => obtain ⟨k, x⟩ := p; have := h k x hk; simp; omega

/-- An instruction that its thread issues does what its body says, unless the body stalls it. -/
theorem State.leafRun_issues {s : State} {t : Nat} {w : Word32} {body : State → Thread → LeafAct} (h : Issues s t w)
    (known : leafKnown w = true) (go : ∀ u, body (s.setThread t (ready s t)) (ready s t) ≠ .stall u) :
    s.leafRun t w body = .next (settleAct t w (ready s t).task (body (s.setThread t (ready s t)) (ready s t))) := by
  obtain ⟨⟨can, word, budget, annul, clean⟩, slot⟩ := h
  have hb := State.heldTask_budget budget
  have ha : ((ready s t).inDelay && (ready s t).annul) = false := by
    cases hd : (ready s t).inDelay
    · rfl
    · simpa [hd] using annul hd
  have hs : ((ready s t).inDelay && noDelaySlot w) = false := by
    cases hd : (ready s t).inDelay
    · rfl
    · simpa [hd] using slot hd
  have he := State.eccRead_clean s _ _ _ _ clean
  unfold State.leafRun State.issue
  simp only [ready] at *
  simp only [can, word, hb, ha, hs, he, known, Bool.not_true, Bool.false_eq_true, if_false, ne_eq, not_true_eq_false, decide_false, Bool.false_and]

/-- The thread that a replaced thread's next command finds, but for the marks of time. -/
theorem Thread.noted_eq (th : Thread) (now : Nat) (sup : Bool) :
    th.noted now sup = { th with reqSince := (th.noted now sup).reqSince, quietSince := (th.noted now sup).quietSince,
                                 haltedSince := (th.noted now sup).haltedSince } := rfl

/-- The end of an episode of quiet deadlock touches the episode of the thread's Quire and nothing else. -/
theorem State.endEpisode_frame (s : State) (t : Nat) :
    s.endEpisode t = { s with quires := (s.endEpisode t).quires } ∧ (∀ x, (s.endEpisode t).thread x = s.thread x) ∧
    (∀ k, (s.endEpisode t).task k = s.task k) ∧
    ∀ q, (s.endEpisode t).quire q = { s.quire q with episode := ((s.endEpisode t).quire q).episode } := by
  unfold State.endEpisode
  dsimp only
  split
  · refine ⟨rfl, fun _ => rfl, fun _ => rfl, fun q => ?_⟩
    by_cases h : q = tidQuire t
    · subst h; simp
    · simp [State.quire_setQuire_of_ne _ _ h]
  · exact ⟨rfl, fun _ => rfl, fun _ => rfl, fun _ => rfl⟩

/-- What the slot of an instruction leaves that changed its own thread only, into a thread that does not wait. -/
theorem settle_next {s : State} {t : Nat} {w : Word32} {th th' : Thread} (htask : th.task = (s.thread t).task) (hw : th'.wait = .none) :
    let u := settleAct t w th.task (.next ((s.setThread t th).setThread t th'))
    OnlyThread s u t ∧ ThreadIs (u.thread t) th' ((if th'.inDelay then th'.after.getD (th'.pc + 4) else th'.pc + 4) % 0x80000)
      false none false := by
  intro u
  obtain ⟨e1, e2, e3, e4⟩ := State.endEpisode_frame
    ((((s.setThread t th).setThread t th').charge th.task 1).modThread t (fun th => th.goOn.counted)) t
  refine ⟨⟨?_, ?_, ?_, ?_, ?_⟩, ?_⟩
  · show u = _
    simp only [u, settleAct]
    rw [e1]
    simp only [State.modThread]
    rw [State.setThread_frame, State.charge_frame]
    rfl
  · intro x hx
    simp only [u, settleAct]
    rw [e2, State.modThread, State.thread_setThread_of_ne _ _ hx]
    simp [State.thread_setThread_of_ne _ _ hx]
  · intro k x hk
    simp only [u, settleAct]
    rw [e3, State.modThread, State.task_setThread, htask]
    have hk' : (s.thread t).task = some k ∧ s.task k = some x := by
      unfold State.heldTask at hk
      split at hk
      · rename_i j hj
        cases hx : s.task j with
        | none => simp [hx] at hk
        | some y => simp [hx] at hk; obtain ⟨rfl, rfl⟩ := hk; exact ⟨hj, hx⟩
      · cases hk
    rw [hk'.1]
    exact State.task_charge_self _ _ (by simpa using hk'.2)
  · intro k hk
    simp only [u, settleAct]
    rw [e3, State.modThread, State.task_setThread, htask, State.task_charge_of_ne _ _ hk]
    rfl
  · intro q
    simp only [u, settleAct]
    rw [e4]
    simp [State.modThread]
  · simp only [u, settleAct]
    rw [e2]
    simp only [State.modThread, State.thread_setThread_self, State.thread_charge, State.time_charge, State.isSup_charge,
      State.time_setThread, State.isSup_setThread]
    unfold ThreadIs Thread.counted Thread.goOn
    cases hst : th'.step <;> simp [Thread.noted, Thread.stepped, Thread.waits, hst, hw]

/-- A thread that can issue does not wait (R173). -/
theorem wait_ready {s : State} {t : Nat} (h : s.canIssue t = true) : (ready s t).wait = .none := by
  unfold State.canIssue at h
  simp only [Bool.and_eq_true] at h
  have hw := h.1.2
  unfold Thread.waits at hw
  unfold ready
  split at hw <;> simp_all

/-- An issued instruction that changed its own thread only, and neither its wait nor its place, retires. -/
theorem leafRun_retires {s : State} {t : Nat} {w : Word32} {body : State → Thread → LeafAct} {th' : Thread} (h : Issues s t w)
    (known : leafKnown w = true)
    (hb : body (s.setThread t (ready s t)) (ready s t) = .next ((s.setThread t (ready s t)).setThread t th'))
    (hw : th'.wait = (ready s t).wait) (hd : th'.inDelay = (ready s t).inDelay) (ha : th'.after = (ready s t).after)
    (hp : th'.pc = (ready s t).pc) : ∃ u, s.leafRun t w body = .next u ∧ Retires s u t th' := by
  refine ⟨_, State.leafRun_issues h known (by rw [hb]; intros; simp), ?_⟩
  rw [hb]
  have hs := settle_next (s := s) (t := t) (w := w) (th := ready s t) (th' := th') (Thread.landed_keeps _).2.2.1
    (hw.trans (wait_ready h.1.1))
  simp only [hd, ha, hp] at hs
  exact hs

/-- An instruction that only writes a general register retires with its result on its way. -/
theorem regOp_retires {s : State} {t : Nat} {w : Word32} {gd d : Nat} {f : Thread → Word64} (h : Issues s t w)
    (known : leafKnown w = true) :
    ∃ u, s.regOp t w gd d f = .next u ∧ Retires s u t (withResult (ready s t) gd d (f (ready s t)) false false) := by
  have e : withResult (ready s t) gd d (f (ready s t)) false false = (ready s t).result gd d (f (ready s t)) := by
    unfold withResult Thread.result
    by_cases hz : gd = 0 <;> simp [hz]
  rw [e]
  apply leafRun_retires h known rfl <;> (unfold Thread.result; split <;> rfl)

end Sys2Proof.Machine
end

