-- ==== Sys2Proof/WellFormed.lean ====
section
/-! DEFINITION. The commands whose operands the spec allows. Most operand types hold only what the spec allows; the checks here are
of the operands that are longer than what the spec names. -/

namespace Sys2Proof

/-- Whether a command's operands are ones the spec allows. -/
def Instr.wellFormed : Instr → Bool
  | .bmcCommand bytes => decide (bytes.length ≤ 128)
  | .sensorSample sites => decide (sites.length = 32)
  | .reservedAccess _ _ size _ => decide (size.toNat = 1 ∨ size.toNat = 2 ∨ size.toNat = 4 ∨ size.toNat = 8)
  | _ => true

end Sys2Proof
end

