-- ==== Sys2Proof/Tests/Slice0.lean ====
section
/-! SUPPORT. The row's own tests: ill-formed commands that the checks refuse, words written out from the spec's formats, one step of
commands of every family on a small state, and for each statement with hypotheses a state and operands that meet them. -/

namespace Sys2Proof.Tests

open Sys2Proof.Machine Sys2Proof.Safety

set_option Elab.async false
set_option maxRecDepth 100000

/-! ### Small states -/

/-- A Gathering in a state, bound and without a command. -/
def gat (g : GState) : Gath := ⟨g, .bound, 0, none, none, 0, false⟩

/-- The state after reset with some Gatherings in other states. -/
def withGath (l : List (Nat × GState)) : State := { State.reset with gath := l.map (fun e => (e.1, gat e.2)) }

/-- Leaf 0 of Quire 0 is in service; its thread 1, a worker, or 0, the supervisor, is at address 16 of a program that holds w there. -/
def leafAt (t : Nat) (w : Word32) (f : Thread → Thread) : State :=
  { withGath [(29, .inService)] with
    quires := [(0, { QuireSt.zero with entries := some (0, 0, 0, 0), program := [(4, w)] })]
    threads := [(t, f { Thread.zero with started := true, pc := 16 })] }

/-- Registers g1 to g3 of a thread. -/
def withRegs (a b c : Word64) (th : Thread) : Thread := { th with regs := [(1, a), (2, b), (3, c)] }

/-- A task without a packet, of tenant 5, with 100 instructions left. -/
def taskOf (k : Nat) : Task := ⟨k, 0, 0, false, 5, 7, 0, 100, [], [], 64, 0, none, none, none, 0, false, 0, 0, 0⟩

/-- What a test asks of the state that a command leaves. -/
def leaves (i : Instr) (s : State) (p : State → Bool) : Bool :=
  match exec i s with
  | .next u => p u
  | _ => false

/-- The premises of an issue, as one fact to decide. -/
theorem issues_of {s : State} {t : Nat} {w : Word32} (h : s.canIssue t = true ∧ s.fetch t (ready s t).pc = w ∧ s.heldTask t = none ∧
    (ready s t).inDelay = false ∧ (s.errsIn (quireWin (tidQuire t)) 1 (ready s t).pc 4).filter EccErr.shows = []) : Issues s t w := by
  obtain ⟨a, b, c, d, e⟩ := h
  refine ⟨⟨a, b, ?_, ?_, e⟩, ?_⟩
  · intro k x hk
    rw [c] at hk
    exact absurd hk (by simp)
  · simp [d]
  · simp [d]

/-! ### Ill-formed commands are refused -/

theorem test_wellformed_refuses :
    Instr.wellFormed (.bmcCommand (List.replicate 129 0)) = false ∧ Instr.wellFormed (.bmcCommand (List.replicate 128 0)) = true ∧
    Instr.wellFormed (.sensorSample (List.replicate 31 0)) = false ∧ Instr.wellFormed (.sensorSample (List.replicate 32 0)) = true ∧
    Instr.wellFormed (.reservedAccess 0 0 3 false) = false ∧ Instr.wellFormed (.reservedAccess 0 0 8 false) = true := by
  refine ⟨?_, ?_, by decide⟩ <;> simp [Instr.wellFormed]

/-! ### Words of the formats of R220, bit by bit -/

theorem test_words :
    leafWord (.add 1 1 2 3) = some (1, 0b00000000001000100001100000000000#32) ∧
    leafWord (.addi 1 1 2 0xFFFF) = some (1, 0b00000100001000101111111111111111#32) ∧
    leafWord (.movz 1 1 0x1234 3) = some (1, 0b00101000001110000001001000110100#32) ∧
    leafWord (.extu 1 1 2 5 7) = some (1, 0b00101100001000100000010100011100#32) ∧
    leafWord (.bne 1 1 2 true 0xFFE) = some (1, 0b01000000001000100011111111111110#32) ∧
    leafWord (.bbs 1 1 40 false 3) = some (1, 0b01000100001101000100000000000011#32) ∧
    leafWord (.jal 1 5) = some (1, 0b01001100000000000000000000000101#32) ∧
    leafWord (.ldl 1 1 2 2 true false 8) = some (1, 0b01100000001000101010000000001000#32) ∧
    leafWord (.lda 1 1 2 4 2 3 1) = some (1, 0b01101000001000100010011011000001#32) ∧
    leafWord (.amocas 1 1 2 3 4 1 true) = some (1, 0b01110000001000100001100100111011#32) ∧
    leafWord (.xst 1 1 2 4 2 63) = some (1, 0b01111000001000100010010111111000#32) ∧
    leafWord (.wfe 1 1 2) = some (1, 0b10000000001000100000000000000001#32) ∧
    leafWord (.cpop 1 1 3 4 5 6) = some (1, 0b11100000100000011001000010100110#32) ∧
    leafWord (.mtc 1 1 2 3 1) = some (1, 0b11100100100010000110100000000000#32) ∧
    leafWord (.bcb 1 1 true false 9) = some (1, 0b11101100110000000000000000001001#32) ∧
    leafWord (.customInstruction 1 513 1 2 3) = some (1, 0b11110100001000100001100000000100#32) := by decide

/-! ### Steps -/

theorem hyp_EveryCommandCompletes : Completes (.ucbNop 0) State.reset := ⟨_, rfl⟩

theorem hyp_DefinedWordSpellsOneInstruction : leafKnown 0 = true ∧ leafKnown 0xFC000000 = false := by decide

theorem hyp_RegistersReadTheirLatestResult :
    let th : Thread := { Thread.zero with pend := [⟨3, 4, 1, 7⟩, ⟨1, 19, 1, 9⟩] }
    (∀ p ∈ th.pend, ∀ q ∈ th.pend, p.dst = 1 → q.dst = 1 → p.no = q.no → p = q) ∧ (th.land 4).g 1 = 7 ∧ (th.land 18).g 1 = 7 ∧
    (th.land 3).g 1 = 0 := by decide

/-! ### Leaf instructions -/

/-- A state that issues ADD g1, g2, g3. -/
def addState : State := leafAt 1 0x00221800 (withRegs 0 0x7FFFFFFFFFFFFFFF 1)

theorem hyp_AluInstructionsWriteTheirResult : Issues addState 1 0x00221800 ∧
    (specialRow (ready addState 1).g (.add 1 1 2 3)).map (fun r => (r.t, r.word, r.val, r.v, r.traps (ready addState 1).flags)) =
      some (1, 0x00221800, some 0x8000000000000000, true, false) := ⟨issues_of (by decide), by decide⟩

theorem test_add_wraps : leaves (.add 1 1 2 3) addState (fun u =>
    decide ((u.thread 1).pend = [⟨0, 1, 1, 0x8000000000000000⟩, ⟨0, 1, 64, 1⟩]) && decide ((u.thread 1).pc = 20)) = true := by decide

/-- A state that issues ADDI g1, g2, -1. -/
def addiState : State := leafAt 1 0x0422FFFF (withRegs 0 0 0)

theorem hyp_ImmediateForms : Issues addiState 1 0x0422FFFF ∧
    (immediateRow (ready addiState 1).g (.addi 1 1 2 0xFFFF)).map (fun r => (r.word, r.val, r.traps (ready addiState 1).flags)) =
      some (0x0422FFFF, some 0xFFFFFFFFFFFFFFFF, false) := ⟨issues_of (by decide), by decide⟩

/-- A state that issues DIV g1, g2, g3 by zero with TRAPDZ enabled; and ADD with TRAPV enabled. -/
def divState : State := leafAt 1 0x00221824 (fun th => { withRegs 0 5 0 th with flags := 0x200 })
def addTrapState : State := leafAt 1 0x00221800 (fun th => { withRegs 0 0x7FFFFFFFFFFFFFFF 1 th with flags := 0x100 })

theorem hyp_EnabledTrapStopsTheInstruction : Issues divState 1 0x00221824 ∧ Issues addTrapState 1 0x00221800 ∧
    (specialRow (ready divState 1).g (.div 1 1 2 3)).map (fun r => (r.word, r.dz)) = some (0x00221824, true) ∧
    (specialRow (ready addTrapState 1).g (.add 1 1 2 3)).map (fun r => (r.word, r.v)) = some (0x00221800, true) ∧
    (ready divState 1).flags.getLsbD 9 = true ∧ (ready addTrapState 1).flags.getLsbD 8 = true := by
  constructorm* _ ∧ _ <;> first | decide | (refine issues_of ?_; decide)

theorem test_div_by_zero_traps : leaves (.div 1 1 2 3) divState (fun u =>
    decide ((u.thread 1).fault.map (·.kind) = some fTRAPDZ) && decide ((u.thread 1).pend = [])) = true := by decide

/-- A state that issues JR g1, to an aligned address and to one beyond the program store. -/
def jrState (a : Word64) : State := leafAt 1 0x50010000 (withRegs a 0 0)

theorem hyp_BranchesTakeTheirDelaySlot : Issues (jrState 0x7FFFC) 1 0x50010000 ∧ Issues (jrState 0x80000) 1 0x50010000 ∧
    (branchRow (ready (jrState 0x7FFFC) 1).g 16 (.jr 1 1)).map (fun r => (r.word, r.target, r.taken)) = some (0x50010000, 0x7FFFC, true) ∧
    (branchRow (ready (jrState 0x80000) 1).g 16 (.jr 1 1)).map (fun r => (r.word, r.target)) = some (0x50010000, 0x80000) := by
  constructorm* _ ∧ _ <;> first | decide | (refine issues_of ?_; decide)

theorem test_jr_beyond_the_store : leaves (.jr 1 1) (jrState 0x80000) (fun u =>
    decide ((u.thread 1).fault.map (fun f => (f.kind, f.detail)) = some (fDOMAIN, 0x80000))) = true := by decide

/-- A state that comes to an undefined word; one with an error in the word; and one whose task's budget is spent. -/
def undefState : State := leafAt 1 0xFC000000 id
def eccState : State := { addState with mower := { State.reset.mower with errs := [⟨5, 1, 16, 0, true, 0, 0⟩] } }
def spentState : State :=
  { leafAt 1 0x00221800 (fun th => { th with task := some 3 }) with
    kettle := { State.reset.kettle with tasks := [(3, { taskOf 0 with slots := 100, taken := some 1 })] } }

theorem hyp_UnreadyWordsRaiseTheirFault : Fetches undefState 1 0xFC000000 ∧ leafKnown 0xFC000000 = false ∧
    (eccState.canIssue 1 = true ∧ eccState.fetch 1 16 = 0x00221800 ∧ eccState.heldTask 1 = none ∧
      ∃ e ∈ eccState.errsIn (quireWin (tidQuire 1)) 1 (ready eccState 1).pc 4, e.shows = true ∧ eccState.errFatal e = true) ∧
    (spentState.canIssue 1 = true ∧ spentState.fetch 1 (ready spentState 1).pc = 0x00221800 ∧
      (spentState.heldTask 1).map (fun e => (e.1, e.2.budget, e.2.slots)) = some (3, 100, 100)) :=
  ⟨(issues_of (by decide)).1, by decide, by decide, by decide⟩

theorem test_spent_budget : leaves (.add 1 1 2 3) spentState (fun u =>
    decide ((u.thread 1).fault.map (fun f => (f.kind, f.detail)) = some (fBUDGET, 100))) = true := by decide

/-- States that issue LDL and STL of a doubleword at the ends of local memory. -/
def ldlState (a : Word64) : State := leafAt 1 0x6022C000 (fun th => { withRegs 0 a 0 th with mem := [(0x17FF, 0x80)] })
def stlState (a : Word64) : State := leafAt 1 0x6422C000 (withRegs 0x1122334455667788 a 0)

theorem hyp_LocalLoadsAndStores : Issues (ldlState 0x17F8) 1 0x6022C000 ∧ Issues (ldlState 0x1800) 1 0x6022C000 ∧
    Issues (stlState 0x200) 1 0x6422C000 ∧ Issues (stlState 0x1F8) 1 0x6422C000 ∧ leafKnown 0x6022C000 = true ∧ leafKnown 0x6422C000 = true ∧
    ((ldlState 0x17F8).errsIn (tidLeafWin 1) 0 (localBase 1 + 0x17F8) 8).filter EccErr.shows = [] := by
  constructorm* _ ∧ _ <;> first | decide | (refine issues_of ?_; decide)

theorem test_ldl_at_the_top : leaves (.ldl 1 1 2 3 false false 0) (ldlState 0x17F8) (fun u =>
    decide ((u.thread 1).pend = [⟨0, 2, 1, 0x8000000000000000⟩])) = true := by decide
theorem test_stl_below_the_header : leaves (.stl 1 1 2 3 false 0) (stlState 0x1F8) (fun u =>
    decide ((u.thread 1).fault.map (·.kind) = some fDOMAIN) && decide ((u.thread 1).mem = [])) = true ∧
    leaves (.stl 1 1 2 3 false 0) (stlState 0x200) (fun u => decide (Memory.read (u.thread 1).mem 0x200 = 0x88)) = true := by decide

/-- A state whose supervisor issues LDA of a doubleword of its Quire's shared memory. -/
def ldaState (a : Word64) : State :=
  { leafAt 0 0x682224C0 (withRegs 0 a 0) with
    quires := [(0, { QuireSt.zero with entries := some (0, 0, 0, 0), program := [(4, 0x682224C0)], profiles := [(0, BitVec.ofNat 128 (2 ^ 119 + 2 ^ 117 + 2 ^ 116 + 0x3A00 * 2 ^ 64))] })] }

theorem hyp_RemoteAccessesGoOutOrAreRefused : Issues (ldaState 0x100) 0 0x682224C0 ∧ Issues (ldaState 0x104) 0 0x682224C0 ∧
    (remoteRow (ready (ldaState 0x100) 0).g 0 (fun _ _ => []) (.lda 0 1 2 4 0 3 0)).map (fun r => (r.word, r.op.addr, r.op.len, r.align)) =
      some (0x682224C0, 0x100, 8, 8) ∧
    (ldaState 0x100).accessOk 0 0 0x100 8 true false = true ∧ (ready (ldaState 0x100) 0).outstanding < 16 ∧ leafKnown 0x682224C0 = true := by
  constructorm* _ ∧ _ <;> first | decide | (refine issues_of ?_; decide)

theorem test_lda_goes_out : leaves (.lda 0 1 2 4 0 3 0) (ldaState 0x100) (fun u =>
    decide ((u.thread 0).ops.map (fun o => (o.kind, o.addr, o.len, o.dst)) = [(.load, 0x100, 8, 1)])) = true ∧
    leaves (.lda 0 1 2 4 0 3 0) (ldaState 0x104) (fun u => decide ((u.thread 0).fault.map (·.kind) = some fDOMAIN)) = true := by decide

/-- SYSTEM instructions, each at address 16 of a worker; g1 to g3 as given. -/
def sysState (w : Word32) (a b c : Word64) : State := leafAt 1 w (withRegs a b c)

theorem hyp_TimeAndControlRegisterInstructions : Issues (sysState 0x80200007 0 0 0) 1 (encR 0x20 1 0 0 0x007) ∧
    Issues (sysState 0x80205808 0 0 0) 1 (encR 0x20 1 0 11 0x008) ∧ Issues (sysState 0x80015809 0 0 0) 1 (encR 0x20 0 1 11 0x009) ∧
    Issues (sysState 0x80010003 0x3FFFF 0 0) 1 (encR 0x20 0 1 0 0x003) ∧ Issues (sysState 0x80010003 0x40000 0 0) 1 (encR 0x20 0 1 0 0x003) ∧
    Issues (sysState 0x8001380A 9 0 0) 1 (encR 0x20 0 1 7 0x00A) := by
  constructorm* _ ∧ _ <;> first | decide | (refine issues_of ?_; decide)

theorem test_sev_with_reserved_bits : leaves (.sev 1 1) (sysState 0x80010003 0x40000 0 0) (fun u =>
    decide ((u.thread 1).fault.map (·.kind) = some fUNDEF)) = true ∧
    leaves (.sev 1 1) (sysState 0x80010003 0x3FFFF 0 0) (fun u => decide ((u.thread 1).sevs = [0x3FFFF])) = true := by decide

/-- WFE and WAITT with and without a masked event, FENCE, TAKE, CHPOST, BKPT and ERET. -/
def waitState (w : Word32) (ev : Word32) (till : Word64) : State :=
  leafAt 1 w (fun th => { withRegs 0 till 0xFF th with events := ev })
def fenceOp : LeafOp := ⟨0, 0, .store, 0, 0, none, 0, 8, 0, 0, [], none, 0⟩

theorem hyp_WaitsAndReturnsBegin :
    (Issues (waitState 0x80230001 1 0) 1 (encR 0x20 1 3 0 0x001) ∧ Issues (waitState 0x80230001 0x100 0) 1 (encR 0x20 1 3 0 0x001)) ∧
    (Issues (waitState 0x80221802 1 5) 1 (encR 0x20 1 2 3 0x002) ∧ Issues (waitState 0x80221802 0 0) 1 (encR 0x20 1 2 3 0x002) ∧
      Issues (waitState 0x80221802 0 1) 1 (encR 0x20 1 2 3 0x002)) ∧
    (Issues (leafAt 1 0x80000005 id) 1 (encR 0x20 0 0 0 0x005) ∧
      Issues (leafAt 1 0x80000005 (fun th => { th with ops := [fenceOp] })) 1 (encR 0x20 0 0 0 0x005)) ∧
    (Issues (leafAt 1 0x80200004 id) 1 (encR 0x20 1 0 0 0x004) ∧ (leafAt 1 0x80200004 id).isSup 1 = false ∧
      (leafAt 1 0x80200004 id).readyTask (tidLeaf 1) = none) ∧
    (Issues (leafAt 0 0x80200004 id) 0 (encR 0x20 1 0 0 0x004) ∧ (leafAt 0 0x80200004 id).isSup 0 = true) ∧
    (Issues (leafAt 0 0x8000100B id) 0 (encR 0x20 0 0 2 0x00B) ∧ Issues (leafAt 1 0x8000100B id) 1 (encR 0x20 0 0 2 0x00B)) ∧
    (Issues (leafAt 1 0x8000000C id) 1 (encR 0x20 0 0 0 0x00C) ∧ (leafAt 1 0x8000000C id).threadDebug = false) ∧
    (Issues (leafAt 1 0x80000006 (fun th => { th with handler := true })) 1 (encR 0x20 0 0 0 0x006) ∧
      Issues (leafAt 1 0x80000006 id) 1 (encR 0x20 0 0 0 0x006)) := by
  constructorm* _ ∧ _ <;> first | decide | (refine issues_of ?_; decide)

/-- A worker that holds a task, and one for which a child's descriptor is bound to its Leaf. -/
def posted (w : Word32) : State :=
  { leafAt 1 w (fun th => { th with task := some 3 }) with kettle := { State.reset.kettle with tasks := [(3, { taskOf 0 with taken := some 1 })] } }
def bound (w : Word32) (f : Thread → Thread) : State :=
  { leafAt 1 w f with kettle := { State.reset.kettle with tasks := [(3, { taskOf 0 with child := true, leaf := some 0 })] } }

theorem hyp_WaitsAndReturnsBegin_tasks : Issues (bound 0x80200004 id) 1 (encR 0x20 1 0 0 0x004) ∧
    ((bound 0x80200004 id).readyTask (tidLeaf 1)).map (fun e => (e.1, e.2.child)) = some (3, true) ∧
    ((posted 0x8000000B).canIssue 1 = true ∧ (posted 0x8000000B).isSup 1 = false ∧ (ready (posted 0x8000000B) 1).task.isSome = true) :=
  ⟨issues_of (by decide), by decide, by decide⟩

theorem test_take_takes_a_child : leaves (.take 1 1) (bound 0x80200004 id) (fun u => decide ((u.thread 1).task = some 3)) = true := by decide

/-! ### Entries, waits, faults and the debugger -/

theorem hyp_EntriesHaltsAndTimer :
    (let s := leafAt 1 0 (fun th => { th with events := 1, prompt := 1 })
     s.threadLive 1 = true ∧ (ready s 1).wantEntry (s.isSup 1) = true ∧ (ready s 1).haltReq = false ∧ (ready s 1).atBoundary = true) ∧
    (let s : State := { leafAt 1 0 (fun th => { th with events := 1, prompt := 1, pend := [⟨0, 18, 5, 1⟩], reqSince := some 0 }) with
                        time := { State.reset.time with cycles := 1000000 } }
     s.threadLive 1 = true ∧ (ready s 1).wantEntry (s.isSup 1) = true ∧ (ready s 1).haltReq = false ∧ (ready s 1).atBoundary = false ∧
       s.forcedDue (ready s 1) = true) ∧
    (let s : State := { leafAt 1 0 (fun th => { th with haltReq := true, pend := [⟨0, 18, 5, 1⟩], reqSince := some 0 }) with
                        time := { State.reset.time with cycles := 1000000 } }
     s.threadLive 1 = true ∧ (ready s 1).haltReq = true ∧ (ready s 1).atBoundary = false ∧ s.forcedDue (ready s 1) = true) ∧
    (let s := leafAt 1 0 (fun th => { th with haltReq := true })
     s.threadLive 1 = true ∧ (ready s 1).haltReq = true ∧ (ready s 1).atBoundary = true) ∧
    (let s := leafAt 1 0 (fun th => { th with tctl := 0x1F01 })
     (ready s 1).started = true ∧ s.leafRuns 1 = true ∧ (ready s 1).tctl.getLsbD 0 = true ∧ (ready s 1).timer.toNat ≤ s.time.ns.toNat) := by (repeat' apply And.intro) <;> decide

theorem test_entry_saves_the_address :
    leaves (.promptEventEntry 1) (leafAt 1 0 (fun th => { th with events := 1, prompt := 1, evec := 0x40 })) (fun u =>
      decide ((u.thread 1).epc = 16) && decide ((u.thread 1).pc = 0x40) && (u.thread 1).handler) = true ∧
    leaves (.timerFire 1) (leafAt 1 0 (fun th => { th with tctl := 0x1F01 })) (fun u => decide ((u.thread 1).events = 0x80000000)) = true := by decide

/-- Threads that wait, and one with an event on its way to thread 2 of its Leaf. -/
def waiting (x : Wait) (ev : Word32) : State := leafAt 1 0 (fun th => { th with wait := x, events := ev, issued := 1 })

theorem hyp_WaitsEndAndEventsArrive :
    (((waiting (.wfe 1 1) 1).thread 1).wait.masked = some (1, 1) ∧ (waiting (.wfe 1 1) 1).mayWake 1 = true) ∧
    (((waiting (.waitt 1 1 0) 0).thread 1).wait = .waitt 1 1 0 ∧ (waiting (.waitt 1 1 0) 0).mayWake 1 = true) ∧
    (((bound 0 (fun th => { th with wait := .take 1 })).thread 1).wait = .take 1 ∧ (bound 0 (fun th => { th with wait := .take 1 })).mayWake 1 = true ∧
      ((bound 0 (fun th => { th with wait := .take 1 })).readyTask (tidLeaf 1)).map (fun e => (e.1, e.2.child)) = some (3, true)) ∧
    (let s := leafAt 1 0 (fun th => { th with sevs := [0x20007] })
     (s.thread 1).sevs = [0x20007] ∧ s.sevTarget 0x20007 = some 0 ∧ s.sevAllowed 1 0 = true) ∧
    (let s := leafAt 1 0 (fun th => { th with sevs := [71] })
     s.sevTarget 71 = some 2 ∧ s.sevAllowed 1 2 = false) ∧
    (let s := leafAt 1 0 (fun th => { th with sevs := [0x3FFFF] })
     s.sevTarget 0x3FFFF = none) := by decide

theorem test_sev_arrives : leaves (.sevDelivery 1) (leafAt 1 0 (fun th => { th with sevs := [0x20007] })) (fun u =>
    decide ((u.thread 0).events = 0x80) && decide ((u.thread 1).sevs = [])) = true := by decide

/-! ### Stile -/

/-- Lock 8191 as given, of a class that admits all, or that is not there; thread 1 issues w with the lock's number in g2. -/
def lockState (w : Word32) (cls : Word32) (x : LockSt) : State :=
  let s := leafAt 1 w (withRegs 0 8191 0)
  ({ s with gath := [(29, gat .inService), (424, gat .inService)], stile := ⟨[(8191, x)], [], [], []⟩ }).setReg stileWin 0x9FFC cls
def heldBy (w : Nat) : LockSt := { LockSt.free with holder := some w }

theorem hyp_RequestersUseLocks_ports :
    (lockState 0 0xC0000000 LockSt.free).inService stileWin = true ∧ ((lockState 0 0xC0000000 LockSt.free).stilePort 64).length = 0 ∧
    (lockState 0 0xC0000000 LockSt.free).lockAdmits 8191 (portWord 64) = true ∧ ((lockState 0 0xC0000000 LockSt.free).lock 8191).holder = none ∧
    (lockState 0 0xC0000000 (heldBy (portWord 1))).lockAdmits 8191 (portWord 64) = true ∧
    ((lockState 0 0xC0000000 (heldBy (portWord 1))).lock 8191).holder = some (portWord 1) ∧ portWord 1 ≠ portWord 64 ∧
    (lockState 0 0xC0000000 (heldBy (portWord 1))).waitsOf (portWord 64) = 0 ∧ (lockState 0 0xC0000000 (heldBy (portWord 1))).waitsAll = 0 ∧
    (lockState 0 0 LockSt.free).lockAdmits 8191 (portWord 64) = false := by decide

theorem hyp_RequestersUseLocks_threads :
    Issues (lockState 0x8022F810 0xC0000000 LockSt.free) 1 (encR 0x20 1 2 31 0x010) ∧
    Issues (lockState 0x8022F811 0xC0000000 LockSt.free) 1 (encR 0x20 1 2 31 0x011) ∧
    Issues (lockState 0x8022F811 0xC0000000 (heldBy (portWord 1))) 1 (encR 0x20 1 2 31 0x011) ∧
    Issues (lockState 0x8022F810 0xC0000000 (heldBy (portWord 1))) 1 (encR 0x20 1 2 31 0x010) ∧
    Issues (lockState 0x80020012 0xC0000000 (heldBy (tidWord 1))) 1 (encR 0x20 0 2 0 0x012) ∧
    (lockState 0x80020012 0xC0000000 (heldBy (tidWord 1))).lockAdmits 8191 (tidWord 1) = true ∧
    (ready (lockState 0x8022F810 0xC0000000 LockSt.free) 1).outstanding = 0 ∧ (ready (lockState 0x8022F810 0xC0000000 LockSt.free) 1).ops = [] ∧
    ((ready (lockState 0x8022F810 0xC0000000 LockSt.free) 1).g 2).toNat = 8191 := by
  constructorm* _ ∧ _ <;> first | decide | (refine issues_of ?_; decide)

/-- The same where four other locks are waited for by w. -/
def crowded (w : Nat) (s : State) : State := { s with stile := { s.stile with locks := s.stile.locks ++ (List.range 4).map (fun k => (k, { heldBy 1 with queue := [⟨w, 0⟩] })) } }
/-- Thread 1 names lock 8192. -/
def badLock (w : Word32) : State := { leafAt 1 w (withRegs 0 8192 0) with gath := [(29, gat .inService), (424, gat .inService)] }

theorem hyp_RequestersUseLocks_more :
    (∀ x ∈ [LockSt.free, heldBy (portWord 1), heldBy (portWord 64), { heldBy (portWord 1) with leaving := some ⟨[4], none⟩ }],
      (lockState 0 0xC0000000 x).stileLate 64 = [] ∧ (lockState 0 0xC0000000 x).stilePort 64 = [] ∧ (lockState 0 0xC0000000 x).lock 8191 = x ∧
      (lockState 0 0xC0000000 x).lockAdmits 8191 (portWord 64) = true ∧ (lockState 0 0xC0000000 x).lockAdmits 8191 (tidWord 1) = true) ∧
    (heldBy (portWord 64)).leaving = none ∧ (heldBy (tidWord 1)).holder = some (tidWord 1) ∧ (heldBy (tidWord 1)).leaving = none ∧
    (∀ w ∈ [portWord 64, tidWord 1], 4 ≤ (crowded w (lockState 0x8022F810 0xC0000000 (heldBy 1))).waitsOf w ∧
      (crowded w (lockState 0x8022F810 0xC0000000 (heldBy 1))).lock 8191 = heldBy 1 ∧
      (crowded w (lockState 0x8022F810 0xC0000000 (heldBy 1))).lockAdmits 8191 w = true) ∧ (1 ≠ portWord 64 ∧ 1 ≠ tidWord 1) ∧
    (lockState 0 0 LockSt.free).lockAdmits 8191 (tidWord 1) = false ∧ 8192 ≤ ((ready (badLock 0x8022F810) 1).g 2).toNat := by decide

theorem hyp_RequestersUseLocks_issues :
    (∀ x ∈ [(0xC0000000, heldBy (tidWord 1)), (0, LockSt.free), (0xC0000000, LockSt.free)],
      Issues (lockState 0x8022F810 x.1 x.2) 1 (encR 0x20 1 2 31 0x010) ∧ Issues (lockState 0x8022F811 x.1 x.2) 1 (encR 0x20 1 2 31 0x011) ∧
      Issues (lockState 0x80020012 x.1 x.2) 1 (encR 0x20 0 2 0 0x012)) ∧
    Issues (badLock 0x8022F810) 1 (encR 0x20 1 2 31 0x010) ∧ Issues (badLock 0x8022F811) 1 (encR 0x20 1 2 31 0x011) ∧
    Issues (crowded (tidWord 1) (lockState 0x8022F810 0xC0000000 (heldBy 1))) 1 (encR 0x20 1 2 31 0x010) ∧
    Issues (lockState 0x80020012 0xC0000000 (heldBy (portWord 1))) 1 (encR 0x20 0 2 0 0x012) := by
  refine ⟨fun x hx => ?_, ?_⟩
  · simp only [List.mem_cons, List.not_mem_nil, or_false] at hx
    rcases hx with rfl | rfl | rfl <;> refine ⟨issues_of ?_, issues_of ?_, issues_of ?_⟩ <;> decide
  · constructorm* _ ∧ _ <;> (refine issues_of ?_; decide)

theorem test_locks :
    leaves (.hostStileAcquire 64 8191) (crowded (portWord 64) (lockState 0 0xC0000000 (heldBy 1))) (fun u => decide (u.stilePort 64 = [0x80501FFF])) = true ∧
    leaves (.hostStileTry 64 8191) (lockState 0 0xC0000000 (heldBy (portWord 1))) (fun u => decide (u.stilePort 64 = [0x80101FFF])) = true ∧
    leaves (.sacq 1 1 2 31) (lockState 0x8022F810 0xC0000000 LockSt.free) (fun u => decide ((u.thread 1).g 1 = 0x11FFF)
      && decide ((u.thread 1).events = 0x80000000) && decide ((u.lock 8191).holder = some (tidWord 1))) = true := by decide

/-- Spine reads a completion of its port. -/
def cplState : State := { State.reset with stile := ⟨[], [(64, [7])], [], []⟩ }

/-- Lock 0 handed on to a waiter whose grant is on its way; and lock 0 held by thread 1, with a write of it under way or none, whose departed
holder has written everything or whose holder is still there. -/
def handoffState (w : StileWait) : State :=
  let s := leafAt 1 0 (fun th => { th with ops := [{ fenceOp with kind := .lock, no := 9, dst := 5, ev := some 31 }] })
  { s with stile := ⟨[(0, { LockSt.free with holder := some w.who, grants := [(w, true)] })], [], [], []⟩ }
def forceState (k : OpKind) (leaving : Option LockWrites) : State :=
  let s := leafAt 1 0 (fun th => { th with issued := 7, ops := [{ fenceOp with kind := k, no := 6 }] })
  { s with stile := ⟨[(0, { LockSt.free with holder := some (tidWord 1), leaving := leaving })], [], [], []⟩ }

theorem hyp_LocksAreHandedOnAndForced : cplState.stilePort 64 = [7] ∧
    ((handoffState ⟨portWord 64, 0⟩).lock 0).grants = [(⟨portWord 64, 0⟩, true)] ∧ whoKind (portWord 64) ≠ 0 ∧
    ((handoffState ⟨tidWord 1, 9⟩).lock 0).grants = [(⟨tidWord 1, 9⟩, true)] ∧ whoKind (tidWord 1) = 0 ∧ whoThread (tidWord 1) = 1 ∧
    ((handoffState ⟨tidWord 1, 9⟩).thread 1).ops.find? (fun o => o.kind == .lock && o.no == 9) =
      some { fenceOp with kind := .lock, no := 9, dst := 5, ev := some 31 } ∧
    ((forceState .load (some ⟨[4], some 6⟩)).lock 0).grants = [] ∧
    (forceState .load (some ⟨[4], some 6⟩)).writesDone ((forceState .load (some ⟨[4], some 6⟩)).lock 0) ⟨[4], some 6⟩ = true ∧
    whoKind (portWord 64) ≠ 0 ∧ (forceState .load none).leavingWrites (tidWord 1) = [] ∧
    ((forceState .store none).lock 0).holder = some (tidWord 1) ∧ ((forceState .store none).lock 0).leaving = none ∧
    ((forceState .store none).thread 1).ops.any LeafOp.writes = true ∧ ((forceState .load none).thread 1).ops.any LeafOp.writes = false := by decide

theorem test_handoff_grants : leaves (.lockHandoff 0) (handoffState ⟨tidWord 1, 9⟩) (fun u =>
    decide ((u.thread 1).g 5 = 0x30000) && decide ((u.lock 0).grants = [])) = true ∧
    leaves (.stileForce 0) (forceState .store none) (fun u => decide ((u.lock 0).leaving = some ⟨[], some 7⟩)) = true := by decide

/-! ### Faults, quiet deadlock and the debugger -/

def faultOf (k : Nat) (rec' restart : Bool) : FaultInfo := ⟨k, false, false, true, 5, 7, 2, 0x00221800, 16, 0, 0, rec', restart⟩
def stopped (f : FaultInfo) : State := leafAt 1 0 (fun th => { th with fault := some f })

theorem hyp_FaultsAreRecordedAndThreadsRestart :
    ((stopped (faultOf 8 false false)).thread 1).fault = some (faultOf 8 false false) ∧
    ((stopped (faultOf 1 true true)).thread 1).fault = some (faultOf 1 true true) ∧ (stopped (faultOf 1 true true)).leafServes 1 = true ∧
    ((stopped (faultOf 1 true true)).quire (tidQuire 1)).entries = some (0, 0, 0, 0) := by decide

theorem test_fault_record : leaves (.faultRecord 1) (stopped (faultOf 8 false false)) (fun u =>
    decide (u.reg 5 0x1020 = 0x00050108) && decide (u.reg 5 0x1900 = 2) && decide (u.reg 5 0x195C = 1) && (u.thread 0).nmi) = true := by decide +kernel

/-- The worker and nothing else counts in Quire 0, quiet since cycle 0; an episode open since then, with a limit of 1 microsecond. -/
def quietState (now : Nat) (e : Option (Nat × Bool)) : State :=
  let s := leafAt 1 0 (fun th => { th with wait := .wfe 1 1, quietSince := some 0 })
  (({ s with time := { State.reset.time with cycles := now }, quires := [(0, { QuireSt.zero with episode := e })] }) : State).setReg 5 0x191C 1

theorem hyp_QuietDeadlockIsDetectedAndEscalates : (quietState 128 none).allQuiet 0 = some 0 ∧ ((quietState 128 none).quire 0).deadSeen = none ∧
    ((quietState 1001 (some (0, false))).quire 0).episode = some (0, false) ∧ ((quietState 1001 (some (0, false))).reg (quireWin 0) 0x191C).toNat = 1 ∧
    (quietState 1001 (some (0, false))).time.cycles = 1001 := by decide

theorem test_quiet_deadlock : leaves (.quietDeadlock 0) (quietState 128 none) (fun u => decide ((u.quire 0).episode = some (128, false))) = true ∧
    leaves (.quietDeadlock 0) (quietState 127 none) (fun u => decide (u = quietState 127 none)) = true ∧
    leaves (.deadlockEscalation 0) (quietState 1001 (some (0, false))) (fun u => decide ((u.quire 0).episode = some (0, true))) = true := by decide

/-- Debug authenticated for threads, and a thread as given. -/
def dbgState (f : Thread → Thread) : State := { leafAt 1 0 f with trust := { State.reset.trust with sec := .debug, scope := 1 } }

theorem hyp_DebugCommandsActOnThreads : (dbgState id).threadDebug = true ∧ ((dbgState id).thread 1).started = true ∧
    ((dbgState id).thread 1).halted = false ∧ ((dbgState id).thread 1).fault = none ∧
    ((dbgState (fun th => { th with halted := true })).thread 1).halted = true ∧ ((dbgState id).quire (tidQuire 1)).entries = some (0, 0, 0, 0) ∧
    (leafAt 1 0 id).threadDebug = false := by decide

theorem test_debug : leaves (.dbgStep 1) (dbgState (fun th => { th with halted := true })) (fun u => (u.thread 1).step && !(u.thread 1).halted) = true ∧
    leaves (.dbgHalt 1) (leafAt 1 0 id) (fun u => !(u.thread 1).haltReq && decide (u.reg 29 0x104 = 1)) = true := by decide +kernel

/-! ### Operations that complete -/

/-- Thread 1 has an operation out, in shared memory that holds 0x80 at the top of what is no page; and one in buffer memory, performed as given. -/
def opState (o : LeafOp) (d : List (Nat × MemDone)) : State :=
  let s := leafAt 1 0 (fun th => { th with ops := [o] })
  { s with quires := [(0, { QuireSt.zero with shared := [(0x3FEFFF, 0x80)] })], mem := { State.reset.mem with done := d } }
def sharedOp (k : OpKind) (a : Option (Nat × Word64 × Word64)) : LeafOp := ⟨4, 0, k, 0, 5, some 31, 0x3FEFF8, 8, 0, 0x1234, [1, 2, 3, 4, 5, 6, 7, 8], a, 0⟩
def bufferOp (k : OpKind) : LeafOp := ⟨4, 0, k, 1, 5, some 31, 0x40, 8, 0, 0x1234, [], none, 0⟩

theorem hyp_OperationsComplete :
    (∀ o ∈ [sharedOp .load none, sharedOp .xld none, sharedOp .store none, sharedOp .xst none, sharedOp .amo (some (0, 1, 0))],
      ((opState o []).thread 1).ops.find? (fun o => o.inSpace 0) = some o ∧ o.addr < 0x3FF000 ∧ o.addr + o.len ≤ 0x3FF000 ∧
      (opState o []).errsIn (quireWin (tidQuire 1)) 0 o.addr o.len = []) ∧
    (∀ d ∈ [MemDone.mk [1, 0, 0, 0, 0, 0, 0, 0] false [], MemDone.mk [] true []],
      ((opState (bufferOp .load) [(4, d)]).thread 1).ops.find? (fun o => o.inSpace 1) = some (bufferOp .load) ∧
      SMap.find (opState (bufferOp .load) [(4, d)]).mem.done 4 = some d ∧ (opState (bufferOp .load) [(4, d)]).served 4 = true ∧
      ((opState (bufferOp .load) [(4, d)]).thread 1).fault = none) ∧
    ((opState (bufferOp .xld) [(4, ⟨[1], false, []⟩)]).thread 1).ops.find? (fun o => o.inSpace 1) = some (bufferOp .xld) := by decide

theorem test_completions :
    leaves (.asyncCompletion 1 0) (opState { sharedOp .xld none with loc := 64 } []) (fun u => decide (Memory.read (u.thread 1).mem 71 = 0x80)) = true ∧
    leaves (.asyncCompletion 1 0) (opState (sharedOp .load none) []) (fun u => decide ((u.thread 1).g 5 = 0x8000000000000000)
      && decide ((u.thread 1).events = 0x80000000)) = true ∧
    leaves (.asyncCompletion 1 0) (opState (sharedOp .store none) []) (fun u => decide ((u.quire 0).shared.length = 8)
      && decide (Memory.read (u.quire 0).shared 0x3FEFFF = 8)) = true ∧
    leaves (.asyncCompletion 1 1) (opState (bufferOp .load) [(4, ⟨[], true, []⟩)]) (fun u => decide ((u.thread 1).fault.map (·.kind) = some fDATA))
      = true := by decide

/-! ### Coprocessors -/

/-- A thread that issues w; its Awl holds values in cr2, cr3 and its Clasp, resident, in k1; it holds a task of tenant 5, and key slot 3 a key of
that tenant. -/
def selected (sel : Option (Nat × Nat)) : ClaspHidden := ⟨sel, 0, .zero, .zero, .zero, .zero⟩
def cpState (w : Word32) (sel : Option (Nat × Nat)) : State :=
  let s := leafAt 1 w (fun th => { withRegs 0 7 9 th with
    task := some 3, awl := ⟨[(2, 0xF0), (3, 0x3C)], []⟩, clasp := ⟨[(1, 3)], []⟩, hidden := selected sel })
  { s with quires := [(0, { QuireSt.zero with entries := some (0, 0, 0, 0), program := [(4, w)], resident := [1] })],
           kettle := { State.reset.kettle with tasks := [(3, { taskOf 0 with taken := some 1 })] },
           keys := [(3, ⟨some (5, 1, List.replicate 32 7), 4⟩)] }

theorem cp_issues {w : Word32} {sel : Option (Nat × Nat)} (h : (cpState w sel).canIssue 1 = true ∧ (cpState w sel).fetch 1 (ready (cpState w sel) 1).pc = w ∧
    (cpState w sel).heldTask 1 = some (3, { taskOf 0 with taken := some 1 }) ∧ (ready (cpState w sel) 1).inDelay = false ∧
    ((cpState w sel).errsIn (quireWin (tidQuire 1)) 1 (ready (cpState w sel) 1).pc 4).filter EccErr.shows = []) : Issues (cpState w sel) 1 w := by
  obtain ⟨a, b, c, d, e⟩ := h
  refine ⟨⟨a, b, ?_, ?_, e⟩, ?_⟩
  · intro k x hk
    rw [c] at hk
    obtain ⟨rfl, rfl⟩ := Prod.mk.inj (Option.some.inj hk)
    decide
  · simp [d]
  · simp [d]

theorem hyp_AwlFunctionsComputeBitByBit : Issues (cpState (encCO 0 1 4 2 3) none) 1 (encCO 0 1 4 2 3) ∧
    coprocRow (.awlXor 1 4 2 3) = some ⟨1, 0, 1, 4, 2, 3⟩ ∧ (ready (cpState (encCO 0 1 4 2 3) none) 1).awl.ops = [] :=
  ⟨cp_issues (by decide), rfl, by decide⟩

theorem hyp_AwlFunctionsComputeBitByBit_undefined : Issues (cpState (encCO 0 1 16 2 3) none) 1 (encCO 0 1 16 2 3) ∧
    coprocRow (.awlXor 1 16 2 3) = some ⟨1, 0, 1, 16, 2, 3⟩ ∧ Issues (cpState (encCO 0 0 1 2 31) none) 1 (encCO 0 0 1 2 31) ∧
    coprocRow (.awlMov 1 1 2 31) = some ⟨1, 0, 0, 1, 2, 31⟩ ∧ (2 : Nat) ^ 127 < 2 ^ 128 :=
  ⟨cp_issues (by decide), rfl, cp_issues (by decide), rfl, by decide⟩

/-- The check value of CRC-32 over the nine bytes '123456789', and a one's complement sum that wraps. -/
theorem test_awl_sums : awlResult 6 0xFFFFFFFF 0x393837363534333231 0 8 0 = 0xCBF43926 ^^^ 0xFFFFFFFF ∧
    awlResult 5 0xFFFFFFFF 0x393837363534333231 0 8 0 = 0xE3069283 ^^^ 0xFFFFFFFF ∧ awlResult 4 0xFFFF 0x0100 0 0 0 = 1 := by decide +kernel

theorem test_awl : leaves (.awlXor 1 4 2 3) (cpState (encCO 0 1 4 2 3) none) (fun u =>
    decide ((u.thread 1).awl.ops.map (·.writes) = [some [(4, 0xCC)]])) = true ∧
    awlResult 0x08 0 0xABCD 0x0704 0 0 = 0xBC ∧ awlResult 0x09 0xFFFF 0 0x0704 0 0 = 0xF00F ∧ awlResult 0x0C 0 (2 ^ 128 - 1) 0 0 0 = 128 := by decide +kernel

theorem hyp_ClaspFunctionsRun : Issues (cpState (encCO 1 0 0 1 0) none) 1 (encCO 1 0 0 1 0) ∧ Issues (cpState (encCO 1 1 0 1 0) none) 1 (encCO 1 1 0 1 0) ∧
    Issues (cpState (encCO 1 1 0 1 0) (some (3, 3))) 1 (encCO 1 1 0 1 0) ∧
    claspKnown 0 0 1 0 = true ∧ claspKnown 1 0 1 0 = true ∧
    (cpState (encCO 1 0 0 1 0) none).isResident 1 = true ∧ ((cpState (encCO 1 0 0 1 0) none).quire 0).claspQ = [] ∧
    ((cpState (encCO 1 0 0 1 0) none).keySlot 3).held.map (·.1) = some (taskOf 0).tenant ∧
    (cpState (encCO 1 1 0 1 0) none).claspKey (selected none) = .noKey ∧ claspNeedsKey 1 = true ∧
    (cpState (encCO 1 1 0 1 0) (some (3, 3))).claspKey (selected (some (3, 3))) = .gone ∧
    coprocRow (.keysel 1 0 1 0) = some ⟨1, 1, 0, 0, 1, 0⟩ ∧
    ({ cpState (encCO 1 0 0 1 0) none with keys := [] } : State).heldTask 1 = some (3, { taskOf 0 with taken := some 1 }) ∧
    (({ cpState (encCO 1 0 0 1 0) none with keys := [] } : State).keySlot 3).held.map (·.1) ≠ some (taskOf 0).tenant := by
  constructorm* _ ∧ _ <;> first | decide | (refine cp_issues ?_; decide) | rfl

theorem hyp_CoprocessorRegistersAndContexts_moves :
    Issues (cpState (encCM 0x39 0 2 15 1) none) 1 (encCM 0x39 0 2 15 1) ∧ Issues (cpState (encCM 0x3A 1 2 7 3) none) 1 (encCM 0x3A 1 2 7 3) ∧
    Issues (cpState (encCB 0 1 0 5) none) 1 (encCB 0 1 0 5) ∧ (cpState 0 none).cpFile 0 = some (16, 2) ∧ (cpState 0 none).cpFile 1 = some (8, 4) := by
  constructorm* _ ∧ _ <;> first | decide | (refine cp_issues ?_; decide)

theorem test_mtc : leaves (.mtc 1 0 2 15 1) (cpState (encCM 0x39 0 2 15 1) none) (fun u => decide ((u.thread 1).awl.r 15 = 7 * 2 ^ 64)) = true := by decide

/-- A CPOP that has run, in each coprocessor; a switch waiting, with room or with four residents of which the first is pinned. -/
def endOp (ws : List (Nat × Nat)) : CpOp := ⟨1, 4, 2, 3, none, 0, 0, none, some ws⟩
def ranState : State :=
  let s := leafAt 1 0 (fun th => { th with awl := ⟨[], [endOp [(4, 0xCC)]]⟩, clasp := ⟨[], [endOp [(0, 5)]]⟩ })
  { s with quires := [(0, { QuireSt.zero with claspQ := [1] })] }
def switching (resident : List Nat) (pins : List (Nat × Nat)) : State :=
  { State.reset with quires := [(0, { QuireSt.zero with switchQ := [71], resident := resident, pins := pins })] }

/-- A -C with customer logic attached as Config says; a function of coprocessor 4 under way. -/
def customState (w : Word32) : State := { leafAt 1 w id with variant := 2 }
def customRan : State := { leafAt 1 0 (fun th => { th with custom := [(4, ⟨[], [endOp []]⟩)] }) with variant := 2 }
def otherState (w : Word32) : State := { leafAt 1 w id with variant := 1 }

theorem hyp_CoprocessorRegistersAndContexts_customer :
    (∀ f, Config.customLogic 4 = some f → (customState 0).cpFile 4 = some (f.1, f.2.1)) ∧ Issues (customState (encCO 4 9 0 0 0)) 1 (encCO 4 9 0 0 0) ∧
    ((customRan.thread 1).cp 4).ops = [endOp []] ∧ (otherState 0).variant ≠ 2 ∧
    (∀ c ∈ [2, 4, 7], Issues (otherState (encCO c 9 0 0 0)) 1 (encCO c 9 0 0 0) ∧ Issues (otherState (encCM 0x39 c 1 2 3)) 1 (encCM 0x39 c 1 2 3) ∧
      Issues (otherState (encCM 0x3A c 1 2 3)) 1 (encCM 0x3A c 1 2 3) ∧ Issues (otherState (encCB c 1 0 5)) 1 (encCB c 1 0 5)) := by
  refine ⟨fun f h => ?_, issues_of (by decide), by decide, by decide, fun c hc => ?_⟩
  · show (Config.customLogic 4).map (fun x => (x.1, x.2.1)) = _
    rw [h]
    rfl
  · simp only [List.mem_cons, List.not_mem_nil, or_false] at hc
    rcases hc with rfl | rfl | rfl <;> refine ⟨issues_of ?_, issues_of ?_, issues_of ?_, issues_of ?_⟩ <;> decide

theorem test_no_coprocessor : leaves (.cpop 1 2 9 0 0 0) (otherState (encCO 2 9 0 0 0)) (fun u => decide ((u.thread 1).fault.map (·.kind) = some fNOCP)) = true := by
  decide

theorem hyp_CoprocessorRegistersAndContexts : (ranState.thread 1).awl.ops = [endOp [(4, 0xCC)]] ∧ (ranState.thread 1).clasp.ops = [endOp [(0, 5)]] ∧
    (ranState.quire (tidQuire 1)).claspQ = [ctxOf 1] ∧ ((switching [1, 2, 3] []).quire 0).switchQ = [71] ∧
    ((switching [1, 2, 3] []).quire 0).resident.length < 4 ∧ ((switching [1, 2, 3, 4] [(1, 32)]).quire 0).resident = [1] ++ 2 :: [3, 4] ∧
    (SMap.find ((switching [1, 2, 3, 4] [(1, 32)]).quire 0).pins 1).isSome = true ∧ SMap.find ((switching [1, 2, 3, 4] [(1, 32)]).quire 0).pins 2 = none ∧
    71 ∉ [1, 2, 3, 4] ∧ 2 ∉ [1] ∧ 2 ∉ [3, 4] ∧ ((switching [1, 2, 3, 4] [(1, 32)]).thread (ctxThread 0 2)).clasp.ops = [] ∧
    (switching [1, 2, 3, 4] [(1, 32)]).errsIn (quireWin 0) 0 (claspSave 71) 512 = [] ∧
    SMap.find ((switching [] [(71, 0)]).quire 0).pins 71 = some 0 ∧ (switching [] []).errsIn (quireWin 0) 0 0x3A0000 32 = [] ∧
    (ranState.thread 1).cp 0 ≠ ⟨[], []⟩ := by decide

theorem test_context_switch : leaves (.contextSwitch 0) (switching [1, 2, 3] []) (fun u => decide ((u.quire 0).resident = [1, 2, 3, 71])) = true ∧
    (switching [1, 2, 3, 4] [(1, 32)]).claspVictim 0 = some (some 2) ∧
    leaves (.cpopEnd 1 0) ranState (fun u => decide ((u.thread 1).awl.r 4 = 0xCC)) = true := by decide +kernel

/-! ### Tooling and tenant windows -/

/-- The decode entry that a ROM routine has at reset is valid, names its function and holds its address. -/
theorem rom_fields (n r : Nat) (h : n < 64) : let v : Word32 := BitVec.ofNat 32 (0x80000000 + n * 0x10000 + r % 0x10000)
    fld v 31 31 = 1 ∧ fld v 25 16 = n ∧ fld v 15 0 = r % 65536 := by
  simp only [fld, bitsOf, BitVec.toNat_ofNat, Nat.shiftRight_eq_div_pow]
  omega

/-- A thread that issues w with g1 to g3 as given, in a Quire whose decode entries below n are unused. -/
def romState (w : Word32) (a b c : Word64) (n : Nat) : State :=
  { leafAt 1 w (withRegs a b c) with regs := (List.range n).map (fun k => (5 * 65536 + 0x2200 + 4 * k, 0)) }

theorem rom_entry {s : State} {n : Nat} (hn : n < 48) (h : s.reg 5 (0x2200 + 4 * n) = BitVec.ofNat 32 (0x80000000 + n * 0x10000 + Config.romRoutine n % 0x10000))
    (hp : (List.range 32).all (fun m => s.rf (quireWin 0) (0x2300 + 4 * m) 31 31 == 0) = true) (l : List Nat) (hl : List.range 64 = List.range n ++ n :: l)
    (hz : ∀ k ∈ List.range n, s.rf (quireWin 0) (0x2200 + 4 * k) 31 31 = 0) : s.decodeEntry 0 n = some n ∧ s.romEntry 0 n = true := by
  obtain ⟨a, b, c⟩ := rom_fields n (Config.romRoutine n) (by omega)
  have h1 : ∀ hi lo, s.rf (quireWin 0) (0x2200 + 4 * n) hi lo =
      fld (BitVec.ofNat 32 (0x80000000 + n * 0x10000 + Config.romRoutine n % 0x10000)) hi lo := by
    intro hi lo
    simp only [State.rf, quireWin]
    rw [show 5 + 0 = 5 from rfl, h]
  constructor
  · unfold State.decodeEntry
    rw [List.find?_eq_some_iff_append]
    refine ⟨?_, List.range n, l, hl, ?_⟩
    · simp [h1, a, b]
    · intro k hk
      simp [hz k hk]
  · unfold State.romEntry
    simp only [Bool.and_eq_true, hp, and_true, h1, b, c]
    simp [hn]

/-- ADDS and LCSUM, functions 8 and 0x20. -/
def addsState : State := romState (encCX 8 1 2 3) 0 (BitVec.intMax 64) 1 8
def lcsumState (n : Word64) : State := romState (encCX 0x20 1 2 3) 0 0x1000 n 0x20

theorem hyp_RomFunctionsCompute : Issues addsState 1 (encCX 8 1 2 3) ∧ (ready addsState 1).routine = none ∧
    (addsState.decodeEntry 0 8 = some 8 ∧ addsState.romEntry 0 8 = true) ∧
    (toolRow (ready addsState 1).g (.adds 1 1 2 3)).map (fun r => (r.word, r.val)) = some (encCX 8 1 2 3, BitVec.intMax 64) ∧
    Issues (lcsumState 0x800) 1 (encCX 0x20 1 2 3) ∧ ((lcsumState 0x800).decodeEntry 0 0x20 = some 0x20 ∧ (lcsumState 0x800).romEntry 0 0x20 = true) ∧
    (∀ a k, (lcsumState 0x800).errsIn (tidLeafWin 1) 0 a k = []) ∧ ((ready (lcsumState 0x800) 1).g 3).toNat = 2048 ∧
    Issues (lcsumState 0x801) 1 (encCX 0x20 1 2 3) ∧ ((lcsumState 0x801).decodeEntry 0 0x20 = some 0x20 ∧ (lcsumState 0x801).romEntry 0 0x20 = true) ∧
    2048 < ((ready (lcsumState 0x801) 1).g 3).toNat := by
  have lcsum : ∀ n ∈ [0x800, 0x801], (lcsumState n).decodeEntry 0 0x20 = some 0x20 ∧ (lcsumState n).romEntry 0 0x20 = true := fun n hn => by
    have h := List.mem_pair.mp hn
    exact rom_entry (by decide) rfl (by rcases h with rfl | rfl <;> decide +kernel) ((List.range 31).map (· + 33)) (by decide +kernel)
      (by rcases h with rfl | rfl <;> decide +kernel)
  refine ⟨?_, ?_, rom_entry (by decide) rfl (by decide +kernel) ((List.range 55).map (· + 9)) (by decide +kernel) (by decide +kernel), ?_, ?_,
    lcsum _ (by decide), fun _ _ => rfl, ?_, ?_, lcsum _ (by decide), ?_⟩ <;> first | decide +kernel | exact issues_of (by decide +kernel)

theorem hyp_RomFunctionsCompute_undecoded : Issues (romState (encCX 1000 1 2 3) 0 0 0 64) 1 (encCX 1000 1 2 3) ∧
    (ready (romState (encCX 1000 1 2 3) 0 0 0 64) 1).routine = none ∧
    (∀ n, n < 64 → (romState (encCX 1000 1 2 3) 0 0 0 64).rf (quireWin (tidQuire 1)) (0x2200 + 4 * n) 25 16 ≠ 1000) :=
  ⟨issues_of (by decide), by decide, by decide +kernel⟩

theorem test_undecoded : leaves (.customInstruction 1 1000 1 2 3) (romState (encCX 1000 1 2 3) 0 0 0 64) (fun u =>
    decide ((u.thread 1).fault.map (·.kind) = some fUNDEF)) = true := by decide +kernel

/-- A thread in a custom instruction whose routine, in the owner store, branches to itself, with a halt requested. -/
def loopRoutine : Routine := ⟨[], 0, 0, 0, 0, 0, 0, 0x8000, true, 0, 0, [], none, none⟩
def loopState : State :=
  let s := leafAt 1 (encCX 8 1 2 3) (fun th => { th with micro := true, haltReq := true, routine0 := some loopRoutine })
  { s with quires := [(0, { QuireSt.zero with program := [(4, encCX 8 1 2 3)], owner := [(0x8000, 0x20008000)] })] }

theorem hyp_MicroAtomicityAndTenantWindows : Issues loopState 1 (encCX 8 1 2 3) ∧ fld (encCX 8 1 2 3) 31 26 = 0x3C ∧ leafKnown (encCX 8 1 2 3) = true ∧
    (ready loopState 1).micro = true ∧ (ready loopState 1).haltReq = true ∧ (loopState.thread 1).task = none ∧
    (ready loopState 1).routine = some loopRoutine ∧ SMap.get (fun _ => 0) (loopState.quire 0).owner 0x8000 = BitVec.ofNat 32 (0x20000000 + 0x8000) :=
  ⟨issues_of (by decide), by decide⟩

/-- QUIRE_WIN_CMD and its data as given: the tenant map's last entry; profile entry 8191 with an enabled window of 256 bytes at the end of what
tenants reach, and of one byte more. -/
def winState (cmd d0 d1 d2 d3 : Word32) : State :=
  ((((State.reset.setReg 5 0x200 cmd).setReg 5 0x210 d0).setReg 5 0x214 d1).setReg 5 0x218 d2).setReg 5 0x21C d3

theorem hyp_QuireWin : (winState 0x80003FFF 0x1FF 0 0 0).rf (quireWin 0) 0x200 31 31 = 1 ∧
    (winState 0x1FFF 0x39FF 0 1 0x00800000).rf (quireWin 0) 0x200 31 31 = 0 ∧ (winState 0x1FFF 0x39FF 0 1 0x00800000).rf (quireWin 0) 0x200 13 0 = 8191 ∧
    (winState 0x1FFF 0x39FF 0 1 0x00800000).windowLegal ((winState 0x1FFF 0x39FF 0 1 0x00800000).winData 0 &&& windowFields) = true ∧
    (winState 0x1FFF 0x3A00 0 1 0x00800000).windowLegal ((winState 0x1FFF 0x3A00 0 1 0x00800000).winData 0 &&& windowFields) = false := by decide +kernel

theorem test_quire_win : leaves (.quireWinWrite 0) (winState 0x80003FFF 0x1FF 0 0 0) (fun u =>
    decide (SMap.get (fun _ => 0) (u.quire 0).tenantMap 16383 = 0x1FF)) = true := by decide +kernel

/-! ### Gatherings -/

/-- Loft alone in a state, with a command in progress or without. -/
def loftIn (g : GState) (c : Option UcbCmd) : State := { State.reset with gath := [(421, { gat g with cmd := c })] }

theorem hyp_GatheringCommandsMoveOrAreRefused : membersOf 421 = [] ∧ (∀ g ∈ [GState.off, .quiet, .inService, .failed, .updating], ∀ c ∈ [none, some UcbCmd.update],
      (loftIn g c).heldInReset = false ∧ (loftIn g c).trust.sec ≠ .locked ∧ (∀ a ∈ ancestorsOf 421, ((loftIn g c).gathOf a).cmd = none ∧
        ((loftIn g c).gathOf a).tip = none) ∧ ((loftIn g c).gathOf 421).tip = none ∧ ((loftIn g c).gathOf 421).own = g ∧ ((loftIn g c).gathOf 421).cmd = c) ∧
    (loftIn .off none).someTakes .drain 3 421 = false ∧ (loftIn .off none).bindOk 421 = false ∧
    ({ loftIn .off none with trust := { State.reset.trust with sec := .locked } } : State).trust.sec = .locked := by
  and_intros <;> decide +kernel

theorem test_ucb : leaves (.ucbDrain 421) (loftIn .inService none) (fun u => decide ((u.gathOf 421).own = .quiescing)) = true ∧
    leaves (.ucbDrain 424) { State.reset with gath := [(424, gat .inService)] } (fun u => decide ((u.gathOf 424).own = .quiet)) = true ∧
    leaves (.ucbDrain 421) (loftIn .off none) (fun u => decide ((u.gathOf 421).own = .off) && decide (u.rf 421 0x18 23 16 = 1)) = true := by decide +kernel

/-- A group in service; its first member, the one to be replaced, in one state, the next in another, and its spare in one. -/
def bindIn (w t p : Nat) (g other sp : GState) : State :=
  (withGath [(w, .inService), (t, g), (t + 1, other)] |>.setGath p { gathReset p with own := sp }).setReg w 0x38 (BitVec.ofNat 32 (p - t))
def quireBind (g other sp : GState) : State := bindIn 5 29 37 g other sp
def lingBind (g other sp : GState) : State := bindIn 329 330 394 g other sp

/-- Tedder's group with its own logic in one state and its lanes in another; the same with a command under way in one lane. -/
def laneGroup (own lanes : GState) : State := withGath ((401, own) :: (membersOf 401).map (·, lanes))

theorem hyp_GroupsSpreadTheirCommands :
    (∀ x ∈ [(UcbCmd.start, GState.off), (.start, .quiet), (.drain, .inService), (.stop, .quiet), (.stop, .failed), (.update, .quiet), (.resume, .quiet)],
      ∀ m ∈ groupOf (laneGroup x.2 x.2) 401, ((laneGroup x.2 x.2).gathOf m).own ∈ listedFrom x.1 ∧ ((laneGroup x.2 x.2).gathOf m).cmd = none ∧
        ((laneGroup x.2 x.2).gathOf m).tip = none) ∧
    (∀ m ∈ wholeGroup 401, ((laneGroup .inService .quiet).gathOf m).own ≠ .absent ∧ ((laneGroup .inService .quiet).gathOf m).own ≠ .off) ∧
    (groupOf (laneGroup .quiet .quiet) 401).length = 5 ∧
    (∀ m ∈ (laneGroup .off .inService).boundOf 401, membersOf m = []) ∧
    ((∃ m ∈ 401 :: (laneGroup .off .inService).boundOf 401, ((laneGroup .off .inService).gathOf m).own ∈ listedFrom .start) ∧
      (∃ m ∈ 401 :: (laneGroup .off .inService).boundOf 401, ((laneGroup .off .inService).gathOf m).own ∉ listedFrom .start)) ∧
    (∀ a ∈ ancestorsOf 401, ((laneGroup .quiet .quiet).gathOf a).cmd = none ∧ ((laneGroup .quiet .quiet).gathOf a).tip = none) ∧
    (laneGroup .quiet .quiet).heldInReset = false ∧ (laneGroup .quiet .quiet).trust.sec ≠ .locked := by decide +kernel

theorem hyp_GroupsSpreadTheirCommands_report :
    (∀ g ∈ ((laneGroup .quiet .quiet).gathOf 401).own :: ((laneGroup .quiet .quiet).boundOf 401).map (fun m => ((laneGroup .quiet .quiet).reported m).1),
      g = ((laneGroup .quiet .quiet).gathOf 401).own) ∧
    (∃ g ∈ ((laneGroup .off .quiet).gathOf 401).own :: ((laneGroup .off .quiet).boundOf 401).map (fun m => ((laneGroup .off .quiet).reported m).1),
      g ≠ ((laneGroup .off .quiet).gathOf 401).own) ∧
    (let s := laneGroup .quiescing .quiet
     (s.gathOf 401).own = .quiescing ∧ (s.gathOf 401).tip = none ∧ kindOf 401 ≠ 0x0E ∧ s.workDone 401 = true ∧ (s.gathOf 401).timedOut = false ∧
       ¬ ((s.reg 401 0x1C).toNat ≠ 0 ∧ (s.gathOf 401).entered + 1000 * (s.reg 401 0x1C).toNat < s.time.cycles) ∧ ∀ m ∈ s.boundOf 401, (s.reported m).1 = .quiet ∧ (s.gathOf m).cmd = none) ∧
    (let s := laneGroup .quiescing .quiescing
     (s.gathOf 401).own = .quiescing ∧ ∃ m ∈ s.boundOf 401, ¬ ((s.reported m).1 = .quiet ∨ (s.gathOf m).own = .absent)) := by decide +kernel

/-- What BIND_SPARE asks of a group with its target and spare at positions 0 and n. -/
def bindAsks (s : State) (w t p n : Nat) : Bool :=
  !s.heldInReset && decide (s.trust.sec ≠ .locked) && (ancestorsOf w).all (fun a => (s.gathOf a).cmd.isNone && (s.gathOf a).tip.isNone)
    && (kindOf w == 0x03 || kindOf w == 0x0C) && (s.gathOf w).cmd.isNone
    && (decide ((s.reported w).1 = .inService) || (decide ((s.reported w).1 = .failed) && decide ((s.gathOf w).own ≠ .failed)))
    && decide (s.rf w 0x38 15 8 = 0 ∧ s.rf w 0x38 7 0 = n ∧ n < (membersOf w).length ∧ memberWin w 0 = t ∧ memberWin w n = p)
    && decide ((s.gathOf t).role = .bound ∧ (s.gathOf p).role = .spare)

theorem hyp_GroupsSpreadTheirCommands_spares :
    (∀ sp ∈ [GState.off, .quiet, .inService],
      (bindAsks (quireBind .inService .off sp) 5 29 37 8 = true ∧ (quireBind .inService .off sp).inService 29 = true) ∧
      (bindAsks (quireBind .off .off sp) 5 29 37 8 = true ∧ (quireBind .off .off sp).inService 29 = false ∧
        ((quireBind .off .off sp).gathOf 29).own = .off ∧ ((quireBind .off .off sp).gathOf 37).own = sp) ∧
      (bindAsks (quireBind .quiescing .failed sp) 5 29 37 8 = true ∧ ((quireBind .quiescing .failed sp).gathOf 29).own = .quiescing)) ∧
    (bindAsks (lingBind .off .off .inService) 329 330 394 64 = true ∧ (lingBind .off .off .inService).inService 330 = false ∧
      (lingBind .off .off .inService).inService 394 = true) :=
  ⟨by decide +kernel, by decide +kernel⟩

theorem test_groups : leaves (.ucbStart 401) State.reset (fun u => decide ((u.gathOf 405).own = .starting)) = true ∧
    leaves (.ucbStart 401) (laneGroup .off .inService) (fun u => decide (u.rf 401 0x18 23 16 = 4) && decide (u.rf 402 0x18 23 16 = 1)
      && decide ((u.gathOf 401).own = .starting)) = true ∧
    leaves (.ucbReset 401) (laneGroup .inService .quiet) (fun u => decide ((u.gathOf 402).own = .off) && decide ((u.gathOf 401).own = .off)) = true ∧
    leaves (.quiesceDone 401) (laneGroup .quiescing .quiet) (fun u => decide ((u.gathOf 401).own = .quiet)) = true ∧
    leaves (.ucbDrain 401) (laneGroup .inService .inService) (fun u => decide ((u.gathOf 403).own = .quiescing)) = true := by decide +kernel
theorem test_bind_spare : leaves (.ucbBindSpare 5) (quireBind .inService .off .off) (fun u => decide ((u.gathOf 29).own = .quiescing)) = true ∧
    leaves (.ucbBindSpare 5) (quireBind .off .off .quiet) (fun u => decide ((u.gathOf 37).own = .starting)) = true :=
  ⟨by decide +kernel, by decide +kernel⟩

/-- Loft as it ends its transitions: with what its start found, and past its drain limit of 1 microsecond. -/
def found (n : Nat) : State := { State.reset with gath := [(421, { gat .starting with found := n })] }
def draining (t : Nat) : State := ({ loftIn .quiescing none with time := { State.reset.time with cycles := t } } : State).setReg 421 0x1C 1

/-- Loft as it starts with an image to load and no token for it. -/
def unpaid : State :=
  { found 1 with trust := { State.reset.trust with running := [(421, [(3, ⟨3, [0], []⟩)])] }, commons := { State.reset.commons with tokens := [(45, 0), (46, 0)] } }

theorem hyp_TransitionsEnd : (∀ n ∈ [0, 1, 2], ((found n).gathOf 421).own = .starting ∧ (found n).heldInReset = false ∧ ((found n).gathOf 421).found = n ∧
      ((found n).railOk 421 && (found n).equipped 421) = true ∧ ((found n).payLoad 421 ((found n).loadLines 421)).1 = true) ∧
    (((loftIn .quiescing none).gathOf 421).own = .quiescing ∧ (loftIn .quiescing none).workDone 421 = true ∧
      ((loftIn .quiescing none).gathOf 421).timedOut = false ∧ (loftIn .quiescing none).time.cycles = 0) ∧
    (((loftIn .updating none).gathOf 421).own = .updating ∧ ((loftIn .updating none).payLoad 421 ((loftIn .updating none).loadLines 421)).1 = true) ∧
    (((draining 1001).gathOf 421).own = .quiescing ∧ ((draining 1001).reg 421 0x1C).toNat = 1 ∧ ((draining 1001).gathOf 421).timedOut = false ∧
      ((draining 1001).gathOf 421).entered = 0 ∧ (draining 1001).time.cycles = 1001) := by
  decide +kernel

theorem hyp_TransitionsEnd_unpaid : (unpaid.gathOf 421).own = .starting ∧ unpaid.heldInReset = false ∧
    (unpaid.payLoad 421 (unpaid.loadLines 421)).1 = false := by
  refine ⟨by decide +kernel, by decide +kernel, ?_⟩
  unfold State.payLoad State.drawLoad
  generalize Config.stagingInTable = b
  cases b <;> decide +kernel

theorem test_transitions : leaves (.startingEnd 421 true) (found 2) (fun u => decide ((u.gathOf 421).own = .failed)) = true ∧
    leaves (.startingEnd 421 true) (found 1) (fun u => decide ((u.gathOf 421).own = .inService)) = true ∧
    leaves (.drainTimeout 421) (draining 1000) (fun u => decide (u.rf 421 0x20 2 2 = 0)) = true ∧
    leaves (.drainTimeout 421) (draining 1001) (fun u => decide (u.rf 421 0x20 2 2 = 1)) = true := by decide +kernel

/-! ### Registers -/

theorem hyp_RegistersAreReadAndWritten : State.reset.heldInReset = false ∧ fld (8 : Word32) 3 0 = 8 ∧ fld (0x07000000 : Word32) 31 24 = 7 ∧
    regAt 421 0xFFFC = none ∧ State.reset.rf sheafWin 0x120 31 31 = 0 ∧ (withGath [(427, .inService)]).inService pcieWin = true := by decide +kernel

theorem test_registers : leaves (.registerWrite (.unit 421 0x14) 8 0) State.reset (fun u => decide (u.rf 421 0x20 0 0 = 1) && decide (u.reg 421 0x28 = 0x10014)) = true ∧
    leaves (.rcRead (.unit 421 0x2C) 5) (State.reset.setReg 421 0x2C 9) (fun u => decide (u.readData = 9) && decide (u.reg 421 0x2C = 5)) = true ∧
    leaves (.reservedAccess 421 0xFFFC 4 false) State.reset (fun u => decide (u.readData = 0) && decide (u.reg 421 0x2C = 1)) = true := by decide +kernel

/-! ### Tedder and Windrow -/

/-- A packet of port 0 with 64 bytes, at a place. -/
def pk (x : Place) (w : Option Walk) (md : BitVec 512) : Packet :=
  { port := 0, prio := 0, ts := 0, bytes := List.replicate 64 1, complete := true, descCtx := none, handle := none, place := x, parse := w, record := [],
    exc := none, fragBind := .notLooked, fragFirstKey := none, fragMissAction := 2, profile := 0, stage := 0, stageKey := [0, 0, 5], profileDone := true,
    md := md, waitSince := none, learnWait := none, arrived := 0 }

/-- Packet 3 alone in lane 0, with every unit of the path in service. -/
def pathState (p : Packet) : State :=
  { withGath [(401, .inService), (402, .inService), (406, .inService), (407, .inService), (411, .inService), (412, .inService)] with
    packets := [(3, p)], windrow := { State.reset.windrow with lanes := [(0, [3])] } }

/-- A parse that ended well, and one that was truncated in a context that drops those. -/
def walked : Walk := { parseWindow [] false 0 0 0 [] with reasons := [] }
def truncated : Walk := { walked with limit := some 8, truncAction := 1 }
def ones64 : List Byte := List.replicate 64 1
/-- A parse that ended well at a later fragment whose table entry is uncorrectable. -/
def fragWalk : Walk := { walked with fragLater := true, fragKey := 5 }
def fragErr : EccErr := ⟨tedderWin, 0, Config.stateAddr (128 * tedderWin + 0) fragWalk.fragKey, 0, true, 0, 0⟩
def fragBad (p : Packet) : State :=
  { (pathState p).setReg tedderWin 0x210 0x80000000 with
    mower := { State.reset.mower with errs := [fragErr] } }

theorem frag_bad : ((fragBad (pk .parsed (some fragWalk) 0)).fragRead fragWalk).1 = true := by
  have h : (fragBad (pk .parsed (some fragWalk) 0)).rf tedderWin 0x210 31 31 = 1 := by decide +kernel
  have c : 0 < codeBytes ((fragBad (pk .parsed (some fragWalk) 0)).memClass tedderWin 0) := by decide +kernel
  have m : (fragBad (pk .parsed (some fragWalk) 0)).mower.errs = [fragErr] := rfl
  have e : (fragBad (pk .parsed (some fragWalk) 0)).errsIn tedderWin 0 (Config.stateAddr (128 * tedderWin + 0) fragWalk.fragKey) 16 = [fragErr] := by
    unfold State.errsIn
    rw [m]
    simp only [fragErr, beq_self_eq_true, List.filter_cons, List.filter_nil, Nat.lt_add_of_pos_right (by decide : 0 < 16),
      Nat.lt_add_of_pos_right c, decide_true, Bool.and_self, if_true]
  unfold State.fragRead
  rw [if_pos ⟨h, Or.inr rfl⟩]
  unfold State.readItem State.eccRead
  rw [e]
  rfl

theorem hyp_TedderParsesAndHandsOver :
    ((pathState (pk .rx none 0)).packet 3 = some (pk .rx none 0) ∧ (pathState (pk .rx none 0)).inService tedderWin = true ∧
      (pathState (pk .rx none 0)).inService 402 = true) ∧
    ((pathState (pk .parsed (some walked) 0)).oldestInTedder 3 (pk .parsed (some walked) 0) = true ∧
      (walked.finish ones64 false).reason = none ∧ (walked.finish ones64 false).truncated = false ∧
      (pathState (pk .parsed (some walked) 0)).windrowStalled 0 = false ∧ ((pathState (pk .parsed (some walked) 0)).fragRead walked).1 = false ∧
      ((fragBad (pk .parsed (some fragWalk) 0)).oldestInTedder 3 (pk .parsed (some fragWalk) 0) = true)) ∧
    ((truncated.finish ones64 false).reason = none ∧ (truncated.finish ones64 false).truncated = true ∧ truncated.truncAction = 1) ∧
    (fld ((State.reset.setReg tedderWin 0x200 0x100).reg tedderWin 0x200) 8 8 = 1 ∧ fld ((State.reset.setReg tedderWin 0x200 0x100).reg tedderWin 0x200) 9 9 = 0) ∧
    fld ((State.reset.setReg tedderWin 0x200 0x300).reg tedderWin 0x200) 9 9 = 1 := by
  decide +kernel

/-- A load of 8 bytes of packet 3, whose one cell is in buffer memory. -/
def packetOp (k : OpKind) : LeafOp := ⟨4, 0, k, 3, 5, some 31, 0, 8, 0, 0x1234, [1, 2, 3, 4, 5, 6, 7, 8], none, 3⟩
/-- Thread 1 reads a packet whose one cell is in buffer memory, whose channels are in one state; the cell readable, or not. -/
def packetState (g : GState) (errs : List EccErr) (k : OpKind) : State :=
  let s := leafAt 1 0 (fun th => { th with ops := [packetOp k] })
  { s with
    gath := s.gath ++ (windows 284 32).map (fun w => (w, gat g))
    packets := [(3, { pk .rx none 0 with handle := some 0x80000000 })]
    loft := { State.reset.loft with cells := [(0x80000000, ⟨0, 1, 0, 0, true, true, true, 0⟩)] }
    mower := { State.reset.mower with errs := errs } }

theorem hyp_OperationsComplete_packet :
    (∀ k ∈ [OpKind.load, .xld], ((packetState .inService [] k).thread 1).ops.find? (fun o => o.inSpace 3) = some (packetOp k)) ∧
    (let s := packetState .inService [] .load
     s.cellsAvail 3 = .ok ∧ (s.readPacket 3 (0 / 256) ((0 + 8 - 1) / 256 + 1 - 0 / 256)).1 = false ∧ (s.thread 1).fault = none) ∧
    (packetState .quiescing [] .load).cellsAvail 3 = .hold ∧
    (∀ s ∈ [packetState .off [] .load, packetState .inService [⟨284, 0, 0, 0, true, 0, 0⟩] .load], s.cellsAvail 3 ≠ .hold ∧ (s.readPacket 3 0 1).1 = true) := by
  decide +kernel

theorem test_packet_read : leaves (.asyncCompletion 1 3) (packetState .inService [] .load) (fun u => decide ((u.thread 1).g 5 = 0x0807060504030201)) = true := by
  decide +kernel

theorem test_tedder : leaves (.recordHandoff 3) (pathState (pk .parsed (some truncated) 0)) (fun u => decide (u.reports.length = 1)) = true ∧
    leaves (.recordHandoff 3) (pathState (pk .parsed (some walked) 0)) (fun u => decide (u.windrowLane 0 = [3, 3])) = true ∧
    leaves .graphSwitch (State.reset.setReg tedderWin 0x200 0x100) (fun u => decide (u.rf tedderWin 0x200 9 9 = 1)) = true := by decide +kernel

/-- A fragment packet that waits, at the end of its wait, and an entry at the end of its life; a standby graph that waits. -/
def fragState : State :=
  let s := pathState { pk .laneOut none 0 with waitSince := some 0 }
  { s with time := { State.reset.time with ns := 1000000, cycles := 255000 },
           tedder := { State.reset.tedder with frags := [(5, ⟨0, true, 0, 0, 1⟩)], loadWaiting := some (List.replicate 0x42 1) } }

theorem hyp_Fragments : (fragState.packet 3).map (fun p => (p.waitSince, p.place)) = some (some 0, .laneOut) ∧
    0 + 1000 * fragState.rf tedderWin 0x210 23 16 ≤ fragState.time.cycles ∧ SMap.find fragState.tedder.frags 5 = some ⟨0, true, 0, 0, 1⟩ ∧
    0 + 1 * 1000000 ≤ fragState.now ∧ fragState.tedder.loadWaiting = some (List.replicate 0x42 1) ∧ fld (fragState.reg tedderWin 0x200) 9 9 = 0 := by decide +kernel

theorem test_fragments : leaves (.fragPendingTimeout 3) fragState (fun u => decide ((u.packet 3).map (·.waitSince) = some none)) = true ∧
    leaves (.fragAgeOut 5) fragState (fun u => decide (u.tedder.frags = [])) = true := by decide +kernel

/-- Packet 3 with its DIRECT lookup under way, for entry 5: an action word that ends the profile, or an entry with an error. -/
def stageState (act : Word128) (errs : List EccErr) : State :=
  let s := pathState { pk .classifying none 0 with stageSlot := [1] }
  ({ s with windrow := { s.windrow with direct := [(5, act)] }, mower := { State.reset.mower with errs := errs } }).setReg windrowWin 0x600 0x03000000

theorem hyp_WindrowClassifies : (pathState (pk .handed (some walked) 0)).inService windrowWin = true ∧ (pathState (pk .handed (some walked) 0)).inService 407 = true ∧
    keyNumber [0, 0, 5] 3 = 5 ∧ (stageState 0xA000000000000000 []).rf windrowWin 0x600 28 24 = 3 ∧ (stageState 0xA000000000000000 []).rf windrowWin 0x600 19 0 = 0 ∧
    usableAction 0xA000000000000000 = true ∧ actBits 0xA000000000000000 62 61 = 1 ∧ (stageState 0xA000000000000000 []).errsIn windrowWin 0 80 16 = [] ∧
    (∃ e ∈ (stageState 0 [⟨406, 0, 80, 0, true, 0, 0⟩]).errsIn windrowWin 0 80 16, e.shows = true ∧
      (stageState 0 [⟨406, 0, 80, 0, true, 0, 0⟩]).errFatal e = true) := by decide +kernel

theorem test_direct_stage : leaves (.stageResult 3) (stageState 0xA000000000000000 []) (fun u =>
    decide ((u.packet 3).map (fun p => (p.profileDone, mdBits p.md 116 116)) = some (true, 1))) = true := by decide +kernel

/-- A packet at the output of its lane: to be dropped, or not. -/
def outState (md : BitVec 512) : State := pathState (pk .laneOut (some walked) md)

theorem hyp_WindrowOutputsAndStores : (outState 0).windrowLane 0 = [3] ∧ (outState 0).inService 407 = true ∧ (outState 0).intakeOpen 0 = true ∧
    (((outState 0).packet 3).bind (·.handle) = none ∨ mdTenant 0 = ((outState 0).cell 0).tenant) ∧ mdBits (BitVec.ofNat 512 (2 ^ 93)) 93 93 = 1 ∧ mdBits (BitVec.ofNat 512 (2 ^ 93)) 95 95 = 0 ∧
    fld ((State.reset.setReg windrowWin 0x500 0x80001FFF).reg windrowWin 0x500) 31 31 = 1 ∧
    fld ((State.reset.setReg windrowWin 0x500 0x80001FFF).reg windrowWin 0x500) 19 0 = 8191 ∧
    fld ((State.reset.setReg windrowWin 0x500 0x80002000).reg windrowWin 0x500) 19 0 = 8192 ∧ State.reset.errsIn windrowWin 0 0 16 = [] ∧
    State.reset.errsIn windrowWin 1 (32 * 8191) 32 = [] ∧ State.reset.windrow.excTokens = [] ∧
    State.reset.time.cycles < State.reset.windrow.refilled + 1000 ∧ fragState.windrow.refilled + 1000 ≤ fragState.time.cycles ∧
    actionListed (BitVec.ofNat 128 (State.reset.windData 4)) = true ∧
    actionListed (BitVec.ofNat 128 ((State.reset.setReg windrowWin 0x514 0x60000000).windData 4)) = false := by decide +kernel

theorem test_windrow : leaves (.windrowLaneOutput 0) (outState 0) (fun u => decide (SMap.find u.kettle.intake 0 = some ⟨3, true, none, none, false⟩)) = true ∧
    leaves (.windrowLaneOutput 0) (outState (BitVec.ofNat 512 (2 ^ 93))) (fun u => decide (u.reports.length = 1)) = true ∧
    leaves .windrowIndWrite (State.reset.setReg windrowWin 0x500 0x80002000) (fun u => decide (u.rf windrowWin 0x504 29 29 = 1)) = true := by decide +kernel

/-! ### Ling -/

/-- Database 0 has one bank of one-row entries; the entries given hold all-zero keys and are valid; block 0 has the commands given. -/
def lingState (valid : List Nat) (cmds : List LingCmd) : State :=
  { withGath [(329, .inService), (330, .inService)] with
    ling := { State.reset.ling with rows := valid.map (fun e => (e, lingRowOf 0 0 true)), blocks := if cmds = [] then [] else [(0, cmds)] }
    regs := [(329 * 65536 + 0x100, 0), (329 * 65536 + 0x200, 0x1000)] }

theorem hyp_LingCommandsReadWriteAndSearch : LingIdle (lingState [4095] []) 0 0 ∧ (lingState [4095] []).dbEntries 0 = 4096 ∧
    HasTokens (lingState [4095] []) 3 2 ((lingState [4095] []).dbRows 0) ∧ HasTokens (lingState [4095] []) 3 2 1 ∧
    HasTokens (lingState [4095] []) 3 2 ((lingState [4095] []).dbBanks 0) ∧ (lingState [4095] []).dbBanks 1 = 0 ∧ (lingState [4095] []).ling.lost = [] := by
  unfold LingIdle HasTokens
  decide +kernel

theorem hyp_LingCommandsReadWriteAndSearch_clean : CleanEntry (lingState [4095] []) 0 4095 ∧ actionListed (capturedOf (lingState [4095] []) 0 1 0 0 4095).act = true :=
  ⟨fun k _ => ⟨rfl, rfl⟩, by decide +kernel⟩

theorem test_ling : leaves (.lingSearch 0 0) (lingState [7, 4095] []) (fun u => decide (u.rf lingWin (blockBase 0 + 0xB4) 23 16 = 2)
      && decide (u.rf lingWin (blockBase 0 + 0xB8) 14 0 = 7)) = true ∧
    leaves (.lingWrite 0 0 4096) (lingState [] []) (fun u => decide (u.rf lingWin (blockBase 0 + 0xB4) 7 0 = 2) && decide (u.ling.rows = [])) = true ∧
    leaves (.lingInvalidate 0 0 4095) (lingState [4095] []) (fun u => !u.entryValid 0 4095) = true := by decide +kernel

/-- A MOVE_BLOCK under way in block 0. -/
def moveOf (left : Nat) : LingMove := ⟨5, true, left, 4, 0⟩
def moveCmd (left : Nat) : LingCmd := ⟨6, 0, 0, 4, 0, 0, 0, some (moveOf left), false⟩
/-- A tipping-in at a row of bank position 0, to the spare at position 64. -/
def spareState (row : Nat) : State :=
  { withGath [(330, .inService), (394, .inService)] with
    gath := [(329, { gat .inService with cmd := some .bindSpare, tip := some ⟨0, 64, row, true⟩ }), (330, gat .inService), (394, gat .inService)]
    regs := [(329 * 65536 + 0x100, 0)] }

theorem hyp_LingMovesEntriesAndBanks : LingIdle (lingState [4, 5, 4095] []) 0 0 ∧ (lingState [4, 5, 4095] []).entryValid 0 4 = true ∧
    (lingState [4, 5, 4095] []).entryValid 0 6 = false ∧ FreeDown (lingState [4, 5, 4095] []) 0 4 6 ∧ FreeUp (lingState [4, 5, 4095] []) 0 5 3 ∧
    (∀ f, ¬ FreeDown (lingState [4, 5, 4095] []) 0 4095 f) ∧
    (lingState [4, 5] [moveCmd 1]).movingBlock 0 = some (0, moveCmd 1, moveOf 1) ∧ (lingState [4, 5] [moveCmd 0]).movingBlock 0 = some (0, moveCmd 0, moveOf 0) ∧
    HasTokens (lingState [4, 5] [moveCmd 1]) 0 2 1 ∧ ((lingState [4, 5, 4095] []).tokensHeld 3 2 = 0 ∧ (lingState [4, 5] [moveCmd 1]).serving lingWin = true ∧
      actionListed (capturedOf (lingState [4, 5, 4095] []) 0 6 1 0 4).act = true) ∧ (∀ r ∈ [0, 4095], ((spareState r).gathOf lingWin).tip = some ⟨0, 64, r, true⟩ ∧
      (spareState r).inService (lingBankWin 64) = true ∧ HasTokens (spareState r) 0 2 1 ∧ (spareState r).errsIn (lingBankWin 0) 0 (48 * r) 48 = [] ∧
      (spareState r).slotOf 0 = some 0) := by
  refine ⟨by unfold LingIdle; decide +kernel, ?_, ?_, ⟨by decide, ?_, ?_, ?_⟩, ⟨by decide, ?_, ?_⟩, ?_, ?_, ?_, ?_, ?_, ?_⟩
  any_goals decide +kernel
  any_goals (unfold HasTokens; decide +kernel)
  · intro e h1 h2
    obtain rfl : e = 5 := by omega
    decide +kernel
  · intro e h1 h2
    obtain rfl : e = 4 := by omega
    decide +kernel
  · rintro f ⟨h1, h2, -, -⟩
    have h3 : (lingState [4, 5, 4095] []).dbEntries 0 = 4096 := by decide +kernel
    omega

theorem hyp_LingMovesEntriesAndBanks_clean : CleanEntry (lingState [4, 5] [moveCmd 1]) 0 (moveOf 1).src := fun _ _ => ⟨rfl, rfl⟩

theorem test_ling_moves : leaves (.lingMoveStep 0) (lingState [4, 5] [moveCmd 1]) (fun u => u.entryValid 0 6 && decide ((u.blockCmds 0).map (fun c => c.move.map (·.src)) = [some 4])) = true ∧
    leaves (.lingMoveBlock 0 0 4095 1) (lingState [4, 5, 4095] []) (fun u => decide (u.rf lingWin (blockBase 0 + 0xB4) 7 0 = 1)) = true ∧
    leaves .lingSpareCopyStep (spareState 4095) (fun u => decide (u.lingPos 0 = 64) && decide ((u.gathOf 330).role = .retired)) = true := by decide +kernel

/-! ### Warren -/

/-- Table 0 is pinned, of 16 buckets with 64-byte entries and 6-byte keys; the pinned memory holds the cells given; engines as given. -/
def tableState (pin : List Host.Cell) (w : WarrenSt → WarrenSt) : State :=
  { withGath [(396, .inService), (397, .inService), (398, .inService), (399, .inService), (400, .inService)] with
    regs := [(396 * 65536 + 0x1000, 0xC40C8000)], warren := w { State.reset.warren with pin := pin } }
def key6 : List Byte := List.replicate 6 0
def cands : Nat × Nat := (tableState [] id).candidates 0 key6

/-- The key in way 2 of its first bucket, put there by the learn engine for port 3. -/
def held6 : List Host.Cell := Memory.writeBytes [] (256 * cands.1 + 128) (checked 0 cands.1 (newEntry 64 false true 3 0x55 key6))

theorem reach0 (pin : List Host.Cell) (w : WarrenSt → WarrenSt) (b : Nat) (h : (tableState pin w).warren.lines = []) : Reach (tableState pin w) 0 b := by
  refine ⟨by rw [h]; exact List.Pairwise.nil, Or.inl ⟨?_, rfl⟩⟩
  have e : (tableState [] id).wtPlace 0 = 3 := by decide +kernel
  exact e

theorem key_absent : KeyAbsent (tableState [] id) 0 key6 := by
  have h1 : ∀ w, w < 4 → entFlag ((tableState [] id).way 0 cands.1 w) 0 = false := by decide +kernel
  have h2 : ∀ w, w < 4 → entFlag ((tableState [] id).way 0 cands.2 w) 0 = false := by decide +kernel
  rintro b w hb ⟨hw, hf, -⟩
  rcases hb with hb | hb <;> rw [hb] at hf
  · exact absurd (h1 w hw) (fun h => Bool.noConfusion (h.symm.trans hf))
  · exact absurd (h2 w hw) (fun h => Bool.noConfusion (h.symm.trans hf))

theorem key_at : KeyAt (tableState held6 id) 0 key6 cands.1 2 := by
  have h1 : ∀ w, w < 4 → entFlag ((tableState held6 id).way 0 cands.1 w) 0 = true → w = 2 := by decide +kernel
  have h2 : ∀ w, w < 4 → entFlag ((tableState held6 id).way 0 cands.2 w) 0 = false := by decide +kernel
  refine ⟨Or.inl (by decide +kernel), ⟨by decide, by decide +kernel, by decide +kernel⟩, by decide +kernel, ?_⟩
  have hc : (tableState held6 id).candidates 0 key6 = cands := by decide +kernel
  rintro b w hb ⟨hw, hf, -⟩
  rw [hc] at hb
  rcases hb with hb | hb <;> rw [hb] at hf
  · exact ⟨hb, h1 w hw hf⟩
  · exact absurd (h2 w hw) (fun h => Bool.noConfusion (h.symm.trans hf))

theorem hyp_WarrenCommandsActOnWays : WarrenIdle (tableState [] id) 0 0 [cands.1, cands.2] ∧ 3 ≤ (tableState [] id).tokensLeft 3 3 ∧
    Reach (tableState [] id) 0 cands.1 ∧ KeyAbsent (tableState [] id) 0 key6 ∧ (tableState [] id).wtKey 0 (leBytes 96 ((tableState [] id).engWords 0 0x100 24)) = key6 ∧
    (tableState [] id).freeWay 0 cands.1 = some 0 ∧ KeyAt (tableState held6 id) 0 key6 cands.1 2 ∧ (tableState [] id).wtPlace 1 = 0 ∧
    (tableState [] id).rf 397 0x1AC 25 0 < 4 * (tableState [] id).wtBuckets 0 ∧ (tableState [] id).wtBuckets 0 = 16 := by
  refine ⟨by unfold WarrenIdle; decide +kernel, ?_, reach0 _ _ _ rfl, key_absent, ?_, ?_, key_at, ?_⟩ <;> decide +kernel

/-- The same, where engine 0 gives an action word whose next is reserved. -/
theorem hyp_WarrenCommandsActOnWays_refused :
    actionListed (BitVec.ofNat 128 ((tableState [] id).engWords 0 0x180 4)) = true ∧
    actionListed (BitVec.ofNat 128 (((tableState [] id).setReg 397 0x184 0x60000000).engWords 0 0x180 4)) = false ∧
    WarrenIdle ((tableState [] id).setReg 397 0x184 0x60000000) 0 0 [cands.1, cands.2] := by
  unfold WarrenIdle
  decide +kernel

theorem test_warren : leaves (.warrenInsert 0 0 false) ((tableState [] id).setReg 397 0x184 0x60000000) (fun u =>
      decide (((u.wQueue 0).map (fun j => j.ended.map (·.code))) = [some 256]) && decide (u.rf 397 0x20 0 0 = 1)) = true ∧
    leaves (.warrenInsert 0 0 false) (tableState held6 id) (fun u => decide (((u.wQueue 0).map (fun j => j.ended.map (·.code))) = [some 2])) = true ∧
    leaves (.warrenDelete 0 0) (tableState held6 id) (fun u => !entFlag (u.way 0 cands.1 2) 0) = true ∧
    leaves (.warrenLookup 0 1 false) (tableState [] id) (fun u => decide (((u.wQueue 0).map (fun j => j.ended.map (·.code))) = [some 7])) = true := by decide +kernel

/-- A job of Warren on table 0; an engine's command that is done, a writer that waits for its buckets, one with an entry to displace, a learn or a
move, and a learn with a packet that waits for it. -/
def jobOf (who op : Nat) : WarrenJob :=
  { newJob who op 0 key6 with data := 0x55, engine := if who < 4 then some who else none, valid := true, tenant := 5, port := 3 }
def doneEnd : WarrenEnd := ⟨0, 7, 256, 0x99, key6⟩
def doneJob : WarrenJob := { jobOf 0 0 with ended := some doneEnd }
def doneState : State := tableState [] (fun w => { w with blocks := [(0, [doneJob])] })
def waitState' : State :=
  let s := tableState [] (fun w => { w with blocks := [(0, [jobOf 0 1])], waitq := [(0, 0, [cands.1, cands.2])] })
  { s with commons := { s.commons with tokens := [(18, 0)] } }
def moveJob (rest : List (Nat × Nat × Nat × Nat)) : WarrenJob := { jobOf 0 1 with path := (cands.1, 2, cands.1 ^^^ 1, 3) :: rest, place := some (cands.1, 2), read := [cands.1, cands.1 ^^^ 1] }
def pathState' (rest : List (Nat × Nat × Nat × Nat)) : State := tableState held6 (fun w => { w with blocks := [(0, [moveJob rest])] })
def learnState (pin : List Host.Cell) (op port : Nat) : State := tableState pin (fun w => { w with learns := [{ jobOf 4 op with port := port }] })

theorem hyp_WarrenServesLearnsAndAges : doneState.wQueue 0 = [doneJob] ∧ waitState'.warren.waitq.find? (fun q => !waitState'.wConflict q.1 q.2.1 q.2.2) =
      some (0, 0, [cands.1, cands.2]) ∧ waitState'.wFront 0 = some (jobOf 0 1) ∧ [cands.1, cands.2] = [(waitState'.candidates 0 key6).1, (waitState'.candidates 0 key6).2] ∧
    waitState'.tokensHeld 3 3 = 0 ∧ waitState'.tokensLeft 3 3 = 0 ∧
    ((pathState' []).wFronts.find? (fun k => k.table == 0 && !k.path.isEmpty) = some (moveJob []) ∧ (pathState' []).wFront 0 = some (moveJob []) ∧
      (pathState' []).wFront 4 = none ∧ Reach (pathState' []) 0 cands.1) ∧
    (learnState [] 16 3).warren.learns = [jobOf 4 16] ∧ (learnState [] 16 3).wConflict 4 0 [cands.1, cands.2] = false ∧
    3 ≤ (learnState [] 16 3).tokensLeft 2 3 ∧ (learnState [] 16 3).inService warrenWin = true ∧ (learnState [] 16 3).freeWay 0 cands.1 = some 0 ∧
    entPort ((learnState held6 17 4).way 0 cands.1 2) = 3 ∧ entFlag ((learnState held6 17 4).way 0 cands.1 2) 1 = false ∧
    entFlag ((learnState held6 17 4).way 0 cands.1 2) 5 = false ∧ byteAt ((learnState held6 17 4).way 0 cands.1 2) 2 = 0 ∧
    (jobOf 0 1).read = [] ∧ (jobOf 0 1).paid = none ∧ (jobOf 4 16).turn = false ∧ (jobOf 4 16).event = 0 ∧ cands.1 ∈ (moveJob []).read ∧
    cands.1 ^^^ 1 ∈ (moveJob []).read ∧ (3 ≤ (learnState [] 16 3).tokensLeft 3 3) := by
  and_intros <;> first | exact reach0 _ _ _ rfl | decide +kernel

/-- A packet whose wait for a learn ends now; a sweep of table 0 that is due at its last bucket. -/
def sweepLast : WarrenSweep := ⟨15, 0, 0, false, false, none⟩
def expiryState : State := pathState { pk .laneOut none 0 with learnWait := some (0, 0) }
def sweepState : State :=
  { tableState held6 (fun w => { w with age := [(0, sweepLast)] }) with time := { State.reset.time with ns := 28125000000 } }
/-- The same with a way whose hit bit has been set since the sweep read it. -/
def sweepHit : State :=
  let pin := Memory.writeBytes [] (256 * 15) (entSetFlag (newEntry 64 false true 3 0x55 key6) 2 true)
  tableState pin (fun w => { w with age := [(0, { sweepLast with todo := some [(0, false)] })] })

theorem hyp_WarrenAges : expiryState.packet 3 = some { pk .laneOut none 0 with learnWait := some (0, 0) } ∧ expiryState.time.cycles = 0 ∧
    sweepState.wtCfg 0 15 15 = 1 ∧ sweepState.sweep 0 = sweepLast ∧ sweepState.wConflict 5 0 [15] = false ∧ 5 ≤ sweepState.tokensLeft 1 3 ∧
    sweepState.tokensHeld 1 3 = 0 ∧ sweepState.warren.lines = [] ∧ sweepState.inService warrenWin = true ∧
    0 + 15 * (sweepState.rf warrenWin 0x1008 31 16 * 1000000) / 16 ≤ sweepState.now ∧
    (sweepHit.sweep 0).todo = some [(0, false)] ∧ entFlag (sweepHit.way 0 15 0) 0 = true ∧ entFlag (sweepHit.way 0 15 0) 1 = false ∧
    entFlag (sweepHit.way 0 15 0) 2 = true := by decide +kernel

theorem test_warren_learns : leaves .learnServe (learnState [] 16 3) (fun u => entFlag (u.way 0 cands.1 0) 3 && decide (u.warren.learns = [])) = true ∧
    leaves .moveServe (learnState held6 17 4) (fun u => decide (entPort (u.way 0 cands.1 2) = 4)) = true ∧
    leaves (.displacementMove 0) (pathState' []) (fun u => entFlag (u.way 0 (cands.1 ^^^ 1) 3) 0) = true ∧
    leaves (.ageSweepVisit 0) sweepState (fun u => decide ((u.sweep 0).next = 0)) = true := by decide +kernel

/-! ### Kettle -/

/-- A position with its nodes live. -/
def posOf (live : List Nat) (outs : List (Nat × OutDesc)) : Position := ⟨3, 5, 7, 2, live, true, none, outs, none, [], false, some 0, 0, 0, 0⟩
def outOf (pid queue : Nat) : OutDesc := ⟨pid, 5, queue, none, [], 0, false, 64, 0⟩

/-- Packet 3 at the intake of Kettle lane 0, with tenant 0's tokens as given; Leaf 0 serves. -/
def intakeState (i : Intake) (tokens tasks : Nat) : State :=
  { pathState (pk .kettle (some walked) 0) with
    gath := [(5, gat .inService), (29, gat .inService), (411, gat .inService), (412, gat .inService)]
    kettle := { State.reset.kettle with intake := [(0, i)], tokens := if tokens = 0 then [] else [(0, tokens)], taskCount := if tasks = 0 then [] else [(0, tasks)] } }
def rootIn : Intake := ⟨3, true, none, none, false⟩
def excIn : Intake := ⟨3, true, some 9, none, false⟩

theorem hyp_KettleCreatesAndDispatchesTasks : SMap.find (intakeState rootIn 0 0).kettle.intake 0 = some rootIn ∧ (intakeState rootIn 0 0).inService kettleWin = true ∧
    (intakeState rootIn 1023 0).tokensOf 0 < (intakeState rootIn 1023 0).tokenCap ((intakeState rootIn 1023 0).kettleClass 0) ∧
    (intakeState rootIn 0 0).tokensOwed 0 < 16384 - (intakeState rootIn 0 0).kettle.positions.length ∧
    (intakeState rootIn 0 93).taskCountOf 0 < (intakeState rootIn 0 93).quotaOf 0 ∧ (intakeState rootIn 0 94).quotaOf 0 ≤ (intakeState rootIn 0 94).taskCountOf 0 ∧
    (intakeState rootIn 0 0).olderHeld 0 = false ∧ (intakeState rootIn 0 0).chooseLeaf 0 = some 0 ∧
    (intakeState rootIn 1024 0).tokenCap 0 ≤ (intakeState rootIn 1024 0).tokensOf 0 ∧ ¬ ((intakeState rootIn 1024 0).tokensOf 0 < (intakeState rootIn 1024 0).tokenReserve 0) ∧
    (intakeState excIn 0 0).inService 412 = true ∧ SMap.find (intakeState excIn 0 0).kettle.intake 0 = some excIn ∧ excIn.exception = some 9 :=
  by decide +kernel

/-- Every position taken: no token is left for a tenant below its cap. -/
def fullState : State :=
  let s := intakeState { rootIn with stalled := true } 0 0
  { s with kettle := { s.kettle with positions := (List.range 16384).map (fun k => (k, posOf [0] [])) } }

theorem hyp_KettleStalls : (16384 - fullState.kettle.positions.length = 0 ∧ SMap.find fullState.kettle.intake 0 = some { rootIn with stalled := true }) ∧
    fullState.tokensOf 0 < fullState.tokenCap (fullState.kettleClass 0) := by
  refine ⟨⟨?_, rfl⟩, by decide +kernel⟩
  rw [show fullState.kettle.positions = (List.range 16384).map (fun k => (k, posOf [0] [])) from rfl, List.length_map, List.length_range]

theorem test_kettle_roots : leaves (.rootTaskCreate 0) (intakeState rootIn 0 93) (fun u => decide ((u.task 0).map (fun x => (x.leaf, x.quotaWait)) = some (some 0, false))) = true ∧
    leaves (.rootTaskCreate 0) (intakeState rootIn 0 94) (fun u => decide ((u.task 0).map (fun x => (x.leaf, x.quotaWait)) = some (none, true))) = true ∧
    leaves (.rootTaskCreate 0) (intakeState rootIn 1024 0) (fun u => decide (u.kettle.positions = []) && decide (u.reports.length = 1)) = true := by decide +kernel

/-- A task that no Leaf has, or that waits for quota; a position of order domain 7 with its nodes, at a time in ms. -/
def heldState (quota : Bool) : State :=
  { withGath [(5, .inService), (29, .inService)] with kettle := { State.reset.kettle with tasks := [(3, { taskOf 0 with quotaWait := quota })] } }
def behindState : State :=
  let s := heldState true
  { s with kettle := { s.kettle with tasks := [(3, { taskOf 0 with quotaWait := true }), (4, taskOf 0)] } }
def domainState (p : Position) (ms : Nat) (halted : Option Nat) : State :=
  { leafAt 1 0 (fun th => { th with task := some 4, haltedSince := halted }) with
    time := { State.reset.time with cycles := ms * 1000000 + 1 }
    kettle := { State.reset.kettle with positions := [(0, p)], tasks := [(3, taskOf 0), (4, { taskOf 0 with taken := some 1 })] } }
def releaseState : State :=
  let p := { posOf [] [(0, outOf 3 9)] with releasing := true, ownRef := false }
  { withGath [(416, .inService)] with kettle := { State.reset.kettle with releaseQ := [0], tokens := [(5, 1)], positions := [(0, p)] } }

theorem hyp_KettleReleasesInOrder : (heldState false).task 3 = some (taskOf 0) ∧ (heldState false).olderHeld 3 = false ∧ (heldState false).chooseLeaf 7 = some 0 ∧
    (heldState false).kettle.tasks.find? (fun e => e.2.leaf.isNone && e.2.taken.isNone && !e.2.quotaWait) = some (3, taskOf 0) ∧
    (heldState true).kettle.tasks.find? (fun e => e.2.quotaWait && e.2.tenant == 5) = some (3, { taskOf 0 with quotaWait := true }) ∧
    (heldState true).taskCountOf 5 < (heldState true).quotaOf ((heldState true).kettleClass 5) ∧
    (behindState.kettle.tasks.find? (fun e => e.2.leaf.isNone && e.2.taken.isNone && !e.2.quotaWait) = some (4, taskOf 0) ∧
      ∃ e ∈ behindState.kettle.tasks, e.1 < 4 ∧ e.2.quotaWait = true ∧ e.2.tenant = (taskOf 0).tenant) ∧
    (domainState (posOf [] []) 0 none).headOf 7 = some (0, posOf [] []) ∧ releaseState.kettle.releaseQ = [0] ∧ releaseState.mower.errs = [] ∧
    releaseState.inService droverWin = true ∧
    (domainState (posOf [0] []) 100 none).headOf 7 = some (0, posOf [0] []) ∧ (domainState (posOf [0] []) 100 none).heldByDebug 0 = none ∧
    0 + 1000000 * (domainState (posOf [0] []) 100 none).rf kettleWin 0x100 31 16 < (domainState (posOf [0] []) 100 none).time.cycles ∧
    (domainState (posOf [0] []) 10 (some 0)).heldByDebug 0 = some 0 ∧
    max 0 0 + 1000 * (domainState (posOf [0] []) 10 (some 0)).rf kettleWin 0x100 15 0 < (domainState (posOf [0] []) 10 (some 0)).time.cycles := by decide +kernel

theorem test_kettle_release : leaves (.headTimeout 7) (domainState (posOf [0] []) 99 none) (fun u => decide (u.position 0 = some (posOf [0] []))) = true ∧
    leaves (.headTimeout 7) (domainState (posOf [0] []) 100 none) (fun u => decide ((u.position 0).map (·.dropped) = some (some 48)) && decide (u.task 3 = none)) = true ∧
    leaves (.releaseDeliver 0) releaseState (fun u => decide (u.drover.handed.map (fun e => e.2.queue) = [9])) = true := by decide +kernel

/-- A worker with task 4 posts the words given. -/
def postState (target : Nat) (bank : List (Nat × Word64)) : State :=
  let s := domainState (posOf [0] []) 0 none
  let th := s.thread 1
  { s with
    threads := [(1, { th with wait := .post target, bank0 := bank })]
    gath := s.gath ++ [(396, gat .inService), (397, gat .inService), (398, gat .inService), (399, gat .inService), (400, gat .inService)]
    regs := [(396 * 65536 + 0x1000, 0xC40C4000)]
    packets := [(0, pk .kettle (some walked) 0)]
    kettle := { s.kettle with nextTask := 5 } }

theorem hyp_ThreadsPostToKettleAndWarren : (postState 0 []).posting 1 0 = some ((postState 0 []).thread 1) ∧
    (postState 0 []).heldTask 1 = some (4, { taskOf 0 with taken := some 1 }) ∧ (postState 0 []).position 0 = some (posOf [0] []) ∧
    (postState 0 []).packet 0 = some (pk .kettle (some walked) 0) ∧ ((postState 0 []).thread 1).restZero = true ∧ editedLength [] 64 = some 64 ∧
    (postState 0 []).errsIn (tidLeafWin 1) (0 : Nat) (localBase 1 + 0x400) 0 = [] ∧ ((postState 0 [(0, 1)]).thread 1).bankWord 0 = 1 ∧
    (let w := ((postState 0 [(0, 0xF8001002)]).thread 1).bankWord 0
     w % 16 = 2 ∧ w / 2 ^ 32 = 0 ∧ bitsOf w 26 22 < 30) ∧ (postState 0 []).task (postState 0 []).kettle.nextTask = none ∧
    ((postState 0 [(0, 3)]).thread 1).bankWord 0 = 3 ∧
    (postState 1 []).posting 1 1 = some ((postState 1 []).thread 1) ∧ (postState 1 []).engineFor 9 = some 0 ∧
    ((postState 1 []).thread 1).warrenBad = false ∧ (postState 1 []).wtCfg 0 14 13 = 2 ∧ (postState 1 []).wtKeyLen 0 = 6 ∧ (postState 1 [(0, 16)]).wtCfg 1 14 13 = 0 :=
  by decide +kernel

theorem test_posts : leaves (.kettleEmit 1) (postState 0 []) (fun u => decide (u.task 4 = none) && decide ((u.position 0).map (fun p => p.outs.length) = some 1)) = true ∧
    leaves (.kettleFork 1) (postState 0 [(0, 0xF8001002)]) (fun u => decide ((u.task 5).map (·.child) = some true)) = true ∧
    leaves (.warrenThreadPost 1) (postState 1 []) (fun u => decide ((u.wQueue 9).length = 1)) = true := by decide +kernel

/-- A FORK answered and a Warren command ended, each for thread 1. -/
def answered : State :=
  leafAt 1 0 (fun th => { th with ops := [{ fenceOp with kind := .fork, dst := 5, ev := some 31, data := [1, 0] }, { fenceOp with kind := .warren, dst := 8, ev := some 0 }] })
def answeredState : State :=
  { answered with warren := { State.reset.warren with threads := [(1, [{ jobOf 9 0 with dst := 8, ended := some doneEnd }])] } }

theorem hyp_Answers : (answered.thread 1).ops.find? (fun o => o.kind == .fork) = some { fenceOp with kind := .fork, dst := 5, ev := some 31, data := [1, 0] } ∧
    answeredState.wQueue 9 = [{ jobOf 9 0 with dst := 8, ended := some doneEnd }] ∧ doneEnd.code ≠ 8 ∧
    (answeredState.thread 1).ops.find? (fun o => o.kind == .warren) = some { fenceOp with kind := .warren, dst := 8, ev := some 0 } := by decide +kernel

theorem test_answers : leaves (.forkStatus 1) answered (fun u => decide ((u.thread 1).g 5 = 1)) = true ∧
    leaves (.warrenThreadComplete 1) answeredState (fun u => decide ((u.thread 1).g 9 = 0x99)) = true := by decide +kernel

/-! ### Loft -/

/-- A frame of port 0 that arrives; a pool 0 in buffer memory as given, with pool 0's cap for class 0 at one cell less than given by its reset. -/
def frameOf (whole told : Bool) : RxFrame := ⟨List.replicate 64 1, List.replicate 64 1, 9, whole, none, none, none, told, none, false, none⟩
def loftState (f : RxFrame) (pushed : List Nat) (ready : Bool) (lane : Bool) : State :=
  { pathState (pk .gone none 0) with
    gath := (if lane then [(401, gat .inService), (402, gat .inService), (406, gat .inService), (407, gat .inService)] else []) ++ [(421, gat .inService)]
    regs := [(421 * 65536 + 0x100, 0x40000000), (421 * 65536 + 0x108, 4)]
    nextPid := 8
    packets := []
    loft := { State.reset.loft with poolStacks := [(0, ⟨pushed, 0, ready⟩)] }
    ports := [(0, ⟨[f], [], [], [], [], [], [], [], []⟩)] }

theorem hyp_LoftAdmitsAndFreesCells :
    (let s := loftState (frameOf false false) [3, 2] true true
     s.openFrame 0 = some (frameOf false false) ∧ s.laneStalled 0 = false ∧ s.inService loftWin = true ∧ s.logicalReady 0 = true ∧
       s.poolHeadroom 0 < s.logicalFree 0 ∧ s.loftUsed 0 0 < s.loftCap 0 0 ∧ (0 : Int) < (s.logicalFree 0 : Int) - s.poolHeadroom 0 - s.loftOwed 0 ∧
       s.loftAlpha 0 0 = 7 ∧ s.loftReserve 0 0 = 0 ∧ s.cellServed (cellPtr (s.poolMem 0) 3) = true ∧ s.ppPool 0 0 = 0 ∧ s.ingressPrio 0 (List.replicate 64 1) = 0) ∧
    (let s := loftState (frameOf true false) [3, 2] true false
     s.laneStalled 0 = true ∧ s.lossless 0 0 = false) ∧
    (loftState (frameOf true false) [3, 2] false true).logicalReady 0 = false ∧
    (loftState (frameOf true false) [] true true).logicalFree 0 ≤ (loftState (frameOf true false) [] true true).poolHeadroom 0 ∧
    (loftState (frameOf true false) [] false true).poolMem 0 ≠ 0 := by decide +kernel

theorem test_loft : leaves (.firstCellAdmission 0) (loftState (frameOf false false) [3, 2] true true) (fun u => decide ((u.packet 8).map (·.handle) = some (some 3))) = true ∧
    leaves (.rxWaitRelease 0) (loftState (frameOf false true) [3, 2] true true) (fun u => decide ((u.packet 8).map (·.handle) = some (some 3))) = true ∧
    leaves (.firstCellAdmission 0) (loftState (frameOf true false) [] true true) (fun u => decide (u.reports.length = 1) && decide (u.packets = [])) = true := by
  decide +kernel

/-- Packet 3 holds cell 0 and needs a second; a cell as given. -/
def chainState (pushed : List Nat) (c : CellMeta) : State :=
  { loftState (frameOf false false) pushed true true with
    packets := [(3, { pk .rx none 0 with complete := false, handle := some 0, bytes := List.replicate 257 1 })]
    loft := { State.reset.loft with poolStacks := [(0, ⟨pushed, 0, true⟩)], cells := [(0, c)] } }
def cellOf (refs : Nat) : CellMeta := ⟨0, refs, 0, 0, true, true, true, 0⟩

theorem hyp_CellsAndReferences : (chainState [3] (cellOf 1)).chainOf 0 = ([0], none) ∧ (chainState [3] (cellOf 1)).cellServed 3 = true ∧
    (chainState [] (cellOf 1)).poolFree 0 = 0 ∧ (chainState [] (cellOf 1)).poolSpills 0 = false ∧ (chainState [] (cellOf 1)).isHead 0 = true ∧
    (chainState [] (cellOf 2)).cell 0 = cellOf 2 ∧ (chainState [] (cellOf 1)).cellBad 0 = false ∧ (chainState [] (cellOf 1)).poolOfCell 0 = some 0 ∧
    ((chainState [] (cellOf 1)).cell 1).alloc = false := by decide +kernel

theorem test_references : leaves (.refDecrement 0) (chainState [] (cellOf 2)) (fun u => decide ((u.cell 0).refs = 1)) = true ∧
    leaves (.refDecrement 0) (chainState [] (cellOf 1)) (fun u => !(u.cell 0).alloc && decide ((u.poolStack 0).pushed = [0])) = true ∧
    leaves (.refIncrement 1) (chainState [] (cellOf 1)) (fun u => decide (u.reg loftWin 0x608 = 1)) = true ∧
    leaves (.cellAllocation 3) (chainState [3] (cellOf 1)) (fun u => decide ((u.cell 0).next = 3)) = true := by decide +kernel

/-! ### Drover -/

/-- Queue 0 and its path are enabled, its tenant node is tenant 5's, its limit is 256 bytes; an output of 64 bytes is handed over. -/
def nodesOn (limit : Nat) : List (Nat × BitVec 256) :=
  [(0, BitVec.ofNat 256 (0x18 * 2 ^ 192 + 2 ^ 24)), (131072, BitVec.ofNat 256 (2 ^ 24)), (262144, BitVec.ofNat 256 (2 ^ 24 + 5 * 2 ^ 192)),
    (393216, BitVec.ofNat 256 (2 ^ 24)), (524288, BitVec.ofNat 256 (2 ^ 24 + limit * 2 ^ 192))]
def handedState (d : OutDesc) (nodes : List (Nat × BitVec 256)) (pols : List (Nat × BitVec 256)) : State :=
  { pathState (pk .gone none 0) with
    gath := [(416, gat .inService), (417, gat .inService)]
    drover := { State.reset.drover with handed := [(true, d)], nodes := nodes, policers := pols } }

/-- An output that is policed; the policer's rates are 0, its bursts as given. -/
def policed : OutDesc := { outOf 3 0 with md := BitVec.ofNat 512 (2 ^ 68) }
def policer (cbs pbs : Nat) : List (Nat × BitVec 256) := [(0, BitVec.ofNat 256 (2 ^ 88 + cbs * 2 ^ 64 + pbs * 2 ^ 96))]

theorem hyp_DroverQueuesAndSelects :
    (let s := handedState (outOf 3 0) (nodesOn 1) []
     s.drover.handed = [(true, outOf 3 0)] ∧ s.inService droverWin = true ∧ mdBits (outOf 3 0).md 68 68 = 0 ∧ (∀ n ∈ s.nodePath 0, s.nodeBits n 24 24 = 1) ∧
       s.nodeBits (s.queueTenantNode 0) 205 192 = 5 ∧ s.queueDepth 0 + s.outLen (outOf 3 0) ≤ 256 * s.nodeBits (nodeKey 4 0) 211 192 ∧
       64 * s.nodeBits (s.queueTenantNode 0) 222 208 = 0) ∧
    (¬ ∀ n ∈ (handedState (outOf 3 0) [] []).nodePath 0, (handedState (outOf 3 0) [] []).nodeBits n 24 24 = 1) ∧
    ¬ ((handedState (outOf 3 0) (nodesOn 0) []).queueDepth 0 + (handedState (outOf 3 0) (nodesOn 0) []).outLen (outOf 3 0) ≤ 0) ∧
    (mdBits policed.md 68 68 = 1 ∧ entBits ((handedState policed [] (policer 68 68)).polEntry 0) 88 88 = 1 ∧
      entBits ((handedState policed [] (policer 68 68)).polEntry 0) 89 89 = 0 ∧ (handedState policed [] (policer 68 68)).packet 3 = some (pk .gone none 0)) := by
  decide +kernel

theorem test_drover : leaves .droverTakeOutput (handedState (outOf 3 0) (nodesOn 1) []) (fun u => decide (u.queued 0 = [0])) = true ∧
    leaves .droverTakeOutput (handedState (outOf 3 0) (nodesOn 0) []) (fun u => decide (u.queued 0 = []) && decide (u.reports.length = 1)) = true ∧
    leaves .droverTakeOutput (handedState policed [] (policer 68 67)) (fun u => decide (u.drover.colour = 2)) = true := by decide +kernel

/-- Queue 0 holds output 2 and its path is in the rings; the root's shaper has a refill to take. -/
def outputOf (place : OutPlace) (script frame : List Byte) : Output :=
  ⟨{ outOf 3 0 with script := script }, 0, 88, 262144, place, frame, 0, some 0, none, none⟩
def dynIn : NodeDyn := ⟨true, 100, 0, 0, 0, 0, 0, 0, 0, 0, 0⟩
def ringState : State :=
  { handedState (outOf 3 0) (nodesOn 1) [] with
    drover := { State.reset.drover with
      nodes := nodesOn 1, dyn := [(0, dynIn), (131072, dynIn), (262144, dynIn), (393216, dynIn), (524288, dynIn)]
      queues := [(0, [2])], outs := [(2, outputOf .queued [] [])] } }
def shaped : BitVec 256 := BitVec.ofNat 256 (2 ^ 95 + 8 * 2 ^ 64 + 2 ^ 128)
def shaperState : State :=
  { State.reset with
    time := { State.reset.time with ns := 128 }
    drover := { State.reset.drover with nodes := [(0, shaped)], dyn := [(0, { dynIn with applied := shaped })] } }

theorem hyp_DroverSelects : ringState.laneSelects 0 = true ∧ (∀ e ∈ [(nodeKey 5 0, 0), (0, 131072), (131072, 262144), (262144, 393216), (393216, 524288)],
      ringHead (ringState.ring e.1) = some (e.2, dynIn)) ∧ 0 < dynIn.deficit ∧ ringState.queued 0 = [2] ∧ ringState.output 2 = some (outputOf .queued [] []) ∧
    0 < shaperState.time.ns.toNat / refillNs (shaperState.nodeEntry 0) - (shaperState.node 0).last / refillNs (shaperState.nodeEntry 0) ∧
    entBits (shaperState.nodeEntry 0) 95 95 = 1 ∧ entBits (shaperState.node 0).applied 95 95 = 1 := by decide +kernel

theorem test_drover_selects : leaves (.droverSelect 0) ringState (fun u => decide (u.selectedOf 0 = [2]) && decide (u.queued 0 = [])) = true ∧
    leaves (.shaperRefill 0 0) shaperState (fun u => decide ((u.node 0).cTok = 8388)) = true := by decide +kernel

/-- Port 0 asks its peer to pause; and is asked to, on priority 7. -/
def xoffState (mode : Nat) : State :=
  { withGath [(249, .inService)] with
    regs := [(249 * 65536 + 0x100, 0x600005EE), (249 * 65536 + 0x104, 7), (416 * 65536 + 0x400, BitVec.ofNat 32 (mode * 0x40000000 + 0xFFFF)),
      (421 * 65536 + 0x700, 0x8000)]
    time := { State.reset.time with cycles := 100000000 } }
def pausedState : State :=
  { xoffState 1 with
    regs := [(416 * 65536 + 0x400, 0x40010000), (416 * 65536 + 0x480, 0x8000)]
    ports := [(0, ⟨[], [], [], [], [], [], [(7, 5)], [(7, 0)], []⟩)] }
/-- DROVER_IND_ADDR as given, with data that no node takes (all zeros) or a node's. -/
def indState (a : Word32) (quantum : Word32) : State := (State.reset.setReg droverWin 0x100 a).setReg droverWin 0x114 quantum

theorem hyp_DroverPausesAndEntries : (∀ m ∈ [1, 2], (xoffState m).xoffBits 0 = 0x80 ∧ (xoffState m).inService (portWin 0) = true ∧
      (xoffState m).linkUp 0 = true ∧ (xoffState m).rf droverWin 0x400 31 30 = m ∧
      halfQuantaNs 0xFFFF ((xoffState m).portSpeed 0) ≤ (xoffState m).time.cycles) ∧
    SMap.find (pausedState.port 0).pauseEnd 7 = some 5 ∧ SMap.find (pausedState.port 0).pauseSince 7 = some 0 ∧ pausedState.paused 0 7 = true ∧
    pausedState.rf droverWin 0x400 29 16 = 1 ∧
    (indState 0x20000000 1).nodeRejects 4 (nodeKey 4 0) ((indState 0x20000000 1).indData droverWin 0x110) = false ∧
    (indState 0x20000000 0).nodeRejects 4 (nodeKey 4 0) ((indState 0x20000000 0).indData droverWin 0x110) = true ∧
    fld ((indState 0x00000024 1).reg droverWin 0x100) 29 27 = 0 ∧ nodeCount 0 = 36 := by decide +kernel

theorem test_drover_entries : leaves .droverIndWrite (indState 0x20000000 0) (fun u => decide (u.rf droverWin 0x20 0 0 = 1)) = true ∧
    leaves .droverIndRead (indState 0x00000024 1) (fun u => decide (u.rf droverWin 0x104 29 29 = 1)) = true ∧
    leaves (.pfcResend 0) (xoffState 1) (fun u => decide ((u.port 0).ctl.length = 1)) = true ∧
    leaves (.pauseStorm 0 7) pausedState (fun u => !u.paused 0 7) = true := by decide +kernel

/-! ### Ports and Finisher -/

/-- Port 0 is up, at 1,518 bytes, in a state; with what it holds. -/
def portIn (g : GState) (up : Bool) (p : PortSt) : State :=
  { withGath [(249, g)] with
    regs := [(249 * 65536 + 0x100, 0x600005EE), (249 * 65536 + 0x104, if up then 7 else 0), (249 * 65536 + 0x108, 0x40000000), (249 * 65536 + 0x10C, 0x40000000),
      (416 * 65536 + 0x400, 0x40000000)]
    packets := [(3, pk .rx none 0)]
    drover := { State.reset.drover with outs := [(2, outputOf .edited [] (List.replicate 59 1))] }
    ports := [(0, p)] }
def portOf (rx : List RxFrame) (ctl : List (List Byte)) (txq : List Nat) : PortSt := ⟨rx, ctl, [], txq, [], [], [], [], []⟩
def pauseIn : List Byte := List.replicate 12 1 ++ [0x88, 0x08, 0, 1, 0, 0] ++ List.replicate 42 0

theorem hyp_PortsReceiveAndSend :
    (let s := portIn .inService true (portOf [] [] [])
     s.macReceives 0 = true ∧ s.fallowOwns 0 = false ∧ s.portState 0 = .inService ∧ s.prf 0 0x100 13 0 = 1518 ∧ s.prf 0 0x120 31 31 = 0 ∧ s.rxHeld 0 = 0) ∧
    (etherType pauseIn = 0x8808 ∧ pauseIn.length = 60 ∧ beNat (bytesAt pauseIn 14 2) = 1 ∧ (portIn .inService true (portOf [] [] [])).rf droverWin 0x400 31 30 = 1) ∧
    (portIn .inService true (portOf [frameOf false false] [] [])).arriving 0 = some (frameOf false false) ∧
    (portIn .inService true (portOf [{ frameOf false false with pid := some 3 }] [] [])).packet 3 = some (pk .rx none 0) ∧
    (portIn .inService true (portOf [] [] [2])).output 2 = some (outputOf .edited [] (List.replicate 59 1)) ∧
    (portIn .inService true (portOf [] [] [2])).fallowQueue 0 = [] ∧ (portIn .inService true (portOf [] [] [])).linkUp 0 = true ∧
    (portIn .inService false (portOf [] [] [])).linkUp 0 = false ∧ (portIn .quiet true (portOf [] [] [])).portState 0 = .quiet ∧
    (portIn .quiet true (portOf [] [] [])).rf (portWin 0) 0x10C 30 30 = 1 ∧ (portIn .quiet true (portOf [] [] [])).rf (portWin 0) 0x108 30 30 = 1 := by decide +kernel

theorem test_ports : leaves (.rxWindowDelivery 0 (List.replicate 59 1) true true 0) (portIn .inService true (portOf [] [] [])) (fun u =>
      decide (u.reg 249 0x208 = 1) && decide ((u.port 0).rx = [])) = true ∧
    leaves (.rxWindowDelivery 0 (List.replicate 60 1) true true 0) (portIn .inService true (portOf [] [] [])) (fun u => decide ((u.port 0).rx.length = 1)) = true ∧
    leaves (.macTransmit 0) (portIn .inService true (portOf [] [pauseIn] [2])) (fun u => decide ((u.port 0).wireOut = [onWire pauseIn]) && decide ((u.port 0).txq = [2])) = true ∧
    leaves (.macTransmit 0) (portIn .inService true (portOf [] [] [2])) (fun u => decide ((u.port 0).wireOut.map List.length = [64])) = true := by decide +kernel

/-- Finisher with output 2 at a place; its lane 0 and its internal ports as given. -/
def finishing (x : Output) : State :=
  { pathState (pk .kettle (some walked) 0) with
    gath := [(249, gat .inService), (422, gat .inService), (428, gat .inService)]
    regs := [(249 * 65536 + 0x100, 0x600005EE), (249 * 65536 + 0x104, 7)]
    drover := { State.reset.drover with outs := [(2, x)], selected := [(0, [2])] }
    spine := { State.reset.spine with up := true }
    ports := [(33, portOf [] [] [2]), (34, portOf [] [] [2])] }
/-- DELETE of 2 bytes at offset 12, then END. -/
def script2 : List Byte := leBytes 4 (1 + 12 * 16 + 2 * 65536) ++ [0, 0, 0, 0]

theorem hyp_FinisherEditsOutputs : (finishing (outputOf .selected [] [])).finisherRuns = true ∧ (finishing (outputOf .selected [] [])).selectedOf 0 = [2] ∧
    (finishing (outputOf .selected [] [])).portDead 0 = false ∧
    (finishing (outputOf .finisher [] [])).cellsAvail 3 = .ok ∧ (finishing (outputOf .finisher [] [])).served 0 = true ∧
    (finishing (outputOf .finisher [] [])).packetCells 3 = ([], false) ∧ (finishing (outputOf .finisher [] [])).readCells [] = (false, finishing (outputOf .finisher [] [])) ∧
    (outputOf .editing script2 (List.replicate 64 1)).op = 1 ∧ (outputOf .editing script2 (List.replicate 64 1)).off = 12 ∧
    4 + (dataLen 1 2 + 3) / 4 * 4 < script2.length ∧ (finishing (outputOf .edited [] [])).readyOutput 33 = some (2, outputOf .edited [] []) ∧
    (finishing (outputOf .edited [] [])).rxHeld 33 = 0 ∧ (finishing (outputOf .edited [] [])).spineServes = true := by decide +kernel

theorem test_finisher : leaves (.editDelete 2) (finishing (outputOf .editing script2 (List.replicate 64 1))) (fun u => decide ((u.output 2).map (·.frame.length) = some 62)) = true ∧
    leaves (.editEnd 2) (finishing { outputOf .editing script2 [] with opPos := 4 }) (fun u => decide ((u.output 2).map (·.place) = some .edited)) = true ∧
    leaves (.internalPortOutput 1) (finishing (outputOf .edited [] [1, 2])) (fun u => decide ((u.port 33).rx.map (·.bytes) = [[1, 2]])) = true := by decide +kernel

/-! ### Sheaf and Rick -/

/-- Sheaf with the reports given, the current record's minute 0, and the previous record as given; table memory's channels are in service. -/
def sheafState (rs : List Report) (prev : Option PrevRecord) (ns : Word64) : State :=
  { withGath ((423, .inService) :: (windows 316 13).map (·, .inService)) with
    reports := rs
    time := { State.reset.time with ns := ns }
    sheaf := { State.reset.sheaf with prev := prev } }
def reportOf (ns : Word64) : Report := ⟨5, ns, [(0, 1), (1, 64)], none⟩
def minuteNs : Nat := 60000000000
def prevOf (frozen : Bool) : PrevRecord := ⟨7, 1, 100, 50, frozen, 150, 0, none⟩

theorem hyp_SheafMetersAndCloses :
    (let s := sheafState [reportOf 37000000000] none 0
     s.reports = [reportOf 37000000000] ∧ s.sheaf.span = 1 ∧ s.sheaf.c = 0 ∧ s.minuteOf 37000000000 = 0) ∧
    ((sheafState [reportOf 97000000000] none 0).minuteOf 97000000000 = 1 ∧ (sheafState [reportOf 97000000000] none 0).sheaf.prev = none) ∧
    ((sheafState [reportOf 157000000000] none 0).minuteOf 157000000000 = 2) ∧
    ((0 + 1) * 60000000000 + 1000000000 * (sheafState [] none 97000000000).sheaf.utc ≤ (sheafState [] none 97000000000).time.ns.toNat) ∧
    ((prevOf false).endTime + (prevOf false).settle ≤ (sheafState [] (some (prevOf false)) 150).time.ns.toNat) ∧
    ((sheafState [] (some (prevOf true)) 150).closeRuns = true ∧ (sheafState [] (some (prevOf true)) 150).closeWritten (prevOf true) = true ∧
      (sheafState [] (some (prevOf true)) 150).ringOn = false) ∧
    (({ sheafState [] (some (prevOf true)) 150 with gath := [] } : State).closeRuns = false) := by
  and_intros <;> decide +kernel

/-- A close into the ring: of a region that holds it, some lines of it written or all; and of no region. -/
def closeRing (written : Nat) (region : Word32) : State :=
  { sheafState [] (some { prevOf true with written := written }) 150 with
    regs := [(tmcWin * 65536 + 0x100, region), (tmcWin * 65536 + 0x104, 0x00100000), (sheafWin * 65536 + 0x104, 0x80000000)] }

theorem hyp_Closes : (∀ n ∈ [closeLines, 5], (closeRing n 0x80080001).closeRuns = true ∧ (closeRing n 0x80080001).ringOn = true ∧
      (closeRing n 0x80080001).closeLost 7 = false) ∧ (closeRing 5 0).closeRuns = true ∧ (closeRing 5 0).closeLost 7 = true ∧ 5 < closeLines ∧
    (let s := closeRing 5 0x80080001
     let a := (s.closeLine { prevOf true with written := 5 } 5).1
     (s.unitGate (.activity sheafWin 7) true true a 64).1 = .ok ∧ (s.unitGate (.activity sheafWin 7) true true a 64).2.tokensHeld 7 1 = 0 ∧ 1 ≤ (s.unitGate (.activity sheafWin 7) true true a 64).2.tokensLeft 7 1 ∧
       (s.allPieces true a 64).length = 1) := by
  decide +kernel

theorem test_sheaf : leaves .sheafReport (sheafState [reportOf 37000000000] none 0) (fun u => decide (u.sheafCounter false 5 1 = 64)) = true ∧
    leaves .sheafReport (sheafState [reportOf 97000000000] none 0) (fun u => decide (u.sheafCounter true 5 1 = 64)) = true ∧
    leaves .sheafReport (sheafState [reportOf 157000000000] none 0) (fun u => decide (u.sheafCounter false 5 23 = 1)) = true ∧
    leaves .minuteBoundary (sheafState [] none 97000000000) (fun u => decide (u.sheaf.c = 1) && u.sheaf.curBank) = true ∧
    leaves .minuteBoundary (sheafState [] none 96999999999) (fun u => decide (u.sheaf.c = 0)) = true := by decide +kernel

/-- An update of flow 3 in minute 9 for tenant 5, with its slot cached: of another minute, of the same one, and of another tenant's. -/
def updateOf : RickUpdate := ⟨3, 9, false, 5, 0, 1, 64, 0⟩
def rickState (v : BitVec 256) : State :=
  let s := sheafState [] none 0
  { s with regs := [(tmcWin * 65536 + 0x100, 0x80040001), (tmcWin * 65536 + 0x104, 0x00100000)], sheaf := { s.sheaf with queue := [updateOf], cache := [(s.rickSlot 3 9, v)] } }
def slotOf (minute tenant : Nat) : BitVec 256 := sealSlot (BitVec.ofNat 256 (minute + tenant * 2 ^ 32 + 7 * 2 ^ 64))

theorem hyp_Rick : (rickState 0).sheaf.queue = [updateOf] ∧
    SMap.find (rickState (slotOf 9 5)).sheaf.cache ((rickState (slotOf 9 5)).rickSlot 3 9) = some (slotOf 9 5) ∧
    rickBits (slotOf 8 5) 31 0 = 8 ∧ rickBits (slotOf 9 5) 31 0 = 9 ∧ slotOk (slotOf 9 5) = true ∧ slotOk (slotOf 9 5 + 1) = false ∧
    rickBits (slotOf 9 5) 45 32 = 5 ∧ rickBits (slotOf 9 6) 45 32 = 6 ∧
    ((rickState 0).memWaiting (unitNo (.activity sheafWin 6)) = [] ∧ (rickState 0).memAvail true 0 32 = .ok ∧ (rickState 0).mem.chans = [] ∧
      32 ≤ (rickState 0).writeFits true 0 32) ∧
    ((rickState 0).tokensHeld 6 1 = 0 ∧ 1 ≤ (rickState 0).tokensLeft 6 1) ∧ ((rickState 0).allPieces true 0 32).length = 1 ∧ (rickState 0).mower.errs = [] := by
  and_intros <;> decide +kernel

theorem test_rick : leaves .rickUpdate (rickState (slotOf 9 5)) (fun u =>
    decide (rickBits ((SMap.find u.sheaf.cache ((rickState 0).rickSlot 3 9)).getD 0) 103 64 = 8)) = true ∧
    leaves .rickUpdate (rickState (slotOf 9 6)) (fun u => decide (u.sheaf.queue = []) && u.rf sheafWin 0x140 3 3 == 1) = true := by decide +kernel

/-! ### Memory controllers -/

/-- Buffer and table memory are in service; source thread 1, buffer space, has the request given; scheduler 0 as given. -/
def memState (rs : List MemReq) (x : SchedSt) : State :=
  { withGath ((windows 281 48).map (·, .inService)) with
    mem := { State.reset.mem with buffer := [(0x45, 9)], waiting := [(5, rs)], scheds := [(0, x)] } }
def reqOf (w : Option (List Byte)) (a : Option (Nat × Word64 × Word64 × Bool)) : MemReq := ⟨4, false, 0x40, 8, w, a, none, false, false, 0, ⟨[], false, []⟩⟩
def calm : SchedSt := ⟨[], [], 0, false, []⟩
def chReq : ChReq := ⟨4, false, false, 2, 7, 1, 0, false, 0, 0x40, 0x80, false⟩
def bankOf (row : Nat) : BankSt := ⟨row, 0, false, 0, false⟩

/-- The same with its channel asleep; a scheduler of table memory with a neighbour-row refresh pending for an open bank. -/
def sleepState : State :=
  let s := memState [reqOf none none] calm
  { s with mem := { s.mem with chans := (windows 281 48).map (fun w => (w, ⟨some 5, 0, 0, 0⟩)) } }
def nrrState : State :=
  let s := memState [] calm
  { s with mem := { s.mem with scheds := [(64, ⟨[], [(2, bankOf 7)], 0, false, [⟨2, 7, 0, 1⟩]⟩)] }, regs := [(schedWin 64 * 65536 + 0x100, 0x100)] }

theorem clean_of_no_errors {s : State} (h : s.mower.errs = []) (table : Bool) (a n : Nat) : CleanAccess s table a n := by
  intro p _
  unfold State.errsIn
  rw [h]
  rfl

theorem hyp_MemoryControllersServe :
    (∀ r ∈ [reqOf none none, reqOf (some (List.replicate 8 1)) none, reqOf none (some (0, 1, 0, true))], (memState [r] calm).memWaiting (srcNo (.thread 1 1)) = [r] ∧
      (memState [r] calm).memAvail r.table r.addr r.len = .ok ∧ (memState [r] calm).frontLen (srcNo (.thread 1 1)) r = r.len ∧ (memState [r] calm).sleeping r r.len = [] ∧
      r.len ≤ (memState [r] calm).writeFits r.table r.addr r.len) ∧
    CleanAccess (memState [] calm) false 0x40 8 ∧
    ({ memState [reqOf none none] calm with gath := [] } : State).memAvail false 0x40 8 = .bad ∧
    ({ memState [reqOf none none] calm with gath := (windows 281 48).map (fun w => (w, gat .quiescing)) } : State).memAvail false 0x40 8 = .hold ∧
    (sleepState.memAvail false 0x40 8 = .ok ∧ sleepState.sleeping (reqOf none none) 8 ≠ [] ∧ (reqOf none none).waited = false) ∧
    (nrrState.serving (schedWin 64) = true ∧ (nrrState.sched 64).nrr = [⟨2, 7, 0, 1⟩] ∧ nrrState.rf (schedWin 64) 0x100 8 8 = 1 ∧
      nrrState.time.cycles < 0 + 2000 ∧ SMap.find (nrrState.sched 64).banks 2 = some (bankOf 7)) ∧
    (memState [] calm).inService (schedWin (schedNo (.buffer 0))) = true ∧ ((memState [] calm).chan (schedWin 0)).selfRefresh = none ∧
    ((memState [] ⟨[chReq], [(2, bankOf 7)], 0, false, []⟩).sched 0).queue = [chReq] ∧ SMap.find [(2, bankOf 7)] 2 = some (bankOf 7) ∧ (bankOf 8).row ≠ chReq.row := by
  exact ⟨by decide +kernel, clean_of_no_errors rfl _ _ _, by decide +kernel⟩

/-- Host DMA of 128 bytes, half in the first channel and half in the second. -/
def dmaReq (w : Option (List Byte)) : MemReq := ⟨4, false, 0x1C0, 128, w, none, none, false, false, 0, ⟨[], false, []⟩⟩
def dmaState (one two : GState) (r : MemReq) : State :=
  { withGath [(284, one), (285, two)] with mem := { State.reset.mem with waiting := [(8192 + 255, [r])] } }

theorem hyp_MemoryControllersServe_dma : (8192 ≤ srcNo (.queuePair 255)) ∧
    (∀ r ∈ [dmaReq none, dmaReq (some (List.replicate 128 1))],
      (let s := dmaState .off .failed r; s.memAvail false 0x1C0 128 = .bad ∧ s.frontLen (srcNo (.queuePair 255)) r = r.len) ∧
      (let s := dmaState .off .inService r; s.memAvail false 0x1C0 64 = .bad ∧ s.frontLen (srcNo (.queuePair 255)) r = 64 ∧ 64 < r.len)) ∧
    (let s := dmaState .inService .off (dmaReq none)
     s.memAvail false 0x1C0 64 = .ok ∧ s.frontLen (srcNo (.queuePair 255)) (dmaReq none) = 64 ∧ s.sleeping (dmaReq none) 64 = [] ∧ (dmaReq none).cls = none) ∧
    (dmaState .quiescing .inService (dmaReq none)).memAvail false 0x1C0 128 = .hold ∧ (dmaReq none).held = false := by decide +kernel

theorem test_dma_stretches : leaves (.memoryRequest (.queuePair 255)) (dmaState .off .inService (dmaReq none)) (fun u =>
    decide ((u.memWaiting (8192 + 255)).map (fun r => (r.addr, r.len, r.done, r.got.bad)) = [(0x200, 64, 64, true)])) = true := by decide +kernel

theorem nrr_not_forced : nrrState.refreshForced 64 = false := by
  have h : (nrrState.sched 64).debt = 0 := rfl
  unfold State.refreshForced
  rw [h]
  simp only [decide_eq_false_iff_not]
  omega

theorem test_memory : leaves (.memoryRequest (.thread 1 1)) (memState [reqOf (some (List.replicate 8 1)) none] calm) (fun u =>
      decide (Memory.read u.mem.buffer 0x45 = 1) && decide (u.mem.buffer.length = 8)) = true ∧
    leaves (.memoryRequest (.thread 1 1)) (memState [reqOf none none] calm) (fun u => decide (SMap.find u.mem.done 4 = some ⟨[0, 0, 0, 0, 0, 9, 0, 0], false, []⟩)) = true := by
  decide +kernel

/-- No refresh is forced where none is owed; one is where more are owed than any limit lets be postponed. -/
theorem refresh_not_forced (rs : List MemReq) (q : List ChReq) (b : List (Nat × BankSt)) : (memState rs ⟨q, b, 0, false, []⟩).refreshForced 0 = false := by
  have h : ((memState rs ⟨q, b, 0, false, []⟩).sched 0).debt = 0 := rfl
  unfold State.refreshForced
  rw [h]
  simp only [decide_eq_false_iff_not]
  omega

theorem refresh_forced (rs : List MemReq) (b : List (Nat × BankSt)) : (memState rs ⟨[], b, 16, false, []⟩).refreshForced 0 = true := by
  have h : ((memState rs ⟨[], b, 16, false, []⟩).sched 0).debt = 16 := rfl
  have h2 : (memState rs ⟨[], b, 16, false, []⟩).postponeLimit 0 ≤ 15 := by
    have e : (memState [] calm).rf (ctrlWin 0) 0x200 31 28 ≤ 15 := by decide +kernel
    exact Nat.le_trans (Nat.min_le_left _ _) e
  unfold State.refreshForced
  rw [h]
  simp only [decide_eq_true_eq]
  omega

/-- A stack in panic since cycle 0, one that is not; a channel asleep, one that has been idle for long; one that retrains. -/
def panicState : State := { (State.reset.setReg 282 0x104 0x80000000) with mem := { State.reset.mem with panicSince := [(0, 0)] }, time := { State.reset.time with cycles := 20000 } }
def chanState (g : GState) (asleep : Option Nat) : State :=
  { withGath [(284, g)] with
    regs := [(281 * 65536 + 0x208, 1), (284 * 65536 + 0x104, 0x40000000)]
    time := { State.reset.time with cycles := 1000 }
    mem := { State.reset.mem with chans := if asleep = none then [] else [(284, ⟨asleep, 0, 0, 0⟩)], scheds := [(0, ⟨[], [(2, bankOf 7)], 3, false, []⟩)] } }

theorem hyp_Channels : (∀ s ∈ [panicState.setReg 282 0x100 0x00001000, panicState.setReg 282 0x100 0], SMap.find s.mem.panicSince 0 = some 0 ∧
      0 + 64 * s.rf 282 0x100 31 24 ≤ s.time.cycles) ∧ (panicState.setReg 282 0x100 0x00001000).prefetched 0 < 1024 * (panicState.setReg 282 0x100 0x00001000).rf 282 0x100 23 12 ∧
    1024 * (panicState.setReg 282 0x100 0).rf 282 0x100 23 12 ≤ (panicState.setReg 282 0x100 0).prefetched 0 ∧
    (State.reset.rf 282 0x104 31 31 = 0 ∧ (State.reset.setReg 282 0x100 1).prefetched 0 < 1024 * (State.reset.setReg 282 0x100 1).rf 282 0x100 11 0 ∧
      1024 * (State.reset.setReg 282 0x100 0).rf 282 0x100 11 0 ≤ (State.reset.setReg 282 0x100 0).prefetched 0) ∧ kindOf 284 = 0x09 ∧
    (chanState .inService none).inService 284 = true ∧ (chanState .inService none).rf bmcWin 0x208 15 0 = 1 ∧ (∀ k ∈ schedsOf 284, ((chanState .inService none).sched k).queue = []) ∧
    (∀ k ∈ schedsOf 284, ((chanState .inService none).sched k).nrr = []) ∧ (chanState .inService none).stackAwake 0 = true ∧
    (let s : State := { chanState .quiet none with time := { State.reset.time with cycles := 1000000000 } }
     (s.gathOf 284).own = .quiet ∧ (s.chan 284).seeded + 1000000000 ≤ s.time.cycles) ∧
    (chanState .inService (some 5)).chan 284 = ⟨some 5, 0, 0, 0⟩ ∧ ((chanState .quiet none).gathOf 284).own = .quiet ∧ (chanState .quiet none).rf 284 0x104 30 30 = 1 ∧
    SMap.find ((chanState .quiet none).sched 0).banks 2 = some (bankOf 7) ∧ 0 + idleNs 0 0 ≤ (chanState .quiet none).time.cycles ∧
    (∀ a ∈ ancestorsOf 284, ((chanState .quiet none).gathOf a).cmd = none ∧ ((chanState .quiet none).gathOf a).tip = none) := by decide +kernel

theorem test_channels : leaves (.retrainDone 284 false) (chanState .quiet none) (fun u => decide ((u.gathOf 284).own = .failed)) = true ∧
    leaves (.selfRefreshEntry 284) (chanState .inService none) (fun u => decide ((u.sched 0).banks = []) && decide ((u.chan 284).selfRefresh = some 1000)) = true ∧
    leaves (.chRetrain 284) (chanState .inService none) (fun u => decide (u.rf 284 0x104 29 28 = 3)) = true ∧
    leaves (.panicExit 0) (panicState.setReg 282 0x100 0) (fun u => decide (u.mem.panicSince = [])) = true := by decide +kernel

/-! ### Mower and Commons -/

/-- Mower scrubs: Quire 0's shared memory holds a codeword in error, or none; Ling bank 0's row 1 differs from its shadow. -/
def scrubState (errs : List EccErr) : State :=
  { withGath [(5, .inService), (426, .inService), (330, .inService), (329, .inService)] with
    regs := [(426 * 65536 + 0x100, 0x7FF)]
    time := { State.reset.time with cycles := 60000000001 }
    ling := { State.reset.ling with rows := [(1, { lingRowOf 3 5 true with data := 7 })] }
    mower := { State.reset.mower with errs := errs, hardQueue := [⟨1, 5, 0, 8, 0⟩] } }

/-- The same with a correctable codeword of Quire 0 to be written back. -/
def backState (late : Bool) : State :=
  let s := scrubState [⟨5, 0, 0, 1, false, 0, 0⟩]
  { s with mower := { s.mower with back := [((5, 0, 0), late)] } }

theorem hyp_MowerScrubsAndCommonsRefills :
    (∃ t : Fin 11, t.val < 9 ∧ t.val ≠ 5 ∧ (scrubState []).scrubValid t 5 0 0 = true) ∧ (scrubState []).inService mowerWin = true ∧
    ((scrubState []).reg mowerWin 0x100).getLsbD 5 = true ∧ (scrubState []).scrubValid 5 330 0 48 = true ∧ (scrubState []).errsIn 330 0 48 48 = [] ∧
    (((scrubState []).lingRow 0 1).data ≠ ((scrubState []).shadowRow 0 1).data) ∧
    (∀ e ∈ [EccErr.mk 5 0 0 1 false 0 0, EccErr.mk 5 0 0 0 true 0 0], (scrubState [e]).errsIn 5 0 0 (codeBytes ((scrubState [e]).memClass 5 0)) = [e] ∧ e.shows = true) ∧
    (scrubState []).errFatal ⟨5, 0, 0, 1, false, 0, 0⟩ = false ∧ (scrubState []).errFatal ⟨5, 0, 0, 0, true, 0, 0⟩ = true ∧
    (scrubState []).mower.back = [] ∧ (∀ late, (backState late).mower.back.find? (fun b => b.1 == (5, 0, 0)) = some ((5, 0, 0), late) ∧
      (backState late).errsIn 5 0 0 (codeBytes ((backState late).memClass 5 0)) = [⟨5, 0, 0, 1, false, 0, 0⟩]) ∧
    SMap.get (fun _ => false) (scrubState []).mower.lapLate 0 = false ∧ (∀ x, x < 4 → State.reset.blockCmds x = []) ∧
    ((scrubState []).reg mowerWin 0x204).toNat = 60000 ∧ (scrubState []).lapStarted 0 = 0 ∧ (scrubState []).mower.hardQueue = [⟨1, 5, 0, 8, 0⟩] ∧
    ({ State.reset with time := { State.reset.time with ns := 1024 } } : State).commons.round < 1 ∧ State.reset.sheaf.prev = none ∧ State.reset.wFronts = [] := by
  decide +kernel

theorem test_mower : leaves (.scrubStep 5 330 0 48) (scrubState []) (fun u => decide (u.lingRow 0 1 = lingRowOf 3 5 true)) = true ∧
    leaves (.lapOverdue 0) (scrubState []) (fun u => (u.reg mowerWin 0x780).getLsbD 0) = true ∧
    leaves .hardQueuePop (scrubState []) (fun u => decide (u.mower.hardQueue = [])) = true ∧
    leaves .roundRefill { State.reset with time := { State.reset.time with ns := 1024 } } (fun u => decide (u.commons.round = 1)) = true := by decide +kernel

/-! ### Mailboxes -/

/-- An entry of opcode op from sender f with a payload, an extended buffer at host address 0x4000, and a command taken with it. -/
def entryOf (f op buflen : Nat) (pay : List Byte) : List Byte :=
  fitBytes (leBytes 2 op ++ [0, 0] ++ leBytes 2 pay.length ++ [BitVec.ofNat 8 f, 0] ++ leBytes 8 0x4000 ++ leBytes 4 buflen ++ List.replicate 12 0 ++ pay) 256
def takenOf (f op buflen : Nat) (pay : List Byte) : Taken := ⟨entryOf f op buflen pay, false, 0, []⟩
def onward (t : Taken) (phase : Nat) (notes : List Nat) : Taken := { t with phase := phase, notes := notes }

/-- Spine and the endpoint in service, with the link up, over a state none of whose units above Fallow matters; sender f has one command. -/
def mail (s : State) (f : Nat) (t : Taken) : State :=
  { s with
    gath := s.gath ++ [(427, gat .inService), (428, gat .inService)]
    spine := { s.spine with up := true, link := true }
    funcs := [(f, { funcReset f with en := true, taken := [t] })] }

/-- Command op of the physical function, with an extended buffer of 16 KiB, or of no length, over the state after reset. -/
def asked (op : Nat) (pay : List Byte) : State := mail State.reset 0 (takenOf 0 op 16384 pay)

theorem test_mailbox_checks :
    (mail State.reset 1 (takenOf 1 0x0102 0 [])).preCheck 1 (takenOf 1 0x0102 0 []) = some (Reply.plain 4) ∧
    leaves (.getState 0) (mail State.reset 0 (takenOf 0 0x0102 0 [1])) (fun u => decide (byteAt (u.hostRead 0 256) 8 = 2 ∧ byteAt (u.hostRead 0 256) 20 = 4)) = true ∧
    leaves (.portGet 0) { asked 0x0302 [3] with trust := { State.reset.trust with sec := .locked } } (fun u => decide (byteAt (u.hostRead 0 256) 8 = 13)) = true := by decide +kernel

/-- The seven clauses: a virtual function that may not issue it, a wrong length, a wrong byte 7, a wrong byte 0x15, LOCKED, the ROM, the board's path. -/
def wrongAt (k : Nat) : Taken := { takenOf 0 0x0302 0 [3] with entry := (entryOf 0 0x0302 0 [3]).set k 1 }
theorem hyp_MailboxCommandsAreChecked_sizes :
    224 < cmdLength (takenOf 0 0x0401 0 (List.replicate 225 0)).entry ∧
    cmdLength (takenOf 0 0x0204 0 [1, 0, 0, 0, 2, 0, 0, 0, 0]).entry ≠ 5 + 4 * (byteAt (cmdPayload (takenOf 0 0x0204 0 [1, 0, 0, 0, 2, 0, 0, 0, 0]).entry) 4).toNat ∧
    ((classTarget 1).isSome = true ∧ cmdLength (takenOf 0 0x0502 0 [1, 0, 0, 0, 0, 7]).entry ≠ 5 + 16 ∧ cmdLength (takenOf 0 0x0502 0 [1, 0, 0, 0, 0, 7]).entry ≠ 53) ∧
    (cmdRow 0x0302).any (fun r => r.sizeOk (takenOf 0 0x0302 16384 [3]).entry) = true ∧ cmdRow 0x0204 ≠ none ∧ cmdRow 0x0502 ≠ none := by decide +kernel

theorem hyp_MailboxCommandsAreChecked :
    (∀ k : Fin 3, (mail State.reset 0 ([takenOf 0 0x0302 0 [3], takenOf 0 0x0302 0 [3, 4], wrongAt 7].getD k.val (wrongAt 0x15))).spineServes = true) ∧
    ((0, 0x0302) ∈ mailRows (.portGet 0) ∧ (1, 0x0302) ∈ mailRows (.portGet 1) ∧ (64, 0x0302) ∈ mailRows (.portGet 64)) ∧
    cmdRow 0x0302 = some ⟨0x0302, true, false, true, some 1⟩ ∧
    ((asked 0x0302 [3]).func 0).taken = [takenOf 0 0x0302 16384 [3]] ∧ cmdOpcode (entryOf 0 0x0302 16384 [3]) = 0x0302 ∧ (asked 0x0302 [3]).hostUp = true ∧
    (CmdRow.mk 0x0302 true false true (some 1)).from 1 = false ∧ cmdLength (entryOf 0 0x0302 0 [3, 4]) ≠ 1 ∧
    cmdLength (wrongAt 7).entry = 1 ∧ byteAt (wrongAt 7).entry 7 ≠ 0 ∧ byteAt (wrongAt 0x15).entry 7 = 0 ∧ byteAt (wrongAt 0x15).entry (0x14 + 1) ≠ 0 ∧
    byteAt (wrongAt 0x15).entry 0x14 = 0 ∧ (3 : Nat) ∉ [0x01, 0x0A, 0x0B, 0x0D] ∧ (∀ j, j < 12 → byteAt (entryOf 0 0x0302 16384 [3]) (0x14 + j) = 0) ∧
    ((mail State.reset 1 (takenOf 1 0x0803 0 [5, 0, 0])).tenantOk 1 (entryOf 1 0x0803 0 [5, 0, 0]) = false) ∧
    (let s : State := { asked 0x0302 [3] with spine := { (asked 0x0302 [3]).spine with up := false, rom := true } }
     s.spineServes = false ∧ s.hostUp = true ∧ s.answers 0 = true ∧ s.preCheck 0 (takenOf 0 0x0302 16384 [3]) = none) ∧
    (let t := onward (takenOf 1 0x0803 0 [5, 0, 0]) 1 []
     (mail State.reset 1 t).answers 1 = true ∧ 0 < t.phase ∧ (mail State.reset 1 t).tenantOk 1 t.entry = false) := by
  decide +kernel

/-- The opcodes of a function's commands that read, each with a payload that its row admits. -/
def readsOf (k : Nat) : Nat × List Byte := [(0x0101, []), (0x0102, []), (0x0403, []), (0x0702, [4, 0, 0, 0]), (0x0704, [0xFF, 0xFF, 1, 0, 0]),
  (0x0803, [5, 0, 0]), (0x0901, []), (0x0904, [0, 0]), (0x0A04, []), (0x0B01, [32, 0]), (0x0B02, [5, 0, 0, 0]), (0x0C03, [0xFF, 3]),
  (0x0D01, [])].getD k (0x0B01, [40, 0])
def askedOf (x : Nat × List Byte) : State := asked x.1 x.2
def tookOf (x : Nat × List Byte) : Taken := takenOf 0 x.1 16384 x.2

theorem hyp_reads : (∀ k : Fin 14, Asks (askedOf (readsOf k.val)) 0 (readsOf k.val).1 (tookOf (readsOf k.val))) ∧
    ∀ k : Fin 14, ((readRow (askedOf (readsOf k.val)) (tookOf (readsOf k.val)) ([Instr.getInfo 0, .getState 0, .imageList 0, .nodeGet 0, .queueStats 0,
      .counterGet 0, .wrapKeys 0, .keyList 0, .securityGet 0, .sensorRead 0, .eccLogGet 0, .eventGet 0, .timeGet 0].getD k.val (.sensorRead 0))).map
      (fun r => (r.1, r.2.1))) = some (0, (readsOf k.val).1) := by
  unfold Asks; decide +kernel

/-- Commands of the physical function over units in service, and with table memory of one region; n is what it noted in phase 1, if not 0. -/
def recState (op : Nat) (pay : List Byte) (n : Nat) : State :=
  mail { withGath ((windows 316 13).map (·, .inService)) with
      regs := [(tmcWin * 65536 + 0x100, 0x80040001), (tmcWin * 65536 + 0x104, 0x80000000)] } 0
    (if n = 0 then takenOf 0 op 16384 pay else onward (takenOf 0 op 16384 pay) 1 [0, 64 * n])
def recPay : List Byte := [0, 0, 0, 0, 5, 0]

theorem hyp_MailboxReadsAnswer :
    (∀ k : Fin 14, k.val ≠ 6 → Asks (askedOf (readsOf k.val)) 0 (readsOf k.val).1 (tookOf (readsOf k.val))) ∧
    Fits 0 (tookOf (0x0803, [5, 0, 0])) (asReply 0 true (List.replicate 512 0)) ∧ Fits 0 (tookOf (0x0101, [])) (asReply 0 false (List.replicate 16 0)) ∧
    Asks (asked 0x0202 [1, 0, 0, 0]) 0 0x0202 (takenOf 0 0x0202 16384 [1, 0, 0, 0]) ∧
    (regReadRow (takenOf 0 0x0202 16384 [1, 0, 0, 0]) (.ucbRead 0)).isSome = true ∧
    Asks (asked 0x0203 [1, 0, 0xFC, 0xFF, 1]) 0 0x0203 (takenOf 0 0x0203 16384 [1, 0, 0xFC, 0xFF, 1]) ∧
    (regReadRow (takenOf 0 0x0203 16384 [1, 0, 0xFC, 0xFF, 1]) (.regRead 0)).isSome = true ∧
    (regReadRow (takenOf 0 0x0302 16384 [31]) (.portGet 0)).isSome = true ∧
    Asks (asked 0x0704 [0xFF, 0xFF, 1, 0, 1]) 0 0x0704 (takenOf 0 0x0704 16384 [0xFF, 0xFF, 1, 0, 1]) ∧
    Asks (recState 0x0801 recPay 0) 0 0x0801 (takenOf 0 0x0801 16384 recPay) ∧
    ((recState 0x0801 recPay 0).memAvail true ((recState 0x0801 recPay 0).recordAddr ((recState 0x0801 recPay 0).actingTenant 0 5) 0) 256 = .ok ∧
     (recState 0x0801 recPay 0).tokensHeld 4 1 = 0 ∧ 4 ≤ (recState 0x0801 recPay 0).tokensLeft 4 1 ∧
     leNat (bytesAt ((recState 0x0801 recPay 0).memBytes true ((recState 0x0801 recPay 0).recordAddr 5 0) 256) 4 4) = 0) ∧
    ((recState 0x0801 recPay 0).mem.waiting = [] ∧ (recState 0x0801 recPay 0).mem.chans = []) ∧ 6048 ≤ cmdBufLen (entryOf 0 0x0802 16384 recPay) ∧
    Asks (recState 0x0802 recPay 0) 0 0x0802 (takenOf 0 0x0802 16384 recPay) ∧
    ((recState 0x0802 recPay 0).memAvail true ((recState 0x0802 recPay 0).recordAddr 0 0) 32768 = .ok ∧
     (recState 0x0802 recPay 0).memAvail true ((recState 0x0802 recPay 0).rootAddr 0) 0x2C00 = .ok ∧ (recState 0x0802 recPay 0).tokensHeld 7 1 = 0 ∧
     (recState 0x0802 recPay 0).tokensLeft 7 1 < 592) ∧
    GoesOn (recState 0x0802 recPay 590) 0 0x0802 (onward (takenOf 0 0x0802 16384 recPay) 1 [0, 64 * 590]) 1 [0, 64 * 590] ∧
    leNat (((recState 0x0802 recPay 590).memBytes true ((recState 0x0802 recPay 590).recordAddr 0 0) 32768 ++
      (recState 0x0802 recPay 590).memBytes true ((recState 0x0802 recPay 590).rootAddr 0) 0x2C00).take (64 * 590)) = 0 ∧
    592 ≤ 590 + (recState 0x0802 recPay 590).tokensLeft 7 1 ∧
    ((asked 0x0801 recPay).memWaiting (unitNo .spine) = [] ∧ (asked 0x0801 recPay).memAvail true ((asked 0x0801 recPay).recordAddr 0 0) 256 = .bad) ∧
    Asks (asked 0x0A01 (List.replicate 48 7)) 0 0x0A01 (takenOf 0 0x0A01 16384 (List.replicate 48 7)) := by
  constructorm* _ ∧ _ <;> first | decide +kernel | (unfold Asks; decide +kernel) | (unfold GoesOn; decide +kernel) | (unfold Fits; decide +kernel)

theorem hyp_records (a n : Nat) : CleanAccess (recState 0x0801 recPay 0) true a n ∧ CleanAccess (recState 0x0802 recPay 590) true a n :=
  ⟨clean_of_no_errors rfl _ _ _, clean_of_no_errors rfl _ _ _⟩

/-- A cached slot of Rick's, of the minute asked for. -/
def rickAsked : State :=
  let s := asked 0x0804 (leBytes 4 3 ++ leBytes 4 9)
  let s1 := { s with regs := [(sheafWin * 65536 + 0x200, 0x81010000)] }
  { s1 with sheaf := { s.sheaf with cache := [(s1.rickSlot 3 9, slotOf 9 5)] } }
theorem hyp_rickGet : Asks rickAsked 0 0x0804 (takenOf 0 0x0804 16384 (leBytes 4 3 ++ leBytes 4 9)) ∧
    (readRow rickAsked (takenOf 0 0x0804 16384 (leBytes 4 3 ++ leBytes 4 9)) (.rickGet 0)).isSome = true := by
  unfold Asks; decide +kernel

theorem test_mailbox_reads :
    leaves (.getInfo 0) (asked 0x0101 []) (fun u => decide (bytesAt (u.hostRead 0 256) 32 4 = [0, 0x32, 0xB0, 0])) = true ∧
    leaves (.counterGet 0) (asked 0x0803 [5, 0, 0]) (fun u => decide ((u.func 0).taken = [] ∧ (u.func 0).rspTail = 1 ∧ leNat (bytesAt (u.hostRead 0 256) 16 4) = 512)) = true ∧
    leaves (.regRead 0) (asked 0x0203 [1, 0, 0xFC, 0xFF, 1]) (fun u => decide (bytesAt (u.hostRead 0 256) 4 2 = [4, 0] ∧ byteAt (u.hostRead 0 256) 8 = 0)) = true ∧
    leaves (.recordGet 0) (recState 0x0801 recPay 0) (fun u => decide (byteAt (u.hostRead 0 256) 8 = 0 ∧ u.tokensLeft 4 1 = 4)) = true ∧
    leaves (.proofGet 0) (recState 0x0802 recPay 0) (fun u => decide (u.tokensLeft 7 1 = 0 ∧ (u.func 0).taken.length = 1)) = true := by decide +kernel

/-- The answer of PROOF_GET fits its buffer: a hash is of 48 bytes at most, whatever it is of. -/
theorem length_sha384 (m : List Byte) : (sha384 m).length ≤ 48 := by
  unfold sha384
  exact List.length_take_le _ _

theorem treeLevel_short : ∀ l : List (List Byte), (∀ x ∈ l, x.length ≤ 48) → ∀ x ∈ treeLevel l, x.length ≤ 48
  | [], h => h
  | [_], h => h
  | l :: r :: rest, h => by
    intro x hx
    rcases List.mem_cons.mp hx with rfl | hx
    · exact length_sha384 _
    · exact treeLevel_short rest (fun y hy => h y (List.mem_cons_of_mem _ (List.mem_cons_of_mem _ hy))) x hx

theorem length_siblings : ∀ (n i : Nat) (l : List (List Byte)), (∀ x ∈ l, x.length ≤ 48) → (siblings n i l).flatten.length ≤ 48 * n
  | 0, _, _, _ => by simp [siblings]
  | n + 1, i, l, h => by
    have hd : (l.getD (i ^^^ 1) []).length ≤ 48 := by
      rw [List.getD_eq_getElem?_getD]
      cases hk : l[i ^^^ 1]? with
      | none => simp
      | some x => exact h x (List.mem_of_getElem? hk)
    have tl := length_siblings n (i / 2) (treeLevel l) (treeLevel_short l h)
    simp only [siblings, List.flatten_cons, List.length_append]
    omega

theorem length_bytesAt (bs : List Byte) (i n : Nat) : (bytesAt bs i n).length = n := by
  unfold bytesAt
  simp only [List.length_append, List.length_take, List.length_drop, List.length_replicate]
  omega

theorem proof_fits (data root : List Byte) (tenant : Nat) :
    (bytesAt data (256 * (tenant % 128)) 256 ++ (siblings 7 (tenant % 128) ((List.range 128).map (fun k => leafHash (bytesAt data (256 * k) 256))) ++
      siblings 7 (tenant / 128) ((List.range 128).map (fun k => bytesAt root (0x1400 + 48 * k) 48))).flatten ++ root.take 0x1400).length ≤ 16384 := by
  have a := length_siblings 7 (tenant % 128) ((List.range 128).map (fun k => leafHash (bytesAt data (256 * k) 256)))
    (by intro x hx; obtain ⟨k, _, rfl⟩ := List.mem_map.mp hx; exact length_sha384 _)
  have b := length_siblings 7 (tenant / 128) ((List.range 128).map (fun k => bytesAt root (0x1400 + 48 * k) 48))
    (by intro x hx; obtain ⟨k, _, rfl⟩ := List.mem_map.mp hx; exact (length_bytesAt _ _ _).le)
  have c : (root.take 0x1400).length ≤ 0x1400 := List.length_take_le _ _
  simp only [List.length_append, List.flatten_append, length_bytesAt]
  omega

/-- The opcodes of the commands that write registers, each with a payload that its row admits. -/
def writesOf (k : Nat) : Nat × List Byte := [(0x0204, [1, 0, 0x1C, 0, 1, 0, 0, 0, 0]), (0x0301, [31, 3, 0, 0x80, 0x25]), (0x0304, [31, 0, 0, 0, 0]),
  (0x0305, [31, 1, 1, 3, 0xFF, 0xFF, 0xFF, 0x0F]), (0x0502, [3, 63, 0, 0, 0, 0, 0, 0, 0]), (0x0603, leBytes 4 0 ++ leBytes 4 3359638528 ++ leBytes 4 87982130), (0x0706, [31, 1, 0, 0, 0])].getD k
  (0x0C01, [0xFF, 3, 0, 0, 0, 0, 0, 0, 0, 0])

/-- The state that those are asked in: port 31 is OFF. -/
def offState (x : Nat × List Byte) : State := mail (withGath [(280, .off)]) 0 (tookOf x)

theorem hyp_writes : (∀ k : Fin 8, Asks (offState (writesOf k.val)) 0 (writesOf k.val).1 (tookOf (writesOf k.val))) ∧
    (∃ w ws, regWriteRow (offState (writesOf 0)) (tookOf (writesOf 0)) (.regWrite 0) = some (0, 0x0204, w, ws) ∧ w ∧ ((offState (writesOf 0)).setRegs ws).1 = true) ∧
    (∃ w ws, regWriteRow (offState (writesOf 1)) (tookOf (writesOf 1)) (.portSet 0) = some (0, 0x0301, w, ws) ∧ w ∧ ((offState (writesOf 1)).setRegs ws).1 = true) ∧
    (∃ w ws, regWriteRow (offState (writesOf 2)) (tookOf (writesOf 2)) (.portTest 0) = some (0, 0x0304, w, ws) ∧ w ∧ ((offState (writesOf 2)).setRegs ws).1 = true) ∧
    (∃ w ws, regWriteRow (offState (writesOf 3)) (tookOf (writesOf 3)) (.macsecSet 0) = some (0, 0x0305, w, ws) ∧ w ∧ ((offState (writesOf 3)).setRegs ws).1 = true) ∧
    (∃ w ws, regWriteRow (offState (writesOf 4)) (tookOf (writesOf 4)) (.classWrite 0) = some (0, 0x0502, w, ws) ∧ w ∧ ((offState (writesOf 4)).setRegs ws).1 = true) ∧
    (∃ w ws, regWriteRow (offState (writesOf 5)) (tookOf (writesOf 5)) (.warrenSet 0) = some (0, 0x0603, w, ws) ∧ w ∧ ((offState (writesOf 5)).setRegs ws).1 = true) ∧
    (∃ w ws, regWriteRow (offState (writesOf 6)) (tookOf (writesOf 6)) (.pfcSet 0) = some (0, 0x0706, w, ws) ∧ w ∧ ((offState (writesOf 6)).setRegs ws).1 = true) ∧
    (∃ w ws, regWriteRow (offState (writesOf 7)) (tookOf (writesOf 7)) (.eventRoute 0) = some (0, 0x0C01, w, ws) ∧ w ∧ ((offState (writesOf 7)).setRegs ws).1 = true) := by
  refine ⟨by unfold Asks; decide +kernel, ?_⟩
  and_intros <;> exact ⟨_, _, rfl, by decide +kernel, by decide +kernel⟩

/-- A PFC_SET that the unit discards: a quantum of 0. -/
theorem hyp_writes_refused : Asks (offState (0x0706, [31, 0, 0, 0, 0])) 0 0x0706 (tookOf (0x0706, [31, 0, 0, 0, 0])) ∧
    ∃ w ws, regWriteRow (offState (0x0706, [31, 0, 0, 0, 0])) (tookOf (0x0706, [31, 0, 0, 0, 0])) (.pfcSet 0) = some (0, 0x0706, w, ws) ∧ w ∧
      ((offState (0x0706, [31, 0, 0, 0, 0])).setRegs ws).1 = false :=
  ⟨by unfold Asks; decide +kernel, _, _, rfl, by decide +kernel, by decide +kernel⟩

/-- The state that the commands that act are asked in: queue pair 255 is function 0's, image 3 is staged, key slot 9 holds a key of tenant 5. -/
def actState (x : Nat × List Byte) : State :=
  let s := mail (withGath [(422, .inService)]) 0 (tookOf x)
  { s with
    qps := [(254, { QpSt.zero with owner := some 0, kind := 1 }), (255, { QpSt.zero with owner := some 0 })]
    trust := { s.trust with images := [(3, ⟨5, List.replicate 16 0, []⟩)] }
    keys := [(9, ⟨some (5, 1, []), 2⟩)] }

def actsOf (k : Nat) : Nat × List Byte := [(0x0103, [255, 0, 3, 23] ++ List.replicate 16 0 ++ [15, 15, 127, 0, 0]), (0x0104, [254, 0]), (0x0105, [255, 0, 1, 0, 63]),
  (0x0106, [63, 15, 1, 0x83] ++ leBytes 8 0 ++ leBytes 8 0xC00000000), (0x0107, [63, 5, 0, 1]), (0x0108, [63, 64]), (0x0402, [3, 0]), (0x0504, [3, 255]),
  (0x0604, [3, 63]), (0x0701, [4, 1, 0, 0, 0, 0, 0, 0, 1] ++ List.replicate 27 0), (0x0703, [0xFF, 0xFF, 0xF, 0] ++ List.replicate 16 0), (0x0705, [0xFF, 0xFF, 1, 0]),
  (0x0903, [0, 9, 0, 0, 0, 0]), (0x0C02, [0x80, 3]), (0x0D02, leBytes 8 5 ++ leBytes 4 500000)].getD k (0x0D03, [2, 31])

theorem hyp_acts : (∀ k : Fin 16, Asks (actState (actsOf k.val)) 0 (actsOf k.val).1 (tookOf (actsOf k.val))) ∧
    (∃ w e, actRow (actState (actsOf 0)) (tookOf (actsOf 0)) State.reset (.qpCreate 0) = some (0, 0x0103, w, e) ∧ w) ∧
    (∃ w e, actRow (actState (actsOf 1)) (tookOf (actsOf 1)) State.reset (.qpDestroy 0) = some (0, 0x0104, w, e) ∧ w) ∧
    (∃ w e, actRow (actState (actsOf 2)) (tookOf (actsOf 2)) State.reset (.qpAssign 0) = some (0, 0x0105, w, e) ∧ w) ∧
    (∃ w e, actRow (actState (actsOf 3)) (tookOf (actsOf 3)) State.reset (.dmaWindowSet 0) = some (0, 0x0106, w, e) ∧ w) ∧
    (∃ w e, actRow (actState (actsOf 4)) (tookOf (actsOf 4)) State.reset (.funcBind 0) = some (0, 0x0107, w, e) ∧ w) ∧
    (∃ w e, actRow (actState (actsOf 5)) (tookOf (actsOf 5)) State.reset (.creditSet 0) = some (0, 0x0108, w, e) ∧ w) ∧
    (∃ w e, actRow (actState (actsOf 6)) (tookOf (actsOf 6)) State.reset (.imageRelease 0) = some (0, 0x0402, w, e) ∧ w) ∧
    (∃ w e, actRow (actState (actsOf 7)) (tookOf (actsOf 7)) State.reset (.blockAssign 0) = some (0, 0x0504, w, e) ∧ w) ∧
    (∃ w e, actRow (actState (actsOf 8)) (tookOf (actsOf 8)) State.reset (.blockAssign 0) = some (0, 0x0604, w, e) ∧ w) ∧
    (∃ w e, actRow (actState (actsOf 9)) (tookOf (actsOf 9)) State.reset (.nodeSet 0) = some (0, 0x0701, w, e) ∧ w) ∧
    (∃ w e, actRow (actState (actsOf 10)) (tookOf (actsOf 10)) State.reset (.policerSet 0) = some (0, 0x0703, w, e) ∧ w) ∧
    (∃ w e, actRow (actState (actsOf 12)) (tookOf (actsOf 12)) State.reset (.keyRevoke 0) = some (0, 0x0903, w, e) ∧ w) ∧
    (∃ w e, actRow (actState (actsOf 13)) (tookOf (actsOf 13)) State.reset (.eventRaise 0) = some (0, 0x0C02, w, e) ∧ w) ∧
    (∃ w e, actRow (actState (actsOf 14)) (tookOf (actsOf 14)) State.reset (.timeAdjust 0) = some (0, 0x0D02, w, e) ∧ w) ∧
    (∃ w e, actRow (actState (actsOf 15)) (tookOf (actsOf 15)) State.reset (.timeSource 0) = some (0, 0x0D03, w, e) ∧ w) := by
  refine ⟨by unfold Asks; decide +kernel, ?_⟩
  and_intros <;> exact ⟨_, _, rfl, by decide +kernel⟩

/-- Command op of the physical function, that acts: over units in service, with an image 3 of a parse graph of one byte. -/
def graphImage : Image := ⟨5, List.replicate 12 0 ++ leBytes 4 1 ++ sha384 [7] ++ List.replicate 5056 0 ++ [7], []⟩
def askedIn (g : List (Nat × GState)) (op : Nat) (pay : List Byte) (phase : Nat) (notes : List Nat) : State :=
  let s := mail (withGath g) 0 (onward (takenOf 0 op 16384 pay) phase notes)
  { s with trust := { s.trust with images := [(3, graphImage)] } }

theorem graph_loads (g : List (Nat × GState)) (op : Nat) (pay : List Byte) (phase : Nat) (notes : List Nat) :
    (askedIn g op pay phase notes).loadOk graphImage = true := by
  have h : (decide (sha384 graphImage.stored = graphImage.digest) && graphImage.tagOk) = true := by decide +kernel
  unfold State.loadOk
  rw [if_neg (by decide), h]
  rfl

/-- The tokens that a graph's load draws, whichever memory the staging store lies in: there are some, or none. -/
def noTokens (s : State) : State := { s with commons := { s.commons with tokens := [(45, 0), (46, 0)] } }
/-- Spine runs its ROM; function 0 stages image 3, a Folio of one byte, in a phase. -/
def folioImage : Image := { graphImage with kind := 4 }
def romAsked (phase : Nat) (notes : List Nat) (left : Nat) : State :=
  let s := mail State.reset 0 (onward (takenOf 0 0x0401 16384 [4]) phase notes)
  { s with trust := { s.trust with images := [(3, folioImage)] }, spine := { s.spine with up := false, rom := true },
           commons := { s.commons with tokens := [(45, left), (46, left)] } }

theorem hyp_MailboxCommandsAct_pushed : AtRom (romAsked 0 [] 0) 0x0401 (takenOf 0 0x0401 16384 [4]) 0 [] ∧
    (∀ n ∈ [0, 1], AtRom (romAsked 1 [3, 0] n) 0x0401 (onward (takenOf 0 0x0401 16384 [4]) 1 [3, 0]) 1 [3, 0]) ∧
    ((takenOf 0 0x0401 16384 [4]).pay 0 1 = 4 ∧ (romAsked 0 [] 0).stagingRoom ⟨4, [], []⟩ = true ∧ (romAsked 1 [3, 0] 0).staged 3 = some folioImage ∧
      0 < folioImage.lines ∧ folioImage.tagOk = true) ∧
    (∀ r, r < 2 → (romAsked 1 [3, 0] 0).tokensHeld 9 r = 0 ∧ 0 + (romAsked 1 [3, 0] 0).tokensLeft 9 r < folioImage.lines ∧
      folioImage.lines ≤ 0 + (romAsked 1 [3, 0] 1).tokensLeft 9 r) := by
  unfold AtRom
  decide +kernel

/-- KEY_INSTALL for key slot 3 of function 0, whose buffer is all zero, as it begins and as it comes out of the unwrap queue. -/
theorem hyp_MailboxCommandsAct_keys : let t := takenOf 0 0x0902 16384 [0, 3, 0, 0, 0, 0]
    Asks (asked 0x0902 [0, 3, 0, 0, 0, 0]) 0 0x0902 t ∧ keyField t = none ∧ (asked 0x0902 [0, 3, 0, 0, 0, 0]).keyCheck 0 t (List.replicate 1856 0) = some 4 ∧
    (asked 0x0902 [0, 3, 0, 0, 0, 0]).unwrapping.length < 16 ∧
    GoesOn (askedIn [] 0x0902 [0, 3, 0, 0, 0, 0] 1 [0]) 0 0x0902 (onward t 1 [0]) 1 [0] ∧ leNat (List.replicate 1856 0) = 0 ∧
    (askedIn [] 0x0902 [0, 3, 0, 0, 0, 0] 1 [0]).keyCheck 0 (onward t 1 [0]) (List.replicate 1856 0) = some 4 ∧
    (let s : State := { asked 0x0902 [0, 3, 0, 0, 0, 0] with
      funcs := (List.range 16).map (fun f => (f + 1, { funcReset 1 with taken := [onward (takenOf 1 0x0902 16384 [0, 3, 0, 0, 0, 0]) 1 [0]] })) }
     16 ≤ s.unwrapping.length) := by
  constructorm* _ ∧ _ <;> first | decide +kernel | (unfold Asks; decide +kernel) | (unfold GoesOn; decide +kernel)

theorem hyp_graphTokens : (∀ r, r < 2 → (askedIn [] 0x0501 [3, 0] 0 []).tokensHeld 9 r = 0 ∧ graphImage.lines ≤ (askedIn [] 0x0501 [3, 0] 0 []).tokensLeft 9 r ∧
      0 + (noTokens (askedIn [] 0x0501 [3, 0] 0 [])).tokensLeft 9 r < graphImage.lines ∧
      1 + (noTokens (askedIn [] 0x0501 [3, 0] 1 [1])).tokensLeft 9 r = graphImage.lines) ∧
    GoesOn (noTokens (askedIn [] 0x0501 [3, 0] 1 [1])) 0 0x0501 (onward (takenOf 0 0x0501 16384 [3, 0]) 1 [1]) 1 [1] := by
  unfold GoesOn
  exact ⟨by decide +kernel, by decide +kernel⟩

theorem hyp_MailboxCommandsAct :
    Asks (asked 0x0502 ([1] ++ leBytes 4 1048575 ++ List.replicate 16 7)) 0 0x0502 (takenOf 0 0x0502 16384 ([1] ++ leBytes 4 1048575 ++ List.replicate 16 7)) ∧
    Asks (asked 0x0502 ([2] ++ leBytes 4 8191 ++ List.replicate 32 7)) 0 0x0502 (takenOf 0 0x0502 16384 ([2] ++ leBytes 4 8191 ++ List.replicate 32 7)) ∧
    Asks (asked 0x0401 [1]) 0 0x0401 (takenOf 0 0x0401 16384 [1]) ∧ (asked 0x0401 [1]).verifyImage ⟨1, [], []⟩ = some 11 ∧
    Asks (askedIn [] 0x0501 [3, 0] 0 []) 0 0x0501 (takenOf 0 0x0501 16384 [3, 0]) ∧ (askedIn [] 0x0501 [3, 0] 0 []).staged 3 = some graphImage ∧ graphImage.kind = 5 ∧
    (askedIn [] 0x0501 [3, 0] 0 []).rolledBack tedderWin graphImage = false ∧ (askedIn [] 0x0501 [3, 0] 0 []).rf tedderWin 0x200 9 9 = 0 ∧
    Asks (asked 0x0902 [0, 0xFF, 3, 0, 0, 0]) 0 0x0902 (takenOf 0 0x0902 16384 [0, 0xFF, 3, 0, 0, 0]) ∧
    keyField (takenOf 0 0x0902 16384 [0, 0xFF, 3, 0, 0, 0]) = none ∧
    actionListed (BitVec.ofNat 128 (leNat (List.replicate 16 7))) = true ∧ actionListed (BitVec.ofNat 128 (leNat (List.replicate 16 0xFF))) = false ∧
    (askedIn [] 0x0501 [3, 0] 0 []).tedder.loadWaiting = none ∧
    Asks (asked 0x0A02 []) 0 0x0A02 (takenOf 0 0x0A02 16384 []) ∧ (asked 0x0A02 []).owner = none ∧
    Asks (asked 0x0A03 []) 0 0x0A03 (takenOf 0 0x0A03 16384 []) ∧
    Asks (asked 0x0B03 []) 0 0x0B03 (takenOf 0 0x0B03 16384 []) := by
  constructorm* _ ∧ _ <;> first | decide +kernel | (unfold Asks; decide +kernel)

theorem test_mailbox_acts :
    leaves (.classWrite 0) (asked 0x0502 ([1] ++ leBytes 4 1048575 ++ List.replicate 16 7)) (fun u =>
      decide (SMap.get (fun _ => (0 : Word128)) u.windrow.direct 1048575 = BitVec.ofNat 128 (leNat (List.replicate 16 7)))) = true ∧
    leaves (.creditSet 0) (actState (actsOf 5)) (fun u => decide ((u.func 63).credits = 64)) = true ∧
    leaves (.keyRevoke 0) (actState (actsOf 12)) (fun u => decide ((u.keySlot 9).held = none) && decide ((u.keySlot 9).gen = 3)) = true ∧
    leaves (.graphLoad 0) (askedIn [] 0x0501 [3, 0] 2 []) (fun u => decide ((u.func 0).taken = [])) = true := by decide +kernel

/-- A Quire whose Leaf 0 is to be replaced by its Leaf 8, asked for by BIND_SPARE; a channel to retrain; blocks 0 held by function 0. -/
def bindPay : List Byte := [2, 0, 0, 0, 0, 8]
def bindAsked : State := mail (withGath [(5, .inService), (29, .inService)] |>.setGath 37 { gathReset 37 with own := .off }) 0 (takenOf 0 0x0205 16384 bindPay)
def linger (s : State) : State :=
  { s with ling := { s.ling with holders := [(0, 0)] }, warren := { s.warren with holders := [(0, 0)] } }
def lingPay : List Byte := List.replicate 181 0
def unlistedPay : List Byte := [0, 1] ++ List.replicate 170 0 ++ [0x60] ++ List.replicate 8 0
def warrenPay : List Byte := [1] ++ List.replicate 126 0
def lingAsked (s : State) (t : Taken) : State := linger (mail s 0 t)

def rollPay (mask : Nat) : List Byte := leBytes 2 3 ++ leBytes 4 mask

theorem hyp_MailboxCommandsGoOn :
    Asks (asked 0x0201 [1, 16, 0, 0, 1, 6, 3, 0]) 0 0x0201 (takenOf 0 0x0201 16384 [1, 16, 0, 0, 1, 6, 3, 0]) ∧
    winOfPath (takenOf 0 0x0201 16384 [1, 16, 0, 0, 1, 6, 3, 0]) 0 = some 421 ∧ membersOf 421 = [] ∧ 421 ∉ [stileWin, pcieWin, spineWin] ∧
    Asks bindAsked 0 0x0205 (takenOf 0 0x0205 16384 bindPay) ∧ winOfPath (takenOf 0 0x0205 16384 bindPay) 0 = some 5 ∧
    ((bindAsked.setRf 5 0x38 15 8 0).setRf 5 0x38 7 0 8).bindOk 5 = true ∧ bindAsked.heldInReset = false ∧ bindAsked.ancestorBusy 5 = false ∧
    bindAsked.inService (memberWin 5 0) = true ∧
    GoesOn (askedIn [] 0x0205 bindPay 1 []) 0 0x0205 (onward (takenOf 0 0x0205 16384 bindPay) 1 []) 1 [] ∧ ((askedIn [] 0x0205 bindPay 1 []).gathOf 5).cmd = none ∧
    Asks (askedIn [(280, .quiet)] 0x0303 [31] 0 []) 0 0x0303 (takenOf 0 0x0303 16384 [31]) ∧ (askedIn [(280, .quiet)] 0x0303 [31] 0 []).portState 31 = .quiet ∧
    GoesOn (askedIn [] 0x0303 [31] 1 []) 0 0x0303 (onward (takenOf 0 0x0303 16384 [31]) 1 []) 1 [] ∧ (askedIn [] 0x0303 [31] 1 []).rf (portWin 31) 0x10C 30 30 = 0 ∧
    Asks (asked 0x0404 (leBytes 6 3)) 0 0x0404 (takenOf 0 0x0404 16384 (leBytes 6 3)) ∧
    Asks (asked 0x0404 (leBytes 2 3 ++ leBytes 4 0x800000)) 0 0x0404 (takenOf 0 0x0404 16384 (leBytes 2 3 ++ leBytes 4 0x800000)) ∧
    (∀ g ∈ [(5, GState.quiet), (5, .failed)],
      GoesOn (askedIn [g] 0x0404 (rollPay 0x800001) 1 [0, 0]) 0 0x0404 (onward (takenOf 0 0x0404 16384 (rollPay 0x800001)) 1 [0, 0]) 1 [0, 0]) ∧
    (let s := askedIn [(5, .quiet)] 0x0404 (rollPay 0x800001) 1 [0, 0]
     (s.gathOf (quireWin 0)).own = .quiet ∧ s.busy (quireWin 0) = false ∧ (s.reported (quireWin 0)).1 ≠ .failed ∧ (s.gathOf (quireWin 0)).timedOut = false) ∧
    (∀ m ∈ [1, 0x800001], GoesOn (askedIn [(5, .inService)] 0x0404 (rollPay m) 1 [0, 1]) 0 0x0404 (onward (takenOf 0 0x0404 16384 (rollPay m)) 1 [0, 1]) 1 [0, 1]) ∧
    ((askedIn [(5, .inService)] 0x0404 (rollPay 1) 1 [0, 1]).reported (quireWin 0)).1 = .inService ∧
    (let m := (takenOf 0 0x0404 16384 (rollPay 0x800001)).pay 2 4
     m < 2 ^ 24 ∧ m.testBit 23 = true ∧ m.testBit 0 = true ∧ ∀ x, x < 23 → 0 < x → m.testBit x = false) ∧
    ((askedIn [(5, .failed)] 0x0404 (rollPay 0x800001) 1 [0, 0]).reported (quireWin 0)).1 = .failed := by
  unfold GoesOn
  constructorm* _ ∧ _ <;> first | decide +kernel | (unfold Asks; decide +kernel)

theorem hyp_blockCommands :
    Asks (lingAsked State.reset (takenOf 0 0x0503 16384 lingPay)) 0 0x0503 (takenOf 0 0x0503 16384 lingPay) ∧
    (lingAsked State.reset (takenOf 0 0x0503 16384 lingPay)).lingHolder 0 = 0 ∧ (lingAsked State.reset (takenOf 0 0x0503 16384 lingPay)).blockCmds 0 = [] ∧
    Asks (lingAsked State.reset (takenOf 0 0x0601 16384 warrenPay)) 0 0x0601 (takenOf 0 0x0601 16384 warrenPay) ∧
    (lingAsked State.reset (takenOf 0 0x0601 16384 warrenPay)).warrenHolder 0 = 0 ∧ (lingAsked State.reset (takenOf 0 0x0601 16384 warrenPay)).wQueue 0 = [] ∧
    GoesOn (lingAsked State.reset (onward (takenOf 0 0x0503 16384 lingPay) 1 [])) 0 0x0503 (onward (takenOf 0 0x0503 16384 lingPay) 1 []) 1 [] ∧
    GoesOn (lingAsked State.reset (onward (takenOf 0 0x0601 16384 warrenPay) 1 [])) 0 0x0601 (onward (takenOf 0 0x0601 16384 warrenPay) 1 []) 1 [] ∧
    ((askedIn [] 0x0501 [3, 0] 0 []).setRf tedderWin 0x200 9 9 1).rf tedderWin 0x200 9 9 = 1 ∧
    ((askedIn [] 0x0501 [3, 0] 0 []).setRf tedderWin 0x200 9 9 1).spineServes = true ∧
    GoesOn (askedIn [] 0x0501 [3, 0] 2 []) 0 0x0501 (onward (takenOf 0 0x0501 16384 [3, 0]) 2 []) 2 [] ∧ (askedIn [] 0x0501 [3, 0] 2 []).tedder.loadWaiting = none ∧
    actionListed (BitVec.ofNat 128 ((takenOf 0 0x0503 16384 lingPay).pay 165 16)) = true ∧
    actionListed (BitVec.ofNat 128 ((takenOf 0 0x0503 16384 unlistedPay).pay 165 16)) = false ∧
    Asks (lingAsked State.reset (takenOf 0 0x0503 16384 unlistedPay)) 0 0x0503 (takenOf 0 0x0503 16384 unlistedPay) ∧
    (lingAsked (lingState [] [moveCmd 1]) (takenOf 0 0x0503 16384 lingPay)).blockCmds 0 ≠ [] ∧
    Asks (askedIn [(284, .inService)] 0x0B04 [3, 8, 0, 0] 0 []) 0 0x0B04 (takenOf 0 0x0B04 16384 [3, 8, 0, 0]) ∧ kindOf 284 = 0x09 ∧
    winOfPath (takenOf 0 0x0B04 16384 [3, 8, 0, 0]) 0 = some 284 ∧ (askedIn [(284, .inService)] 0x0B04 [3, 8, 0, 0] 0 []).inService 284 = true ∧
    (askedIn [(284, .inService)] 0x0B04 [3, 8, 0, 0] 0 []).busy 284 = false ∧ (askedIn [(284, .inService)] 0x0B04 [3, 8, 0, 0] 0 []).ancestorBusy 284 = false ∧
    GoesOn (askedIn [(284, .quiet)] 0x0B04 [3, 8, 0, 0] 1 [284]) 0 0x0B04 (onward (takenOf 0 0x0B04 16384 [3, 8, 0, 0]) 1 [284]) 1 [284] ∧
    GoesOn (askedIn [(284, .quiet)] 0x0B04 [3, 8, 0, 0] 2 [284]) 0 0x0B04 (onward (takenOf 0 0x0B04 16384 [3, 8, 0, 0]) 2 [284]) 2 [284] ∧
    (askedIn [(284, .quiet)] 0x0B04 [3, 8, 0, 0] 2 [284]).rf 284 0x104 30 30 = 0 := by
  constructorm* _ ∧ _ <;> first | decide +kernel | (unfold Asks; decide +kernel) | (unfold GoesOn; decide +kernel)

theorem test_mailbox_goes_on :
    leaves (.ucbCommand 0) (mail (withGath [(421, .inService)]) 0 (takenOf 0 0x0201 16384 [1, 16, 0, 0, 2, 0, 0, 0])) (fun u => decide ((u.gathOf 421).own = .quiescing ∧ (u.func 0).taken = [])) = true ∧
    leaves (.mbPortRecal 0) (askedIn [(280, .quiet)] 0x0303 [31] 0 []) (fun u => decide (u.rf 280 0x10C 30 30 = 1)) = true ∧
    leaves (.channelRetrain 0) (askedIn [(284, .quiet)] 0x0B04 [3, 8, 0, 0] 1 [284]) (fun u => decide ((u.func 0).taken.map Taken.phase = [2])) = true := by decide +kernel

/-! ### Functions and queue pairs -/

/-- The endpoint and Spine in service with the link up; host memory holds the bytes given at 0x1000; function f as given. -/
def hostState (data : List Byte) (f : Nat) (x : FuncSt) : State :=
  { withGath [(427, .inService), (428, .inService)] with
    funcs := [(f, x)]
    spine := { State.reset.spine with up := true, link := true, host := Memory.writeBytes [] 0x1000 data } }
def ringOf : FuncSt := { funcReset 3 with en := true, reqBase := 0x1000, reqTail := 1 }

theorem hyp_FunctionsReachTheDevice :
    (hostState [] 3 ringOf).inService pcieWin = true ∧ ((hostState [] 3 (funcReset 3)).func 3).en = false ∧ 4 ≤ (funcReset 3).reqLog ∧ (funcReset 3).rspLog ≤ 10 ∧
    ((hostState (entryOf 3 0x0101 0 []) 3 ringOf).func 3) = ringOf ∧ ringOf.credits = 4 ∧ ringOf.unread + 1 ≤ 2 ^ ringOf.rspLog ∧
    (hostState (entryOf 3 0x0101 0 []) 3 ringOf).hostUp = true ∧ (hostState (entryOf 3 0x0101 0 []) 3 ringOf).spineServes = true ∧
    (let e := (hostState (entryOf 3 0x0101 0 []) 3 ringOf).hostRead (ringOf.reqBase.toNat + 256 * (ringOf.reqHead % 2 ^ ringOf.reqLog)) 256
     (byteAt e 6).toNat = 3 ∧ (cmdRow (cmdOpcode e)).isSome = true) ∧
    (let e := (hostState (entryOf 3 0x0E01 0 []) 3 ringOf).hostRead 0x1000 256; (byteAt e 6).toNat = 3 ∧ cmdRow (cmdOpcode e) = none) ∧
    (let e := (hostState (entryOf 4 0x0101 0 []) 3 ringOf).hostRead 0x1000 256; (byteAt e 6).toNat ≠ 3) ∧
    ((hostState [] 3 (funcReset 3)).func 3).reqTail = ((hostState [] 3 (funcReset 3)).func 3).reqHead ∧ (hostState [] 3 ringOf).board.railsGood.getD 6 false = true ∧
    (let e := fitBytes ((entryOf 64 0x0101 0 []).take 128) 256; (byteAt e 6).toNat = 64 ∧ (cmdRow (cmdOpcode e)).isSome = true) ∧
    (hostState [] 0 (funcReset 0)).bar2Place 3 0 = none ∧ State.reset.spine.link ≠ true ∧ (hostState [] 3 ringOf).spine.link = true := by decide +kernel

/-- Records enabled, or Rick's slots of tenant 5 in table memory; function 3 is bound to tenant 5, or to 6. -/
def viewState (tenant : Nat) : State :=
  { hostState [] 3 { funcReset 3 with bound := some tenant } with
    gath := (windows 316 13).map (fun w => (w, gat .inService)) ++ [(423, gat .inService), (427, gat .inService), (428, gat .inService)]
    regs := [(tmcWin * 65536 + 0x100, 0x80040001), (tmcWin * 65536 + 0x104, 0x80000000), (sheafWin * 65536 + 0x104, 0x80000000), (sheafWin * 65536 + 0x200, 0x81010000)]
    mem := { State.reset.mem with table := [(0x44, 5)] } }

theorem hyp_bar2Read : (viewState 5).hostUp = true ∧ (viewState 5).bar2Place 3 0x20 = some 0x520 ∧ (viewState 5).bar2Place 3 0x100000040 = some 0x40 ∧
    (viewState 5).memAvail true 0x40 32 = .ok ∧ HasTokens (viewState 5) 5 1 1 ∧ ((viewState 5).func 3).bound = some (leNat (bytesAt ((viewState 5).memBytes true 0x40 32) 4 2)) ∧
    ((viewState 6).func 3).bound ≠ some (leNat (bytesAt ((viewState 6).memBytes true 0x40 32) 4 2)) := by
  unfold HasTokens; decide +kernel
theorem hyp_bar2Read_clean : CleanAccess (viewState 5) true 0x40 32 := clean_of_no_errors rfl _ _ _

theorem test_functions :
    leaves (.mbEntryFetch 3 false) (hostState (entryOf 3 0x0101 0 []) 3 ringOf) (fun u => decide ((u.func 3).reqHead = 1 ∧ (u.func 3).taken.length = 1)) = true ∧
    leaves (.mbEntryFetch 3 false) (hostState (entryOf 4 0x0101 0 []) 3 ringOf) (fun u => decide ((u.func 3).rspTail = 1 ∧ byteAt (u.hostRead 0 256) 8 = 3)) = true ∧
    leaves (.bar2Read 3 0x100000045) (viewState 5) (fun u => decide (u.readData = BitVec.ofNat 256 (5 * 2 ^ 32))) = true ∧
    leaves (.bar2Read 3 0x100000045) (viewState 6) (fun u => decide (u.readData = 0)) = true ∧
    leaves (.pcieLinkChange true) { State.reset with gath := [(427, gat .inService)] } (fun u => u.spine.link && decide (u.ev.raised = [868])) = true := by decide +kernel

theorem hyp_ringsAndBoard :
    ({ hostState [] 3 ringOf with gath := [(427, gat .quiescing), (428, gat .inService)] } : State).serving pcieWin = true ∧
    ({ hostState [] 3 ringOf with gath := [(427, gat .quiescing), (428, gat .inService)] } : State).hostTakes = false ∧
    (let x := (hostState [] 3 { ringOf with en := false, taken := [takenOf 3 0x0101 0 []] }).func 3; x.en = false ∧ x.taken ≠ []) ∧
    (hostState [] 3 ringOf).serving pcieWin = true ∧ (hostState [] 3 ringOf).hostTakes = true ∧ ringOf.restart = false ∧ ringOf.stopped = false ∧ ringOf.taken = [] ∧
    (let s : State := { hostState (entryOf 0 0x0101 0 []) 0 { ringOf with reqBase := 0x1000 } with
      gath := [(427, gat .inService)], spine := { (hostState (entryOf 0 0x0101 0 []) 0 ringOf).spine with up := false, rom := true } }
     s.spineServes = false ∧ s.spine.rom = true ∧ s.hostTakes = true ∧ (byteAt (s.hostRead 0x1000 256) 6).toNat = 0) ∧
    (let s : State := mail State.reset 64 (takenOf 64 0x0101 0 []); (s.func 64).taken ≠ [] ∧ s.board.railsGood.getD 6 false = true) ∧
    (let e := fitBytes ((entryOf 64 0x0109 0 []).take 128) 256; cmdOpcode e = 0x0109 ∧ (byteAt e 6).toNat = 64 ∧ (cmdRow (cmdOpcode e)).isSome = true) ∧
    (byteAt (fitBytes ((entryOf 3 0x0101 0 []).take 128) 256) 6).toNat ≠ 64 ∧ ((hostState [] 3 ringOf).func 64).taken = [] ∧
    (viewState 5).hostUp = true ∧ 0x300000000 ≤ (0x300000020 : BitVec 34).toNat / 32 * 32 := by decide +kernel

theorem hyp_bar2Ready : (viewState 5).memWaiting (unitNo (.activity pcieWin 5)) = [] ∧ (viewState 5).memAvail true 0x40 32 = .ok ∧
    ∀ p ∈ ((viewState 5).allPieces true 0x40 32).filterMap id, ((viewState 5).chan p.win).selfRefresh = none := by decide +kernel

theorem hyp_bar2Staged : HasTokens (viewState 5) 5 (bit Config.stagingInTable) 1 := by
  cases Config.stagingInTable <;> (unfold HasTokens; decide +kernel)
/-- As viewState, with an uncorrectable line. -/
def badView : State := let s := viewState 5; { s with mower := { s.mower with errs := [⟨317, 0, 0x40, 1, true, 0, 0⟩] } }
theorem hyp_bar2Poisoned : (badView.memRead true 0x40 32).1 = true ∧ badView.bar2Place 3 0x100000040 = some 0x40 ∧ badView.memAvail true 0x40 32 = .ok ∧
    badView.memWaiting (unitNo (.activity pcieWin 5)) = [] ∧ (∀ p ∈ (badView.allPieces true 0x40 32).filterMap id, (badView.chan p.win).selfRefresh = none) ∧
    HasTokens badView 5 1 1 := by
  unfold HasTokens; decide +kernel
/-- BAR2's staging view shows what is stored of the one image staged, where its place lies in the first lines of the view. -/
theorem hyp_staged : ∃ i : Image, ({ viewState 5 with trust := { State.reset.trust with images := [(3, i)] } } : State).trust.images = [(3, i)] ∧ i.kept ≠ [] :=
  ⟨⟨3, [1], []⟩, rfl, by decide⟩

/-- A descriptor: operation, length, device address; its host buffer is at 0x8000. -/
def descOf (op len dev : Nat) : List Byte := fitBytes ([BitVec.ofNat 8 op, 0, 0, 0] ++ leBytes 4 len ++ leBytes 8 0x8000 ++ leBytes 8 dev ++ leBytes 4 0x77) 64
/-- Queue pair 255 of function 3, of a kind, has a descriptor posted; the function's DMA window is of buffer memory. -/
def pairState (kind : Nat) (d : List Byte) (f : QpSt → QpSt) : State :=
  { hostState d 3 { funcReset 3 with windows := [(0, ⟨1, 0x83, 0, 0x10000⟩)], bound := some 5 } with
    qps := [(255, f { QpSt.zero with owner := some 3, kind := kind, sqBase := 0x1000, cqBase := 0x2000, sqLog := 4, cqLog := 4, sqTail := 1, stallUs := 10 })] }
def bufDesc : QpDesc := ⟨0, true, false, 0x77, 0x8000, 256, none, none⟩
/-- An output for queue pair 255 at port 32. -/
def hostOut (kind : Nat) (f : QpSt → QpSt) : State :=
  let s := pairState kind [] f
  { s with
    gath := [(422, gat .inService), (427, gat .inService), (428, gat .inService)]
    drover := { State.reset.drover with outs := [(2, ⟨{ outOf 3 255 with tenant := 5 }, 32, 88, 262144, .edited, List.replicate 100 7, 0, some 0, none, none⟩)] }
    ports := [(32, portOf [] [] [2])] }
def hostOutput : Output := ⟨{ outOf 3 255 with tenant := 5 }, 32, 88, 262144, .edited, List.replicate 100 7, 0, some 0, none, none⟩

theorem hyp_QueuePairsMoveData :
    HasPosted (pairState 1 (descOf 1 60 0) id) 255 1 ∧ (let d := postedDesc (pairState 1 (descOf 1 60 0) id) 255
      descOp d = 1 ∧ descClean d = true ∧ descLen d = 60 ∧ (pairState 1 (descOf 1 60 0) id).rxHeld 32 + 60 ≤ 32768) ∧
    (let d := postedDesc (pairState 1 (descOf 2 256 0) id) 255; descOp d = 2 ∧ descClean d = true ∧ descLen d = 256) ∧
    (let d := postedDesc (pairState 1 (descOf 2 255 0) id) 255; descOp d = 2 ∧ descLen d < 256) ∧
    (let d := postedDesc (pairState 1 (descOf 5 256 0) id) 255; descOp d ≠ 2 ∧ descOp d ≠ 1) ∧
    ((pairState 1 [] id).qp 255).owner = some 3 ∧ (pairState 1 [] id).inService pcieWin = true ∧
    (hostOut 1 id).finisherRuns = true ∧ (hostOut 1 id).readyOutput 32 = some (2, hostOutput) ∧ (hostOut 0 id).pairRefuses 255 5 = some 56 ∧
    (hostOut 1 id).pairRefuses 255 5 = none ∧ (hostOut 1 id).hostUp = true ∧ ((hostOut 1 id).qp 255).rxPlace 100 = none ∧ ((hostOut 1 id).qp 255).fullSince = none ∧
    ((hostOut 1 (fun x => { x with descs := [bufDesc] })).qp 255).rxPlace 100 = some [bufDesc] ∧
    (let s : State := { hostOut 1 (fun x => { x with fullSince := some 0 }) with time := { State.reset.time with cycles := 10000 } }
     (s.qp 255).fullSince = some 0 ∧ (s.qp 255).rxPlace 100 = none ∧ 0 + 1000 * (s.qp 255).stallUs ≤ s.time.cycles) ∧
    HasPosted (pairState 2 (descOf 3 8 (2 ^ 62)) id) 255 2 ∧
    (let d := postedDesc (pairState 2 (descOf 3 8 (2 ^ 62)) id) 255
     descOp d = 3 ∧ descMemOk d = true ∧ ((pairState 2 [] id).func 3).dmaOk (bitsOf (descDev d) 63 62) (bitsOf (descDev d) 47 0) (descLen d) false = true) ∧
    (let d := postedDesc (pairState 2 (descOf 4 8 (2 ^ 62 + 0xFFFC)) id) 255
     descOp d = 4 ∧ descMemOk d = true ∧ ((pairState 2 [] id).func 3).dmaOk (bitsOf (descDev d) 63 62) (bitsOf (descDev d) 47 0) (descLen d) true = false) ∧
    descMemOk (postedDesc (pairState 2 (descOf 4 4 (2 ^ 62)) id) 255) = false ∧
    ((pairState 2 [] (fun x => { x with descs := [bufDesc] })).qp 255).descs = [bufDesc] ∧ ((pairState 2 [] (fun x => { x with descs := [bufDesc] })).qp 255).room ≠ 0 ∧
    bufDesc.ended = none ∧ bufDesc.req = none ∧
    (let s : State := { pairState 2 [] id with mem := { State.reset.mem with done := [(9, ⟨[1], false, []⟩)] } }
     s.served 9 = true ∧ SMap.find s.mem.done 9 = some ⟨[1], false, []⟩) := by
  constructorm* _ ∧ _ <;> first | decide +kernel | (unfold HasPosted; decide +kernel)

theorem test_queue_pairs :
    leaves (.dmaTx 255) (pairState 1 (descOf 1 60 0) id) (fun u => decide ((u.port 32).rx.map (·.bytes.length) = [60])) = true ∧
    leaves (.dmaRxBuf 255) (pairState 1 (descOf 2 255 0) id) (fun u => decide ((u.qp 255).descs.map (·.ended) = [some (1, 0, false, 0)])) = true ∧
    leaves .port32Output (hostOut 1 (fun x => { x with descs := [bufDesc] })) (fun u => decide (u.hostRead 0x8000 101 = List.replicate 100 7 ++ [0])) = true ∧
    leaves (.dmaMemRead 255 false) (pairState 2 (descOf 3 8 (2 ^ 62)) id) (fun u => decide ((u.memWaiting (8192 + 255)).map (·.len) = [8])) = true ∧
    leaves (.descriptorComplete 255) (pairState 2 [] (fun x => { x with descs := [{ bufDesc with ended := some (0, 100, true, 9) }] })) (fun u =>
      decide (u.hostRead 0x2000 16 = [0, 0, 0, 3, 100, 0, 0, 0, 0x77, 0, 0, 0, 9, 0, 0, 0])) = true := by decide +kernel

theorem hyp_pairsWait :
    descLen (postedDesc (pairState 1 (descOf 1 59 0) id) 255) < 60 ∧ 9596 < descLen (postedDesc (pairState 1 (descOf 1 9597 0) id) 255) ∧
    16384 < descLen (postedDesc (pairState 1 (descOf 2 16385 0) id) 255) ∧ descClean (postedDesc (pairState 1 (descOf 34 256 0) id) 255) = false ∧
    HasPosted (pairState 2 (descOf 4 8 (2 ^ 62)) id) 255 2 ∧ (let d := postedDesc (pairState 2 (descOf 4 8 (2 ^ 62)) id) 255
      descOp d = 4 ∧ descMemOk d = true ∧ ((pairState 2 [] id).func 3).dmaOk (bitsOf (descDev d) 63 62) (bitsOf (descDev d) 47 0) (descLen d) true = true) ∧
    (let d := postedDesc (pairState 2 (descOf 3 8 (2 ^ 62 + 0xFFFC)) id) 255
     descMemOk d = true ∧ ((pairState 2 [] id).func 3).dmaOk (bitsOf (descDev d) 63 62) (bitsOf (descDev d) 47 0) (descLen d) false = false) ∧
    (pairState 1 [] id).hostTakes = true ∧ (pairState 1 [] id).serving pcieWin = true ∧ (hostOut 1 id).hostTakes = true ∧
    ((pairState 1 [] (fun x => { x with descs := [{ bufDesc with ended := some (0, 100, true, 9) }] })).qp 255).descs = [{ bufDesc with ended := some (0, 100, true, 9) }] ∧
    ((pairState 2 [] (fun x => { x with descs := [{ bufDesc with req := some 9 }] })).qp 255).descs = [{ bufDesc with req := some 9 }] := by
  and_intros <;> decide +kernel

theorem hyp_pairsEnd :
    (∀ m ∈ [(⟨[], true, [(0, 2)]⟩ : MemDone), ⟨[1, 2], true, [(0, 2)]⟩],
      let s : State := { pairState 2 [] (fun x => { x with descs := [{ bufDesc with req := some 9 }] }) with mem := { State.reset.mem with done := [(9, m)] } }
      s.served 9 = true ∧ SMap.find s.mem.done 9 = some m ∧ (s.qp 255).descs = [{ bufDesc with req := some 9 }] ∧ s.hostUp = true ∧ (s.qp 255).room ≠ 0) := by
  decide +kernel

/-- The supervisor of Quire 0 posts to the host's memory: an op of a length in shared memory; queue pair 9 is its Quire's; its oldest post as given. -/
def supState (w0 : Word64) (pair : Bool) (ops : List LeafOp) : State :=
  let s := leafAt 0 0 (fun th => { th with wait := .post 2, bank0 := [(0, w0), (2, 0x9000)], ops := ops })
  { s with
    gath := s.gath ++ [(427, gat .inService), (428, gat .inService)]
    quires := [(0, { QuireSt.zero with entries := some (0, 0, 0, 0), profiles := [(0, BitVec.ofNat 128 (2 ^ 119 + 3 * 2 ^ 116 + 16 * 2 ^ 64))], shared := [(3, 9)] })]
    qps := if pair then [(9, { QpSt.zero with owner := some 0, kind := 3 })] else []
    spine := { State.reset.spine with up := true, link := true } }
def dmaDone (word : Word32) (sp : Nat) : LeafOp := ⟨4, 0, .dma, sp, 5, some 31, 0, 8, 0x9000, word, List.replicate 8 6, none, 0⟩

theorem hyp_supervisorDma :
    (supState 0x804 false []).posting 0 2 = some ((supState 0x804 false []).thread 0) ∧ (supState 0x804 false []).supPair 0 = none ∧
    (supState 0x804 true []).supPair 0 = some (9, { QpSt.zero with owner := some 0, kind := 3 }) ∧ bitsOf 0x804 3 0 = 4 ∧ bitsOf 0x803 3 0 ≠ 4 ∧
    ((supState 0x80004 true []).thread 0).dmaOk 0x80004 8 = true ∧ ((supState 0x80004 true []).thread 0).dmaOk 0x80004 4 = false ∧
    (supState 0x80004 true []).windowCovers 0 0 0 0 8 true false = true ∧ (supState 0x80004 true []).windowCovers 0 0 1 0 8 true false = false ∧
    ((supState 0 true [dmaDone 0 0]).thread 0).ops.find? (fun o => decide (o.kind = .dma)) = some (dmaDone 0 0) ∧
    ((supState 0 true [dmaDone 3 0]).thread 0).ops.find? (fun o => decide (o.kind = .dma)) = some (dmaDone 3 0) ∧
    (supState 0 true [dmaDone 3 0]).errsIn (quireWin 0) 0 0 8 = [] ∧ (supState 0 true [dmaDone 3 0]).hostUp = true := by decide +kernel

theorem test_supervisor_dma :
    leaves (.supMemWrite 0) (supState 0x80004 false []) (fun u => decide ((u.thread 0).ops.map (fun o => (o.word, o.addr)) = [(0, 1)])) = true ∧
    leaves (.supDmaComplete 0) (supState 0 true [dmaDone 3 0]) (fun u => decide (u.hostRead 0x9000 8 = [0, 0, 0, 9, 0, 0, 0, 0])
      && decide ((u.thread 0).events = 0x80000000) && decide ((u.thread 0).g 5 = 0x800000000)) = true ∧
    leaves (.supDmaComplete 0) (supState 0 true [dmaDone 4 0]) (fun u => decide (Memory.readBytes (u.quire 0).shared 0 8 = List.replicate 8 6)) = true := by decide +kernel

/-- As supState, with one post of the rest of memory, served with an uncorrectable line. -/
def supDone (w : Word32) (d : Nat) : State :=
  { supState 0 true [{ dmaDone w 1 with dst := d }] with mem := { State.reset.mem with done := [(4, ⟨[1, 2], true, [(0, 2)]⟩)] } }
theorem hyp_supervisorDmaEnds (w : Word32) (d : Nat) :
    ((supDone w d).thread 0).ops.find? (fun o => decide (o.kind = .dma)) = some { dmaDone w 1 with dst := d } ∧ ((supDone w d).thread 0).orphans = [] ∧
    (supDone w d).served 4 = true ∧ SMap.find (supDone w d).mem.done 4 = some ⟨[1, 2], true, [(0, 2)]⟩ ∧ (supDone w d).hostUp = true :=
  ⟨rfl, rfl, rfl, rfl, rfl⟩

/-- As supState, with posts of a reset thread that still run, and profile 0 granting writes and table memory too. -/
def supMore (w0 : Word64) (a : Word64) (orphans : List LeafOp) : State :=
  let s := supState w0 true []
  { s with
    quires := [(0, { QuireSt.zero with
      entries := some (0, 0, 0, 0)
      profiles := [(0, BitVec.ofNat 128 (2 ^ 119 + 3 * 2 ^ 116 + 0x1000 * 2 ^ 64)), (1, BitVec.ofNat 128 (2 ^ 119 + 3 * 2 ^ 116 + 2 ^ 112 + 0x1000 * 2 ^ 64))] })]
    threads := s.threads.map (fun e => (e.1, { e.2 with orphans := orphans, bank0 := [(0, w0), (1, a), (2, 0x9000)] })) }


theorem hyp_supervisorPosts :
    (∀ w : Fin 2, (supMore 0x80004 0 []).windowCovers 0 0 w.val 0 8 (w.val = 1) (w.val = 0) = true) ∧
    (supMore 0x88004 0 []).windowCovers 0 0 2 0 8 false true = false ∧ ((supMore 0x44004 0 []).thread 0).dmaOk 0x84004 8 = true ∧
    (supMore 0x80004 0x39FFF8 []).posting 0 2 = some ((supMore 0x80004 0x39FFF8 []).thread 0) ∧
    ((supMore 0x80004 0x39FFF8 []).thread 0).bankWord 1 + 8 ≤ 0x3A0000 ∧ ((supMore 0x80004 0x39FFF8 []).thread 0).bankWord 1 + 8 ≤ (supMore 0x80004 0 []).spaceSize 0 ∧
    ((supMore 0x80004 0 []).thread 0).ops.countP (fun o => o.kind = .dma) + ((supMore 0x80004 0 []).thread 0).orphans.length < 64 ∧
    bitsOf 0x80004 39 16 = 8 ∧ bitsOf 0x84004 15 14 = 1 ∧ bitsOf 0x80004 15 14 = 0 ∧ (supMore 0x84004 0 []).hostUp = true ∧
    ((supMore 0 0 [dmaDone 0 0]).thread 0).orphans = [dmaDone 0 0] ∧ (dmaDone 0 0).word = 0 ∧ ((supMore 0 0 [dmaDone 4 0]).thread 0).orphans = [dmaDone 4 0] ∧
    ((supState 0 true [dmaDone 4 1]).thread 0).ops.find? (fun o => decide (o.kind = .dma)) = some (dmaDone 4 1) ∧
    (let s : State := { supState 0 true [dmaDone 4 1] with mem := { State.reset.mem with done := [(4, ⟨[1], false, []⟩)] } }
     s.served 4 = true ∧ SMap.find s.mem.done 4 = some ⟨[1], false, []⟩) := by decide +kernel

theorem test_supervisor_posts :
    leaves (.supMemWrite 0) (supMore 0x80004 0 []) (fun u => decide ((u.thread 0).ops.map (fun o : LeafOp => (o.word, o.addr, o.len)) = [(4, 0, 8)])) = true ∧
    leaves (.supMemWrite 0) (supMore 0x84004 0 []) (fun u => decide ((u.memWaiting (8192 + 9)).map (·.len) = [8])) = true ∧
    leaves (.supMemWrite 0) (supMore 0x80004 0x39FFFC []) (fun u => decide ((u.thread 0).ops.map (fun o : LeafOp => (o.word, o.addr)) = [(0, 2)])) = true ∧
    leaves (.supDmaComplete 0) (supMore 0 0 [dmaDone 4 0]) (fun u => decide ((u.thread 0).orphans = []) && decide ((u.thread 0).events = 0)
      && decide (Memory.readBytes (u.quire 0).shared 0 8 = List.replicate 8 6)) = true := by decide +kernel

/-! ### Events -/

/-- Sources 896 and 897 are routed to Spine, unmasked, with a gap of 2 microseconds and stuck after 3 milliseconds; the rest as given. -/
def eventState (ev : EventSt) (mask status : Word32) (now : Nat) : State :=
  { State.reset with
    regs := [(spineWin * 65536 + 0x170, status), (spineWin * 65536 + 0x1EC, mask), (spineWin * 65536 + 0x1F0, mask), (spineWin * 65536 + 0x1000 + 4 * 896, 0x40000000),
      (spineWin * 65536 + 0x2000 + 4 * 865, 0x30002), (spineWin * 65536 + 0x2000 + 4 * 896, 0x30002)]
    time := { State.reset.time with cycles := now }
    ev := ev
    board := { State.reset.board with warn := true } }
def noEvents : EventSt := State.reset.ev

theorem hyp_EventsAssertAndAreDelivered :
    896 ∈ (eventState { noEvents with raised := [896] } 0 0 0).ev.raised ∧ 865 ∉ (eventState noEvents 0 0 0).ev.raised ∧ (eventState noEvents 0 0 0).levelOf 865 = true ∧
    SMap.find (eventState noEvents 0 0 0).ev.level 865 = none ∧
    (let s := eventState { noEvents with coalesced := [896], gapEnd := [(896, 2000)] } 0xFFFFFFFE 1 2000
     s.inGap 896 = false ∧ 896 ∈ s.ev.coalesced ∧ s.evStatus 896 = true ∧ s.evMasked 896 = false) ∧
    (eventState { noEvents with gapEnd := [(896, 2000)] } 0 0 1999).inGap 896 = true ∧
    (let s := eventState { noEvents with level := [(865, 0)] } 0 0 3000001
     SMap.find s.ev.level 865 = some 0 ∧ s.evStuckNs 865 = 3000000 ∧ 0 + s.evStuckNs 865 < s.time.cycles ∧ s.levelOf 865 = true ∧ s.evMasked 865 = false) ∧
    (let s := eventState noEvents 1 1 0; s.seesEvent 0 896 = true ∧ s.evMasked 896 = true ∧ s.evStatus 896 = true) ∧
    (255 : BitVec 8).toNat < vectorsOf 0 ∧ (7 : BitVec 8).toNat < vectorsOf 63 := by decide +kernel

theorem test_events :
    leaves (.eventAssert 896) (eventState { noEvents with raised := [896] } 0 0 0) (fun u => u.evStatus 896 && decide (u.ev.toSpine = [896]) && decide (SMap.find u.ev.gapEnd 896 = some 2000)) = true ∧
    leaves (.eventAssert 896) (eventState { noEvents with raised := [896], gapEnd := [(896, 2000)] } 0 0 1999) (fun u => decide (u.reg spineWin 0x284 = 1) && decide (u.ev.toSpine = [])) = true ∧
    leaves (.eventStuck 865) (eventState { noEvents with level := [(865, 0)] } 0 0 3000001) (fun u => u.evMasked 865 && decide (u.ev.raised = [864])) = true ∧
    leaves (.evtMaskWrite 0 28 0) (eventState noEvents 1 1 0) (fun u => decide (u.ev.toSpine = [896])) = true := by decide +kernel

theorem hyp_EventsAssertAndAreDelivered_more :
    (let s := eventState { noEvents with coalesced := [896], gapEnd := [(896, 2000)] } 1 1 2000; s.inGap 896 = false ∧ s.evMasked 896 = true) ∧
    (let s := eventState { noEvents with coalesced := [896] } 0 0 2000; s.inGap 896 = false ∧ s.evStatus 896 = false) ∧
    (eventState noEvents 0 0 0).inGap 896 = false ∧ 896 ∉ (eventState noEvents 0 0 0).ev.coalesced ∧
    (eventState noEvents 0 1 0).evStatus 896 = true ∧ (eventState noEvents 0 1 0).seesEvent 0 896 = true ∧ (eventState noEvents 0 1 0).seesEvent 5 896 = false := by decide +kernel

/-- A source that asserts in the cycle in which its status is cleared keeps it; one that does not is cleared. -/
theorem test_status_clear :
    leaves (.evtStatusClear 0 28 ⟨1, 1⟩) (eventState noEvents 0 1 0) (fun u => u.evStatus 896) = true ∧
    leaves (.evtStatusClear 0 28 ⟨1, 0⟩) (eventState noEvents 0 1 0) (fun u => !u.evStatus 896) = true := by decide +kernel

/-! ### Device time -/

/-- The time unit: source, window, slope, the step written, the offset; with its running part as given. -/
def timeState (step : Word64) (t : TimeSt) : State :=
  { State.reset with
    regs := [(timeWin * 65536 + 0x110, 0x800003E8), (timeWin * 65536 + 0x118, 500000), (timeWin * 65536 + 0x120, step.setWidth 32), (timeWin * 65536 + 0x124, (step >>> 32).setWidth 32)]
    time := t }
def noTime : TimeSt := State.reset.time

theorem hyp_DeviceTimeIsKeptAndDisciplined :
    ((timeState 0 noTime).reg timeWin 0x118).toInt.natAbs ≤ 500000 ∧ (timeState 0 { noTime with slewHalf := 2 }).time.slewHalf ≠ 0 ∧
    (timeState 0 noTime).stepWritten = 0 ∧ (timeState (2 ^ 50) noTime).stepWritten = 2 ^ 50 ∧ (timeState (-1000000000) noTime).stepWritten = -1000000000 ∧
    (timeState (2 ^ 50 + 1) noTime).stepWritten = 2 ^ 50 + 1 ∧ (timeState 0 { noTime with ns := 1000000000 }).time.seconds < 1000000000 / 1000000000 ∧
    (timeState 0 noTime).timeSource = 2 ∧ (timeState 0 noTime).rf timeWin 0x110 15 0 = 1000 ∧
    (((timeState 0 { noTime with ns := 999999000 }).time.ns.toNat : Int) - ((timeState 0 { noTime with ns := 999999000 }).reg timeWin 0x114).toInt = -1000 + 1000000000 * 1) ∧
    (((timeState 0 { noTime with ns := 1001 }).time.ns.toNat : Int) - ((timeState 0 { noTime with ns := 1001 }).reg timeWin 0x114).toInt = 1001 + 1000000000 * 0) ∧
    (let s := timeState 0 { noTime with ppsOk := true, lastPps := some 0, cycles := 1100000000 }; s.time.ppsOk = true ∧ 0 + 1100000000 ≤ s.time.cycles) ∧
    (timeState 0 { noTime with refOk := true }).time.refOk = true ∧ (500000 : BitVec 32).toInt.natAbs ≤ 500000 := by decide +kernel

/-- What a test asks of the state that a step of an idle block leaves. -/
def idles (s : State) (p : State → Bool) : Bool := match step s with | .next u => p u | _ => false

theorem test_time :
    idles (timeState 0 { noTime with frac := 999500000 }) (fun u => decide (u.time.ns = 2 ∧ u.time.frac = 0 ∧ u.time.cycles = 1)) = true ∧
    idles (timeState 0 { noTime with slewHalf := 2, frac := 500000000 }) (fun u => decide (u.time.ns = 1 ∧ u.time.slewHalf = 1)) = true ∧
    leaves .timeStepGo (timeState (-5) noTime) (fun u => decide (u.time.ns = 0 ∧ u.time.slewHalf = 10)) = true ∧
    leaves .ppsEdge (timeState 0 { noTime with ns := 999999000 }) (fun u => decide (u.time.ns = 1000000000) && decide (u.reg timeWin 0x130 = BitVec.ofInt 32 (-1000))) = true ∧
    leaves .ppsEdge (timeState 0 { noTime with ns := 1001 }) (fun u => decide (u.time.ns = 1001) && decide (u.reg timeWin 0x144 = 1)) = true := by decide +kernel

theorem hyp_DeviceTimeIsKeptAndDisciplined_more :
    (let s : State := { timeState 0 { noTime with ppsOk := true, lastPps := some 0, cycles := 1100000000 } with
       board := { State.reset.board with railsGood := List.replicate 6 true ++ [false, true] } }
     s.timeSource = 2 ∧ s.board.railsGood.getD 6 false = false ∧ s.time.ppsOk = true ∧ 0 + 1100000000 ≤ s.time.cycles) ∧
    (let s := timeState 0 { noTime with ppsOk := true, lastPps := some 0, cycles := 1099999999 }
     s.board.railsGood.getD 6 false = true ∧ s.time.lastPps = some 0 ∧ s.time.cycles < 0 + 1100000000) ∧
    (timeState 0 { noTime with ns := 1000 }).time.slewHalf = 0 ∧ (timeState 0 { noTime with ns := 1000 }).time.frac < 1000000000 ∧
    (((timeState 0 { noTime with ns := 1000 }).time.ns.toNat : Int) - ((timeState 0 { noTime with ns := 1000 }).reg timeWin 0x114).toInt = 1000 + 1000000000 * 0) ∧
    (((timeState 0 { noTime with ns := 0 }).time.ns.toNat : Int) - ((timeState 0 noTime).reg timeWin 0x114).toInt = 0 + 1000000000 * 0) ∧
    (timeState (-1000000001) noTime).stepWritten = -1000000001 := by decide +kernel

theorem test_pps_supply :
    leaves .ppsEdge { timeState 0 { noTime with ppsOk := true, lastPps := some 0, cycles := 1100000000 } with
      board := { State.reset.board with railsGood := List.replicate 6 true ++ [false, true] } } (fun u => !u.time.ppsOk && decide (u.ev.raised = [849])) = true := by
  decide +kernel

/-- A forward step during a slew takes the slew up first: one of less leaves some of it, one of more ends it. -/
theorem hyp_stepInSlew :
    (timeState 3 { noTime with slewHalf := 10 }).stepWritten = 3 ∧ (timeState 3 { noTime with slewHalf := 10 }).time.slewHalf ≠ 0 ∧
    (timeState 3 { noTime with slewHalf := 5 }).time.slewHalf = 5 := by decide +kernel

theorem test_stepInSlew :
    leaves .timeStepGo (timeState 3 { noTime with slewHalf := 10 }) (fun u => decide (u.time.slewHalf = 4 ∧ u.time.ns = 0)) = true ∧
    leaves .timeStepGo (timeState 3 { noTime with slewHalf := 5 }) (fun u => decide (u.time.slewHalf = 0 ∧ u.time.ns = 0 ∧ u.time.frac = 500000000)) = true := by
  decide +kernel

/-! ### Pins, sensors, trust -/

/-- GPIO input 15 is enabled, active high, with a filter of 100 ns and a gap of 50 ns; it is as given at a time. -/
def pinState (g : GpioSt) (now : Nat) : State :=
  { State.reset with
    regs := [(0xCF0, 0xC0000064), (0xCF4, 50)]
    time := { State.reset.time with cycles := now }
    board := { State.reset.board with gpio := [(15, g)] } }
def hotState : State := { withGath [(421, .inService)] with board := { State.reset.board with hot := true } }
def debugged (scope : Nat) : State :=
  { State.reset with trust := { State.reset.trust with sec := .debug, scope := scope }, spine := { State.reset.spine with folio := some graphImage } }

theorem hyp_PinsAndSensorsAct :
    (pinState ⟨true, 0, false, none, false⟩ 100).gpioHeld 15 = true ∧ (pinState ⟨true, 0, false, none, false⟩ 100).gpioActive 15 = true ∧
    (pinState ⟨true, 0, false, none, false⟩ 99).gpioHeld 15 = false ∧
    (pinState ⟨false, 0, true, none, false⟩ 100).gpioHeld 15 = true ∧ (pinState ⟨false, 0, true, none, false⟩ 100).gpioActive 15 = false ∧
    (∀ c : Bool, ((pinState ⟨true, 0, false, some 100, c⟩ 100).gpio 15).gapEnd = some 100) ∧
    (List.replicate 32 (120000 : BitVec 32)).length = 32 ∧ (120000 : BitVec 32).toInt = 120000 ∧ hotState.board.hot = true ∧ hotState.board.trip = false ∧
    State.reset.board.railsGood.getD 6 false = true ∧ (debugged 2).trust.scope.testBit 1 = true ∧ (debugged 1).trust.scope.testBit 1 = false ∧
    (State.reset.heldInReset = false ∨ State.reset.heldInReset = true) ∧ ({ State.reset with board := { State.reset.board with trip := true } } : State).heldInReset = true := by
  decide +kernel

theorem test_pins :
    leaves (.gpioFilterAccept 15) (pinState ⟨true, 0, false, none, false⟩ 100) (fun u => decide (u.ev.raised = [847]) && decide ((u.gpio 15).gapEnd = some 150)) = true ∧
    leaves (.gpioGapEnd 15) (pinState ⟨true, 0, true, some 100, true⟩ 100) (fun u => decide (u.ev.raised = [847])) = true ∧
    leaves (.sensorSample (List.replicate 32 120000)) State.reset (fun u => u.board.hot && u.board.crit && !u.board.trip) = true ∧
    leaves (.jtagInstruction (.other 9)) (debugged 1) (fun u => decide (u.board.jtag = .bypass)) = true ∧
    leaves (.jtagInstruction (.other 9)) (debugged 2) (fun u => decide (u.board.jtag = .other 9)) = true := by decide +kernel

theorem hyp_PinsAndSensorsAct_more :
    (let s := pinState ⟨true, 0, false, some 150, false⟩ 149
     s.gpioHeld 15 = true ∧ s.gpioActive 15 = true ∧ (s.gpio 15).gapEnd = some 150 ∧ s.time.cycles < 150) ∧
    (let s := pinState ⟨true, 0, false, some 150, false⟩ 150; s.gpioHeld 15 = true ∧ (s.gpio 15).gapEnd = some 150 ∧ 150 ≤ s.time.cycles) ∧
    (let s := pinState ⟨true, 0, true, some 100, true⟩ 149; (s.gpio 15).gapEnd = some 100 ∧ 100 < s.time.cycles ∧ (s.gpio 15).coalesced = true) ∧
    (let s := pinState ⟨false, 0, true, some 150, false⟩ 150; s.gpioHeld 15 = true ∧ s.gpioActive 15 = false ∧ s.time.cycles ≤ 150) ∧
    ((pinState ⟨true, 0, false, none, false⟩ 0).gpio 15).level ≠ false ∧
    (let s := pinState ⟨true, 140, false, some 150, true⟩ 150; s.gpioHeld 15 = false ∧ (s.gpio 15).coalesced = true) := by decide +kernel

theorem test_gap :
    leaves (.gpioFilterAccept 15) (pinState ⟨true, 0, false, some 150, false⟩ 149) (fun u => (u.gpio 15).coalesced && decide (u.ev.raised = [])) = true ∧
    leaves (.gpioGapEnd 15) (pinState ⟨true, 0, true, some 100, true⟩ 149) (fun u => decide (u.ev.raised = [847]) && decide ((u.gpio 15).gapEnd = some 150)) = true := by
  decide +kernel

theorem hyp_sensors :
    ({ hotState with board := { hotState.board with trip := true } } : State).board.hot = true ∧
    (∀ x ∈ List.replicate 32 (99999 : BitVec 32), x.toInt ≤ 99999) ∧ (99999 : BitVec 32).toInt = 99999 ∧
    (debugged 2).spine.folio.isSome = true ∧ (debugged 2).trust.sec = .debug ∧
    ({ State.reset with board := { State.reset.board with railsGood := List.replicate 6 true ++ [false, true] } } : State).board.railsGood.getD 6 false = false :=
  ⟨rfl, fun _ h => by rw [List.eq_of_mem_replicate h]; decide, by decide, rfl, rfl, rfl⟩
/-- A released trip needs a sample below 100 °C; a pair at 120 °C takes it back. -/
theorem test_trip_again :
    leaves (.sensorSample (List.replicate 32 99999)) { hotState with board := { hotState.board with trip := true } } (fun u => u.board.trip && u.board.cooled && !u.board.hot) = true ∧
    leaves (.sensorSample (List.replicate 32 120000)) { hotState with board := { hotState.board with trip := true, cooled := true } } (fun u => u.board.trip && !u.board.cooled) = true := by
  decide +kernel

/-- A challenge has been given; a key is held; a Folio is being left. -/
def trustState (now : Nat) : State :=
  { State.reset with
    time := { State.reset.time with cycles := now }
    keys := [(9, ⟨some (5, 1, []), 2⟩)]
    trust := { State.reset.trust with challenge := some ([], 0) } }
def folioOf (n : Nat) : Image := ⟨4, List.replicate n 0, []⟩
def upState (g : GState) (now : Nat) : State :=
  { withGath [(428, g)] with
    time := { State.reset.time with cycles := now }
    spine := { State.reset.spine with up := true, folio := some (folioOf 2), leaving := some (folioOf 1, 0) } }

theorem hyp_TrustResetsAndSupplies :
    State.reset.board.bootDue = true ∧ State.reset.heldInReset = false ∧ State.reset.board.latched % 4 ≠ 1 ∧ State.reset.verifyImage ⟨4, [], []⟩ ≠ none ∧
    ({ State.reset with board := { State.reset.board with latched := 0x81 } } : State).board.latched % 4 = 1 ∧
    (trustState 600000000000).trust.challenge = some ([], 0) ∧ 0 + 600000000000 ≤ (trustState 600000000000).time.cycles ∧ (trustState 599999999999).time.cycles < 0 + 600000000000 ∧
    State.reset.board.railsGood.length = 8 ∧ State.reset.board.volts.length = 8 ∧ (∀ k : Fin 8, State.reset.board.railsGood.getD k.val false = true) ∧
    ({ State.reset with board := { State.reset.board with railsGood := List.replicate 8 false } } : State).board.railsGood.getD 7 false = false ∧
    QuietAbove (upState .inService 0) spineWin ∧ (upState .inService 2000000000).spine.leaving = some (folioOf 1, 0) ∧ 0 + 2000000000 ≤ (upState .inService 2000000000).time.cycles ∧
    ((upState .starting 0).gathOf spineWin).own = .starting ∧ (upState .starting 0).heldInReset = false ∧
    (let s : State := { upState .inService 0 with spine := { (upState .inService 0).spine with leaving := none } }; s.spine.leaving = none ∧ s.spine.up = true) := by
  constructorm* _ ∧ _ <;> first | decide +kernel | (unfold QuietAbove; decide +kernel)

theorem hyp_spineRestart (f l : Nat) : ((upState .inService 0).func f).taken = [] ∧ (upState .inService 0).lock l = LockSt.free := ⟨rfl, rfl⟩

theorem test_trust :
    leaves .tamper (trustState 0) (fun u => decide (u.trust.sec = .locked) && u.trust.erased && decide ((u.keySlot 9).held = none) && decide ((u.keySlot 9).gen = 3)) = true ∧
    leaves .challengeExpiry (trustState 599999999999) (fun u => decide (u.trust.challenge = some ([], 0))) = true ∧
    leaves (.railLost 7) { State.reset with trust := { State.reset.trust with sec := .locked, banks := [[1]] } } (fun u => decide (u.trust.sec = .owned) && decide (u.trust.banks = [[1]])) = true ∧
    leaves .spineUpTimeout (upState .inService 1999999999) (fun u => decide (u.spine.folio = some (folioOf 2))) = true ∧
    leaves .spineUpTimeout (upState .inService 2000000000) (fun u => decide (u.spine.folio = some (folioOf 1))) = true := by decide +kernel

theorem hyp_TrustResetsAndSupplies_more :
    ({ State.reset with board := { State.reset.board with railsGood := List.replicate 6 true ++ [false, true] } } : State).board.railsGood.getD 6 false = false ∧
    ({ State.reset with board := { State.reset.board with railsGood := List.replicate 7 true ++ [false], latchDue := true } } : State).board.latchDue = true ∧
    (∀ w ∈ windows 249 32 ++ windows 245 4 ++ [pcieWin], QuietAbove State.reset w) ∧
    kindOf 284 = 0x09 ∧ kindOf 317 = 0x0B ∧ QuietAbove State.reset 284 ∧ QuietAbove State.reset 317 := by
  and_intros <;> first | decide +kernel | (unfold QuietAbove; decide +kernel)

/-- A KEY_INSTALL of the physical function is in the unwrap queue. -/
def unwrapState : State := mail State.reset 0 (onward (takenOf 0 0x0902 16384 []) 1 [0])
theorem hyp_tamper :
    State.reset.board.countEnd ≤ State.reset.time.cycles ∧ unwrapState.board.countEnd ≤ unwrapState.time.cycles ∧ unwrapState.unwrapping = [0] ∧
    (unwrapState.func 0).taken = [onward (takenOf 0 0x0902 16384 []) 1 [0]] ∧ unwrapState.hostUp = true ∧ State.reset.board.unlatched = false ∧
    State.reset.rf deviceWin 0x204 3 0 = 0 ∧ (State.reset.setRf deviceWin 0x204 3 0 3).rf deviceWin 0x204 3 0 ≠ 0 := by decide +kernel
theorem test_unwrapAborted :
    leaves .tamper unwrapState (fun u => decide ((u.func 0).taken = []) && decide (byteAt (u.hostRead (slotAt unwrapState 0) 256) 8 = 15)) = true := by decide +kernel

/-! ### Fallow and the invariant -/

/-- Ports 0 and 1 are Fallow's, of VLAN 1; Fallow is in a state (1 forwarding, 2 handing over); its table and what ports hold as given. -/
def fallowState (st : Nat) (table : List (Nat × Nat × Nat × Nat)) (held : List (Nat × List RxFrame)) (now : Nat) : State :=
  { withGath [(249, .inService), (250, .inService), (396, .inService), (397, .inService), (401, .inService), (402, .inService), (406, .inService), (407, .inService), (411, .inService),
      (416, .inService), (421, .inService), (422, .inService)] with
    regs := [(0x404, BitVec.ofNat 32 (st * 2 ^ 30)), (0x408, 0x00010000), (0x500, 0x80000001), (0x504, 0x80000001), (249 * 65536 + 0x104, 7), (250 * 65536 + 0x104, 7),
      (396 * 65536 + 0x1000, 0xC8110000)]
    time := { State.reset.time with cycles := now }
    fallow := { State.reset.fallow with table := table, held := held }
    board := { State.reset.board with latched := 0x84, bootDue := false } }
/-- A frame from station 2 to station 1, and its key. -/
def stationFrame (dst src : Nat) (ty : Nat) : List Byte := beBytes 6 dst ++ beBytes 6 src ++ beBytes 2 ty ++ List.replicate 46 0
def stationKey (n : Nat) : Nat := fallowKey 1 (beBytes 6 n)

theorem hyp_FallowForwardsAndHandsOver :
    (let s := fallowState 0 [] [] 150000000; s.heldInReset = false ∧ s.board.latched.testBit 2 = true ∧ s.fallowState = 0 ∧ s.board.powerAt + 150000000 ≤ s.time.cycles) ∧
    (let s := fallowState 1 [] [] 0; s.fallowPort 0 = true ∧ s.fallowOwns 0 = true ∧ s.fallowRuns = true ∧ s.fallowPeers 0 = [1]) ∧
    (let s : State := { fallowState 3 [] [] 0 with fallow := { State.reset.fallow with stopped := true } }; s.fallowOwns 0 = true ∧ s.fallowRuns = false) ∧
    etherType (stationFrame 1 2 0x8808) = 0x8808 ∧ etherType (stationFrame 1 2 0x800) ≠ 0x8808 ∧
    badTags 1 (stationFrame 1 2 0x88A8) 4096 12 = true ∧ badTags 1 (stationFrame 1 2 0x800) 4096 12 = false ∧ (byteAt (stationFrame 1 2 0x800) 6).getLsbD 0 = false ∧
    (∀ p : Fin 2, SMap.find (fallowState 1 [(stationKey 1, p.val, 0, 0)] [] 0).fallow.table (fallowKey 1 (bytesAt (stationFrame 1 2 0x800) 0 6)) = some (p.val, 0, 0)) ∧
    (let s := fallowState 1 [(stationKey 1, 0, 0, 0)] [] 1000000000; 0 + 1000000000 * s.rf deviceWin 0x408 31 16 ≤ s.time.cycles) ∧
    SMap.find (fallowState 1 [] [(0, [])] 0).fallow.held 0 = some [] ∧
    ({ fallowState 1 [] [] 0 with gath := [] } : State).handoverOk = false ∧
    (fallowState 1 [(stationKey 1, 0, 0, 0)] [] 0).handoverOk = true ∧ SMap.sorted (fallowState 1 [(stationKey 1, 0, 0, 0)] [] 0).fallow.table = true ∧
    (let s := fallowState 2 [] [] 0; s.fallowState = 2 ∧ s.copied = true ∧ s.fallow.held = [] ∧ s.toSwitch.head? = some 0) ∧
    (let s : State := { fallowState 2 [] [] 0 with gath := [] }; s.fallowState = 2 ∧ s.copied = true ∧ s.toSwitch = []) := by decide +kernel

theorem test_fallow :
    leaves (.fallowFrame 0 (stationFrame 1 2 0x8808)) (fallowState 1 [] [] 0) (fun u => decide (u.reg 249 0x210 = 1)) = true ∧
    leaves (.fallowFrame 0 (stationFrame 1 2 0x800)) (fallowState 1 [(stationKey 1, 1, 0, 0), (stationKey 2, 0, 0, 0)] [] 9) (fun u =>
      decide (u.fallowQueue 1 = [stationFrame 1 2 0x800]) && decide (SMap.find u.fallow.table (stationKey 2) = some (0, 9, 0))) = true ∧
    leaves (.fallowAge (stationKey 1)) (fallowState 1 [(stationKey 1, 0, 0, 0)] [] 999999999) (fun u => decide (u.fallow.table.length = 1)) = true ∧
    leaves (.fallowPortSwitch 0) (fallowState 2 [] [] 0) (fun u => decide (u.fallow.held = [(0, [])])) = true := by decide +kernel

theorem hyp_FallowForwardsAndHandsOver_more :
    (let s := fallowState 0 [] [] 150000000; Commandable s ∧ (s.gathOf deviceWin).cmd = none ∧ (s.gathOf deviceWin).tip = none ∧
      ∀ m ∈ 245 :: ({ s with gath := [] } : State).boundOf 245, (({ s with gath := [] } : State).gathOf m).own = .off ∧
        (({ s with gath := [] } : State).gathOf m).cmd = none ∧ (({ s with gath := [] } : State).gathOf m).tip = none) ∧
    (let s := fallowState 1 [(stationKey 1, 1, 0, 0)] [] 0; s.fallowLive = [(stationKey 1, 1, 0, 0)] ∧
      sumOf (s.fallowQueue 1) frameCells + frameCells (stationFrame 1 2 0x800) ≤ 2048 ∧ s.fallowCells + 32 * frameCells (stationFrame 1 2 0x800) ≤ 65536 ∧ 1 ∈ s.fallowPeers 0) ∧
    (let s := fallowState 1 [(stationKey 1, 1, 0, 0)] [] 2000000000; s.fallowLive = []) ∧
    (let s := fallowState 1 [(stationKey 1, 7, 0, 0)] [] 0; 7 ∉ s.fallowPeers 0 ∧ SMap.find s.fallowLive (stationKey 1) = some (7, 0, 0)) ∧
    (fallowState 1 [] [(0, [])] 0).fallowCells + frameCells (stationFrame 1 2 0x800) ≤ 65536 ∧
    (byteAt (stationFrame 1 0x10000000002 0x800) 6).getLsbD 0 = true ∧
    (let s := fallowState 1 [(stationKey 1, 0, 0, 0)] [] 0; s.warren.learns.length + s.fallowLive.length ≤ 1024 ∧ s.fallowLive ≠ []) ∧
    (let s := fallowState 2 [] [(0, [])] 0; SMap.find s.fallow.held 0 = some [] ∧ s.copied = true) ∧ (fallowState 2 [] [] 0).fallowRuns = true ∧
    (fallowState 2 [] [] 0).fallow.queues = [] := by
  and_intros <;> decide +kernel

theorem test_fallow_more :
    leaves (.fallowFrame 0 (stationFrame 1 2 0x800)) (fallowState 1 [(stationKey 1, 1, 0, 0)] [] 2000000000) (fun u =>
      decide (u.fallowQueue 1 = [stationFrame 1 2 0x800]) && decide (SMap.find u.fallow.table (stationKey 1) = none)) = true ∧
    leaves .fallowStop (fallowState 2 [] [] 0) (fun u => decide (u.fallowState = 3) && u.fallow.stopped) = true := by decide +kernel

/-- Fallow's rate lets a frame in where nothing has passed before it, and none where it has run further ahead than it may. -/
def fastState : State := let s := fallowState 1 [] [] 0; { s with fallow := { s.fallow with meter := (0, Config.fallowBurst.1 + 1, 0) } }
theorem hyp_fallowPaced : (fallowState 1 [] [] 0).fallowPaced = true ∧ fastState.fallowPaced = false := by
  have h : (fallowState 1 [] [] 0).time.cycles = 0 := rfl
  constructor
  · simp [fallowState, State.fallowPaced, State.fallowAhead, State.reset, withGath]
  · simp [State.fallowPaced, fastState, State.fallowAhead, h]
theorem hyp_fastState : fastState.fallowPort 0 = true ∧ fastState.fallowOwns 0 = true ∧ fastState.fallowRuns = true ∧ SMap.find fastState.fallow.held 0 = none := by
  decide +kernel
/-- Fallow starts once BOOT has run. -/
theorem hyp_fallowStarts : (let s := fallowState 0 [] [] 150000000; s.board.bootDue = false ∧ s.heldInReset = false) := by decide +kernel

theorem hyp_EveryStepKeepsTheFuses : (State.reset.trust.banks.length ≤ 4 ∧ 1 ≤ State.reset.trust.nextHandle ∧ State.reset.trust.nextHandle ≤ 65535 ∧
    (State.reset.trust.sec = .unowned → State.reset.trust.banks = []) ∧ State.reset.board.railsGood.length = 8 ∧ State.reset.board.volts.length = 8 ∧
    State.reset.board.sites.length = 32) ∧ (∀ c, State.reset.counter c = 0) ∧ State.reset.trust.sec ≠ .owned :=
  ⟨by decide +kernel, fun _ => rfl, by decide⟩
theorem hyp_EveryStepKeepsTheMemories : MemoryInv State.reset := ⟨rfl, rfl, rfl, rfl, rfl, fun _ => rfl, fun _ => rfl⟩
theorem hyp_steps : ∃ u, step State.reset = .next u := ⟨_, rfl⟩

end Sys2Proof.Tests
end

section
/-! Fields of register values, and the registers of a window after one of them is set (00, R6 to R12). -/

namespace Sys2Proof.Machine

/-! ### Fields -/

theorem bit_eq_one (b : Bool) : bit b = 1 ↔ b = true := by cases b <;> simp [bit]

theorem testBit_bit (b : Bool) (i : Nat) : (bit b).testBit i = (decide (i = 0) && b) := by
  cases b
  · simp [bit]
  · rw [Bool.eq_iff_iff, bit, if_pos rfl, Nat.testBit_one_eq_true_iff_self_eq_zero]; simp

theorem testBit_fld (v : Word32) (hi lo i : Nat) : (fld v hi lo).testBit i = (decide (i < hi - lo + 1) && v.getLsbD (lo + i)) := by
  simp [fld, bitsOf, Nat.testBit_mod_two_pow, BitVec.getLsbD]

theorem fld_lt (v : Word32) (hi lo : Nat) : fld v hi lo < 2 ^ (hi - lo + 1) := Nat.mod_lt _ (Nat.two_pow_pos _)

/-- A field of one bit is that bit. -/
theorem fld_one (v : Word32) (b : Nat) : fld v b b = bit (v.getLsbD b) := by
  refine Nat.eq_of_testBit_eq fun i => ?_
  rw [testBit_fld, testBit_bit]
  cases i <;> simp

theorem getLsbD_putFld (v : Word32) (hi lo x i : Nat) :
    (putFld v hi lo x).getLsbD i =
      if lo ≤ i ∧ i - lo < hi - lo + 1 ∧ i < 32 then x.testBit (i - lo) else v.getLsbD i := by
  simp only [putFld, BitVec.getLsbD_or, BitVec.getLsbD_and, BitVec.getLsbD_not, BitVec.getLsbD_ofNat, Nat.testBit_shiftLeft,
    Nat.testBit_two_pow_sub_one]
  by_cases h32 : i < 32
  · by_cases hlo : lo ≤ i <;> by_cases hhi : i - lo < hi - lo + 1 <;> simp [h32, hlo, hhi]
  · simp [h32, BitVec.getLsbD_of_ge _ _ (Nat.le_of_not_lt h32)]

/-- A bit that was put. -/
theorem getLsbD_putFld_bit (v : Word32) (b : Nat) (x : Bool) (i : Nat) :
    (putFld v b b (bit x)).getLsbD i = if i = b ∧ i < 32 then x else v.getLsbD i := by
  rw [getLsbD_putFld]
  by_cases h : i = b ∧ i < 32
  · rw [if_pos (by omega), if_pos h, h.1, Nat.sub_self, testBit_bit]; rfl
  · rw [if_neg (by omega), if_neg h]

/-- A field that was put is there, cut to its bits. -/
theorem fld_putFld_self (v : Word32) {hi lo : Nat} (x : Nat) (h : lo ≤ hi) (h' : hi < 32) :
    fld (putFld v hi lo x) hi lo = x % 2 ^ (hi - lo + 1) := by
  refine Nat.eq_of_testBit_eq fun i => ?_
  rw [testBit_fld, getLsbD_putFld, Nat.testBit_mod_two_pow]
  by_cases hi' : i < hi - lo + 1
  · simp [hi', show lo + i < 32 by omega]
  · simp [hi']

/-- A field that was put leaves every field beside it. -/
theorem fld_putFld_of_apart (v : Word32) {hi lo hi' lo' : Nat} (x : Nat) (hl : lo ≤ hi) (h : hi' < lo ∨ hi < lo') (h' : lo' ≤ hi') :
    fld (putFld v hi lo x) hi' lo' = fld v hi' lo' := by
  refine Nat.eq_of_testBit_eq fun i => ?_
  rw [testBit_fld, testBit_fld, getLsbD_putFld]
  by_cases hi : i < hi' - lo' + 1
  · rw [if_neg (by omega)]
  · simp [hi]

/-- A field put over the whole of a register value is the value. -/
theorem putFld_word (v w : Word32) : putFld v 31 0 (fld w 31 0) = w := by
  refine BitVec.eq_of_getLsbD_eq fun i hi => ?_
  rw [getLsbD_putFld, if_pos (by omega), testBit_fld]
  simp [show i < 31 - 0 + 1 by omega]

/-! ### Registers -/

@[simp] theorem State.reg_setReg_self (s : State) (w off : Nat) (v : Word32) : (s.setReg w off v).reg w off = v :=
  SMap.get_set_self _ _ _ _

theorem State.reg_setReg_of_ne (s : State) {w off x o : Nat} (v : Word32) (h : (x, o) ≠ (w, off)) (ho : o < 65536) (hoff : off < 65536) :
    (s.setReg w off v).reg x o = s.reg x o := by
  refine SMap.get_set_of_ne _ _ _ fun he => h ?_
  rw [Prod.mk.injEq]; omega

/-- Within a window, a register set leaves every register at another offset. -/
theorem State.reg_setReg_of_off_ne (s : State) (w : Nat) {off o : Nat} (v : Word32) (h : o ≠ off) :
    (s.setReg w off v).reg w o = s.reg w o :=
  SMap.get_set_of_ne _ _ _ fun he => h (by omega)

/-- A register is read from the store of registers alone. -/
theorem State.reg_of_regs {s u : State} (h : u.regs = s.regs) (w off : Nat) : u.reg w off = s.reg w off := by
  rw [State.reg, State.reg, h]

/-! ### Counters -/

theorem State.toNat_reg_countBy (s : State) (w off n : Nat) :
    ((s.countBy w off n).reg w off).toNat = min 0xFFFFFFFF ((s.reg w off).toNat + n) := by
  rw [State.countBy, State.reg_setReg_self, BitVec.toNat_ofNat, Nat.mod_eq_of_lt (by omega)]

theorem State.reg_count_of_off_ne (s : State) (w : Nat) {off o : Nat} (h : o ≠ off) : (s.count w off).reg w o = s.reg w o :=
  State.reg_setReg_of_off_ne _ _ _ h

/-- A condition that ends changes the part of the events only. -/
theorem State.settleLevel_frame (s : State) (src : Nat) : s.settleLevel src = { s with ev := (s.settleLevel src).ev } := by
  unfold State.settleLevel; split <;> rfl

@[simp] theorem State.reg_settleLevel (s : State) (src w off : Nat) : (s.settleLevel src).reg w off = s.reg w off := by
  rw [State.settleLevel_frame]; rfl

@[simp] theorem State.gath_settleLevel (s : State) (src : Nat) : (s.settleLevel src).gath = s.gath := by
  rw [State.settleLevel_frame]

end Sys2Proof.Machine
end

section
/-! The registers of the UCB: what a write of one of them comes to, and what a rejection captures (00, R6, R8, R11; 01, R17, R18). -/

namespace Sys2Proof.Machine

/-! ### The rules of the units' chapters do not reach the UCB -/

section
variable {off : Nat}

theorem not_le_of_ucb (h : off < 0x100) (n : Nat) (hn : 0x100 ≤ n) : ¬ n ≤ off := by omega
theorem ne_of_ucb (h : off < 0x100) (n : Nat) (hn : 0x100 ≤ n) : off ≠ n := by omega

theorem regAt_ucb (w : Win) (h : off < 0x100) : regAt w.val off = findIn regsUCB off := by
  rw [regAt, if_neg (by have := w.isLt; omega), if_pos h]

theorem stagesEntry_ucb (w : Nat) (h : off < 0x100) : stagesEntry w off = false := by
  unfold stagesEntry
  split <;> simp [not_le_of_ucb h, ne_of_ucb h]

theorem State.ruleOk_ucb (s : State) (w idx : Nat) (v : Word32) (h : off < 0x100) : s.ruleOk w off idx v = true := by
  unfold State.ruleOk
  split <;> simp [not_le_of_ucb h, ne_of_ucb h]

theorem State.wrote_ucb (s : State) (w : Win) (idx : Nat) (old v : Word32) (h : off < 0x100) : s.wrote w off idx old v = s := by
  unfold State.wrote
  split <;> simp [not_le_of_ucb h, ne_of_ucb h]

theorem State.newValue_ucb (s : State) (w idx : Nat) (r : RegRow) (v again : Word32) (h : off < 0x100) :
    s.newValue w off idx r v again = r.written (s.reg w off) v again := by
  simp [State.newValue, not_le_of_ucb h]

theorem State.ignores_ucb (s : State) (w idx : Nat) (h : off < 0x100) (h' : off ≠ 0x38) : s.ignores w off idx = false := by
  unfold State.ignores
  split <;> simp [not_le_of_ucb h, ne_of_ucb h, h']

end

/-! ### A write of a register of the UCB -/

theorem not_held {s : State} {w : Win} (hup : s.heldInReset = false ∨ w.val = 0) : ¬ (s.heldInReset = true ∧ w.val ≠ 0) := by
  rcases hup with h | h <;> simp [h]

/-- A write of a register of the UCB other than UCB_CTRL and UCB_SPARE_BIND, while its window takes writes: one of a listed encoding sets it as its
access codes say, and one of a reserved encoding is rejected (R6, R11). -/
theorem State.writeReg_ucb (s : State) (w : Win) {off idx : Nat} {r : RegRow} (v again : Word32) (hrow : findIn regsUCB off = some (r, idx))
    (h : off < 0x100) (hctrl : off ≠ 0x14) (hspare : off ≠ 0x38) (hup : s.heldInReset = false ∨ w.val = 0) :
    (s.writeReg w off v again).2 =
      if r.legal v then
        (let s1 := s.setReg w off (r.written (s.reg w off) v (if off = 0x20 then again &&& ~~~1 else again))
         if off = 0x20 then s1.writeSummary w v again else s1).settleLevel w
      else s.cfgReject w off := by
  simp only [State.writeReg, if_neg (not_held hup), regAt_ucb w h, hrow, not_le_of_ucb h, ne_of_ucb h, hctrl, stagesEntry_ucb w h, State.ruleOk_ucb _ _ _ _ h,
    State.wrote_ucb _ _ _ _ _ h, State.newValue_ucb _ _ _ _ _ _ h, State.ignores_ucb _ _ _ h hspare, Nat.reduceLeDiff, and_false, false_and,
    Bool.and_true, Bool.not_false, Bool.true_and, Bool.false_eq_true]
  cases r.legal v <;> simp

/-! ### Rejections (R11, R18) -/

theorem getLsbD_or_one (x : Word32) (b : Nat) : (x ||| 1).getLsbD b = (x.getLsbD b || decide (b = 0)) := by
  simp [BitVec.getLsbD_one]

theorem getLsbD_and_not_one (x : Word32) (b : Nat) : (x &&& ~~~1).getLsbD b = (x.getLsbD b && decide (b ≠ 0)) := by
  by_cases h : b < 32
  · rw [show (1 : Word32) = 1#32 from rfl, BitVec.getLsbD_and, BitVec.getLsbD_not, BitVec.getLsbD_one]
    simp [h, -BitVec.getLsbD_eq_getElem]
  · simp [BitVec.getLsbD_of_ge _ _ (Nat.le_of_not_lt h)]

theorem State.reg_setSummary_self (s : State) (w b : Nat) : (s.setSummary w b).reg w 0x20 = s.reg w 0x20 ||| BitVec.ofNat 32 (1 <<< b) :=
  State.reg_setReg_self _ _ _ _

theorem State.reg_setSummary_of_ne (s : State) (w b : Nat) {o : Nat} (h : o ≠ 0x20) : (s.setSummary w b).reg w o = s.reg w o :=
  State.reg_setReg_of_off_ne _ _ _ h

section
variable (s : State) (w off : Nat)

@[simp] theorem State.gath_cfgReject : (s.cfgReject w off).gath = s.gath := rfl

/-- A rejection sets cfg_reject and no other bit of the event summary. -/
theorem State.summary_cfgReject : (s.cfgReject w off).reg w 0x20 = s.reg w 0x20 ||| 1 := by
  rw [State.cfgReject, State.reg_setSummary_self, State.reg_setReg_of_off_ne _ _ _ (by decide)]; rfl

theorem State.reg_cfgReject_of_ne {o : Nat} (h : o ≠ 0x20) (h' : o ≠ 0x28) : (s.cfgReject w off).reg w o = s.reg w o := by
  rw [State.cfgReject, State.reg_setSummary_of_ne _ _ _ h, State.reg_setReg_of_off_ne _ _ _ h']

/-- The first rejection since cfg_reject was clear is the one captured. -/
theorem State.captured_cfgReject_first (h : (s.reg w 0x20).getLsbD 0 = false) (hoff : off < 65536) :
    fld ((s.cfgReject w off).reg w 0x28) 15 0 = off ∧ fld ((s.cfgReject w off).reg w 0x28) 31 16 = 1 := by
  have hreg : (s.cfgReject w off).reg w 0x28 = putFld (putFld 0 15 0 off) 31 16 1 := by
    rw [State.cfgReject, State.reg_setSummary_of_ne _ _ _ (by decide), State.reg_setReg_self]
    simp [fld_one, h, bit, -BitVec.getLsbD_eq_getElem]
  rw [hreg, fld_putFld_of_apart _ _ (by decide) (by decide) (by decide), fld_putFld_self _ _ (by decide) (by decide),
    fld_putFld_self _ _ (by decide) (by decide)]
  exact ⟨Nat.mod_eq_of_lt hoff, rfl⟩

/-- While cfg_reject is set, what was captured stays and a rejection is counted. -/
theorem State.captured_cfgReject_later (h : (s.reg w 0x20).getLsbD 0 = true) :
    fld ((s.cfgReject w off).reg w 0x28) 15 0 = s.rf w 0x28 15 0 ∧
    fld ((s.cfgReject w off).reg w 0x28) 31 16 = min 0xFFFF (s.rf w 0x28 31 16 + 1) := by
  have hreg : (s.cfgReject w off).reg w 0x28 = putFld (s.reg w 0x28) 31 16 (min 0xFFFF (s.rf w 0x28 31 16 + 1)) := by
    rw [State.cfgReject, State.reg_setSummary_of_ne _ _ _ (by decide), State.reg_setReg_self]
    simp [fld_one, h, bit, State.rf, -BitVec.getLsbD_eq_getElem]
  rw [hreg, fld_putFld_of_apart _ _ (by decide) (by decide) (by decide), fld_putFld_self _ _ (by decide) (by decide)]
  exact ⟨rfl, Nat.mod_eq_of_lt (by omega)⟩

end

/-! ### The rows of the UCB that the statements name -/

theorem legal_drainLimit (v : Word32) : rUcbDrainLimit.legal v = true := rfl
theorem legal_cmdStatus (v : Word32) : rUcbCmdStatus.legal v = true := rfl
theorem legal_eventSummary (v : Word32) : rUcbEventSummary.legal v = true := rfl

/-- UCB_UPDATE_SLOT lists the kinds 0 to 6 of an image. -/
theorem legal_updateSlot (v : Word32) : rUcbUpdateSlot.legal v = decide (fld v 31 24 ≤ 6) := by
  simp [RegRow.legal, rUcbUpdateSlot]

theorem written_drainLimit (old v again : Word32) : rUcbDrainLimit.written old v again = v := putFld_word old v
theorem written_cmdStatus (old v again : Word32) : rUcbCmdStatus.written old v again = old := rfl

/-- UCB_EVENT_SUMMARY takes ones as clears, but where the source asserts again. -/
theorem getLsbD_written_summary (old v again : Word32) {b : Nat} (h : b ∈ [0, 1, 2, 3, 4, 5, 8]) :
    (rUcbEventSummary.written old v again).getLsbD b = ((old.getLsbD b && !v.getLsbD b) || again.getLsbD b) := by
  simp only [List.mem_cons, List.not_mem_nil, or_false] at h
  rcases h with rfl | rfl | rfl | rfl | rfl | rfl | rfl <;>
    simp [RegRow.written, rUcbEventSummary, getLsbD_putFld_bit, fld_one, -BitVec.getLsbD_eq_getElem]

section
variable (s : State) (w : Nat) (v : Word32) {again : Word32}

/-- What was captured goes with cfg_reject (R18). -/
def State.captureCleared (s : State) (w : Nat) (v : Word32) : State := if v.getLsbD 0 then s.setReg w 0x28 0 else s

theorem State.writeSummary_of_quiet (h : again.getLsbD 0 = false) : s.writeSummary w v again = s.captureCleared w v := by
  simp [State.writeSummary, State.captureCleared, fld_one, bit_eq_one, h, -BitVec.getLsbD_eq_getElem]

theorem State.writeSummary_of_rejection (h : again.getLsbD 0 = true) :
    s.writeSummary w v again = (s.captureCleared w v).cfgReject w (fld again 31 16) := by
  simp [State.writeSummary, State.captureCleared, fld_one, bit_eq_one, h, -BitVec.getLsbD_eq_getElem]

theorem State.summary_captureCleared : (s.captureCleared w v).reg w 0x20 = s.reg w 0x20 := by
  unfold State.captureCleared
  split
  · exact State.reg_setReg_of_off_ne _ _ _ (by decide)
  · rfl

theorem State.captured_captureCleared : (s.captureCleared w v).reg w 0x28 = if v.getLsbD 0 then 0 else s.reg w 0x28 := by
  unfold State.captureCleared
  split <;> simp

end

end Sys2Proof.Machine

namespace Sys2Proof.Safety

open Sys2Proof.Machine

/-! ### The rows REGISTER_WRITE, RC_READ, RESERVED_ACCESS and CAPTURE_READ -/

/-- The registers beside one are as they were. -/
def OtherRegs (s u : State) (w : Win) (off : Nat) : Prop := ∀ x o, (x, o) ≠ (w.val, off) → o < 65536 → u.reg x o = s.reg x o

theorem otherRegs_setReg (s : State) (w : Win) {off : Nat} (v : Word32) (hoff : off < 65536) : OtherRegs s (s.setReg w off v) w off :=
  fun _ _ h ho => State.reg_setReg_of_ne s v h ho hoff

section
variable (s : State) (w : Win) (v again : Word32)

/-- A write of a UCB register that holds one value and no events, of a listed encoding: that register is set and no other (R6). -/
theorem registerWrite_sets {off : BitVec 16} {r : RegRow} {idx : Nat} (hrow : findIn regsUCB off.toNat = some (r, idx)) (h : off.toNat < 0x100)
    (hctrl : off.toNat ≠ 0x14) (hspare : off.toNat ≠ 0x38) (hsum : off.toNat ≠ 0x20) (hlegal : r.legal v = true)
    {x : Word32} (hx : r.written (s.reg w off.toNat) v again = x) (hup : s.heldInReset = false ∨ w.val = 0) :
    Leaves (.registerWrite (.unit w off) v again) s (fun u =>
      u.reg w off.toNat = x ∧ OtherRegs s u w off.toNat ∧ u.gath = s.gath) := by
  refine ⟨_, rfl, ?_⟩
  rw [State.writeReg_ucb s w v again hrow h hctrl hspare hup, if_pos hlegal, if_neg hsum, if_neg hsum, hx]
  refine ⟨by simp, fun y o hne ho => ?_, by simp [State.setReg]⟩
  rw [State.reg_settleLevel, otherRegs_setReg s w _ off.isLt y o hne ho]

/-- A write of a reserved encoding is discarded, raises cfg_reject and is captured (R11, R18). -/
theorem registerWrite_rejected {off : BitVec 16} (hw : (s.writeReg w off.toNat v again).2 = s.cfgReject w off.toNat) (hsum : off.toNat ≠ 0x20)
    (hcap : off.toNat ≠ 0x28) :
    Leaves (.registerWrite (.unit w off) v again) s (fun u => u.reg w off.toNat = s.reg w off.toNat ∧ u.gath = s.gath ∧
      (u.reg w 0x20).getLsbD 0 = true ∧
      ((s.reg w 0x20).getLsbD 0 = false → fld (u.reg w 0x28) 15 0 = off.toNat ∧ fld (u.reg w 0x28) 31 16 = 1) ∧
      ((s.reg w 0x20).getLsbD 0 = true → fld (u.reg w 0x28) 15 0 = s.rf w 0x28 15 0 ∧
        fld (u.reg w 0x28) 31 16 = min 0xFFFF (s.rf w 0x28 31 16 + 1))) := by
  refine ⟨_, rfl, ?_⟩
  rw [hw]
  refine ⟨State.reg_cfgReject_of_ne s w _ hsum hcap, rfl, ?_, fun h => State.captured_cfgReject_first s w _ h off.isLt,
    State.captured_cfgReject_later s w _⟩
  simp [State.summary_cfgReject]

section
variable (hup : s.heldInReset = false ∨ w.val = 0)
include hup

theorem writeReg_ctrl_reserved (h : 8 ≤ fld v 3 0) : (s.writeReg w 0x14 v again).2 = s.cfgReject w 0x14 := by
  have hrow : regAt w.val 0x14 = some (rUcbCtrl, 0) := regAt_ucb w (by decide)
  rw [State.writeReg, if_neg (not_held hup)]
  simp [hrow, State.writeCtrl, h]

theorem writeReg_updateSlot_reserved (h : 6 < fld v 31 24) : (s.writeReg w 0x30 v again).2 = s.cfgReject w 0x30 := by
  rw [State.writeReg_ucb s w v again (r := rUcbUpdateSlot) (idx := 0) rfl (by decide) (by decide) (by decide) hup, legal_updateSlot, if_neg (by simp; omega)]

/-- A write of UCB_EVENT_SUMMARY: ones clear, but where the source asserts again; what was captured goes with cfg_reject, and a rejection that
arrives as cfg_reject is clear or cleared is the one captured (R8, R18). -/
theorem registerWrite_summary :
    Leaves (.registerWrite (.unit w 0x20) v again) s (fun u =>
      (∀ b ∈ [0, 1, 2, 3, 4, 5, 8], (u.reg w 0x20).getLsbD b = (((s.reg w 0x20).getLsbD b && !v.getLsbD b) || again.getLsbD b)) ∧
      (again.getLsbD 0 = false → u.reg w 0x28 = (if v.getLsbD 0 then 0 else s.reg w 0x28)) ∧
      (again.getLsbD 0 = true → v.getLsbD 0 = true ∨ (s.reg w 0x20).getLsbD 0 = false →
        fld (u.reg w 0x28) 15 0 = fld again 31 16 ∧ fld (u.reg w 0x28) 31 16 = 1)) := by
  refine ⟨_, rfl, ?_⟩
  rw [show (0x20 : BitVec 16).toNat = 0x20 from rfl, State.writeReg_ucb s w v again (r := rUcbEventSummary) (idx := 0) rfl (by decide) (by decide) (by decide) hup,
    if_pos (legal_eventSummary v), if_pos rfl, if_pos rfl]
  have hwritten : ∀ b ∈ [0, 1, 2, 3, 4, 5, 8], (rUcbEventSummary.written (s.reg w 0x20) v (again &&& ~~~1)).getLsbD b =
      (((s.reg w 0x20).getLsbD b && !v.getLsbD b) || (again.getLsbD b && decide (b ≠ 0))) := by
    intro b hb
    rw [getLsbD_written_summary _ _ _ hb, getLsbD_and_not_one]
  cases hagain : again.getLsbD 0
  case false =>
    rw [State.writeSummary_of_quiet _ _ _ hagain]
    refine ⟨fun b hb => ?_, fun _ => ?_, fun h => absurd h (by simp)⟩
    · rw [State.reg_settleLevel, State.summary_captureCleared, State.reg_setReg_self, hwritten b hb]
      by_cases h0 : b = 0 <;> simp [h0, hagain, -BitVec.getLsbD_eq_getElem]
    · rw [State.reg_settleLevel, State.captured_captureCleared, State.reg_setReg_of_off_ne _ _ _ (by decide)]
  case true =>
    rw [State.writeSummary_of_rejection _ _ _ hagain]
    refine ⟨fun b hb => ?_, fun h => absurd h (by simp), fun _ h => ?_⟩
    · rw [State.reg_settleLevel, State.summary_cfgReject, State.summary_captureCleared, State.reg_setReg_self, getLsbD_or_one, hwritten b hb]
      by_cases h0 : b = 0 <;> simp [h0, hagain, -BitVec.getLsbD_eq_getElem]
    · rw [State.reg_settleLevel]
      refine State.captured_cfgReject_first _ _ _ ?_ (fld_lt _ _ _)
      rw [State.summary_captureCleared, State.reg_setReg_self, hwritten 0 (by simp)]
      rcases h with h | h <;> simp [h, -BitVec.getLsbD_eq_getElem]

end
end

end Sys2Proof.Safety
end

section
/-! Reads of registers, and accesses of addresses that no register holds (00, R6, R7, R12; 01, R17; 18, R464). -/

namespace Sys2Proof.Machine

theorem kindOf_lt : ∀ w : Win, kindOf w < 256 := by decide +kernel

/-- A read of a register of the UCB clears its RC bits and does nothing else (R6, R7). -/
theorem State.readReg_ucb (s : State) (w : Win) {off idx : Nat} {r : RegRow} (hrow : findIn regsUCB off = some (r, idx)) (h : off < 0x100) :
    s.readReg w off = (r.shown (s.ucbRead w off), if r.counts then s.setReg w off (r.cleared (s.reg w off)) else s) := by
  simp [State.readReg, regAt_ucb w h, hrow, not_le_of_ucb h, ne_of_ucb h, h]

end Sys2Proof.Machine

namespace Sys2Proof.Safety

open Sys2Proof.Machine

section
variable (s : State) (w : Win)

/-- A read of the counter of reserved accesses reads it and clears it; it then holds what arrives (R7). -/
theorem rcRead_reservedAccess (arriving : Word32) :
    Leaves (.rcRead (.unit w 0x2C) arriving) s (fun u =>
      u.readData = (s.reg w 0x2C).setWidth 256 ∧ u.reg w 0x2C = arriving ∧ OtherRegs s u w 0x2C) := by
  have hread : s.readReg w 0x2C = (s.reg w 0x2C, s.setReg w 0x2C 0) := by
    rw [State.readReg_ucb s w (r := rUcbReservedAccess) (idx := 0) rfl (by decide), if_pos (by decide)]
    have hcleared : rUcbReservedAccess.cleared (s.reg w 0x2C) = 0 := putFld_word _ 0
    rw [hcleared]; rfl
  have hrow : regAt w.val 0x2C = some (rUcbReservedAccess, 0) := regAt_ucb w (by decide)
  refine ⟨_, rfl, ?_⟩
  simp only [show (0x2C : BitVec 16).toNat = 0x2C from rfl, hread, hrow, show rUcbReservedAccess.counts = true from by decide, if_true]
  refine ⟨trivial, ?_, fun x o h ho => ?_⟩
  · refine BitVec.eq_of_toNat_eq ?_
    refine (State.toNat_reg_countBy (s.setReg w 0x2C 0) w 0x2C arriving.toNat).trans ?_
    have := arriving.isLt
    simp; omega
  · exact (State.reg_setReg_of_ne _ _ h ho (by decide)).trans (otherRegs_setReg s w 0 (by decide) x o h ho)

/-- A read of UCB_IDENT1 names the variant and the kind of the Gathering, and changes no register (R6). -/
theorem rcRead_ident (arriving : Word32) :
    Leaves (.rcRead (.unit w 0x04) arriving) s (fun u =>
      u.readData = BitVec.ofNat 256 (s.variant.toNat * 2 ^ 28 + kindOf w * 2 ^ 16 + 2 ^ 8) ∧ u.regs = s.regs) := by
  have hread : s.readReg w 0x04 = (BitVec.ofNat 32 (s.variant.toNat * 2 ^ 28 + kindOf w * 2 ^ 16 + 2 ^ 8), s) := by
    rw [State.readReg_ucb s w (r := rUcbIdent1) (idx := 0) rfl (by decide), if_neg (by decide)]
    rfl
  have hrow : regAt w.val 0x04 = some (rUcbIdent1, 0) := regAt_ucb w (by decide)
  refine ⟨_, rfl, ?_⟩
  simp only [show (0x04 : BitVec 16).toNat = 0x04 from rfl, hread, hrow, show rUcbIdent1.counts = false from by decide, Bool.false_eq_true, if_false]
  refine ⟨BitVec.eq_of_toNat_eq ?_, trivial⟩
  have hvariant := s.variant.isLt
  have hkind := kindOf_lt w
  simp only [BitVec.toNat_setWidth, BitVec.toNat_ofNat]
  omega

/-- An access that no register answers is counted; a read of that kind answers zero (R12, R17). -/
theorem reservedAccess_counts (off : BitVec 16) (size : BitVec 4) (write : Bool) (hstile : ¬ (w.val = spineWin ∧ (off = 0x300 ∨ off = 0x308)))
    (h : regAt w off.toNat = none ∨ (off.toNat < 0x100 ∧ ¬ (size = 4 ∧ off.toNat % 4 = 0))) :
    Leaves (.reservedAccess (Fin.castLE (by decide) w) off size write) s (fun u =>
      (u.reg w 0x2C).toNat = min 0xFFFFFFFF ((s.reg w 0x2C).toNat + 1) ∧ OtherRegs s u w 0x2C ∧ u.gath = s.gath ∧
      u.readData = (if write then s.readData else 0)) := by
  have hcond : (off.toNat < 0x100 ∧ ¬ (size = 4 ∧ off.toNat % 4 = 0)) ∨
      ((regAt w off.toNat).isNone = true ∧ ¬ (w.val = spineWin ∧ (off.toNat = 0x300 ∨ off.toNat = 0x308))) := by
    rcases h with h | h
    · exact .inr ⟨by simp [h], by simpa [BitVec.toNat_eq] using hstile⟩
    · exact .inl h
  have hexec : exec (.reservedAccess (Fin.castLE (by decide) w) off size write) s =
      .next (if write then s.count w 0x2C else { s.count w 0x2C with readData := 0 }) := by
    show execReservedAccess _ _ _ _ _ = _
    simp only [execReservedAccess, Fin.val_castLE, if_pos hcond, if_pos w.isLt]
  have hothers : OtherRegs s (s.count w 0x2C) w 0x2C := otherRegs_setReg s w _ (by decide)
  refine ⟨_, hexec, ?_⟩
  cases write
  · exact ⟨State.toNat_reg_countBy s w 0x2C 1, hothers, rfl, rfl⟩
  · exact ⟨State.toNat_reg_countBy s w 0x2C 1, hothers, rfl, rfl⟩

end

/-! ### BAR0 of a function -/

theorem func_setFunc_self (s : State) (f : Nat) (x : FuncSt) : (s.setFunc f x).func f = x := SMap.get_set_self _ _ _ _

theorem func_setFunc_of_ne (s : State) {f g : Nat} (x : FuncSt) (h : g ≠ f) : (s.setFunc f x).func g = s.func g := SMap.get_set_of_ne _ _ _ h

theorem registerWrite_rickView (s : State) (f : Func) (v again : Word32) (hup : s.serving pcieWin = true) :
    Leaves (.registerWrite (.bar0 f 0x114) v again) s (fun u => (u.func f).rickView = fld v 11 0 ∧ u.regs = s.regs ∧
      ∀ x, x ≠ f.val → u.func x = s.func x) := by
  have hw : s.writeBar f 0x114 v again = s.setFunc f { s.func f with rickView := fld v 11 0 } := by simp [State.writeBar, hup]
  refine ⟨_, rfl, ?_⟩
  rw [show (0x114 : BitVec 26).toNat = 0x114 from rfl, hw]
  exact ⟨by rw [func_setFunc_self], rfl, fun x h => func_setFunc_of_ne s _ h⟩

theorem rcRead_hostIdent (s : State) (f : Func) (arriving : Word32) (hup : s.serving pcieWin = true) :
    Leaves (.rcRead (.bar0 f 0x0) arriving) s (fun u => u.readData = 0x320000B0 ∧ u.regs = s.regs) := by
  have hread : s.readBar f 0 = (0x320000B0, s) := by simp [State.readBar, hup]
  refine ⟨_, rfl, ?_⟩
  rw [show (0x0 : BitVec 26).toNat = 0 from rfl, hread]
  exact ⟨rfl, rfl⟩

/-! ### Captures (R464) -/

theorem captureRead_time (s : State) :
    Leaves (.captureRead false) s (fun u =>
      u.readData = (s.time.ns.setWidth 32).setWidth 256 ∧ u.reg timeWin 0x104 = (s.time.ns >>> 32).setWidth 32) := by
  have hread : s.readReg timeWin 0x100 = (s.time.ns.setWidth 32, s.setReg timeWin 0x104 ((s.time.ns >>> 32).setWidth 32)) := by
    rw [State.readReg, if_neg (by decide), if_neg (by decide), if_neg (by decide), show regAt timeWin 0x100 = some (rTimeNow, 0) from by decide]
    rfl
  refine ⟨_, rfl, ?_⟩
  rw [if_neg (by decide), hread]
  exact ⟨rfl, State.reg_setReg_self _ _ _ _⟩

theorem captureRead_sheaf (s : State) (hopen : s.rf sheafWin 0x120 31 31 = 0) :
    let c := s.sheafCounter s.sheaf.curBank (s.rf sheafWin 0x120 13 0) (s.rf sheafWin 0x120 29 24)
    Leaves (.captureRead true) s (fun u => u.readData = (c.setWidth 32).setWidth 256 ∧ u.sheaf.queryHi = (c >>> 32).setWidth 32) := by
  intro c
  have hread : s.readReg sheafWin 0x124 = (c.setWidth 32, s.modSheaf (fun x => { x with queryHi := (c >>> 32).setWidth 32 })) := by
    rw [State.readReg, if_neg (by decide), if_neg (by decide), if_neg (by decide),
      show regAt sheafWin 0x124 = some (rSheafQueryData, 0) from by decide]
    have hrf : fld (s.reg sheafWin 0x120) 31 31 = 0 := hopen
    have hcounts : rSheafQueryData.counts = false := by decide
    have hkind : kindOf sheafWin = 0x1A := by decide
    simp [State.unitRead, hrf, hcounts, hkind]
    exact ⟨rfl, rfl⟩
  refine ⟨_, rfl, ?_⟩
  rw [if_pos rfl, hread]
  exact ⟨rfl, rfl⟩

/-- Settles O29: each part by its own row's lemma. -/
theorem registersAreReadAndWritten : Obligations.RegistersAreReadAndWritten := by
  intro s w others old
  refine ⟨fun hup => ⟨fun v again => ?_, fun v again => ?_, fun v again => ?_, fun off v again h => ?_⟩, rcRead_reservedAccess s w, rcRead_ident s w,
    reservedAccess_counts s w, fun f v again hserving => ⟨registerWrite_rickView s f v again hserving, rcRead_hostIdent s f again hserving⟩,
    captureRead_time s, captureRead_sheaf s⟩
  · exact registerWrite_sets s w v again (off := 0x1C) (r := rUcbDrainLimit) (idx := 0) rfl (by decide) (by decide) (by decide) (by decide) (legal_drainLimit v)
      (written_drainLimit _ v again) hup
  · exact registerWrite_sets s w v again (off := 0x18) (r := rUcbCmdStatus) (idx := 0) rfl (by decide) (by decide) (by decide) (by decide) (legal_cmdStatus v)
      (written_cmdStatus _ v again) hup
  · obtain ⟨u, hu, hbits, hcleared, hcaptured⟩ := registerWrite_summary s w v again hup
    exact ⟨u, hu, fun b hb => hbits b (List.mem_cons_of_mem _ hb), hbits 0 (by decide), hcleared, hcaptured⟩
  · rcases h with ⟨rfl, h⟩ | ⟨rfl, h⟩
    · exact registerWrite_rejected s w v again (writeReg_ctrl_reserved s w v again hup h) (by decide) (by decide)
    · exact registerWrite_rejected s w v again (writeReg_updateSlot_reserved s w v again hup h) (by decide) (by decide)

end Sys2Proof.Safety
end

section
/-! Events: what each operation on a source's status, mask, gap and route leaves, and the delivery to each route (18, R453 to R457). -/

namespace Sys2Proof.Machine

open Sys2Proof.Safety

/-! ### Tables of one bit per source -/

/-- One bit of a table of registers, 32 sources each, after one was put. -/
theorem State.getLsbD_setRf_table (s : State) (w base j k : Nat) (b : Bool) :
    ((s.setRf w (base + 4 * (k / 32)) (k % 32) (k % 32) (bit b)).reg w (base + 4 * (j / 32))).getLsbD (j % 32) =
      if j = k then b else (s.reg w (base + 4 * (j / 32))).getLsbD (j % 32) := by
  unfold State.setRf
  by_cases h : j / 32 = k / 32
  · rw [h, State.reg_setReg_self, getLsbD_putFld_bit]
    by_cases hjk : j = k
    · rw [if_pos ⟨by rw [hjk], Nat.mod_lt _ (by decide)⟩, if_pos hjk]
    · rw [if_neg (by omega), if_neg hjk]
  · rw [State.reg_setReg_of_off_ne _ _ _ (by omega), if_neg (fun hjk => h (by rw [hjk]))]

theorem State.evStatus_eq (s : State) (k : Nat) : s.evStatus k = (s.reg spineWin (0x100 + 4 * (k / 32))).getLsbD (k % 32) := by
  simp [State.evStatus, State.rf, fld_one, bit_eq_one]

theorem State.evMasked_eq (s : State) (k : Nat) : s.evMasked k = (s.reg spineWin (0x180 + 4 * (k / 32))).getLsbD (k % 32) := by
  simp [State.evMasked, State.rf, fld_one, bit_eq_one]

theorem State.evStatus_of_reg {s u : State} {k : Nat} (h : u.reg spineWin (0x100 + 4 * (k / 32)) = s.reg spineWin (0x100 + 4 * (k / 32))) :
    u.evStatus k = s.evStatus k := by
  rw [State.evStatus_eq, State.evStatus_eq, h]

theorem State.evMasked_of_reg {s u : State} {k : Nat} (h : u.reg spineWin (0x180 + 4 * (k / 32)) = s.reg spineWin (0x180 + 4 * (k / 32))) :
    u.evMasked k = s.evMasked k := by
  rw [State.evMasked_eq, State.evMasked_eq, h]

theorem State.evStatus_setEvStatus (s : State) (j k : Nat) (b : Bool) :
    (s.setEvStatus k b).evStatus j = if j = k then b else s.evStatus j := by
  rw [State.evStatus_eq, State.evStatus_eq, State.setEvStatus, State.getLsbD_setRf_table]

theorem State.evMasked_setEvMask (s : State) (j k : Nat) (b : Bool) :
    (s.setEvMask k b).evMasked j = if j = k then b else s.evMasked j := by
  rw [State.evMasked_eq, State.evMasked_eq, State.setEvMask, State.getLsbD_setRf_table]

theorem State.reg_setEvStatus_of_ge (s : State) {k o : Nat} (b : Bool) (hk : k < 1024) (ho : 0x180 ≤ o) :
    (s.setEvStatus k b).reg spineWin o = s.reg spineWin o :=
  State.reg_setReg_of_off_ne _ _ _ (by omega)

/-! ### Event bits of supervisors -/

theorem Thread.getLsbD_setEv (th : Thread) {b : Nat} (hb : b < 32) (i : Nat) :
    (th.setEv b).events.getLsbD i = (th.events.getLsbD i || decide (i = b)) := by
  by_cases hi : i < 32
  · rw [Thread.setEv, BitVec.getLsbD_or, BitVec.getLsbD_ofNat, Nat.one_shiftLeft, Nat.testBit_two_pow]
    simp [hi, eq_comm]
  · rw [BitVec.getLsbD_of_ge _ _ (by omega), BitVec.getLsbD_of_ge _ _ (by omega)]
    simp; omega

/-- An event bit sets in the supervisors of some Quires. -/
def State.promptSups (s : State) (qs : List Nat) (b : Nat) : State :=
  qs.foldl (fun (s : State) q => s.modThread (s.supOf q) (fun th => th.setEv b)) s

theorem State.promptSups_frame (s : State) (qs : List Nat) (b : Nat) :
    s.promptSups qs b = { s with threads := (s.promptSups qs b).threads } := by
  induction qs generalizing s with
  | nil => rfl
  | cons q qs ih => exact ih (s.modThread (s.supOf q) (fun th => th.setEv b))

/-- The supervisors are prompted in the same way whatever the registers hold. -/
theorem State.threads_promptSups_of_regs (s : State) (r : SMap Word32) (qs : List Nat) (b : Nat) :
    (State.promptSups { s with regs := r } qs b).threads = (s.promptSups qs b).threads := by
  induction qs generalizing s with
  | nil => rfl
  | cons q qs ih => exact ih (s.modThread (s.supOf q) (fun th => th.setEv b))

theorem State.threads_promptSups_count (s : State) (w off : Nat) (qs : List Nat) (b : Nat) :
    ((s.count w off).promptSups qs b).threads = (s.promptSups qs b).threads :=
  State.threads_promptSups_of_regs s (s.count w off).regs qs b

/-- The event bit is the route's all along: no prompt changes the registers. -/
theorem State.prompt_route (s : State) (qs : List Nat) (k : Nat) :
    qs.foldl (fun (u : State) q => u.modThread (u.supOf q) (fun th => th.setEv (u.evRoute k 15 11))) s = s.promptSups qs (s.evRoute k 15 11) := by
  induction qs generalizing s with
  | nil => rfl
  | cons q qs ih => exact ih (s.modThread (s.supOf q) (fun th => th.setEv (s.evRoute k 15 11)))

theorem State.thread_modThread_setEv (s : State) (q t : Nat) {b : Nat} (hb : b < 32) (i : Nat) :
    ((s.modThread q (fun th => th.setEv b)).thread t).events.getLsbD i = ((s.thread t).events.getLsbD i || decide (i = b ∧ t = q)) := by
  rw [State.modThread]
  by_cases h : t = q
  · subst h
    rw [State.thread_setThread_self]
    simpa [Thread.noted] using Thread.getLsbD_setEv (s.thread t) hb i
  · rw [State.thread_setThread_of_ne _ _ h]; simp [h]

theorem State.thread_promptSups_events (s : State) (qs : List Nat) {b : Nat} (hb : b < 32) (t i : Nat) :
    ((s.promptSups qs b).thread t).events.getLsbD i =
      ((s.thread t).events.getLsbD i || decide (i = b ∧ ∃ q ∈ qs, t = s.supOf q)) := by
  induction qs generalizing s with
  | nil => simp [State.promptSups]
  | cons q qs ih =>
    have hsup : ∀ q', (s.modThread (s.supOf q) (fun th => th.setEv b)).supOf q' = s.supOf q' := fun _ => rfl
    refine (ih (s.modThread (s.supOf q) (fun th => th.setEv b))).trans ?_
    simp only [hsup, State.thread_modThread_setEv _ _ _ hb, Bool.or_assoc, ← Bool.decide_or, List.mem_cons, exists_eq_or_imp, and_or_left]

theorem State.thread_promptSups_keeps (s : State) (qs : List Nat) (b t : Nat) :
    ((s.promptSups qs b).thread t).pc = (s.thread t).pc ∧ ((s.promptSups qs b).thread t).regs = (s.thread t).regs ∧
    ((s.promptSups qs b).thread t).wait = (s.thread t).wait := by
  induction qs generalizing s with
  | nil => exact ⟨rfl, rfl, rfl⟩
  | cons q qs ih =>
    obtain ⟨hpc, hregs, hwait⟩ := ih (s.modThread (s.supOf q) (fun th => th.setEv b))
    have hstep : ∀ x, (s.modThread x (fun th => th.setEv b)).thread t = s.thread t ∨
        (s.modThread x (fun th => th.setEv b)).thread t = ((s.thread t).setEv b).noted s.time.cycles (s.isSup t) := by
      intro x
      by_cases h : t = x
      · subst h; exact .inr (State.thread_setThread_self _ _ _)
      · exact .inl (State.thread_setThread_of_ne _ _ h)
    rcases hstep (s.supOf q) with h | h
    · rw [h] at hpc hregs hwait; exact ⟨hpc, hregs, hwait⟩
    · rw [h] at hpc hregs hwait; exact ⟨hpc, hregs, hwait⟩

/-! ### Delivery -/

/-- The functions and the threads after a source has been delivered: a masked vector's pending bit, or the event bits of supervisors. -/
def State.deliveredFuncs (s : State) (k : Nat) : SMap FuncSt :=
  let f := s.evRoute k 29 24
  let v := s.evRoute k 23 16
  if s.evRoute k 31 30 = 2 ∧ (s.func f).sends v = false then
    (s.setFunc f { s.func f with pendingVec := (v, k) :: (s.func f).pendingVec.filter (· ≠ (v, k)) }).funcs
  else s.funcs

def State.deliveredThreads (s : State) (k : Nat) : SMap Thread :=
  if s.evRoute k 31 30 = 3 then (s.promptSups (quiresOf (s.evRoute k 5 0)) (s.evRoute k 15 11)).threads else s.threads

def State.deliveredGaps (s : State) (k : Nat) : SMap Nat :=
  if s.evGapNs k = 0 then s.ev.gapEnd else SMap.put s.ev.gapEnd k (s.time.cycles + s.evGapNs k)

theorem State.deliverEvent_of_none (s : State) {k : Nat} (h : s.evRoute k 31 30 = 0) : s.deliverEvent k = s := by
  rw [State.deliverEvent]; exact if_pos h

/-- What a delivery leaves (R455, R456). -/
theorem State.deliverEvent_of_route (s : State) {k : Nat} (h : s.evRoute k 31 30 ≠ 0) :
    s.deliverEvent k =
      { s with regs := (s.count spineWin 0x280).regs, funcs := s.deliveredFuncs k, threads := s.deliveredThreads k,
               ev := { s.ev with gapEnd := s.deliveredGaps k,
                                 toSpine := s.ev.toSpine ++ (if s.evRoute k 31 30 = 1 then [k] else []),
                                 messages := s.ev.messages ++ (if s.evRoute k 31 30 = 2 ∧ (s.func (s.evRoute k 29 24)).sends (s.evRoute k 23 16) = true
                                   then [(s.evRoute k 29 24, s.evRoute k 23 16)] else []) } } := by
  have hroute : ∀ hi lo, (s.count spineWin 0x280).evRoute k hi lo = s.evRoute k hi lo := fun hi lo => by
    rw [State.evRoute, State.rf, State.reg_count_of_off_ne _ _ (by omega)]; rfl
  have hlt : s.evRoute k 31 30 < 4 := fld_lt _ _ _
  have hcases : s.evRoute k 31 30 = 1 ∨ s.evRoute k 31 30 = 2 ∨ s.evRoute k 31 30 = 3 := by omega
  have hfunc : ∀ f, (s.count spineWin 0x280).func f = s.func f := fun _ => rfl
  rcases hcases with h1 | h2 | h3
  · simp only [State.deliverEvent, State.deliveredFuncs, State.deliveredThreads, State.deliveredGaps, h1]
    by_cases hgap : s.evGapNs k = 0 <;> simp [hgap] <;> rfl
  · simp only [State.deliverEvent, State.deliveredFuncs, State.deliveredThreads, State.deliveredGaps, h2, hroute, hfunc, State.signalVector]
    by_cases hgap : s.evGapNs k = 0 <;> by_cases hsends : (s.func (s.evRoute k 29 24)).sends (s.evRoute k 23 16) = true <;>
      simp [hgap, hsends] <;> rfl
  · have hsups : (quiresOf (s.evRoute k 5 0)).foldl (fun (u : State) q => u.modThread (u.supOf q) (fun th => th.setEv (u.evRoute k 15 11)))
        (s.count spineWin 0x280) = { s with regs := (s.count spineWin 0x280).regs,
                                            threads := (s.promptSups (quiresOf (s.evRoute k 5 0)) (s.evRoute k 15 11)).threads } := by
      rw [State.prompt_route, State.promptSups_frame, hroute, State.threads_promptSups_count]; rfl
    simp only [State.deliverEvent, State.deliveredFuncs, State.deliveredThreads, State.deliveredGaps, h3, hroute, hsups]
    by_cases hgap : s.evGapNs k = 0
    · simp [hgap]
    · simp [hgap]; rfl

/-- A delivery touches the registers, the functions, the threads and the deliveries of the events. -/
theorem State.deliverEvent_frame (s : State) (k : Nat) :
    s.deliverEvent k =
      { s with regs := (s.deliverEvent k).regs, funcs := (s.deliverEvent k).funcs, threads := (s.deliverEvent k).threads,
               ev := { s.ev with gapEnd := (s.deliverEvent k).ev.gapEnd, toSpine := (s.deliverEvent k).ev.toSpine,
                                 messages := (s.deliverEvent k).ev.messages } } := by
  by_cases h : s.evRoute k 31 30 = 0
  · rw [State.deliverEvent_of_none s h]
  · rw [State.deliverEvent_of_route s h]

section
variable (s : State) (k : Nat)

@[simp] theorem State.time_deliverEvent : (s.deliverEvent k).time = s.time := by rw [State.deliverEvent_frame]
@[simp] theorem State.raised_deliverEvent : (s.deliverEvent k).ev.raised = s.ev.raised := by rw [State.deliverEvent_frame]
@[simp] theorem State.level_deliverEvent : (s.deliverEvent k).ev.level = s.ev.level := by rw [State.deliverEvent_frame]
@[simp] theorem State.coalesced_deliverEvent : (s.deliverEvent k).ev.coalesced = s.ev.coalesced := by rw [State.deliverEvent_frame]

theorem State.reg_deliverEvent_of_ne {o : Nat} (ho : o ≠ 0x280) : (s.deliverEvent k).reg spineWin o = s.reg spineWin o := by
  by_cases h : s.evRoute k 31 30 = 0
  · rw [State.deliverEvent_of_none s h]
  · rw [State.deliverEvent_of_route s h]
    exact State.reg_count_of_off_ne s spineWin ho

/-- Delivered to a route, the functions differ in the pending bit of the vector named only. -/
theorem State.func_deliverEvent (g : Nat) :
    (s.deliverEvent k).func g = if s.evRoute k 31 30 = 2 ∧ g = s.evRoute k 29 24 ∧ (s.func g).sends (s.evRoute k 23 16) = false then
      { s.func g with pendingVec := (s.evRoute k 23 16, k) :: (s.func g).pendingVec.filter (· ≠ (s.evRoute k 23 16, k)) } else s.func g := by
  by_cases h : s.evRoute k 31 30 = 0
  · rw [State.deliverEvent_of_none s h]; simp [h]
  · rw [State.deliverEvent_of_route s h]
    show SMap.get funcReset (s.deliveredFuncs k) g = _
    simp only [State.deliveredFuncs]
    by_cases hmasked : s.evRoute k 31 30 = 2 ∧ (s.func (s.evRoute k 29 24)).sends (s.evRoute k 23 16) = false
    · rw [if_pos hmasked]
      by_cases hg : g = s.evRoute k 29 24
      · subst hg
        rw [if_pos ⟨hmasked.1, rfl, hmasked.2⟩]
        exact func_setFunc_self _ _ _
      · rw [if_neg (by tauto)]
        exact func_setFunc_of_ne _ _ hg
    · rw [if_neg hmasked, if_neg (by rintro ⟨h2, rfl, hs⟩; exact hmasked ⟨h2, hs⟩)]
      rfl

/-- A delivery takes a source to its route, once (R455, R456). -/
theorem State.deliverEvent_delivers : Delivered s (s.deliverEvent k) k := by
  by_cases hroute : s.evRoute k 31 30 = 0
  · rw [State.deliverEvent_of_none s hroute]
    simp [Delivered, hroute]
  have hbit : s.evRoute k 15 11 < 32 := fld_lt _ _ _
  have hfunc := s.func_deliverEvent k
  have hu := s.deliverEvent_of_route hroute
  refine ⟨fun j hj => ?_, fun h => absurd h hroute, fun _ => ⟨?_, fun hgap => ?_⟩, ?_, ?_, fun g => ?_, fun g x => ?_, fun t b => ?_, fun t => ?_⟩
  · rw [hu]
    simp only [State.deliveredGaps]
    split
    · rfl
    · exact SMap.find_put_of_ne _ _ hj
  · rw [hu]; exact State.toNat_reg_countBy s spineWin 0x280 1
  · rw [hu]
    simp [State.deliveredGaps, hgap]
  · rw [hu]
  · rw [hu]
  · rw [hfunc]
    split
    · rename_i h; rw [if_pos ⟨h.1, h.2.1⟩]
    · split <;> rfl
  · rw [hfunc]
    split
    · rename_i h
      obtain ⟨h2, rfl, hmasked⟩ := h
      by_cases hx : x = (s.evRoute k 23 16, k) <;> simp [h2, hmasked, hx]
    · rename_i h
      refine ⟨.inl, fun hx => hx.resolve_right ?_⟩
      rintro ⟨h2, rfl, -, hmasked⟩
      exact h ⟨h2, rfl, hmasked⟩
  · rw [hu]
    show (SMap.get (fun _ => Thread.zero) (s.deliveredThreads k) t).events.getLsbD b = _
    by_cases h3 : s.evRoute k 31 30 = 3
    · rw [State.deliveredThreads, if_pos h3]
      exact (State.thread_promptSups_events s _ hbit t b).trans (by simp [h3])
    · rw [State.deliveredThreads, if_neg h3]
      simp [h3, State.thread]
  · rw [hu]
    show (SMap.get (fun _ => Thread.zero) (s.deliveredThreads k) t).pc = _ ∧ (SMap.get (fun _ => Thread.zero) (s.deliveredThreads k) t).regs = _ ∧
      (SMap.get (fun _ => Thread.zero) (s.deliveredThreads k) t).wait = _
    rw [State.deliveredThreads]
    split
    · exact State.thread_promptSups_keeps s _ _ t
    · exact ⟨rfl, rfl, rfl⟩

end

end Sys2Proof.Machine
end

section
/-! Assertions of sources, the ends of their gaps, their views, and MSI-X (18, R453 to R457). -/

namespace Sys2Proof.Machine

open Sys2Proof.Safety

/-! ### Deliveries that come to the same -/

/-- A delivery of source k finds the same in two states: its route and its limit, the count of deliveries, the gaps of the others, and what
deliveries reach. -/
structure DeliversAlike (s v : State) (k : Nat) : Prop where
  reg : ∀ o, o = 0x280 ∨ 0x1000 ≤ o → v.reg spineWin o = s.reg spineWin o
  time : v.time = s.time
  gaps : ∀ j, j ≠ k → SMap.find v.ev.gapEnd j = SMap.find s.ev.gapEnd j
  toSpine : v.ev.toSpine = s.ev.toSpine
  messages : v.ev.messages = s.ev.messages
  funcs : v.funcs = s.funcs
  threads : v.threads = s.threads
  quires : v.quires = s.quires

theorem DeliversAlike.delivered {s v u : State} {k : Nat} (h : DeliversAlike s v k) (d : Delivered v u k) : Delivered s u k := by
  have hroute : ∀ hi lo, v.evRoute k hi lo = s.evRoute k hi lo := fun hi lo => by
    rw [State.evRoute, State.rf, h.reg _ (by omega)]; rfl
  have hgap : v.evGapNs k = s.evGapNs k := by rw [State.evGapNs, State.rf, h.reg _ (by omega)]; rfl
  have hfunc : ∀ g, v.func g = s.func g := fun g => by rw [State.func, h.funcs]; rfl
  have hthread : ∀ t, v.thread t = s.thread t := fun t => by rw [State.thread, h.threads]; rfl
  have hsup : ∀ q, v.supOf q = s.supOf q := fun q => by rw [State.supOf, State.quire, h.quires]; rfl
  obtain ⟨hgaps, hrest⟩ := d
  refine ⟨fun j hj => (hgaps j hj).trans (h.gaps j hj), ?_⟩
  simpa only [Counted, hroute, hgap, hfunc, hthread, hsup, h.reg 0x280 (.inl rfl), h.time, h.toSpine, h.messages] using hrest

/-! ### Assertions (R454, R456) -/

theorem State.assertEvent_of_gap (s : State) {k : Nat} (h : s.inGap k = true) :
    s.assertEvent k = (s.count spineWin 0x284).modEv (fun e => { e with coalesced := k :: e.coalesced.filter (· ≠ k) }) := by
  rw [State.assertEvent, if_pos h]

/-- A source whose status has set, coalesced no more. -/
def State.statusSet (s : State) (k : Nat) : State :=
  (s.setEvStatus k true).modEv (fun e => { e with coalesced := e.coalesced.filter (· ≠ k) })

theorem State.assertEvent_of_noGap (s : State) {k : Nat} (h : s.inGap k = false) :
    s.assertEvent k = if (s.statusSet k).evMasked k then s.statusSet k else (s.statusSet k).deliverEvent k := by
  rw [State.assertEvent, if_neg (by simp [h])]; rfl

section
variable (s : State) {k : Nat} (hk : k < 1024)
include hk

theorem State.reg_statusSet_of_ge {o : Nat} (ho : 0x180 ≤ o) : (s.statusSet k).reg spineWin o = s.reg spineWin o :=
  s.reg_setEvStatus_of_ge true hk ho

theorem State.evMasked_statusSet (j : Nat) : (s.statusSet k).evMasked j = s.evMasked j :=
  State.evMasked_of_reg (s.reg_statusSet_of_ge hk (by omega))

theorem State.statusSet_alike : DeliversAlike s (s.statusSet k) k :=
  ⟨fun o ho => s.reg_statusSet_of_ge hk (by omega), rfl, fun _ _ => rfl, rfl, rfl, rfl, rfl, rfl⟩

theorem State.statusSet_notDelivered : NotDelivered s (s.statusSet k) :=
  ⟨rfl, rfl, rfl, rfl, rfl, s.reg_statusSet_of_ge hk (by omega)⟩

end

theorem State.evStatus_statusSet (s : State) (j k : Nat) : (s.statusSet k).evStatus j = if j = k then true else s.evStatus j :=
  s.evStatus_setEvStatus j k true

/-- A delivery changes no mask and no status. -/
theorem State.evMasked_deliverEvent (s : State) (i : Nat) {j : Nat} (hj : j < 1024) : (s.deliverEvent i).evMasked j = s.evMasked j :=
  State.evMasked_of_reg (s.reg_deliverEvent_of_ne i (by omega))

theorem State.evStatus_deliverEvent (s : State) (i : Nat) {j : Nat} (hj : j < 1024) : (s.deliverEvent i).evStatus j = s.evStatus j :=
  State.evStatus_of_reg (s.reg_deliverEvent_of_ne i (by omega))

/-- An assertion touches the part of the events as a delivery does, and its coalesced sources. -/
theorem State.assertEvent_level (s : State) (k : Nat) :
    (s.assertEvent k).ev.raised = s.ev.raised ∧ (s.assertEvent k).ev.level = s.ev.level := by
  cases hgap : s.inGap k
  · rw [State.assertEvent_of_noGap s hgap]
    split
    · exact ⟨rfl, rfl⟩
    · exact ⟨State.raised_deliverEvent _ k, State.level_deliverEvent _ k⟩
  · rw [State.assertEvent_of_gap s hgap]
    exact ⟨rfl, rfl⟩

theorem State.assertEvent_asserted (s : State) {k : Nat} (hk : k < 1024) : Asserted s (s.assertEvent k) k := by
  have hnotIn : k ∉ (s.statusSet k).ev.coalesced := by simp [State.statusSet]
  cases hgap : s.inGap k
  case true =>
    have hreg : ∀ o, o ≠ 0x284 → (s.assertEvent k).reg spineWin o = s.reg spineWin o := fun o ho => by
      rw [State.assertEvent_of_gap s hgap]; exact s.reg_count_of_off_ne spineWin ho
    refine ⟨fun j hj => State.evMasked_of_reg (hreg _ (by omega)), fun j hj _ => State.evStatus_of_reg (hreg _ (by omega)), fun _ => ?_,
      fun h => absurd (h.symm.trans hgap) (by simp)⟩
    rw [State.assertEvent_of_gap s hgap] at hreg ⊢
    exact ⟨s.toNat_reg_countBy spineWin 0x284 1, List.mem_cons_self, State.evStatus_of_reg (hreg _ (by omega)), rfl, rfl, rfl, rfl, rfl,
      hreg _ (by decide)⟩
  case false =>
    rw [State.assertEvent_of_noGap s hgap, State.evMasked_statusSet s hk]
    cases hmask : s.evMasked k
    case true =>
      refine ⟨fun j _ => s.evMasked_statusSet hk j, fun j _ hj => ?_, fun h => absurd (h.symm.trans hgap) (by simp), fun _ => ⟨?_, hnotIn, fun _ => ?_,
        fun h => absurd (h.symm.trans hmask) (by simp)⟩⟩
      · exact (s.evStatus_statusSet j k).trans (if_neg hj)
      · exact (s.evStatus_statusSet k k).trans (if_pos rfl)
      · exact s.statusSet_notDelivered hk
    case false =>
      refine ⟨fun j hj => ?_, fun j hj hjk => ?_, fun h => absurd (h.symm.trans hgap) (by simp), fun _ => ⟨?_, ?_,
        fun h => absurd (h.symm.trans hmask) (by simp), fun _ => ?_⟩⟩
      · exact (State.evMasked_deliverEvent _ k hj).trans (s.evMasked_statusSet hk j)
      · exact (State.evStatus_deliverEvent _ k hj).trans ((s.evStatus_statusSet j k).trans (if_neg hjk))
      · exact (State.evStatus_deliverEvent _ k hk).trans ((s.evStatus_statusSet k k).trans (if_pos rfl))
      · exact fun h => hnotIn ((State.coalesced_deliverEvent _ k) ▸ h)
      · exact (s.statusSet_alike hk).delivered (State.deliverEvent_delivers _ k)

end Sys2Proof.Machine
end

section
/-! Views of the sources (18, R454, R457): the bits that a viewer sees, the clearing of statuses and the write of masks. -/

namespace Sys2Proof.Machine

open Sys2Proof.Safety

/-! ### Views -/

theorem flagsWord_succ (n : Nat) (f : Nat → Bool) : flagsWord (n + 1) f = flagsWord n f + if f n then 2 ^ n else 0 := by
  simp only [flagsWord, List.range_succ, List.filter_append, sumOf, List.foldl_append]
  cases hf : f n <;> simp [hf]

theorem flagsWord_lt (n : Nat) (f : Nat → Bool) : flagsWord n f < 2 ^ n := by
  induction n with
  | zero => exact Nat.one_pos
  | succ n ih => rw [flagsWord_succ, Nat.pow_succ]; split <;> omega

/-- The bits of a table of flags are its flags. -/
theorem testBit_flagsWord (n : Nat) (f : Nat → Bool) (i : Nat) : (flagsWord n f).testBit i = (decide (i < n) && f i) := by
  induction n with
  | zero => simp [flagsWord, sumOf]
  | succ n ih =>
    have hlt := flagsWord_lt n f
    rw [flagsWord_succ]
    rcases Nat.lt_trichotomy i n with h | rfl | h
    · cases hf : f n
      · simp [ih, h, Nat.lt_succ_of_lt h]
      · rw [if_pos rfl, Nat.add_comm, Nat.testBit_two_pow_add_gt h, ih]; simp [h, Nat.lt_succ_of_lt h]
    · cases hf : f i
      · simp [ih]
      · rw [if_pos rfl, Nat.add_comm, Nat.testBit_two_pow_add_eq, ih]; simp
    · have hbig : flagsWord (n + 1) f < 2 ^ i := (flagsWord_lt (n + 1) f).trans_le (Nat.pow_le_pow_right (by decide) h)
      rw [← flagsWord_succ, Nat.testBit_lt_two_pow hbig]
      simp; omega

theorem State.getLsbD_viewMask (s : State) (viewer g i : Nat) :
    (s.viewMask viewer g).getLsbD i = (decide (i < 32) && s.seesEvent viewer (32 * g + i)) := by
  show (BitVec.ofNat 32 (flagsWord 32 fun i => s.seesEvent viewer (32 * g + i))).getLsbD i = _
  rw [BitVec.getLsbD_ofNat, testBit_flagsWord]; simp

/-- The sources of a group whose bits are set. -/
def sourcesOf (g : Nat) (ones : Word32) : List Nat := ((List.range 32).filter (fun i => ones.getLsbD i)).map (fun i => 32 * g + i)

theorem mem_sourcesOf (g : Nat) (ones : Word32) (k : Nat) : k ∈ sourcesOf g ones ↔ k / 32 = g ∧ ones.getLsbD (k % 32) = true := by
  simp only [sourcesOf, List.mem_map, List.mem_filter, List.mem_range]
  constructor
  · rintro ⟨i, ⟨hi, hone⟩, rfl⟩
    exact ⟨by omega, by rwa [show (32 * g + i) % 32 = i by omega]⟩
  · rintro ⟨hg, hone⟩
    exact ⟨k % 32, ⟨Nat.mod_lt _ (by decide), hone⟩, by omega⟩

theorem nodup_sourcesOf (g : Nat) (ones : Word32) : (sourcesOf g ones).Nodup :=
  (List.nodup_range.filter _).map fun a b h => by simpa using h

/-- Bit i of group g is the bit of source 32 g + i. -/
theorem State.evStatus_group (s : State) (g : Nat) {i : Nat} (hi : i < 32) :
    s.evStatus (32 * g + i) = (s.reg spineWin (0x100 + 4 * g)).getLsbD i := by
  rw [State.evStatus_eq, show (32 * g + i) / 32 = g by omega, show (32 * g + i) % 32 = i by omega]

theorem State.evMasked_group (s : State) (g : Nat) {i : Nat} (hi : i < 32) :
    s.evMasked (32 * g + i) = (s.reg spineWin (0x180 + 4 * g)).getLsbD i := by
  rw [State.evMasked_eq, show (32 * g + i) / 32 = g by omega, show (32 * g + i) % 32 = i by omega]

/-! ### Pending vectors whose sources' deliveries have ended (R454) -/

/-- A function without the pending vectors of some sources. -/
def FuncSt.endPending (x : FuncSt) (srcs : List Nat) : FuncSt := { x with pendingVec := x.pendingVec.filter (fun e => !srcs.contains e.2) }

def State.endPendingOf (s : State) (srcs : List Nat) (f : Nat) : State :=
  if (s.func f).pendingVec.any (fun e => srcs.contains e.2) then s.setFunc f ((s.func f).endPending srcs) else s

theorem State.func_endPendingOf (s : State) (srcs : List Nat) (f g : Nat) :
    (s.endPendingOf srcs f).func g = if g = f then (s.func f).endPending srcs else s.func g := by
  rw [State.endPendingOf]
  split
  · by_cases h : g = f
    · rw [if_pos h, h, func_setFunc_self]
    · rw [if_neg h, func_setFunc_of_ne _ _ h]
  · rename_i hnone
    have hkeep : (s.func f).pendingVec.filter (fun e => !srcs.contains e.2) = (s.func f).pendingVec :=
      List.filter_eq_self.2 fun e he => by
        simp only [List.any_eq_true, not_exists, not_and] at hnone
        simpa using hnone e he
    by_cases h : g = f
    · rw [if_pos h, FuncSt.endPending, hkeep, h]
    · rw [if_neg h]

theorem State.endPendingOf_frame (s : State) (srcs : List Nat) (f : Nat) :
    s.endPendingOf srcs f = { s with funcs := (s.endPendingOf srcs f).funcs } := by
  rw [State.endPendingOf]; split <;> rfl

/-- The functions below n lose the pending vectors of some sources, and nothing else changes. -/
theorem State.endPending_range (s : State) (srcs : List Nat) (n : Nat) :
    let u := (List.range n).foldl (fun (s : State) f => s.endPendingOf srcs f) s
    u = { s with funcs := u.funcs } ∧ ∀ g, u.func g = if g < n then (s.func g).endPending srcs else s.func g := by
  induction n with
  | zero => simp
  | succ n ih =>
    obtain ⟨hframe, hfunc⟩ := ih
    simp only [List.range_succ, List.foldl_append, List.foldl_cons, List.foldl_nil]
    refine ⟨?_, fun g => ?_⟩
    · rw [State.endPendingOf_frame, hframe]
    · rw [State.func_endPendingOf, hfunc, hfunc]
      rcases Nat.lt_trichotomy g n with h | rfl | h
      · simp [h, Nat.lt_succ_of_lt h, h.ne]
      · simp
      · rw [if_neg (by omega), if_neg (by omega), if_neg (by omega)]

theorem State.endPending_eq (s : State) (srcs : List Nat) :
    s.endPending srcs = (List.range 64).foldl (fun (s : State) f => s.endPendingOf srcs f) s := rfl

theorem State.endPending_frame (s : State) (srcs : List Nat) : s.endPending srcs = { s with funcs := (s.endPending srcs).funcs } := by
  rw [State.endPending_eq]
  exact (s.endPending_range srcs 64).1

theorem State.reg_endPending (s : State) (srcs : List Nat) (w o : Nat) : (s.endPending srcs).reg w o = s.reg w o :=
  State.reg_of_regs (by rw [State.endPending_frame]) w o

theorem State.func_endPending (s : State) (srcs : List Nat) (g : Nat) :
    (s.endPending srcs).func g = if g < 64 then (s.func g).endPending srcs else s.func g := by
  rw [State.endPending_eq]
  exact (s.endPending_range srcs 64).2 g

/-! ### Masks that open (R454, R456) -/

/-- A source whose mask clears: its stuck time begins again where its condition holds. -/
def State.rearmed (s : State) (k : Nat) : State :=
  if (SMap.find s.ev.level k).isSome then s.modEv (fun e => e.setLevel k (some s.time.cycles)) else s

/-- And it is delivered if its status is set. -/
def State.opened (s : State) (k : Nat) : State := if (s.rearmed k).evStatus k then (s.rearmed k).deliverEvent k else s.rearmed k

/-- The masks of a group after a write within a view. -/
def State.maskWritten (s : State) (viewer g : Nat) (bits : Word32) : State :=
  s.setReg spineWin (0x180 + 4 * g) ((s.reg spineWin (0x180 + 4 * g) &&& ~~~(s.viewMask viewer g)) ||| (bits &&& s.viewMask viewer g))

theorem State.writeEvMask_eq (s : State) (viewer g : Nat) (bits : Word32) :
    s.writeEvMask viewer g bits =
      (sourcesOf g (s.reg spineWin (0x180 + 4 * g) &&& s.viewMask viewer g &&& ~~~bits)).foldl State.opened (s.maskWritten viewer g bits) := rfl

theorem State.rearmed_frame (s : State) (k : Nat) :
    s.rearmed k = { s with ev := { s.ev with level := (s.rearmed k).ev.level } } := by
  rw [State.rearmed]; split <;> rfl

theorem State.reg_rearmed (s : State) (k w o : Nat) : (s.rearmed k).reg w o = s.reg w o := by rw [State.rearmed_frame]; rfl

/-- The times since when conditions hold have no part in a delivery. -/
theorem alike_of_level {s v : State} {l : SMap Nat} (h : v = { s with ev := { s.ev with level := l } }) (k : Nat) : DeliversAlike s v k := by
  subst h
  exact ⟨fun _ _ => rfl, rfl, fun _ _ => rfl, rfl, rfl, rfl, rfl, rfl⟩

theorem delivered_of_level {s u v : State} {l : SMap Nat} {k : Nat} (h : v = { u with ev := { u.ev with level := l } }) (d : Delivered s u k) :
    Delivered s v k := by
  subst h
  exact d

theorem State.find_level_rearmed (s : State) (k j : Nat) :
    SMap.find (s.rearmed k).ev.level j = if j = k ∧ (SMap.find s.ev.level k).isSome then some s.time.cycles else SMap.find s.ev.level j := by
  rw [State.rearmed]
  by_cases hsome : (SMap.find s.ev.level k).isSome = true
  · rw [if_pos hsome]
    by_cases h : j = k
    · rw [if_pos ⟨h, hsome⟩, h]; exact SMap.find_put_self _ _ _
    · rw [if_neg (by tauto)]; exact SMap.find_put_of_ne _ _ h
  · rw [if_neg hsome, if_neg (by tauto)]

theorem State.reg_opened_of_ne (s : State) (k : Nat) {o : Nat} (ho : o ≠ 0x280) : (s.opened k).reg spineWin o = s.reg spineWin o := by
  rw [State.opened]
  split
  · rw [State.reg_deliverEvent_of_ne _ _ ho, State.reg_rearmed]
  · rw [State.reg_rearmed]

theorem State.time_opened (s : State) (k : Nat) : (s.opened k).time = s.time := by
  rw [State.opened]
  split
  · rw [State.time_deliverEvent, State.rearmed_frame]
  · rw [State.rearmed_frame]

theorem State.level_opened (s : State) (k : Nat) : (s.opened k).ev.level = (s.rearmed k).ev.level := by
  rw [State.opened]
  split
  · rw [State.level_deliverEvent]
  · rfl

/-! ### Several masks that open -/

theorem State.reg_foldl_opened (ks : List Nat) (s : State) {o : Nat} (ho : o ≠ 0x280) :
    (ks.foldl State.opened s).reg spineWin o = s.reg spineWin o := by
  induction ks generalizing s with
  | nil => rfl
  | cons k ks ih => exact (ih (s.opened k)).trans (s.reg_opened_of_ne k ho)

/-- A source whose stuck time began again keeps that moment, whatever opens after it. -/
theorem State.level_foldl_opened_keeps (ks : List Nat) (s : State) {k : Nat} (h : SMap.find s.ev.level k = some s.time.cycles) :
    SMap.find (ks.foldl State.opened s).ev.level k = some s.time.cycles := by
  induction ks generalizing s with
  | nil => exact h
  | cons j ks ih =>
    refine (ih (s.opened j) ?_).trans (by rw [State.time_opened])
    rw [State.level_opened, State.time_opened, State.find_level_rearmed]
    split
    · rfl
    · exact h

theorem State.level_foldl_opened (ks : List Nat) (s : State) {k since : Nat} (hk : k ∈ ks) (h : SMap.find s.ev.level k = some since) :
    SMap.find (ks.foldl State.opened s).ev.level k = some s.time.cycles := by
  induction ks generalizing s with
  | nil => exact absurd hk (by simp)
  | cons j ks ih =>
    have hj : SMap.find (s.opened j).ev.level k = if k = j then some s.time.cycles else some since := by
      rw [State.level_opened, State.find_level_rearmed]
      by_cases hkj : k = j
      · subst hkj; simp [h]
      · simp [hkj, h]
    rw [List.foldl_cons, ← State.time_opened s j]
    by_cases hkj : k = j
    · exact State.level_foldl_opened_keeps ks (s.opened j) (by rw [hj, if_pos hkj, State.time_opened])
    · exact ih (s.opened j) ((List.mem_cons.1 hk).resolve_left hkj) (by rw [hj, if_neg hkj])

theorem State.evStatus_opened (s : State) (k : Nat) {j : Nat} (hj : j < 1024) : (s.opened k).evStatus j = s.evStatus j :=
  State.evStatus_of_reg (s.reg_opened_of_ne k (by omega))

theorem State.opened_of_clear (s : State) {k : Nat} (h : s.evStatus k = false) : s.opened k = s.rearmed k := by
  have hstatus : (s.rearmed k).evStatus k = false := (State.evStatus_of_reg (s.reg_rearmed k _ _)).trans h
  rw [State.opened, hstatus]; rfl

/-- One mask that opens over a status that is set delivers its source. -/
theorem State.opened_delivers (s : State) {k : Nat} (h : s.evStatus k = true) : Delivered s (s.opened k) k := by
  have hstatus : (s.rearmed k).evStatus k = true := (State.evStatus_of_reg (s.reg_rearmed k _ _)).trans h
  rw [State.opened, if_pos hstatus]
  exact (alike_of_level (s.rearmed_frame k) k).delivered (State.deliverEvent_delivers _ k)

/-- Masks that open over clear statuses touch the stuck times only. -/
theorem State.foldl_opened_of_clear (ks : List Nat) (s : State) (hks : ∀ k ∈ ks, k < 1024 ∧ s.evStatus k = false) :
    ks.foldl State.opened s = { s with ev := { s.ev with level := (ks.foldl State.opened s).ev.level } } := by
  induction ks generalizing s with
  | nil => rfl
  | cons k ks ih =>
    obtain ⟨⟨-, hk⟩, hrest⟩ := List.forall_mem_cons.1 hks
    have htail := ih (s.opened k) fun j hj => ⟨(hrest j hj).1, (s.evStatus_opened k (hrest j hj).1).trans (hrest j hj).2⟩
    rw [List.foldl_cons, htail, s.opened_of_clear hk, State.rearmed_frame]

/-- Masks that open over one status that is set deliver its source, once. -/
theorem State.foldl_opened_delivers (ks : List Nat) (s : State) {k : Nat} (hk : k ∈ ks) (hnodup : ks.Nodup) (hlt : ∀ j ∈ ks, j < 1024)
    (hstatus : s.evStatus k = true) (honly : ∀ j ∈ ks, j ≠ k → s.evStatus j = false) : Delivered s (ks.foldl State.opened s) k := by
  induction ks generalizing s with
  | nil => exact absurd hk (by simp)
  | cons j ks ih =>
    obtain ⟨hj, hnodup⟩ := List.nodup_cons.1 hnodup
    obtain ⟨hltj, hlt⟩ := List.forall_mem_cons.1 hlt
    obtain ⟨honlyj, honly⟩ := List.forall_mem_cons.1 honly
    rw [List.foldl_cons]
    by_cases hjk : j = k
    · subst hjk
      have hclear : ∀ i ∈ ks, i < 1024 ∧ (s.opened j).evStatus i = false := fun i hi =>
        ⟨hlt i hi, (s.evStatus_opened j (hlt i hi)).trans (honly i hi fun h => hj (h ▸ hi))⟩
      exact delivered_of_level (State.foldl_opened_of_clear ks (s.opened j) hclear) (s.opened_delivers hstatus)
    · have hrearmed : ∀ i, (s.rearmed j).evStatus i = s.evStatus i := fun i => State.evStatus_of_reg (s.reg_rearmed j _ _)
      rw [s.opened_of_clear (honlyj hjk)]
      exact (alike_of_level (s.rearmed_frame j) k).delivered (ih (s.rearmed j) ((List.mem_cons.1 hk).resolve_left (Ne.symm hjk)) hnodup hlt
        ((hrearmed k).trans hstatus) fun i hi hik => (hrearmed i).trans (honly i hi hik))

end Sys2Proof.Machine
end

section
/-! The rows EVENT_ASSERT, COALESCE_GAP_END, EVENT_STUCK, EVT_STATUS_CLEAR, EVT_MASK_WRITE and MSIX_UNMASK (18, R8, R453 to R457). -/

namespace Sys2Proof.Safety

open Sys2Proof.Machine

/-! ### Assertions and gaps -/

/-- The oldest assertion of a source that waits is taken. -/
theorem eventAssert_waiting (s : State) (src : BitVec 10) (h : src.toNat ∈ s.ev.raised) :
    Leaves (.eventAssert src) s (fun u =>
      u.ev.raised = s.ev.raised.erase src.toNat ∧ u.ev.level = s.ev.level ∧ Asserted s u src.toNat) := by
  have hexec : exec (.eventAssert src) s =
      .next ((s.modEv (fun e => { e with raised := e.raised.erase src.toNat })).assertEvent src.toNat) := by
    show execEventAssert _ _ = _
    simp [execEventAssert, h]
  obtain ⟨hraised, hlevel⟩ := State.assertEvent_level (s.modEv (fun e => { e with raised := e.raised.erase src.toNat })) src.toNat
  exact ⟨_, hexec, hraised, hlevel, State.assertEvent_asserted (s.modEv _) src.isLt⟩

/-- A condition that has begun to hold asserts. -/
theorem eventAssert_begins (s : State) (src : BitVec 10) (hwaits : src.toNat ∉ s.ev.raised) (hholds : s.levelOf src.toNat = true)
    (hnew : SMap.find s.ev.level src.toNat = none) :
    Leaves (.eventAssert src) s (fun u =>
      SMap.find u.ev.level src.toNat = some s.time.cycles ∧ u.ev.raised = s.ev.raised ∧ Asserted s u src.toNat) := by
  have hexec : exec (.eventAssert src) s =
      .next ((s.modEv (fun e => e.setLevel src.toNat (some s.time.cycles))).assertEvent src.toNat) := by
    show execEventAssert _ _ = _
    simp [execEventAssert, hwaits, hholds, hnew]
  obtain ⟨hraised, hlevel⟩ := State.assertEvent_level (s.modEv (fun e => e.setLevel src.toNat (some s.time.cycles))) src.toNat
  refine ⟨_, hexec, ?_, hraised, State.assertEvent_asserted (s.modEv _) src.isLt⟩
  rw [hlevel]
  exact SMap.find_put_self _ _ _

/-- A source whose gap has ended, coalesced no more. -/
def gapEnded (s : State) (k : Nat) : State :=
  s.modEv (fun e => { e with gapEnd := SMap.erase e.gapEnd k, coalesced := e.coalesced.filter (· ≠ k) })

theorem gapEnded_alike (s : State) (k : Nat) : DeliversAlike s (gapEnded s k) k :=
  ⟨fun _ _ => rfl, rfl, fun _ hj => SMap.find_erase_of_ne _ hj, rfl, rfl, rfl, rfl, rfl⟩

theorem not_coalesced_gapEnded (s : State) (k : Nat) : k ∉ (gapEnded s k).ev.coalesced := by simp [gapEnded]

/-- What was coalesced is delivered at the end of the gap. -/
theorem coalesceGapEnd_delivers (s : State) (src : BitVec 10) (hgap : s.inGap src.toNat = false) (hcoalesced : src.toNat ∈ s.ev.coalesced)
    (hstatus : s.evStatus src.toNat = true) (hmask : s.evMasked src.toNat = false) :
    Leaves (.coalesceGapEnd src) s (fun u => src.toNat ∉ u.ev.coalesced ∧ Delivered s u src.toNat) := by
  have hexec : exec (.coalesceGapEnd src) s = .next ((gapEnded s src.toNat).deliverEvent src.toNat) := by
    show execCoalesceGapEnd _ _ = _
    simp [execCoalesceGapEnd, hgap, hcoalesced, hstatus, hmask, gapEnded]
  refine ⟨_, hexec, ?_, (gapEnded_alike s _).delivered (State.deliverEvent_delivers _ _)⟩
  rw [State.coalesced_deliverEvent]
  exact not_coalesced_gapEnded s _

theorem coalesceGapEnd_ends (s : State) (src : BitVec 10) (hgap : s.inGap src.toNat = false)
    (h : src.toNat ∉ s.ev.coalesced ∨ s.evStatus src.toNat = false ∨ s.evMasked src.toNat = true) :
    Leaves (.coalesceGapEnd src) s (fun u => src.toNat ∉ u.ev.coalesced ∧ SMap.find u.ev.gapEnd src.toNat = none ∧
      u = { s with ev := { s.ev with gapEnd := u.ev.gapEnd, coalesced := u.ev.coalesced } }) := by
  have hnot : ¬ (s.ev.coalesced.contains src.toNat = true ∧ s.evStatus src.toNat = true ∧ ¬ s.evMasked src.toNat = true) := by
    rintro ⟨hc, hs, hm⟩
    rcases h with h | h | h
    · exact h (by simpa using hc)
    · exact absurd (hs.symm.trans h) (by simp)
    · exact hm h
  have hexec : exec (.coalesceGapEnd src) s = .next (gapEnded s src.toNat) := by
    show execCoalesceGapEnd _ _ = _
    simp only [execCoalesceGapEnd, hgap, Bool.false_eq_true, if_false, if_neg hnot, gapEnded]
  exact ⟨_, hexec, not_coalesced_gapEnded s _, SMap.find_erase_self _ _, rfl⟩

/-- A source masked for good and marked stuck. -/
def stuckMarked (s : State) (k : Nat) : State :=
  (s.setEvMask k true).setRf spineWin (0x200 + 4 * (k / 32)) (k % 32) (k % 32) (bit true)

theorem reg_stuckMarked_of_lt (s : State) (k : Nat) {o : Nat} (ho : o < 0x200) :
    (stuckMarked s k).reg spineWin o = (s.setEvMask k true).reg spineWin o :=
  State.reg_setReg_of_off_ne _ _ _ (by omega)

/-- Registers set one after the other change the registers only. -/
theorem setReg_frame {s v : State} {r : SMap Word32} (h : v = { s with regs := r }) (w off : Nat) (x : Word32) :
    v.setReg w off x = { s with regs := (v.setReg w off x).regs } := by
  subst h; rfl

theorem stuckCounted_frame (s : State) (k : Nat) :
    (stuckMarked s k).count spineWin 0x288 = { s with regs := ((stuckMarked s k).count spineWin 0x288).regs } :=
  setReg_frame (setReg_frame (setReg_frame (v := s) (r := s.regs) (by rfl) _ _ _) _ _ _) _ _ _

/-- What raises an event after registers have changed: they, and the events raised. -/
theorem raise_frame {s v : State} {r : SMap Word32} (h : v = { s with regs := r }) (src : Nat) :
    v.raise src = { s with regs := (v.raise src).regs, ev := { s.ev with raised := s.ev.raised ++ [src] } } := by
  subst h; rfl

/-- A source asserted for longer than stuck_ms is masked and reported. -/
theorem eventStuck_masks (s : State) (src : BitVec 10) (since : Nat) (hlevel : SMap.find s.ev.level src.toNat = some since)
    (hlimit : s.evStuckNs src.toNat ≠ 0) (hlong : since + s.evStuckNs src.toNat < s.time.cycles) (hholds : s.levelOf src.toNat = true)
    (hmask : s.evMasked src.toNat = false) :
    let k := src.toNat
    Leaves (.eventStuck src) s (fun u => u.evMasked k = true ∧ (∀ j, j < 1024 → j ≠ k → u.evMasked j = s.evMasked j) ∧
      s.evStatus k = u.evStatus k ∧ u.rf spineWin (0x200 + 4 * (k / 32)) (k % 32) (k % 32) = 1 ∧ Counted s u spineWin 0x288 ∧
      u = { s with regs := u.regs, ev := { s.ev with raised := s.ev.raised ++ [864] } }) := by
  intro k
  have hk : k < 1024 := src.isLt
  have hexec : exec (.eventStuck src) s = .next (((stuckMarked s k).count spineWin 0x288).raise 864) := by
    show execEventStuck _ _ = _
    simp [execEventStuck, hlevel, hlimit, hlong, hholds, hmask, stuckMarked, bit, k]
  have hcount : ∀ o, o ≠ 0x288 → (((stuckMarked s k).count spineWin 0x288).raise 864).reg spineWin o = (stuckMarked s k).reg spineWin o :=
    fun o ho => State.reg_count_of_off_ne (stuckMarked s k) spineWin ho
  have hbelow : ∀ o, o < 0x200 → (((stuckMarked s k).count spineWin 0x288).raise 864).reg spineWin o = (s.setEvMask k true).reg spineWin o :=
    fun o ho => (hcount o (by omega)).trans (reg_stuckMarked_of_lt s k ho)
  have hcounter : (stuckMarked s k).reg spineWin 0x288 = s.reg spineWin 0x288 :=
    (State.reg_setReg_of_off_ne _ _ _ (by omega)).trans (State.reg_setReg_of_off_ne _ _ _ (by omega))
  refine ⟨_, hexec, ?_, fun j hj hjk => ?_, ?_, ?_, ?_, raise_frame (stuckCounted_frame s k) 864⟩
  · exact (State.evMasked_of_reg (hbelow _ (by omega))).trans ((s.evMasked_setEvMask k k true).trans (if_pos rfl))
  · exact (State.evMasked_of_reg (hbelow _ (by omega))).trans ((s.evMasked_setEvMask j k true).trans (if_neg hjk))
  · exact (State.evStatus_of_reg ((hbelow _ (by omega)).trans (State.reg_setReg_of_off_ne _ _ _ (by omega)))).symm
  · rw [State.rf, hcount _ (by omega), fld_one, bit_eq_one, stuckMarked, State.getLsbD_setRf_table (s.setEvMask k true) spineWin 0x200 k k true, if_pos rfl]
  · rw [Counted, ← hcounter]
    exact State.toNat_reg_countBy (stuckMarked s k) spineWin 0x288 1

/-! ### Statuses cleared and masks written within a view -/

/-- The bits that a write of ones clears: those the viewer sees, but where the source asserts again (R8, R457). -/
def clearedBits (s : State) (viewer g : Nat) (bits again : Word32) : Word32 := bits &&& ~~~again &&& s.viewMask viewer g

theorem getLsbD_clearedBits (s : State) (viewer g : Nat) (bits again : Word32) {i : Nat} (hi : i < 32) :
    (clearedBits s viewer g bits again).getLsbD i = (bits.getLsbD i && !again.getLsbD i && s.seesEvent viewer (32 * g + i)) := by
  simp [clearedBits, State.getLsbD_viewMask, hi, -BitVec.getLsbD_eq_getElem]

theorem contains_sourcesOf_clearedBits (s : State) (viewer g : Nat) (bits again : Word32) (k : Nat) :
    (sourcesOf g (clearedBits s viewer g bits again)).contains k =
      (decide (k / 32 = g) && bits.getLsbD (k % 32) && !again.getLsbD (k % 32) && s.seesEvent viewer (32 * g + k % 32)) := by
  rw [Bool.eq_iff_iff, List.contains_iff_mem, mem_sourcesOf, getLsbD_clearedBits _ _ _ _ _ (Nat.mod_lt _ (by decide))]
  simp only [Bool.and_eq_true, decide_eq_true_eq, and_assoc]

/-- A status register with the bits cleared. -/
def statusCleared (s : State) (viewer g : Nat) (bits again : Word32) : State :=
  s.setReg spineWin (0x100 + 4 * g) (s.reg spineWin (0x100 + 4 * g) &&& ~~~(clearedBits s viewer g bits again))

theorem exec_evtStatusClear (s : State) (viewer : Src) (g : BitVec 5) (bits again : Word32) :
    exec (.evtStatusClear viewer g ⟨bits, again⟩) s =
      .next ((statusCleared s viewer g.toNat bits again).endPending (sourcesOf g.toNat (clearedBits s viewer g.toNat bits again))) := rfl

theorem frame_of_regs_of_funcs {s v u : State} {r : SMap Word32} {f : SMap FuncSt} (hv : v = { s with regs := r }) (hu : u = { v with funcs := f }) :
    u = { s with regs := u.regs, funcs := u.funcs } := by
  subst hv hu; rfl

/-- Ones clear the statuses that the viewer sees, but where the source asserts again, and end what is pending for them. -/
theorem evtStatusClear_clears (s : State) (viewer : Src) (g : BitVec 5) (bits again : Word32) :
    Leaves (.evtStatusClear viewer g ⟨bits, again⟩) s (fun u =>
      (∀ i, i < 32 → u.evStatus (32 * g.toNat + i) =
        (s.evStatus (32 * g.toNat + i) && !(bits.getLsbD i && !again.getLsbD i && s.seesEvent viewer (32 * g.toNat + i)))) ∧
      (∀ j, j < 1024 → j / 32 ≠ g.toNat → u.evStatus j = s.evStatus j) ∧ (∀ j, j < 1024 → u.evMasked j = s.evMasked j) ∧
      (∀ f, f < 64 → u.func f = { s.func f with pendingVec := (s.func f).pendingVec.filter (fun e =>
        !(decide (e.2 / 32 = g.toNat) && bits.getLsbD (e.2 % 32) && !again.getLsbD (e.2 % 32) &&
          s.seesEvent viewer (32 * g.toNat + e.2 % 32))) }) ∧
      (∀ f, 64 ≤ f → u.func f = s.func f) ∧ u = { s with regs := u.regs, funcs := u.funcs }) := by
  have hg : g.toNat < 32 := g.isLt
  have hother : ∀ o, o ≠ 0x100 + 4 * g.toNat → (statusCleared s viewer g.toNat bits again).reg spineWin o = s.reg spineWin o := fun o ho =>
    State.reg_setReg_of_off_ne s spineWin _ ho
  refine ⟨_, exec_evtStatusClear s viewer g bits again, fun i hi => ?_, fun j hj hjg => ?_, fun j hj => ?_, fun f hf => ?_, fun f hf => ?_,
    frame_of_regs_of_funcs (v := statusCleared s viewer g.toNat bits again) rfl (State.endPending_frame _ _)⟩
  · rw [State.evStatus_group _ _ hi, State.evStatus_group _ _ hi, State.reg_endPending, statusCleared, State.reg_setReg_self, BitVec.getLsbD_and,
      BitVec.getLsbD_not, getLsbD_clearedBits _ _ _ _ _ hi]
    simp [hi, -BitVec.getLsbD_eq_getElem]
  · exact State.evStatus_of_reg ((State.reg_endPending _ _ _ _).trans (hother _ (by omega)))
  · exact State.evMasked_of_reg ((State.reg_endPending _ _ _ _).trans (hother _ (by omega)))
  · rw [State.func_endPending, if_pos hf]
    simp only [FuncSt.endPending, contains_sourcesOf_clearedBits]
    rfl
  · rw [State.func_endPending, if_neg (by omega)]; rfl

/-- Whether a write of masks opens source i of a group over a status that is set. -/
def MaskOpens (s : State) (viewer g : Nat) (bits : Word32) (i : Nat) : Prop :=
  i < 32 ∧ s.seesEvent viewer (32 * g + i) = true ∧ s.evMasked (32 * g + i) = true ∧ bits.getLsbD i = false ∧ s.evStatus (32 * g + i) = true

/-- The sources that a write of masks opens, whatever their statuses. -/
def openedSources (s : State) (viewer g : Nat) (bits : Word32) : List Nat :=
  sourcesOf g (s.reg spineWin (0x180 + 4 * g) &&& s.viewMask viewer g &&& ~~~bits)

section
variable (s : State) (viewer : Nat) {g : Nat} (bits : Word32)

theorem mem_openedSources {i : Nat} (hi : i < 32) :
    32 * g + i ∈ openedSources s viewer g bits ↔
      s.seesEvent viewer (32 * g + i) = true ∧ s.evMasked (32 * g + i) = true ∧ bits.getLsbD i = false := by
  rw [openedSources, mem_sourcesOf, State.evMasked_group _ _ hi, show (32 * g + i) / 32 = g by omega, show (32 * g + i) % 32 = i by omega]
  simp [State.getLsbD_viewMask, hi, -BitVec.getLsbD_eq_getElem]
  tauto

theorem opens_of_mem_openedSources {k : Nat} (hk : k ∈ openedSources s viewer g bits) :
    ∃ i, k = 32 * g + i ∧ i < 32 ∧ (s.evStatus k = true → MaskOpens s viewer g bits i) := by
  obtain ⟨hkg, -⟩ := (mem_sourcesOf _ _ _).1 hk
  have hi : k % 32 < 32 := Nat.mod_lt _ (by decide)
  have hki : k = 32 * g + k % 32 := by omega
  rw [hki] at hk
  obtain ⟨hsees, hmasked, hbit⟩ := (mem_openedSources s viewer bits hi).1 hk
  exact ⟨k % 32, hki, hi, fun hstatus => ⟨hi, hsees, hmasked, hbit, hki ▸ hstatus⟩⟩

/-- Bit i of the group's masks after the write. -/
theorem getLsbD_maskWritten {i : Nat} (hi : i < 32) :
    ((s.maskWritten viewer g bits).reg spineWin (0x180 + 4 * g)).getLsbD i =
      if s.seesEvent viewer (32 * g + i) then bits.getLsbD i else (s.reg spineWin (0x180 + 4 * g)).getLsbD i := by
  rw [State.maskWritten, State.reg_setReg_self]
  cases h : s.seesEvent viewer (32 * g + i) <;> simp [State.getLsbD_viewMask, hi, h, -BitVec.getLsbD_eq_getElem]

theorem reg_maskWritten_of_ne {o : Nat} (ho : o ≠ 0x180 + 4 * g) : (s.maskWritten viewer g bits).reg spineWin o = s.reg spineWin o :=
  State.reg_setReg_of_off_ne s spineWin _ ho

theorem maskWritten_alike (hg : g < 32) (k : Nat) : DeliversAlike s (s.maskWritten viewer g bits) k :=
  ⟨fun _ ho => reg_maskWritten_of_ne s viewer bits (by omega), rfl, fun _ _ => rfl, rfl, rfl, rfl, rfl, rfl⟩

end

/-- What is not delivered after a change of masks and of stuck times. -/
theorem notDelivered_of_level {s v u : State} {r : SMap Word32} {l : SMap Nat} (hv : v = { s with regs := r }) (hu : u = { v with ev := { v.ev with level := l } })
    (hcount : v.reg spineWin 0x280 = s.reg spineWin 0x280) : NotDelivered s u := by
  subst hv hu
  exact ⟨rfl, rfl, rfl, rfl, rfl, hcount⟩

/-- What a write of masks leaves: the group's masks within the view, and every source that opens, delivered if its status is set. -/
theorem evtMaskWrite_writes (s : State) (viewer : Src) (g : BitVec 5) (bits : Word32) :
    Leaves (.evtMaskWrite viewer g bits) s (fun u =>
      (∀ i, i < 32 → u.evMasked (32 * g.toNat + i) =
        if s.seesEvent viewer (32 * g.toNat + i) then bits.getLsbD i else s.evMasked (32 * g.toNat + i)) ∧
      (∀ j, j < 1024 → j / 32 ≠ g.toNat → u.evMasked j = s.evMasked j) ∧ (∀ j, j < 1024 → u.evStatus j = s.evStatus j) ∧
      (∀ i since, i < 32 → s.seesEvent viewer (32 * g.toNat + i) = true → s.evMasked (32 * g.toNat + i) = true → bits.getLsbD i = false →
        SMap.find s.ev.level (32 * g.toNat + i) = some since → SMap.find u.ev.level (32 * g.toNat + i) = some s.time.cycles) ∧
      ((∀ i, ¬ MaskOpens s viewer g.toNat bits i) → NotDelivered s u) ∧
      (∀ i, MaskOpens s viewer g.toNat bits i → (∀ j, MaskOpens s viewer g.toNat bits j → j = i) → Delivered s u (32 * g.toNat + i))) := by
  have hg : g.toNat < 32 := g.isLt
  have hother : ∀ o, o ≠ 0x180 + 4 * g.toNat → (s.maskWritten viewer g.toNat bits).reg spineWin o = s.reg spineWin o := fun o =>
    reg_maskWritten_of_ne s viewer bits
  have hstatus : ∀ j, j < 1024 → (s.maskWritten viewer g.toNat bits).evStatus j = s.evStatus j := fun j hj =>
    State.evStatus_of_reg (hother _ (by omega))
  have hlt : ∀ k ∈ openedSources s viewer g.toNat bits, k < 1024 := fun k hk => by
    have := ((mem_sourcesOf _ _ _).1 hk).1
    omega
  have hexec : exec (.evtMaskWrite viewer g bits) s =
      .next ((openedSources s viewer g.toNat bits).foldl State.opened (s.maskWritten viewer g.toNat bits)) :=
    congrArg Host.Outcome.next (s.writeEvMask_eq viewer g.toNat bits)
  refine ⟨_, hexec, fun i hi => ?_, fun j hj hjg => ?_,
    fun j hj => ?_, fun i since hi hsees hmasked hbit hlevel => ?_, fun hnone => ?_, fun i hi hunique => ?_⟩
  · rw [State.evMasked_of_reg (State.reg_foldl_opened _ _ (by omega)), State.evMasked_group _ _ hi, State.evMasked_group _ _ hi,
      getLsbD_maskWritten s viewer bits hi]
  · exact (State.evMasked_of_reg (State.reg_foldl_opened _ _ (by omega))).trans (State.evMasked_of_reg (hother _ (by omega)))
  · exact (State.evStatus_of_reg (State.reg_foldl_opened _ _ (by omega))).trans (hstatus j hj)
  · exact State.level_foldl_opened _ _ ((mem_openedSources s viewer bits hi).2 ⟨hsees, hmasked, hbit⟩) hlevel
  · refine notDelivered_of_level rfl (State.foldl_opened_of_clear _ _ fun k hk => ⟨hlt k hk, ?_⟩) (hother _ (by omega))
    obtain ⟨i, rfl, hi, hopens⟩ := opens_of_mem_openedSources s viewer bits hk
    rw [hstatus _ (hlt _ hk), Bool.eq_false_iff]
    exact fun h => hnone i (hopens h)
  · obtain ⟨hi32, hsees, hmasked, hbit, hset⟩ := id hi
    refine (maskWritten_alike s viewer bits hg _).delivered (State.foldl_opened_delivers _ _ ((mem_openedSources s viewer bits hi32).2 ⟨hsees, hmasked, hbit⟩)
      (nodup_sourcesOf _ _) hlt ((hstatus _ (by omega)).trans hset) fun k hk hne => ?_)
    obtain ⟨j, rfl, hj, hopens⟩ := opens_of_mem_openedSources s viewer bits hk
    rw [hstatus _ (hlt _ hk), Bool.eq_false_iff]
    exact fun h => hne (by rw [hunique j (hopens h)])

/-! ### MSI-X (R455) -/

theorem foldl_postMessage (s : State) (f : Nat) (vs : List Nat) :
    vs.foldl (fun (s : State) v => s.postMessage f v) s =
      s.modEv (fun e => { e with messages := e.messages ++ vs.map (fun v => (f, v)) }) := by
  induction vs generalizing s with
  | nil => simp [State.modEv]
  | cons v vs ih =>
    rw [List.foldl_cons, ih]
    simp [State.postMessage, State.modEv]

theorem frame_of_funcs_of_messages {s v : State} {r : SMap FuncSt} (h : v = { s with funcs := r }) (ms : List (Nat × Nat)) :
    let u := v.modEv (fun e => { e with messages := e.messages ++ ms })
    u = { s with funcs := u.funcs, ev := { s.ev with messages := u.ev.messages } } := by
  subst h; rfl

theorem setFunc_frame {s v : State} {r : SMap FuncSt} (h : v = { s with funcs := r }) (f : Nat) (x : FuncSt) :
    v.setFunc f x = { s with funcs := (v.setFunc f x).funcs } := by
  subst h; rfl

/-- What waits and may go out once a function holds y goes out. -/
theorem flushVectors_flushed (s : State) (f : Nat) (y : FuncSt) : Flushed s ((s.setFunc f y).flushVectors f) f y := by
  rw [State.flushVectors, func_setFunc_self, foldl_postMessage]
  exact ⟨rfl, func_setFunc_self _ f _, fun g hg => (func_setFunc_of_ne _ _ hg).trans (func_setFunc_of_ne s y hg),
    frame_of_funcs_of_messages (setFunc_frame (setFunc_frame (v := s) (r := s.funcs) (by rfl) f y) f _) _⟩

theorem msixUnmask_flushes (s : State) (f : Func) (v : BitVec 8) :
    Leaves (.msixUnmask f v true) s (fun u => Flushed s u f.val { s.func f.val with msixOn := true }) ∧
    (v.toNat < vectorsOf f.val → Leaves (.msixUnmask f v false) s (fun u => ∃ m, (∀ i, SMap.get (fun _ => false) m i =
      (decide (i = v.toNat) || SMap.get (fun _ => false) (s.func f.val).unmasked i)) ∧ Flushed s u f.val { s.func f.val with unmasked := m })) := by
  refine ⟨⟨_, rfl, flushVectors_flushed s f _⟩, fun hv => ?_⟩
  have hexec : exec (.msixUnmask f v false) s = .next ((s.setFunc f.val
      { s.func f.val with unmasked := SMap.set (fun _ => false) (s.func f.val).unmasked v.toNat true }).flushVectors f.val) := by
    rw [show exec (.msixUnmask f v false) s = execMsixUnmask f v false s from rfl]
    simp [execMsixUnmask, hv]
  refine ⟨_, hexec, _, fun i => ?_, flushVectors_flushed s f _⟩
  by_cases hi : i = v.toNat
  · subst hi; simp
  · simp [hi, SMap.get_set_of_ne _ _ _ hi]

/-- Settles O53: each part by its own row's lemma. -/
theorem eventsAssertAndAreDelivered : Obligations.EventsAssertAndAreDelivered := by
  refine ⟨fun s src => ⟨eventAssert_waiting s src, eventAssert_begins s src, fun hgap => ⟨coalesceGapEnd_delivers s src hgap, coalesceGapEnd_ends s src hgap⟩,
    eventStuck_masks s src⟩, fun s viewer g bits => ⟨evtStatusClear_clears s viewer g bits, evtMaskWrite_writes s viewer g bits⟩, msixUnmask_flushes⟩

end Sys2Proof.Safety
end

section
/-! Mailbox commands: what each row performs, the answer of a sender's one command, and the checks before its own meaning (18, R441, R443, R465,
R466, R499). -/

namespace Sys2Proof.Machine

open Sys2Proof.Safety

/-! ### Bytes read back -/

theorem length_bytesAt (bs : List Byte) (i n : Nat) : (bytesAt bs i n).length = n := by
  simp [bytesAt]

theorem length_fitBytes (bs : List Byte) (n : Nat) : (fitBytes bs n).length = n := length_bytesAt bs 0 n

/-- Bytes written are read back. -/
theorem Memory.readBytes_writeBytes_self (bs : List Byte) (m : List Host.Cell) (a : Nat) :
    Memory.readBytes (Memory.writeBytes m a bs) a bs.length = bs := by
  induction bs generalizing m a with
  | nil => rfl
  | cons b bs ih =>
    have hfirst : Memory.read (Memory.writeBytes (Memory.write m a b) (a + 1) bs) a = b :=
      (Memory.read_writeBytes_outside bs _ _ _ (by omega)).trans (Memory.read_write_self m a b)
    rw [Memory.writeBytes, List.length_cons, Memory.readBytes, hfirst, ih]

/-- Bytes written leave every stretch beside them as it was. -/
theorem Memory.readBytes_writeBytes_apart (bs : List Byte) (m : List Host.Cell) (a c n : Nat) (h : c + n ≤ a ∨ a + bs.length ≤ c) :
    Memory.readBytes (Memory.writeBytes m a bs) c n = Memory.readBytes m c n := by
  induction n generalizing c with
  | zero => rfl
  | succ n ih => rw [Memory.readBytes, Memory.readBytes, Memory.read_writeBytes_outside bs m a c (by omega), ih (c + 1) (by omega)]

/-! ### The oldest command of a sender -/

/-- A ring that starts anew keeps everything but where it stands. -/
theorem FuncSt.restarted_keeps (x : FuncSt) : x.restarted = { x with restart := x.restarted.restart, reqHead := x.restarted.reqHead } := by
  unfold FuncSt.restarted; split <;> rfl

theorem State.func_popTaken_self (s : State) (f : Nat) :
    (s.popTaken f).func f = ({ s.func f with taken := (s.func f).taken.drop 1 } : FuncSt).restarted := func_setFunc_self _ _ _

theorem State.func_popTaken_of_ne (s : State) {f g : Nat} (h : g ≠ f) : (s.popTaken f).func g = s.func g := func_setFunc_of_ne s _ h

theorem State.taken_popTaken {s : State} {f : Nat} {t : Taken} (h : (s.func f).taken = [t]) : ((s.popTaken f).func f).taken = [] := by
  rw [State.func_popTaken_self, FuncSt.restarted_keeps, h]; rfl

/-- The functions after a sender's oldest command is removed do not depend on Spine. -/
theorem State.popTaken_modSpine (s : State) (f : Nat) (g : SpineSt → SpineSt) : (s.modSpine g).popTaken f = (s.popTaken f).modSpine g := rfl

theorem State.func_modSpine (s : State) (f : Nat) (g : SpineSt → SpineSt) : (s.modSpine g).func f = s.func f := rfl
theorem State.setFunc_modSpine (s : State) (f : Nat) (x : FuncSt) (g : SpineSt → SpineSt) : (s.modSpine g).setFunc f x = (s.setFunc f x).modSpine g := rfl
theorem State.modSpine_modSpine (s : State) (g h : SpineSt → SpineSt) : (s.modSpine g).modSpine h = s.modSpine (h ∘ g) := rfl

/-- What is written into an extended buffer of the host, if anything is. -/
theorem State.hostWrite_of_nonempty (s : State) (a : Nat) (data : List Byte) :
    (if data.isEmpty then s else s.modSpine (fun x => { x with host := Memory.writeBytes x.host a data })) =
      s.modSpine (fun x => { x with host := if data = [] then x.host else Memory.writeBytes x.host a data }) := by
  cases data <;> rfl

theorem State.popTaken_frame (s : State) (f : Nat) : s.popTaken f = { s with funcs := (s.popTaken f).funcs } := rfl

/-- A ring without commands is settled. -/
theorem State.settleRing_of_empty {s : State} {f : Nat} (h : (s.func f).taken = []) (n : Nat) : s.settleRing f n = s := by
  cases n with
  | zero => rfl
  | succ n => rw [State.settleRing, h]

end Sys2Proof.Machine

namespace Sys2Proof.Safety

open Sys2Proof.Machine

/-! ### The answer of a sender's one command (R441, R466) -/

/-- State v with other functions, one more pulse and another host memory, response and buffer of the board controller's path. -/
def answered (v : State) (funcs : SMap FuncSt) (src : Nat) (host : List Host.Cell) (resp buf : List Byte) : State :=
  { v with funcs := funcs, ev := { v.ev with raised := v.ev.raised ++ [src] }, spine := { v.spine with host := host, bmcResp := resp, bmcBuf := buf } }

theorem answered_of_funcs {v w : State} {funcs : SMap FuncSt} (hw : w = { v with funcs := funcs }) (src : Nat) (g : SpineSt → SpineSt)
    {host : List Host.Cell} {resp buf : List Byte} (hg : g v.spine = { v.spine with host := host, bmcResp := resp, bmcBuf := buf }) :
    (w.modSpine g).raise src = answered v funcs src host resp buf := by
  subst hw
  rw [answered, ← hg]
  rfl

section
variable {s : State} {t : Taken} (r : Reply)

/-- An answer on the board controller's path. -/
theorem responds_answer_bmc (htaken : (s.func 64).taken = [t]) : Responds s (s.answer 64 r) 64 t r := by
  have hanswer : s.answer 64 r =
      answered s (s.popTaken 64).funcs 869 s.spine.host (responseBytes t.entry r) (if r.ext = [] then s.spine.bmcBuf else r.ext) := by
    simp only [State.answer, htaken, if_true, State.popTaken_modSpine]
    exact answered_of_funcs (State.popTaken_frame s 64) 869 _ (by cases r.ext <;> rfl)
  rw [hanswer]
  exact ⟨rfl, State.taken_popTaken htaken, fun g hg => State.func_popTaken_of_ne s hg, fun _ => ⟨rfl, rfl, rfl⟩, fun h => absurd rfl h⟩

/-- Host memory after an answer of a function: the extended buffer, then the response entry. -/
def hostAnswered (s : State) (f : Nat) (t : Taken) (r : Reply) : List Host.Cell :=
  Memory.writeBytes (if r.ext = [] then s.spine.host else Memory.writeBytes s.spine.host (cmdBuf t.entry) r.ext) (slotAt s f)
    (fitBytes (responseBytes t.entry r) 256)

/-- An answer in a function's response ring. -/
theorem responds_answer_function {f : Nat} (hf : f ≠ 64) (hup : s.hostUp = true) (htaken : (s.func f).taken = [t]) :
    Responds s (s.answer f r) f t r := by
  have hanswer : s.answer f r = answered s
      ((s.popTaken f).setFunc f { (s.popTaken f).func f with rspTail := ((s.func f).rspTail + 1) % 65536 }).funcs (512 + f) (hostAnswered s f t r)
      s.spine.bmcResp s.spine.bmcBuf := by
    simp only [State.answer, htaken, hf, hup, if_false, Bool.not_true, Bool.false_eq_true, State.hostWrite_of_nonempty, State.hostWrite,
      State.modSpine_modSpine, State.popTaken_modSpine, State.func_modSpine, State.setFunc_modSpine]
    exact answered_of_funcs rfl (512 + f) _ rfl
  have hself : (answered s
      ((s.popTaken f).setFunc f { (s.popTaken f).func f with rspTail := ((s.func f).rspTail + 1) % 65536 }).funcs (512 + f) (hostAnswered s f t r)
      s.spine.bmcResp s.spine.bmcBuf).func f = { (s.popTaken f).func f with rspTail := ((s.func f).rspTail + 1) % 65536 } := func_setFunc_self _ _ _
  rw [hanswer]
  refine ⟨by simp only [if_neg hf]; rfl, ?_, fun g hg => ?_, fun h => absurd h hf, fun _ => ⟨rfl, rfl, ?_, ?_, fun a hslot hbuf => ?_, fun hapart => ?_⟩⟩
  · rw [hself]; exact State.taken_popTaken htaken
  · exact (func_setFunc_of_ne _ _ hg).trans (State.func_popTaken_of_ne s hg)
  · rw [hself]
  · have := Memory.readBytes_writeBytes_self (fitBytes (responseBytes t.entry r) 256)
      (if r.ext = [] then s.spine.host else Memory.writeBytes s.spine.host (cmdBuf t.entry) r.ext) (slotAt s f)
    rw [length_fitBytes] at this
    exact this
  · refine (Memory.read_writeBytes_outside _ _ _ _ (by rwa [length_fitBytes])).trans ?_
    split
    · rfl
    · exact Memory.read_writeBytes_outside _ _ _ _ hbuf
  · refine (Memory.readBytes_writeBytes_apart _ _ _ _ _ (by rw [length_fitBytes]; omega)).trans ?_
    split
    · next h => rw [h]; rfl
    · exact Memory.readBytes_writeBytes_self _ _ _

theorem responds_answer {f : Nat} (hup : f = 64 ∨ s.hostUp = true) (htaken : (s.func f).taken = [t]) : Responds s (s.answer f r) f t r := by
  by_cases hf : f = 64
  · subst hf; exact responds_answer_bmc r htaken
  · exact responds_answer_function r hf (hup.resolve_left hf) htaken

end

/-! ### The rows of command set 1.0 -/

theorem performs (s : State) (f op : Nat) (body : State → Taken → Served) : ∃ b, s.perform f op body = s.perform f op b := ⟨body, rfl⟩

/-- BLOCK_ASSIGN performs the one of its two opcodes that its sender's oldest command has. -/
theorem execBlockAssign_performs {s : State} (f : Src) {op : Nat} {t : Taken} (hrow : op = 0x0504 ∨ op = 0x0604) (htaken : (s.func f).taken = [t])
    (hop : cmdOpcode t.entry = op) : ∃ body, execBlockAssign f s = s.perform f op body := by
  rw [execBlockAssign, htaken]
  rcases hrow with rfl | rfl <;> (simp only [hop]; exact performs ..)

/-- Every row performs its sender's oldest command, where that has the row's opcode. -/
theorem exec_of_mailRow {i : Instr} {s : State} {f op : Nat} {t : Taken} (hrow : (f, op) ∈ mailRows i) (htaken : (s.func f).taken = [t])
    (hop : cmdOpcode t.entry = op) : ∃ body, exec i s = s.perform f op body := by
  unfold mailRows at hrow
  split at hrow
  case h_27 f' =>
    simp only [List.mem_cons, List.not_mem_nil, Prod.mk.injEq, or_false, ← and_or_left] at hrow
    obtain ⟨rfl, hrow⟩ := hrow
    exact execBlockAssign_performs f' hrow htaken hop
  case h_60 => exact absurd hrow List.not_mem_nil
  all_goals
    cases List.mem_singleton.1 hrow
    unfold exec
    exact performs ..

/-- A sender's one command that is checked now is answered by what the check gives, and nothing else happens (R443). -/
theorem leaves_of_checkNow {i : Instr} {s : State} {f op : Nat} {t : Taken} {r : Reply} (hrow : (f, op) ∈ mailRows i) (htaken : (s.func f).taken = [t])
    (hgood : t.bad = false) (hop : cmdOpcode t.entry = op) (hanswers : s.answers f = true) (hup : f = 64 ∨ s.hostUp = true)
    (hcheck : s.checkNow f t = some r) : Leaves i s (fun u => Responds s u f t r) := by
  obtain ⟨body, hexec⟩ := exec_of_mailRow hrow htaken hop
  have hresponds := responds_answer r hup htaken
  refine ⟨s.answer f r, ?_, hresponds⟩
  rw [hexec, State.perform, htaken]
  simp [hgood, hop, hanswers, hcheck, State.settleRing_of_empty hresponds.2.1]

/-! ### The checks of R443 in their order (log 92) -/

theorem badField_size {row : CmdRow} {e : List Byte} (h : row.sizeOk e = false) : badField row e = some 4 := by simp [badField, h]

theorem badField_flags {row : CmdRow} {e : List Byte} (h : row.sizeOk e = true) (h7 : byteAt e 7 ≠ 0) : badField row e = some 7 := by
  rw [badField, if_neg (by simp [h]), if_pos h7]

section
variable {row : CmdRow} {e : List Byte} (h : row.sizeOk e = true) (h7 : byteAt e 7 = 0)
include h h7

theorem badField_eq_findSome : badField row e = (List.range 12).findSome? (fun i => if byteAt e (0x14 + i) ≠ 0 then some (0x14 + i) else none) := by
  rw [badField, if_neg (by simp [h]), if_neg (not_not_intro h7)]

/-- The first reserved byte that is not zero. -/
theorem badField_reserved {k : Nat} (hk : k < 12) (hbyte : byteAt e (0x14 + k) ≠ 0) (hfirst : ∀ j, j < k → byteAt e (0x14 + j) = 0) :
    badField row e = some (0x14 + k) := by
  obtain ⟨m, hm⟩ : ∃ m, 12 = k + (m + 1) := ⟨11 - k, by omega⟩
  rw [badField_eq_findSome h h7, hm, List.range_add, List.range_succ_eq_map, List.map_cons, List.findSome?_eq_some_iff]
  exact ⟨_, _, _, rfl, if_pos hbyte, fun j hj => if_neg (not_not_intro (hfirst j (List.mem_range.1 hj)))⟩

theorem badField_none (hzero : ∀ j, j < 12 → byteAt e (0x14 + j) = 0) : badField row e = none := by
  rw [badField_eq_findSome h h7, List.findSome?_eq_none_iff]
  exact fun j hj => if_neg (not_not_intro (hzero j (List.mem_range.1 hj)))

end

/-! ### The sizes of payloads -/

theorem cmdRow_regWrite {row : CmdRow} (h : cmdRow 0x0204 = some row) : row.opcode = 0x0204 ∧ row.size = none := by
  obtain rfl : (⟨0x0204, true, false, false, none⟩ : CmdRow) = row := Option.some.inj h
  exact ⟨rfl, rfl⟩

theorem cmdRow_classWrite {row : CmdRow} (h : cmdRow 0x0502 = some row) : row.opcode = 0x0502 ∧ row.size = none := by
  obtain rfl : (⟨0x0502, true, false, false, none⟩ : CmdRow) = row := Option.some.inj h
  exact ⟨rfl, rfl⟩

section
variable {row : CmdRow} {e : List Byte}

theorem sizeOk_of_fixed {n : Nat} (h : row.size = some n) (hlen : cmdLength e ≠ n) : row.sizeOk e = false := by
  simp [CmdRow.sizeOk, h, hlen]

theorem sizeOk_of_long (h : 224 < cmdLength e) : row.sizeOk e = false := by
  simp [CmdRow.sizeOk, h]

theorem sizeOk_of_regWrite (hrow : cmdRow 0x0204 = some row) (hlen : cmdLength e ≠ 5 + 4 * (byteAt (cmdPayload e) 4).toNat) : row.sizeOk e = false := by
  simp [CmdRow.sizeOk, cmdRow_regWrite hrow, hlen]

theorem sizeOk_of_classWrite (hrow : cmdRow 0x0502 = some row) {n size : Nat} {place : Option (Nat × Nat)}
    (htarget : classTarget (byteAt (cmdPayload e) 0).toNat = some (n, size, place)) (hlen : cmdLength e ≠ 5 + size)
    (hstage : ¬ (byteAt (cmdPayload e) 0 = 0 ∧ cmdLength e = 53)) : row.sizeOk e = false := by
  have hstage' : (byteAt (cmdPayload e) 0).toNat = 0 → cmdLength e ≠ 53 := fun h0 h53 => hstage ⟨BitVec.eq_of_toNat_eq h0, h53⟩
  simp [CmdRow.sizeOk, cmdRow_classWrite hrow, htarget, hlen]
  exact fun _ => hstage'

end

/-! ### The answers of the checks -/

section
variable {s : State} {f op : Nat} {t : Taken} {row : CmdRow} (hrow : cmdRow op = some row) (hgood : t.bad = false) (hop : cmdOpcode t.entry = op)
include hrow hgood hop

theorem preCheck_forbidden (h : row.from f = false ∨ s.tenantOk f t.entry = false) : s.preCheck f t = some (Reply.plain 4) := by
  rcases h with h | h <;> simp [State.preCheck, hgood, hop, hrow, h]

variable (hfrom : row.from f = true) (htenant : s.tenantOk f t.entry = true)
include hfrom htenant

theorem preCheck_badField {n : Nat} (h : badField row t.entry = some n) : s.preCheck f t = some ⟨2, [], [], n⟩ := by
  simp [State.preCheck, hgood, hop, hrow, hfrom, htenant, h]

theorem preCheck_locked (h : badField row t.entry = none) (hsec : s.trust.sec = .locked) (hgroup : op / 256 ∉ [0x01, 0x0A, 0x0B, 0x0D]) :
    s.preCheck f t = some (Reply.plain 13) := by
  simp at hgroup
  simp [State.preCheck, hgood, hop, hrow, hfrom, htenant, h, hsec, hgroup]

end

section
variable {s : State} {f : Nat} {t : Taken}

theorem checkNow_of_preCheck {r : Reply} (hphase : t.phase = 0) (h : s.preCheck f t = some r) : s.checkNow f t = some r := by
  simp [State.checkNow, hphase, h]

theorem checkNow_of_waiting (hphase : 0 < t.phase) (htenant : s.tenantOk f t.entry = false) : s.checkNow f t = some (Reply.plain 4) := by
  simp [State.checkNow, hphase.ne', htenant]

/-- BUSY of the ROM and of the board controller's path comes last (log 92). -/
theorem checkNow_of_busy {op : Nat} (hphase : t.phase = 0) (h : s.preCheck f t = none) (hop : cmdOpcode t.entry = op) (hserves : s.spineServes = false)
    (hbusy : (f = 64 ∧ op ≠ 0x0B01) ∨ (f ≠ 64 ∧ op ≠ 0x0101 ∧ ¬ (op = 0x0401 ∧ byteAt (cmdPayload t.entry) 0 = 4))) :
    s.checkNow f t = some (Reply.plain 5) := by
  have hrom : s.romBusy f t.entry = true := by
    rcases hbusy with ⟨hf, hbusy⟩ | ⟨hf, hinfo, hstage⟩
    · simp [State.romBusy, hserves, hop, hf, hbusy]
    · simpa [State.romBusy, hserves, hop, hf, hinfo] using not_and_or.1 hstage
  simp [State.checkNow, hphase, h, hrom]

end

/-- Settles O47: each answer by the check that gives it, in the order of the checks. -/
theorem mailboxCommandsAreChecked : Obligations.MailboxCommandsAreChecked := by
  intro i s f op t row hrow hcmd htaken hgood hop hanswers hup gets busy
  have gets_of (r : Reply) (h : s.checkNow f t = some r) : gets r := leaves_of_checkNow hrow htaken hgood hop hanswers hup h
  refine ⟨fun hphase htenant => gets_of _ (checkNow_of_waiting hphase htenant), fun hphase => ⟨fun h => ?_, fun hfrom htenant => ?_, fun hnone hbusy => ?_⟩⟩
  · exact gets_of _ (checkNow_of_preCheck hphase (preCheck_forbidden hcmd hgood hop h))
  · have bad (n : Nat) (h : badField row t.entry = some n) : gets ⟨2, [], [], n⟩ :=
      gets_of _ (checkNow_of_preCheck hphase (preCheck_badField hcmd hgood hop hfrom htenant h))
    refine ⟨fun n hsize hlen => bad 4 (badField_size (sizeOk_of_fixed hsize hlen)), fun hlong => bad 4 (badField_size (sizeOk_of_long hlong)),
      fun hreg hlen => bad 4 (badField_size (sizeOk_of_regWrite (hreg ▸ hcmd) hlen)),
      fun n size place hclass htarget hlen hstage => bad 4 (badField_size (sizeOk_of_classWrite (hclass ▸ hcmd) htarget hlen hstage)),
      fun hsize => ⟨fun h7 => bad 7 (badField_flags hsize h7), fun k h7 hk hbyte hfirst => bad _ (badField_reserved hsize h7 hk hbyte hfirst),
        fun h7 hzero hsec hgroup => ?_⟩⟩
    exact gets_of _ (checkNow_of_preCheck hphase (preCheck_locked hcmd hgood hop hfrom htenant (badField_none hsize h7 hzero) hsec hgroup))
  · exact gets_of _ (checkNow_of_busy hphase hnone hop hbusy.1 hbusy.2)

end Sys2Proof.Safety
end

section
/-! Two statements about Gatherings that the model does not meet in every state: each with the state, and what the model makes of it. -/

namespace Sys2Proof.Safety

open Sys2Proof.Machine

/-- Whether an answer is a next state that holds a test. -/
def nextHolds (p : State → Bool) : Res → Bool
  | .next u => p u
  | _ => false

/-- What a command is said to leave, the model's own answer shows. -/
theorem nextHolds_of_leaves {i : Instr} {s : State} {P : State → Prop} {p : State → Bool} (h : Leaves i s P) (hp : ∀ u, P u → p u = true) :
    nextHolds p (exec i s) = true := by
  obtain ⟨u, hexec, hu⟩ := h
  rw [hexec]
  exact hp u hu

/-! ### A group that goes on reporting FAILED (R18, R26, R27) -/

/-- A bound Gathering in a state, with a command in progress or none. -/
def gathIn (g : GState) (c : Option UcbCmd) : Gath := ⟨g, .bound, 0, c, none, 0, false⟩

/-- The buffer memory group is QUIESCING; both of its stacks are ABSENT, and channel 0 of the first one is FAILED. -/
def absentStacks : State :=
  { State.reset with gath := [(281, gathIn .quiescing none), (282, gathIn .absent none), (283, gathIn .absent none), (284, gathIn .failed none)] }

/-- The group reports FAILED, the first of R26's order that any of its members holds, before it enters QUIET and after: the state it reports does
not change, and state_change does not set. -/
theorem quiesceDone_absentStacks : nextHolds (fun u => (u.reg 281 0x20).getLsbD 3) (exec (.quiesceDone 281) absentStacks) = false := by
  decide +kernel

/-- The members are ABSENT, so they do not hold up the group's DRAIN (log 46). -/
theorem absentStacks_quiesced :
    membersOf 281 ≠ [] ∧ (∀ a ∈ ancestorsOf 281, (absentStacks.gathOf a).cmd = none ∧ (absentStacks.gathOf a).tip = none) ∧
    (absentStacks.gathOf 281).own = .quiescing ∧ (absentStacks.gathOf 281).tip = none ∧ kindOf 281 ≠ 0x0E ∧ absentStacks.workDone 281 = true ∧
    (absentStacks.gathOf 281).timedOut = false ∧ absentStacks.time.cycles = 0 ∧
    ∀ m ∈ absentStacks.boundOf 281, (absentStacks.gathOf m).own = .absent ∧ (absentStacks.gathOf m).cmd = none := by
  decide +kernel

/-- Refutes O27, in its clause of R27: a group whose members are ABSENT enters QUIET, and the statement says that state_change sets; but where a
member of an ABSENT member is FAILED, the group reports FAILED before and after (R26), so that nothing it reports changes and the bit stays
clear. -/
theorem not_groupsSpreadTheirCommands : ¬ Obligations.GroupsSpreadTheirCommands := by
  rintro ⟨-, -, hquiet, -⟩
  obtain ⟨hmembers, habove, hown, htip, hkind, hdone, htimed, hcycles, hbound⟩ := absentStacks_quiesced
  have hleaves := (hquiet absentStacks 281 hmembers habove hown htip (.inl hkind)).1 hdone htimed (fun hlate => Nat.not_lt_zero _ (hcycles ▸ hlate.2))
    (fun m hm => ⟨.inr (hbound m hm).1, (hbound m hm).2⟩)
  have hset := nextHolds_of_leaves (p := fun u => (u.reg 281 0x20).getLsbD 3) hleaves fun u ⟨⟨_, hchange, _⟩, _⟩ => hchange
  rw [quiesceDone_absentStacks] at hset
  exact Bool.noConfusion hset

/-! ### A cell of a port that no part has (R301, R540) -/

/-- An output in Finisher, of packet 0. -/
def finisherOutput : Output := ⟨⟨0, 0, 0, none, [], 0, false, 64, 0⟩, 0, 64, 0, .finisher, [], 0, none, none, none⟩

/-- Packet 0 has ended but for the reference that an output holds to its one cell. -/
def endedPacket : Packet :=
  { port := 0, prio := 0, ts := 0, bytes := [], complete := true, descCtx := none, handle := some 0, place := .gone, parse := none, record := [],
    exc := none, fragBind := .notLooked, fragFirstKey := none, fragMissAction := 2, profile := 0, stage := 0, stageKey := [], profileDone := true,
    md := 0, waitSince := none, learnWait := none, arrived := 0 }

/-- Finisher is IN_SERVICE with a RESUME in progress, and holds one output. The metadata word of its cell names port 15942 and priority 9, where a
part has the ports 0 to 35 and the priorities 0 to 7: LOFT_PORT_CFG of that port would stand at 0x700 + 4 × 15942 of Loft's window, which is
UCB_CMD_STATUS of the next window, Finisher's. -/
def strayCell : State :=
  { State.reset with
    gath := [(422, gathIn .inService (some .resume))]
    regs := [(loftWin * 65536 + 0x100, 0x40000000), (loftWin * 65536 + 0x108, 16), (loftWin * 65536 + 0x800 + 4 * (8 * 15942 + 9), 0x80000000)]
    loft := { State.reset.loft with cells := [(0, ⟨0, 1, 15942, 9, true, true, true, 0⟩)] }
    packets := [(0, endedPacket)]
    drover := { State.reset.drover with outs := [(0, finisherOutput)] } }

/-- The failure drops the output and frees its cell; XOFF of the cell's port and priority sets bit 17 of what is UCB_CMD_STATUS of Finisher, and its
result reads 7 where ABORTED is 5. -/
theorem hardwareFailure_strayCell : nextHolds (fun u => decide (u.rf 422 0x18 23 16 = 5)) (exec (.hardwareFailure 422) strayCell) = false := by
  decide +kernel

theorem strayCell_fails :
    membersOf 422 = [] ∧ (∀ a ∈ ancestorsOf 422, (strayCell.gathOf a).cmd = none ∧ (strayCell.gathOf a).tip = none) ∧
    (strayCell.gathOf 422).tip = none ∧ (strayCell.gathOf 422).own = .inService ∧ (strayCell.gathOf 422).cmd = some .resume := by
  decide +kernel

/-- Refutes O28, in its last clause: the command in progress ends with ABORTED, but what the failing Finisher drops frees a cell, and nothing bounds
the port and the priority of a cell's metadata in the statement's states, so that XOFF of them may fall on Finisher's own UCB_CMD_STATUS. -/
theorem not_transitionsEnd : ¬ Obligations.TransitionsEnd := by
  intro h
  obtain ⟨hmembers, habove, htip, hown, hcmd⟩ := strayCell_fails
  obtain ⟨-, -, -, -, -, hfails⟩ := h strayCell 422 hmembers habove htip
  have hleaves := hfails (hown ▸ by decide) (hown ▸ by decide) (hown ▸ by decide)
  have haborted := nextHolds_of_leaves (p := fun u => decide (u.rf 422 0x18 23 16 = 5)) hleaves fun u ⟨_, _, hresult⟩ =>
    decide_eq_true (hresult .resume hcmd).2
  rw [hardwareFailure_strayCell] at haborted
  exact Bool.noConfusion haborted

end Sys2Proof.Safety
end

section
/-! What the work inside the units leaves of the Gatherings: what they hold, UCB_CMD_STATUS and state_change (01, R17 to R20, R540). Here the view of
it, and the registers, the ports and the memories. -/

namespace Sys2Proof.Machine

open Sys2Proof.Safety

/-- What the Gatherings hold, and of every window below a bound UCB_CMD_STATUS and the bit state_change of UCB_EVENT_SUMMARY. -/
def State.ucb (s : State) (lo : Nat) : SMap Gath × (Fin lo → Word32 × Bool) := (s.gath, fun x => (s.reg x 0x18, (s.reg x 0x20).getLsbD 3))

namespace State

section
variable (s : State) (lo : Nat)

/-! ### What the view takes in -/

theorem ucb_of_eq {s u : State} (hgath : u.gath = s.gath) (hregs : u.regs = s.regs) : u.ucb lo = s.ucb lo := by
  simp [State.ucb, State.reg, hgath, hregs]

theorem gath_of_ucb {s u : State} {lo : Nat} (h : u.ucb lo = s.ucb lo) : u.gath = s.gath := congrArg Prod.fst h

theorem gathOf_of_ucb {s u : State} {lo : Nat} (h : u.ucb lo = s.ucb lo) (x : Nat) : u.gathOf x = s.gathOf x := by
  rw [State.gathOf, State.gathOf, gath_of_ucb h]

theorem status_of_ucb {s u : State} {lo x : Nat} (h : u.ucb lo = s.ucb lo) (hx : x < lo) : u.reg x 0x18 = s.reg x 0x18 :=
  congrArg Prod.fst (congrFun (congrArg Prod.snd h) ⟨x, hx⟩)

theorem stateChange_of_ucb {s u : State} {lo x : Nat} (h : u.ucb lo = s.ucb lo) (hx : x < lo) : (u.reg x 0x20).getLsbD 3 = (s.reg x 0x20).getLsbD 3 :=
  congrArg Prod.snd (congrFun (congrArg Prod.snd h) ⟨x, hx⟩)

theorem ucb_of_regs {s u : State} (hgath : u.gath = s.gath) (hstatus : ∀ x, x < lo → u.reg x 0x18 = s.reg x 0x18)
    (hchange : ∀ x, x < lo → (u.reg x 0x20).getLsbD 3 = (s.reg x 0x20).getLsbD 3) : u.ucb lo = s.ucb lo :=
  Prod.ext hgath (funext fun x => Prod.ext (hstatus x x.isLt) (hchange x x.isLt))

/-- Below window 0 there is nothing but what the Gatherings hold. -/
theorem ucb_zero {s u : State} (hgath : u.gath = s.gath) : u.ucb 0 = s.ucb 0 :=
  ucb_of_regs 0 hgath (fun _ h => absurd h (Nat.not_lt_zero _)) (fun _ h => absurd h (Nat.not_lt_zero _))

/-! ### Registers -/

section
variable {w off : Nat}

/-- A register that stands at neither offset of any window. -/
@[simp] theorem ucb_setReg (v : Word32) (h : off % 65536 ≠ 0x18 ∧ off % 65536 ≠ 0x20) : (s.setReg w off v).ucb lo = s.ucb lo :=
  have hne (x o : Nat) (ho : o = 0x18 ∨ o = 0x20) : (s.setReg w off v).reg x o = s.reg x o := SMap.get_set_of_ne _ _ _ (by omega)
  ucb_of_regs lo rfl (fun x _ => hne x _ (.inl rfl)) (fun x _ => by rw [hne x _ (.inr rfl)])

/-- A register of a window at or above the bound, wherever its offset lies. -/
theorem ucb_setReg_of_le {lo : Nat} (v : Word32) (h : lo ≤ w) : (s.setReg w off v).ucb lo = s.ucb lo :=
  have hne (x o : Nat) (hx : x < lo) (ho : o < 65536) : (s.setReg w off v).reg x o = s.reg x o := SMap.get_set_of_ne _ _ _ (by omega)
  ucb_of_regs lo rfl (fun x hx => hne x _ hx (by decide)) (fun x hx => by rw [hne x _ hx (by decide)])

@[simp] theorem ucb_setRf (hi l x : Nat) (h : off % 65536 ≠ 0x18 ∧ off % 65536 ≠ 0x20) : (s.setRf w off hi l x).ucb lo = s.ucb lo :=
  s.ucb_setReg lo _ h
@[simp] theorem ucb_setEvent (b : Nat) (h : off % 65536 ≠ 0x18 ∧ off % 65536 ≠ 0x20) : (s.setEvent w off b).ucb lo = s.ucb lo :=
  s.ucb_setReg lo _ h
@[simp] theorem ucb_countBy (n : Nat) (h : off % 65536 ≠ 0x18 ∧ off % 65536 ≠ 0x20) : (s.countBy w off n).ucb lo = s.ucb lo :=
  s.ucb_setReg lo _ h
@[simp] theorem ucb_count (h : off % 65536 ≠ 0x18 ∧ off % 65536 ≠ 0x20) : (s.count w off).ucb lo = s.ucb lo :=
  s.ucb_countBy lo 1 h

theorem ucb_setRf_of_le {lo : Nat} (hi l x : Nat) (h : lo ≤ w) : (s.setRf w off hi l x).ucb lo = s.ucb lo := s.ucb_setReg_of_le _ h
theorem ucb_count_of_le {lo : Nat} (h : lo ≤ w) : (s.count w off).ucb lo = s.ucb lo := s.ucb_setReg_of_le _ h

end

/-- Another bit of UCB_EVENT_SUMMARY sets. -/
@[simp] theorem ucb_setSummary {w b : Nat} (h : b ≠ 3) : (s.setSummary w b).ucb lo = s.ucb lo := by
  refine ucb_of_regs lo rfl (fun x _ => SMap.get_set_of_ne _ _ _ (by omega)) fun x _ => ?_
  by_cases hx : x = w
  · rw [hx, State.reg_setSummary_self]
    have hbit : (BitVec.ofNat 32 (1 <<< b)).getLsbD 3 = false := by
      rw [BitVec.getLsbD_ofNat, Nat.one_shiftLeft, Nat.testBit_two_pow_of_ne h, Bool.and_false]
    rw [BitVec.getLsbD_or, hbit, Bool.or_false]
  · rw [show (s.setSummary w b).reg x 0x20 = s.reg x 0x20 from SMap.get_set_of_ne _ _ _ (by omega)]

@[simp] theorem ucb_cfgReject (w off : Nat) : (s.cfgReject w off).ucb lo = s.ucb lo := by simp [State.cfgReject]

/-! ### Branches, folds and steps that answer something as well -/

@[simp] theorem ucb_ite (c : Prop) [Decidable c] (u : State) : (if c then s else u).ucb lo = if c then s.ucb lo else u.ucb lo := by
  split <;> rfl

theorem ucb_foldl_mem {α : Type} {f : State → α → State} (l : List α) (h : ∀ s, ∀ a ∈ l, (f s a).ucb lo = s.ucb lo) (s : State) :
    (l.foldl f s).ucb lo = s.ucb lo := by
  induction l generalizing s with
  | nil => rfl
  | cons a l ih => exact (ih (fun s b hb => h s b (List.mem_cons_of_mem _ hb)) _).trans (h s a List.mem_cons_self)

@[simp] theorem ucb_foldl {α : Type} {f : State → α → State} (h : ∀ s a, (f s a).ucb lo = s.ucb lo) (l : List α) (s : State) :
    (l.foldl f s).ucb lo = s.ucb lo :=
  ucb_foldl_mem lo l (fun s a _ => h s a) s

theorem ucb_foldl_snd {α β : Type} {f : β × State → α → β × State} (h : ∀ acc a, (f acc a).2.ucb lo = acc.2.ucb lo) (l : List α) (acc : β × State) :
    (l.foldl f acc).2.ucb lo = acc.2.ucb lo := by
  induction l generalizing acc with
  | nil => rfl
  | cons a l ih => exact (ih _).trans (h acc a)

@[simp] theorem ucb_snd_ite {α : Type} (c : Prop) [Decidable c] (p q : α × State) :
    (if c then p else q).2.ucb lo = if c then p.2.ucb lo else q.2.ucb lo := by
  split <;> rfl

@[simp] theorem ucb_snd_snd_ite {α β : Type} (c : Prop) [Decidable c] (p q : α × β × State) :
    (if c then p else q).2.2.ucb lo = if c then p.2.2.ucb lo else q.2.2.ucb lo := by
  split <;> rfl

/-- A step `p` of which a state is the second part: its branches are taken apart by this and the rule of the step itself. -/
theorem ucb_of_snd {α : Type} {s u : State} {a : α} {p : α × State} (h : p = (a, u)) (hp : p.2.ucb lo = s.ucb lo) : u.ucb lo = s.ucb lo := by
  rw [← hp, h]

/-! ### Parts of the state that hold nothing of a Gathering -/

@[simp] theorem ucb_modKettle (f : KettleSt → KettleSt) : (s.modKettle f).ucb lo = s.ucb lo := ucb_of_eq lo rfl rfl
@[simp] theorem ucb_modDrover (f : DroverSt → DroverSt) : (s.modDrover f).ucb lo = s.ucb lo := ucb_of_eq lo rfl rfl
@[simp] theorem ucb_modLoft (f : LoftSt → LoftSt) : (s.modLoft f).ucb lo = s.ucb lo := ucb_of_eq lo rfl rfl
@[simp] theorem ucb_modMower (f : MowerSt → MowerSt) : (s.modMower f).ucb lo = s.ucb lo := ucb_of_eq lo rfl rfl
@[simp] theorem ucb_modLing (f : LingSt → LingSt) : (s.modLing f).ucb lo = s.ucb lo := ucb_of_eq lo rfl rfl
@[simp] theorem ucb_modWarren (f : WarrenSt → WarrenSt) : (s.modWarren f).ucb lo = s.ucb lo := ucb_of_eq lo rfl rfl
@[simp] theorem ucb_modMem (f : MemSt → MemSt) : (s.modMem f).ucb lo = s.ucb lo := ucb_of_eq lo rfl rfl
@[simp] theorem ucb_modStile (f : StileSt → StileSt) : (s.modStile f).ucb lo = s.ucb lo := ucb_of_eq lo rfl rfl
@[simp] theorem ucb_modTrust (f : TrustSt → TrustSt) : (s.modTrust f).ucb lo = s.ucb lo := ucb_of_eq lo rfl rfl
@[simp] theorem ucb_modQps (f : SMap QpSt → SMap QpSt) : (s.modQps f).ucb lo = s.ucb lo := ucb_of_eq lo rfl rfl
@[simp] theorem ucb_modSpine (f : SpineSt → SpineSt) : (s.modSpine f).ucb lo = s.ucb lo := ucb_of_eq lo rfl rfl
@[simp] theorem ucb_modTime (f : TimeSt → TimeSt) : (s.modTime f).ucb lo = s.ucb lo := ucb_of_eq lo rfl rfl
@[simp] theorem ucb_modSheaf (f : SheafSt → SheafSt) : (s.modSheaf f).ucb lo = s.ucb lo := ucb_of_eq lo rfl rfl
@[simp] theorem ucb_stepFresh : s.stepFresh.ucb lo = s.ucb lo := ucb_of_eq lo rfl rfl
@[simp] theorem ucb_raise (k : Nat) : (s.raise k).ucb lo = s.ucb lo := ucb_of_eq lo rfl rfl
@[simp] theorem ucb_report (t : Nat) (ts : Word64) (l : List (Nat × Nat)) : (s.report t ts l).ucb lo = s.ucb lo := ucb_of_eq lo rfl rfl

/-! ### Kettle: tasks that are bound anew -/

@[simp] theorem ucb_setTask (k : Nat) (t : Task) : (s.setTask k t).ucb lo = s.ucb lo := ucb_of_eq lo rfl rfl
@[simp] theorem ucb_setTaskCountOf (k n : Nat) : (s.setTaskCountOf k n).ucb lo = s.ucb lo := ucb_of_eq lo rfl rfl

@[simp] theorem ucb_place (k : Nat) : (s.place k).ucb lo = s.ucb lo := by
  fun_cases State.place s k <;> simp [State.bindTask]

@[simp] theorem ucb_rebind (which : Task → Bool) : (s.rebind which).ucb lo = s.ucb lo := by simp [State.rebind, State.rebindTask]

/-! ### Drover: rings -/

@[simp] theorem ucb_setNode (k : Nat) (d : NodeDyn) : (s.setNode k d).ucb lo = s.ucb lo := ucb_of_eq lo rfl rfl

@[simp] theorem ucb_noteRound (k : Nat) : (s.noteRound k).ucb lo = s.ucb lo := by
  fun_cases State.noteRound s k <;> simp

@[simp] theorem ucb_setInRing (k : Nat) (b : Bool) : (s.setInRing k b).ucb lo = s.ucb lo := by simp [State.setInRing]

@[simp] theorem ucb_settleUp (n k : Nat) : (s.settleUp n k).ucb lo = s.ucb lo := by
  induction n generalizing s k with
  | zero => rfl
  | succ n ih => simp only [State.settleUp]; split <;> split <;> simp [ih]

@[simp] theorem ucb_settleNode (k : Nat) : (s.settleNode k).ucb lo = s.ucb lo := s.ucb_settleUp lo 5 k
@[simp] theorem ucb_settlePort (n : Nat) : (s.settlePort n).ucb lo = s.ucb lo := s.ucb_settleNode lo n
@[simp] theorem ucb_settlePorts : s.settlePorts.ucb lo = s.ucb lo := by simp [State.settlePorts]

/-! ### Ports, Loft's stacks and Commons -/

@[simp] theorem ucb_settleLock (n : Nat) : (s.settleLock n).ucb lo = s.ucb lo := by
  unfold State.settleLock; split <;> simp

@[simp] theorem ucb_setStack (p : Nat) (k : PoolStack) : (s.setStack p k).ucb lo = s.ucb lo := ucb_of_eq lo rfl rfl

@[simp] theorem ucb_undefer : s.undefer.ucb lo = s.ucb lo :=
  ucb_foldl lo (fun s e => by dsimp only; split <;> simp) _ s

@[simp] theorem ucb_markWaited (c : Nat) : (s.markWaited c).ucb lo = s.ucb lo := ucb_of_eq lo rfl rfl
@[simp] theorem ucb_setHeld (c r who n : Nat) : (s.setHeld c r who n).ucb lo = s.ucb lo := ucb_of_eq lo rfl rfl
@[simp] theorem ucb_setTokens (c r n : Nat) : (s.setTokens c r n).ucb lo = s.ucb lo := ucb_of_eq lo rfl rfl
@[simp] theorem ucb_setLoaded (w n : Nat) : (s.setLoaded w n).ucb lo = s.ucb lo := ucb_of_eq lo rfl rfl
@[simp] theorem ucb_floorTokens : s.floorTokens.ucb lo = s.ucb lo := by
  unfold State.floorTokens
  apply ucb_foldl
  intro s k
  exact ucb_setTokens ..

/-- Tokens of one of the five resources are drawn. -/
@[simp] theorem ucb_drawFor (who c n : Nat) {r : Nat} (h : r < 5) : (s.drawFor who c r n).2.ucb lo = s.ucb lo := by
  have hoff : (0x240 + 4 * r) % 65536 ≠ 0x18 ∧ (0x240 + 4 * r) % 65536 ≠ 0x20 := by omega
  fun_cases State.drawFor s who c r n <;> simp [hoff]

@[simp] theorem ucb_draw (c : Nat) {r : Nat} (h : r < 5) : (s.draw c r).2.ucb lo = s.ucb lo := s.ucb_drawFor lo 0 c 1 h

/-! ### Memories: errors read and written over -/

@[simp] theorem ucb_summarise (w inst addr : Nat) (ucor hard : Bool) : (s.summarise w inst addr ucor hard).ucb lo = s.ucb lo := by
  simp [State.summarise]

@[simp] theorem ucb_becomeHard (w inst addr : Nat) (ucor : Bool) : (s.becomeHard w inst addr ucor).ucb lo = s.ucb lo := by
  simp only [State.becomeHard]; split <;> simp

@[simp] theorem ucb_setInstLog (w inst : Nat) (l : InstLog) : (s.setInstLog w inst l).ucb lo = s.ucb lo := ucb_of_eq lo rfl rfl

/-- An error that is logged sets ecc_corrected or ecc_uncorrected of its window. -/
@[simp] theorem ucb_logError (w inst addr : Nat) (ucor : Bool) (syndrome : Nat) : (s.logError w inst addr ucor syndrome).ucb lo = s.ucb lo := by
  have hsummary : (s.setSummary w (if ucor then 5 else 4)).ucb lo = s.ucb lo := s.ucb_setSummary lo (by split <;> decide)
  simp only [State.logError]
  split
  · simp [hsummary]
  · split <;> simp [hsummary]

@[simp] theorem ucb_eccRead (w inst addr len : Nat) : (s.eccRead w inst addr len).2.ucb lo = s.ucb lo := by simp [State.eccRead]

@[simp] theorem ucb_overlayApply (w inst addr len : Nat) : (s.overlayApply w inst addr len).ucb lo = s.ucb lo := by
  simp [State.overlayApply]

@[simp] theorem ucb_eccWrite (w inst addr len : Nat) : (s.eccWrite w inst addr len).ucb lo = s.ucb lo := by
  fun_cases State.eccWrite s w inst addr len <;> simp

end
end State
end Sys2Proof.Machine
end

section
/-! What Ling's retries leave of the Gatherings: all of it. -/

namespace Sys2Proof.Machine
namespace State

section
variable (s : State) (lo : Nat)

/-! ### Ling's blocks and what waits in them -/

/-- A register of a command block of Ling. -/
theorem ucb_setReg_block {x k : Nat} (hx : x < 4) (hk : k < 0x100) (v : Word32) : (s.setReg lingWin (blockBase x + k) v).ucb lo = s.ucb lo :=
  s.ucb_setReg lo v (by unfold blockBase; omega)

@[simp] theorem ucb_lingDone {x : Nat} (hx : x < 4) (result index moves search : Nat) : (s.lingDone x result index moves search).ucb lo = s.ucb lo := by
  simp [State.lingDone, ucb_setReg_block, hx]

@[simp] theorem ucb_lingLetGo (x : Nat) : (s.lingLetGo x).ucb lo = s.ucb lo := by simp [State.lingLetGo]

@[simp] theorem ucb_lingManage {x : Nat} (hx : x < 4) (c : LingCmd) (p : Nat → Bool) : (s.lingManage x c p).ucb lo = s.ucb lo := by
  simp [State.lingManage, hx]

@[simp] theorem ucb_readShadows (d e : Nat) : (s.readShadows d e).2.ucb lo = s.ucb lo :=
  ucb_foldl_snd lo (fun acc i => by simp) _ _

/-- A field of a command block of Ling. -/
theorem ucb_setBlockWords {x k n : Nat} (hx : x < 4) (hk : k + 4 * n ≤ 0x100) (v : Nat) : (s.setBlockWords (blockBase x + k) n v).ucb lo = s.ucb lo :=
  ucb_foldl_mem lo _ (fun s j hj => by
    rw [Nat.add_assoc]; exact s.ucb_setReg_block lo hx (by have := List.mem_range.mp hj; omega) _) s

@[simp] theorem ucb_lingReadEntry {x : Nat} (hx : x < 4) (c : LingCmd) : (s.lingReadEntry x c).ucb lo = s.ucb lo := by
  have hdata (s : State) (v : Nat) : (s.setBlockWords (blockBase x) 20 v).ucb lo = s.ucb lo := s.ucb_setBlockWords lo (k := 0) hx (by decide) v
  simp [State.lingReadEntry, hdata, ucb_setBlockWords, hx]

@[simp] theorem ucb_lingWrites {x : Nat} (c : LingCmd) {write : State → State} (h : ∀ s, (write s).ucb lo = s.ucb lo) :
    (s.lingWrites x c write).ucb lo = s.ucb lo := by
  simp [State.lingWrites, h]

@[simp] theorem ucb_setBlock {x : Nat} (hx : x < 4) (l : List LingCmd) : (s.setBlock x l).ucb lo = s.ucb lo :=
  ucb_setReg_block _ lo hx (by decide) _

@[simp] theorem ucb_setLingAct (pos r : Nat) (a : Word128) : (s.setLingAct pos r a).ucb lo = s.ucb lo := by simp [State.setLingAct]
@[simp] theorem ucb_setEntryAct (d e : Nat) (a : Word128) : (s.setEntryAct d e a).ucb lo = s.ucb lo := by simp [State.setEntryAct]
@[simp] theorem ucb_setLingRow (pos r : Nat) (x : LingRow) : (s.setLingRow pos r x).ucb lo = s.ucb lo := by simp [State.setLingRow]
@[simp] theorem ucb_setEntryRow (d e i : Nat) (x : LingRow) : (s.setEntryRow d e i x).ucb lo = s.ucb lo := by simp [State.setEntryRow]
@[simp] theorem ucb_setEntryValid (d e : Nat) (v : Bool) : (s.setEntryValid d e v).ucb lo = s.ucb lo := by simp [State.setEntryValid]

@[simp] theorem ucb_writeEntry (d e : Nat) (data care : BitVec 640) (act : Word128) : (s.writeEntry d e data care act).ucb lo = s.ucb lo := by
  simp [State.writeEntry]

@[simp] theorem ucb_lingTry {x : Nat} (hx : x < 4) (c : LingCmd) : (s.lingTry x c).2.ucb lo = s.ucb lo := by
  fun_cases State.lingTry s x c <;> simp [hx]
  case case8 s1 hdraw => exact ucb_of_snd lo hdraw (s.ucb_drawFor lo x 3 _ (by decide))
  case case9 s1 hdraw r =>
    rw [← ucb_of_snd lo hdraw (s.ucb_drawFor lo x 3 _ (by decide))]
    dsimp only [r]
    split <;> simp [hx]

@[simp] theorem ucb_lingRun {x : Nat} (hx : x < 4) (n : Nat) : (s.lingRun x n).ucb lo = s.ucb lo := by
  induction n generalizing s with
  | zero => rfl
  | succ n ih =>
    have htry := fun c => s.ucb_lingTry lo hx c
    grind [State.lingRun, ucb_setBlock]

@[simp] theorem ucb_lingRetry : s.lingRetry.ucb lo = s.ucb lo :=
  ucb_foldl lo (fun s x => s.ucb_lingRun lo (Nat.mod_lt x (by decide)) _) _ s

end
end State
end Sys2Proof.Machine
end

section
/-! What the units' accesses to the memories and Warren's retries leave of the Gatherings: all of it. -/

namespace Sys2Proof.Machine
namespace State

section
variable (s : State) (lo : Nat)

/-! ### Warren's queues and stores -/

@[simp] theorem ucb_setQueue (who : Nat) (l : List WarrenJob) : (s.setQueue who l).ucb lo = s.ucb lo := ucb_of_eq lo rfl rfl
@[simp] theorem ucb_setPacket (pid : Nat) (p : Packet) : (s.setPacket pid p).ucb lo = s.ucb lo := ucb_of_eq lo rfl rfl
@[simp] theorem ucb_setFront (j : WarrenJob) : (s.setFront j).ucb lo = s.ucb lo := ucb_of_eq lo rfl rfl
@[simp] theorem ucb_wEnd (j : WarrenJob) (x : WarrenEnd) : (s.wEnd j x).ucb lo = s.ucb lo := ucb_of_eq lo rfl rfl
@[simp] theorem ucb_dropFill (table : Bool) (a : Nat) : (s.dropFill table a).ucb lo = s.ucb lo := ucb_of_eq lo rfl rfl
@[simp] theorem ucb_setFill (f : WarrenFill) : (s.setFill f).ucb lo = s.ucb lo := ucb_of_eq lo rfl rfl

@[simp] theorem ucb_wCount {k : Nat} (h : k < 32) : (s.wCount k).ucb lo = s.ucb lo := s.ucb_count lo (by omega)

@[simp] theorem ucb_wtCount (t : Nat) {k : Nat} (h : k < 32) : (s.wtCount t k).ucb lo = s.ucb lo := s.ucb_count lo (by omega)

@[simp] theorem ucb_wLog (cause t index : Nat) : (s.wLog cause t index).ucb lo = s.ucb lo := by simp [State.wLog]
@[simp] theorem ucb_wBad (t b : Nat) : (s.wBad t b).ucb lo = s.ucb lo := by simp [State.wBad]

@[simp] theorem ucb_tellVerdict (pid : Option Nat) (code : Nat) : (s.tellVerdict pid code).ucb lo = s.ucb lo := by
  fun_cases State.tellVerdict s pid code <;> simp

@[simp] theorem ucb_learnDeliver : s.learnDeliver.ucb lo = s.ucb lo := by
  fun_cases State.learnDeliver s <;> simp

@[simp] theorem ucb_wPut (t b : Nat) (data : List Byte) : (s.wPut t b data).ucb lo = s.ucb lo := by simp [State.wPut]

@[simp] theorem ucb_setWay (t b w : Nat) (e : List Byte) : (s.setWay t b w e).ucb lo = s.ucb lo := by
  have hoff : (0x100C + 0x100 * t) % 65536 ≠ 0x18 ∧ (0x100C + 0x100 * t) % 65536 ≠ 0x20 := by omega
  simp [State.setWay, hoff]

@[simp] theorem ucb_setHit (t b w : Nat) (v : Bool) : (s.setHit t b w v).ucb lo = s.ucb lo := by simp [State.setHit]

@[simp] theorem ucb_modFront (who : Nat) (f : WarrenJob → WarrenJob) : (s.modFront who f).ucb lo = s.ucb lo := by
  fun_cases State.modFront s who f <;> simp

@[simp] theorem ucb_wDrawOne (who : Nat) : (s.wDrawOne who).2.ucb lo = s.ucb lo := by
  fun_cases State.wDrawOne s who <;> simp

/-! ### Memory accesses of the units -/

@[simp] theorem ucb_setWaiting (k : Nat) (l : List MemReq) : (s.setWaiting k l).ucb lo = s.ucb lo := ucb_of_eq lo rfl rfl
@[simp] theorem ucb_setSched (k : Nat) (x : SchedSt) : (s.setSched k x).ucb lo = s.ucb lo := ucb_of_eq lo rfl rfl

@[simp] theorem ucb_countHeld (r : MemReq) (len : Nat) : (s.countHeld r len).ucb lo = s.ucb lo := by simp [State.countHeld]

@[simp] theorem ucb_gateMem (k : Nat) (r : MemReq) (len : Nat) (rest : List MemReq) : (s.gateMem k r len rest).2.ucb lo = s.ucb lo := by
  fun_cases State.gateMem s k r len rest <;> simp

@[simp] theorem ucb_unitGate_go (table write : Bool) (a len k : Nat) (r : MemReq) (rest : List MemReq) :
    (unitGate.go s table write a len k r rest).2.ucb lo = s.ucb lo := by
  have hgate := s.ucb_gateMem lo k r len rest
  grind [unitGate.go, ucb_setWaiting]

@[simp] theorem ucb_unitGate (u : UnitSrc) (table write : Bool) (a len : Nat) : (s.unitGate u table write a len).2.ucb lo = s.ucb lo := by
  grind [State.unitGate, ucb_setWaiting, ucb_unitGate_go]

@[simp] theorem ucb_enqueuePieces (id : Nat) (write rt : Bool) (ps : List Piece) : (s.enqueuePieces id write rt ps).ucb lo = s.ucb lo := by
  unfold State.enqueuePieces
  apply ucb_foldl
  intros
  rfl

@[simp] theorem ucb_memRead (table : Bool) (a len : Nat) : (s.memRead table a len).2.2.ucb lo = s.ucb lo := by
  have hread (ps : List (Nat × Piece)) : (ps.foldl (fun acc e =>
      let q := acc.2.eccRead e.2.win e.2.inst e.2.addr e.2.len; (acc.1 || q.1, q.2)) (false, s)).2.ucb lo = s.ucb lo :=
    ucb_foldl_snd lo (fun acc e => by simp) _ _
  simp [State.memRead, hread]

@[simp] theorem ucb_unitGet (table : Bool) (a len : Nat) : (s.unitGet table a len).2.2.ucb lo = s.ucb lo := by simp [State.unitGet]

@[simp] theorem ucb_putBytes (table : Bool) (a : Nat) (data : List Byte) : (s.putBytes table a data).ucb lo = s.ucb lo := by
  unfold State.putBytes
  split
  · apply ucb_foldl
    intros
    rfl
  · rfl

@[simp] theorem ucb_memWrite (table : Bool) (a : Nat) (data : List Byte) : (s.memWrite table a data).ucb lo = s.ucb lo := by
  simp [State.memWrite]

@[simp] theorem ucb_writeNow (table : Bool) (a id : Nat) (data : List Byte) : (s.writeNow table a id data).ucb lo = s.ucb lo := by
  simp [State.writeNow]

@[simp] theorem ucb_unitPut (table : Bool) (a : Nat) (data : List Byte) : (s.unitPut table a data).ucb lo = s.ucb lo := by simp [State.unitPut]

/-! ### Warren's buckets in the memories -/

@[simp] theorem ucb_wLineToken (src : WSource) (table : Bool) : (s.wLineToken src table).2.ucb lo = s.ucb lo := by
  have hbit : bit table < 5 := by unfold bit; split <;> decide
  fun_cases State.wLineToken s src table <;> simp [hbit]

@[simp] theorem ucb_fillOn (src : WSource) (table : Bool) (a n fuel : Nat) : (s.fillOn src table a n fuel).2.ucb lo = s.ucb lo := by
  fun_induction State.fillOn s src table a n fuel <;> simp +zetaDelta only [*, ucb_setFill, ucb_unitGet] <;> repeat (refine ucb_of_snd lo ‹_› ?_; simp)

@[simp] theorem ucb_wStore (l : WarrenLine) : (s.wStore l).2.ucb lo = s.ucb lo := by
  fun_cases State.wStore s l <;> simp <;> exact ucb_of_snd lo ‹_› (by simp)

@[simp] theorem ucb_wEvict (n fuel : Nat) : (s.wEvict n fuel).2.ucb lo = s.ucb lo := by
  fun_induction State.wEvict s n fuel <;> simp [*] <;> exact ucb_of_snd lo ‹_› (by simp)

@[simp] theorem ucb_wLoad (t b : Nat) (src : WSource) : (s.wLoad t b src).2.ucb lo = s.ucb lo := by
  fun_cases State.wLoad s t b src <;> (try simp +zetaDelta) <;> repeat (refine ucb_of_snd lo ‹_› ?_; simp +zetaDelta)

@[simp] theorem ucb_wReads (who t : Nat) (bs : List Nat) : (s.wReads who t bs).2.ucb lo = s.ucb lo := by
  fun_induction State.wReads s who t bs <;> simp [*] <;> repeat (refine ucb_of_snd lo ‹_› ?_; simp)

@[simp] theorem ucb_wLoadAll (t : Nat) (mem : Bool) (bs : List Nat) : (s.wLoadAll t mem bs).2.ucb lo = s.ucb lo := by
  fun_induction State.wLoadAll s t mem bs <;> simp [*]
  all_goals exact ucb_of_snd lo ‹_› (by simp)

/-! ### Warren's work -/

@[simp] theorem ucb_wIndexWork (j : WarrenJob) : (s.wIndexWork j).ucb lo = s.ucb lo := by
  fun_cases State.wIndexWork s j <;> (try simp +zetaDelta) <;> repeat (refine ucb_of_snd lo ‹_› ?_; simp +zetaDelta)

@[simp] theorem ucb_checkFail (t b w : Nat) : (s.checkFail t b w).ucb lo = s.ucb lo := by simp [State.checkFail]

@[simp] theorem ucb_findKey (t : Nat) (key : List Byte) (bs : List Nat) : (s.findKey t key bs).2.ucb lo = s.ucb lo :=
  ucb_foldl_snd lo (fun acc p => by simp) _ _

@[simp] theorem ucb_lookupKey (t : Nat) (key : List Byte) (peek learning : Bool) : (s.lookupKey t key peek learning).2.ucb lo = s.ucb lo := by
  fun_cases State.lookupKey s t key peek learning <;> (try simp +zetaDelta) <;> repeat (refine ucb_of_snd lo ‹_› ?_; simp +zetaDelta)

@[simp] theorem ucb_purgeWays (who t : Nat) (k : List Byte) (ws : List (Nat × Nat)) : (s.purgeWays who t k ws).2.ucb lo = s.ucb lo := by
  fun_induction State.purgeWays s who t k ws <;> simp [*] <;> exact ucb_of_snd lo ‹_› (by simp)

@[simp] theorem ucb_wHitDone (j : WarrenJob) (x : WarrenEnd) : (s.wHitDone j x).ucb lo = s.ucb lo := by
  fun_cases State.wHitDone s j x <;> (try simp) <;> repeat (refine ucb_of_snd lo ‹_› ?_; simp)

@[simp] theorem ucb_wLookupWork (j : WarrenJob) : (s.wLookupWork j).ucb lo = s.ucb lo := by
  fun_cases State.wLookupWork s j <;> (try simp) <;> repeat (refine ucb_of_snd lo ‹_› ?_; simp)

@[simp] theorem ucb_wOwn (j : WarrenJob) (bs : List Nat) : (s.wOwn j bs).2.ucb lo = s.ucb lo := by
  fun_cases State.wOwn s j bs <;> simp +zetaDelta

@[simp] theorem ucb_learnFailed (j : WarrenJob) : (s.learnFailed j).ucb lo = s.ucb lo := by simp [State.learnFailed]
@[simp] theorem ucb_wStop (j : WarrenJob) (code : Nat) : (s.wStop j code).ucb lo = s.ucb lo := by simp [State.wStop, -Nat.not_lt]

@[simp] theorem ucb_huntOn (who t fuel : Nat) (h : WarrenHunt) : (s.huntOn who t fuel h).2.ucb lo = s.ucb lo := by
  induction fuel generalizing s h with
  | zero => rfl
  | succ fuel ih =>
    simp only [State.huntOn]
    repeat' split
    all_goals (try simp [ih]) <;> exact ucb_of_snd lo ‹_› (by simp)

@[simp] theorem ucb_noRoom (j : WarrenJob) : (s.noRoom j).ucb lo = s.ucb lo := by simp [State.noRoom]
@[simp] theorem ucb_placeNew (j : WarrenJob) (e : List Byte) (b w : Nat) : (s.placeNew j e b w).ucb lo = s.ucb lo := by simp [State.placeNew]
@[simp] theorem ucb_wRefuse (j : WarrenJob) : (s.wRefuse j).ucb lo = s.ucb lo := by simp [State.wRefuse]

@[simp] theorem ucb_takePath (j : WarrenJob) (b0 b1 : Nat) : (s.takePath j b0 b1).ucb lo = s.ucb lo := by
  fun_cases State.takePath s j b0 b1 <;> (try simp) <;> repeat (refine ucb_of_snd lo ‹_› ?_; simp)

@[simp] theorem ucb_addKey (j : WarrenJob) (b0 b1 : Nat) : (s.addKey j b0 b1).ucb lo = s.ucb lo := by
  fun_cases State.addKey s j b0 b1 <;> (try simp +zetaDelta)
  case case1 | case2 => intro _; split <;> (try simp) <;> exact ucb_of_snd lo ‹_› (by simp)
  all_goals exact ucb_of_snd lo ‹_› (by simp)

@[simp] theorem ucb_changeKey (j : WarrenJob) (b w : Nat) : (s.changeKey j b w).ucb lo = s.ucb lo := by
  fun_cases State.changeKey s j b w <;> (try simp +zetaDelta) <;> repeat (refine ucb_of_snd lo ‹_› ?_; simp +zetaDelta)

theorem moveEntry_count_lt (t T port : Nat) (e : List Byte) : (s.moveEntry t T port e).2.1 < 32 := by
  fun_cases State.moveEntry s t T port e <;> simp

@[simp] theorem ucb_serveLearn (j : WarrenJob) (b w : Nat) : (s.serveLearn j b w).ucb lo = s.ucb lo := by
  fun_cases State.serveLearn s j b w <;> (try simp +zetaDelta [moveEntry_count_lt]) <;> repeat (refine ucb_of_snd lo ‹_› ?_; simp +zetaDelta)

@[simp] theorem ucb_writeIndex_go (j : WarrenJob) (b w : Nat) : (writeIndex.go s j b w).ucb lo = s.ucb lo := by
  fun_cases writeIndex.go s j b w <;> (try simp) <;> repeat (refine ucb_of_snd lo ‹_› ?_; simp)

@[simp] theorem ucb_writeIndex (j : WarrenJob) (found : Option (Nat × Nat)) : (s.writeIndex j found).ucb lo = s.ucb lo := by
  fun_cases State.writeIndex s j found <;> simp +zetaDelta

@[simp] theorem ucb_wWork (j : WarrenJob) (b0 b1 : Nat) : (s.wWork j b0 b1).ucb lo = s.ucb lo := by
  fun_cases State.wWork s j b0 b1 <;> (try simp +zetaDelta) <;> repeat (refine ucb_of_snd lo ‹_› ?_; simp +zetaDelta)

@[simp] theorem ucb_warrenAdvance (who : Nat) : (s.warrenAdvance who).ucb lo = s.ucb lo := by
  fun_cases State.warrenAdvance s who <;> (try simp +zetaDelta) <;> repeat (refine ucb_of_snd lo ‹_› ?_; simp +zetaDelta)

@[simp] theorem ucb_warrenRetry : s.warrenRetry.ucb lo = s.ucb lo := by simp [State.warrenRetry]

end
end State
end Sys2Proof.Machine
end

section
/-! What XOFF, Stile and the images leave of the Gatherings: all of it. -/

namespace Sys2Proof.Machine
namespace State

section
variable (s : State) (lo : Nat)

/-! ### XOFF -/

@[simp] theorem ucb_setPort (n : Nat) (p : PortSt) : (s.setPort n p).ucb lo = s.ucb lo := ucb_of_eq lo rfl rfl

/-- The XOFF bits of a port stand in Loft's window; of a port that the device does not have, past it. -/
@[simp] theorem ucb_noteXoff {n : Nat} (q : Nat) (h : n < 36 ∨ lo ≤ 421) : (s.noteXoff n q).ucb lo = s.ucb lo := by
  have hset (s : State) (b v : Nat) : (s.setRf loftWin (0x700 + 4 * n) b b v).ucb lo = s.ucb lo := by
    rcases h with hn | hlo
    · exact s.ucb_setRf lo _ _ _ (by omega)
    · exact s.ucb_setRf_of_le _ _ _ hlo
  simp [State.noteXoff, hset]

@[simp] theorem ucb_sendControl (n : Nat) (frame : List Byte) : (s.sendControl n frame).ucb lo = s.ucb lo := by simp [State.sendControl]
@[simp] theorem ucb_xoffDue (n : Nat) (qs : List Nat) : (s.xoffDue n qs).ucb lo = s.ucb lo := ucb_of_eq lo rfl rfl

@[simp] theorem ucb_pfcChange (n old : Nat) : (s.pfcChange n old).ucb lo = s.ucb lo := by
  fun_cases State.pfcChange s n old <;> simp +zetaDelta

@[simp] theorem ucb_updatePortXoff {n : Nat} (h : n < 36 ∨ lo ≤ 421) : (s.updatePortXoff n).ucb lo = s.ucb lo := by
  simp [State.updatePortXoff, h]

@[simp] theorem ucb_updateAllXoff : s.updateAllXoff.ucb lo = s.ucb lo :=
  ucb_foldl_mem lo _ (fun s _ hn => s.ucb_updatePortXoff lo (.inl (List.mem_range.mp hn))) s

/-! ### Threads and Stile -/

@[simp] theorem ucb_setThread (t : Nat) (th : Thread) : (s.setThread t th).ucb lo = s.ucb lo := ucb_of_eq lo rfl rfl
@[simp] theorem ucb_modThread (t : Nat) (f : Thread → Thread) : (s.modThread t f).ucb lo = s.ucb lo := ucb_of_eq lo rfl rfl
@[simp] theorem ucb_endOp (t : Nat) (o : LeafOp) (vals : List (Nat × Word64)) : (s.endOp t o vals).ucb lo = s.ucb lo := ucb_of_eq lo rfl rfl

@[simp] theorem ucb_releaseDone (w op : Nat) : (s.releaseDone w op).ucb lo = s.ucb lo := by
  fun_cases State.releaseDone s w op <;> simp

@[simp] theorem ucb_stileCount {k : Nat} (h : k < 32) : (s.stileCount k).ucb lo = s.ucb lo := s.ucb_count lo (by omega)

@[simp] theorem ucb_noteOutcome (r : Nat) : (s.noteOutcome r).ucb lo = s.ucb lo := by
  fun_cases State.noteOutcome s r <;> simp

@[simp] theorem ucb_setLock (l : Nat) (x : LockSt) : (s.setLock l x).ucb lo = s.ucb lo := ucb_of_eq lo rfl rfl
@[simp] theorem ucb_setStilePort (f : Nat) (l : List Word64) : (s.setStilePort f l).ucb lo = s.ucb lo := ucb_of_eq lo rfl rfl

@[simp] theorem ucb_stileAnswer (w op word : Nat) : (s.stileAnswer w op word).ucb lo = s.ucb lo := by
  fun_cases State.stileAnswer s w op word <;> simp

@[simp] theorem ucb_stileAcquire (w gs op : Nat) (try' : Bool) : (s.stileAcquire w gs op try').ucb lo = s.ucb lo := by
  fun_cases State.stileAcquire s w gs op try' <;> simp +zetaDelta

@[simp] theorem ucb_stileRelease (w gs : Nat) : (s.stileRelease w gs).ucb lo = s.ucb lo := by
  fun_cases State.stileRelease s w gs <;> simp +zetaDelta

@[simp] theorem ucb_stilePerform (w kind gs op : Nat) : (s.stilePerform w kind gs op).ucb lo = s.ucb lo := by simp [State.stilePerform]
@[simp] theorem ucb_stileServeHeld : s.stileServeHeld.ucb lo = s.ucb lo := by simp [State.stileServeHeld]

/-! ### Images -/

@[simp] theorem ucb_raiseCounter (i : Image) : (s.raiseCounter i).ucb lo = s.ucb lo := by simp [State.raiseCounter]
@[simp] theorem ucb_setRunning (w : Nat) (i : Image) : (s.setRunning w i).ucb lo = s.ucb lo := ucb_of_eq lo rfl rfl
@[simp] theorem ucb_runUpdated (w : Nat) : (s.runUpdated w).ucb lo = s.ucb lo := ucb_of_eq lo rfl rfl

end
end State
end Sys2Proof.Machine
end

section
/-! What thread resets, freed cells, lost tasks and repairs leave of the Gatherings: all of it but windows past Loft's, where XOFF bits of a port that a
cell's metadata names can fall. -/

namespace Sys2Proof.Machine
namespace State

section
variable (s : State) (lo : Nat)

/-! ### Locks of what departs, joins -/

@[simp] theorem ucb_abandon (l : Nat) : (s.abandon l).ucb lo = s.ucb lo := by simp [State.abandon]

@[simp] theorem ucb_depart (w : Nat) : (s.depart w).ucb lo = s.ucb lo := by
  simp [State.depart]

@[simp] theorem ucb_cleanJoins : s.cleanJoins.ucb lo = s.ucb lo := by simp [State.cleanJoins]

/-! ### Cells and their chains -/

@[simp] theorem ucb_touchChannel (w : Nat) : (s.touchChannel w).ucb lo = s.ucb lo := by
  fun_cases State.touchChannel s w <;> simp

@[simp] theorem ucb_readMeta (ptr : Nat) : (s.readMeta ptr).2.ucb lo = s.ucb lo := by
  fun_cases State.readMeta s ptr <;> simp

@[simp] theorem ucb_followChain (handle : Nat) : (s.followChain handle).ucb lo = s.ucb lo := by
  unfold State.followChain
  apply ucb_foldl
  simp

@[simp] theorem ucb_setCell (ptr : Nat) (c : CellMeta) : (s.setCell ptr c).ucb lo = s.ucb lo := by
  have hcells (l : LoftSt) : ({ s with loft := l } : State).ucb lo = s.ucb lo := ucb_of_eq lo rfl rfl
  fun_cases State.setCell s ptr c <;> simp +zetaDelta [hcells]

@[simp] theorem ucb_setLoftUsage (n q v : Nat) : (s.setLoftUsage n q v).ucb lo = s.ucb lo := ucb_of_eq lo rfl rfl
@[simp] theorem ucb_setPoolUsed (t p n : Nat) : (s.setPoolUsed t p n).ucb lo = s.ucb lo := ucb_of_eq lo rfl rfl

@[simp] theorem ucb_refuseFree (handle : Nat) : (s.refuseFree handle).ucb lo = s.ucb lo := by simp [State.refuseFree]

@[simp] theorem ucb_erasePacket (pid : Nat) : ({ s with packets := SMap.erase s.packets pid } : State).ucb lo = s.ucb lo := ucb_of_eq lo rfl rfl

section
variable {lo} (h : lo ≤ 421)
include h

@[simp] theorem ucb_updateXoff (n q : Nat) : (s.updateXoff n q).ucb lo = s.ucb lo := by simp [State.updateXoff, h]

@[simp] theorem ucb_freeCell (tenant ptr : Nat) : (s.freeCell tenant ptr).ucb lo = s.ucb lo := by
  simp only [State.freeCell]
  split <;> simp [h]

@[simp] theorem ucb_freeChain (handle : Nat) : (s.freeChain handle).ucb lo = s.ucb lo := by
  fun_cases State.freeChain s handle <;> simp +zetaDelta [h]

@[simp] theorem ucb_refDec (handle : Nat) : (s.refDec handle).ucb lo = s.ucb lo := by simp [State.refDec, h]

@[simp] theorem ucb_releaseRef (pid : Nat) : (s.releaseRef pid).ucb lo = s.ucb lo := by
  fun_cases State.releaseRef s pid <;> simp +zetaDelta [h]

/-! ### Tasks and positions -/

@[simp] theorem ucb_removeUntaken (k : Nat) (t : Task) : (s.removeUntaken k t).ucb lo = s.ucb lo := by simp [State.removeUntaken, h]

end

@[simp] theorem ucb_setPosition (k : Nat) (p : Position) : (s.setPosition k p).ucb lo = s.ucb lo := ucb_of_eq lo rfl rfl

section
variable {lo} (h : lo ≤ 421)
include h

@[simp] theorem ucb_dropPosition (k diag : Nat) : (s.dropPosition k diag).ucb lo = s.ucb lo := by
  have hoff : (0x300 + 4 * kettleDropCnt diag) % 65536 ≠ 0x18 ∧ (0x300 + 4 * kettleDropCnt diag) % 65536 ≠ 0x20 := by
    have hcnt : kettleDropCnt diag < 64 := by unfold kettleDropCnt; (repeat' split) <;> decide
    omega
  fun_cases State.dropPosition s k diag <;> simp +zetaDelta [h, hoff]

@[simp] theorem ucb_dropPos (k diag : Nat) : (s.dropPos k diag).ucb lo = s.ucb lo := by simp [State.dropPos, h]

@[simp] theorem ucb_endTask (k : Nat) : (s.endTask k).ucb lo = s.ucb lo := by
  fun_cases State.endTask s k <;> simp +zetaDelta [h]

@[simp] theorem ucb_loseTask (t diag : Nat) : (s.loseTask t diag).ucb lo = s.ucb lo := by
  fun_cases State.loseTask s t diag <;> simp [h]

end

/-! ### Shared memory and the supervisor's page -/

@[simp] theorem ucb_pageRead (q off : Nat) : (s.pageRead q off).2.ucb lo = s.ucb lo := by
  fun_cases State.pageRead s q off <;> simp
  exact s.ucb_setReg lo 0 (by omega)

@[simp] theorem ucb_pageBytes (q off n : Nat) : (s.pageBytes q off n).2.ucb lo = s.ucb lo :=
  ucb_foldl_snd lo (fun acc k => by simp) _ _

@[simp] theorem ucb_pageWriteQuiet (q off : Nat) (v : Word32) : (s.pageWriteQuiet q off v).ucb lo = s.ucb lo := by
  simp [State.pageWriteQuiet]

@[simp] theorem ucb_sharedRead (q a n : Nat) : (s.sharedRead q a n).2.2.ucb lo = s.ucb lo := by simp [State.sharedRead]
@[simp] theorem ucb_setQuire (q : Nat) (x : QuireSt) : (s.setQuire q x).ucb lo = s.ucb lo := ucb_of_eq lo rfl rfl
@[simp] theorem ucb_sharedWrite (q a : Nat) (data : List Byte) : (s.sharedWrite q a data).ucb lo = s.ucb lo := by simp [State.sharedWrite]

@[simp] theorem ucb_performShared {write : State → Nat → Nat → Word32 → State} (h : ∀ s q a v, (write s q a v).ucb lo = s.ucb lo)
    (t : Nat) (o : LeafOp) : (s.performShared write t o).2.2.ucb lo = s.ucb lo := by
  fun_cases State.performShared s write t o <;> simp +zetaDelta [h]

/-! ### Thread resets -/

@[simp] theorem ucb_claspStart (q : Nat) : (s.claspStart q).ucb lo = s.ucb lo := by
  fun_cases State.claspStart s q <;> simp +zetaDelta

@[simp] theorem ucb_clearSave (q n : Nat) : (s.clearSave q n).ucb lo = s.ucb lo := by simp [State.clearSave]
@[simp] theorem ucb_cpReset (t : Nat) : (s.cpReset t).ucb lo = s.ucb lo := by simp [State.cpReset]

@[simp] theorem ucb_startThread (t : Nat) (halted : Bool) (delay : Nat) : (s.startThread t halted delay).ucb lo = s.ucb lo := by
  fun_cases State.startThread s t halted delay <;> simp +zetaDelta

section
variable {lo} (h : lo ≤ 421)
include h

@[simp] theorem ucb_resetThread (t : Nat) (halted : Bool) (delay : Nat) : (s.resetThread t halted delay).ucb lo = s.ucb lo := by
  simp [State.resetThread, State.resetThreadWith, h]

@[simp] theorem ucb_threadDown (t : Nat) : (s.threadDown t).ucb lo = s.ucb lo := by simp [State.threadDown, h]
@[simp] theorem ucb_leafDown (leaf : Nat) : (s.leafDown leaf).ucb lo = s.ucb lo := by simp [State.leafDown, h]

end

/-! ### Repairs and memory channels -/

@[simp] theorem ucb_rowUndefined (w addr : Nat) : (s.rowUndefined w addr).ucb lo = s.ucb lo := by
  unfold State.rowUndefined
  apply ucb_foldl
  intros
  exact ucb_of_eq lo rfl rfl

@[simp] theorem ucb_applyRepair (e : RepairEntry) : (s.applyRepair e).ucb lo = s.ucb lo := by
  fun_cases State.applyRepair s e <;> simp +zetaDelta

@[simp] theorem ucb_applyRecord (w : Nat) : (s.applyRecord w).ucb lo = s.ucb lo := by
  fun_cases State.applyRecord s w <;> simp

@[simp] theorem ucb_setChan (w : Nat) (c : ChanSt) : (s.setChan w c).ucb lo = s.ucb lo := ucb_of_eq lo rfl rfl
@[simp] theorem ucb_channelFresh (w : Nat) : (s.channelFresh w).ucb lo = s.ucb lo := by simp [State.channelFresh]
@[simp] theorem ucb_reseed (w : Nat) : (s.reseed w).ucb lo = s.ucb lo := ucb_of_eq lo rfl rfl

end
end State
end Sys2Proof.Machine
end

section
/-! What goes down with a unit, and what it leaves of the Gatherings: what they hold (R9, R23 and the chapters). -/

namespace Sys2Proof.Machine
namespace State

section
variable (s : State)

/-! ### Memories -/

@[simp] theorem ucb_eccForget (w inst : Nat) : (s.eccForget w inst).ucb 0 = s.ucb 0 := ucb_zero rfl
@[simp] theorem ucb_eccClear (w inst : Nat) : (s.eccClear w inst).ucb 0 = s.ucb 0 := by simp [State.eccClear]

/-! ### Outputs and ports -/

@[simp] theorem ucb_eraseOutput (o : Nat) : (s.eraseOutput o).ucb 0 = s.ucb 0 := ucb_zero rfl
@[simp] theorem ucb_leaveOutput (o : Nat) (x : Output) : (s.leaveOutput o x).ucb 0 = s.ucb 0 := by simp [State.leaveOutput]
@[simp] theorem ucb_reportDropFlow (md : BitVec 512) (t : Nat) (ts : Word64) (diag bytes : Nat) :
    (s.reportDropFlow md t ts diag bytes).ucb 0 = s.ucb 0 := ucb_zero rfl
@[simp] theorem ucb_tellOutDrop (d : OutDesc) (len : Int) (diag : Nat) : (s.tellOutDrop d len diag).ucb 0 = s.ucb 0 := ucb_zero rfl

@[simp] theorem ucb_finisherDrop (o : Nat) (x : Output) (diag : Nat) : (s.finisherDrop o x diag).ucb 0 = s.ucb 0 := by
  unfold State.finisherDrop
  dsimp only
  (repeat' split) <;> simp

@[simp] theorem ucb_discardPort (n diag : Nat) : (s.discardPort n diag).ucb 0 = s.ucb 0 := by simp [State.discardPort]

@[simp] theorem ucb_settlePfc (n : Nat) : (s.settlePfc n).ucb 0 = s.ucb 0 := by simp [State.settlePfc]

/-- A register does not matter to what the Gatherings hold. -/
@[simp] theorem ucb_zero_setReg (w off : Nat) (v : Word32) : (s.setReg w off v).ucb 0 = s.ucb 0 := ucb_zero rfl
@[simp] theorem ucb_zero_setRf (w off hi l v : Nat) : (s.setRf w off hi l v).ucb 0 = s.ucb 0 := ucb_zero rfl
@[simp] theorem ucb_zero_setEvent (w off b : Nat) : (s.setEvent w off b).ucb 0 = s.ucb 0 := ucb_zero rfl
@[simp] theorem ucb_zero_count (w off : Nat) : (s.count w off).ucb 0 = s.ucb 0 := ucb_zero rfl

@[simp] theorem ucb_endPause (n q : Nat) : (s.endPause n q).ucb 0 = s.ucb 0 := by simp [State.endPause]

@[simp] theorem ucb_endPacket (pid : Nat) : (s.endPacket pid).ucb 0 = s.ucb 0 := by
  fun_cases State.endPacket s pid <;> simp +zetaDelta

@[simp] theorem ucb_setQp (q : Nat) (x : QpSt) : (s.setQp q x).ucb 0 = s.ucb 0 := ucb_zero rfl
@[simp] theorem ucb_endDesc (q index status len : Nat) (last : Bool) (queue : Nat) : (s.endDesc q index status len last queue).ucb 0 = s.ucb 0 :=
  ucb_zero rfl

@[simp] theorem ucb_frameSent (f : RxFrame) (status : Nat) : (s.frameSent f status).ucb 0 = s.ucb 0 := by
  fun_cases State.frameSent s f status <;> simp

@[simp] theorem ucb_reportDrop (t : Nat) (ts : Word64) (diag bytes : Nat) : (s.reportDrop t ts diag bytes).ucb 0 = s.ucb 0 := ucb_zero rfl
@[simp] theorem ucb_dropMac (n cnt diag : Nat) (ts : Word64) (len : Nat) : (s.dropMac n cnt diag ts len).ucb 0 = s.ucb 0 := by
  simp [State.dropMac]

@[simp] theorem ucb_receivePause (n q quanta : Nat) : (s.receivePause n q quanta).ucb 0 = s.ucb 0 := by simp [State.receivePause]
@[simp] theorem ucb_obeyControl (n : Nat) (frame : List Byte) : (s.obeyControl n frame).ucb 0 = s.ucb 0 := by simp [State.obeyControl]
@[simp] theorem ucb_setRxHead (n : Nat) (pick : RxFrame → Bool) (f : Option RxFrame) : (s.setRxHead n pick f).ucb 0 = s.ucb 0 := ucb_zero rfl
@[simp] theorem ucb_setArriving (n : Nat) (f : Option RxFrame) : (s.setArriving n f).ucb 0 = s.ucb 0 := ucb_zero rfl

@[simp] theorem ucb_reportArrived (n diag : Nat) (f : RxFrame) (fcsOk : Bool) : (s.reportArrived n diag f fcsOk).ucb 0 = s.ucb 0 := by
  simp [State.reportArrived]

@[simp] theorem ucb_loseFrame (n : Nat) (f : RxFrame) : (s.loseFrame n f).ucb 0 = s.ucb 0 := by
  fun_cases State.loseFrame s n f <;> simp +zetaDelta

@[simp] theorem ucb_macDown (n : Nat) : (s.macDown n).ucb 0 = s.ucb 0 := by simp [State.macDown]

@[simp] theorem ucb_portDown (n : Nat) (empty : Bool) : (s.portDown n empty).ucb 0 = s.ucb 0 := by simp [State.portDown]

@[simp] theorem ucb_channelLost (w : Nat) : (s.channelLost w).ucb 0 = s.ucb 0 := by simp [State.channelLost]

/-! ### Lanes of Windrow, Tedder and Kettle -/

@[simp] theorem ucb_dropPacket (pid tenant diag : Nat) : (s.dropPacket pid tenant diag).ucb 0 = s.ucb 0 := by
  fun_cases State.dropPacket s pid tenant diag <;> simp

@[simp] theorem ucb_leaveLane (pid : Nat) (p : Packet) : (s.leaveLane pid p).ucb 0 = s.ucb 0 := ucb_zero rfl

@[simp] theorem ucb_windrowLaneDown (n : Nat) (which : Packet → Bool) : (s.windrowLaneDown n which).ucb 0 = s.ucb 0 := by
  refine ucb_foldl 0 (fun s pid => ?_) _ s
  split <;> simp

@[simp] theorem ucb_countParsed (port : Nat) (w : Walk) (e : ParseEnd) (dropped : Bool) : (s.countParsed port w e dropped).ucb 0 = s.ucb 0 := by
  fun_cases State.countParsed s port w e dropped <;> simp +zetaDelta

@[simp] theorem ucb_countLost (p : Packet) : (s.countLost p).ucb 0 = s.ucb 0 := by
  fun_cases State.countLost s p <;> simp

@[simp] theorem ucb_resetPacket (pid tenant : Nat) (p : Packet) : (s.resetPacket pid tenant p).ucb 0 = s.ucb 0 := by
  fun_cases State.resetPacket s pid tenant p <;> simp

@[simp] theorem ucb_resetPackets (which : Packet → Bool) (tenant : State → Packet → Nat) : (s.resetPackets which tenant).ucb 0 = s.ucb 0 := by
  simp [State.resetPackets]

@[simp] theorem ucb_tedderLaneDown (n : Nat) : (s.tedderLaneDown n).ucb 0 = s.ucb 0 := by simp [State.tedderLaneDown]

@[simp] theorem ucb_kettleLaneDown (n : Nat) : (s.kettleLaneDown n).ucb 0 = s.ucb 0 := by
  fun_cases State.kettleLaneDown s n <;> simp +zetaDelta

/-! ### Warren's engines -/

@[simp] theorem ucb_dropPath (j : WarrenJob) (must : Bool) : (s.dropPath j must).2.ucb 0 = s.ucb 0 := by
  fun_cases State.dropPath s j must <;> (try simp) <;> repeat (refine ucb_of_snd 0 ‹_› ?_; simp)

@[simp] theorem ucb_abortAt (e who : Nat) : (s.abortAt e who).ucb 0 = s.ucb 0 := by
  fun_cases State.abortAt s e who <;> simp

@[simp] theorem ucb_abortLater (e who : Nat) : (s.abortLater e who).ucb 0 = s.ucb 0 := ucb_zero rfl
@[simp] theorem ucb_showBusy (e : Nat) : (s.showBusy e).ucb 0 = s.ucb 0 := ucb_zero rfl

@[simp] theorem ucb_warrenAbort (e : Nat) (reset : Bool) : (s.warrenAbort e reset).ucb 0 = s.ucb 0 := by
  simp [State.warrenAbort]
  split <;> simp

/-! ### Drover, Kettle and Loft -/

@[simp] theorem ucb_countQueue (q outs : Nat) (bytes : Int) (drops : Nat) : (s.countQueue q outs bytes drops).ucb 0 = s.ucb 0 :=
  s.ucb_modDrover 0 _
@[simp] theorem ucb_reportOutDrop (d : OutDesc) (len : Int) (diag : Nat) : (s.reportOutDrop d len diag).ucb 0 = s.ucb 0 := by
  simp [State.reportOutDrop]
@[simp] theorem ucb_droverDrop (d : OutDesc) (len : Int) (diag : Nat) : (s.droverDrop d len diag).ucb 0 = s.ucb 0 := by
  simp [State.droverDrop]
@[simp] theorem ucb_setQueued (q : Nat) (l : List Nat) : (s.setQueued q l).ucb 0 = s.ucb 0 := ucb_zero rfl

@[simp] theorem ucb_flushQueue (q diag : Nat) : (s.flushQueue q diag).ucb 0 = s.ucb 0 := by
  simp only [State.flushQueue, ucb_settleNode, ucb_setQueued]
  refine ucb_foldl 0 (fun s o => ?_) _ s
  split <;> simp

@[simp] theorem ucb_droverLaneDown (n : Nat) : (s.droverLaneDown n).ucb 0 = s.ucb 0 := by simp [State.droverLaneDown]

@[simp] theorem ucb_dropReleasing (k diag : Nat) : (s.dropReleasing k diag).ucb 0 = s.ucb 0 := by
  fun_cases State.dropReleasing s k diag <;> simp

@[simp] theorem ucb_droverEmpty : s.droverEmpty.ucb 0 = s.ucb 0 := by simp [State.droverEmpty]
@[simp] theorem ucb_setPackets (p : SMap Packet) : ({ s with packets := p } : State).ucb 0 = s.ucb 0 := ucb_zero rfl
@[simp] theorem ucb_loftDown : s.loftDown.ucb 0 = s.ucb 0 := by simp [State.loftDown]

/-! ### Stile, functions and Spine -/

@[simp] theorem ucb_stileReset : s.stileReset.ucb 0 = s.ucb 0 := by simp [State.stileReset]
@[simp] theorem ucb_forgetPairs (which : Nat → Bool) : (s.forgetPairs which).ucb 0 = s.ucb 0 := ucb_zero rfl
@[simp] theorem ucb_disablePairs (f : Nat) : (s.disablePairs f).ucb 0 = s.ucb 0 := by simp [State.disablePairs]
@[simp] theorem ucb_setEvMask (src : Nat) (b : Bool) : (s.setEvMask src b).ucb 0 = s.ucb 0 := ucb_zero rfl
@[simp] theorem ucb_setEvStatus (src : Nat) (b : Bool) : (s.setEvStatus src b).ucb 0 = s.ucb 0 := ucb_zero rfl

@[simp] theorem ucb_forgetEvents (f : Nat) : (s.forgetEvents f).ucb 0 = s.ucb 0 := by
  unfold State.forgetEvents
  apply ucb_foldl
  simp

@[simp] theorem ucb_setFunc (f : Nat) (x : FuncSt) : (s.setFunc f x).ucb 0 = s.ucb 0 := ucb_zero rfl
@[simp] theorem ucb_functionReset (f : Nat) : (s.functionReset f).ucb 0 = s.ucb 0 := by simp [State.functionReset]
@[simp] theorem ucb_endpointReset : s.endpointReset.ucb 0 = s.ucb 0 := by simp [State.endpointReset]
@[simp] theorem ucb_hostWrite (a : Nat) (data : List Byte) : (s.hostWrite a data).ucb 0 = s.ucb 0 := ucb_zero rfl
@[simp] theorem ucb_popTaken (f : Nat) : (s.popTaken f).ucb 0 = s.ucb 0 := ucb_zero rfl

@[simp] theorem ucb_answer (f : Nat) (r : Reply) : (s.answer f r).ucb 0 = s.ucb 0 := by
  fun_cases State.answer s f r <;> simp +zetaDelta

@[simp] theorem ucb_abortTaken : s.abortTaken.ucb 0 = s.ucb 0 := by
  unfold State.abortTaken
  apply ucb_foldl
  simp

@[simp] theorem ucb_spineRestarts : s.spineRestarts.ucb 0 = s.ucb 0 := by simp [State.spineRestarts]

/-! ### Time, Sheaf and what unitRegs shows again -/

@[simp] theorem ucb_showTime (lo : Nat) : s.showTime.ucb lo = s.ucb lo := by simp [State.showTime]
@[simp] theorem ucb_selectSource (lo : Nat) : s.selectSource.ucb lo = s.ucb lo := by simp [State.selectSource]
@[simp] theorem ucb_resetRegs (w : Nat) (keep : Nat → Bool) : (s.resetRegs w keep).ucb 0 = s.ucb 0 := ucb_zero rfl
@[simp] theorem ucb_resetMode (lo n : Nat) : (s.resetMode n).ucb lo = s.ucb lo := by simp [State.resetMode]
@[simp] theorem ucb_showSheaf (lo : Nat) : s.showSheaf.ucb lo = s.ucb lo := by simp [State.showSheaf]

end
end State
end Sys2Proof.Machine
end

section
/-! A Gathering without members: its place in the tree (R14), and what its unit leaves when it starts, goes down and changes. -/

namespace Sys2Proof.Machine

/-! ### The tree (R14) -/

/-- The Gatherings above one stand in lower windows. -/
theorem lt_of_mem_ancestorsOf : ∀ w : Win, ∀ a ∈ ancestorsOf w, a < w := by decide +kernel

theorem lt_of_kindOf_leaf : ∀ w : Win, kindOf w = 0x04 → w.val < 245 := by decide +kernel

/-- The kinds of the Gatherings that have members. -/
def groupKinds : List Nat := [0x01, 0x02, 0x03, 0x05, 0x07, 0x08, 0x0A, 0x0C, 0x0E, 0x10, 0x12, 0x14, 0x16]

theorem kindOf_not_mem_groupKinds {w : Nat} (h : membersOf w = []) : kindOf w ∉ groupKinds := by
  intro hk
  simp only [groupKinds, List.mem_cons, List.not_mem_nil, or_false] at hk
  rcases hk with hk | hk | hk | hk | hk | hk | hk | hk | hk | hk | hk | hk | hk <;> simp [membersOf, hk] at h

namespace State

section
variable (s : State) (lo : Nat)

/-! ### What a Gathering does when it starts, goes down and changes -/

theorem ucb_unitChanged (w : Nat) : (s.unitChanged w).ucb lo = s.ucb lo := by
  fun_cases State.unitChanged s w <;> simp

theorem ucb_raiseRunning (w : Nat) : (s.raiseRunning w).ucb lo = s.ucb lo := by simp [State.raiseRunning]

variable {w : Win} (hw : membersOf w = [])
include hw

theorem ucb_unitStart (fromOff : Bool) : (s.unitStart w fromOff).ucb (w + 1) = s.ucb (w + 1) := by
  have hkind := kindOf_not_mem_groupKinds hw
  have hleaf := lt_of_kindOf_leaf w
  fun_cases State.unitStart s w fromOff <;> simp_all +zetaDelta [groupKinds]
  rw [ucb_leafDown _ (by omega), ucb_applyRecord]

theorem ucb_unitDown : (s.unitDown w true).ucb 0 = s.ucb 0 := by
  have hkind := kindOf_not_mem_groupKinds hw
  fun_cases State.unitDown s w true <;> simp_all +zetaDelta [groupKinds]

omit hw in
theorem ucb_unitRegs (w : Nat) : (s.unitRegs w).ucb 0 = s.ucb 0 := by
  fun_cases State.unitRegs s w <;> simp +zetaDelta

end
end State
end Sys2Proof.Machine
end

section
/-! A Gathering without members: how it enters a state, and how a command stands in it (R17 to R20, R540). -/

namespace Sys2Proof.Machine

open Sys2Proof.Safety

namespace State

/-! ### A Gathering's state and what it shows -/

section
variable (s : State) {w : Nat}

@[simp] theorem gathOf_setGath_self (w : Nat) (g : Gath) : (s.setGath w g).gathOf w = g := SMap.get_set_self _ _ _ _
theorem gathOf_setGath_of_ne {w x : Nat} (g : Gath) (h : x ≠ w) : (s.setGath w g).gathOf x = s.gathOf x := SMap.get_set_of_ne _ _ _ h

/-- state_change stays set as other Gatherings change. -/
theorem stateChange_setSummary {a : Nat} (h : (s.reg w 0x20).getLsbD 3 = true) : ((s.setSummary a 3).reg w 0x20).getLsbD 3 = true := by
  by_cases ha : w = a
  · rw [← ha, reg_setSummary_self, BitVec.getLsbD_or, h, Bool.true_or]
  · rwa [State.setSummary, State.setEvent, reg_setReg_of_ne _ _ (by simp [ha]) (by decide) (by decide)]

theorem gath_changeGath (w : Nat) (g : Gath) : (s.changeGath w g).gath = (s.setGath w g).gath := by
  unfold State.changeGath
  refine List.foldlRecOn (motive := fun u : State => u.gath = (s.setGath w g).gath) _ _ rfl fun u hu a _ => ?_
  split
  · exact hu
  · exact hu

theorem status_changeGath (w : Nat) (g : Gath) (x : Nat) : (s.changeGath w g).reg x 0x18 = s.reg x 0x18 := by
  unfold State.changeGath
  refine List.foldlRecOn (motive := fun u : State => u.reg x 0x18 = s.reg x 0x18) _ _ rfl fun u hu a _ => ?_
  split
  · exact hu
  · rw [State.setSummary, State.setEvent, reg_setReg_of_ne _ _ (by simp) (by decide) (by decide), hu]

variable (hw : membersOf w = [])
include hw

theorem boundOf_of_single : s.boundOf w = [] := by simp [State.boundOf, hw]

theorem reported_of_single : s.reported w = ((s.gathOf w).own, false) := by
  simp [State.reported, State.reportedTo, s.boundOf_of_single hw]

theorem stateChange_changeGath {g : Gath} (h : (s.gathOf w).own ≠ g.own) : ((s.changeGath w g).reg w 0x20).getLsbD 3 = true := by
  have hreported : (s.reported w).1 ≠ ((s.setGath w g).reported w).1 := by
    rw [reported_of_single _ hw, reported_of_single _ hw, gathOf_setGath_self]; exact h
  unfold State.changeGath
  dsimp only
  rw [List.foldl_cons, if_neg hreported]
  refine List.foldlRecOn (motive := fun u : State => (u.reg w 0x20).getLsbD 3 = true) _ _ ?_ fun u hu a _ => ?_
  · rw [reg_setSummary_self, BitVec.getLsbD_or, show (BitVec.ofNat 32 (1 <<< 3)).getLsbD 3 = true by decide, Bool.or_true]
  · split
    · exact hu
    · exact u.stateChange_setSummary hu

end

/-! ### A Gathering's own logic enters a state (R19) -/

section
variable (s : State) (w : Nat) (g : GState)

theorem gath_enterState : (s.enterState w g).gath =
    (if (s.gathOf w).own = g then s else s.setGath w { s.gathOf w with own := g, entered := s.time.cycles, timedOut := false }).gath := by
  unfold State.enterState
  split <;> simp [gath_changeGath, *]

theorem gathOf_enterState_self : (s.enterState w g).gathOf w =
    if (s.gathOf w).own = g then s.gathOf w else { s.gathOf w with own := g, entered := s.time.cycles, timedOut := false } := by
  have hgath := s.gath_enterState w g
  split at hgath
  · rw [if_pos ‹_›, State.gathOf, hgath]; rfl
  · rw [if_neg ‹_›, State.gathOf, hgath]; exact gathOf_setGath_self ..

@[simp] theorem own_enterState : ((s.enterState w g).gathOf w).own = g := by
  rw [gathOf_enterState_self]; split <;> simp_all

@[simp] theorem cmd_enterState : ((s.enterState w g).gathOf w).cmd = (s.gathOf w).cmd := by
  rw [gathOf_enterState_self]; split <;> rfl

@[simp] theorem tip_enterState : ((s.enterState w g).gathOf w).tip = (s.gathOf w).tip := by
  rw [gathOf_enterState_self]; split <;> rfl

theorem gathOf_enterState_of_ne {x : Nat} (h : x ≠ w) : (s.enterState w g).gathOf x = s.gathOf x := by
  rw [State.gathOf, gath_enterState]
  split
  · rfl
  · exact s.gathOf_setGath_of_ne _ h

theorem status_enterState (x : Nat) : (s.enterState w g).reg x 0x18 = s.reg x 0x18 := by
  unfold State.enterState
  dsimp only
  split
  · rfl
  · exact s.status_changeGath ..

theorem stateChange_enterState {w : Nat} (hw : membersOf w = []) {g : GState} (h : (s.gathOf w).own ≠ g) :
    ((s.enterState w g).reg w 0x20).getLsbD 3 = true := by
  simp only [State.enterState, if_neg h]
  exact s.stateChange_changeGath hw h

end

/-! ### Where a command leaves a Gathering -/

/-- Every Gathering but w holds what it held in s; w stands in state g with command c under way and shows v in UCB_CMD_STATUS. -/
structure Stands (s u : State) (w : Nat) (g : GState) (c : Option UcbCmd) (v : Word32) : Prop where
  own : (u.gathOf w).own = g
  cmd : (u.gathOf w).cmd = c
  tip : (u.gathOf w).tip = none
  others : ∀ x, x ≠ w → u.gathOf x = s.gathOf x
  status : u.reg w 0x18 = v

/-- What UCB_CMD_STATUS shows of a command that was accepted where it held v (R540). -/
def acceptedStatus (v : Word32) (c : UcbCmd) (aborted : Bool) : Word32 := putFld (putFld (putFld v 27 24 c.code) 23 16 0) 30 30 (bit aborted)

theorem shows_acceptedStatus {u : State} {w : Nat} {v : Word32} {c : UcbCmd} {aborted : Bool} (h : u.reg w 0x18 = acceptedStatus v c aborted) :
    Shows u w c.code 0 (bit aborted) := by
  simp only [Shows, State.rf, h, acceptedStatus]
  refine ⟨?_, ?_, ?_⟩
  · rw [fld_putFld_of_apart _ _ (by decide) (by decide) (by decide), fld_putFld_of_apart _ _ (by decide) (by decide) (by decide),
      fld_putFld_self _ _ (by decide) (by decide)]
    cases c <;> rfl
  · rw [fld_putFld_of_apart _ _ (by decide) (by decide) (by decide), fld_putFld_self _ _ (by decide) (by decide), Nat.zero_mod]
  · rw [fld_putFld_self _ _ (by decide) (by decide)]
    cases aborted <;> rfl

/-- It has come there: state_change has set. -/
structure Moved (s u : State) (w : Nat) (g : GState) (c : Option UcbCmd) (v : Word32) : Prop extends Stands s u w g c v where
  change : (u.reg w 0x20).getLsbD 3 = true

section
variable {s u t : State} {w : Nat} {g : GState} {c : Option UcbCmd} {v : Word32}

theorem Moved.entered (h : Moved s u w g c v) : Entered s u w g := ⟨h.own, h.change, h.others⟩

/-- The command is accepted and under way. -/
theorem stands_acceptCmd (s : State) (w : Nat) (c : UcbCmd) (htip : (s.gathOf w).tip = none) :
    Stands s ((s.acceptCmd w c false).setCmd w (some c)) w (s.gathOf w).own (some c) (acceptedStatus (s.reg w 0x18) c false) where
  own := by simp only [State.setCmd, gathOf_setGath_self]; rfl
  cmd := by simp only [State.setCmd, gathOf_setGath_self]
  tip := by simp only [State.setCmd, gathOf_setGath_self]; exact htip
  others x hx := gathOf_setGath_of_ne _ _ hx
  status := reg_setReg_self s w 0x18 _

/-- Work that leaves what the Gatherings hold and the unit control block of w. -/
theorem Stands.of_ucb (h : Stands s u w g c v) (hucb : t.ucb (w + 1) = u.ucb (w + 1)) : Stands s t w g c v where
  own := by rw [gathOf_of_ucb hucb, h.own]
  cmd := by rw [gathOf_of_ucb hucb, h.cmd]
  tip := by rw [gathOf_of_ucb hucb, h.tip]
  others x hx := by rw [gathOf_of_ucb hucb, h.others x hx]
  status := by rw [status_of_ucb hucb (Nat.lt_succ_self w), h.status]

/-- The Gathering alone takes another value, with the same state. -/
theorem Stands.setGath (h : Stands s u w g c v) {x : Gath} {c' : Option UcbCmd} (hown : x.own = g) (hcmd : x.cmd = c') (htip : x.tip = none) :
    Stands s (u.setGath w x) w g c' v where
  own := by rw [gathOf_setGath_self, hown]
  cmd := by rw [gathOf_setGath_self, hcmd]
  tip := by rw [gathOf_setGath_self, htip]
  others y hy := by rw [gathOf_setGath_of_ne _ _ hy, h.others y hy]
  status := h.status

theorem Stands.enterState (h : Stands s u w g c v) (hw : membersOf w = []) {g' : GState} (hg : g ≠ g') : Moved s (u.enterState w g') w g' c v where
  own := u.own_enterState w g'
  cmd := by rw [cmd_enterState, h.cmd]
  tip := by rw [tip_enterState, h.tip]
  others x hx := by rw [gathOf_enterState_of_ne _ _ _ hx, h.others x hx]
  status := by rw [status_enterState, h.status]
  change := u.stateChange_enterState hw (by rw [h.own]; exact hg)

theorem Moved.of_ucb (h : Moved s u w g c v) (hucb : t.ucb (w + 1) = u.ucb (w + 1)) : Moved s t w g c v where
  toStands := h.toStands.of_ucb hucb
  change := by rw [stateChange_of_ucb hucb (Nat.lt_succ_self w), h.change]

/-- While the transition runs, the command goes on. -/
theorem Stands.settleCmd_of_transition (h : Stands s u w g c v) (hg : g = .starting ∨ g = .quiescing ∨ g = .updating) : u.settleCmd w = u := by
  unfold State.settleCmd
  dsimp only
  rw [if_pos (by rw [h.own]; tauto)]

/-- Whatever the command, the Gathering stands where it stood. -/
theorem Moved.settleCmd (h : Moved s u w g c v) : Moved s (u.settleCmd w) w g ((u.settleCmd w).gathOf w).cmd v := by
  fun_cases State.settleCmd u w
  · exact { h with cmd := rfl }
  · exact { h with cmd := rfl }
  · exact ⟨h.toStands.setGath h.own (by simp [State.setCmd]) h.tip, h.change⟩

/-- A command that asks for nothing more ends. -/
theorem Stands.cmd_settleCmd (h : Stands s u w g c v) (hw : membersOf w = []) (hg : ¬ (g = .starting ∨ g = .quiescing ∨ g = .updating))
    (hc : c ≠ some .drain) : ((u.settleCmd w).gathOf w).cmd = none := by
  fun_cases State.settleCmd u w
  case case1 hrun =>
    simp +zetaDelta only [boundOf_of_single _ hw, h.own, h.cmd, h.tip] at hrun
    simp_all [h.cmd]
  case case2 hdrain => exact absurd (h.cmd.symm.trans hdrain.1) hc
  case case3 => simp [State.setCmd]

/-- Nothing goes on above the Gathering. -/
theorem settleAbove_eq_self {w : Nat} (h : QuietAbove u w) : u.settleAbove w = u := by
  refine List.foldlRecOn (motive := fun t : State => t = u) _ _ rfl fun t ht a ha => ?_
  obtain ⟨hcmd, htip⟩ := h a ha
  rw [ht, State.tipStep, htip, State.settleCmd, hcmd]
  rfl

theorem Stands.quietAbove {w : Win} (h : Stands s u w g c v) (hq : QuietAbove s w) : QuietAbove u w := fun a ha => by
  rw [h.others a (Nat.ne_of_lt (lt_of_mem_ancestorsOf w a ha))]; exact hq a ha

end
end State
end Sys2Proof.Machine
end

section
/-! The commands of a Gathering without members, and the commands that are refused (01, R19 to R25, R539, R540). -/

namespace Sys2Proof.Machine

open Sys2Proof.Safety

/-! ### Tables -/

theorem SMap.mem_insert_self {α : Type} (m : SMap α) (k : Nat) (v : α) : (k, v) ∈ SMap.insert m k v := by
  induction m with
  | nil => exact List.mem_cons_self
  | cons x m ih =>
    rw [SMap.insert]
    split
    · exact List.mem_cons_self
    · exact List.mem_cons_of_mem _ ih

theorem SMap.find_filter_none {α : Type} {m : SMap α} {k : Nat} {p : Nat × α → Bool} (h : ∀ e, e.1 = k → p e = false) :
    SMap.find (m.filter p) k = none := by
  induction m with
  | nil => rfl
  | cons x m ih =>
    by_cases hx : p x = true
    · rw [List.filter_cons_of_pos hx, SMap.find, if_neg (fun hk => by simp [h x hk.symm] at hx), ih]
    · rw [List.filter_cons_of_neg hx, ih]

/-- A table holds at most one value at a number that was just written, and the number if the value is not the default. -/
theorem SMap.eq_of_mem_set {α : Type} [DecidableEq α] {d : Nat → α} {m : SMap α} {k : Nat} {v : α} {e : Nat × α} (h : e ∈ SMap.set d m k v)
    (hk : e.1 = k) : e.2 = v := by
  unfold SMap.set at h
  split at h
  · exact absurd hk (SMap.mem_erase h).2
  · rcases SMap.mem_insert h with rfl | h
    · rfl
    · exact absurd hk (SMap.mem_erase h).2

theorem SMap.mem_set_of_ne {α : Type} [DecidableEq α] {d : Nat → α} (m : SMap α) {k : Nat} {v : α} (h : v ≠ d k) : (k, v) ∈ SMap.set d m k v := by
  rw [SMap.set, if_neg h]
  exact SMap.mem_insert_self ..

namespace State

section
variable {s u : State} {w : Win} {g : GState} {c : Option UcbCmd} {v : Word32} (hw : membersOf w = [])
include hw

/-! ### What each command does in the Gathering's own logic -/

theorem Stands.startOne (h : Stands s u w g c v) (hg : g ≠ .starting) : Moved s (u.startOne w) w .starting c v := by
  have hfound {x : State} (hx : x.ucb (w + 1) = u.ucb (w + 1)) : Stands s (x.setGath w { x.gathOf w with found := u.startStatus w }) w g c v :=
    let hstands := h.of_ucb hx
    hstands.setGath hstands.own hstands.cmd hstands.tip
  unfold State.startOne
  dsimp only
  refine Stands.enterState (g := g) (iteInduction (motive := fun x => Stands s x w g c v) (fun _ => ?_) fun _ => ?_) hw hg
  · refine (hfound ?_).of_ucb (ucb_setRf _ _ _ _ _ (by decide))
    split <;> simp [ucb_unitStart _ hw]
  · refine hfound ?_
    split <;> simp [ucb_unitStart _ hw]

theorem Stands.drainOne (h : Stands s u w g c v) (hg : g ≠ .quiescing) :
    Moved s (u.drainOne w) w (if kindOf w = 0x1B ∨ kindOf w = 0x1C ∨ kindOf w = 0x20 then .quiet else .quiescing) c v := by
  have hdrain := (h.enterState hw hg).of_ucb (ucb_unitChanged _ _ w)
  fun_cases State.drainOne u w
  case case4 s1 h1 h2 h3 => rw [if_neg (by tauto)]; exact hdrain
  all_goals rw [if_pos (by tauto)]; exact hdrain.toStands.enterState hw (by decide)

theorem Stands.resumeOne (h : Stands s u w g c v) (hg : g ≠ .inService) : Moved s (u.resumeOne w) w .inService c v := by
  refine ((Stands.enterState (g := g) (h.of_ucb ?_) hw hg).of_ucb (ucb_raiseRunning _ _ w)).of_ucb (ucb_unitChanged _ _ w)
  simp

end

/-! ### STOP: the unit control block stays (R509) -/

/-- A register that is among those put back, or holds its value already, holds it then. -/
theorem reg_restored {w o : Nat} {v : Word32} (l : List (Nat × Word32)) (s : State) (hw : ∀ e ∈ l, e.1 / 65536 = w) (ho : o < 65536)
    (hv : ∀ e ∈ l, e.1 = w * 65536 + o → e.2 = v) (h : s.reg w o = v ∨ ∃ e ∈ l, e.1 = w * 65536 + o) :
    (l.foldl (fun (s : State) e => s.setReg w (e.1 % 65536) e.2) s).reg w o = v := by
  induction l generalizing s with
  | nil => simpa using h
  | cons e l ih =>
    refine ih _ (fun x hx => hw x (List.mem_cons_of_mem _ hx)) (fun x hx => hv x (List.mem_cons_of_mem _ hx)) ?_
    by_cases he : e.1 = w * 65536 + o
    · refine .inl ?_
      dsimp only
      rw [show e.1 % 65536 = o by omega, reg_setReg_self, hv e List.mem_cons_self he]
    · dsimp only
      have hwe := hw e List.mem_cons_self
      refine h.imp (fun hs => ?_) fun ⟨x, hx, hxo⟩ => ?_
      · rw [reg_setReg_of_off_ne _ _ _ (by omega), hs]
      · rcases List.mem_cons.mp hx with rfl | hx
        · exact absurd hxo he
        · exact ⟨x, hx, hxo⟩

/-- The command that a Gathering shows is not among what unitRegs keeps. -/
theorem status_unitRegs (s : State) (w : Nat) : (s.unitRegs w).reg w 0x18 = regReset (w * 65536 + 0x18) := by
  have hshown (x : State) : (x.unitRegs w).reg w 0x18 =
      (x.resetRegs w fun off => (kindOf w = 0x18 && loftKeeps off) || (kindOf w = 0x0F && off = 0x1A8)).reg w 0x18 :=
    status_of_ucb (lo := w + 1) (by fun_cases State.unitRegs x w <;> simp +zetaDelta) (Nat.lt_succ_self w)
  rw [hshown, State.reg, State.resetRegs, SMap.get, SMap.find_filter_none, Option.getD_none]
  intro e he
  simp [he, loftKeeps, show (w * 65536 + 24) / 65536 = w by omega, show (w * 65536 + 24) % 65536 = 24 by omega]

section
variable {s u t : State} {w : Win} {g : GState} {c : Option UcbCmd} {v v' : Word32}

/-- Work that leaves what the Gatherings hold. -/
theorem Stands.of_gath (h : Stands s u w g c v) (hgath : t.ucb 0 = u.ucb 0) (hstatus : t.reg w 0x18 = v') : Stands s t w g c v' where
  own := by rw [gathOf_of_ucb hgath, h.own]
  cmd := by rw [gathOf_of_ucb hgath, h.cmd]
  tip := by rw [gathOf_of_ucb hgath, h.tip]
  others x hx := by rw [gathOf_of_ucb hgath, h.others x hx]
  status := hstatus

/-- The unit control block that was put back shows the command that was just accepted. -/
theorem status_restored (t : State) {w : Nat} {m : SMap Word32} (hset : u.regs = SMap.set regReset m (w * 65536 + 0x18) v) :
    ((u.regs.filter (fun e => decide (e.1 / 65536 = w) && decide (e.1 % 65536 < 0x100))).foldl (fun (s : State) e => s.setReg w (e.1 % 65536) e.2)
      (t.unitRegs w)).reg w 0x18 = v := by
  refine reg_restored _ _ (fun e he => ?_) (by decide) (fun e he => ?_) ?_
  · simp only [List.mem_filter, Bool.and_eq_true, decide_eq_true_eq] at he
    exact he.2.1
  · rw [hset] at he
    exact SMap.eq_of_mem_set (List.mem_filter.mp he).1
  · by_cases hv : v = regReset (w * 65536 + 0x18)
    · exact .inl (by rw [status_unitRegs, hv])
    · refine .inr ⟨(w * 65536 + 0x18, v), List.mem_filter.mpr ⟨by rw [hset]; exact SMap.mem_set_of_ne _ hv, ?_⟩, rfl⟩
      simp only [Bool.and_eq_true, decide_eq_true_eq]
      omega

section
variable (hw : membersOf w = [])
include hw

theorem Stands.stopOne (h : Stands s u w g c v) (hg : g ≠ .off) {m : SMap Word32} (hset : u.regs = SMap.set regReset m (w * 65536 + 0x18) v) :
    Moved s (u.stopOne w) w .off c v := by
  refine Moved.of_ucb (Stands.enterState (g := g) (h.of_gath ?_ (status_restored _ hset)) hw hg) (ucb_unitChanged _ _ w)
  simp [ucb_unitRegs, ucb_unitDown _ hw]

/-! ### RESET (R9, R23) -/

theorem ne_lingWin_of_single : w.val ≠ lingWin := by
  intro h
  rw [h] at hw
  exact absurd hw (by decide)

theorem Stands.endCmd (h : Stands s u w g c v) : Stands s (u.endCmd w) w g none v := by
  unfold State.endCmd
  dsimp only
  rw [if_neg (ne_lingWin_of_single hw)]
  exact (h.setGath (x := { u.gathOf w with cmd := none, tip := none, found := 0 }) h.own rfl rfl).of_ucb (ucb_setLoaded ..)

theorem Stands.resetUnit (h : Stands s u w g c v) (hoff : g ≠ .off) (habsent : g ≠ .absent) :
    Moved s (u.resetUnit w) w .off none (((u.unitDown w true).unitRegs w).reg w 0x18) := by
  have hdown : ((u.unitDown w true).unitRegs w).ucb 0 = u.ucb 0 := by rw [ucb_unitRegs, ucb_unitDown _ hw]
  have hend := (h.of_gath hdown rfl).endCmd hw
  unfold State.resetUnit
  dsimp only
  rw [if_neg (by rw [hend.own]; exact habsent)]
  exact (hend.enterState hw hoff).of_ucb (ucb_unitChanged _ _ w)

omit hw in
/-- The status of another command is all that its acceptance changes. -/
theorem Moved.acceptCmd (h : Moved s u w g c v) (k : UcbCmd) (aborted : Bool) :
    Moved s (u.acceptCmd w k aborted) w g c (acceptedStatus v k aborted) where
  own := h.own
  cmd := h.cmd
  tip := h.tip
  others := h.others
  status := by rw [State.acceptCmd, reg_setReg_self, h.status]; rfl
  change := by rw [State.acceptCmd, reg_setReg_of_off_ne _ _ _ (by decide), h.change]

end
end

/-! ### The commands as they reach it (R20, R24, R25) -/

section
variable (s : State) {c : UcbCmd}

theorem ancestorBusy_of_quietAbove {w : Nat} (hq : QuietAbove s w) : s.ancestorBusy w = false := by
  simp only [State.ancestorBusy, List.any_eq_false, State.busy]
  intro a ha
  simp [(hq a ha).1]

/-- A command that nothing above holds up goes to the Gathering and its members. -/
theorem command_of_taken {w : Nat} (hs : Commandable s) (hq : QuietAbove s w) (hc : c ≠ .bindSpare) (hcmd : c = .reset ∨ (s.gathOf w).cmd = none) :
    s.command w c = ((State.spread c 3 s w).2).settleAbove w := by
  obtain ⟨hheld, hlocked⟩ := hs
  have hbusy : ¬ (c ≠ .reset ∧ (s.busy w ∨ s.ancestorBusy w)) := by
    simp only [State.busy, ancestorBusy_of_quietAbove s hq]
    rcases hcmd with rfl | hcmd <;> simp [*]
  rw [State.command, if_neg (by simp [hheld]), if_neg hlocked, if_neg hbusy, if_neg hc]

variable {w : Win} (hw : membersOf w = [])
include hw

theorem spread_of_single (htakes : s.takes w c = true) :
    (State.spread c 3 s w).2 =
      (if c = .reset then s.resetOne w else ((s.acceptCmd w c false).setCmd w (some c)).enact w c).settleCmd w := by
  have hsome : s.someTakes c 3 w = true := by simp [State.someTakes, htakes]
  have hreached (u : State) : u.reached w c = [] := by simp [State.reached, hw, boundOf_of_single _ hw]
  simp [State.spread, hsome, htakes, hreached]

/-- A command that a Gathering without members takes in its state does there what it asks; nothing above the Gathering goes on with it. -/
theorem command_of_single (hs : Commandable s) (hq : QuietAbove s w) (hc : c ≠ .bindSpare) (hcmd : c = .reset ∨ (s.gathOf w).cmd = none)
    (htakes : takesIn (s.gathOf w).own c = true) {u : State} {g : GState} {c' : Option UcbCmd} {v : Word32}
    (hmoved : Moved s u w g c' v)
    (hu : u = if c = .reset then s.resetOne w else ((s.acceptCmd w c false).setCmd w (some c)).enact w c) :
    s.command w c = u.settleCmd w := by
  have htakes : s.takes w c = true := by
    simp only [State.takes, htakes, State.busy, Bool.true_and]
    rcases hcmd with rfl | hcmd <;> simp [*]
  rw [command_of_taken s hs hq hc hcmd, spread_of_single s hw htakes, ← hu]
  exact settleAbove_eq_self (hmoved.settleCmd.quietAbove hq)

end

end State
end Sys2Proof.Machine

namespace Sys2Proof.Safety

open Sys2Proof.Machine Sys2Proof.Machine.State

/-! ### Commands that move (R19, R20, R23) -/

theorem exec_of_ucbRow {i : Instr} {w : Nat} {c : UcbCmd} (h : ucbRow i = some (w, c)) :
    w < 430 ∧ ∀ s, exec i s = .next (s.command w c) := by
  unfold ucbRow at h
  split at h <;> cases h <;> exact ⟨Fin.isLt _, fun s => by unfold exec; rfl⟩

theorem leaves_of_ucbRow {i : Instr} {w : Nat} {c : UcbCmd} (h : ucbRow i = some (w, c)) {s : State} {P : State → Prop} (hP : P (s.command w c)) :
    Leaves i s P := ⟨_, (exec_of_ucbRow h).2 s, hP⟩

section
variable {s : State} {w : Win} (hw : membersOf w = []) (hs : Commandable s) (hq : QuietAbove s w) (htip : (s.gathOf w).tip = none)
include hw hs hq htip

theorem command_start (hcmd : (s.gathOf w).cmd = none) (hown : (s.gathOf w).own = .off ∨ (s.gathOf w).own = .quiet) :
    Entered s (s.command w .start) w .starting ∧ ((s.command w .start).gathOf w).cmd = some .start ∧ Shows (s.command w .start) w 1 0 0 := by
  have hmoved := (stands_acceptCmd s w .start htip).startOne hw (by rcases hown with h | h <;> simp [h])
  rw [command_of_single s hw (c := .start) hs hq (by decide) (.inr hcmd) (by rcases hown with h | h <;> simp [h, takesIn]) hmoved (if_neg (by decide)).symm,
    hmoved.settleCmd_of_transition (.inl rfl)]
  exact ⟨hmoved.entered, hmoved.cmd, shows_acceptedStatus hmoved.status⟩

theorem command_drain (hcmd : (s.gathOf w).cmd = none) (hown : (s.gathOf w).own = .inService) :
    Entered s (s.command w .drain) w (if kindOf w = 0x1B ∨ kindOf w = 0x1C ∨ kindOf w = 0x20 then .quiet else .quiescing) ∧
      Shows (s.command w .drain) w 2 0 0 := by
  have hmoved := (stands_acceptCmd s w .drain htip).drainOne hw (by simp [hown])
  rw [command_of_single s hw (c := .drain) hs hq (by decide) (.inr hcmd) (by simp [hown, takesIn]) hmoved (if_neg (by decide)).symm]
  exact ⟨hmoved.settleCmd.entered, shows_acceptedStatus hmoved.settleCmd.status⟩

theorem command_stop (hcmd : (s.gathOf w).cmd = none) (hown : (s.gathOf w).own = .quiet ∨ (s.gathOf w).own = .failed) :
    Entered s (s.command w .stop) w .off ∧ ((s.command w .stop).gathOf w).cmd = none ∧ Shows (s.command w .stop) w 3 0 0 := by
  have hmoved := (stands_acceptCmd s w .stop htip).stopOne hw (by rcases hown with h | h <;> simp [h]) rfl
  rw [command_of_single s hw (c := .stop) hs hq (by decide) (.inr hcmd) (by rcases hown with h | h <;> simp [h, takesIn]) hmoved (if_neg (by decide)).symm]
  exact ⟨hmoved.settleCmd.entered, hmoved.cmd_settleCmd hw (by decide) (by decide), shows_acceptedStatus hmoved.settleCmd.status⟩

theorem command_reset (habsent : (s.gathOf w).own ≠ .absent) (hoff : (s.gathOf w).own ≠ .off) :
    Entered s (s.command w .reset) w .off ∧ ((s.command w .reset).gathOf w).cmd = none ∧
      Shows (s.command w .reset) w 4 0 (bit (s.gathOf w).cmd.isSome) := by
  have hstands : Stands s s w (s.gathOf w).own (s.gathOf w).cmd (s.reg w 0x18) := ⟨rfl, rfl, htip, fun _ _ => rfl, rfl⟩
  have hmoved := (hstands.resetUnit hw hoff habsent).acceptCmd .reset (s.busy w)
  rw [command_of_single s hw (c := .reset) hs hq (by decide) (.inl rfl) (by simp [takesIn, habsent, hoff]) hmoved (if_pos rfl).symm]
  exact ⟨hmoved.settleCmd.entered, hmoved.cmd_settleCmd hw (by decide) (by decide), shows_acceptedStatus hmoved.settleCmd.status⟩

theorem command_update (hcmd : (s.gathOf w).cmd = none) (hown : (s.gathOf w).own = .quiet) :
    Entered s (s.command w .update) w .updating ∧ ((s.command w .update).gathOf w).cmd = some .update ∧ Shows (s.command w .update) w 5 0 0 := by
  have hmoved := (stands_acceptCmd s w .update htip).enterState hw (g' := .updating) (by simp [hown])
  rw [command_of_single s hw (c := .update) hs hq (by decide) (.inr hcmd) (by simp [hown, takesIn]) hmoved (if_neg (by decide)).symm,
    hmoved.settleCmd_of_transition (.inr (.inr rfl))]
  exact ⟨hmoved.entered, hmoved.cmd, shows_acceptedStatus hmoved.status⟩

theorem command_resume (hcmd : (s.gathOf w).cmd = none) (hown : (s.gathOf w).own = .quiet) :
    Entered s (s.command w .resume) w .inService ∧ ((s.command w .resume).gathOf w).cmd = none ∧ Shows (s.command w .resume) w 6 0 0 := by
  have hmoved := (stands_acceptCmd s w .resume htip).resumeOne hw (by simp [hown])
  rw [command_of_single s hw (c := .resume) hs hq (by decide) (.inr hcmd) (by simp [hown, takesIn]) hmoved (if_neg (by decide)).symm]
  exact ⟨hmoved.settleCmd.entered, hmoved.cmd_settleCmd hw (by decide) (by decide), shows_acceptedStatus hmoved.settleCmd.status⟩

end

/-! ### Commands that are refused (R20, R24, R25, R539, R540) -/

theorem ucbCode_lt (c : UcbCmd) : c.code < 16 := by cases c <;> decide

/-- What UCB_CMD_STATUS holds once a command was refused, and nothing else. -/
theorem refuseCmd_facts (s : State) {w : Nat} (c : UcbCmd) {result : Nat} (h : result < 256) :
    s.refuseCmd w c result = { s with regs := (s.refuseCmd w c result).regs } ∧ (s.refuseCmd w c result).rf w 0x18 27 24 = c.code ∧
      (s.refuseCmd w c result).rf w 0x18 23 16 = result ∧ (s.refuseCmd w c result).rf w 0x18 15 0 = min 0xFFFF (s.rf w 0x18 15 0 + 1) ∧
      (s.refuseCmd w c result).rf w 0x18 30 30 = s.rf w 0x18 30 30 ∧
      ∀ x o, (x, o) ≠ (w, 0x18) → o < 65536 → (s.refuseCmd w c result).reg x o = s.reg x o := by
  have hcode := ucbCode_lt c
  refine ⟨rfl, ?_, ?_, ?_, ?_, fun x o hne ho => reg_setReg_of_ne _ _ hne ho (by decide)⟩
  · rw [State.rf, State.refuseCmd, reg_setReg_self, fld_putFld_of_apart _ _ (by decide) (by decide) (by decide),
      fld_putFld_of_apart _ _ (by decide) (by decide) (by decide), fld_putFld_self _ _ (by decide) (by decide)]
    omega
  · rw [State.rf, State.refuseCmd, reg_setReg_self, fld_putFld_of_apart _ _ (by decide) (by decide) (by decide),
      fld_putFld_self _ _ (by decide) (by decide)]
    omega
  · rw [State.rf, State.refuseCmd, reg_setReg_self, fld_putFld_self _ _ (by decide) (by decide)]
    change _ = min 0xFFFF (fld (s.reg w 0x18) 15 0 + 1)
    omega
  · simp only [State.rf, State.refuseCmd, reg_setReg_self]
    rw [fld_putFld_of_apart _ _ (by decide) (by decide) (by decide), fld_putFld_of_apart _ _ (by decide) (by decide) (by decide),
      fld_putFld_of_apart _ _ (by decide) (by decide) (by decide)]

section
variable {s : State} {w : Nat} {c : UcbCmd} (hheld : s.heldInReset = false)
include hheld

theorem command_of_locked (h : s.trust.sec = .locked) : s.command w c = s.refuseCmd w c 3 := by
  rw [State.command, if_neg (by simp [hheld]), if_pos h]

theorem command_of_busy (h : s.trust.sec ≠ .locked) (hc : c ≠ .reset)
    (hbusy : (s.gathOf w).cmd.isSome = true ∨ ∃ a ∈ ancestorsOf w, (s.gathOf a).cmd.isSome = true) : s.command w c = s.refuseCmd w c 2 := by
  have hbusy : c ≠ .reset ∧ (s.busy w ∨ s.ancestorBusy w) :=
    ⟨hc, hbusy.imp id fun ⟨a, ha, hcmd⟩ => List.any_eq_true.mpr ⟨a, ha, hcmd⟩⟩
  rw [State.command, if_neg (by simp [hheld]), if_neg h, if_pos hbusy]

theorem command_of_notTaken (h : s.trust.sec ≠ .locked) (hcmd : (s.gathOf w).cmd = none) (hq : QuietAbove s w) (hc : c ≠ .bindSpare)
    (htakes : s.someTakes c 3 w = false) : s.command w c = s.refuseCmd w c 1 := by
  have hspread : (State.spread c 3 s w).2 = s.refuseCmd w c 1 := by simp [State.spread, htakes, State.busy, hcmd]
  rw [command_of_taken s ⟨hheld, h⟩ hq hc (.inr hcmd), hspread]
  exact settleAbove_eq_self (u := s.refuseCmd w c 1) hq

theorem command_of_not_bindOk (h : s.trust.sec ≠ .locked) (hcmd : (s.gathOf w).cmd = none) (hq : QuietAbove s w)
    (hbind : s.bindOk w = false) : s.command w .bindSpare = s.refuseCmd w .bindSpare 1 := by
  have hbusy : ¬ (UcbCmd.bindSpare ≠ .reset ∧ (s.busy w ∨ s.ancestorBusy w)) := by
    simp only [State.busy, hcmd, ancestorBusy_of_quietAbove s hq]; simp
  rw [State.command, if_neg (by simp [hheld]), if_neg h, if_neg hbusy, if_pos rfl, if_neg (by simp [hbind])]

end

/-- Settles O26: each command goes through its acceptance, what it does in the Gathering's own logic and the end of what asked for no more; of a Gathering
without members, the work inside its unit leaves what the Gatherings hold and its own unit control block. -/
theorem gatheringCommandsMoveOrAreRefused : Obligations.GatheringCommandsMoveOrAreRefused := by
  unfold Obligations.GatheringCommandsMoveOrAreRefused
  refine ⟨fun i s w c hi hw hs hq htip => ?_, fun s w => ⟨s, by unfold exec; rfl, rfl⟩, fun i s w c hi hheld => ?_⟩
  · obtain ⟨w, rfl⟩ : ∃ x : Win, x.val = w := ⟨⟨w, (exec_of_ucbRow hi).1⟩, rfl⟩
    refine ⟨?_, ?_, ?_, ?_, ?_, ?_⟩
    · rintro hcmd rfl hown
      exact leaves_of_ucbRow hi (command_start hw hs hq htip hcmd hown)
    · rintro hcmd rfl hown
      exact leaves_of_ucbRow hi (command_drain hw hs hq htip hcmd hown)
    · rintro hcmd rfl hown
      exact leaves_of_ucbRow hi (command_stop hw hs hq htip hcmd hown)
    · rintro rfl habsent hoff
      exact leaves_of_ucbRow hi (command_reset hw hs hq htip habsent hoff)
    · rintro hcmd rfl hown
      exact leaves_of_ucbRow hi (command_update hw hs hq htip hcmd hown)
    · rintro hcmd rfl hown
      exact leaves_of_ucbRow hi (command_resume hw hs hq htip hcmd hown)
  · refine ⟨fun hlocked => ?_, fun hlocked hc hbusy => ?_, fun hlocked hcmd hq => ⟨fun hc htakes => ?_, ?_⟩⟩
    · exact leaves_of_ucbRow hi (command_of_locked hheld hlocked ▸ refuseCmd_facts s c (by decide))
    · exact leaves_of_ucbRow hi (command_of_busy hheld hlocked hc hbusy ▸ refuseCmd_facts s c (by decide))
    · exact leaves_of_ucbRow hi (command_of_notTaken hheld hlocked hcmd hq hc htakes ▸ refuseCmd_facts s c (by decide))
    · rintro rfl hbind
      exact leaves_of_ucbRow hi (command_of_not_bindOk hheld hlocked hcmd hq hbind ▸ refuseCmd_facts s .bindSpare (by decide))

end Sys2Proof.Safety
end

section
/-! What reads and writes of the memories, counters and freed cells leave of the state: all but registers, memory errors, memories, Loft's cells and
ports. -/

namespace Sys2Proof.Machine

/-- The state without its registers, its memory errors, its memories, Loft's cells and the ports: what none of the operations below changes. -/
def State.beyondCells (s : State) : State :=
  { s with regs := [], mower := State.reset.mower, mem := State.reset.mem, loft := State.reset.loft, ports := [] }

namespace State

/-! ### Packets -/

theorem packet_setPacket_self (s : State) (p : Nat) (k : Packet) : (s.setPacket p k).packet p = some k := SMap.find_put_self _ _ _
theorem packet_setPacket_of_ne (s : State) {p x : Nat} (k : Packet) (h : x ≠ p) : (s.setPacket p k).packet x = s.packet x :=
  SMap.find_put_of_ne _ _ h

/-! ### What the view takes in -/

section
variable {s u : State} (h : u.beyondCells = s.beyondCells)
include h

theorem packets_of_beyondCells : u.packets = s.packets := show u.beyondCells.packets = s.beyondCells.packets from congrArg State.packets h
theorem packet_of_beyondCells (p : Nat) : u.packet p = s.packet p := by rw [State.packet, packets_of_beyondCells h, State.packet]
theorem reports_of_beyondCells : u.reports = s.reports := show u.beyondCells.reports = s.beyondCells.reports from congrArg State.reports h
theorem windrow_of_beyondCells : u.windrow = s.windrow := show u.beyondCells.windrow = s.beyondCells.windrow from congrArg State.windrow h

end

section
variable (s : State)

@[simp] theorem beyondCells_ite (c : Prop) [Decidable c] (u : State) :
    (if c then s else u).beyondCells = if c then s.beyondCells else u.beyondCells := apply_ite State.beyondCells c s u

@[simp] theorem beyondCells_foldl {α : Type} {f : State → α → State} (h : ∀ s a, (f s a).beyondCells = s.beyondCells) (l : List α) (s : State) :
    (l.foldl f s).beyondCells = s.beyondCells := by
  induction l generalizing s with
  | nil => rfl
  | cons a l ih => exact (ih _).trans (h s a)

/-! ### The parts left out -/

@[simp] theorem beyondCells_setReg (w off : Nat) (v : Word32) : (s.setReg w off v).beyondCells = s.beyondCells := rfl
@[simp] theorem beyondCells_setRf (w off hi lo x : Nat) : (s.setRf w off hi lo x).beyondCells = s.beyondCells := rfl
@[simp] theorem beyondCells_setEvent (w off b : Nat) : (s.setEvent w off b).beyondCells = s.beyondCells := rfl
@[simp] theorem beyondCells_setSummary (w b : Nat) : (s.setSummary w b).beyondCells = s.beyondCells := rfl
@[simp] theorem beyondCells_countBy (w off n : Nat) : (s.countBy w off n).beyondCells = s.beyondCells := rfl
@[simp] theorem beyondCells_count (w off : Nat) : (s.count w off).beyondCells = s.beyondCells := rfl
@[simp] theorem beyondCells_modMower (f : MowerSt → MowerSt) : (s.modMower f).beyondCells = s.beyondCells := rfl
@[simp] theorem beyondCells_modMem (f : MemSt → MemSt) : (s.modMem f).beyondCells = s.beyondCells := rfl
@[simp] theorem beyondCells_setStack (p : Nat) (k : PoolStack) : (s.setStack p k).beyondCells = s.beyondCells := rfl
@[simp] theorem beyondCells_setPoolUsed (t p n : Nat) : (s.setPoolUsed t p n).beyondCells = s.beyondCells := rfl
@[simp] theorem beyondCells_setLoftUsage (n q v : Nat) : (s.setLoftUsage n q v).beyondCells = s.beyondCells := rfl
@[simp] theorem beyondCells_setPort (n : Nat) (p : PortSt) : (s.setPort n p).beyondCells = s.beyondCells := rfl

/-! ### Reads and writes of the memories (R402 to R413) -/

@[simp] theorem beyondCells_summarise (w inst addr : Nat) (ucor hard : Bool) : (s.summarise w inst addr ucor hard).beyondCells = s.beyondCells := rfl
@[simp] theorem beyondCells_setInstLog (w inst : Nat) (l : InstLog) : (s.setInstLog w inst l).beyondCells = s.beyondCells := rfl

@[simp] theorem beyondCells_becomeHard (w inst addr : Nat) (ucor : Bool) : (s.becomeHard w inst addr ucor).beyondCells = s.beyondCells := by
  simp only [State.becomeHard]
  split <;> simp

@[simp] theorem beyondCells_logError (w inst addr : Nat) (ucor : Bool) (syndrome : Nat) :
    (s.logError w inst addr ucor syndrome).beyondCells = s.beyondCells := by
  simp only [State.logError]
  split
  · simp
  · split <;> simp

@[simp] theorem beyondCells_eccRead (w inst addr len : Nat) : (s.eccRead w inst addr len).2.beyondCells = s.beyondCells := by simp [State.eccRead]
@[simp] theorem beyondCells_readItem (w inst item : Nat) : (s.readItem w inst item).2.beyondCells = s.beyondCells := s.beyondCells_eccRead _ _ _ _

@[simp] theorem beyondCells_overlayApply (w inst addr len : Nat) : (s.overlayApply w inst addr len).beyondCells = s.beyondCells := by
  simp [State.overlayApply]

@[simp] theorem beyondCells_eccWrite (w inst addr len : Nat) : (s.eccWrite w inst addr len).beyondCells = s.beyondCells := by simp [State.eccWrite]
@[simp] theorem beyondCells_writeItem (w inst item : Nat) : (s.writeItem w inst item).beyondCells = s.beyondCells := s.beyondCells_eccWrite _ _ _ _

@[simp] theorem beyondCells_putBytes (table : Bool) (a : Nat) (data : List Byte) : (s.putBytes table a data).beyondCells = s.beyondCells := by
  unfold State.putBytes
  split
  · apply beyondCells_foldl
    intros
    rfl
  · rfl

@[simp] theorem beyondCells_memWrite (table : Bool) (a : Nat) (data : List Byte) : (s.memWrite table a data).beyondCells = s.beyondCells := by
  simp [State.memWrite]

/-! ### Cells and their chains (R301, R312 to R315) -/

@[simp] theorem beyondCells_touchChannel (w : Nat) : (s.touchChannel w).beyondCells = s.beyondCells := by
  fun_cases State.touchChannel s w <;> simp

@[simp] theorem beyondCells_readMeta (ptr : Nat) : (s.readMeta ptr).2.beyondCells = s.beyondCells := by
  fun_cases State.readMeta s ptr <;> simp

@[simp] theorem beyondCells_followChain (handle : Nat) : (s.followChain handle).beyondCells = s.beyondCells :=
  beyondCells_foldl (fun s p => s.beyondCells_readMeta p) _ s

@[simp] theorem beyondCells_setCell (ptr : Nat) (c : CellMeta) : (s.setCell ptr c).beyondCells = s.beyondCells := by
  have hcells (l : LoftSt) : ({ s with loft := l } : State).beyondCells = s.beyondCells := rfl
  fun_cases State.setCell s ptr c <;> simp +zetaDelta [hcells]

@[simp] theorem beyondCells_noteXoff (n q : Nat) : (s.noteXoff n q).beyondCells = s.beyondCells := by simp [State.noteXoff]
@[simp] theorem beyondCells_sendControl (n : Nat) (frame : List Byte) : (s.sendControl n frame).beyondCells = s.beyondCells := by simp [State.sendControl]
@[simp] theorem beyondCells_xoffDue (n : Nat) (qs : List Nat) : (s.xoffDue n qs).beyondCells = s.beyondCells := rfl

@[simp] theorem beyondCells_pfcChange (n old : Nat) : (s.pfcChange n old).beyondCells = s.beyondCells := by
  fun_cases State.pfcChange s n old <;> simp +zetaDelta

@[simp] theorem beyondCells_updateXoff (n q : Nat) : (s.updateXoff n q).beyondCells = s.beyondCells := by simp [State.updateXoff]

@[simp] theorem beyondCells_freeCell (tenant ptr : Nat) : (s.freeCell tenant ptr).beyondCells = s.beyondCells := by
  simp only [State.freeCell]
  split <;> simp

@[simp] theorem beyondCells_freeChain (handle : Nat) : (s.freeChain handle).beyondCells = s.beyondCells := by
  fun_cases State.freeChain s handle <;> simp +zetaDelta

@[simp] theorem beyondCells_refuseFree (handle : Nat) : (s.refuseFree handle).beyondCells = s.beyondCells := by simp [State.refuseFree]
@[simp] theorem beyondCells_refDec (handle : Nat) : (s.refDec handle).beyondCells = s.beyondCells := by simp [State.refDec]

/-! ### Packets that are dropped (R312, R366) -/

@[simp] theorem beyondCells_modPackets (f : SMap Packet → SMap Packet) : (s.modPackets f).beyondCells = s.beyondCells.modPackets f := rfl

/-- A packet that ends is gone, and stays in the table or leaves it; but for its cells nothing else is changed. -/
theorem beyondCells_endPacket {p : Nat} {k : Packet} (h : s.packet p = some k) :
    let gone := s.setPacket p { k with place := .gone }
    (s.endPacket p).beyondCells = gone.beyondCells ∨
    (s.endPacket p).beyondCells = (gone.modPackets (fun m => SMap.erase m p)).beyondCells := by
  simp only [State.endPacket, h]
  generalize ({ k with place := .gone } : Packet) = gone
  cases k.handle with
  | none => exact .inr rfl
  | some c =>
    have hdec := beyondCells_refDec (s.setPacket p gone) c
    dsimp only
    split
    · exact .inl hdec
    · exact .inr (congrArg (fun v => State.modPackets v (fun m => SMap.erase m p)) hdec)

/-- A packet that is dropped is reported and gone, and Windrow is as it was. -/
theorem dropPacket_reports_gone {p : Nat} {k : Packet} (h : s.packet p = some k) (tenant diag : Nat) :
    let u := s.dropPacket p tenant diag
    u.reports = s.reports ++ [Safety.dropReport tenant k.ts diag k.bytes.length] ∧ (∀ q, u.packet p = some q → q.place = .gone) ∧
      u.windrow = s.windrow := by
  have hdrop : s.dropPacket p tenant diag = (s.reportDrop tenant k.ts diag k.bytes.length).endPacket p := by rw [State.dropPacket, h]
  dsimp only
  rw [hdrop]
  rcases beyondCells_endPacket (s.reportDrop tenant k.ts diag k.bytes.length) h with hkept | hleft
  · refine ⟨reports_of_beyondCells hkept, fun q hq => ?_, (windrow_of_beyondCells hkept).trans rfl⟩
    rw [packet_of_beyondCells hkept] at hq
    have hgone := Option.some.inj ((packet_setPacket_self _ _ _).symm.trans hq)
    rw [← hgone]
  · refine ⟨reports_of_beyondCells hleft, fun q hq => ?_, (windrow_of_beyondCells hleft).trans rfl⟩
    rw [packet_of_beyondCells hleft] at hq
    exact absurd ((SMap.find_erase_self _ _).symm.trans hq) (by simp)

variable {s}

/-- So it is where its counters and the reads on the way changed what `beyondCells` leaves out. -/
theorem dropPacket_of_beyondCells {v : State} (hv : v.beyondCells = s.beyondCells) {p : Nat} {k : Packet} (h : s.packet p = some k) (tenant diag : Nat) :
    let u := v.dropPacket p tenant diag
    u.reports = s.reports ++ [Safety.dropReport tenant k.ts diag k.bytes.length] ∧ (∀ q, u.packet p = some q → q.place = .gone) ∧
      u.windrow = s.windrow := by
  rw [← reports_of_beyondCells hv, ← windrow_of_beyondCells hv]
  exact dropPacket_reports_gone v ((packet_of_beyondCells hv p).trans h) tenant diag

end
end State
end Sys2Proof.Machine
end

section
/-! Tedder's commands: parses, the hand-over to Windrow, the fragment table's times and the graph banks (02, R46 to R72, R545). -/

namespace Sys2Proof.Machine

open Sys2Proof.Safety

/-! ### What a context does with a packet (R54, R67) -/

/-- The severer of two actions is DROP (1) where one of them is DROP, and neither is less. -/
theorem severer_eq_drop {a b : Nat} (h : a = 1 ∨ b = 1) (ha : 1 ≤ a) (hb : 1 ≤ b) : severer a b = 1 := by
  unfold severer; omega

theorem drop_of_severer {a b : Nat} (h : severer a b = 1) : a = 1 ∨ b = 1 := by
  unfold severer at h; omega

namespace Walk

/-- The actions of a context on what a parse came to: on its reason, and on its being truncated; 3 where there is none. -/
def malAct (w : Walk) (e : ParseEnd) : Nat :=
  match e.reason with
  | some r => malActionOf w.malAction r
  | none => 3
def truncAct (w : Walk) (e : ParseEnd) : Nat := if e.truncated then w.truncAction else 3

section
variable (w : Walk) (e : ParseEnd)

/-- The context drops the packet: for the reason found, or for being truncated. -/
def Drops : Prop := (∃ r, e.reason = some r ∧ malActionOf w.malAction r = 1) ∨ (e.truncated = true ∧ w.truncAction = 1)

variable {w e}

theorem malAct_eq_one : malAct w e = 1 ↔ ∃ r, e.reason = some r ∧ malActionOf w.malAction r = 1 := by
  unfold malAct
  cases e.reason <;> simp

theorem truncAct_eq_one : truncAct w e = 1 ↔ e.truncated = true ∧ w.truncAction = 1 := by
  unfold truncAct
  cases e.truncated <;> simp

theorem one_le_malAct (h : ∀ r, e.reason = some r → 1 ≤ malActionOf w.malAction r) : 1 ≤ malAct w e := by
  unfold malAct
  split
  · exact h _ ‹_›
  · decide

theorem one_le_truncAct (h : e.truncated = true → 1 ≤ w.truncAction) : 1 ≤ truncAct w e := by
  unfold truncAct
  split
  · exact h ‹_›
  · decide

theorem drops_iff : Drops w e ↔ malAct w e = 1 ∨ truncAct w e = 1 := by rw [Drops, malAct_eq_one, truncAct_eq_one]

end

end Walk

/-! ### What a hand-over does beside it -/

namespace State

section
variable (s : State)

@[simp] theorem beyondCells_fragRead (w : Walk) : (s.fragRead w).2.beyondCells = s.beyondCells := by
  unfold State.fragRead
  split <;> simp

@[simp] theorem beyondCells_countParsed (port : Nat) (w : Walk) (e : ParseEnd) (dropped : Bool) :
    (s.countParsed port w e dropped).beyondCells = s.beyondCells := by
  unfold State.countParsed
  split <;> simp

@[simp] theorem beyondCells_modTedder (f : TedderSt → TedderSt) : (s.modTedder f).beyondCells = s.beyondCells.modTedder f := rfl

/-- The fragment step changes nothing but Tedder's own part and what `beyondCells` leaves out. -/
theorem beyondCells_fragLeave (w : Walk) (t : TedderSt) :
    ((s.fragLeave w).2.2.2.modTedder (fun _ => t)).beyondCells = (s.modTedder (fun _ => t)).beyondCells := by
  simp only [beyondCells_modTedder]
  fun_cases State.fragLeave s w
  -- a first fragment makes its entry, or replaces the one there
  case case5 =>
    rename_i aged put written shown full
    have hfull : full.beyondCells = put.beyondCells := by simp [full, shown, written]
    have hput : put.beyondCells.modTedder (fun _ => t) = aged.beyondCells.modTedder (fun _ => t) := rfl
    have haged : aged.beyondCells = s.beyondCells := by simp [aged]
    exact (congrArg (fun v => v.modTedder (fun _ => t)) hfull).trans (hput.trans (by rw [haged]))
  all_goals simp

/-- The state once a packet's fragment entry has been read, its fragment step taken and its counters have risen. -/
def handedCounts (s : State) (k : Packet) (w : Walk) : State :=
  let left := (s.fragRead w).2.fragLeave w
  left.2.2.2.countParsed k.port w (w.finish k.bytes left.2.2.1) false

theorem beyondCells_handedCounts (k : Packet) (w : Walk) (t : TedderSt) :
    ((s.handedCounts k w).modTedder (fun _ => t)).beyondCells = (s.modTedder (fun _ => t)).beyondCells := by
  have hleft := (s.fragRead w).2.beyondCells_fragLeave w t
  simp only [beyondCells_modTedder, beyondCells_fragRead] at hleft
  simp only [State.handedCounts, beyondCells_modTedder, beyondCells_countParsed, hleft]

section
variable (k : Packet) (w : Walk)

theorem packets_handedCounts : (s.handedCounts k w).packets = s.packets := by
  simpa using packets_of_beyondCells (s.beyondCells_handedCounts k w s.tedder)
theorem reports_handedCounts : (s.handedCounts k w).reports = s.reports := by
  simpa using reports_of_beyondCells (s.beyondCells_handedCounts k w s.tedder)
theorem windrow_handedCounts : (s.handedCounts k w).windrow = s.windrow := by
  simpa using windrow_of_beyondCells (s.beyondCells_handedCounts k w s.tedder)

end

end

/-! ### The hand-over (R49, R67, R68) -/

/-- What a hand-over makes of a packet. -/
def handedPacket (s : State) (k : Packet) (w : Walk) : Packet :=
  let left := (s.fragRead w).2.fragLeave w
  let e := w.finish k.bytes left.2.2.1
  let whole := w.finish k.bytes false
  { k with
    place := .handed, parse := some w, record := e.record, fragBind := left.1, fragFirstKey := left.2.1
    exc := if w.malAct whole = 2 then e.reason else if w.truncAct whole = 2 then some 0x40 else none }

/-- The packet stands behind the others of a Windrow lane. -/
def enterLane (s : State) (p lane : Nat) : State :=
  { s with windrow := { s.windrow with lanes := SMap.set (fun _ => []) s.windrow.lanes lane (s.windrowLane lane ++ [p]) } }

theorem windrowLane_enterLane (s : State) (p lane : Nat) : (s.enterLane p lane).windrowLane lane = s.windrowLane lane ++ [p] :=
  SMap.get_set_self _ _ _ _

theorem windrowLane_of_windrow {s u : State} (h : u.windrow = s.windrow) (lane : Nat) : u.windrowLane lane = s.windrowLane lane := by
  rw [State.windrowLane, h, State.windrowLane]

end State

section
variable {s : State} {p : Pid} {k : Packet} {w : Walk}

/-- What becomes of a parsed, complete packet that is the oldest of its port in Tedder. -/
theorem execRecordHandoff_of_oldest (hpacket : s.packet p = some k) (hparse : k.parse = some w) (hplace : k.place = .parsed)
    (hcomplete : k.complete = true) (holdest : s.oldestInTedder p k = true) :
    execRecordHandoff p s =
      let e := w.finish k.bytes false
      if severer (w.malAct e) (w.truncAct e) = 1 then .next ((s.countParsed k.port w e true).dropPacket p (s.defaultTenant k.port) 39)
      else if s.windrowStalled (laneOf k.port) then .next s
      else if (s.fragRead w).1 then .next (((s.fragRead w).2.countParsed k.port w e true).dropPacket p (s.defaultTenant k.port) 59)
      else .next (((s.handedCounts k w).setPacket p (s.handedPacket k w)).enterLane p (laneOf k.port)) := by
  have hleaves : ¬ (k.place ≠ .parsed ∨ ¬ k.complete = true ∨ ¬ s.oldestInTedder p k = true) := by simp [hplace, hcomplete, holdest]
  simp only [execRecordHandoff, hpacket, hparse, if_neg hleaves]
  rfl

end

end Sys2Proof.Machine

namespace Sys2Proof.Safety

open Sys2Proof.Machine

section
variable {s : State} {p : Pid} {k : Packet} {w : Walk}

/-! ### PARSE_BEGIN (R55, R58, R59) -/

theorem parseBegin_parses (hpacket : s.packet p = some k) (hplace : k.place = .rx)
    (hwindow : k.complete = true ∨ ctxWindow (s.graphBank s.activeBank) (s.packetCtx k) ≤ k.bytes.length) (htedder : s.serving tedderWin = true)
    (hlane : s.serving (402 + laneOf k.port) = true) :
    let g := s.graphBank s.activeBank
    let ctx := s.packetCtx k
    Leaves (.parseBegin p) s (fun u => ∃ w, w = parseWindow g s.activeBank ctx k.port k.ts (k.bytes.take (ctxWindow g ctx)) ∧
      u.packet p = some { k with place := .parsed, parse := some w, fragMissAction := w.fragMissAction } ∧ OtherPackets s u p ∧ u.regs = s.regs) := by
  intro g ctx
  let w := parseWindow g s.activeBank ctx k.port k.ts (k.bytes.take (ctxWindow g ctx))
  let parsed : Packet := { k with place := .parsed, parse := some w, fragMissAction := w.fragMissAction }
  have hexec : execParseBegin p s = .next (s.setPacket p parsed) := by
    simp only [execParseBegin, hpacket]
    exact if_pos ⟨hplace, hwindow, htedder, hlane⟩
  exact ⟨_, hexec, w, rfl, s.packet_setPacket_self p parsed, fun x hx => s.packet_setPacket_of_ne parsed hx, rfl⟩

/-! ### RECORD_HANDOFF (R46, R49, R67, R68, R405) -/

section
variable (hpacket : s.packet p = some k) (hparse : k.parse = some w) (hplace : k.place = .parsed) (hcomplete : k.complete = true)
  (holdest : s.oldestInTedder p k = true)
include hpacket hparse hplace hcomplete holdest

/-- A packet that its context drops counts as MALFORMED. -/
theorem recordHandoff_malformed (hdrops : Walk.Drops w (w.finish k.bytes false))
    (hmal : ∀ r, (w.finish k.bytes false).reason = some r → 1 ≤ malActionOf w.malAction r)
    (htrunc : (w.finish k.bytes false).truncated = true → 1 ≤ w.truncAction) :
    Leaves (.recordHandoff p) s (fun u => u.reports = s.reports ++ [dropReport (s.defaultTenant k.port) k.ts 39 k.bytes.length] ∧
      (∀ q, u.packet p = some q → q.place = .gone) ∧ u.windrow = s.windrow) := by
  have hsev := severer_eq_drop (Walk.drops_iff.1 hdrops) (Walk.one_le_malAct hmal) (Walk.one_le_truncAct htrunc)
  have hcounts := s.beyondCells_countParsed k.port w (w.finish k.bytes false) true
  exact ⟨_, (execRecordHandoff_of_oldest hpacket hparse hplace hcomplete holdest).trans (if_pos hsev),
    State.dropPacket_of_beyondCells hcounts hpacket _ 39⟩

section
variable (hdrops : ¬ Walk.Drops w (w.finish k.bytes false)) (hstalled : s.windrowStalled (laneOf k.port) = false)
include hdrops hstalled

/-- A packet whose fragment entry is uncorrectable counts as DATA_ERROR. -/
theorem recordHandoff_uncorrectable (hread : (s.fragRead w).1 = true) :
    Leaves (.recordHandoff p) s (fun u => u.reports = s.reports ++ [dropReport (s.defaultTenant k.port) k.ts 59 k.bytes.length] ∧
      (∀ q, u.packet p = some q → q.place = .gone) ∧ u.windrow = s.windrow) := by
  have hsev := fun h => hdrops (Walk.drops_iff.2 (drop_of_severer h))
  have hcounts : ((s.fragRead w).2.countParsed k.port w (w.finish k.bytes false) true).beyondCells = s.beyondCells := by simp
  exact ⟨_, (execRecordHandoff_of_oldest hpacket hparse hplace hcomplete holdest).trans
    ((if_neg hsev).trans ((if_neg (by simp [hstalled])).trans (if_pos hread))), State.dropPacket_of_beyondCells hcounts hpacket _ 59⟩

/-- Any other packet goes to its Windrow lane. -/
theorem recordHandoff_handed (hread : (s.fragRead w).1 = false) :
    Leaves (.recordHandoff p) s (fun u => (∃ q, u.packet p = some q ∧ q.place = .handed ∧ q.bytes = k.bytes ∧ q.parse = some w) ∧
      u.windrowLane (laneOf k.port) = s.windrowLane (laneOf k.port) ++ [p] ∧ OtherPackets s u p ∧ u.reports = s.reports) := by
  have hsev := fun h => hdrops (Walk.drops_iff.2 (drop_of_severer h))
  refine ⟨_, (execRecordHandoff_of_oldest hpacket hparse hplace hcomplete holdest).trans
    ((if_neg hsev).trans ((if_neg (by simp [hstalled])).trans (if_neg (by simp [hread])))), ?_, ?_, ?_, ?_⟩
  · exact ⟨s.handedPacket k w, State.packet_setPacket_self _ _ _, rfl, rfl, rfl⟩
  · rw [State.windrowLane_enterLane]
    exact congrArg (· ++ _) (State.windrowLane_of_windrow (s.windrow_handedCounts k w) _)
  · intro x hx
    refine (State.packet_setPacket_of_ne _ _ hx).trans ?_
    rw [State.packet, s.packets_handedCounts, State.packet]
  · exact s.reports_handedCounts k w

end
end

/-! ### The fragment table (R70, R71) -/

theorem fragPendingTimeout_unbinds {t : Nat} (hpacket : s.packet p = some k) (hwait : k.waitSince = some t) (hplace : k.place = .laneOut)
    (hlate : t + 1000 * s.rf tedderWin 0x210 23 16 ≤ s.time.cycles) :
    Leaves (.fragPendingTimeout p) s (fun u => u.packet p = some { k with waitSince := none, fragBind := .noEntry } ∧ Counted s u tedderWin 0x230 ∧
      OtherPackets s u p) := by
  let unbound : Packet := { k with waitSince := none, fragBind := .noEntry }
  have hexec : execFragPendingTimeout p s = .next ((s.count tedderWin 0x230).setPacket p unbound) := by
    simp only [execFragPendingTimeout, hpacket, hwait]
    exact if_pos ⟨hplace, hlate⟩
  exact ⟨_, hexec, State.packet_setPacket_self _ p unbound, s.toNat_reg_countBy tedderWin 0x230 1,
    fun x hx => State.packet_setPacket_of_ne _ unbound hx⟩

theorem fragAgeOut_erases {key : Nat} {e : FragEntry} (hfind : SMap.find s.tedder.frags key = some e)
    (haged : e.created + e.ageMs * 1000000 ≤ s.now) :
    Leaves (.fragAgeOut key) s (fun u => SMap.find u.tedder.frags key = none ∧
      (∀ x, x ≠ key → SMap.find u.tedder.frags x = SMap.find s.tedder.frags x) ∧ Counted s u tedderWin 0x234 ∧
      u.rf tedderWin 0x214 16 0 = u.tedder.frags.length % 2 ^ 17) := by
  let v : State := { s with tedder := { s.tedder with frags := SMap.erase s.tedder.frags key } }
  have hexec : execFragAgeOut key s = .next ((v.count tedderWin 0x234).setRf tedderWin 0x214 16 0 v.tedder.frags.length) := by
    simp only [execFragAgeOut, hfind]
    exact if_pos haged
  refine ⟨_, hexec, SMap.find_erase_self _ _, fun x hx => SMap.find_erase_of_ne _ hx, ?_, ?_⟩
  · rw [Counted, State.setRf, State.reg_setReg_of_off_ne _ _ _ (by decide)]
    exact v.toNat_reg_countBy tedderWin 0x234 1
  · rw [State.rf, State.setRf, State.reg_setReg_self, fld_putFld_self _ _ (by decide) (by decide)]
    rfl

end
end Sys2Proof.Safety
end

section
/-! Tedder's two graph banks: the switch, its end, and a load of the standby bank (02, R58, R545). -/

namespace Sys2Proof.Machine

/-! ### The graph_id of an image (R52) -/

theorem leNat_lt (l : List Byte) : leNat l < 256 ^ l.length := by
  induction l with
  | nil => decide
  | cons b l ih =>
    rw [leNat, List.length_cons, Nat.pow_succ]
    have hb := b.isLt
    omega

theorem graphId_lt (g : List Byte) : graphId g < 65536 := by
  have h := leNat_lt (bytesAt g 0x40 2)
  rwa [length_bytesAt] at h

/-! ### Fields of registers that are set -/

namespace State

section
variable (s : State) (w off : Nat)

theorem rf_setRf_self {hi lo : Nat} (x : Nat) (h : lo ≤ hi) (h' : hi < 32) : (s.setRf w off hi lo x).rf w off hi lo = x % 2 ^ (hi - lo + 1) := by
  rw [State.rf, State.setRf, State.reg_setReg_self, fld_putFld_self _ _ h h']

theorem rf_setRf_of_apart {hi lo hi' lo' : Nat} (x : Nat) (hl : lo ≤ hi) (h : hi' < lo ∨ hi < lo') (h' : lo' ≤ hi') :
    (s.setRf w off hi lo x).rf w off hi' lo' = s.rf w off hi' lo' := by
  rw [State.rf, State.setRf, State.reg_setReg_self, fld_putFld_of_apart _ _ hl h h', State.rf]

theorem rf_setRf_of_off_ne {o : Nat} (hi lo x hi' lo' : Nat) (h : o ≠ off) : (s.setRf w off hi lo x).rf w o hi' lo' = s.rf w o hi' lo' := by
  rw [State.rf, State.setRf, State.reg_setReg_of_off_ne _ _ _ h, State.rf]

/-- An event bit that sets is set. -/
theorem getLsbD_setEvent_self {b : Nat} (h : b < 32) : ((s.setEvent w off b).reg w off).getLsbD b = true := by
  rw [State.setEvent, State.reg_setReg_self]
  rw [BitVec.getLsbD_or, BitVec.getLsbD_ofNat, Nat.one_shiftLeft, Nat.testBit_two_pow_self, decide_eq_true h, Bool.and_self, Bool.or_true]

/-! ### The banks -/

theorem graphBank_setGraphBank_self (b : Bool) (g : List Byte) : (s.setGraphBank b g).graphBank b = g := by cases b <;> rfl

theorem graphBank_setGraphBank_other (b : Bool) (g : List Byte) : (s.setGraphBank b g).graphBank (!b) = s.graphBank (!b) := by cases b <;> rfl

theorem loadWaiting_setGraphBank (b : Bool) (g : List Byte) : (s.setGraphBank b g).tedder.loadWaiting = s.tedder.loadWaiting := by cases b <;> rfl

end

end State
end Sys2Proof.Machine

namespace Sys2Proof.Safety

open Sys2Proof.Machine

section
variable (s : State)

/-! ### GRAPH_SWITCH (R58, R545) -/

/-- A switch swaps the banks and their graph_ids; the standby bank is then full where the active one held a graph. -/
theorem graphSwitch_swaps (hfull : fld (s.reg tedderWin 0x200) 8 8 = 1) (hidle : fld (s.reg tedderWin 0x200) 9 9 = 0) :
    Leaves .graphSwitch s (fun u => u.rf tedderWin 0x200 9 9 = 1 ∧
      u.rf tedderWin 0x200 8 8 = bit (!(s.graphBank (decide (fld (s.reg tedderWin 0x200) 0 0 = 1))).isEmpty) ∧
      u.rf tedderWin 0x200 0 0 = 1 - fld (s.reg tedderWin 0x200) 0 0 ∧ u.rf tedderWin 0x204 31 16 = s.rf tedderWin 0x204 15 0 ∧
      u.rf tedderWin 0x204 15 0 = s.rf tedderWin 0x204 31 16 ∧ u.tedder = s.tedder) := by
  have hbit (b : Bool) : bit b % 2 ^ (8 - 8 + 1) = bit b := by cases b <;> rfl
  refine ⟨_, if_neg (by simp [hfull, hidle]), ?_, ?_, ?_, ?_, ?_, rfl⟩
  · rw [State.rf, State.reg_setReg_of_off_ne _ _ _ (by decide), State.reg_setReg_self, fld_putFld_of_apart _ _ (by decide) (by decide) (by decide),
      fld_putFld_of_apart _ _ (by decide) (by decide) (by decide), fld_putFld_self _ _ (by decide) (by decide)]
    rfl
  · rw [State.rf, State.reg_setReg_of_off_ne _ _ _ (by decide), State.reg_setReg_self, fld_putFld_of_apart _ _ (by decide) (by decide) (by decide),
      fld_putFld_self _ _ (by decide) (by decide), hbit]
  · rw [State.rf, State.reg_setReg_of_off_ne _ _ _ (by decide), State.reg_setReg_self, fld_putFld_self _ _ (by decide) (by decide)]
    omega
  · rw [State.rf, State.reg_setReg_self, fld_putFld_of_apart _ _ (by decide) (by decide) (by decide), fld_putFld_self _ _ (by decide) (by decide)]
    exact Nat.mod_eq_of_lt (fld_lt _ 15 0)
  · rw [State.rf, State.reg_setReg_self, fld_putFld_self _ _ (by decide) (by decide)]
    exact Nat.mod_eq_of_lt (fld_lt _ 31 16)

/-- A switch without a standby graph, or with a switch pending, is refused. -/
theorem graphSwitch_refused (h : fld (s.reg tedderWin 0x200) 8 8 = 0 ∨ fld (s.reg tedderWin 0x200) 9 9 = 1) :
    Leaves .graphSwitch s (fun u => u.rf tedderWin 0x200 10 10 = 1 ∧ u.rf tedderWin 0x200 0 0 = fld (s.reg tedderWin 0x200) 0 0 ∧
      u.reg tedderWin 0x204 = s.reg tedderWin 0x204 ∧ u.tedder = s.tedder) :=
  ⟨_, if_pos h, s.rf_setRf_self _ _ 1 (by decide) (by decide), s.rf_setRf_of_apart _ _ 1 (by decide) (by decide) (by decide),
    State.reg_setReg_of_off_ne _ _ _ (by decide), rfl⟩

/-! ### GRAPH_SWITCH_DONE and STANDBY_LOAD_DONE (R58) -/

theorem graphSwitchDone_ends (hpending : fld (s.reg tedderWin 0x200) 9 9 = 1) :
    Leaves .graphSwitchDone s (fun u => u.rf tedderWin 0x200 9 9 = 0 ∧ u.activeBank = decide (fld (s.reg tedderWin 0x200) 0 0 = 1) ∧
      (u.reg tedderWin 0x240).getLsbD 1 = true ∧ u.packets = s.packets) := by
  refine ⟨_, if_pos hpending, ?_, rfl, State.getLsbD_setEvent_self _ _ _ (by decide), rfl⟩
  rw [State.rf, State.setEvent, State.reg_setReg_of_off_ne _ _ _ (by decide)]
  exact State.rf_setRf_self _ _ _ 0 (by decide) (by decide)

theorem standbyLoadDone_loads {image : List Byte} (hload : s.tedder.loadWaiting = some image) (hidle : fld (s.reg tedderWin 0x200) 9 9 = 0) :
    Leaves .standbyLoadDone s (fun u =>
      u.graphBank (decide (fld (s.reg tedderWin 0x200) 0 0 = 0)) = image ∧
      u.graphBank (decide (fld (s.reg tedderWin 0x200) 0 0 ≠ 0)) = s.graphBank (decide (fld (s.reg tedderWin 0x200) 0 0 ≠ 0)) ∧
      u.tedder.loadWaiting = none ∧ u.rf tedderWin 0x200 8 8 = 1 ∧ u.rf tedderWin 0x204 15 0 = graphId image) := by
  have hidle' : ¬ s.rf tedderWin 0x200 9 9 = 1 := by rw [State.rf, hidle]; decide
  have hexec : execStandbyLoadDone s = .next ({ s with tedder := { s.tedder with loadWaiting := none } }.loadStandby image) := by
    simp only [execStandbyLoadDone, hload]
    exact if_neg hidle'
  refine ⟨_, hexec, State.graphBank_setGraphBank_self _ _ _, ?_, State.loadWaiting_setGraphBank _ _ _, ?_, ?_⟩
  · rw [decide_not]
    exact State.graphBank_setGraphBank_other _ _ _
  · rw [State.loadStandby, State.rf_setRf_of_off_ne _ _ _ _ _ _ _ _ (by decide)]
    exact State.rf_setRf_self _ _ _ 1 (by decide) (by decide)
  · rw [State.loadStandby, State.rf_setRf_self _ _ _ _ (by decide) (by decide)]
    exact Nat.mod_eq_of_lt (graphId_lt image)

end

/-! ### The statement -/

/-- Settles O30: each of Tedder's commands, by what it is shown to leave above. -/
theorem tedderParsesAndHandsOver : Obligations.TedderParsesAndHandsOver := by
  unfold Obligations.TedderParsesAndHandsOver
  intro s p k g ctx lane sel
  refine ⟨parseBegin_parses, fun w hpacket hparse hplace hcomplete holdest => ⟨?_, ?_, ?_⟩, fun t => fragPendingTimeout_unbinds,
    fun key e => fragAgeOut_erases, graphSwitch_swaps s, graphSwitch_refused s, graphSwitchDone_ends s, fun image => standbyLoadDone_loads s⟩
  · exact recordHandoff_malformed hpacket hparse hplace hcomplete holdest
  · exact recordHandoff_uncorrectable hpacket hparse hplace hcomplete holdest
  · exact recordHandoff_handed hpacket hparse hplace hcomplete holdest

end Sys2Proof.Safety
end

section
/-! What reads and writes of the memories and freed cells leave of the registers: in every window below Loft's, those from offset 0x200 up. -/

namespace Sys2Proof.Machine

/-- The registers from offset 0x200 up of every window below Loft's, 421: past UCB_EVENT_SUMMARY, where errors show, and past the counts of the
channels' waits; Loft's own registers and Mower's stand in higher windows. -/
def State.lowRegs (s : State) (x : Fin 421 × Fin 0xFE00) : Word32 := s.reg x.1 (0x200 + x.2)

@[simp] theorem le_loftWin : 421 ≤ loftWin := Nat.le_refl _

namespace State

section
variable (s : State)

/-! ### What the view takes in -/

theorem reg_of_lowRegs {s u : State} (h : u.lowRegs = s.lowRegs) {w off : Nat} (hw : w < 421) (hlow : 0x200 ≤ off) (hhigh : off < 0x10000) :
    u.reg w off = s.reg w off := by
  have hreg := congrFun h (⟨w, hw⟩, ⟨off - 0x200, by omega⟩)
  simp only [State.lowRegs] at hreg
  rwa [Nat.add_sub_cancel' hlow] at hreg

/-! ### Registers -/

section
variable {w off : Nat}

/-- A register of Loft's window or a higher one, or below offset 0x200. -/
@[simp] theorem lowRegs_setReg (v : Word32) (h : 421 ≤ w ∨ off < 0x200) : (s.setReg w off v).lowRegs = s.lowRegs := by
  funext ⟨x, o⟩
  refine SMap.get_set_of_ne _ _ _ ?_
  have hx := x.isLt
  have ho := o.isLt
  dsimp only
  omega

@[simp] theorem lowRegs_setRf (hi lo x : Nat) (h : 421 ≤ w ∨ off < 0x200) : (s.setRf w off hi lo x).lowRegs = s.lowRegs :=
  s.lowRegs_setReg _ h
@[simp] theorem lowRegs_setEvent (b : Nat) (h : 421 ≤ w ∨ off < 0x200) : (s.setEvent w off b).lowRegs = s.lowRegs := s.lowRegs_setReg _ h
@[simp] theorem lowRegs_countBy (n : Nat) (h : 421 ≤ w ∨ off < 0x200) : (s.countBy w off n).lowRegs = s.lowRegs := s.lowRegs_setReg _ h
@[simp] theorem lowRegs_count (h : 421 ≤ w ∨ off < 0x200) : (s.count w off).lowRegs = s.lowRegs := s.lowRegs_countBy 1 h

end

@[simp] theorem lowRegs_setSummary (w b : Nat) : (s.setSummary w b).lowRegs = s.lowRegs := s.lowRegs_setEvent b (.inr (by decide))

@[simp] theorem lowRegs_ite (c : Prop) [Decidable c] (u : State) : (if c then s else u).lowRegs = if c then s.lowRegs else u.lowRegs :=
  apply_ite State.lowRegs c s u

@[simp] theorem lowRegs_foldl {α : Type} {f : State → α → State} (h : ∀ s a, (f s a).lowRegs = s.lowRegs) (l : List α) (s : State) :
    (l.foldl f s).lowRegs = s.lowRegs := by
  induction l generalizing s with
  | nil => rfl
  | cons a l ih => exact (ih _).trans (h s a)

/-! ### Other parts -/

@[simp] theorem lowRegs_modMower (f : MowerSt → MowerSt) : (s.modMower f).lowRegs = s.lowRegs := rfl
@[simp] theorem lowRegs_modMem (f : MemSt → MemSt) : (s.modMem f).lowRegs = s.lowRegs := rfl
@[simp] theorem lowRegs_setInstLog (w inst : Nat) (l : InstLog) : (s.setInstLog w inst l).lowRegs = s.lowRegs := rfl
@[simp] theorem lowRegs_setStack (p : Nat) (k : PoolStack) : (s.setStack p k).lowRegs = s.lowRegs := rfl
@[simp] theorem lowRegs_setPoolUsed (t p n : Nat) : (s.setPoolUsed t p n).lowRegs = s.lowRegs := rfl
@[simp] theorem lowRegs_setLoftUsage (n q v : Nat) : (s.setLoftUsage n q v).lowRegs = s.lowRegs := rfl
@[simp] theorem lowRegs_setPort (n : Nat) (p : PortSt) : (s.setPort n p).lowRegs = s.lowRegs := rfl
@[simp] theorem lowRegs_xoffDue (n : Nat) (qs : List Nat) : (s.xoffDue n qs).lowRegs = s.lowRegs := rfl
@[simp] theorem lowRegs_setPacket (p : Nat) (k : Packet) : (s.setPacket p k).lowRegs = s.lowRegs := rfl

/-! ### Reads and writes of the memories (R402 to R413) -/

@[simp] theorem lowRegs_summarise (w inst addr : Nat) (ucor hard : Bool) : (s.summarise w inst addr ucor hard).lowRegs = s.lowRegs := by
  simp [State.summarise]

@[simp] theorem lowRegs_becomeHard (w inst addr : Nat) (ucor : Bool) : (s.becomeHard w inst addr ucor).lowRegs = s.lowRegs := by
  simp only [State.becomeHard]
  split <;> simp

@[simp] theorem lowRegs_logError (w inst addr : Nat) (ucor : Bool) (syndrome : Nat) :
    (s.logError w inst addr ucor syndrome).lowRegs = s.lowRegs := by
  simp only [State.logError]
  split
  · simp
  · split <;> simp

@[simp] theorem lowRegs_eccRead (w inst addr len : Nat) : (s.eccRead w inst addr len).2.lowRegs = s.lowRegs := by simp [State.eccRead]

@[simp] theorem lowRegs_overlayApply (w inst addr len : Nat) : (s.overlayApply w inst addr len).lowRegs = s.lowRegs := by
  simp [State.overlayApply]

@[simp] theorem lowRegs_eccWrite (w inst addr len : Nat) : (s.eccWrite w inst addr len).lowRegs = s.lowRegs := by simp [State.eccWrite]

@[simp] theorem lowRegs_putBytes (table : Bool) (a : Nat) (data : List Byte) : (s.putBytes table a data).lowRegs = s.lowRegs := by
  unfold State.putBytes
  split
  · apply lowRegs_foldl
    exact fun v _ => v.lowRegs_modMem _
  · exact s.lowRegs_modMem _

@[simp] theorem lowRegs_memWrite (table : Bool) (a : Nat) (data : List Byte) : (s.memWrite table a data).lowRegs = s.lowRegs := by
  simp [State.memWrite]

/-! ### Cells and their chains (R301, R312 to R315) -/

@[simp] theorem lowRegs_touchChannel (w : Nat) : (s.touchChannel w).lowRegs = s.lowRegs := by
  fun_cases State.touchChannel s w <;> simp

@[simp] theorem lowRegs_readMeta (ptr : Nat) : (s.readMeta ptr).2.lowRegs = s.lowRegs := by
  fun_cases State.readMeta s ptr <;> simp

@[simp] theorem lowRegs_followChain (handle : Nat) : (s.followChain handle).lowRegs = s.lowRegs :=
  lowRegs_foldl (fun s p => s.lowRegs_readMeta p) _ s

@[simp] theorem lowRegs_setCell (ptr : Nat) (c : CellMeta) : (s.setCell ptr c).lowRegs = s.lowRegs := by
  have hcells (l : LoftSt) : ({ s with loft := l } : State).lowRegs = s.lowRegs := rfl
  fun_cases State.setCell s ptr c <;> simp +zetaDelta [hcells]

@[simp] theorem lowRegs_noteXoff (n q : Nat) : (s.noteXoff n q).lowRegs = s.lowRegs := by simp [State.noteXoff]
@[simp] theorem lowRegs_sendControl (n : Nat) (frame : List Byte) : (s.sendControl n frame).lowRegs = s.lowRegs := by simp [State.sendControl]

@[simp] theorem lowRegs_pfcChange (n old : Nat) : (s.pfcChange n old).lowRegs = s.lowRegs := by
  fun_cases State.pfcChange s n old <;> simp +zetaDelta

@[simp] theorem lowRegs_updateXoff (n q : Nat) : (s.updateXoff n q).lowRegs = s.lowRegs := by simp [State.updateXoff]

@[simp] theorem lowRegs_freeCell (tenant ptr : Nat) : (s.freeCell tenant ptr).lowRegs = s.lowRegs := by
  simp only [State.freeCell]
  split <;> simp

@[simp] theorem lowRegs_freeChain (handle : Nat) : (s.freeChain handle).lowRegs = s.lowRegs := by
  fun_cases State.freeChain s handle <;> simp +zetaDelta

@[simp] theorem lowRegs_refuseFree (handle : Nat) : (s.refuseFree handle).lowRegs = s.lowRegs := by simp [State.refuseFree]
@[simp] theorem lowRegs_refDec (handle : Nat) : (s.refDec handle).lowRegs = s.lowRegs := by simp [State.refDec]

/-! ### Packets that are dropped (R312, R366) -/

@[simp] theorem lowRegs_endPacket (p : Nat) : (s.endPacket p).lowRegs = s.lowRegs := by
  have herase (v : State) : ({ v with packets := SMap.erase v.packets p } : State).lowRegs = v.lowRegs := rfl
  fun_cases State.endPacket s p <;> simp +zetaDelta [herase]

@[simp] theorem lowRegs_dropPacket (p tenant diag : Nat) : (s.dropPacket p tenant diag).lowRegs = s.lowRegs := by
  have hreport (ts : Word64) (n : Nat) : (s.reportDrop tenant ts diag n).lowRegs = s.lowRegs := rfl
  fun_cases State.dropPacket s p tenant diag <;> simp [hreport]

end
end State
end Sys2Proof.Machine
end

section
/-! Windrow's classification: fields of the metadata, the start of a packet, and a DIRECT stage (03, R79 to R87). -/

namespace Sys2Proof.Machine

open Sys2Proof.Safety

/-! ### Fields of the metadata (R80) -/

theorem testBit_mdBits (md : BitVec 512) (hi lo i : Nat) : (mdBits md hi lo).testBit i = (decide (i < hi - lo + 1) && md.getLsbD (lo + i)) := by
  simp [mdBits, bitsOf, Nat.testBit_mod_two_pow, BitVec.getLsbD]

theorem getLsbD_mdPut (md : BitVec 512) (hi lo v i : Nat) :
    (mdPut md hi lo v).getLsbD i = if lo ≤ i ∧ i - lo < hi - lo + 1 ∧ i < 512 then v.testBit (i - lo) else md.getLsbD i := by
  simp only [mdPut, BitVec.getLsbD_or, BitVec.getLsbD_and, BitVec.getLsbD_not, BitVec.getLsbD_ofNat, Nat.testBit_shiftLeft,
    Nat.testBit_two_pow_sub_one]
  by_cases h512 : i < 512
  · by_cases hlo : lo ≤ i <;> by_cases hhi : i - lo < hi - lo + 1 <;> simp [h512, hlo, hhi]
  · simp [h512, BitVec.getLsbD_of_ge _ _ (Nat.le_of_not_lt h512)]

/-- A field that the device sets is there, cut to its bits. -/
theorem mdBits_mdPut_self (md : BitVec 512) {hi lo : Nat} (v : Nat) (h : lo ≤ hi) (h' : hi < 512) :
    mdBits (mdPut md hi lo v) hi lo = v % 2 ^ (hi - lo + 1) := by
  refine Nat.eq_of_testBit_eq fun i => ?_
  rw [testBit_mdBits, getLsbD_mdPut, Nat.testBit_mod_two_pow]
  by_cases hi' : i < hi - lo + 1
  · simp [hi', show lo + i < 512 by omega]
  · simp [hi']

/-- A field that the device sets leaves every field beside it. -/
theorem mdBits_mdPut_of_apart (md : BitVec 512) {hi lo hi' lo' : Nat} (v : Nat) (hl : lo ≤ hi) (h : hi' < lo ∨ hi < lo') (h' : lo' ≤ hi') :
    mdBits (mdPut md hi lo v) hi' lo' = mdBits md hi' lo' := by
  refine Nat.eq_of_testBit_eq fun i => ?_
  rw [testBit_mdBits, testBit_mdBits, getLsbD_mdPut]
  by_cases hi : i < hi' - lo' + 1
  · rw [if_neg (by omega)]
  · simp [hi]

theorem mdTenant_eq_mdBits (md : BitVec 512) : mdTenant md = mdBits md 13 0 := by simp [mdTenant, mdBits, bitsOf]
theorem mdOd_eq_mdBits (md : BitVec 512) : mdOd md = mdBits md 31 16 := by simp [mdOd, mdBits, bitsOf]

/-! ### The metadata before stage 0 (R79, R81) -/

/-- Metadata of a tenant and an order domain. -/
theorem mdTenant_mdOd_ofNat {t od : Nat} (ht : t < 2 ^ 14) (hod : od < 2 ^ 16) :
    mdTenant (BitVec.ofNat 512 (t + od * 2 ^ 16)) = t ∧ mdOd (BitVec.ofNat 512 (t + od * 2 ^ 16)) = od := by
  rw [mdTenant_eq_mdBits, mdOd_eq_mdBits, mdBits, mdBits, BitVec.toNat_ofNat, Nat.mod_eq_of_lt (by omega)]
  simp only [bitsOf, Nat.shiftRight_eq_div_pow]
  omega

/-- The metadata with its exception decision set, under a code. -/
def excepted (md : BitVec 512) (c : Nat) : BitVec 512 := mdPut (mdPut md 94 94 1) 103 96 c

section
variable (md : BitVec 512) (c : Nat)

theorem mdTenant_excepted : mdTenant (excepted md c) = mdTenant md := by
  rw [mdTenant_eq_mdBits, excepted, mdBits_mdPut_of_apart _ _ (by decide) (by decide) (by decide),
    mdBits_mdPut_of_apart _ _ (by decide) (by decide) (by decide), mdTenant_eq_mdBits]

theorem mdOd_excepted : mdOd (excepted md c) = mdOd md := by
  rw [mdOd_eq_mdBits, excepted, mdBits_mdPut_of_apart _ _ (by decide) (by decide) (by decide),
    mdBits_mdPut_of_apart _ _ (by decide) (by decide) (by decide), mdOd_eq_mdBits]

theorem exception_excepted : mdBits (excepted md c) 94 94 = 1 := by
  rw [excepted, mdBits_mdPut_of_apart _ _ (by decide) (by decide) (by decide)]
  exact mdBits_mdPut_self md 1 (by decide) (by decide)

theorem excCode_excepted : mdBits (excepted md c) 103 96 = c % 256 := mdBits_mdPut_self _ _ (by decide) (by decide)

end

namespace State

section
variable (s : State) (k : Packet) (profile : Nat)

/-- The tenant and the order domain that a port gives its packets. -/
def portMd (s : State) (k : Packet) : BitVec 512 := BitVec.ofNat 512 (s.defaultTenant k.port + s.rf windrowWin (0x300 + 4 * k.port) 15 0 * 2 ^ 16)

theorem initialMd_of_exc {c : Nat} (h : k.exc = some c) : s.initialMd k profile = excepted (s.portMd k) c := by
  simp only [State.initialMd, h]
  rfl

/-- The metadata starts as the port's, with an exception decided on it or not. -/
theorem initialMd_cases : s.initialMd k profile = s.portMd k ∨ ∃ c, s.initialMd k profile = excepted (s.portMd k) c := by
  cases h : k.exc with
  | some c => exact .inr ⟨c, s.initialMd_of_exc k profile h⟩
  | none =>
    simp only [State.initialMd, h]
    split
    · exact .inr ⟨0x42, rfl⟩
    · exact .inl rfl

theorem mdTenant_mdOd_portMd : mdTenant (s.portMd k) = s.defaultTenant k.port ∧ mdOd (s.portMd k) = s.rf windrowWin (0x300 + 4 * k.port) 15 0 :=
  mdTenant_mdOd_ofNat (fld_lt _ _ _) (fld_lt _ _ _)

theorem mdTenant_initialMd : mdTenant (s.initialMd k profile) = s.defaultTenant k.port := by
  rcases s.initialMd_cases k profile with h | ⟨c, h⟩
  · rw [h, (s.mdTenant_mdOd_portMd k).1]
  · rw [h, mdTenant_excepted, (s.mdTenant_mdOd_portMd k).1]

theorem mdOd_initialMd : mdOd (s.initialMd k profile) = s.rf windrowWin (0x300 + 4 * k.port) 15 0 := by
  rcases s.initialMd_cases k profile with h | ⟨c, h⟩
  · rw [h, (s.mdTenant_mdOd_portMd k).2]
  · rw [h, mdOd_excepted, (s.mdTenant_mdOd_portMd k).2]

end

/-! ### A packet's next stage (R86) -/

section
variable (s : State) (p : Packet)

/-- Starting a stage, or passing over some, leaves a packet's profile, metadata and bytes. -/
theorem startStage_keeps (fuel i : Nat) :
    (s.startStage p fuel i).profile = p.profile ∧ (s.startStage p fuel i).md = p.md ∧ (s.startStage p fuel i).bytes = p.bytes := by
  induction fuel generalizing i with
  | zero => exact ⟨rfl, rfl, rfl⟩
  | succ fuel ih =>
    unfold State.startStage
    split
    · exact ⟨rfl, rfl, rfl⟩
    · dsimp only
      split
      · exact ih (i + 1)
      · exact ⟨rfl, rfl, rfl⟩

/-- The packet that stands at stage i, or the next one that runs. -/
def begunPacket (s : State) (pid : Nat) (p : Packet) (i : Nat) : Packet :=
  (s.setPacket pid { p with engine := none }).startStage { p with engine := none } 13 i

theorem begunPacket_keeps (pid i : Nat) :
    (s.begunPacket pid p i).profile = p.profile ∧ (s.begunPacket pid p i).md = p.md ∧ (s.begunPacket pid p i).bytes = p.bytes :=
  startStage_keeps _ _ 13 i

/-- Past the last stage the profile has ended. -/
theorem begunPacket_of_count_le (pid : Nat) {i : Nat} (h : s.stageCount p.profile ≤ i) :
    s.begunPacket pid p i = { p with engine := none, profileDone := true, place := .laneOut } := if_pos h

theorem packet_beginStage_self (pid i : Nat) : (s.beginStage pid p i).packet pid = some (s.begunPacket pid p i) := packet_setPacket_self _ _ _

theorem packet_beginStage_of_ne {pid x : Nat} (i : Nat) (h : x ≠ pid) : (s.beginStage pid p i).packet x = s.packet x :=
  (packet_setPacket_of_ne _ _ h).trans (packet_setPacket_of_ne _ _ h)

end

/-! ### The lookup of a DIRECT stage and its end (R84, R86, R87) -/

section
variable (s : State)

/-- A read that meets an uncorrectable codeword finds it. -/
theorem eccRead_fatal {w inst a n : Nat} (h : ∃ e ∈ s.errsIn w inst a n, e.shows = true ∧ s.errFatal e = true) :
    (s.eccRead w inst a n).1 = true := by
  obtain ⟨e, hmem, hshows, hfatal⟩ := h
  exact List.any_eq_true.2 ⟨e, List.mem_filter.2 ⟨hmem, hshows⟩, hfatal⟩

theorem eccRead_of_errsIn_nil {w inst a n : Nat} (h : s.errsIn w inst a n = []) : s.eccRead w inst a n = (false, s) :=
  s.eccRead_clean w inst a n (by rw [h]; rfl)

/-- The entry of the direct store that a table reads for a value. -/
def directIndex (s : State) (t v : Nat) : Nat := s.rf windrowWin (0x600 + 4 * t) 19 0 + v % 2 ^ s.rf windrowWin (0x600 + 4 * t) 28 24

/-- The entry that a packet's DIRECT stage reads. -/
def stageIndex (s : State) (k : Packet) : Nat := s.directIndex (slotBits k.stageSlot 0 28 24) (keyNumber k.stageKey 3)

theorem directLookup_clean {t v : Nat} (h : s.errsIn windrowWin 0 (16 * s.directIndex t v) 16 = []) :
    s.directLookup t v = (.hit (s.directEntry (s.directIndex t v)), s) := by
  have hread := s.eccRead_of_errsIn_nil h
  simp only [State.directIndex, State.rf] at hread
  simp only [State.directLookup, hread]
  rfl

theorem directLookup_fatal {t v : Nat}
    (h : ∃ e ∈ s.errsIn windrowWin 0 (16 * s.directIndex t v) 16, e.shows = true ∧ s.errFatal e = true) :
    s.directLookup t v = (.bad, (s.eccRead windrowWin 0 (16 * s.directIndex t v) 16).2) := if_pos (s.eccRead_fatal h)

/-- What a stage that hits with an action word that ends the profile leaves of the packet. -/
def stopped (k : Packet) (act : Word128) : Packet :=
  let m := mdPut (mdPut k.md (116 + k.stage) (116 + k.stage) 1) 115 112 (mdBits k.md 115 112 + 1)
  { k with learnWait := none, badAct := k.badAct || badAction act, md := applyAction m act, profileDone := true, place := .laneOut }

/-- A stage that hits with a usable action word that ends the profile counts the hit, and the packet goes to the lane's output. -/
theorem finishStage_of_stop (pid : Nat) (k : Packet) {act miss : Word128} (husable : usableAction act = true) (hstop : actBits act 62 61 = 1) :
    s.finishStage pid k (some act) miss = (s.count windrowWin (0x1800 + 4 * (12 * k.profile + k.stage))).setPacket pid (stopped k act) := by
  have hgood : badAction act = false := by
    simp only [usableAction, Bool.and_eq_true, Bool.not_eq_true'] at husable
    exact husable.2
  simp [State.finishStage, stopped, State.meetBadAction, husable, hgood, hstop]

theorem windrowLane_leaveLane (pid : Nat) (p : Packet) :
    (s.leaveLane pid p).windrowLane (laneOf p.port) = (s.windrowLane (laneOf p.port)).erase pid := SMap.get_set_self _ _ _ _

end
end State

/-! ### What the commands come to -/

/-- The parse context of a packet, 0 where it has no parse. -/
def Packet.parseCtx (k : Packet) : Nat :=
  match k.parse with
  | some w => w.ctx
  | none => 0

theorem Packet.parseCtx_of_some {k : Packet} {w : Walk} (h : k.parse = some w) : k.parseCtx = w.ctx := by rw [Packet.parseCtx, h]

/-- A packet with the profile and the metadata that its classification starts with. -/
def State.initialised (s : State) (k : Packet) (profile : Nat) : Packet := { k with profile := profile, md := s.initialMd k profile }

section
variable {s : State} {p : Pid} {k : Packet}

theorem execClassifyBegin_of_handed (hpacket : s.packet p = some k) (hplace : k.place = .handed) (hwindrow : s.serving windrowWin = true)
    (hlane : s.serving (407 + laneOf k.port) = true) :
    execClassifyBegin p s = .next (s.beginStage p (s.initialised k (s.rf windrowWin (0x100 + 4 * k.parseCtx) 5 0)) 0) := by
  have hruns : ¬ (k.place ≠ .handed ∨ (!s.serving windrowWin) = true ∨ (!s.serving (407 + laneOf k.port)) = true) := by
    simp [hplace, hwindrow, hlane]
  simp only [execClassifyBegin, hpacket, if_neg hruns]
  rfl

/-- A DIRECT stage looks in its direct table, for the number its key makes. -/
theorem State.stageLookup_of_direct (s : State) (pid : Nat) (hkind : slotBits k.stageSlot 0 2 0 = 1) :
    s.stageLookup pid k = s.directLookup (slotBits k.stageSlot 0 28 24) (keyNumber k.stageKey 3) := by
  simp only [State.stageLookup, hkind]

section
variable (hpacket : s.packet p = some k) (hplace : k.place = .classifying) (hserves : s.serving (407 + laneOf k.port) = true)
  (hlearn : k.learnWait = none)
include hpacket hplace hserves hlearn

theorem execStageResult_of_hit {act : Word128} {v : State} (hlook : s.stageLookup p k = (.hit act, v)) :
    execStageResult p s = .next (v.finishStage p k (some act) (missAction k.stageSlot)) := by
  have hruns : ¬ (k.place ≠ .classifying ∨ (!s.serving (407 + laneOf k.port)) = true) := by simp [hplace, hserves]
  simp only [execStageResult, hpacket, if_neg hruns, hlearn, hlook]

theorem execStageResult_of_bad {v : State} (hlook : s.stageLookup p k = (.bad, v)) : execStageResult p s = .next (v.dropInLane p k 59) := by
  have hruns : ¬ (k.place ≠ .classifying ∨ (!s.serving (407 + laneOf k.port)) = true) := by simp [hplace, hserves]
  simp only [execStageResult, hpacket, if_neg hruns, hlearn, hlook]

end
end
end Sys2Proof.Machine

namespace Sys2Proof.Safety

open Sys2Proof.Machine

section
variable {s : State} {p : Pid} {k : Packet}

/-! ### CLASSIFY_BEGIN (R79, R81, R86) -/

theorem classifyBegin_starts {w : Walk} (hpacket : s.packet p = some k) (hparse : k.parse = some w) (hplace : k.place = .handed)
    (hwindrow : s.serving windrowWin = true) (hlane : s.serving (407 + laneOf k.port) = true) :
    Leaves (.classifyBegin p) s (fun u => ∃ q, u.packet p = some q ∧ q.profile = s.rf windrowWin (0x100 + 4 * w.ctx) 5 0 ∧
      mdTenant q.md = s.defaultTenant k.port ∧ mdOd q.md = s.rf windrowWin (0x300 + 4 * k.port) 15 0 ∧ q.bytes = k.bytes ∧
      (∀ c, k.exc = some c → c < 256 → mdBits q.md 94 94 = 1 ∧ mdBits q.md 103 96 = c) ∧
      (s.stageCount q.profile = 0 → q.profileDone = true ∧ q.place = .laneOut) ∧ OtherPackets s u p ∧ u.regs = s.regs) := by
  have hexec := execClassifyBegin_of_handed hpacket hplace hwindrow hlane
  rw [Packet.parseCtx_of_some hparse] at hexec
  generalize s.rf windrowWin (0x100 + 4 * w.ctx) 5 0 = profile at hexec ⊢
  obtain ⟨hprofile, hmd, hbytes⟩ := s.begunPacket_keeps (s.initialised k profile) p 0
  refine ⟨_, hexec, s.begunPacket p (s.initialised k profile) 0, s.packet_beginStage_self _ p 0, hprofile, ?_, ?_, hbytes, fun c hexc hc => ?_,
    fun hcount => ?_, fun x hx => s.packet_beginStage_of_ne _ 0 hx, rfl⟩
  · rw [hmd]
    exact s.mdTenant_initialMd k profile
  · rw [hmd]
    exact s.mdOd_initialMd k profile
  · rw [hmd, State.initialised, s.initialMd_of_exc k profile hexc]
    exact ⟨exception_excepted _ c, (excCode_excepted _ c).trans (Nat.mod_eq_of_lt hc)⟩
  · rw [hprofile] at hcount
    rw [s.begunPacket_of_count_le _ p (Nat.le_of_eq hcount)]
    exact ⟨rfl, rfl⟩

/-! ### STAGE_RESULT of a DIRECT stage (R84, R86, R87) -/

section
variable (hpacket : s.packet p = some k) (hplace : k.place = .classifying) (hserves : s.serving (407 + laneOf k.port) = true)
  (hlearn : k.learnWait = none) (hkind : slotBits k.stageSlot 0 2 0 = 1)
include hpacket hplace hserves hlearn hkind

theorem stageResult_direct_stops
    (hclean : s.errsIn windrowWin 0 (16 * s.stageIndex k) 16 = []) (husable : usableAction (s.directEntry (s.stageIndex k)) = true)
    (hstop : actBits (s.directEntry (s.stageIndex k)) 62 61 = 1) :
    Leaves (.stageResult p) s (fun u => (∃ q, u.packet p = some q ∧ q.profileDone = true ∧ q.place = .laneOut ∧ q.bytes = k.bytes ∧
        q.md = applyAction (mdPut (mdPut k.md (116 + k.stage) (116 + k.stage) 1) 115 112 (mdBits k.md 115 112 + 1))
          (s.directEntry (s.stageIndex k))) ∧
      Counted s u windrowWin (0x1800 + 4 * (12 * k.profile + k.stage)) ∧ OtherPackets s u p) := by
  have hhit := execStageResult_of_hit hpacket hplace hserves hlearn ((s.stageLookup_of_direct p hkind).trans (s.directLookup_clean hclean))
  have hexec := hhit.trans (congrArg Host.Outcome.next (s.finishStage_of_stop p k husable hstop))
  exact ⟨_, hexec, ⟨_, State.packet_setPacket_self _ _ _, rfl, rfl, rfl, rfl⟩, s.toNat_reg_countBy windrowWin _ 1,
    fun x hx => State.packet_setPacket_of_ne _ _ hx⟩

theorem stageResult_direct_uncorrectable
    (hbad : ∃ e ∈ s.errsIn windrowWin 0 (16 * s.stageIndex k) 16, e.shows = true ∧ s.errFatal e = true) :
    Leaves (.stageResult p) s (fun u => u.reports = s.reports ++ [dropReport (mdTenant k.md) k.ts 59 k.bytes.length] ∧
      u.windrowLane (laneOf k.port) = (s.windrowLane (laneOf k.port)).erase p ∧ ∀ q, u.packet p = some q → q.place = .gone) := by
  let read := (s.eccRead windrowWin 0 (16 * s.stageIndex k) 16).2
  have hread : read.beyondCells = s.beyondCells := s.beyondCells_eccRead _ _ _ _
  have hexec : execStageResult p s = .next (read.dropInLane p k 59) :=
    execStageResult_of_bad hpacket hplace hserves hlearn ((s.stageLookup_of_direct p hkind).trans (s.directLookup_fatal hbad))
  have hleft : (read.leaveLane p k).packet p = some k := (State.packet_of_beyondCells hread p).trans hpacket
  obtain ⟨hreports, hgone, hwindrow⟩ := (read.leaveLane p k).dropPacket_reports_gone hleft (mdTenant k.md) 59
  refine ⟨_, hexec, hreports.trans (congrArg (· ++ _) (State.reports_of_beyondCells (u := read) hread)), ?_, hgone⟩
  calc (read.dropInLane p k 59).windrowLane (laneOf k.port)
      = (read.leaveLane p k).windrowLane (laneOf k.port) := State.windrowLane_of_windrow hwindrow _
    _ = (read.windrowLane (laneOf k.port)).erase p := read.windrowLane_leaveLane p k
    _ = (s.windrowLane (laneOf k.port)).erase p := by rw [State.windrowLane_of_windrow (State.windrow_of_beyondCells hread)]

end
end

/-! ### The statement on classification -/

/-- Settles O31: the start of a packet, and the two ends of a DIRECT stage, by what each is shown to leave above. -/
theorem windrowClassifies : Obligations.WindrowClassifies := by
  unfold Obligations.WindrowClassifies
  intro s p k hpacket
  refine ⟨fun w hparse hplace hwindrow hlane => classifyBegin_starts hpacket hparse hplace hwindrow hlane, ?_⟩
  intro t i act hplace hserves hlearn hkind
  exact ⟨stageResult_direct_stops hpacket hplace hserves hlearn hkind, stageResult_direct_uncorrectable hpacket hplace hserves hlearn hkind⟩

end Sys2Proof.Safety
end

section
/-! Windrow's lane output: what a packet leaves that goes on to Kettle, and one that is dropped (03, R88, R91, R95). -/

namespace Sys2Proof.Machine

open Sys2Proof.Safety

namespace State

section
variable (s : State)

/-! ### The counters of the lane output (R95) -/

/-- The state without its registers. -/
def exceptRegs (s : State) : State := { s with regs := [] }

theorem beyondCells_of_exceptRegs {s u : State} (h : u.exceptRegs = s.exceptRegs) : u.beyondCells = s.beyondCells :=
  show u.exceptRegs.beyondCells = s.exceptRegs.beyondCells from congrArg beyondCells h

theorem cell_of_exceptRegs {s u : State} (h : u.exceptRegs = s.exceptRegs) (c : Nat) : u.cell c = s.cell c :=
  show u.exceptRegs.cell c = s.exceptRegs.cell c from congrArg (cell · c) h

theorem kettle_of_beyondCells {s u : State} (h : u.beyondCells = s.beyondCells) : u.kettle = s.kettle :=
  show u.beyondCells.kettle = s.beyondCells.kettle from congrArg State.kettle h

theorem exceptRegs_countIf (c : Prop) [Decidable c] (w off : Nat) : (if c then s.count w off else s).exceptRegs = s.exceptRegs := by
  split <;> rfl

theorem exceptRegs_countOutput (p : Packet) (fate : Fate) (mirror off : Bool) : (s.countOutput p fate mirror off).exceptRegs = s.exceptRegs := by
  simp only [State.countOutput, exceptRegs_countIf]

theorem beyondCells_countOutput (p : Packet) (fate : Fate) (mirror off : Bool) : (s.countOutput p fate mirror off).beyondCells = s.beyondCells :=
  beyondCells_of_exceptRegs (s.exceptRegs_countOutput p fate mirror off)

theorem cell_countOutput (p : Packet) (fate : Fate) (mirror off : Bool) (h : Nat) : (s.countOutput p fate mirror off).cell h = s.cell h :=
  cell_of_exceptRegs (s.exceptRegs_countOutput p fate mirror off) h

theorem reg_countIf_of_ne (c : Prop) [Decidable c] (w : Nat) {off o : Nat} (h : o ≠ off) :
    (if c then s.count w off else s).reg w o = s.reg w o := by
  split
  · exact s.reg_count_of_off_ne w h
  · rfl

/-- Every packet at the output is counted (log 52). -/
theorem counted_countOutput (p : Packet) (fate : Fate) (mirror off : Bool) : Counted s (s.countOutput p fate mirror off) windrowWin 0x700 := by
  have hreg : (s.countOutput p fate mirror off).reg windrowWin 0x700 = (s.count windrowWin 0x700).reg windrowWin 0x700 := by
    simp [State.countOutput, reg_countIf_of_ne]
  rw [Counted, hreg]
  exact s.toNat_reg_countBy windrowWin 0x700 1

/-- A packet that is dropped by decision is counted so. -/
theorem counted_countOutput_decided (p : Packet) (mirror off : Bool) : Counted s (s.countOutput p .decided mirror off) windrowWin 0x704 := by
  have hreg : (s.countOutput p .decided mirror off).reg windrowWin 0x704 =
      ((s.count windrowWin 0x700).count windrowWin 0x704).reg windrowWin 0x704 := by
    simp [State.countOutput, reg_countIf_of_ne]
  rw [Counted, hreg, ← s.reg_count_of_off_ne windrowWin (show 0x704 ≠ 0x700 by decide)]
  exact (s.count windrowWin 0x700).toNat_reg_countBy windrowWin 0x704 1

/-! ### A packet without a mirror copy (R88) -/

/-- The state once a packet has left its lane and is counted. -/
def leftLane (s : State) (pid : Nat) (p : Packet) (fate : Fate) : State := ((s.setPacket pid p).leaveLane pid p).countOutput p fate false false

section
variable (pid : Nat) (p : Packet) (fate : Fate)

theorem beyondCells_leftLane : (s.leftLane pid p fate).beyondCells = ((s.setPacket pid p).leaveLane pid p).beyondCells := beyondCells_countOutput ..

theorem windrowLane_leftLane : (s.leftLane pid p fate).windrowLane (laneOf p.port) = (s.windrowLane (laneOf p.port)).erase pid :=
  (windrowLane_of_windrow (windrow_of_beyondCells (s.beyondCells_leftLane pid p fate)) _).trans ((s.setPacket pid p).windrowLane_leaveLane pid p)

theorem reports_leftLane : (s.leftLane pid p fate).reports = s.reports := (reports_of_beyondCells (s.beyondCells_leftLane pid p fate)).trans rfl

theorem kettle_leftLane : (s.leftLane pid p fate).kettle = s.kettle := (kettle_of_beyondCells (s.beyondCells_leftLane pid p fate)).trans rfl

theorem packet_leftLane_self : (s.leftLane pid p fate).packet pid = some p :=
  (packet_of_beyondCells (s.beyondCells_leftLane pid p fate) pid).trans (s.packet_setPacket_self pid p)

theorem packet_leftLane_of_ne {x : Nat} (h : x ≠ pid) : (s.leftLane pid p fate).packet x = s.packet x :=
  (packet_of_beyondCells (s.beyondCells_leftLane pid p fate) x).trans (s.packet_setPacket_of_ne p h)

end

/-- The cells of a packet stay where they are charged to its record's tenant already. -/
theorem moveCells_of_tenant (pid : Nat) {p : Packet} (h : ∀ c, p.handle = some c → (s.cell c).tenant = mdTenant p.md) :
    s.moveCells pid p = (none, s) := by
  unfold State.moveCells
  cases hc : p.handle with
  | none => rfl
  | some c => exact if_pos (h c hc).symm

section
variable (lane pid : Nat) {p : Packet} (hmirror : mdBits p.md 95 95 = 0)
include hmirror

theorem mirrorCopy_of_none : s.mirrorCopy pid p = (none, s) := if_pos (.inl hmirror)

theorem mirrorOff_of_none : s.mirrorOff p = false := by simp [State.mirrorOff, hmirror]

/-- A packet that no decision stops goes to its Kettle lane. -/
theorem laneFinish_goes (hdrop : mdBits p.md 93 93 = 0) (hexc : mdBits p.md 94 94 = 0)
    (htenant : ∀ c, p.handle = some c → (s.cell c).tenant = mdTenant p.md) :
    s.laneFinish lane pid p = ((s.leftLane pid p .goes).setPacket pid { p with place := .kettle }).modKettle (fun k =>
      { k with intake := SMap.put k.intake lane ⟨pid, true, none, none, false⟩ }) := by
  have hstay : (s.leftLane pid p .goes).moveCells pid p = (none, s.leftLane pid p .goes) :=
    moveCells_of_tenant _ pid fun c hc => (congrArg CellMeta.tenant (cell_countOutput _ _ _ _ _ c)).trans (htenant c hc)
  simp only [State.leftLane] at hstay ⊢
  simp [State.laneFinish, State.outputFate, mirrorCopy_of_none _ pid hmirror, s.mirrorOff_of_none hmirror, hdrop, hexc, Fate.reason, Fate.queue,
    hstay]

/-- A packet whose record says so is dropped. -/
theorem laneFinish_decided (hdrop : mdBits p.md 93 93 = 1) :
    s.laneFinish lane pid p = (s.leftLane pid p .decided).dropPacket pid (mdTenant p.md) 40 := by
  simp [State.laneFinish, State.leftLane, State.outputFate, mirrorCopy_of_none _ pid hmirror, s.mirrorOff_of_none hmirror, hdrop, Fate.reason]

end
end

/-- A packet that ends leaves Kettle as it was. -/
theorem kettle_dropPacket (s : State) (pid tenant diag : Nat) : (s.dropPacket pid tenant diag).kettle = s.kettle := by
  unfold State.dropPacket
  cases hp : s.packet pid with
  | none => rfl
  | some p =>
    rcases beyondCells_endPacket (s.reportDrop tenant p.ts diag p.bytes.length) hp with h | h <;>
      exact (kettle_of_beyondCells h).trans rfl

end State

theorem execWindrowLaneOutput_of_first {s : State} {n : Lane} {p : Nat} {rest : List Nat} {k : Packet} (hfirst : s.windrowLane n = p :: rest)
    (hpacket : s.packet p = some k) (hplace : k.place = .laneOut) (hserves : s.serving (407 + n) = true) (hopen : s.intakeOpen n = true)
    (hfrag : k.fragBind = .notLooked) : execWindrowLaneOutput n s = .next (s.laneFinish n p k) := by
  have hruns : ¬ (k.place ≠ .laneOut ∨ (!s.serving (407 + n.val)) = true ∨ (!s.intakeOpen n.val) = true) := by simp [hplace, hserves, hopen]
  simp only [execWindrowLaneOutput, hfirst, hpacket, if_neg hruns, State.fragOutput, hfrag]

end Sys2Proof.Machine

namespace Sys2Proof.Safety

open Sys2Proof.Machine

/-! ### WINDROW_LANE_OUTPUT (R88, R91, R95) -/

section
variable {s : State} {n : Lane} {p : Nat} {rest : List Nat} {k : Packet} (hfirst : s.windrowLane n = p :: rest)
  (hpacket : s.packet p = some k) (hplace : k.place = .laneOut) (hlane : laneOf k.port = n) (hserves : s.serving (407 + n) = true)
  (hopen : s.intakeOpen n = true) (hfrag : k.fragBind = .notLooked) (hmirror : mdBits k.md 95 95 = 0)
include hfirst hpacket hplace hlane hserves hopen hfrag hmirror

theorem windrowLaneOutput_goes (hdrop : mdBits k.md 93 93 = 0) (hexc : mdBits k.md 94 94 = 0)
    (htenant : ∀ h, k.handle = some h → (s.cell h).tenant = mdTenant k.md) :
    Leaves (.windrowLaneOutput n) s (fun u => SMap.find u.kettle.intake n = some ⟨p, true, none, none, false⟩ ∧
      u.packet p = some { k with place := .kettle } ∧ u.windrowLane n = rest ∧ Counted s u windrowWin 0x700 ∧ u.reports = s.reports ∧
      OtherPackets s u p) := by
  have hexec := execWindrowLaneOutput_of_first hfirst hpacket hplace hserves hopen hfrag
  rw [s.laneFinish_goes n p hmirror hdrop hexc htenant] at hexec
  have hrest : (s.leftLane p k .goes).windrowLane n = rest := by
    rw [← hlane, s.windrowLane_leftLane, hlane, hfirst, List.erase_cons_head]
  exact ⟨_, hexec, SMap.find_put_self _ _ _, State.packet_setPacket_self _ _ _, hrest, State.counted_countOutput _ _ _ _ _,
    s.reports_leftLane p k .goes, fun x hx => (State.packet_setPacket_of_ne _ _ hx).trans (s.packet_leftLane_of_ne p k .goes hx)⟩

theorem windrowLaneOutput_decided (hdrop : mdBits k.md 93 93 = 1) :
    Leaves (.windrowLaneOutput n) s (fun u => u.reports = s.reports ++ [dropReport (mdTenant k.md) k.ts 40 k.bytes.length] ∧
      u.windrowLane n = rest ∧ SMap.find u.kettle.intake n = none ∧ Counted s u windrowWin 0x704 ∧
      ∀ q, u.packet p = some q → q.place = .gone) := by
  have hexec := execWindrowLaneOutput_of_first hfirst hpacket hplace hserves hopen hfrag
  rw [s.laneFinish_decided n p hmirror hdrop] at hexec
  let left := s.leftLane p k .decided
  obtain ⟨hreports, hgone, hwindrow⟩ := left.dropPacket_reports_gone (s.packet_leftLane_self p k .decided) (mdTenant k.md) 40
  have hslot : SMap.find s.kettle.intake n = none := by
    simp only [State.intakeOpen, Bool.and_eq_true, Option.isNone_iff_eq_none] at hopen
    exact hopen.2
  refine ⟨_, hexec, hreports.trans (congrArg (· ++ _) (s.reports_leftLane p k .decided)), ?_, ?_, ?_, hgone⟩
  · rw [State.windrowLane_of_windrow hwindrow, ← hlane, s.windrowLane_leftLane, hlane, hfirst, List.erase_cons_head]
  · rw [left.kettle_dropPacket, s.kettle_leftLane, hslot]
  · rw [Counted, State.reg_of_lowRegs (left.lowRegs_dropPacket p (mdTenant k.md) 40) (by decide) (by decide) (by decide)]
    exact State.counted_countOutput_decided _ _ _ _

end
end Sys2Proof.Safety
end

section
/-! Windrow's exception buckets: the refill visits every tenant's bucket once (03, R89). -/

namespace Sys2Proof.Machine

open Sys2Proof.Safety

/-! ### Tables whose entries are computed anew -/

theorem SMap.find_eq_none {α : Type} {m : SMap α} {k : Nat} (h : ∀ e ∈ m, e.1 ≠ k) : SMap.find m k = none := by
  induction m with
  | nil => rfl
  | cons e m ih =>
    rw [SMap.find, if_neg (h e List.mem_cons_self).symm]
    exact ih fun x hx => h x (List.mem_cons_of_mem e hx)

/-- In a table that lists each number once, what is listed is found. -/
theorem SMap.find_of_mem {α : Type} {m : SMap α} (hm : (m.map Prod.fst).Nodup) {k : Nat} {v : α} (h : (k, v) ∈ m) :
    SMap.find m k = some v := by
  induction m with
  | nil => exact absurd h List.not_mem_nil
  | cons e m ih =>
    obtain ⟨hfresh, hm⟩ := List.nodup_cons.1 hm
    rcases List.mem_cons.1 h with rfl | h
    · exact if_pos rfl
    · have hne : k ≠ e.1 := fun he => hfresh (List.mem_map.2 ⟨_, h, he⟩)
      rw [SMap.find, if_neg hne, ih hm h]

/-- A value as a table lists it whose unlisted numbers hold `d`. -/
def listedValue (d t v : Nat) : Option (Nat × Nat) := if v = d then none else some (t, v)

theorem fst_of_listedValue {d t v : Nat} {e : Nat × Nat} (h : listedValue d t v = some e) : e.1 = t := by
  unfold listedValue at h
  split at h
  · exact absurd h (by simp)
  · exact congrArg Prod.fst (Option.some.inj h).symm

/-- A table that lists each number once, its values computed anew, holds the new value at each number listed and `d` at every other. -/
theorem SMap.get_filterMap_listedValue (d : Nat) (f : Nat → Nat → Nat) {m : SMap Nat} (hm : (m.map Prod.fst).Nodup) (t : Nat) :
    SMap.get (fun _ => d) (m.filterMap (fun e => listedValue d e.1 (f e.1 e.2))) t = ((SMap.find m t).map (f t)).getD d := by
  induction m with
  | nil => rfl
  | cons e m ih =>
    obtain ⟨k, v⟩ := e
    obtain ⟨hfresh, hm⟩ := List.nodup_cons.1 hm
    have hih := ih hm
    rw [SMap.get] at hih ⊢
    by_cases hd : f k v = d
    · have hhead : listedValue d k (f k v) = none := if_pos hd
      rw [List.filterMap_cons_none (f := fun e : Nat × Nat => listedValue d e.1 (f e.1 e.2)) hhead, SMap.find]
      by_cases hk : t = k
      · subst hk
        have hnone : SMap.find (m.filterMap fun e => listedValue d e.1 (f e.1 e.2)) t = none := SMap.find_eq_none fun x hx hxt => by
          obtain ⟨y, hy, hyx⟩ := List.mem_filterMap.1 hx
          exact hfresh (List.mem_map.2 ⟨y, hy, (fst_of_listedValue hyx).symm.trans hxt⟩)
        rw [hnone, if_pos rfl]
        exact hd.symm
      · rw [if_neg hk, hih]
    · have hhead : listedValue d k (f k v) = some (k, f k v) := if_neg hd
      rw [List.filterMap_cons_some (f := fun e : Nat × Nat => listedValue d e.1 (f e.1 e.2)) hhead, SMap.find, SMap.find]
      by_cases hk : t = k
      · rw [if_pos hk, if_pos hk, hk]; rfl
      · rw [if_neg hk, if_neg hk, hih]

/-- A table made of the values of every number below a bound holds each of them. -/
theorem SMap.get_filterMap_range (d : Nat) (g : Nat → Nat) {n t : Nat} (ht : t < n) :
    SMap.get (fun _ => d) ((List.range n).filterMap (fun t => listedValue d t (g t))) t = g t := by
  let whole : SMap Nat := (List.range n).map (fun t => (t, g t))
  have hkeys : (whole.map Prod.fst).Nodup := by
    simp only [whole, List.map_map]
    exact (List.map_id _).symm ▸ List.nodup_range
  have hfind : SMap.find whole t = some (g t) := SMap.find_of_mem hkeys (List.mem_map.2 ⟨t, List.mem_range.2 ht, rfl⟩)
  have hget := SMap.get_filterMap_listedValue d (fun _ v => v) hkeys t
  rw [hfind, List.filterMap_map] at hget
  exact hget

namespace State

section
variable (s : State)

/-! ### The refill -/

/-- The tokens of a tenant's bucket that held `v`, after a refill under its class. -/
def refill (s : State) (t v : Nat) : Nat :=
  excRefill (s.rf windrowWin (0x1000 + 4 * s.excClass t) 15 0) (s.rf windrowWin (0x1000 + 4 * s.excClass t) 31 16) v

/-- No class changes a full bucket. -/
def keepsFull (s : State) : Bool :=
  (List.range 4).all (fun k =>
    decide (excRefill (s.rf windrowWin (0x1000 + 4 * k) 15 0) (s.rf windrowWin (0x1000 + 4 * k) 31 16) excFull = excFull))

/-- The buckets after a refill. -/
def refilledTokens (s : State) : SMap Nat :=
  if s.keepsFull then s.windrow.excTokens.filterMap (fun e => listedValue excFull e.1 (s.refill e.1 e.2))
  else (List.range 16384).filterMap (fun t => listedValue excFull t (s.refill t (SMap.get (fun _ => excFull) s.windrow.excTokens t)))

theorem excClass_lt (t : Nat) : s.excClass t < 4 := by
  have h := fld_lt (s.reg windrowWin (0x2800 + 4 * (t / 16))) (2 * (t % 16) + 1) (2 * (t % 16))
  rwa [show 2 * (t % 16) + 1 - 2 * (t % 16) + 1 = 2 by omega] at h

theorem refill_full (h : s.keepsFull = true) (t : Nat) : s.refill t excFull = excFull :=
  of_decide_eq_true (List.all_eq_true.1 h _ (List.mem_range.2 (s.excClass_lt t)))

/-- Every bucket is refilled, listed or not. -/
theorem get_refilledTokens (hkeys : (s.windrow.excTokens.map Prod.fst).Nodup) {t : Nat} (ht : t < 16384) :
    SMap.get (fun _ => excFull) s.refilledTokens t = s.refill t (SMap.get (fun _ => excFull) s.windrow.excTokens t) := by
  unfold State.refilledTokens
  split
  · rename_i hfull
    rw [SMap.get_filterMap_listedValue excFull s.refill hkeys t, SMap.get]
    cases SMap.find s.windrow.excTokens t with
    | none => exact (s.refill_full hfull t).symm
    | some v => rfl
  · exact SMap.get_filterMap_range excFull (fun t => s.refill t (SMap.get (fun _ => excFull) s.windrow.excTokens t)) ht

end
end State

theorem execExcBucketRefill_of_due {s : State} (h : s.windrow.refilled + 1000 ≤ s.time.cycles) :
    execExcBucketRefill s = .next (s.modWindrow (fun w => { w with excTokens := s.refilledTokens, refilled := w.refilled + 1000 })) :=
  if_neg (Nat.not_lt.2 h)

end Sys2Proof.Machine

namespace Sys2Proof.Safety

open Sys2Proof.Machine

/-! ### EXC_BUCKET_REFILL (R89) -/

section
variable {s : State}

theorem excBucketRefill_early (h : s.time.cycles < s.windrow.refilled + 1000) : Leaves .excBucketRefill s (fun u => u = s) := ⟨s, if_pos h, rfl⟩

theorem excBucketRefill_due (hdue : s.windrow.refilled + 1000 ≤ s.time.cycles)
    (honce : ∀ t, s.windrow.excTokens.countP (fun e => e.1 == t) ≤ 1) :
    Leaves .excBucketRefill s (fun u => u.regs = s.regs ∧ u.windrow.refilled = s.windrow.refilled + 1000 ∧ ∀ t, t < 16384 →
      SMap.get (fun _ => excFull) u.windrow.excTokens t = s.refill t (SMap.get (fun _ => excFull) s.windrow.excTokens t)) := by
  have hkeys : (s.windrow.excTokens.map Prod.fst).Nodup := List.nodup_iff_count_le_one.2 fun t => by
    rw [List.count, List.countP_map]
    exact honce t
  exact ⟨_, execExcBucketRefill_of_due hdue, rfl, rfl, fun t ht => s.get_refilledTokens hkeys ht⟩

end
end Sys2Proof.Safety
end

section
/-! Windrow's indirect stores: the data registers, and the reads and writes of entries (03, R92, R541). -/

namespace Sys2Proof.Machine

open Sys2Proof.Safety

/-! ### Sums -/

theorem sumOf_range_succ (n : Nat) (f : Nat → Nat) : sumOf (List.range (n + 1)) f = sumOf (List.range n) f + f n := by
  rw [sumOf, List.range_succ, List.foldl_append]; rfl

/-- A number is the sum of its words. -/
theorem sumOf_words (v n : Nat) : sumOf (List.range n) (fun k => v / 2 ^ (32 * k) % 2 ^ 32 * 2 ^ (32 * k)) = v % 2 ^ (32 * n) := by
  induction n with
  | zero => simp [sumOf, Nat.mod_one]
  | succ n ih => rw [sumOf_range_succ, ih, Nat.mul_succ, Nat.pow_add, Nat.mod_mul, Nat.mul_comm (2 ^ (32 * n))]

theorem sumOf_range_congr {n : Nat} {f g : Nat → Nat} (h : ∀ k, k < n → f k = g k) : sumOf (List.range n) f = sumOf (List.range n) g := by
  induction n with
  | zero => rfl
  | succ n ih => rw [sumOf_range_succ, sumOf_range_succ, ih fun k hk => h k (by omega), h n (by omega)]

namespace State

section
variable (s : State)

/-! ### The data registers -/

theorem setWindData_succ (n v : Nat) :
    s.setWindData (n + 1) v = (s.setWindData n v).setReg windrowWin (0x510 + 4 * n) (BitVec.ofNat 32 (v / 2 ^ (32 * n))) := by
  rw [State.setWindData, List.range_succ, List.foldl_append]; rfl

theorem reg_setWindData {n k : Nat} (v : Nat) (h : k < n) :
    (s.setWindData n v).reg windrowWin (0x510 + 4 * k) = BitVec.ofNat 32 (v / 2 ^ (32 * k)) := by
  induction n with
  | zero => exact absurd h (Nat.not_lt_zero k)
  | succ n ih =>
    rw [setWindData_succ]
    rcases Nat.lt_succ_iff_lt_or_eq.1 h with hlt | rfl
    · rw [reg_setReg_of_off_ne _ _ _ (by omega), ih hlt]
    · exact reg_setReg_self _ _ _ _

/-- The data registers hold the number they were set from, cut to their bits. -/
theorem windData_setWindData (n v : Nat) : (s.setWindData n v).windData n = v % 2 ^ (32 * n) := by
  rw [State.windData, ← sumOf_words]
  exact sumOf_range_congr fun k hk => by rw [s.reg_setWindData v hk, BitVec.toNat_ofNat]

theorem windrow_setWindData (n v : Nat) : (s.setWindData n v).windrow = s.windrow := by
  induction n with
  | zero => rfl
  | succ n ih => rw [setWindData_succ]; exact ih

/-! ### The stores -/

/-- A go as WINDROW_IND_CMD shows it. -/
def indirectGo (s : State) (op : Nat) : State := s.setReg windrowWin 0x504 (BitVec.ofNat 32 op)

/-- No register says what memories Windrow has. -/
theorem memInstance_setReg_windrow (w off : Nat) (v : Word32) (inst : Nat) :
    (s.setReg w off v).memInstance windrowWin inst = s.memInstance windrowWin inst := by
  rcases inst with _ | _ | inst <;> rfl

theorem errsIn_indirectGo (op inst a n : Nat) : (s.indirectGo op).errsIn windrowWin inst a n = s.errsIn windrowWin inst a n := by
  rw [State.errsIn, State.memClass, State.indirectGo, memInstance_setReg_windrow, State.errsIn, State.memClass]
  rfl

theorem directEntry_of_windrow {s u : State} (h : u.windrow = s.windrow) (i : Nat) : u.directEntry i = s.directEntry i := by
  rw [State.directEntry, h, State.directEntry]

theorem rangeEntry_of_windrow {s u : State} (h : u.windrow = s.windrow) (i : Nat) : u.rangeEntry i = s.rangeEntry i := by
  rw [State.rangeEntry, h, State.rangeEntry]

/-- An entry of a store written. -/
def putDirect (s : State) (i : Nat) (v : Word128) : State := s.modWindrow (fun w => { w with direct := SMap.set (fun _ => 0) w.direct i v })
def putRange (s : State) (i : Nat) (v : BitVec 256) : State := s.modWindrow (fun w => { w with range := SMap.set (fun _ => 0) w.range i v })

theorem directEntry_putDirect (i : Nat) (v : Word128) :
    (s.putDirect i v).directEntry i = v ∧ ∀ x, x ≠ i → (s.putDirect i v).directEntry x = s.directEntry x :=
  ⟨SMap.get_set_self _ _ _ _, fun _ hx => SMap.get_set_of_ne _ _ _ hx⟩

theorem rangeEntry_putRange (i : Nat) (v : BitVec 256) :
    (s.putRange i v).rangeEntry i = v ∧ ∀ x, x ≠ i → (s.putRange i v).rangeEntry x = s.rangeEntry x :=
  ⟨SMap.get_set_self _ _ _ _, fun _ hx => SMap.get_set_of_ne _ _ _ hx⟩

/-! ### What a go of WINDROW_IND_CMD comes to -/

section
variable (hrange : fld (s.reg windrowWin 0x500) 31 31 = 1)
include hrange

theorem windrowIndirect_beyond (hbeyond : 8192 ≤ fld (s.reg windrowWin 0x500) 19 0) (op : Nat) :
    s.windrowIndirect op = (s.indirectGo op).setRf windrowWin 0x504 29 29 1 := if_pos ⟨decide_eq_true hrange, hbeyond⟩

variable (hin : fld (s.reg windrowWin 0x500) 19 0 < 8192)
include hin

theorem windrowIndirect_range_write (hlisted : actionListed (BitVec.ofNat 128 (s.windData 8 >>> 128)) = true) :
    s.windrowIndirect 1 = ((s.indirectGo 1).putRange (fld (s.reg windrowWin 0x500) 19 0) (BitVec.ofNat 256 (s.windData 8) &&& rangeMask)).eccWrite
      windrowWin 1 (32 * fld (s.reg windrowWin 0x500) 19 0) 32 := by
  simp [State.windrowIndirect, hrange, Nat.not_le.2 hin, hlisted, State.indirectGo, State.putRange]

theorem windrowIndirect_range_discard (hunlisted : actionListed (BitVec.ofNat 128 (s.windData 8 >>> 128)) = false) :
    s.windrowIndirect 1 = (s.indirectGo 1).cfgReject windrowWin 0x504 := by
  simp [State.windrowIndirect, hrange, Nat.not_le.2 hin, hunlisted, State.indirectGo]

theorem windrowIndirect_range_read (hclean : s.errsIn windrowWin 1 (32 * fld (s.reg windrowWin 0x500) 19 0) 32 = []) :
    s.windrowIndirect 0 = (s.indirectGo 0).setWindData 8 (s.rangeEntry (fld (s.reg windrowWin 0x500) 19 0)).toNat := by
  have hread := (s.indirectGo 0).eccRead_of_errsIn_nil ((s.errsIn_indirectGo 0 _ _ _).trans hclean)
  rw [State.indirectGo] at hread ⊢
  simp [State.windrowIndirect, hrange, Nat.not_le.2 hin, hread]

end

section
variable (hdirect : fld (s.reg windrowWin 0x500) 31 31 = 0)
include hdirect

theorem windrowIndirect_direct_write (hlisted : actionListed (BitVec.ofNat 128 (s.windData 4)) = true) :
    s.windrowIndirect 1 = ((s.indirectGo 1).putDirect (fld (s.reg windrowWin 0x500) 19 0) (BitVec.ofNat 128 (s.windData 4))).eccWrite
      windrowWin 0 (16 * fld (s.reg windrowWin 0x500) 19 0) 16 := by
  simp [State.windrowIndirect, hdirect, hlisted, State.indirectGo, State.putDirect]

theorem windrowIndirect_direct_discard (hunlisted : actionListed (BitVec.ofNat 128 (s.windData 4)) = false) :
    s.windrowIndirect 1 = (s.indirectGo 1).cfgReject windrowWin 0x504 := by
  simp [State.windrowIndirect, hdirect, hunlisted, State.indirectGo]

theorem windrowIndirect_direct_read (hclean : s.errsIn windrowWin 0 (16 * fld (s.reg windrowWin 0x500) 19 0) 16 = []) :
    s.windrowIndirect 0 = (s.indirectGo 0).setWindData 4 (s.directEntry (fld (s.reg windrowWin 0x500) 19 0)).toNat := by
  have hread := (s.indirectGo 0).eccRead_of_errsIn_nil ((s.errsIn_indirectGo 0 _ _ _).trans hclean)
  rw [State.indirectGo] at hread ⊢
  simp [State.windrowIndirect, hdirect, hread]

end
end
end State
end Sys2Proof.Machine

namespace Sys2Proof.Safety

open Sys2Proof.Machine

/-! ### WINDROW_IND_WRITE and WINDROW_IND_READ (R92, R541) -/

/-- A write that is refused leaves the stores, and cfg_reject sets. -/
theorem windrowIndWrite_of_discard {s : State} (h : s.windrowIndirect 1 = (s.indirectGo 1).cfgReject windrowWin 0x504) :
    Leaves .windrowIndWrite s (fun u => u.windrow = s.windrow ∧ (u.reg windrowWin 0x20).getLsbD 0 = true) :=
  ⟨_, congrArg Host.Outcome.next h, rfl, State.getLsbD_setEvent_self _ _ _ (by decide)⟩

/-- A read gives the data registers what an entry holds, where they hold as many bits. -/
theorem windrowIndRead_of_data {s : State} {n v : Nat} (h : s.windrowIndirect 0 = (s.indirectGo 0).setWindData n v) (hv : v < 2 ^ (32 * n)) :
    Leaves .windrowIndRead s (fun u => u.windData n = v ∧ u.windrow = s.windrow) :=
  ⟨_, congrArg Host.Outcome.next h, (State.windData_setWindData _ n v).trans (Nat.mod_eq_of_lt hv), State.windrow_setWindData _ n v⟩

section
variable {s : State}

section
variable (hdirect : fld (s.reg windrowWin 0x500) 31 31 = 0)
include hdirect

theorem windrowIndWrite_direct (hlisted : actionListed (BitVec.ofNat 128 (s.windData 4)) = true) :
    let i := fld (s.reg windrowWin 0x500) 19 0
    Leaves .windrowIndWrite s (fun u => u.directEntry i = BitVec.ofNat 128 (s.windData 4) ∧
      ∀ x, x ≠ i → u.directEntry x = s.directEntry x) := by
  intro i
  obtain ⟨hself, hother⟩ := (s.indirectGo 1).directEntry_putDirect i (BitVec.ofNat 128 (s.windData 4))
  have hkept (x : Nat) := State.directEntry_of_windrow (State.windrow_of_beyondCells (State.beyondCells_eccWrite
    ((s.indirectGo 1).putDirect i (BitVec.ofNat 128 (s.windData 4))) windrowWin 0 (16 * i) 16)) x
  exact ⟨_, congrArg Host.Outcome.next (s.windrowIndirect_direct_write hdirect hlisted), (hkept i).trans hself,
    fun x hx => (hkept x).trans (hother x hx)⟩

end

section
variable (hrange : fld (s.reg windrowWin 0x500) 31 31 = 1)
include hrange

theorem windrowIndWrite_range (hin : fld (s.reg windrowWin 0x500) 19 0 < 8192)
    (hlisted : actionListed (BitVec.ofNat 128 (s.windData 8 >>> 128)) = true) :
    let i := fld (s.reg windrowWin 0x500) 19 0
    Leaves .windrowIndWrite s (fun u => u.rangeEntry i = BitVec.ofNat 256 (s.windData 8) &&& rangeMask ∧
      ∀ x, x ≠ i → u.rangeEntry x = s.rangeEntry x) := by
  intro i
  obtain ⟨hself, hother⟩ := (s.indirectGo 1).rangeEntry_putRange i (BitVec.ofNat 256 (s.windData 8) &&& rangeMask)
  have hkept (x : Nat) := State.rangeEntry_of_windrow (State.windrow_of_beyondCells (State.beyondCells_eccWrite
    ((s.indirectGo 1).putRange i (BitVec.ofNat 256 (s.windData 8) &&& rangeMask)) windrowWin 1 (32 * i) 32)) x
  exact ⟨_, congrArg Host.Outcome.next (s.windrowIndirect_range_write hrange hin hlisted), (hkept i).trans hself,
    fun x hx => (hkept x).trans (hother x hx)⟩

/-- A go for a range index beyond the store shows range_err and does nothing else. -/
theorem windrowInd_beyond (hbeyond : 8192 ≤ fld (s.reg windrowWin 0x500) 19 0) :
    Leaves .windrowIndWrite s (fun u => u.rf windrowWin 0x504 29 29 = 1 ∧ u.windrow = s.windrow) ∧
    Leaves .windrowIndRead s (fun u => u.rf windrowWin 0x504 29 29 = 1 ∧ u.windrow = s.windrow) := by
  have hshows (op : Nat) := (s.indirectGo op).rf_setRf_self windrowWin 0x504 (hi := 29) (lo := 29) 1 (by decide) (by decide)
  exact ⟨⟨_, congrArg Host.Outcome.next (s.windrowIndirect_beyond hrange hbeyond 1), hshows 1, rfl⟩,
    ⟨_, congrArg Host.Outcome.next (s.windrowIndirect_beyond hrange hbeyond 0), hshows 0, rfl⟩⟩

end
end

/-! ### The statement on outputs and stores -/

/-- Settles O32: the lane output, the refill and the indirect commands, by what each is shown to leave above. -/
theorem windrowOutputsAndStores : Obligations.WindrowOutputsAndStores := by
  unfold Obligations.WindrowOutputsAndStores
  refine ⟨?_, fun s => ⟨excBucketRefill_early, excBucketRefill_due⟩, fun s => ?_⟩
  · intro s n p rest k hfirst hpacket hplace hlane hserves hopen hfrag hmirror
    exact ⟨windrowLaneOutput_goes hfirst hpacket hplace hlane hserves hopen hfrag hmirror,
      windrowLaneOutput_decided hfirst hpacket hplace hlane hserves hopen hfrag hmirror⟩
  · intro a i discarded
    refine ⟨fun hdirect => ⟨windrowIndWrite_direct hdirect, fun hunlisted => ?_, fun hclean => ?_⟩,
      fun hrange hin => ⟨windrowIndWrite_range hrange hin, fun hunlisted => ?_, fun hclean => ?_⟩, windrowInd_beyond⟩
    · exact windrowIndWrite_of_discard (s.windrowIndirect_direct_discard hdirect hunlisted)
    · exact windrowIndRead_of_data (s.windrowIndirect_direct_read hdirect hclean) (BitVec.isLt _)
    · exact windrowIndWrite_of_discard (s.windrowIndirect_range_discard hrange hin hunlisted)
    · exact windrowIndRead_of_data (s.windrowIndirect_range_read hrange hin hclean) (BitVec.isLt _)

end Sys2Proof.Safety
end

section
/-! Ling's frame: what its work leaves of the block, of the registers and of the databases (04, R98, R99, R112). -/

namespace Sys2Proof.Machine

open Sys2Proof.Safety

/-- What each step of a fold keeps, the fold keeps. -/
theorem foldl_keeps {σ α β : Type} {f : σ → α → σ} {g : σ → β} (h : ∀ s a, g (f s a) = g s) (l : List α) (s : σ) :
    g (l.foldl f s) = g s := by
  induction l generalizing s with
  | nil => rfl
  | cons a l ih => exact (ih _).trans (h s a)

/-- The state without Ling, the registers, the tokens and the memory errors. -/
def State.besideLing (s : State) : State :=
  { s with ling := State.reset.ling, regs := [], commons := State.reset.commons, mower := State.reset.mower }

theorem State.setBlockWords_succ (s : State) (base n v : Nat) :
    s.setBlockWords base (n + 1) v = (s.setBlockWords base n v).setReg lingWin (base + 4 * n) (BitVec.ofNat 32 (bitsOf v (32 * n + 31) (32 * n))) := by
  rw [State.setBlockWords, List.range_succ, List.foldl_append]; rfl

/-- Ling has worked: it has changed nothing but what OnlyLing names, and none of the registers of its slots and databases, 0x100 to 0x3FF. -/
structure LingWork (s u : State) : Prop where
  beside : u.besideLing = s.besideLing
  windows : OtherWindows s u [lingWin, commonsWin, mowerWin]
  config : ∀ o, 0x100 ≤ o → o < 0x400 → u.reg lingWin o = s.reg lingWin o

namespace LingWork

theorem refl (s : State) : LingWork s s := ⟨rfl, fun _ _ _ _ => rfl, fun _ _ _ => rfl⟩

theorem trans {s u v : State} (h : LingWork s u) (h' : LingWork u v) : LingWork s v :=
  ⟨h'.beside.trans h.beside, fun x o hx ho => (h'.windows x o hx ho).trans (h.windows x o hx ho),
    fun o hlow hhigh => (h'.config o hlow hhigh).trans (h.config o hlow hhigh)⟩

theorem foldl {α : Type} {f : State → α → State} (h : ∀ s a, LingWork s (f s a)) (l : List α) (s : State) : LingWork s (l.foldl f s) := by
  induction l generalizing s with
  | nil => exact refl s
  | cons a l ih => exact (h s a).trans (ih _)

/-- What changes no register and nothing beside Ling is work of Ling. -/
theorem of_regs {s u : State} (hbeside : u.besideLing = s.besideLing) (hregs : u.regs = s.regs) : LingWork s u :=
  ⟨hbeside, fun _ _ _ _ => State.reg_of_regs hregs _ _, fun _ _ _ => State.reg_of_regs hregs _ _⟩

theorem setReg (s : State) {w off : Nat} (v : Word32) (hoff : off < 0x10000)
    (hw : w = lingWin ∧ (off < 0x100 ∨ 0x400 ≤ off) ∨ w = commonsWin ∨ w = mowerWin) : LingWork s (s.setReg w off v) := by
  refine ⟨rfl, fun x o hx ho => s.reg_setReg_of_ne v (fun heq => ?_) ho hoff, fun o hlow hhigh => s.reg_setReg_of_ne v (fun heq => ?_) (by omega) hoff⟩
  · simp only [List.mem_cons, List.not_mem_nil, or_false, not_or] at hx
    rw [Prod.mk.injEq] at heq
    omega
  · rw [Prod.mk.injEq] at heq
    simp only [commonsWin, mowerWin, lingWin] at hw heq
    omega

/-- A register of Ling beyond those of its slots and databases is set. -/
theorem setLing (s : State) {off : Nat} (v : Word32) (hoff : off < 0x10000) (h : off < 0x100 ∨ 0x400 ≤ off) : LingWork s (s.setReg lingWin off v) :=
  setReg s v hoff (.inl ⟨rfl, h⟩)

theorem modLing (s : State) (f : LingSt → LingSt) : LingWork s (s.modLing f) := of_regs rfl rfl
theorem modMower (s : State) (f : MowerSt → MowerSt) : LingWork s (s.modMower f) := of_regs rfl rfl

theorem overlayApply (s : State) (w inst addr len : Nat) : LingWork s (s.overlayApply w inst addr len) := by
  have hdisarm (v : Word32) : LingWork s (s.setReg mowerWin 0x610 v) := setReg s v (by decide) (.inr (.inr rfl))
  simp only [State.overlayApply]
  split
  · split
    · exact hdisarm _
    · exact (hdisarm _).trans (modMower _ _)
  · exact refl s

theorem eccWrite (s : State) (w inst addr len : Nat) : LingWork s (s.eccWrite w inst addr len) := by
  simp only [State.eccWrite]
  split
  · exact refl s
  · exact (modMower s _).trans (overlayApply _ _ _ _ _)

theorem setLingRow (s : State) (pos r : Nat) (x : LingRow) : LingWork s (s.setLingRow pos r x) := (modLing s _).trans (eccWrite _ _ _ _ _)
theorem setLingAct (s : State) (pos r : Nat) (a : Word128) : LingWork s (s.setLingAct pos r a) := (modLing s _).trans (eccWrite _ _ _ _ _)
theorem setEntryRow (s : State) (d e k : Nat) (x : LingRow) : LingWork s (s.setEntryRow d e k x) := foldl (fun s b => setLingRow s b _ x) _ s
theorem setEntryAct (s : State) (d e : Nat) (a : Word128) : LingWork s (s.setEntryAct d e a) := foldl (fun s b => setLingAct s b _ a) _ s

/-- Rejections of Ling's writes show in its UCB. -/
theorem cfgReject (s : State) (off : Nat) : LingWork s (s.cfgReject lingWin off) :=
  (setLing s _ (by decide) (.inl (by decide))).trans (setLing _ _ (by decide) (.inl (by decide)))

section
variable {x : Nat} (hx : x < 4)
include hx

/-- A register of a block is set. -/
theorem setBlockReg (s : State) {off : Nat} (v : Word32) (hoff : off < 0x100) : LingWork s (s.setReg lingWin (blockBase x + off) v) :=
  setLing s v (by unfold blockBase; omega) (.inr (by unfold blockBase; omega))

theorem setBlock (s : State) (l : List LingCmd) : LingWork s (s.setBlock x l) := (modLing s _).trans (setBlockReg hx _ _ (by decide))

theorem lingDone (s : State) (result index moves search : Nat) : LingWork s (s.lingDone x result index moves search) :=
  (setBlockReg hx s _ (by decide)).trans (setBlockReg hx _ _ (by decide))

theorem setBlockWords (s : State) {off n : Nat} (v : Nat) (hoff : off + 4 * n ≤ 0x100) : LingWork s (s.setBlockWords (blockBase x + off) n v) := by
  induction n with
  | zero => exact refl s
  | succ n ih =>
    rw [State.setBlockWords_succ, Nat.add_assoc]
    exact (ih (by omega)).trans (setBlockReg hx _ _ (by omega))

end

section
variable {s u : State} (h : LingWork s u)
include h

theorem only : OnlyLing s u :=
  ⟨show { u.besideLing with ling := u.ling, regs := u.regs, commons := u.commons, mower := u.mower } = _ by rw [h.beside]; rfl, h.windows⟩

theorem gathOf (w : Nat) : u.gathOf w = s.gathOf w := show u.besideLing.gathOf w = s.besideLing.gathOf w by rw [h.beside]

theorem inService (w : Nat) : u.inService w = s.inService w := by rw [State.inService, h.gathOf, State.inService]

theorem rf {o : Nat} (hi lo : Nat) (hlow : 0x100 ≤ o) (hhigh : o < 0x400) : u.rf lingWin o hi lo = s.rf lingWin o hi lo := by
  rw [State.rf, h.config o hlow hhigh, State.rf]

/-- Slots stand in LING_SLOT_MAP and past it, up to the blocks' registers. -/
theorem lingPos {slot : Nat} (hslot : slot < 192) : u.lingPos slot = s.lingPos slot := h.rf _ _ (by omega) (by omega)

theorem writePositions {slot : Nat} (hslot : slot < 192) : u.writePositions slot = s.writePositions slot := by
  simp only [State.writePositions, h.lingPos hslot, h.gathOf]

section
variable {d : Nat} (hd : d < 32)
include hd

theorem dbSlot : u.dbSlot d = s.dbSlot d := h.rf _ _ (by omega) (by omega)
theorem dbBanks : u.dbBanks d = s.dbBanks d := h.rf _ _ (by omega) (by omega)
theorem dbRows : u.dbRows d = s.dbRows d := by rw [State.dbRows, h.rf _ _ (by omega) (by omega), State.dbRows]
theorem dbEntries : u.dbEntries d = s.dbEntries d := by rw [State.dbEntries, h.dbBanks hd, h.dbRows hd, State.dbEntries]
theorem dbPlace (r : Nat) : u.dbPlace d r = s.dbPlace d r := by rw [State.dbPlace, h.dbSlot hd, State.dbPlace]

theorem lingTokens {c : LingCmd} (hc : c.db = d) : u.lingTokens c = s.lingTokens c := by
  subst hc
  simp only [State.lingTokens, h.dbRows hd, h.dbBanks hd]

theorem dbCopying (hcopying : u.ling.copying = s.ling.copying) : u.dbCopying d = s.dbCopying d := by
  rw [State.dbCopying, hcopying, h.dbSlot hd, h.dbBanks hd, State.dbCopying]

end
end
end LingWork
end Sys2Proof.Machine
end

section
/-! Ling's stores: the rows and action words of an entry before and after a write (04, R97, R98, R103, R104, R110, R112). -/

namespace Sys2Proof.Machine

open Sys2Proof.Safety

namespace State

/-! ### A row and an action word written -/

/-- Ling without its rows, and without its action words. -/
def exceptRows (s : State) : LingSt := { s.ling with rows := [] }
def exceptActs (s : State) : LingSt := { s.ling with acts := [] }

section
variable (s : State)

@[simp] theorem ling_eccWrite (w inst addr len : Nat) : (s.eccWrite w inst addr len).ling = s.ling :=
  show (s.eccWrite w inst addr len).beyondCells.ling = s.beyondCells.ling by rw [beyondCells_eccWrite]

theorem lingRow_of_rows {s u : State} (h : u.ling.rows = s.ling.rows) (pos r : Nat) : u.lingRow pos r = s.lingRow pos r := by
  rw [State.lingRow, h, State.lingRow]

theorem lingAct_of_acts {s u : State} (h : u.ling.acts = s.ling.acts) (pos r : Nat) : u.lingAct pos r = s.lingAct pos r := by
  rw [State.lingAct, h, State.lingAct]

theorem exceptRows_setLingRow (pos r : Nat) (x : LingRow) : (s.setLingRow pos r x).exceptRows = s.exceptRows := by
  rw [exceptRows, setLingRow, ling_eccWrite]; rfl

theorem exceptActs_setLingAct (pos r : Nat) (a : Word128) : (s.setLingAct pos r a).exceptActs = s.exceptActs := by
  rw [exceptActs, setLingAct, ling_eccWrite]; rfl

theorem lingRow_setLingRow {r r' : Nat} (hr : r < 4096) (hr' : r' < 4096) (pos pos' : Nat) (x : LingRow) :
    (s.setLingRow pos r x).lingRow pos' r' = if pos' = pos ∧ r' = r then x else s.lingRow pos' r' := by
  rw [lingRow, setLingRow, ling_eccWrite]
  split
  case isTrue h => rw [h.1, h.2]; exact SMap.get_set_self _ _ _ _
  case isFalse h => exact SMap.get_set_of_ne _ _ _ fun heq => h (by omega)

theorem lingAct_setLingAct {r r' : Nat} (hr : r < 4096) (hr' : r' < 4096) (pos pos' : Nat) (a : Word128) :
    (s.setLingAct pos r a).lingAct pos' r' = if pos' = pos ∧ r' = r then a else s.lingAct pos' r' := by
  rw [lingAct, setLingAct, ling_eccWrite]
  split
  case isTrue h => rw [h.1, h.2]; exact SMap.get_set_self _ _ _ _
  case isFalse h => exact SMap.get_set_of_ne _ _ _ fun heq => h (by omega)

/-- A row written at several positions. -/
theorem lingRow_foldl_setLingRow {r r' : Nat} (hr : r < 4096) (hr' : r' < 4096) (l : List Nat) (pos : Nat) (x : LingRow) (s : State) :
    (l.foldl (fun u b => u.setLingRow b r x) s).lingRow pos r' = if pos ∈ l ∧ r' = r then x else s.lingRow pos r' := by
  induction l generalizing s with
  | nil => simp
  | cons b l ih =>
    rw [List.foldl_cons, ih, lingRow_setLingRow _ hr hr']
    by_cases hmem : pos ∈ l <;> by_cases hrow : r' = r <;> simp [hmem, hrow]

theorem lingAct_foldl_setLingAct {r r' : Nat} (hr : r < 4096) (hr' : r' < 4096) (l : List Nat) (pos : Nat) (a : Word128) (s : State) :
    (l.foldl (fun u b => u.setLingAct b r a) s).lingAct pos r' = if pos ∈ l ∧ r' = r then a else s.lingAct pos r' := by
  induction l generalizing s with
  | nil => simp
  | cons b l ih =>
    rw [List.foldl_cons, ih, lingAct_setLingAct _ hr hr']
    by_cases hmem : pos ∈ l <;> by_cases hrow : r' = r <;> simp [hmem, hrow]

theorem exceptRows_setEntryRow (d e k : Nat) (x : LingRow) : (s.setEntryRow d e k x).exceptRows = s.exceptRows :=
  foldl_keeps (fun u b => u.exceptRows_setLingRow b _ x) _ s

theorem exceptActs_setEntryAct (d e : Nat) (a : Word128) : (s.setEntryAct d e a).exceptActs = s.exceptActs :=
  foldl_keeps (fun u b => u.exceptActs_setLingAct b _ a) _ s

theorem rows_setEntryAct (d e : Nat) (a : Word128) : (s.setEntryAct d e a).ling.rows = s.ling.rows :=
  show (s.setEntryAct d e a).exceptActs.rows = s.exceptActs.rows by rw [exceptActs_setEntryAct]

theorem acts_setEntryRow (d e k : Nat) (x : LingRow) : (s.setEntryRow d e k x).ling.acts = s.ling.acts :=
  show (s.setEntryRow d e k x).exceptRows.acts = s.exceptRows.acts by rw [exceptRows_setEntryRow]

theorem blocks_setEntryRow (d e k : Nat) (x : LingRow) : (s.setEntryRow d e k x).ling.blocks = s.ling.blocks :=
  show (s.setEntryRow d e k x).exceptRows.blocks = s.exceptRows.blocks by rw [exceptRows_setEntryRow]

theorem blocks_setEntryAct (d e : Nat) (a : Word128) : (s.setEntryAct d e a).ling.blocks = s.ling.blocks :=
  show (s.setEntryAct d e a).exceptActs.blocks = s.exceptActs.blocks by rw [exceptActs_setEntryAct]

/-- The rows of an entry's write, without its action word. -/
def writeRows (s : State) (d e n : Nat) (f : Nat → LingRow) : State := (List.range n).foldl (fun u k => u.setEntryRow d e k (f k)) s

theorem writeRows_succ (d e n : Nat) (f : Nat → LingRow) : s.writeRows d e (n + 1) f = (s.writeRows d e n f).setEntryRow d e n (f n) := by
  rw [writeRows, List.range_succ, List.foldl_append]; rfl

theorem exceptRows_writeRows (d e n : Nat) (f : Nat → LingRow) : (s.writeRows d e n f).exceptRows = s.exceptRows :=
  foldl_keeps (fun u k => u.exceptRows_setEntryRow d e k (f k)) _ s

theorem acts_writeRows (d e n : Nat) (f : Nat → LingRow) : (s.writeRows d e n f).ling.acts = s.ling.acts :=
  show (s.writeRows d e n f).exceptRows.acts = s.exceptRows.acts by rw [exceptRows_writeRows]

theorem blocks_writeRows (d e n : Nat) (f : Nat → LingRow) : (s.writeRows d e n f).ling.blocks = s.ling.blocks :=
  show (s.writeRows d e n f).exceptRows.blocks = s.exceptRows.blocks by rw [exceptRows_writeRows]

theorem lingWork_writeRows (d e n : Nat) (f : Nat → LingRow) : LingWork s (s.writeRows d e n f) :=
  LingWork.foldl (fun u k => LingWork.setEntryRow u d e k (f k)) _ s

theorem writeEntry_eq (d e : Nat) (data care : BitVec 640) (act : Word128) :
    s.writeEntry d e data care act = (s.writeRows d e (s.dbRows d) fun k => lingRowOf (slice data k) (slice care k) true).setEntryAct d e act := rfl

end

/-! ### Where an entry stands -/

section
variable (s : State) (d : Nat)

theorem dbRows_cases : s.dbRows d = 1 ∨ s.dbRows d = 2 ∨ s.dbRows d = 4 := by
  unfold State.dbRows
  split <;> simp

theorem dbRows_pos : 0 < s.dbRows d := by
  rcases s.dbRows_cases d with hw | hw | hw <;> omega

theorem dbSlot_lt : s.dbSlot d < 64 := fld_lt _ 5 0
theorem dbBanks_lt : s.dbBanks d < 16 := fld_lt _ 15 12

/-- The slot and row of an entry's first row. -/
def entryPlace (e : Nat) : Nat × Nat := s.dbPlace d (s.dbRows d * e)

theorem row_lt_entryPlace (e : Nat) : (s.entryPlace d e).2 < 4096 := Nat.mod_lt _ (by decide)

/-- An entry's rows stand one after another in its slot. -/
theorem dbPlace_row (e : Nat) {k : Nat} (hk : k < s.dbRows d) :
    s.dbPlace d (s.dbRows d * e + k) = ((s.entryPlace d e).1, (s.entryPlace d e).2 + k) ∧ (s.entryPlace d e).2 + k < 4096 := by
  simp only [State.entryPlace, State.dbPlace, Prod.mk.injEq]
  rcases s.dbRows_cases d with hw | hw | hw <;> rw [hw] at hk ⊢ <;> omega

theorem slot_lt_entryPlace {e : Nat} (he : e < s.dbEntries d) : (s.entryPlace d e).1 < 192 := by
  have hslot := s.dbSlot_lt d
  have hbanks := s.dbBanks_lt d
  simp only [State.entryPlace, State.dbPlace]
  rw [State.dbEntries] at he
  rcases s.dbRows_cases d with hw | hw | hw <;> rw [hw] at he ⊢ <;> omega

theorem lingPos_mem_writePositions (slot : Nat) : s.lingPos slot ∈ s.writePositions slot := by
  simp only [State.writePositions]
  split
  · split <;> exact List.mem_cons_self
  · exact List.mem_cons_self

end
end State

/-! ### The entries of a database after work of Ling -/

namespace LingWork

section
variable {s u : State} (h : LingWork s u) {d : Nat} (hd : d < 32)
include h hd

theorem entryPlace (e : Nat) : u.entryPlace d e = s.entryPlace d e := by rw [State.entryPlace, h.dbPlace hd, h.dbRows hd, State.entryPlace]

section
variable {e : Nat} (he : e < s.dbEntries d)
include he

theorem entryRow {k : Nat} (hk : k < s.dbRows d) :
    u.entryRow d e k = u.lingRow (s.lingPos (s.entryPlace d e).1) ((s.entryPlace d e).2 + k) := by
  rw [State.entryRow, h.dbRows hd, h.dbPlace hd, (s.dbPlace_row d e hk).1, h.lingPos (s.slot_lt_entryPlace d he)]

theorem entryRow_of_rows (hrows : u.ling.rows = s.ling.rows) {k : Nat} (hk : k < s.dbRows d) : u.entryRow d e k = s.entryRow d e k := by
  rw [h.entryRow hd he hk, State.lingRow_of_rows hrows, (refl s).entryRow hd he hk]

theorem setEntryRow_eq {k : Nat} (hk : k < s.dbRows d) (x : LingRow) :
    u.setEntryRow d e k x = (s.writePositions (s.entryPlace d e).1).foldl (fun v b => v.setLingRow b ((s.entryPlace d e).2 + k) x) u := by
  rw [State.setEntryRow, h.dbRows hd, h.dbPlace hd, (s.dbPlace_row d e hk).1, h.writePositions (s.slot_lt_entryPlace d he)]

theorem lingRow_setEntryRow {k : Nat} (hk : k < s.dbRows d) (x : LingRow) (pos : Nat) {r : Nat} (hr : r < 4096) :
    (u.setEntryRow d e k x).lingRow pos r =
      if pos ∈ s.writePositions (s.entryPlace d e).1 ∧ r = (s.entryPlace d e).2 + k then x else u.lingRow pos r := by
  rw [h.setEntryRow_eq hd he hk, State.lingRow_foldl_setLingRow (s.dbPlace_row d e hk).2 hr]

theorem lingAct_setEntryAct (a : Word128) (pos : Nat) {r : Nat} (hr : r < 4096) :
    (u.setEntryAct d e a).lingAct pos r =
      if pos ∈ s.writePositions (s.entryPlace d e).1 ∧ r = (s.entryPlace d e).2 then a else u.lingAct pos r := by
  have hplace : u.dbPlace d (u.dbRows d * e) = s.entryPlace d e := h.entryPlace hd e
  rw [State.setEntryAct, hplace, h.writePositions (s.slot_lt_entryPlace d he),
    State.lingAct_foldl_setLingAct (s.row_lt_entryPlace d e) hr]

/-- The rows of an entry that are written, at every position that its slot's writes go to, and no other. -/
theorem lingRow_writeRows {n : Nat} (hn : n ≤ s.dbRows d) (f : Nat → LingRow) (pos : Nat) {r : Nat} (hr : r < 4096) :
    (u.writeRows d e n f).lingRow pos r =
      if pos ∈ s.writePositions (s.entryPlace d e).1 ∧ (s.entryPlace d e).2 ≤ r ∧ r < (s.entryPlace d e).2 + n then f (r - (s.entryPlace d e).2)
      else u.lingRow pos r := by
  induction n with
  | zero => rw [if_neg fun hin => by omega]; rfl
  | succ n ih =>
    rw [State.writeRows_succ, (h.trans (u.lingWork_writeRows d e n f)).lingRow_setEntryRow hd he hn _ _ hr, ih (by omega)]
    by_cases hlast : r = (s.entryPlace d e).2 + n
    · subst hlast
      by_cases hpos : pos ∈ s.writePositions (s.entryPlace d e).1 <;> simp [hpos]
    · by_cases hpos : pos ∈ s.writePositions (s.entryPlace d e).1
      · simp only [hpos, hlast, true_and, and_false, if_false]
        exact if_congr (by omega) rfl rfl
      · simp [hpos]

end
end
end LingWork
end Sys2Proof.Machine
end

section
/-! Ling's command blocks: a command that is captured, runs at once and completes (04, R103, R109; 17, R421). -/

namespace Sys2Proof.Machine

open Sys2Proof.Safety

namespace State

section
variable (s : State)

/-! ### What a block shows of a command (R103) -/

/-- The commands of a block replaced. -/
theorem blockCmds_setBlock_self (x : Nat) (l : List LingCmd) : (s.setBlock x l).blockCmds x = l := SMap.get_set_self _ _ _ _

theorem blockCmds_of_blocks {s u : State} (h : u.ling.blocks = s.ling.blocks) (x : Nat) : u.blockCmds x = s.blockCmds x := by
  rw [State.blockCmds, h, State.blockCmds]

theorem ling_setReg (w off : Nat) (v : Word32) : (s.setReg w off v).ling = s.ling := rfl
theorem mower_setReg (w off : Nat) (v : Word32) : (s.setReg w off v).mower = s.mower := rfl
theorem commons_setReg (w off : Nat) (v : Word32) : (s.setReg w off v).commons = s.commons := rfl

theorem ling_setBlock (x : Nat) (l : List LingCmd) : (s.setBlock x l).ling = { s.ling with blocks := SMap.set (fun _ => []) s.ling.blocks x l } := by
  rw [State.setBlock, State.setRf, ling_setReg, modLing_ling]

theorem ling_lingDone (x result index moves search : Nat) : (s.lingDone x result index moves search).ling = s.ling := by
  rw [State.lingDone, ling_setReg, ling_setReg]

theorem ling_cfgReject (w off : Nat) : (s.cfgReject w off).ling = s.ling := by
  rw [State.cfgReject, State.setSummary, State.setEvent, ling_setReg, ling_setReg]

theorem reg_modLing (f : LingSt → LingSt) (w o : Nat) : (s.modLing f).reg w o = s.reg w o := reg_of_regs rfl w o

theorem reg_setBlock_of_ne (x : Nat) (l : List LingCmd) {o : Nat} (h : o ≠ blockBase x + 0xB4) :
    (s.setBlock x l).reg lingWin o = s.reg lingWin o := by
  rw [State.setBlock, State.setRf, reg_setReg_of_off_ne _ _ _ h, reg_modLing]

theorem busy_setBlock (x : Nat) (l : List LingCmd) : (s.setBlock x l).rf lingWin (blockBase x + 0xB4) 31 31 = bit (!l.isEmpty) := by
  rw [State.setBlock, rf_setRf_self _ _ _ _ (by decide) (by decide)]
  cases l.isEmpty <;> rfl

/-- What a command shows of its end: the fields of its result, below busy, and LING_RESULT_x. -/
theorem status_lingDone (x result index moves : Nat) {search hi lo : Nat} (hsum : search + result < 2 ^ 31) (hlo : lo ≤ hi) (hhi : hi < 31)
    (l : List LingCmd) :
    ((s.lingDone x result index moves search).setBlock x l).rf lingWin (blockBase x + 0xB4) hi lo = bitsOf (search + result) hi lo := by
  rw [State.setBlock, rf_setRf_of_apart _ _ _ _ (by decide) (by omega) hlo, State.rf, reg_modLing, State.lingDone,
    reg_setReg_of_off_ne _ _ _ (by omega), reg_setReg_self]
  refine Nat.eq_of_testBit_eq fun i => ?_
  rw [testBit_fld, BitVec.getLsbD_ofNat, Nat.add_assoc, Nat.mul_comm, Nat.testBit_two_pow_mul_add _ hsum, bitsOf, Nat.testBit_mod_two_pow,
    Nat.testBit_shiftRight]
  by_cases hi' : i < hi - lo + 1
  · rw [if_pos (by omega), decide_eq_true (by omega : lo + i < 32), Bool.true_and]
  · simp [hi']

theorem result_lingDone (x result index moves search : Nat) (l : List LingCmd) :
    ((s.lingDone x result index moves search).setBlock x l).reg lingWin (blockBase x + 0xB8) = BitVec.ofNat 32 (moves * 65536 + index % 32768) := by
  rw [reg_setBlock_of_ne _ _ _ (by omega), State.lingDone, reg_setReg_self]

/-- A command that completes ends as LingEnds says. -/
theorem lingEnds_lingDone {x result : Nat} (index moves : Nat) {search : Nat} (hsum : search + result < 2 ^ 31)
    (hresult : bitsOf (search + result) 7 0 = result) : LingEnds ((s.lingDone x result index moves search).setBlock x []) x result index moves := by
  refine ⟨blockCmds_setBlock_self _ _ _, busy_setBlock _ _ _,
    (s.status_lingDone x result index moves hsum (by decide) (by decide) []).trans hresult, ?_, ?_⟩ <;>
  · rw [State.rf, result_lingDone, fld, bitsOf, Nat.shiftRight_eq_div_pow, BitVec.toNat_ofNat]
    omega

/-! ### The tokens of a step (R421) -/

/-- A draw for which the tokens suffice is granted, and touches the tokens alone. -/
theorem drawFor_granted {c n : Nat} (h : HasTokens s c 2 n) (who : Nat) :
    ∃ v, s.drawFor who c 2 n = (true, v) ∧ LingWork s v ∧ v.ling = s.ling ∧ v.mower = s.mower := by
  obtain ⟨hheld, hleft⟩ := h
  rw [State.tokensHeld] at hheld
  rw [State.drawFor, if_neg fun hother => hother.1 hheld, if_pos (by omega)]
  have htokens (n : Nat) : LingWork s ((s.setTokens c 2 n).setHeld c 2 who 0) := LingWork.of_regs rfl rfl
  exact ⟨_, rfl, (htokens _).trans (LingWork.setReg _ (off := 0x240 + 4 * 2) _ (by decide) (.inr (.inl rfl))), rfl, rfl⟩

theorem lingWork_lingLetGo (x : Nat) : LingWork s (s.lingLetGo x) := by
  rw [State.lingLetGo]
  split
  · exact LingWork.of_regs rfl rfl
  · exact LingWork.refl s

theorem ling_lingLetGo (x : Nat) : (s.lingLetGo x).ling = s.ling := by
  rw [State.lingLetGo]
  split <;> rfl

/-! ### A go (R103) -/

/-- A command captured, and alone in its block. -/
def lingTaken (s : State) (x op dir d i : Nat) : State :=
  (s.setReg lingWin (blockBase x + 0xB0) (BitVec.ofNat 32 (op * 2 ^ 24 + dir * 2 ^ 22 + d * 2 ^ 16 + i))).setBlock x [capturedOf s x op dir d i]

/-- A command as block x holds it at a go: its op, database and index, and the words of the block. -/
structure Captured (s : State) (x op d i : Nat) (c : LingCmd) : Prop where
  op : c.op = op
  db : c.db = d
  index : c.index = i
  data : c.data = BitVec.ofNat 640 (s.blockWords (blockBase x) 20)
  care : c.care = BitVec.ofNat 640 (s.blockWords (blockBase x + 0x50) 20)
  act : c.act = BitVec.ofNat 128 (s.blockWords (blockBase x + 0xA0) 4)

theorem captured_capturedOf (x op dir d i : Nat) : Captured s x op d i (capturedOf s x op dir d i) := ⟨rfl, rfl, rfl, rfl, rfl, rfl⟩

/-- Ling's stores and the memory errors are as they were. -/
structure SameStores (s u : State) : Prop where
  rows : u.ling.rows = s.ling.rows
  acts : u.ling.acts = s.ling.acts
  lost : u.ling.lost = s.ling.lost
  mower : u.mower = s.mower

theorem lingWork_lingTaken {x : Nat} (hx : x < 4) (op dir d i : Nat) : LingWork s (s.lingTaken x op dir d i) :=
  (LingWork.setBlockReg hx s _ (by decide)).trans (LingWork.setBlock hx _ _)

theorem blockCmds_lingTaken (x op dir d i : Nat) : (s.lingTaken x op dir d i).blockCmds x = [capturedOf s x op dir d i] :=
  blockCmds_setBlock_self _ _ _

theorem ling_lingTaken (x op dir d i : Nat) :
    (s.lingTaken x op dir d i).ling = { s.ling with blocks := SMap.set (fun _ => []) s.ling.blocks x [capturedOf s x op dir d i] } := by
  rw [lingTaken, ling_setBlock, ling_setReg]

theorem mower_lingTaken (x op dir d i : Nat) : (s.lingTaken x op dir d i).mower = s.mower := by
  rw [lingTaken, State.setBlock, State.setRf, mower_setReg, modLing_mower, mower_setReg]

theorem commons_lingTaken (x op dir d i : Nat) : (s.lingTaken x op dir d i).commons = s.commons := by
  rw [lingTaken, State.setBlock, State.setRf, commons_setReg, modLing_commons, commons_setReg]

theorem lingGo_eq_run {x : Nat} (hempty : s.blockCmds x = []) (op dir d i : Nat) : s.lingGo x op dir d i = (s.lingTaken x op dir d i).lingRun x 2 := by
  have hcmds (off : Nat) (v : Word32) : (s.setReg lingWin off v).blockCmds x = [] := hempty
  simp only [State.lingGo, hcmds, List.nil_append, blockCmds_setBlock_self, List.length_singleton]
  rfl

end

section
variable {s : State} {x : Nat} {c : LingCmd} (hfront : s.blockCmds x = [c]) (hin : s.inService lingWin = true) (hlate : c.late = false)
include hfront hin hlate

/-- A command that completes leaves its block. -/
theorem lingRun_completes {v : State} (htry : s.lingTry x c = (true, v)) (hv : v.blockCmds x = [c]) : s.lingRun x 2 = v.setBlock x [] := by
  rw [State.lingRun, hfront]
  simp only [State.serving, hin, hlate, htry, hv, Bool.true_or, Bool.not_true, Bool.false_eq_true, false_and, or_self, if_false,
    List.drop_one, List.tail_cons]
  rw [State.lingRun, blockCmds_setBlock_self]

end

section
variable {s : State} {c : LingCmd}

/-! ### A command is tried (R104, R109) -/

/-- What a command other than MOVE_BLOCK does once its tokens are drawn. -/
def lingPerform (s : State) (x : Nat) (c : LingCmd) : State :=
  match c.op with
  | 0 => s.lingReadEntry x c
  | 1 => s.lingWrites x c (fun s => (s.writeEntry c.db c.index c.data c.care c.act).lingDone x 0 c.index 0 0)
  | 2 => (s.setEntryValid c.db c.index false).lingDone x 0 c.index 0 0
  | 3 => s.lingWrites x c (fun s => (s.setEntryAct c.db c.index c.act).lingDone x 0 c.index 0 0)
  | 4 => s.lingManage x c (fun _ => true)
  | _ => s.lingManage x c (fun e => decide (c.index < e))

theorem lingPerform_read (hop : c.op = 0) (x : Nat) : s.lingPerform x c = s.lingReadEntry x c := by
  simp only [lingPerform, hop]

theorem lingPerform_write (hop : c.op = 1) (hlisted : actionListed c.act = true) (x : Nat) :
    s.lingPerform x c = (s.writeEntry c.db c.index c.data c.care c.act).lingDone x 0 c.index 0 0 := by
  unfold lingPerform; rw [hop]; exact if_pos hlisted

theorem lingPerform_invalidate (hop : c.op = 2) (x : Nat) : s.lingPerform x c = (s.setEntryValid c.db c.index false).lingDone x 0 c.index 0 0 := by
  simp only [lingPerform, hop]

theorem lingPerform_writeAction (hop : c.op = 3) (hlisted : actionListed c.act = true) (x : Nat) :
    s.lingPerform x c = (s.setEntryAct c.db c.index c.act).lingDone x 0 c.index 0 0 := by
  unfold lingPerform; rw [hop]; exact if_pos hlisted

theorem lingPerform_discard (hop : c.op = 1 ∨ c.op = 3) (hunlisted : actionListed c.act = false) (x : Nat) :
    s.lingPerform x c = s.cfgReject lingWin (blockBase x + 0xB0) := by
  have hdiscard (write : State → State) : s.lingWrites x c write = s.cfgReject lingWin (blockBase x + 0xB0) := if_neg (Bool.eq_false_iff.1 hunlisted)
  unfold lingPerform
  rcases hop with hop | hop <;> rw [hop] <;> exact hdiscard _

theorem lingPerform_search (hop : c.op = 4) (x : Nat) : s.lingPerform x c = s.lingManage x c fun _ => true := by
  simp only [lingPerform, hop]

theorem lingPerform_nextMatch (hop : c.op = 5) (x : Nat) : s.lingPerform x c = s.lingManage x c fun e => decide (c.index < e) := by
  simp only [lingPerform, hop]

theorem hasTokens_of_commons {s u : State} (h : u.commons = s.commons) {c r n : Nat} (htokens : HasTokens s c r n) : HasTokens u c r n := by
  rw [HasTokens, State.tokensHeld, State.heldBy, State.tokensLeft, h]
  exact htokens

theorem lingTry_disabled (x : Nat) (hbanks : s.dbBanks c.db = 0) : s.lingTry x c = (true, (s.lingLetGo x).lingDone x 3 c.index 0 0) := if_pos hbanks

theorem lingTry_range (x : Nat) (hbanks : s.dbBanks c.db ≠ 0) (hop : c.op ≠ 4) (hindex : s.dbEntries c.db ≤ c.index) :
    s.lingTry x c = (true, (s.lingLetGo x).lingDone x 2 c.index 0 0) := by
  rw [State.lingTry, if_neg hbanks, if_pos ⟨hop, hindex⟩]

theorem lingTry_performs (x : Nat) (hbanks : s.dbBanks c.db ≠ 0) (hindex : c.op = 4 ∨ c.index < s.dbEntries c.db) (hmove : c.move = none)
    (hbusy : s.dbBusy c.db = false) (hop : c.op ≠ 6) (htokens : HasTokens s 3 2 (s.lingTokens c)) :
    ∃ v, s.lingTry x c = (true, v.lingPerform x c) ∧ LingWork s v ∧ v.ling = s.ling ∧ v.mower = s.mower := by
  obtain ⟨v, hdraw, hv⟩ := s.drawFor_granted htokens x
  refine ⟨v, ?_, hv⟩
  rw [State.lingTry, if_neg hbanks, if_neg (by omega), if_neg (by simp [hmove, hbusy]), if_neg hop, hdraw]
  rfl

end
end State
end Sys2Proof.Machine
end

section
/-! What Ling's READ puts into a block, and what its searches find (04, R97, R98, R103, R105, R110). -/

namespace Sys2Proof.Machine

open Sys2Proof.Safety

/-! ### Values of several words -/

theorem sumOf_lt {m : Nat} {a : Nat → Nat} (ha : ∀ k, a k < 2 ^ m) (n : Nat) : sumOf (List.range n) (fun k => a k * 2 ^ (m * k)) < 2 ^ (m * n) := by
  induction n with
  | zero => exact Nat.two_pow_pos _
  | succ n ih =>
    rw [sumOf_range_succ, Nat.mul_succ, Nat.pow_add]
    calc _ < 2 ^ (m * n) + a n * 2 ^ (m * n) := Nat.add_lt_add_right ih _
      _ = (a n + 1) * 2 ^ (m * n) := by rw [Nat.add_mul, Nat.one_mul, Nat.add_comm]
      _ ≤ 2 ^ m * 2 ^ (m * n) := Nat.mul_le_mul_right _ (ha n)
      _ = _ := Nat.mul_comm _ _

/-- A digit of a number given by its digits. -/
theorem digit_sumOf {m : Nat} {a : Nat → Nat} (ha : ∀ k, a k < 2 ^ m) {n k : Nat} (hk : k < n) :
    sumOf (List.range n) (fun j => a j * 2 ^ (m * j)) / 2 ^ (m * k) % 2 ^ m = a k := by
  induction n with
  | zero => exact absurd hk (Nat.not_lt_zero k)
  | succ n ih =>
    rw [sumOf_range_succ]
    rcases Nat.lt_succ_iff_lt_or_eq.1 hk with hlt | rfl
    · obtain ⟨j, rfl⟩ := Nat.exists_eq_add_of_lt hlt
      rw [show a (k + j + 1) * 2 ^ (m * (k + j + 1)) = 2 ^ (m * k) * (2 ^ m * (2 ^ (m * j) * a (k + j + 1))) by ring,
        Nat.add_mul_div_left _ _ (Nat.two_pow_pos _), Nat.add_mul_mod_self_left]
      exact ih hlt
    · rw [Nat.add_mul_div_right _ _ (Nat.two_pow_pos _), Nat.div_eq_of_lt (sumOf_lt ha _), Nat.zero_add, Nat.mod_eq_of_lt (ha _)]

theorem slice_ofNat (v : Nat) {k : Nat} (hk : k < 4) : slice (BitVec.ofNat 640 v) k = BitVec.ofNat 160 (v / 2 ^ (160 * k)) := by
  refine BitVec.eq_of_getLsbD_eq fun i hi => ?_
  rw [slice, BitVec.getLsbD_extractLsb', BitVec.getLsbD_ofNat, BitVec.getLsbD_ofNat, Nat.testBit_div_two_pow]
  simp [hi, show i + 160 * k < 640 by omega, Nat.add_comm (160 * k)]

/-- The words of a list of 160-bit values, one after another. -/
def joinRows (n : Nat) (f : Nat → BitVec 160) : Nat := sumOf (List.range n) (fun k => (f k).toNat * 2 ^ (160 * k))

theorem slice_joinRows {n k : Nat} (hn : n ≤ 4) (hk : k < n) (f : Nat → BitVec 160) : slice (BitVec.ofNat 640 (joinRows n f)) k = f k := by
  rw [slice_ofNat _ (by omega)]
  refine BitVec.eq_of_toNat_eq ?_
  rw [BitVec.toNat_ofNat, joinRows, digit_sumOf (a := fun k => (f k).toNat) (fun k => (f k).isLt) hk]

theorem joinRows_lt {n : Nat} (hn : n ≤ 4) (f : Nat → BitVec 160) : joinRows n f < 2 ^ (32 * 20) :=
  Nat.lt_of_lt_of_le (sumOf_lt (fun k => (f k).isLt) n) (pow_le_pow_right₀ (by decide) (show 160 * n ≤ 32 * 20 by omega))

theorem sumOf_zipIdx_map_range (n : Nat) (g : Nat → LingRow) (f : LingRow × Nat → Nat) :
    sumOf ((List.range n).map g).zipIdx f = sumOf (List.range n) (fun k => f (g k, k)) := by
  induction n with
  | zero => rfl
  | succ n ih =>
    rw [sumOf_range_succ, ← ih, List.range_succ, List.map_append, List.zipIdx_append]
    simp [sumOf]

namespace State

section
variable (s : State)

/-! ### The words of a block -/

theorem reg_setBlockWords_outside {base n o : Nat} (v : Nat) (h : o < base ∨ base + 4 * n ≤ o) :
    (s.setBlockWords base n v).reg lingWin o = s.reg lingWin o := by
  induction n with
  | zero => rfl
  | succ n ih => rw [setBlockWords_succ, reg_setReg_of_off_ne _ _ _ (by omega), ih (by omega)]

theorem reg_setBlockWords {base n k : Nat} (v : Nat) (hk : k < n) :
    (s.setBlockWords base n v).reg lingWin (base + 4 * k) = BitVec.ofNat 32 (bitsOf v (32 * k + 31) (32 * k)) := by
  induction n with
  | zero => exact absurd hk (Nat.not_lt_zero k)
  | succ n ih =>
    rw [setBlockWords_succ]
    rcases Nat.lt_succ_iff_lt_or_eq.1 hk with hlt | rfl
    · rw [reg_setReg_of_off_ne _ _ _ (by omega), ih hlt]
    · exact reg_setReg_self _ _ _ _

theorem blockWords_of_regs {s u : State} {base n : Nat} (h : ∀ k, k < n → u.reg lingWin (base + 4 * k) = s.reg lingWin (base + 4 * k)) :
    u.blockWords base n = s.blockWords base n := sumOf_range_congr fun k hk => by rw [h k hk]

/-- A number that fits is read as it was put. -/
theorem blockWords_setBlockWords {base n v : Nat} (hv : v < 2 ^ (32 * n)) : (s.setBlockWords base n v).blockWords base n = v := by
  refine (sumOf_range_congr fun k hk => ?_).trans ((sumOf_words v n).trans (Nat.mod_eq_of_lt hv))
  rw [s.reg_setBlockWords v hk, BitVec.toNat_ofNat, bitsOf, Nat.shiftRight_eq_div_pow, show 32 * k + 31 - 32 * k + 1 = 32 by omega, Nat.mod_mod]

theorem ling_setBlockWords (base n v : Nat) : (s.setBlockWords base n v).ling = s.ling := by
  rw [State.setBlockWords]; refine foldl_keeps (g := State.ling) (fun _ _ => ?_) _ s; exact ling_setReg _ _ _ _

theorem mower_setBlockWords (base n v : Nat) : (s.setBlockWords base n v).mower = s.mower := by
  rw [State.setBlockWords]; refine foldl_keeps (g := State.mower) (fun _ _ => ?_) _ s; exact mower_setReg _ _ _ _

/-! ### Reads without an error -/

/-- The class of a memory does not turn on the state. -/
theorem memClass_eq (u : State) (w inst : Nat) : u.memClass w inst = s.memClass w inst := by
  unfold State.memClass State.memInstance
  split <;> simp only [Option.map_some, Option.map_none]

theorem errsIn_of_mower {s u : State} (h : u.mower = s.mower) (w inst addr len : Nat) : u.errsIn w inst addr len = s.errsIn w inst addr len := by
  rw [State.errsIn, h, s.memClass_eq u, State.errsIn]

theorem readAct_of_acts {s u : State} (hacts : u.ling.acts = s.ling.acts) (hmower : u.mower = s.mower) (pos r : Nat) :
    u.readAct pos r = s.readAct pos r := by
  simp only [State.readAct, State.eccFixed, lingAct_of_acts hacts, errsIn_of_mower hmower, s.memClass_eq u]

theorem ling_eccRead (w inst addr len : Nat) : (s.eccRead w inst addr len).2.ling = s.ling :=
  show (s.eccRead w inst addr len).2.beyondCells.ling = s.beyondCells.ling by rw [beyondCells_eccRead]

theorem ling_readShadows (d e : Nat) : (s.readShadows d e).2.ling = s.ling := by
  rw [State.readShadows]
  refine foldl_keeps (g := fun acc : Bool × State => acc.2.ling) (fun acc _ => ?_) _ (false, s)
  exact acc.2.ling_eccRead _ _ _ _

theorem readShadows_clean {d e : Nat} (hclean : CleanEntry s d e) : (s.readShadows d e).2 = s := by
  rw [State.readShadows]
  refine List.foldlRecOn (motive := fun acc : Bool × State => acc.2 = s) _ _ rfl fun acc hacc k hk => ?_
  have hread := s.eccRead_of_errsIn_nil (hclean k (List.mem_range.1 hk)).1
  dsimp only
  rw [hacc, hread]

end
end State

/-! ### What is in the databases stays while Ling's stores do -/

section
variable {s u : State} (h : LingWork s u) {d : Nat} (hd : d < 32)
include h hd

namespace LingWork

section
variable {e : Nat} (he : e < s.dbEntries d)
include he

theorem cleanEntry (hmower : u.mower = s.mower) (hclean : CleanEntry s d e) : CleanEntry u d e := by
  intro k hk
  rw [h.dbRows hd] at hk
  have hslot := s.slot_lt_entryPlace d he
  have hplace := (s.dbPlace_row d e hk).1
  have hboth := hclean k hk
  simp only [hplace] at hboth
  simpa only [h.dbRows hd, h.dbPlace hd, hplace, h.lingPos hslot, State.errsIn_of_mower hmower] using hboth

theorem entryAct_of_acts (hacts : u.ling.acts = s.ling.acts) (hmower : u.mower = s.mower) : u.entryAct d e = s.entryAct d e := by
  show u.readAct (u.lingPos (u.entryPlace d e).1) (u.entryPlace d e).2 = _
  rw [h.entryPlace hd, h.lingPos (s.slot_lt_entryPlace d he), State.readAct_of_acts hacts hmower]
  rfl

end

section
variable (hrows : u.ling.rows = s.ling.rows)
include hrows

theorem entryValid_of_rows {e : Nat} (he : e < s.dbEntries d) : u.entryValid d e = s.entryValid d e := by
  rw [State.entryValid, h.entryRow_of_rows hd he hrows (s.dbRows_pos d), State.entryValid]

theorem dbValid_of_rows : u.dbValid d = s.dbValid d := by
  simp only [State.dbValid, h.dbRows hd, h.dbBanks hd, h.dbSlot hd, hrows]
  refine List.flatMap_congr fun k hk => ?_
  have hslot := s.dbSlot_lt d
  have hbanks := s.dbBanks_lt d
  rw [h.lingPos (by have := List.mem_range.1 hk; omega)]

theorem entryMatches_of_rows {e : Nat} (he : e < s.dbEntries d) (key : BitVec 640) : u.entryMatches d key e = s.entryMatches d key e := by
  have hlive (pos : Nat) : u.bankLive pos = s.bankLive pos := by rw [State.bankLive, h.gathOf, State.bankLive]
  have hslot : (s.dbPlace d (s.dbRows d * e)).1 < 192 := s.slot_lt_entryPlace d he
  simp only [State.entryMatches, h.dbRows hd, h.dbPlace hd, h.lingPos hslot, hlive]
  congr 1
  rw [Bool.eq_iff_iff, List.all_eq_true, List.all_eq_true]
  refine forall₂_congr fun k hk => ?_
  rw [h.entryRow_of_rows hd he hrows (List.mem_range.1 hk)]

end
end LingWork
end

/-- The valid entries of a database lie in it. -/
theorem State.lt_dbEntries_of_mem_dbValid {s : State} {d e : Nat} (he : e ∈ s.dbValid d) : e < s.dbEntries d := by
  simp only [State.dbValid, List.mem_flatMap, List.mem_map, List.mem_range] at he
  obtain ⟨k, hk, x, -, rfl⟩ := he
  rw [State.dbEntries]
  rcases s.dbRows_cases d with hw | hw | hw <;> rw [hw] <;> omega

/-- A search finds what it found before. -/
theorem LingWork.dbMatches_of_rows {s u : State} (h : LingWork s u) {d : Nat} (hd : d < 32) (hrows : u.ling.rows = s.ling.rows) (key : BitVec 640) :
    u.dbMatches d key = s.dbMatches d key := by
  rw [State.dbMatches, h.dbValid_of_rows hd hrows, State.dbMatches]
  exact List.filter_congr fun e he => h.entryMatches_of_rows hd hrows (State.lt_dbEntries_of_mem_dbValid he) key

end Sys2Proof.Machine
end

section
/-! What a Ling command leaves that runs at once: the block it was written to, and what it has done (04, R103 to R105, R110). -/

namespace Sys2Proof.Machine

open Sys2Proof.Safety

namespace State

section
variable (s : State)

/-! ### READ (R103, R110) -/

/-- The words of an entry in the block, as READ puts them there, and the entry named as lost no more. -/
def readWords (s : State) (x : Nat) (c : LingCmd) : State :=
  (((s.setBlockWords (blockBase x) 20 (joinRows (s.dbRows c.db) fun k => (s.entryRow c.db c.index k).data)).setBlockWords (blockBase x + 0x50) 20
    (joinRows (s.dbRows c.db) fun k => (s.entryRow c.db c.index k).care)).setBlockWords (blockBase x + 0xA0) 4 (s.entryAct c.db c.index).toNat).modLing
    fun g => { g with lost := g.lost.filter (· ≠ 4096 * (s.dbPlace c.db (s.dbRows c.db * c.index)).1 + (s.dbPlace c.db (s.dbRows c.db * c.index)).2) }

theorem lingWork_readWords {x : Nat} (hx : x < 4) (c : LingCmd) : LingWork s (s.readWords x c) :=
  (((LingWork.setBlockWords hx s (off := 0) (n := 20) _ (by decide)).trans (LingWork.setBlockWords hx _ (off := 0x50) (n := 20) _ (by decide))).trans
    (LingWork.setBlockWords hx _ (off := 0xA0) (n := 4) _ (by decide))).trans (LingWork.modLing _ _)

theorem mower_readWords (x : Nat) (c : LingCmd) : (s.readWords x c).mower = s.mower := by
  unfold State.readWords
  rw [modLing_mower, mower_setBlockWords, mower_setBlockWords, mower_setBlockWords]

/-- READ of an entry without errors: the words, and a status that names the valid bit beside what it found of shadow and parity. -/
theorem lingReadEntry_clean {x : Nat} (hx : x < 4) {c : LingCmd} (hdb : c.db < 32) (hindex : c.index < s.dbEntries c.db)
    (hclean : CleanEntry s c.db c.index) :
    ∃ result found parity, (result = 0 ∨ result = 4) ∧ (s.ling.lost = [] → result = 0) ∧
      s.lingReadEntry x c = (s.readWords x c).lingDone x result c.index 0
        (bit (s.entryValid c.db c.index) * 2 ^ 14 + bit found * 2 ^ 13 + bit parity * 2 ^ 12) := by
  have hshadows := readShadows_clean _ ((s.lingWork_readWords hx c).cleanEntry hdb hindex (s.mower_readWords x c) hclean)
  have hact := (hclean 0 (s.dbRows_pos c.db)).2
  rw [Nat.add_zero] at hact
  have hread {u : State} (h : u.mower = s.mower) : u.eccRead (lingBankWin (s.lingPos (s.dbPlace c.db (s.dbRows c.db * c.index)).1)) 1
      (16 * (s.dbPlace c.db (s.dbRows c.db * c.index)).2) 16 = (false, u) :=
    u.eccRead_of_errsIn_nil ((errsIn_of_mower h _ _ _ _).trans hact)
  refine ⟨if s.ling.lost.contains (4096 * (s.dbPlace c.db (s.dbRows c.db * c.index)).1 + (s.dbPlace c.db (s.dbRows c.db * c.index)).2) then 4 else 0,
    ((s.readWords x c).readShadows c.db c.index).1,
    ((List.range (s.dbRows c.db)).map fun k => s.entryRow c.db c.index k).any fun r => !r.parityOk, ?_, ?_, ?_⟩
  · split <;> simp
  · intro hlost
    rw [hlost]
    rfl
  · unfold State.readWords joinRows at hshadows ⊢
    simp only [State.lingReadEntry, sumOf_zipIdx_map_range]
    rw [hread (by rw [mower_setBlockWords, mower_setBlockWords]), if_neg Bool.false_ne_true, hshadows]

/-- The words of a block stay as its command ends. -/
theorem blockWords_ended (x result index moves search : Nat) (l : List LingCmd) {off n : Nat} (hoff : off + 4 * n ≤ 0xB4) :
    ((s.lingDone x result index moves search).setBlock x l).blockWords (blockBase x + off) n = s.blockWords (blockBase x + off) n := by
  refine blockWords_of_regs fun k hk => ?_
  rw [reg_setBlock_of_ne _ _ _ (by omega), State.lingDone, reg_setReg_of_off_ne _ _ _ (by omega), reg_setReg_of_off_ne _ _ _ (by omega)]

theorem blockWords_setBlockWords_apart {base n base' n' : Nat} (v : Nat) (h : base' + 4 * n' ≤ base ∨ base + 4 * n ≤ base') :
    (s.setBlockWords base n v).blockWords base' n' = s.blockWords base' n' :=
  blockWords_of_regs fun k hk => reg_setBlockWords_outside _ v (by omega)

theorem words_readWords (x : Nat) (c : LingCmd) :
    (s.readWords x c).blockWords (blockBase x) 20 = joinRows (s.dbRows c.db) (fun k => (s.entryRow c.db c.index k).data) ∧
    (s.readWords x c).blockWords (blockBase x + 0x50) 20 = joinRows (s.dbRows c.db) (fun k => (s.entryRow c.db c.index k).care) ∧
    (s.readWords x c).blockWords (blockBase x + 0xA0) 4 = (s.entryAct c.db c.index).toNat := by
  have hrows : s.dbRows c.db ≤ 4 := by rcases s.dbRows_cases c.db with hw | hw | hw <;> omega
  have hmod (u : State) (f : LingSt → LingSt) (base n : Nat) : (u.modLing f).blockWords base n = u.blockWords base n :=
    blockWords_of_regs fun k _ => u.reg_modLing f _ _
  unfold State.readWords
  refine ⟨?_, ?_, ?_⟩
  · rw [hmod, blockWords_setBlockWords_apart _ _ (.inl (by omega)), blockWords_setBlockWords_apart _ _ (.inl (by omega)),
      blockWords_setBlockWords _ (joinRows_lt hrows _)]
  · rw [hmod, blockWords_setBlockWords_apart _ _ (.inl (by omega)), blockWords_setBlockWords _ (joinRows_lt hrows _)]
  · rw [hmod, blockWords_setBlockWords _ (s.entryAct c.db c.index).isLt]

theorem stores_readWords (x : Nat) (c : LingCmd) :
    (s.readWords x c).ling.rows = s.ling.rows ∧ (s.readWords x c).ling.acts = s.ling.acts := by
  unfold State.readWords
  rw [modLing_ling, ling_setBlockWords, ling_setBlockWords, ling_setBlockWords]
  exact ⟨rfl, rfl⟩

/-! ### What a command that is performed leaves of the blocks -/

theorem blocks_writeEntry (d e : Nat) (data care : BitVec 640) (act : Word128) : (s.writeEntry d e data care act).ling.blocks = s.ling.blocks := by
  rw [writeEntry_eq, blocks_setEntryAct, blocks_writeRows]

theorem blocks_lingReadEntry (x : Nat) (c : LingCmd) : (s.lingReadEntry x c).ling.blocks = s.ling.blocks := by
  simp only [State.lingReadEntry]
  rw [ling_lingDone, ling_readShadows, modLing_ling]
  split <;> simp only [ling_setBlockWords, ling_eccRead]

theorem blocks_lingPerform (x : Nat) (c : LingCmd) : (s.lingPerform x c).ling.blocks = s.ling.blocks := by
  have hwrites (write : State → State) (hwrite : (write s).ling.blocks = s.ling.blocks) : (s.lingWrites x c write).ling.blocks = s.ling.blocks := by
    rw [State.lingWrites]
    split
    · exact hwrite
    · rw [ling_cfgReject]
  unfold lingPerform
  split
  · exact s.blocks_lingReadEntry x c
  · exact hwrites _ (by rw [ling_lingDone, blocks_writeEntry])
  · rw [ling_lingDone, State.setEntryValid, blocks_setEntryRow]
  · exact hwrites _ (by rw [ling_lingDone, blocks_setEntryAct])
  · rw [State.lingManage, ling_lingDone]
  · rw [State.lingManage, ling_lingDone]

/-! ### A command that Ling takes in service -/

section
variable {s} {x d : Nat} (hx : x < 4)
include hx

/-- A database in which nothing moves stays so when a command is captured. -/
theorem dbBusy_lingTaken (hd : d < 32) (hbusy : s.dbBusy d = false) (op dir i : Nat) : (s.lingTaken x op dir d i).dbBusy d = false := by
  simp only [State.dbBusy, Bool.or_eq_false_iff, Option.isSome_eq_false_iff, Option.isNone_iff_eq_none, State.movingBlock,
    List.findSome?_eq_none_iff] at hbusy ⊢
  obtain ⟨hcopying, hmoving⟩ := hbusy
  refine ⟨((s.lingWork_lingTaken hx op dir d i).dbCopying hd (by rw [ling_lingTaken])).trans hcopying, fun y hy => ?_⟩
  by_cases hself : y = x
  · subst hself
    rw [blockCmds_lingTaken]
    rfl
  · have hother : (s.lingTaken x op dir d i).blockCmds y = s.blockCmds y := by
      rw [State.blockCmds, ling_lingTaken, State.blockCmds, SMap.get_set_of_ne _ _ _ hself]
    rw [hother]
    exact hmoving y hy

/-- A go of a command that is taken and completes at once. -/
theorem lingGo_completes (hin : s.inService lingWin = true) (hempty : s.blockCmds x = []) {op dir i : Nat} {v : State}
    (htry : (s.lingTaken x op dir d i).lingTry x (capturedOf s x op dir d i) = (true, v))
    (hblocks : v.ling.blocks = (s.lingTaken x op dir d i).ling.blocks) : s.lingGo x op dir d i = v.setBlock x [] := by
  have htaken := s.blockCmds_lingTaken x op dir d i
  have hlate : (capturedOf s x op dir d i).late = false := by rw [capturedOf, hin]; rfl
  rw [s.lingGo_eq_run hempty]
  exact lingRun_completes htaken (((s.lingWork_lingTaken hx op dir d i).inService _).trans hin) hlate htry ((blockCmds_of_blocks hblocks x).trans htaken)

/-- A go of a command that is performed at once: Ling is then as before it, but for the block. -/
theorem lingGo_performs (hd : d < 32) (hidle : LingIdle s x d) {op i : Nat} (dir : Nat) (hop : op ≠ 6) (hindex : op = 4 ∨ i < s.dbEntries d)
    (htokens : HasTokens s 3 2 (s.lingTokens (capturedOf s x op dir d i))) :
    ∃ v c, Captured s x op d i c ∧ s.lingGo x op dir d i = (v.lingPerform x c).setBlock x [] ∧ LingWork s v ∧ SameStores s v := by
  obtain ⟨hempty, hin, hbanks, hbusy⟩ := hidle
  have htaken := s.lingWork_lingTaken hx op dir d i
  have htokens' := hasTokens_of_commons (s.commons_lingTaken x op dir d i) htokens
  rw [← htaken.lingTokens hd (c := capturedOf s x op dir d i) rfl] at htokens'
  rw [← htaken.dbBanks hd] at hbanks
  rw [← htaken.dbEntries hd] at hindex
  obtain ⟨v, htry, hwork, hling, hmower⟩ := lingTry_performs (s := s.lingTaken x op dir d i) (c := capturedOf s x op dir d i) x hbanks hindex rfl
    (dbBusy_lingTaken hx hd hbusy op dir i) hop htokens'
  refine ⟨v, _, s.captured_capturedOf x op dir d i, lingGo_completes hx hin hempty htry (by rw [blocks_lingPerform, hling]), htaken.trans hwork,
    ⟨?_, ?_, ?_, hmower.trans (s.mower_lingTaken x op dir d i)⟩⟩ <;>
  rw [hling, ling_lingTaken]

end

/-! ### The fields of a command's end (R103, R105) -/

/-- READ shows the valid bit as hit. -/
theorem bitsOf_readStatus (valid found parity : Bool) {result : Nat} (h : result = 0 ∨ result = 4) :
    bitsOf (bit valid * 2 ^ 14 + bit found * 2 ^ 13 + bit parity * 2 ^ 12 + result) 14 14 = bit valid ∧
    bitsOf (bit valid * 2 ^ 14 + bit found * 2 ^ 13 + bit parity * 2 ^ 12 + result) 7 0 = result ∧
    bit valid * 2 ^ 14 + bit found * 2 ^ 13 + bit parity * 2 ^ 12 + result < 2 ^ 31 := by
  revert valid found parity
  rcases h with rfl | rfl <;> decide

/-- A management search shows match_count, multi and hit. -/
theorem bitsOf_searchStatus {count : Nat} (hcount : count < 256) (multi hit : Bool) :
    let status := count * 2 ^ 16 + bit multi * 2 ^ 15 + bit hit * 2 ^ 14 + 0
    bitsOf status 23 16 = count ∧ bitsOf status 15 15 = bit multi ∧ bitsOf status 14 14 = bit hit ∧ bitsOf status 7 0 = 0 ∧ status < 2 ^ 31 := by
  intro status
  have hbit (b : Bool) : bit b < 2 := by cases b <;> decide
  have hmulti := hbit multi
  have hhit := hbit hit
  simp only [status, bitsOf, Nat.shiftRight_eq_div_pow]
  omega

/-- What block x shows of a management search that has found some entries. -/
theorem lingManage_shows (x : Nat) (c : LingCmd) (p : Nat → Bool) {m : List Nat} (hm : (s.dbMatches c.db c.data).filter p = m) :
    let u := (s.lingManage x c p).setBlock x []
    LingEnds u x 0 (m.headD 0) 0 ∧ u.rf lingWin (blockBase x + 0xB4) 14 14 = bit (!m.isEmpty) ∧
    u.rf lingWin (blockBase x + 0xB4) 15 15 = bit (decide (2 ≤ m.length)) ∧ u.rf lingWin (blockBase x + 0xB4) 23 16 = min 255 m.length := by
  intro u
  have hu : u = (s.lingDone x 0 (m.headD 0) 0
      (min 255 m.length * 2 ^ 16 + bit (decide (2 ≤ m.length)) * 2 ^ 15 + bit (!m.isEmpty) * 2 ^ 14)).setBlock x [] := by
    simp only [u, State.lingManage, hm]
  obtain ⟨hcount, hmulti, hhit, hresult, hsum⟩ := bitsOf_searchStatus (count := min 255 m.length) (by omega) (decide (2 ≤ m.length)) (!m.isEmpty)
  rw [hu]
  exact ⟨s.lingEnds_lingDone _ _ hsum hresult, (s.status_lingDone x 0 _ 0 hsum (by decide) (by decide) []).trans hhit,
    (s.status_lingDone x 0 _ 0 hsum (by decide) (by decide) []).trans hmulti, (s.status_lingDone x 0 _ 0 hsum (by decide) (by decide) []).trans hcount⟩

/-! ### What stays once a command has completed -/

theorem lingWork_ended {s w : State} (h : LingWork s w) {x : Nat} (hx : x < 4) (result index moves search : Nat) :
    LingWork s ((w.lingDone x result index moves search).setBlock x []) :=
  (h.trans (LingWork.lingDone hx _ _ _ _ _)).trans (LingWork.setBlock hx _ _)

theorem rows_ended (x result index moves search : Nat) (l : List LingCmd) :
    ((s.lingDone x result index moves search).setBlock x l).ling.rows = s.ling.rows := by rw [ling_setBlock, ling_lingDone]

theorem acts_ended (x result index moves search : Nat) (l : List LingCmd) :
    ((s.lingDone x result index moves search).setBlock x l).ling.acts = s.ling.acts := by rw [ling_setBlock, ling_lingDone]

end
end State

/-! ### An entry written whole (R98, R104) -/

namespace LingWork

theorem writeEntry {s u : State} (h : LingWork s u) (d e : Nat) (data care : BitVec 640) (act : Word128) : LingWork s (u.writeEntry d e data care act) :=
  (h.trans (u.lingWork_writeRows _ _ _ _)).trans (setEntryAct _ _ _ _)

section
variable {s u : State} (h : LingWork s u) {d : Nat} (hd : d < 32) {e : Nat} (he : e < s.dbEntries d)
include h hd he

theorem lingRow_writeEntry (data care : BitVec 640) (act : Word128) (pos : Nat) {r : Nat} (hr : r < 4096) :
    (u.writeEntry d e data care act).lingRow pos r =
      if pos ∈ s.writePositions (s.entryPlace d e).1 ∧ (s.entryPlace d e).2 ≤ r ∧ r < (s.entryPlace d e).2 + s.dbRows d then
        lingRowOf (slice data (r - (s.entryPlace d e).2)) (slice care (r - (s.entryPlace d e).2)) true
      else u.lingRow pos r := by
  rw [State.writeEntry_eq, State.lingRow_of_rows (State.rows_setEntryAct _ _ _ _), h.dbRows hd]
  exact h.lingRow_writeRows hd he le_rfl _ pos hr

theorem lingAct_writeEntry (data care : BitVec 640) (act : Word128) (pos : Nat) {r : Nat} (hr : r < 4096) :
    (u.writeEntry d e data care act).lingAct pos r =
      if pos ∈ s.writePositions (s.entryPlace d e).1 ∧ r = (s.entryPlace d e).2 then act else u.lingAct pos r := by
  rw [State.writeEntry_eq, (h.trans (u.lingWork_writeRows _ _ _ _)).lingAct_setEntryAct hd he act pos hr,
    State.lingAct_of_acts (State.acts_writeRows _ _ _ _ _)]

end
end LingWork
end Sys2Proof.Machine
end

section
/-! Ling's commands: each on a block that is idle (04, R103 to R105, R109, R110, R541). -/

namespace Sys2Proof.Safety

open Sys2Proof.Machine

section
variable {s : State} {x : Fin 4} {db : BitVec 5} {index : BitVec 15}

/-! ### Writes (R104, R110, R541) -/

/-- Every position of an entry's slot holds an action word. -/
def HoldsAct (s u : State) (d e : Nat) (a : Word128) : Prop :=
  ∀ pos ∈ s.writePositions (s.entryPlace d e).1, u.lingAct pos (s.entryPlace d e).2 = a

/-- A row that OtherRows names is none of those that an entry's write reaches. -/
theorem not_written_of_other {s : State} {d e pos r : Nat}
    (h : pos ∉ s.writePositions (s.entryPlace d e).1 ∨ r < (s.entryPlace d e).2 ∨ (s.entryPlace d e).2 + s.dbRows d ≤ r) :
    ¬ (pos ∈ s.writePositions (s.entryPlace d e).1 ∧ (s.entryPlace d e).2 ≤ r ∧ r < (s.entryPlace d e).2 + s.dbRows d) :=
  fun ⟨hpos, hlow, hhigh⟩ => h.elim (· hpos) fun hr => by omega

/-- A write of block x has been discarded, and what it had drawn of tokens is gone. -/
def WriteDiscarded (s u : State) (x : Nat) : Prop :=
  u.blockCmds x = [] ∧ u.ling.rows = s.ling.rows ∧ u.ling.acts = s.ling.acts ∧ (u.reg lingWin 0x20).getLsbD 0 = true ∧ OnlyLing s u

theorem writeDiscarded_cfgReject {v : State} (hwork : LingWork s v) (hstores : State.SameStores s v) {x : Nat} (hx : x < 4) :
    WriteDiscarded s ((v.cfgReject lingWin (blockBase x + 0xB0)).setBlock x []) x := by
  refine ⟨State.blockCmds_setBlock_self _ _ _, ?_, ?_, ?_, ((hwork.trans (LingWork.cfgReject _ _)).trans (LingWork.setBlock hx _ _)).only⟩
  · rw [State.ling_setBlock, State.ling_cfgReject, hstores.rows]
  · rw [State.ling_setBlock, State.ling_cfgReject, hstores.acts]
  · rw [State.reg_setBlock_of_ne _ _ _ (by unfold blockBase; omega), State.summary_cfgReject, getLsbD_or_one]
    exact Bool.or_true _

section
variable (hidle : LingIdle s x.val db.toNat) (hindex : index.toNat < s.dbEntries db.toNat)
include hidle hindex

theorem lingWrite_writes (htokens : HasTokens s 3 2 (s.dbRows db.toNat))
    (hlisted : actionListed (capturedOf s x.val 1 0 db.toNat index.toNat).act = true) :
    let c := capturedOf s x.val 1 0 db.toNat index.toNat
    Leaves (.lingWrite x db index) s (fun u =>
      (∀ k, k < s.dbRows db.toNat → u.entryRow db.toNat index.toNat k = lingRowOf (slice c.data k) (slice c.care k) true) ∧
      HoldsAct s u db.toNat index.toNat c.act ∧ LingEnds u x.val 0 index.toNat 0 ∧ OtherRows s u db.toNat index.toNat ∧ OnlyLing s u) := by
  intro c
  have hc := s.captured_capturedOf x.val 1 0 db.toNat index.toNat
  obtain ⟨v, c', hc', hgo, hwork, hstores⟩ := State.lingGo_performs (op := 1) x.isLt db.isLt hidle (s.lingDir x.val) (by decide) (.inr hindex) htokens
  rw [State.lingPerform_write hc'.op (by rwa [hc'.act, ← hc.act]), hc'.db, hc'.index, hc'.data, hc'.care, hc'.act,
    ← hc.data, ← hc.care, ← hc.act] at hgo
  have hended := State.lingWork_ended (hwork.writeEntry db.toNat index.toNat c.data c.care c.act) x.isLt 0 index.toNat 0 0
  have hrow (pos : Nat) {r : Nat} (hr : r < 4096) := hwork.lingRow_writeEntry db.isLt hindex c.data c.care c.act pos hr
  have hact (pos : Nat) {r : Nat} (hr : r < 4096) := hwork.lingAct_writeEntry db.isLt hindex c.data c.care c.act pos hr
  refine ⟨_, congrArg Host.Outcome.next hgo, fun k hk => ?_, fun pos hpos => ?_, State.lingEnds_lingDone _ _ _ (by decide) rfl,
    fun pos r hr hother => ?_, hended.only⟩
  · rw [hended.entryRow db.isLt hindex hk, State.lingRow_of_rows (State.rows_ended _ _ _ _ _ _ _), hrow _ (s.dbPlace_row _ _ hk).2,
      if_pos ⟨s.lingPos_mem_writePositions _, by omega, by omega⟩, Nat.add_sub_cancel_left]
  · rw [State.lingAct_of_acts (State.acts_ended _ _ _ _ _ _ _), hact _ (s.row_lt_entryPlace _ _), if_pos ⟨hpos, rfl⟩]
  · have hrows := s.dbRows_pos db.toNat
    have hapart := not_written_of_other hother
    rw [State.lingRow_of_rows (State.rows_ended _ _ _ _ _ _ _), State.lingAct_of_acts (State.acts_ended _ _ _ _ _ _ _), hrow _ hr, hact _ hr]
    exact ⟨(if_neg hapart).trans (State.lingRow_of_rows hstores.rows _ _),
      (if_neg fun ⟨hpos, heq⟩ => hapart ⟨hpos, by omega, by omega⟩).trans (State.lingAct_of_acts hstores.acts _ _)⟩

theorem lingInvalidate_clears (htokens : HasTokens s 3 2 1) :
    Leaves (.lingInvalidate x db index) s (fun u =>
      u.entryRow db.toNat index.toNat 0 = lingRowOf (s.entryRow db.toNat index.toNat 0).data (s.entryRow db.toNat index.toNat 0).care false ∧
      (∀ k, 0 < k → k < s.dbRows db.toNat → u.entryRow db.toNat index.toNat k = s.entryRow db.toNat index.toNat k) ∧ u.ling.acts = s.ling.acts ∧
      LingEnds u x.val 0 index.toNat 0 ∧ OtherRows s u db.toNat index.toNat ∧ OnlyLing s u) := by
  obtain ⟨v, c', hc', hgo, hwork, hstores⟩ := State.lingGo_performs (op := 2) x.isLt db.isLt hidle (s.lingDir x.val) (by decide) (.inr hindex) htokens
  have hrows := s.dbRows_pos db.toNat
  rw [State.lingPerform_invalidate hc'.op, hc'.db, hc'.index, State.setEntryValid, hwork.entryRow_of_rows db.isLt hindex hstores.rows hrows] at hgo
  generalize lingRowOf (s.entryRow db.toNat index.toNat 0).data (s.entryRow db.toNat index.toNat 0).care false = row at hgo ⊢
  have hended := State.lingWork_ended (hwork.trans (LingWork.setEntryRow v db.toNat index.toNat 0 row)) x.isLt 0 index.toNat 0 0
  have hrow (pos : Nat) {r : Nat} (hr : r < 4096) := hwork.lingRow_setEntryRow db.isLt hindex hrows row pos hr
  have hacts := (State.acts_ended (v.setEntryRow db.toNat index.toNat 0 row) x.val 0 index.toNat 0 0 []).trans
    ((State.acts_setEntryRow _ _ _ _ _).trans hstores.acts)
  refine ⟨_, congrArg Host.Outcome.next hgo, ?_, fun k hpos hk => ?_, hacts, State.lingEnds_lingDone _ _ _ (by decide) rfl,
    fun pos r hr hother => ⟨?_, State.lingAct_of_acts hacts pos r⟩, hended.only⟩
  · rw [hended.entryRow db.isLt hindex hrows, State.lingRow_of_rows (State.rows_ended _ _ _ _ _ _ _), hrow _ (s.dbPlace_row _ _ hrows).2,
      if_pos ⟨s.lingPos_mem_writePositions _, rfl⟩]
  · rw [hended.entryRow db.isLt hindex hk, State.lingRow_of_rows (State.rows_ended _ _ _ _ _ _ _), hrow _ (s.dbPlace_row _ _ hk).2,
      if_neg (by omega), State.lingRow_of_rows hstores.rows, ← (LingWork.refl s).entryRow db.isLt hindex hk]
  · rw [State.lingRow_of_rows (State.rows_ended _ _ _ _ _ _ _), hrow _ hr]
    exact (if_neg fun ⟨hpos, heq⟩ => not_written_of_other hother ⟨hpos, by omega, by omega⟩).trans (State.lingRow_of_rows hstores.rows _ _)

theorem lingWriteAction_writes (htokens : HasTokens s 3 2 1) (hlisted : actionListed (capturedOf s x.val 1 0 db.toNat index.toNat).act = true) :
    Leaves (.lingWriteAction x db index) s (fun u =>
      HoldsAct s u db.toNat index.toNat (capturedOf s x.val 1 0 db.toNat index.toNat).act ∧ u.ling.rows = s.ling.rows ∧
      LingEnds u x.val 0 index.toNat 0 ∧ OtherRows s u db.toNat index.toNat ∧ OnlyLing s u) := by
  have hc := s.captured_capturedOf x.val 1 0 db.toNat index.toNat
  obtain ⟨v, c', hc', hgo, hwork, hstores⟩ := State.lingGo_performs (op := 3) x.isLt db.isLt hidle (s.lingDir x.val) (by decide) (.inr hindex) htokens
  rw [State.lingPerform_writeAction hc'.op (by rwa [hc'.act, ← hc.act]), hc'.db, hc'.index, hc'.act, ← hc.act] at hgo
  generalize (capturedOf s x.val 1 0 db.toNat index.toNat).act = a at hgo ⊢
  have hended := State.lingWork_ended (hwork.trans (LingWork.setEntryAct v db.toNat index.toNat a)) x.isLt 0 index.toNat 0 0
  have hact (pos : Nat) {r : Nat} (hr : r < 4096) := hwork.lingAct_setEntryAct db.isLt hindex a pos hr
  have hrows := (State.rows_ended (v.setEntryAct db.toNat index.toNat a) x.val 0 index.toNat 0 0 []).trans
    ((State.rows_setEntryAct _ _ _ _).trans hstores.rows)
  refine ⟨_, congrArg Host.Outcome.next hgo, fun pos hpos => ?_, hrows, State.lingEnds_lingDone _ _ _ (by decide) rfl,
    fun pos r hr hother => ⟨State.lingRow_of_rows hrows pos r, ?_⟩, hended.only⟩
  · rw [State.lingAct_of_acts (State.acts_ended _ _ _ _ _ _ _), hact _ (s.row_lt_entryPlace _ _), if_pos ⟨hpos, rfl⟩]
  · have hpositive := s.dbRows_pos db.toNat
    rw [State.lingAct_of_acts (State.acts_ended _ _ _ _ _ _ _), hact _ hr]
    exact (if_neg fun ⟨hpos, heq⟩ => not_written_of_other hother ⟨hpos, by omega, by omega⟩).trans (State.lingAct_of_acts hstores.acts _ _)

/-! ### Writes that are discarded (R541) -/

section
variable (hunlisted : actionListed (capturedOf s x.val 1 0 db.toNat index.toNat).act = false)
include hunlisted

theorem lingWrite_discarded (htokens : HasTokens s 3 2 (s.dbRows db.toNat)) : Leaves (.lingWrite x db index) s (fun u => WriteDiscarded s u x.val) := by
  obtain ⟨v, c', hc', hgo, hwork, hstores⟩ := State.lingGo_performs (op := 1) x.isLt db.isLt hidle (s.lingDir x.val) (by decide) (.inr hindex) htokens
  rw [State.lingPerform_discard (.inl hc'.op) (by rwa [hc'.act, ← (s.captured_capturedOf x.val 1 0 db.toNat index.toNat).act])] at hgo
  exact ⟨_, congrArg Host.Outcome.next hgo, writeDiscarded_cfgReject hwork hstores x.isLt⟩

theorem lingWriteAction_discarded (htokens : HasTokens s 3 2 1) : Leaves (.lingWriteAction x db index) s (fun u => WriteDiscarded s u x.val) := by
  obtain ⟨v, c', hc', hgo, hwork, hstores⟩ := State.lingGo_performs (op := 3) x.isLt db.isLt hidle (s.lingDir x.val) (by decide) (.inr hindex) htokens
  rw [State.lingPerform_discard (.inr hc'.op) (by rwa [hc'.act, ← (s.captured_capturedOf x.val 1 0 db.toNat index.toNat).act])] at hgo
  exact ⟨_, congrArg Host.Outcome.next hgo, writeDiscarded_cfgReject hwork hstores x.isLt⟩

end

/-! ### READ (R103, R110) -/

theorem lingRead_reads (htokens : HasTokens s 3 2 (s.dbRows db.toNat)) (hclean : CleanEntry s db.toNat index.toNat) :
    let d := db.toNat
    let i := index.toNat
    let b := blockBase x.val
    Leaves (.lingRead x db index) s (fun u =>
      (∀ k, k < s.dbRows d → slice (BitVec.ofNat 640 (u.blockWords b 20)) k = (s.entryRow d i k).data ∧
        slice (BitVec.ofNat 640 (u.blockWords (b + 0x50) 20)) k = (s.entryRow d i k).care) ∧
      BitVec.ofNat 128 (u.blockWords (b + 0xA0) 4) = s.entryAct d i ∧
      u.rf lingWin (b + 0xB4) 14 14 = bit (s.entryValid d i) ∧ u.rf lingWin (b + 0xB4) 31 31 = 0 ∧ u.blockCmds x.val = [] ∧
      (s.ling.lost = [] → LingEnds u x.val 0 i 0) ∧ u.ling.rows = s.ling.rows ∧ u.ling.acts = s.ling.acts ∧ OnlyLing s u) := by
  intro d i b
  obtain ⟨v, c', hc', hgo, hwork, hstores⟩ := State.lingGo_performs (op := 0) x.isLt db.isLt hidle (s.lingDir x.val) (by decide) (.inr hindex) htokens
  have hindex' : i < v.dbEntries d := by rwa [hwork.dbEntries db.isLt]
  obtain ⟨result, found, parity, hcode, hlost, hread⟩ := v.lingReadEntry_clean x.isLt (c := c') (hc'.db ▸ db.isLt)
    (by rwa [hc'.db, hc'.index]) (by rw [hc'.db, hc'.index]; exact hwork.cleanEntry db.isLt hindex hstores.mower hclean)
  obtain ⟨hdata, hcare, hact⟩ := v.words_readWords x.val c'
  rw [hc'.db, hc'.index] at hdata hcare hact
  rw [State.lingPerform_read hc'.op, hread, hc'.db, hc'.index, hwork.entryValid_of_rows db.isLt hstores.rows hindex] at hgo
  obtain ⟨hhit, hresult, hsum⟩ := State.bitsOf_readStatus (s.entryValid d i) found parity hcode
  have hended := State.lingWork_ended (hwork.trans (v.lingWork_readWords x.isLt c')) x.isLt result i 0
    (bit (s.entryValid d i) * 2 ^ 14 + bit found * 2 ^ 13 + bit parity * 2 ^ 12)
  have hwords {off n : Nat} (hoff : off + 4 * n ≤ 0xB4) := (v.readWords x.val c').blockWords_ended x.val result i 0
    (bit (s.entryValid d i) * 2 ^ 14 + bit found * 2 ^ 13 + bit parity * 2 ^ 12) [] hoff
  have hrows : v.dbRows d = s.dbRows d := hwork.dbRows db.isLt
  have hfew : s.dbRows d ≤ 4 := by rcases s.dbRows_cases d with hw | hw | hw <;> omega
  refine ⟨_, congrArg Host.Outcome.next hgo, fun k hk => ?_, ?_, ?_, State.busy_setBlock _ _ _, State.blockCmds_setBlock_self _ _ _,
    fun hnone => ?_, ?_, ?_, hended.only⟩
  · have hrow := hwork.entryRow_of_rows db.isLt hindex hstores.rows hk
    have hfirst := hwords (off := 0) (n := 20) (by decide)
    rw [Nat.add_zero] at hfirst
    rw [hfirst, hdata, hwords (off := 0x50) (n := 20) (by decide), hcare, hrows, slice_joinRows hfew hk, slice_joinRows hfew hk, hrow]
    exact ⟨rfl, rfl⟩
  · rw [hwords (off := 0xA0) (n := 4) (by decide), hact, hwork.entryAct_of_acts db.isLt hindex hstores.acts hstores.mower,
      BitVec.ofNat_toNat, BitVec.setWidth_eq]
  · exact (State.status_lingDone _ _ _ _ _ hsum (by decide) (by decide) []).trans hhit
  · obtain rfl := hlost (hstores.lost.trans hnone)
    exact State.lingEnds_lingDone _ _ _ hsum hresult
  · rw [State.rows_ended, (v.stores_readWords x.val c').1, hstores.rows]
  · rw [State.acts_ended, (v.stores_readWords x.val c').2, hstores.acts]

end

/-! ### SEARCH and NEXT_MATCH (R105) -/

/-- A management search has found some entries. -/
def SearchFound (s u : State) (x : Nat) (m : List Nat) : Prop :=
  LingEnds u x 0 (m.headD 0) 0 ∧ u.rf lingWin (blockBase x + 0xB4) 14 14 = bit (!m.isEmpty) ∧
  u.rf lingWin (blockBase x + 0xB4) 15 15 = bit (decide (2 ≤ m.length)) ∧ u.rf lingWin (blockBase x + 0xB4) 23 16 = min 255 m.length ∧
  u.ling.rows = s.ling.rows ∧ u.ling.acts = s.ling.acts ∧ OnlyLing s u

theorem searchFound_lingManage {v : State} (hwork : LingWork s v) (hstores : State.SameStores s v) {c : LingCmd} (hdb : c.db = db.toNat)
    (p : Nat → Bool) :
    SearchFound s ((v.lingManage x.val c p).setBlock x.val []) x.val ((s.dbMatches db.toNat c.data).filter p) := by
  have hm : (v.dbMatches c.db c.data).filter p = (s.dbMatches db.toNat c.data).filter p := by
    rw [hdb, hwork.dbMatches_of_rows db.isLt hstores.rows]
  obtain ⟨hends, hhit, hmulti, hcount⟩ := v.lingManage_shows x.val c p hm
  refine ⟨hends, hhit, hmulti, hcount, ?_, ?_, (State.lingWork_ended hwork x.isLt _ _ _ _).only⟩
  · rw [State.lingManage, State.rows_ended, hstores.rows]
  · rw [State.lingManage, State.acts_ended, hstores.acts]

section
variable (hidle : LingIdle s x.val db.toNat) (htokens : HasTokens s 3 2 (s.dbBanks db.toNat))
include hidle htokens

theorem lingSearch_finds (index : BitVec 15) :
    Leaves (.lingSearch x db) s (fun u => SearchFound s u x.val (s.dbMatches db.toNat (capturedOf s x.val 1 0 db.toNat index.toNat).data)) := by
  obtain ⟨v, c', hc', hgo, hwork, hstores⟩ := State.lingGo_performs (op := 4) (i := s.rf lingWin (blockBase x.val + 0xB0) 14 0) x.isLt db.isLt hidle
    (s.lingDir x.val) (by decide) (.inl rfl) htokens
  rw [State.lingPerform_search hc'.op] at hgo
  have hfound := searchFound_lingManage (x := x) hwork hstores hc'.db (fun _ => true)
  rw [List.filter_true, hc'.data, ← (s.captured_capturedOf x.val 1 0 db.toNat index.toNat).data] at hfound
  exact ⟨_, congrArg Host.Outcome.next hgo, hfound⟩

theorem lingNextMatch_finds (hindex : index.toNat < s.dbEntries db.toNat) :
    Leaves (.lingNextMatch x db index) s (fun u => SearchFound s u x.val
      ((s.dbMatches db.toNat (capturedOf s x.val 1 0 db.toNat index.toNat).data).filter (fun e => decide (index.toNat < e)))) := by
  obtain ⟨v, c', hc', hgo, hwork, hstores⟩ := State.lingGo_performs (op := 5) x.isLt db.isLt hidle (s.lingDir x.val) (by decide) (.inr hindex) htokens
  rw [State.lingPerform_nextMatch hc'.op, hc'.index] at hgo
  have hfound := searchFound_lingManage (x := x) hwork hstores hc'.db (fun e => decide (index.toNat < e))
  rw [hc'.data, ← (s.captured_capturedOf x.val 1 0 db.toNat index.toNat).data] at hfound
  exact ⟨_, congrArg Host.Outcome.next hgo, hfound⟩

end

/-! ### RANGE and DB_DISABLED (R103) -/

theorem lingWrite_range (hidle : LingIdle s x.val db.toNat) (hindex : s.dbEntries db.toNat ≤ index.toNat) :
    Leaves (.lingWrite x db index) s (fun u => LingEnds u x.val 2 index.toNat 0 ∧ u.ling.rows = s.ling.rows ∧
      u.ling.acts = s.ling.acts ∧ OnlyLing s u) := by
  obtain ⟨hempty, hin, hbanks, -⟩ := hidle
  have htaken := s.lingWork_lingTaken x.isLt 1 (s.lingDir x.val) db.toNat index.toNat
  have hc := s.captured_capturedOf x.val 1 (s.lingDir x.val) db.toNat index.toNat
  have htry := State.lingTry_range (s := s.lingTaken x.val 1 (s.lingDir x.val) db.toNat index.toNat) x.val (by rwa [hc.db, htaken.dbBanks db.isLt])
    (by rw [hc.op]; decide) (by rwa [hc.db, hc.index, htaken.dbEntries db.isLt])
  rw [hc.index] at htry
  refine ⟨_, congrArg Host.Outcome.next (State.lingGo_completes x.isLt hin hempty htry (by rw [State.ling_lingDone, State.ling_lingLetGo])),
    State.lingEnds_lingDone _ _ _ (by decide) rfl, ?_, ?_, (State.lingWork_ended (htaken.trans (State.lingWork_lingLetGo _ _)) x.isLt _ _ _ _).only⟩
  · rw [State.rows_ended, State.ling_lingLetGo, State.ling_lingTaken]
  · rw [State.acts_ended, State.ling_lingLetGo, State.ling_lingTaken]

theorem lingSearch_disabled (hempty : s.blockCmds x.val = []) (hin : s.inService lingWin = true) (hbanks : s.dbBanks db.toNat = 0) :
    Leaves (.lingSearch x db) s (fun u => u.rf lingWin (blockBase x.val + 0xB4) 7 0 = 3 ∧ u.blockCmds x.val = [] ∧ u.ling.rows = s.ling.rows ∧
      OnlyLing s u) := by
  have htaken (i : Nat) := s.lingWork_lingTaken x.isLt 4 (s.lingDir x.val) db.toNat i
  have htry (i : Nat) := State.lingTry_disabled (s := s.lingTaken x.val 4 (s.lingDir x.val) db.toNat i)
    (c := capturedOf s x.val 4 (s.lingDir x.val) db.toNat i) x.val (((htaken i).dbBanks db.isLt).trans hbanks)
  have hgo := State.lingGo_completes x.isLt hin hempty (htry (s.rf lingWin (blockBase x.val + 0xB0) 14 0))
    (by rw [State.ling_lingDone, State.ling_lingLetGo])
  refine ⟨_, congrArg Host.Outcome.next hgo,
    State.status_lingDone _ _ _ _ _ (by decide) (by decide) (by decide) [], State.blockCmds_setBlock_self _ _ _, ?_,
    (State.lingWork_ended ((htaken _).trans (State.lingWork_lingLetGo _ _)) x.isLt _ _ _ _).only⟩
  rw [State.rows_ended, State.ling_lingLetGo, State.ling_lingTaken]

end

/-! ### The statement on Ling's commands -/

/-- Settles O33: each command of Ling, by what it is shown to leave above. -/
theorem lingCommandsReadWriteAndSearch : Obligations.LingCommandsReadWriteAndSearch := by
  unfold Obligations.LingCommandsReadWriteAndSearch
  intro s x db index d i b w c at0 holds discarded
  refine ⟨fun hidle hindex => ⟨fun htokens => ⟨?_, ?_, ?_⟩, fun htokens => ⟨?_, ?_, ?_⟩, fun htokens => ⟨?_, ?_⟩⟩,
    lingWrite_range, lingSearch_disabled⟩
  · exact lingWrite_writes hidle hindex htokens
  · exact fun hunlisted => lingWrite_discarded hidle hindex hunlisted htokens
  · exact lingRead_reads hidle hindex htokens
  · exact lingInvalidate_clears hidle hindex htokens
  · exact lingWriteAction_writes hidle hindex htokens
  · exact fun hunlisted => lingWriteAction_discarded hidle hindex hunlisted htokens
  · exact lingSearch_finds hidle htokens index
  · exact lingNextMatch_finds hidle htokens hindex

end Sys2Proof.Safety
end

section
/-! A MOVE_BLOCK that stands beyond its database: what its copy step leaves (04, R107, R108). -/

namespace Sys2Proof.Safety

open Sys2Proof.Machine

/-- The copy under way is of the row before database row 453 × 4096. Neither is in any database: LING_SLOT_MAP ends with slot 63, and where slot
453 would have its register, at 0x100 + 4 × 453, stands the counter of the entries moved, 0x814. -/
def beyondMove : LingMove := ⟨453 * 4096 - 1, true, 1, 4, 0⟩

/-- The MOVE_BLOCK at entry 4 of database 0 that makes it. -/
def beyondCmd : LingCmd := ⟨6, 0, 0, 4, 0, 0, 0, some beyondMove, false⟩

/-- Database 0 has one bank of one-row entries, and block 0 the command above; the row that is copied, 4095 of position 0, is valid. -/
def beyondState : State :=
  { State.reset with
    gath := [(lingWin, gathIn .inService none)]
    regs := [(lingWin * 65536 + 0x200, 0x1000)]
    ling := { State.reset.ling with rows := [(4095, lingRowOf 0 0 true)], blocks := [(0, [beyondCmd])] } }

/-- The step counts the copy, so that the register read for slot 453 names position 1 after it, where the copy went to position 0. -/
theorem lingMoveStep_beyondState :
    nextHolds (fun u => decide (u.entryRow 0 (453 * 4096) 0 = beyondState.entryRow 0 beyondMove.src 0)) (exec (.lingMoveStep 0) beyondState) = false := by
  decide +kernel

theorem beyondState_moves :
    beyondState.movingBlock 0 = some (0, beyondCmd, beyondMove) ∧ beyondState.serving lingWin = true ∧ beyondState.dbRows 0 = 1 ∧
    beyondState.tokensHeld 0 2 = 0 ∧ 1 ≤ beyondState.tokensLeft 0 2 := by
  decide +kernel

/-- Refutes O34, in the clause of the copy steps of a move: nothing bounds the entry that a move copies in the statement's states, so that the
position of its neighbour may be read from the counter of moves, which the step itself raises. -/
theorem not_lingMovesEntriesAndBanks : ¬ Obligations.LingMovesEntriesAndBanks := by
  rintro ⟨-, hstep, -⟩
  obtain ⟨hmoving, hserves, hrows, hheld, hleft⟩ := beyondState_moves
  have hleaves := (hstep beyondState 0 0 beyondCmd beyondMove hmoving hserves).1 Nat.one_ne_zero ⟨hheld, hrows ▸ hleft⟩ fun _ _ => ⟨rfl, rfl⟩
  have hcopied := nextHolds_of_leaves (p := fun u => decide (u.entryRow 0 (453 * 4096) 0 = beyondState.entryRow 0 beyondMove.src 0)) hleaves
    fun u ⟨hrow, _⟩ => decide_eq_true (hrow 0 (hrows ▸ Nat.one_pos))
  rw [lingMoveStep_beyondState] at hcopied
  exact Bool.noConfusion hcopied

end Sys2Proof.Safety
end

section
/-! An age sweep whose visit finds an older wait of its own in the queue: what it leaves (05, R126, R140, R141). -/

namespace Sys2Proof.Safety

open Sys2Proof.Machine

/-- Table 0 is pinned and aged. Bucket 0, which the sweep visits next, holds two entries without a hit, in ways 0 and 1. The queue of writers still has
the sweep's wait for bucket 15, as a visit that ends in an uncorrectable error leaves it, and behind that a writer that waits for bucket 0. -/
def staleWait : State :=
  { State.reset with
    gath := [(warrenWin, { State.reset.gathOf warrenWin with own := .inService })]
    regs := [(warrenWin * 65536 + 0x1000, 0xC40C8000)]
    warren := { State.reset.warren with pin := [(0, 1), (64, 1)], waitq := [(5, 0, [15]), (0, 0, [0])] } }

/-- The sweep takes its wait out of the queue with the entry of way 0, and then stands behind the writer with that of way 1. -/
theorem ageSweepVisit_staleWait :
    nextHolds (fun u => decide (u.way 0 0 1 = checked 0 0 (entSetFlag (staleWait.way 0 0 1) 0 false))) (exec (.ageSweepVisit 0) staleWait) = false := by
  decide +kernel

theorem staleWait_visits :
    staleWait.wtPlace 0 = 3 ∧ staleWait.wtCfg 0 15 15 = 1 ∧ staleWait.inService warrenWin = true ∧ staleWait.sweep 0 = ⟨0, 0, 0, false, false, none⟩ ∧
    staleWait.wConflict 5 0 [0] = false ∧ staleWait.tokensHeld 1 3 = 0 ∧ 5 ≤ staleWait.tokensLeft 1 3 := by
  decide +kernel

theorem staleWait_way :
    entFlag (staleWait.way 0 0 1) 0 = true ∧ entFlag (staleWait.way 0 0 1) 1 = false ∧ entFlag (staleWait.way 0 0 1) 2 = false := by
  decide +kernel

/-- Refutes O36, in the clause of the age sweep's visit: nothing in it keeps an older wait of the sweep out of the queue of writers. The first way that the
visit removes takes that wait out, and a writer that stood behind it then holds the visit up at the second. -/
theorem not_warrenServesLearnsAndAges : ¬ Obligations.WarrenServesLearnsAndAges := by
  rintro ⟨-, -, -, -, -, hsweep⟩
  obtain ⟨hplace, hages, hserves, hat, hfree, hheld, hleft⟩ := staleWait_visits
  obtain ⟨hvalid, hdynamic, hcold⟩ := staleWait_way
  have hvisit := hsweep staleWait 0
  dsimp only at hvisit
  rw [show (0 : BitVec 4).toNat = 0 from rfl, hat] at hvisit
  have hreach : Reach staleWait 0 0 := ⟨List.Pairwise.nil, .inl ⟨hplace, rfl⟩⟩
  have hleaves := (hvisit (hplace ▸ by decide) hages hserves hfree hreach).1 rfl (by simp) ⟨hheld, hleft⟩
  have hremoved := nextHolds_of_leaves (p := fun u => decide (u.way 0 0 1 = checked 0 0 (entSetFlag (staleWait.way 0 0 1) 0 false))) hleaves
    fun u ⟨hways, _⟩ => decide_eq_true ((hways 1 (by decide)).trans (by
      rw [if_neg (by rw [hvalid, hdynamic]; decide), if_neg (by rw [hcold]; decide)]))
  rw [ageSweepVisit_staleWait] at hremoved
  exact Bool.noConfusion hremoved

end Sys2Proof.Safety
end

section
/-! Bytes written over a stretch of a list, and what is read of it then: the entries of a bucket (05, R116, R118). -/

namespace Sys2Proof.Machine

/-! ### Lists of bytes -/

theorem getElem_bytesAt (bs : List Byte) (i n : Nat) {k : Nat} (hk : k < (bytesAt bs i n).length) : (bytesAt bs i n)[k] = byteAt bs (i + k) := by
  rw [← List.getD_eq_getElem (d := 0)]
  simp only [bytesAt, byteAt, List.getD_eq_getElem?_getD, List.getElem?_append, List.getElem?_replicate, List.getElem?_take, List.getElem?_drop,
    List.length_take, List.length_drop]
  rw [length_bytesAt] at hk
  by_cases hin : k < min n (bs.length - i)
  · rw [if_pos hin, if_pos hk]
  · rw [if_neg hin, List.getElem?_eq_none (by omega : bs.length ≤ i + k)]
    split <;> rfl

/-- Stretches of one length are the same when their bytes are. -/
theorem bytesAt_congr {bs cs : List Byte} {i j n : Nat} (h : ∀ k, k < n → byteAt bs (i + k) = byteAt cs (j + k)) : bytesAt bs i n = bytesAt cs j n := by
  refine List.ext_getElem (by rw [length_bytesAt, length_bytesAt]) fun k hk hk' => ?_
  rw [getElem_bytesAt, getElem_bytesAt]
  exact h k (by rwa [length_bytesAt] at hk)

/-- A list is the stretch of its own length. -/
theorem bytesAt_zero_length (bs : List Byte) : bytesAt bs 0 bs.length = bs := by
  simp [bytesAt]

theorem Memory.length_readBytes (m : List Host.Cell) (a n : Nat) : (Memory.readBytes m a n).length = n := by
  induction n generalizing a with
  | zero => rfl
  | succ n ih => rw [Memory.readBytes, List.length_cons, ih]

theorem length_patchBytes (bs : List Byte) (i : Nat) (new : List Byte) : (patchBytes bs i new).length = bs.length := by
  simp only [patchBytes, List.length_append, List.length_take, List.length_drop]
  omega

theorem byteAt_patchBytes {bs new : List Byte} {i : Nat} (h : i + new.length ≤ bs.length) (k : Nat) :
    byteAt (patchBytes bs i new) k = if i ≤ k ∧ k < i + new.length then byteAt new (k - i) else byteAt bs k := by
  have hnew : new.take (bs.length - i) = new := List.take_of_length_le (by omega)
  have hfirst : (bs.take i).length = i := by rw [List.length_take]; omega
  simp only [patchBytes, byteAt, hnew, List.getD_eq_getElem?_getD, List.getElem?_append, List.length_append, hfirst, List.getElem?_take,
    List.getElem?_drop]
  by_cases hbefore : k < i
  · rw [if_pos (by omega), if_pos hbefore, if_pos hbefore, if_neg (by omega)]
  · by_cases hin : k < i + new.length
    · rw [if_pos hin, if_neg hbefore, if_pos ⟨by omega, hin⟩]
    · rw [if_neg hin, if_neg (by omega), show i + new.length + (k - (i + new.length)) = k by omega]

section
variable {bs new : List Byte} {i : Nat} (h : i + new.length ≤ bs.length)
include h

theorem bytesAt_patchBytes_self : bytesAt (patchBytes bs i new) i new.length = new := by
  refine Eq.trans (bytesAt_congr (j := 0) fun k hk => ?_) (bytesAt_zero_length new)
  rw [byteAt_patchBytes h, if_pos ⟨by omega, by omega⟩, Nat.add_sub_cancel_left, Nat.zero_add]

theorem bytesAt_patchBytes_apart {j n : Nat} (hj : j + n ≤ i ∨ i + new.length ≤ j) : bytesAt (patchBytes bs i new) j n = bytesAt bs j n :=
  bytesAt_congr fun k hk => by rw [byteAt_patchBytes h, if_neg (by omega)]

end

/-! ### Entries -/

theorem length_entSetFlag (x : List Byte) (i : Nat) (v : Bool) : (entSetFlag x i v).length = x.length := length_patchBytes _ _ _

theorem length_newEntry (size : Nat) (static learned : Bool) (port : Nat) (action : Word128) (key : List Byte) :
    (newEntry size static learned port action key).length = size := length_fitBytes _ _

/-- A key cut to a table's length stays as it is. -/
theorem fitBytes_fitBytes (bs : List Byte) (n : Nat) : fitBytes (fitBytes bs n) n = fitBytes bs n := by
  have hfit := bytesAt_zero_length (fitBytes bs n)
  rwa [length_fitBytes] at hfit

namespace State

section
variable (s : State) (t : Nat)

theorem length_way (b w : Nat) : (s.way t b w).length = s.wtSize t := length_bytesAt _ _ _

theorem wtSize_cases : s.wtSize t = 64 ∨ s.wtSize t = 128 := by
  unfold State.wtSize
  split <;> simp

theorem wtKey_wtKey (key : List Byte) : s.wtKey t (s.wtKey t key) = s.wtKey t key := fitBytes_fitBytes _ _

theorem candidates_wtKey (key : List Byte) : s.candidates t (s.wtKey t key) = s.candidates t key := by
  simp only [State.candidates, wtKey_wtKey]

/-- The two candidate buckets of a key are two. -/
theorem candidates_ne (key : List Byte) : (s.candidates t key).1 ≠ (s.candidates t key).2 := by
  simp only [State.candidates]
  split
  case isTrue h =>
    intro heq
    have hzero := congrArg (fun n => (crc32c (0 :: BitVec.ofNat 8 t :: s.wtKey t key) % s.wtBuckets t) ^^^ n) heq
    simp at hzero
  case isFalse h => exact fun heq => h heq.symm

/-- Two buckets of a table lie apart. -/
theorem wtAddr_apart {b b' : Nat} (h : b' ≠ b) :
    s.wtAddr t b' + 4 * s.wtSize t ≤ s.wtAddr t b ∨ s.wtAddr t b + 4 * s.wtSize t ≤ s.wtAddr t b' := by
  simp only [State.wtAddr]
  rcases s.wtSize_cases t with hsize | hsize <;> rw [hsize] <;> omega

theorem wtAddr_ne {b b' : Nat} (h : b' ≠ b) : s.wtAddr t b' ≠ s.wtAddr t b := by
  have happart := s.wtAddr_apart t h
  rcases s.wtSize_cases t with hsize | hsize <;> rw [hsize] at happart <;> omega

end
end State
end Sys2Proof.Machine
end

section
/-! Warren's frame: what the work of an engine's block leaves of the block, of the registers and of the other blocks (05, R125, R541). -/

namespace Sys2Proof.Machine

open Sys2Proof.Safety

/-- The state without Warren, the registers, the tokens and the memory errors. -/
def State.besideWarren (s : State) : State :=
  { s with warren := State.reset.warren, regs := [], commons := State.reset.commons, mower := State.reset.mower }

namespace State

theorem besideWarren_regs (s : State) (r : SMap Word32) : ({ s with regs := r } : State).besideWarren = s.besideWarren := rfl

theorem warren_regs (s : State) (r : SMap Word32) : ({ s with regs := r } : State).warren = s.warren := rfl

theorem warren_setReg (s : State) (w off : Nat) (v : Word32) : (s.setReg w off v).warren = s.warren := s.warren_regs _

theorem besideWarren_setReg (s : State) (w off : Nat) (v : Word32) : (s.setReg w off v).besideWarren = s.besideWarren := s.besideWarren_regs _

/-! ### The queue of a block -/

section
variable (s : State) {e : Nat} (he : e < 4)
include he

theorem setQueue_block (l : List WarrenJob) :
    s.setQueue e l = s.modWarren (fun w => { w with blocks := SMap.set (fun _ => []) w.blocks e l }) := by
  simp only [State.setQueue, he, if_true]

theorem wQueue_setQueue_self (l : List WarrenJob) : (s.setQueue e l).wQueue e = l := by
  rw [s.setQueue_block he, State.wQueue, if_pos he]
  exact SMap.get_set_self _ _ _ _

theorem wQueue_setQueue_of_ne (l : List WarrenJob) {k : Nat} (h : k ≠ e) : (s.setQueue e l).wQueue k = s.wQueue k := by
  rw [s.setQueue_block he]
  simp only [State.wQueue, modWarren_warren]
  split
  · exact SMap.get_set_of_ne _ _ _ h
  · rfl

end

/-- A queue is read from Warren alone. -/
theorem wQueue_of_warren {s u : State} (h : u.warren = s.warren) (k : Nat) : u.wQueue k = s.wQueue k := by
  simp only [State.wQueue, h]

end State

/-! ### The frame -/

/-- The block of engine e has worked for table t: it has changed nothing but what OnlyWarren names, and neither the layout of the table nor the
status of its own command before this one. -/
structure WarrenWork (e t : Nat) (s u : State) : Prop where
  beside : u.besideWarren = s.besideWarren
  windows : OtherWindows s u [warrenWin, warrenEngineWin e, commonsWin, mowerWin]
  queues : ∀ k, k ≠ e → u.wQueue k = s.wQueue k
  cfg : u.reg warrenWin (0x1000 + 0x100 * t) = s.reg warrenWin (0x1000 + 0x100 * t)
  base : u.reg warrenWin (0x1004 + 0x100 * t) = s.reg warrenWin (0x1004 + 0x100 * t)
  status : u.reg (warrenEngineWin e) 0x1A8 = s.reg (warrenEngineWin e) 0x1A8

namespace WarrenWork

section
variable {e t : Nat}

theorem refl (s : State) : WarrenWork e t s s := ⟨rfl, fun _ _ _ _ => rfl, fun _ _ => rfl, rfl, rfl, rfl⟩

theorem trans {s u v : State} (h : WarrenWork e t s u) (h' : WarrenWork e t u v) : WarrenWork e t s v :=
  ⟨h'.beside.trans h.beside, fun x o hx ho => (h'.windows x o hx ho).trans (h.windows x o hx ho), fun k hk => (h'.queues k hk).trans (h.queues k hk),
    h'.cfg.trans h.cfg, h'.base.trans h.base, h'.status.trans h.status⟩

/-- What changes no register, no other block's queue and nothing beside Warren is work of the block. -/
theorem of_regs {s u : State} (hbeside : u.besideWarren = s.besideWarren) (hregs : u.regs = s.regs) (hqueues : ∀ k, k ≠ e → u.wQueue k = s.wQueue k) :
    WarrenWork e t s u :=
  ⟨hbeside, fun _ _ _ _ => State.reg_of_regs hregs _ _, hqueues, State.reg_of_regs hregs _ _, State.reg_of_regs hregs _ _,
    State.reg_of_regs hregs _ _⟩

theorem modMower (s : State) (f : MowerSt → MowerSt) : WarrenWork e t s (s.modMower f) := of_regs rfl rfl fun _ _ => rfl

theorem setQueue (s : State) (he : e < 4) (l : List WarrenJob) : WarrenWork e t s (s.setQueue e l) :=
  of_regs rfl rfl fun _ hk => s.wQueue_setQueue_of_ne he l hk

section
variable (he : e < 4) (ht : t < 16)
include he ht

/-- A register is set that is neither of a table's layout nor a block's status. -/
theorem setReg (s : State) {w off : Nat} (v : Word32) (hoff : off < 0x10000)
    (hw : w = warrenWin ∧ (off < 0x1000 ∨ 8 ≤ off % 0x100) ∨ w = warrenEngineWin e ∧ off ≠ 0x1A8 ∨ w = commonsWin ∨ w = mowerWin) :
    WarrenWork e t s (s.setReg w off v) := by
  have hne (x o : Nat) (ho : o < 0x10000) (h : (x, o) ≠ (w, off)) := s.reg_setReg_of_ne v h ho hoff
  simp only [warrenWin, warrenEngineWin, commonsWin, mowerWin] at hw
  refine ⟨s.besideWarren_setReg w off v, fun x o hx ho => hne x o ho fun heq => ?_, fun _ _ => State.wQueue_of_warren (s.warren_setReg w off v) _,
    hne _ _ (by omega) fun heq => ?_, hne _ _ (by omega) fun heq => ?_, hne _ _ (by omega) fun heq => ?_⟩
  · simp only [List.mem_cons, List.not_mem_nil, or_false, not_or, warrenWin, warrenEngineWin, commonsWin, mowerWin] at hx
    rw [Prod.mk.injEq] at heq
    omega
  all_goals
    rw [Prod.mk.injEq] at heq
    simp only [warrenWin, warrenEngineWin] at heq
    omega

/-- A counter of the table, or its number of entries, is set. -/
theorem setTableReg (s : State) {off : Nat} (v : Word32) (hlow : 8 ≤ off) (hhigh : off < 0x100) :
    WarrenWork e t s (s.setReg warrenWin (0x1000 + 0x100 * t + off) v) :=
  setReg he ht s v (by omega) (.inl ⟨rfl, .inr (by omega)⟩)

theorem wtCount (s : State) {k : Nat} (hk : k < 8) : WarrenWork e t s (s.wtCount t k) := by
  rw [State.wtCount, State.count, State.countBy, show 0x1040 + 0x100 * t + 4 * k = 0x1000 + 0x100 * t + (0x40 + 4 * k) by omega]
  exact setTableReg he ht s _ (by omega) (by omega)

theorem overlayApply (s : State) (w inst addr len : Nat) : WarrenWork e t s (s.overlayApply w inst addr len) := by
  have hdisarm (v : Word32) : WarrenWork e t s (s.setReg mowerWin 0x610 v) := setReg he ht s v (by decide) (.inr (.inr (.inr rfl)))
  simp only [State.overlayApply]
  split
  · split
    · exact hdisarm _
    · exact (hdisarm _).trans (modMower _ _)
  · exact refl s

theorem eccWrite (s : State) (w inst addr len : Nat) : WarrenWork e t s (s.eccWrite w inst addr len) := by
  simp only [State.eccWrite]
  split
  · exact refl s
  · exact (modMower s _).trans (overlayApply he ht _ _ _ _ _)

theorem wPut (s : State) (b : Nat) (data : List Byte) : WarrenWork e t s (s.wPut t b data) := by
  have hpin (f : List Host.Cell → List Host.Cell) : WarrenWork e t s (s.modWarren fun w => { w with pin := f w.pin }) :=
    of_regs rfl rfl fun _ _ => rfl
  simp only [State.wPut]
  split
  · exact (hpin fun pin => Memory.writeBytes pin _ data).trans (eccWrite he ht _ _ _ _ _)
  · exact of_regs rfl rfl fun _ _ => rfl

theorem setWay (s : State) (b w : Nat) (x : List Byte) : WarrenWork e t s (s.setWay t b w x) := by
  refine (wPut he ht s b (patchBytes (s.wBucket t b) (w * s.wtSize t) (checked t b x))).trans ?_
  rw [State.setWay, State.setRf, show 0x100C + 0x100 * t = 0x1000 + 0x100 * t + 0xC by omega]
  exact setTableReg he ht _ _ (by decide) (by decide)

/-- A rejection shows in the UCB of the block's engine. -/
theorem cfgReject (s : State) (off : Nat) : WarrenWork e t s (s.cfgReject (warrenEngineWin e) off) :=
  (setReg he ht s _ (by decide) (.inr (.inl ⟨rfl, by decide⟩))).trans (setReg he ht _ _ (by decide) (.inr (.inl ⟨rfl, by decide⟩)))

end

section
variable {s u : State} (h : WarrenWork e t s u)
include h

theorem only : OnlyWarren s u e :=
  ⟨show { u.besideWarren with warren := u.warren, regs := u.regs, commons := u.commons, mower := u.mower } = _ by rw [h.beside]; rfl, h.windows,
    fun k _ hk => h.queues k hk⟩

/-! ### The layout of the table (R114 to R119) -/

theorem wtCfg (hi lo : Nat) : u.wtCfg t hi lo = s.wtCfg t hi lo := by rw [State.wtCfg, State.rf, h.cfg, State.wtCfg, State.rf]
theorem wtPlace : u.wtPlace t = s.wtPlace t := h.wtCfg _ _
theorem wtSize : u.wtSize t = s.wtSize t := by rw [State.wtSize, h.wtCfg, State.wtSize]
theorem wtBuckets : u.wtBuckets t = s.wtBuckets t := by rw [State.wtBuckets, h.wtCfg, State.wtBuckets]
theorem wtKeyLen : u.wtKeyLen t = s.wtKeyLen t := h.wtCfg _ _
theorem wtAddr (b : Nat) : u.wtAddr t b = s.wtAddr t b := by rw [State.wtAddr, State.wtBase, State.rf, h.base, h.wtSize, State.wtAddr, State.wtBase, State.rf]
theorem wtKey (key : List Byte) : u.wtKey t key = s.wtKey t key := by rw [State.wtKey, h.wtKeyLen, State.wtKey]
theorem candidates (key : List Byte) : u.candidates t key = s.candidates t key := by
  simp only [State.candidates, h.wtKey, h.wtBuckets]

theorem inService (w : Nat) : u.inService w = s.inService w := show u.besideWarren.inService w = s.besideWarren.inService w by rw [h.beside]

end
end
end WarrenWork
end Sys2Proof.Machine
end

section
/-! Warren's buckets in reach: a read leaves what every bucket holds, and a write of one way leaves every other way (05, R121 to R123). -/

namespace Sys2Proof.Machine

open Sys2Proof.Safety

/-! ### Lists in which one element at most holds a property -/

theorem find?_eq_some_iff_of_unique {α : Type} {p : α → Bool} {l : List α} (h : l.Pairwise fun x y => ¬ (p x = true ∧ p y = true)) (x : α) :
    l.find? p = some x ↔ x ∈ l ∧ p x = true := by
  refine ⟨fun hfind => ⟨List.mem_of_find?_eq_some hfind, List.find?_some hfind⟩, ?_⟩
  rintro ⟨hmem, hp⟩
  induction l with
  | nil => exact absurd hmem List.not_mem_nil
  | cons y l ih =>
    obtain ⟨hfirst, hrest⟩ := List.pairwise_cons.1 h
    rcases List.mem_cons.1 hmem with rfl | hmem
    · exact List.find?_cons_of_pos hp
    · rw [List.find?_cons_of_neg fun hy => hfirst x hmem ⟨hy, hp⟩]
      exact ih hrest hmem

theorem find?_perm_of_unique {α : Type} {p : α → Bool} {l m : List α} (h : l.Pairwise fun x y => ¬ (p x = true ∧ p y = true)) (hperm : m.Perm l) :
    m.find? p = l.find? p := by
  have hm := hperm.symm.pairwise h fun {x y} hxy => fun ⟨hy, hx⟩ => hxy ⟨hx, hy⟩
  exact Option.ext fun x => (find?_eq_some_iff_of_unique hm x).trans ((and_congr_left fun _ => hperm.mem_iff).trans (find?_eq_some_iff_of_unique h x).symm)

/-! ### Lines of the cache -/

/-- Two lines that hold different buckets. -/
def WarrenLine.Apart (l l' : WarrenLine) : Prop := l.table ≠ l'.table ∨ l.addr ≠ l'.addr

theorem WarrenLine.Apart.symm {l l' : WarrenLine} (h : l.Apart l') : l'.Apart l := h.imp Ne.symm Ne.symm

namespace State

theorem wLine_perm {s u : State} (hapart : s.warren.lines.Pairwise WarrenLine.Apart) (hperm : u.warren.lines.Perm s.warren.lines) (table : Bool)
    (a : Nat) : u.wLine table a = s.wLine table a := by
  refine find?_perm_of_unique (hapart.imp fun {l l'} hl => ?_) hperm
  simp only [Bool.and_eq_true, beq_iff_eq]
  rintro ⟨⟨htable, haddr⟩, htable', haddr'⟩
  exact hl.elim (· (htable.trans htable'.symm)) (· (haddr.trans haddr'.symm))

/-- A bucket in reach is read at once, and no line leaves the cache or enters it. -/
theorem wLoad_reach {s : State} {t b : Nat} (h : Reach s t b) (src : WSource) :
    ∃ lines, s.wLoad t b src = (.ok false, s.modWarren fun w => { w with lines := lines }) ∧ lines.Perm s.warren.lines := by
  obtain ⟨-, ⟨hplace, hclean⟩ | ⟨-, hplace, l, hline, -⟩⟩ := h
  · refine ⟨s.warren.lines, ?_, List.Perm.refl _⟩
    simp only [State.wLoad, State.eccRead, hplace, hclean]
    rfl
  · refine ⟨s.warren.lines.erase l ++ [l], ?_, ?_⟩
    · simp only [State.wLoad, if_neg hplace, hline]
      rfl
    · have hmem : l ∈ s.warren.lines := List.mem_of_find?_eq_some hline
      exact (List.perm_append_comm (l₁ := s.warren.lines.erase l) (l₂ := [l])).trans (List.perm_cons_erase hmem).symm

/-- A bucket in reach has the bytes of four ways. -/
theorem length_wBucket {s : State} {t b : Nat} (h : Reach s t b) : (s.wBucket t b).length = 4 * s.wtSize t := by
  obtain ⟨-, ⟨hplace, -⟩ | ⟨-, hplace, l, hline, hlength⟩⟩ := h
  · simp only [State.wBucket, if_pos hplace, Memory.length_readBytes]
  · simp only [State.wBucket, if_neg hplace, hline, hlength]

/-- A bucket in reach is in the pinned cache or in a line of the other. -/
theorem wInReach_reach {s : State} {t b : Nat} (h : Reach s t b) : s.wInReach t b = true := by
  obtain ⟨-, ⟨hplace, -⟩ | ⟨-, -, l, hline, -⟩⟩ := h
  · simp only [State.wInReach, decide_eq_true hplace, Bool.true_or]
  · simp only [State.wInReach, hline, Option.isSome_some, Bool.or_true]

theorem wHolds_reach {s : State} {t b : Nat} (h : Reach s t b) : s.wHolds t b = false := by
  obtain ⟨-, ⟨hplace, -⟩ | ⟨-, -, l, hline, -⟩⟩ := h
  · simp [State.wHolds, hplace]
  · simp [State.wHolds, hline]

@[simp] theorem warren_eccWrite (s : State) (w inst addr len : Nat) : (s.eccWrite w inst addr len).warren = s.warren :=
  show (s.eccWrite w inst addr len).beyondCells.warren = s.beyondCells.warren by rw [beyondCells_eccWrite]

end State

namespace WarrenWork

section
variable {e t : Nat} {s u : State} (h : WarrenWork e t s u)
include h

theorem wBucket (hpin : u.warren.pin = s.warren.pin) (hline : ∀ table a, u.wLine table a = s.wLine table a) (b : Nat) :
    u.wBucket t b = s.wBucket t b := by
  simp only [State.wBucket, h.wtPlace, h.wtAddr, h.wtSize, hpin, hline]

theorem way {b : Nat} (hbucket : u.wBucket t b = s.wBucket t b) (w : Nat) : u.way t b w = s.way t b w := by
  rw [State.way, hbucket, h.wtSize, State.way]

theorem way_of_warren (hwarren : u.warren = s.warren) (b w : Nat) : u.way t b w = s.way t b w :=
  h.way (h.wBucket (by rw [hwarren]) (fun _ _ => by rw [State.wLine, hwarren, State.wLine]) b) w

theorem reach (hperm : u.warren.lines.Perm s.warren.lines) (hmower : u.mower = s.mower) {b : Nat} (hreach : Reach s t b) : Reach u t b := by
  obtain ⟨hapart, hin⟩ := hreach
  refine ⟨hperm.symm.pairwise hapart WarrenLine.Apart.symm, ?_⟩
  rwa [h.wtPlace, h.wtAddr, h.wtSize, State.errsIn_of_mower hmower, State.wLine_perm hapart hperm]

end
end WarrenWork

/-! ### Writes of ways -/

namespace State

section
variable {s : State} {t b : Nat} (ht : t < 16) (hreach : Reach s t b)
include ht hreach

theorem wBucket_wPut {data : List Byte} (hdata : data.length = 4 * s.wtSize t) (b' : Nat) :
    (s.wPut t b data).wBucket t b' = if b' = b then data else s.wBucket t b' := by
  have hwork := WarrenWork.wPut (e := 0) (by decide) ht s b data
  obtain ⟨-, ⟨hplace, -⟩ | ⟨-, hplace, l, hline, -⟩⟩ := hreach
  · have hpin : (s.wPut t b data).warren.pin = Memory.writeBytes s.warren.pin (s.wtAddr t b) data := by
      simp only [State.wPut, if_pos hplace, warren_eccWrite, modWarren_warren]
    simp only [State.wBucket, hwork.wtPlace, hwork.wtAddr, hwork.wtSize, if_pos hplace, hpin]
    split
    case isTrue h => rw [h, ← hdata, Memory.readBytes_writeBytes_self]
    case isFalse h => exact Memory.readBytes_writeBytes_apart _ _ _ _ _ (by rw [hdata]; exact s.wtAddr_apart t h)
  · have hfind (a : Nat) : (s.wPut t b data).wLine (decide (s.wtPlace t = 2)) a =
        (s.wLine (decide (s.wtPlace t = 2)) a).map fun l =>
          if l.table == decide (s.wtPlace t = 2) && l.addr == s.wtAddr t b then { l with data := data, dirty := true } else l := by
      simp only [State.wLine, State.wPut, if_neg hplace, modWarren_warren, List.find?_map]
      congr 2
      funext l
      dsimp only [Function.comp]
      split <;> rfl
    simp only [State.wBucket, hwork.wtPlace, hwork.wtAddr, hwork.wtSize, if_neg hplace, hfind]
    by_cases hb : b' = b
    · have hl := List.find?_some hline
      rw [if_pos hb, hb, hline, Option.map_some]
      exact congrArg WarrenLine.data (if_pos hl)
    · rw [if_neg hb]
      cases hother : s.wLine (decide (s.wtPlace t = 2)) (s.wtAddr t b') with
      | none => rfl
      | some l' =>
        have hl' := List.find?_some hother
        simp only [Bool.and_eq_true, beq_iff_eq] at hl'
        refine congrArg WarrenLine.data (if_neg ?_)
        simp only [Bool.and_eq_true, beq_iff_eq, hl'.2]
        exact fun heq => s.wtAddr_ne t hb heq.2

/-- A way put into a bucket in reach is there, and every other way is as it was. -/
theorem ways_wPut {w : Nat} {x : List Byte} (hx : x.length = s.wtSize t) (hw : w < 4) :
    (s.wPut t b (patchBytes (s.wBucket t b) (w * s.wtSize t) x)).way t b w = x ∧
    OtherWays s (s.wPut t b (patchBytes (s.wBucket t b) (w * s.wtSize t) x)) t b w := by
  have hlength := length_wBucket hreach
  have hfits : w * s.wtSize t + x.length ≤ (s.wBucket t b).length := by
    rw [hlength, hx]
    rcases s.wtSize_cases t with hsize | hsize <;> rw [hsize] <;> omega
  have hbucket := wBucket_wPut ht hreach ((length_patchBytes (s.wBucket t b) (w * s.wtSize t) x).trans hlength)
  have hwork := WarrenWork.wPut (e := 0) (by decide) ht s b (patchBytes (s.wBucket t b) (w * s.wtSize t) x)
  refine ⟨?_, fun b' w' hw' hne => ?_⟩
  · rw [State.way, hbucket, if_pos rfl, hwork.wtSize]
    have hself := bytesAt_patchBytes_self hfits
    rwa [hx] at hself
  · by_cases hb : b' = b
    · subst hb
      have hw'' : w' ≠ w := fun heq => hne (by rw [heq])
      rw [State.way, hbucket, if_pos rfl, hwork.wtSize, State.way]
      refine bytesAt_patchBytes_apart hfits ?_
      rw [hx]
      rcases s.wtSize_cases t with hsize | hsize <;> rw [hsize] <;> omega
    · exact hwork.way ((hbucket b').trans (if_neg hb)) w'

theorem ways_setWay {w : Nat} {x : List Byte} (hx : x.length = s.wtSize t) (hw : w < 4) :
    (s.setWay t b w x).way t b w = checked t b x ∧ OtherWays s (s.setWay t b w x) t b w := by
  obtain ⟨hself, hother⟩ := ways_wPut ht hreach ((length_patchBytes x 4 _).trans hx : (checked t b x).length = s.wtSize t) hw
  have hwork (v : Word32) := WarrenWork.setTableReg (e := 0) (by decide) ht (s.wPut t b (patchBytes (s.wBucket t b) (w * s.wtSize t) (checked t b x)))
    (off := 0xC) v (by decide) (by decide)
  rw [show 0x1000 + 0x100 * t + 0xC = 0x100C + 0x100 * t by omega] at hwork
  have hkept (v : Word32) (b' w' : Nat) := (hwork v).way_of_warren (warren_setReg _ _ _ _) b' w'
  exact ⟨(hkept _ b w).trans hself, fun b' w' hw' hne => (hkept _ b' w').trans (hother b' w' hw' hne)⟩

end
end State
end Sys2Proof.Machine
end

section
/-! A command of an engine's block under way: the tokens it draws, the buckets it reads and the key it looks for (05, R117, R121 to R126, R143). -/

namespace Sys2Proof.Machine

open Sys2Proof.Safety

/-! ### Tokens of Warren (R143, R421) -/

namespace State

section
variable (s : State)

/-- A token of class c is drawn and counted. -/
def tokenDrawn (s : State) (c : Nat) : State :=
  ((s.setTokens c 3 (s.tokensLeft c 3 - 1)).setHeld c 3 0 0).countBy commonsWin 0x24C 1

theorem draw_granted {c n : Nat} (h : HasTokens s c 3 (n + 1)) : s.draw c 3 = (true, s.tokenDrawn c) := by
  obtain ⟨hheld, hleft⟩ := h
  rw [State.tokensHeld] at hheld
  simp only [State.draw, State.drawFor, hheld, ne_eq, not_true_eq_false, false_and, if_false, Nat.zero_add, Nat.sub_zero]
  rw [if_pos (by omega)]
  rfl

theorem commons_tokenDrawn (c : Nat) :
    (s.tokenDrawn c).commons = ((s.setTokens c 3 (s.tokensLeft c 3 - 1)).setHeld c 3 0 0).commons := commons_setReg _ _ _ _

theorem hasTokens_tokenDrawn {c n : Nat} (h : HasTokens s c 3 (n + 1)) : HasTokens (s.tokenDrawn c) c 3 n := by
  obtain ⟨-, hleft⟩ := h
  have hheld : ((s.setTokens c 3 (s.tokensLeft c 3 - 1)).setHeld c 3 0 0).heldBy c 3 = (0, 0) := by
    simp [State.heldBy, State.setHeld]
  have hset : ((s.setTokens c 3 (s.tokensLeft c 3 - 1)).setHeld c 3 0 0).tokensLeft c 3 = s.tokensLeft c 3 - 1 := SMap.get_set_self _ _ _ _
  refine hasTokens_of_commons (s.commons_tokenDrawn c) ⟨?_, by omega⟩
  rw [State.tokensHeld, hheld]

theorem warren_tokenDrawn (c : Nat) : (s.tokenDrawn c).warren = s.warren := warren_setReg _ _ _ _
theorem mower_tokenDrawn (c : Nat) : (s.tokenDrawn c).mower = s.mower := mower_setReg _ _ _ _

theorem reg_tokenDrawn (c : Nat) {o : Nat} (ho : o < 0x10000) : (s.tokenDrawn c).reg warrenWin o = s.reg warrenWin o := by
  rw [tokenDrawn, State.countBy, reg_setReg_of_ne _ _ (by simp [warrenWin, commonsWin]) ho (by decide)]
  rfl

theorem warrenWork_tokenDrawn {e t : Nat} (he : e < 4) (ht : t < 16) (c : Nat) : WarrenWork e t s (s.tokenDrawn c) :=
  have hset (m : CommonsSt) : WarrenWork e t s { s with commons := m } := WarrenWork.of_regs rfl rfl fun _ _ => rfl
  (hset _).trans (WarrenWork.setReg he ht _ (off := 0x24C) _ (by decide) (.inr (.inr (.inl rfl))))

end
end State

/-! ### A command under way -/

/-- The block of engine e serves command j on table t, and has written nothing: the n tokens that it still needs are left. -/
structure WarrenServes (s : State) (e t : Nat) (j : WarrenJob) (n : Nat) (u : State) : Prop where
  work : WarrenWork e t s u
  queue : u.wQueue e = [j]
  buckets : ∀ b, u.wBucket t b = s.wBucket t b
  lines : u.warren.lines.Perm s.warren.lines
  mower : u.mower = s.mower
  tokens : n ≠ 0 → HasTokens u 3 3 n
  counts : ∀ k, 3 ≤ k → k < 8 → u.reg warrenWin (0x1040 + 0x100 * t + 4 * k) = s.reg warrenWin (0x1040 + 0x100 * t + 4 * k)

namespace WarrenServes

section
variable {s u : State} {e t n : Nat} {j : WarrenJob} (h : WarrenServes s e t j n u)
include h

theorem front : u.wFront e = some j := by rw [State.wFront, h.queue]; rfl
theorem way (b w : Nat) : u.way t b w = s.way t b w := h.work.way (h.buckets b) w
theorem reach {b : Nat} (hreach : Reach s t b) : Reach u t b := h.work.reach h.lines h.mower hreach

theorem freeWay (b : Nat) : u.freeWay t b = s.freeWay t b := by simp only [State.freeWay, h.way]

/-- Work that touches Warren not at all. -/
theorem beside {v : State} {m : Nat} (hwork : WarrenWork e t u v) (hwarren : v.warren = u.warren) (hmower : v.mower = u.mower)
    (htokens : m ≠ 0 → HasTokens v 3 3 m)
    (hcounts : ∀ k, 3 ≤ k → k < 8 → v.reg warrenWin (0x1040 + 0x100 * t + 4 * k) = u.reg warrenWin (0x1040 + 0x100 * t + 4 * k)) :
    WarrenServes s e t j m v where
  work := h.work.trans hwork
  queue := (State.wQueue_of_warren hwarren e).trans h.queue
  buckets b := (hwork.wBucket (by rw [hwarren]) (fun _ _ => by rw [State.wLine, hwarren, State.wLine]) b).trans (h.buckets b)
  lines := hwarren ▸ h.lines
  mower := hmower.trans h.mower
  tokens := htokens
  counts k hlow hhigh := (hcounts k hlow hhigh).trans (h.counts k hlow hhigh)

/-- A change of Warren that keeps what its stores hold. -/
theorem modWarren (f : WarrenSt → WarrenSt) {k : WarrenJob} (hpin : (f u.warren).pin = u.warren.pin)
    (hline : ∀ table a, (u.modWarren f).wLine table a = u.wLine table a) (hlines : (f u.warren).lines.Perm u.warren.lines)
    (hqueue : (u.modWarren f).wQueue e = [k]) (hothers : ∀ k, k ≠ e → (u.modWarren f).wQueue k = u.wQueue k) :
    WarrenServes s e t k n (u.modWarren f) := by
  have hwork : WarrenWork e t u (u.modWarren f) := WarrenWork.of_regs rfl rfl hothers
  exact ⟨h.work.trans hwork, hqueue, fun b => (hwork.wBucket hpin hline b).trans (h.buckets b), hlines.trans h.lines, h.mower, h.tokens, h.counts⟩

/-- A bucket is read. -/
theorem load {b : Nat} (hreach : Reach s t b) (src : WSource) : ∃ v, u.wLoad t b src = (.ok false, v) ∧ WarrenServes s e t j n v := by
  have hapart := (h.reach hreach).1
  obtain ⟨lines, hload, hperm⟩ := State.wLoad_reach (h.reach hreach) src
  exact ⟨_, hload, h.modWarren _ rfl (fun table a => State.wLine_perm hapart hperm table a) hperm h.queue fun _ _ => rfl⟩

section
variable (he : e < 4)
include he

/-- The command in front is replaced. -/
theorem setFront {k : WarrenJob} (hk : k.who = e) : WarrenServes s e t k n (u.setFront k) := by
  have hset : u.setFront k = u.setQueue e [k] := by rw [State.setFront, hk, h.queue]; rfl
  have hqueue := u.wQueue_setQueue_self he [k]
  have hothers (k' : Nat) (hk' : k' ≠ e) := u.wQueue_setQueue_of_ne he [k] hk'
  rw [hset]
  rw [u.setQueue_block he] at hqueue hothers ⊢
  exact h.modWarren _ rfl (fun _ _ => rfl) (List.Perm.refl _) hqueue hothers

theorem modFront {f : WarrenJob → WarrenJob} (hf : (f j).who = e) : WarrenServes s e t (f j) n (u.modFront e f) := by
  rw [State.modFront, h.front]
  exact h.setFront he hf

/-- Ownership that nobody disputes is taken. -/
theorem own (hwho : j.who = e) {b : Nat} {bs : List Nat} (hnone : j.owns = []) (hfree : u.wConflict e j.table (b :: bs) = false) :
    ∃ v, u.wOwn j (b :: bs) = (true, v) ∧ WarrenServes s e t { j with owns := b :: bs } n v := by
  refine ⟨_, ?_, (h.setFront he (k := { j with owns := b :: bs }) hwho).modWarren (fun w => { w with waitq := w.waitq.filter (fun q => q.1 != j.who) })
    rfl (fun _ _ => rfl) (List.Perm.refl _) ((h.setFront he (k := { j with owns := b :: bs }) hwho).queue) fun _ _ => rfl⟩
  simp only [State.wOwn, hnone, List.all_cons, List.contains_nil, Bool.false_and, Bool.false_eq_true, if_false, hwho, hfree]

variable (ht : t < 16)
include ht

/-- A counter of lookups counts one more. -/
theorem wtCount {k : Nat} (hk : k < 3) : WarrenServes s e t j n (u.wtCount t k) :=
  h.beside (WarrenWork.wtCount he ht u (by omega)) (State.warren_setReg _ _ _ _) (State.mower_setReg _ _ _ _)
    (fun hn => State.hasTokens_of_commons (State.commons_setReg _ _ _ _) (h.tokens hn)) fun i hlow _ => State.reg_count_of_off_ne _ _ (by omega)

end
end

section
variable {s u : State} {e t n : Nat} {j : WarrenJob} (h : WarrenServes s e t j (n + 1) u) (he : e < 4) (ht : t < 16) (hwho : j.who = e)
include h he ht hwho

/-- A token of TABLE_UPDATE is drawn. -/
theorem draw : ∃ v, u.wDrawOne e = (true, v) ∧ WarrenServes s e t j n v := by
  have htokens := h.tokens (Nat.succ_ne_zero n)
  refine ⟨u.tokenDrawn 3, ?_, h.beside (u.warrenWork_tokenDrawn he ht 3) (u.warren_tokenDrawn 3) (u.mower_tokenDrawn 3)
    (fun _ => u.hasTokens_tokenDrawn htokens) fun k _ hk => u.reg_tokenDrawn 3 (by omega)⟩
  have hclass : j.cls = some 3 := by rw [WarrenJob.cls, if_pos (hwho ▸ he)]
  simp only [State.wDrawOne, h.front, Option.bind_some, hclass]
  exact u.draw_granted htokens

/-- The first bucket of a list is read, with its token. -/
theorem reads {b : Nat} (bs : List Nat) (hreach : Reach s t b) (hpaid : j.paid = none) (hnew : b ∉ j.read) :
    ∃ v, u.wReads e t (b :: bs) = v.wReads e t bs ∧ WarrenServes s e t { j with read := b :: j.read } n v := by
  obtain ⟨v1, hdraw, h1⟩ := h.draw he ht hwho
  have h2 := h1.modFront he (f := fun k => { k with paid := some b }) hwho
  obtain ⟨v3, hload, h3⟩ := h2.load hreach j.source
  have h4 := h3.modFront he (f := fun k => { k with paid := none, read := b :: k.read.erase b, fromMem := k.fromMem || false }) hwho
  have hjob : { j with paid := none, read := b :: j.read.erase b, fromMem := j.fromMem || false } = { j with read := b :: j.read } := by
    rw [List.erase_of_not_mem hnew, Bool.or_false, ← hpaid]
  refine ⟨_, ?_, hjob ▸ h4⟩
  have hcontains : j.read.contains b = false := by simpa using hnew
  rw [State.wReads, h.front]
  simp only [hcontains, Bool.false_and, Bool.false_eq_true, if_false, hpaid, reduceCtorEq, hdraw, hload]

end

/-- A bucket that has been read and is in reach is not read again. -/
theorem reads_again {s u : State} {e t n : Nat} {j : WarrenJob} (h : WarrenServes s e t j n u) {b : Nat} (hreach : Reach s t b) (hread : b ∈ j.read) :
    u.wReads e t [b] = (.ok false, u) := by
  have hcontains : j.read.contains b = true := by simpa using hread
  rw [State.wReads, h.front]
  simp only [hcontains, State.wInReach_reach (h.reach hreach), Bool.and_self, if_true, State.wReads]

end WarrenServes

/-! ### The search for a key (R117, R123) -/

namespace State

/-- A way holds a key, whatever its check code. -/
def wayHas (s : State) (t : Nat) (key : List Byte) (p : Nat × Nat) : Bool :=
  entFlag (s.way t p.1 p.2) 0 && bytesAt (s.way t p.1 p.2) 0x20 (s.wtKeyLen t) == key

/-- A way stores the check code of its place. -/
def wayRight (s : State) (t : Nat) (p : Nat × Nat) : Prop := leNat (bytesAt (s.way t p.1 p.2) 4 4) = entCheck t p.1 (s.way t p.1 p.2)

/-- One way of a search. -/
def findStep (t : Nat) (key : List Byte) (acc : Option (Nat × Nat) × State) (p : Nat × Nat) : Option (Nat × Nat) × State :=
  let x := acc.2.way t p.1 p.2
  if acc.1.isSome || !entFlag x 0 || bytesAt x 0x20 (acc.2.wtKeyLen t) != key then acc
  else if leNat (bytesAt x 4 4) = entCheck t p.1 x then (some p, acc.2)
  else (none, acc.2.checkFail t p.1 p.2)

theorem findKey_eq_foldl (s : State) (t : Nat) (key : List Byte) (bs : List Nat) :
    s.findKey t key bs = (waysOf bs).foldl (findStep t key) (none, s) := rfl

section
variable {s : State} {t : Nat} {key : List Byte}

theorem not_wayHas (p : Nat × Nat) :
    (!entFlag (s.way t p.1 p.2) 0 || bytesAt (s.way t p.1 p.2) 0x20 (s.wtKeyLen t) != key) = !s.wayHas t key p := by
  rw [wayHas, Bool.not_and]; rfl

theorem foldl_findStep_found (p : Nat × Nat) (ws : List (Nat × Nat)) : ws.foldl (findStep t key) (some p, s) = (some p, s) :=
  List.foldlRecOn (motive := fun acc => acc = (some p, s)) ws _ rfl fun acc hacc x _ => by rw [hacc]; rfl

variable {ws : List (Nat × Nat)} (hright : ∀ p ∈ ws, s.wayHas t key p = true → s.wayRight t p)
include hright

/-- A search in which no check code is wrong finds the first way that holds the key, and changes nothing. -/
theorem foldl_findStep : ws.foldl (findStep t key) (none, s) = (ws.find? (s.wayHas t key), s) := by
  induction ws with
  | nil => rfl
  | cons p ws ih =>
    rw [List.foldl_cons, findStep]
    simp only [Option.isSome_none, Bool.false_or, not_wayHas]
    cases hp : s.wayHas t key p with
    | false =>
      rw [List.find?_cons_of_neg (by rw [hp]; exact Bool.false_ne_true)]
      exact ih fun q hq => hright q (List.mem_cons_of_mem _ hq)
    | true =>
      have hcheck : leNat (bytesAt (s.way t p.1 p.2) 4 4) = entCheck t p.1 (s.way t p.1 p.2) := hright p List.mem_cons_self hp
      rw [List.find?_cons_of_pos hp, Bool.not_true, if_neg Bool.false_ne_true, if_pos hcheck]
      exact foldl_findStep_found p ws

/-- Where no check code is wrong, no way is invalidated before a search. -/
theorem purgeWays_right (who : Nat) : s.purgeWays who t key ws = (true, s) := by
  induction ws with
  | nil => rfl
  | cons p ws ih =>
    rw [State.purgeWays]
    simp only [not_wayHas p]
    cases hp : s.wayHas t key p with
    | false => exact ih fun q hq => hright q (List.mem_cons_of_mem _ hq)
    | true =>
      have hcheck : leNat (bytesAt (s.way t p.1 p.2) 4 4) = entCheck t p.1 (s.way t p.1 p.2) := hright p List.mem_cons_self hp
      rw [Bool.not_true, if_neg Bool.false_ne_true, if_pos hcheck]

end

theorem mem_waysOf_pair {b0 b1 : Nat} {p : Nat × Nat} : p ∈ waysOf [b0, b1] ↔ (p.1 = b0 ∨ p.1 = b1) ∧ p.2 < 4 := by
  obtain ⟨b, w⟩ := p
  simp only [waysOf, List.flatMap_cons, List.flatMap_nil, List.append_nil, List.mem_append, List.mem_map, List.mem_range, Prod.mk.injEq]
  constructor
  · rintro (⟨_, hw, rfl, rfl⟩ | ⟨_, hw, rfl, rfl⟩)
    · exact ⟨.inl rfl, hw⟩
    · exact ⟨.inr rfl, hw⟩
  · rintro ⟨rfl | rfl, hw⟩
    · exact .inl ⟨_, hw, rfl, rfl⟩
    · exact .inr ⟨_, hw, rfl, rfl⟩

end State

namespace WarrenServes

section
variable {s u : State} {e t n : Nat} {j : WarrenJob} (h : WarrenServes s e t j n u) {key : List Byte}
include h

theorem wayHas_iff {p : Nat × Nat} (hp : p.2 < 4) : u.wayHas t key p = true ↔ WayHolds s t p.1 p.2 key := by
  rw [State.wayHas, h.way, h.work.wtKeyLen, Bool.and_eq_true, beq_iff_eq, WayHolds, and_iff_right hp]

/-- The search for a key that is absent. -/
theorem search_absent (habsent : KeyAbsent s t key) (who : Nat) :
    let bs := [(s.candidates t key).1, (s.candidates t key).2]
    u.purgeWays who t key (waysOf bs) = (true, u) ∧ u.findKey t key bs = (none, u) := by
  intro bs
  have hnone : ∀ p ∈ waysOf bs, ¬ u.wayHas t key p = true := fun p hp hhas =>
    let ⟨hbucket, hw⟩ := State.mem_waysOf_pair.1 hp
    habsent p.1 p.2 hbucket ((h.wayHas_iff hw).1 hhas)
  have hright : ∀ p ∈ waysOf bs, u.wayHas t key p = true → u.wayRight t p := fun p hp hhas => absurd hhas (hnone p hp)
  rw [State.findKey_eq_foldl, State.foldl_findStep hright, List.find?_eq_none.2 hnone]
  exact ⟨State.purgeWays_right hright who, rfl⟩

/-- The search for a key that one way holds. -/
theorem search_at {b w : Nat} (hat : KeyAt s t key b w) (who : Nat) :
    let bs := [(s.candidates t key).1, (s.candidates t key).2]
    u.purgeWays who t key (waysOf bs) = (true, u) ∧ u.findKey t key bs = (some (b, w), u) := by
  intro bs
  obtain ⟨hbucket, hholds, hcheck, hone⟩ := hat
  have honly : ∀ p ∈ waysOf bs, u.wayHas t key p = true → p = (b, w) := fun p hp hhas =>
    let ⟨hbucket', hw⟩ := State.mem_waysOf_pair.1 hp
    Prod.ext_iff.2 (hone p.1 p.2 hbucket' ((h.wayHas_iff hw).1 hhas))
  have hright : ∀ p ∈ waysOf bs, u.wayHas t key p = true → u.wayRight t p := fun p hp hhas => by
    rw [honly p hp hhas, State.wayRight, h.way]
    exact hcheck
  have hmem : (b, w) ∈ waysOf bs := State.mem_waysOf_pair.2 ⟨hbucket, hholds.1⟩
  have hhas : u.wayHas t key (b, w) = true := (h.wayHas_iff hholds.1).2 hholds
  have hfind : (waysOf bs).find? (u.wayHas t key) = some (b, w) := by
    cases hfound : (waysOf bs).find? (u.wayHas t key) with
    | none => exact absurd hhas (List.find?_eq_none.1 hfound _ hmem)
    | some p => rw [honly p (List.mem_of_find?_eq_some hfound) (List.find?_some hfound)]
  rw [State.findKey_eq_foldl, State.foldl_findStep hright, hfind]
  exact ⟨State.purgeWays_right hright who, rfl⟩

end
end WarrenServes
end Sys2Proof.Machine
end

section
/-! How a command of an engine's block begins and how it ends: a go is taken by the engine, and its end stands in the queue until WARREN_CMD_DONE
(05, R125, R126, R144, R541). -/

namespace Sys2Proof.Machine

open Sys2Proof.Safety

/-! ### Ends -/

/-- A command has ended with x, and every way of the table is as it was. -/
def EndsUnchanged (s u : State) (e t : Nat) (x : WarrenEnd) : Prop := WarrenEnds u e x ∧ SameWays s u t ∧ OnlyWarren s u e

/-- A command has ended after the write of one way. -/
def EndsWritten (s u : State) (e t b w : Nat) (x : List Byte) : Prop :=
  u.way t b w = checked t b x ∧ WarrenEnds u e (endEntry 0 b w x) ∧ OtherWays s u t b w ∧ OnlyWarren s u e

/-- A command has ended as R541 has it: no way is written, cfg_reject is set, and the status is left. -/
def EndsRefused (s u : State) (e t : Nat) : Prop :=
  EndsUnchanged s u e t (endCode 256) ∧ (u.reg (warrenEngineWin e) 0x20).getLsbD 0 = true ∧
  u.reg (warrenEngineWin e) 0x1A8 = s.reg (warrenEngineWin e) 0x1A8

/-- The queue of a block is not touched by a write of a bucket. -/
theorem State.wQueue_wPut (s : State) (t b : Nat) (data : List Byte) (k : Nat) : (s.wPut t b data).wQueue k = s.wQueue k := by
  simp only [State.wPut]
  split
  · exact State.wQueue_of_warren (u := State.eccWrite _ _ _ _ _) (State.warren_eccWrite _ _ _ _ _) k
  · rfl

theorem State.wQueue_setWay (s : State) (t b w : Nat) (x : List Byte) (k : Nat) : (s.setWay t b w x).wQueue k = s.wQueue k :=
  (State.wQueue_of_warren (State.warren_setReg _ _ _ _) k).trans (s.wQueue_wPut _ _ _ k)

/-- A write of a way leaves the registers of Warren as they are, but the one that shows how many entries the table holds. -/
theorem State.reg_setWay (s : State) (t b w : Nat) (x : List Byte) {o : Nat} (hlow : 0x200 ≤ o) (hhigh : o < 0x10000)
    (hne : o ≠ 0x100C + 0x100 * t) : (s.setWay t b w x).reg warrenWin o = s.reg warrenWin o := by
  refine (State.reg_setReg_of_off_ne _ _ _ hne).trans ?_
  simp only [State.wPut]
  split
  · exact State.reg_of_lowRegs (State.lowRegs_eccWrite _ _ _ _ _) (by decide) hlow hhigh
  · rfl

section
variable {s u : State} {e t n : Nat} {j k : WarrenJob} (he : e < 4) (hwho : j.who = e)
include he hwho

/-- A command ends: its queue shows it, and nothing else has changed since. -/
theorem WarrenWork.ends (h : WarrenWork e t s u) (hqueue : u.wQueue e = [k]) (x : WarrenEnd) :
    WarrenEnds (u.wEnd j x) e x ∧ OnlyWarren s (u.wEnd j x) e ∧ (∀ b w, (u.wEnd j x).way t b w = u.way t b w) ∧
    ∀ w o, (u.wEnd j x).reg w o = u.reg w o := by
  have hset (i : WarrenJob) (hi : i.who = e) : u.setFront i = u.setQueue e [i] := by rw [State.setFront, hi, hqueue]; rfl
  have hend := hset { j.giveUp with path := [], place := none, plan := [], found := none, paid := none, ended := some x } hwho
  rw [State.wEnd, hend]
  refine ⟨⟨_, u.wQueue_setQueue_self he _, rfl, rfl⟩, (h.trans (WarrenWork.setQueue u he _)).only, fun b w => ?_, fun _ _ => rfl⟩
  refine (WarrenWork.setQueue (t := t) u he _).way ((WarrenWork.setQueue (t := t) u he _).wBucket ?_ (fun table a => ?_) b) w <;>
  · rw [u.setQueue_block he]
    rfl

section
variable (h : WarrenServes s e t k n u)
include h

/-- A command that has written nothing ends. -/
theorem WarrenServes.ends (x : WarrenEnd) : EndsUnchanged s (u.wEnd j x) e t x := by
  obtain ⟨hends, honly, hways, -⟩ := h.work.ends he hwho h.queue x
  exact ⟨hends, fun b w _ => (hways b w).trans (h.way b w), honly⟩

variable (ht : t < 16)
include ht

theorem WarrenServes.refuses : EndsRefused s (u.wRefuse j) e t := by
  have hreject := WarrenWork.cfgReject he ht u 0x1A0
  have hserves := h.beside (m := 0) hreject ((State.warren_setReg _ _ _ _).trans (State.warren_setReg _ _ _ _))
    ((State.mower_setReg _ _ _ _).trans (State.mower_setReg _ _ _ _)) (fun hzero => absurd rfl hzero) fun i _ _ =>
    (State.reg_setReg_of_ne _ _ (by simp [warrenWin, warrenEngineWin]; omega) (by omega) (by decide)).trans
      (State.reg_setReg_of_ne _ _ (by simp [warrenWin, warrenEngineWin]; omega) (by omega) (by decide))
  obtain ⟨-, -, -, hregs⟩ := hserves.work.ends he hwho hserves.queue (endCode 256)
  rw [State.wRefuse, hwho]
  refine ⟨hserves.ends he hwho _, ?_, (hregs _ _).trans (h.work.trans hreject).status⟩
  rw [hregs, State.summary_cfgReject, getLsbD_or_one]
  exact Bool.or_true _

section
variable {b w : Nat} {x : List Byte} (hreach : Reach s t b) (hx : x.length = s.wtSize t) (hw : w < 4)
include hreach hx hw

/-- A command ends that has written a way, and has done nothing else to Warren since. -/
theorem WarrenServes.writes_then {v : State} (hwork : WarrenWork e t (u.setWay t b w x) v) (hwarren : v.warren = (u.setWay t b w x).warren) :
    EndsWritten s (v.wEnd j (endEntry 0 b w x)) e t b w x := by
  obtain ⟨hself, hother⟩ := State.ways_setWay ht (h.reach hreach) (hx.trans h.work.wtSize.symm) hw
  have hqueue := (State.wQueue_of_warren hwarren e).trans ((u.wQueue_setWay t b w x e).trans h.queue)
  obtain ⟨hends, honly, hways, -⟩ := ((h.work.trans (WarrenWork.setWay he ht u b w x)).trans hwork).ends he hwho hqueue (endEntry 0 b w x)
  have hkept (b' w' : Nat) := (hways b' w').trans (hwork.way_of_warren hwarren b' w')
  exact ⟨(hkept b w).trans hself, hends, fun b' w' hw' hne => ((hkept b' w').trans (hother b' w' hw' hne)).trans (h.way b' w'), honly⟩

theorem WarrenServes.writes : EndsWritten s ((u.setWay t b w x).wEnd j (endEntry 0 b w x)) e t b w x :=
  h.writes_then he hwho ht hreach hx hw (WarrenWork.refl _) rfl

/-- The same with a counter of the table's writes. -/
theorem WarrenServes.writes_counted {i off : Nat} (hlow : 3 ≤ i) (hhigh : i < 8) (hoff : off = 0x1040 + 0x100 * t + 4 * i) :
    EndsWritten s (((u.setWay t b w x).wtCount t i).wEnd j (endEntry 0 b w x)) e t b w x ∧
    Counted s (((u.setWay t b w x).wtCount t i).wEnd j (endEntry 0 b w x)) warrenWin off := by
  subst hoff
  have hwork := WarrenWork.wtCount he ht (u.setWay t b w x) hhigh
  have hwarren : ((u.setWay t b w x).wtCount t i).warren = (u.setWay t b w x).warren := State.warren_setReg _ _ _ _
  have hqueue := (State.wQueue_of_warren hwarren e).trans ((u.wQueue_setWay t b w x e).trans h.queue)
  obtain ⟨-, -, -, hregs⟩ := hwork.ends he hwho hqueue (endEntry 0 b w x)
  refine ⟨h.writes_then he hwho ht hreach hx hw hwork hwarren, ?_⟩
  rw [Counted, hregs, State.wtCount, State.count, State.toNat_reg_countBy, State.reg_setWay _ _ _ _ _ (by omega) (by omega) (by omega), h.counts i hlow hhigh]

end
end
end
end Sys2Proof.Machine
end

section
/-! A go of WARREN_CMD on a block without work: the engine takes the command at once (05, R125, R144). -/

namespace Sys2Proof.Machine

open Sys2Proof.Safety

namespace State

section
variable (s : State) (e op t : Nat) (static peek valid : Bool)

/-- The command that a go captures. -/
def goJob : WarrenJob :=
  { newJob e op t (leBytes 96 (s.engWords e 0x100 24)) with
    index := s.rf (warrenEngineWin e) 0x1AC 25 0, data := BitVec.ofNat 128 (s.engWords e 0x180 4), cmp := BitVec.ofNat 64 (s.engWords e 0x190 2),
    static := static, peek := peek, valid := valid }

/-- The command as the engine takes it. -/
def takenJob : WarrenJob := { s.goJob e op t static peek valid with engine := some e }

/-- WARREN_CMD holds the command. -/
def goShown : State :=
  s.setReg (warrenEngineWin e) 0x1A0 (BitVec.ofNat 32 (op * 2 ^ 24 + t * 2 ^ 20 + bit static * 2 ^ 19 + bit peek * 2 ^ 18 + bit valid * 2 ^ 17))

/-- The command stands in the block's queue, and WARREN_BUSY shows it. -/
def goQueued : State := ((s.goShown e op t static peek valid).setQueue e [s.goJob e op t static peek valid]).showBusy e

/-- The engine has taken the command. -/
def goTaken : State := (s.goQueued e op t static peek valid).setFront (s.takenJob e op t static peek valid)

/-- A writer past its first checks: its buckets are owned and read, and its work is done. -/
def wWrites (s : State) (j : WarrenJob) : State :=
  match s.wOwn j (s.wNeeds j) with
  | (false, s2) => s2
  | (true, s2) =>
    let j' := { j with owns := s.wNeeds j }
    if j.op = 5 ∧ !j.valid then s2.wIndexWork j'
    else match s2.wReads j.who j.table [(s.candidates j.table j.key).1, (s.candidates j.table j.key).2] with
      | (.wait, s3) => s3
      | (.bad _, s3) => s3.wStop j' 8
      | (.ok _, s3) => match s3.wFront j.who with
        | some j3 => s3.wWork j3 (s.candidates j.table j.key).1 (s.candidates j.table j.key).2
        | none => s3

section
variable {s e t}

theorem warrenGo_eq_advance (hempty : s.wQueue e = []) :
    s.warrenGo e op t static peek valid = (s.goQueued e op t static peek valid).warrenAdvance e := by
  have hnone : (s.goShown e op t static peek valid).wQueue e = [] := (wQueue_of_warren (warren_setReg _ _ _ _) e).trans hempty
  have hgo : s.warrenGo e op t static peek valid = (((s.goShown e op t static peek valid).setQueue e
      ((s.goShown e op t static peek valid).wQueue e ++ [s.goJob e op t static peek valid])).showBusy e).warrenAdvance e := rfl
  rw [hgo, hnone]
  rfl

section
variable (he : e < 4)
include he

theorem warren_goQueued :
    (s.goQueued e op t static peek valid).warren =
      { s.warren with blocks := SMap.set (fun _ => []) s.warren.blocks e [s.goJob e op t static peek valid] } := by
  rw [goQueued, showBusy, setRf, warren_setReg, setQueue_block _ he, modWarren_warren, goShown, warren_setReg]

theorem wQueue_goQueued : (s.goQueued e op t static peek valid).wQueue e = [s.goJob e op t static peek valid] :=
  (wQueue_of_warren (warren_setReg _ _ _ _) e).trans (wQueue_setQueue_self _ he _)

theorem serves_goQueued (ht : t < 16) {n : Nat} (htokens : n ≠ 0 → HasTokens s 3 3 n) :
    WarrenServes s e t (s.goJob e op t static peek valid) n (s.goQueued e op t static peek valid) := by
  have hwarren := s.warren_goQueued op static peek valid he (t := t)
  have hwork : WarrenWork e t s (s.goQueued e op t static peek valid) :=
    ((WarrenWork.setReg he ht s _ (by decide) (.inr (.inl ⟨rfl, by decide⟩))).trans (WarrenWork.setQueue _ he _)).trans
      (WarrenWork.setReg he ht _ _ (by decide) (.inr (.inl ⟨rfl, by decide⟩)))
  have hmid (l : List WarrenJob) : ((s.goShown e op t static peek valid).setQueue e l).commons = s.commons ∧
      ((s.goShown e op t static peek valid).setQueue e l).mower = s.mower ∧
      ∀ o, o < 0x10000 → ((s.goShown e op t static peek valid).setQueue e l).reg warrenWin o = s.reg warrenWin o := by
    rw [setQueue_block _ he]
    refine ⟨by rw [modWarren_commons, goShown, commons_setReg], by rw [modWarren_mower, goShown, mower_setReg], fun o ho => ?_⟩
    rw [reg_of_regs (modWarren_regs _ _), goShown, reg_setReg_of_ne _ _ (by simp [warrenWin, warrenEngineWin]; omega) ho (by decide)]
  obtain ⟨hcommons, hmower, hregs⟩ := hmid [s.goJob e op t static peek valid]
  exact {
    work := hwork
    queue := wQueue_goQueued op static peek valid he
    buckets := hwork.wBucket (by rw [hwarren]) fun _ _ => by rw [wLine, hwarren, wLine]
    lines := by rw [hwarren]
    mower := (mower_setReg _ _ _ _).trans hmower
    tokens := fun hn => hasTokens_of_commons ((commons_setReg _ _ _ _).trans hcommons) (htokens hn)
    counts := fun k _ hk => (reg_setReg_of_ne _ _ (by simp [warrenWin, warrenEngineWin]; omega) (by omega) (by decide)).trans (hregs _ (by omega)) }

theorem serves_goTaken (ht : t < 16) {n : Nat} (htokens : n ≠ 0 → HasTokens s 3 3 n) :
    WarrenServes s e t (s.takenJob e op t static peek valid) n (s.goTaken e op t static peek valid) :=
  (serves_goQueued op static peek valid he ht htokens).setFront he rfl

/-- Nothing stands before a block's own command but what stood there before it was written. -/
theorem wConflict_goTaken (hempty : s.wQueue e = []) (bs : List Nat) :
    (s.goTaken e op t static peek valid).wConflict e t bs = s.wConflict e t bs := by
  have hself : (s.goTaken e op t static peek valid).wFront e = some (s.takenJob e op t static peek valid) :=
    congrArg List.head? (wQueue_setQueue_self _ he _)
  have hother (k : Nat) (hk : k ≠ e) : (s.goTaken e op t static peek valid).wFront k = s.wFront k := by
    refine congrArg List.head? ((wQueue_setQueue_of_ne _ he _ hk).trans ?_)
    exact (wQueue_of_warren (warren_setReg _ _ _ _) k).trans ((wQueue_setQueue_of_ne _ he _ hk).trans (wQueue_of_warren (warren_setReg _ _ _ _) k))
  have hwarren : (s.goTaken e op t static peek valid).warren.threads = s.warren.threads ∧
      (s.goTaken e op t static peek valid).warren.waitq = s.warren.waitq := by
    rw [goTaken, setFront, show (s.takenJob e op t static peek valid).who = e from rfl, setQueue_block _ he, modWarren_warren,
      s.warren_goQueued op static peek valid he]
    exact ⟨rfl, rfl⟩
  rw [wConflict, wConflict, hwarren.2, wFronts, hwarren.1, wFronts]
  simp only [List.any_filterMap, List.any_append, List.any_map]
  refine congrArg₂ or (congrArg₂ or (List.any_congr rfl fun k => ?_) rfl) rfl
  by_cases hk : k = e
  · have hnone : s.wFront e = none := by rw [wFront, hempty]; rfl
    subst hk
    simp only [Function.comp_apply, hself, hnone, id_eq, show (s.takenJob k op t static peek valid).who = k from rfl, bne_self_eq_false, Bool.false_and]
  · simp only [Function.comp_apply, hother k hk]

section
variable (hin : s.inService (warrenEngineWin e) = true) (ht : t < 16)
include hin ht

theorem engineFor_goQueued : (s.goQueued e op t static peek valid).engineFor e = some e := by
  have hin' : (s.goQueued e op t static peek valid).inService (warrenEngineWin ((e + 0) % 4)) = true := by
    rw [Nat.add_zero, Nat.mod_eq_of_lt he]
    exact ((serves_goQueued op static peek valid he ht (n := 0) (fun h => absurd rfl h)).work.inService _).trans hin
  have hroute : (s.goQueued e op t static peek valid).warrenRoute e = some e := by
    rw [warrenRoute, List.range_succ_eq_map, List.map_cons, List.find?_cons, hin', Nat.add_zero, Nat.mod_eq_of_lt he]
  have hflying : (s.goQueued e op t static peek valid).jobsFlying e = [] := by
    rw [jobsFlying, if_pos he, wQueue_goQueued op static peek valid he]
    rfl
  rw [engineFor, if_neg (by omega), hflying, if_pos he, routeFor, hroute]
  rfl

/-- What a go comes to, by the checks in their order. -/
theorem warrenGo_eq (hempty : s.wQueue e = []) :
    let j := s.takenJob e op t static peek valid
    let u := s.goTaken e op t static peek valid
    s.warrenGo e op t static peek valid =
    if s.wtPlace t = 0 then u.wStop j 7
    else if (op = 4 ∨ op = 5) ∧ 4 * s.wtBuckets t ≤ j.index then u.wEnd j (endCode 6)
    else if op = 0 then u.wLookupWork j
    else if op = 4 then u.wIndexWork j
    else if op = 5 ∧ valid = true ∧ j.index / 4 ≠ (s.candidates t j.key).1 ∧ j.index / 4 ≠ (s.candidates t j.key).2 then u.wEnd j (endCode 5)
    else u.wWrites j := by
  intro j u
  have hserves := serves_goQueued (s := s) op static peek valid he ht (n := 0) (fun h => absurd rfl h)
  have htaken := serves_goTaken (s := s) op static peek valid he ht (n := 0) (fun h => absurd rfl h)
  have hcandidates := htaken.work.candidates j.key
  rw [warrenGo_eq_advance _ _ _ _ hempty, warrenAdvance, hserves.front]
  dsimp only
  rw [if_neg (by simp [goJob, newJob])]
  have htake : ((s.goJob e op t static peek valid).engine <|> (s.goQueued e op t static peek valid).engineFor e) = some e := by
    rw [engineFor_goQueued op static peek valid he hin ht]
    rfl
  rw [htake]
  show (if (s.goQueued e op t static peek valid).wtPlace t = 0 then _
    else if _ ∧ 4 * (s.goQueued e op t static peek valid).wtBuckets t ≤ _ then _
    else if _ then _ else if _ then _ else if _ ∧ _ ∧ _ ≠ (u.candidates t j.key).1 ∧ _ ≠ (u.candidates t j.key).2 then _ else _) = _
  simp only [hserves.work.wtPlace, hserves.work.wtBuckets, show u.candidates t j.key = s.candidates t j.key from hcandidates]
  rfl

end
end
end
end
end State
end Sys2Proof.Machine
end

section
/-! What a command of an engine's block does once its buckets are owned and read: with a key that is absent, a key that one way holds, and a way
that its index names (05, R117, R124, R125, R541). -/

namespace Sys2Proof.Machine

open Sys2Proof.Safety

/-- A writer without a path needs the two candidate buckets. -/
theorem pathBuckets_nil {b0 b1 : Nat} (h : b0 ≠ b1) : pathBuckets b0 b1 [] = [b0, b1] := by
  simp [pathBuckets, List.eraseDups_cons, h.symm]

/-- A command that has done nothing yet. -/
structure WarrenJob.Fresh (e t : Nat) (j : WarrenJob) : Prop where
  who : j.who = e
  table : j.table = t
  owns : j.owns = []
  read : j.read = []
  paid : j.paid = none
  plan : j.plan = []
  found : j.found = none
  fromMem : j.fromMem = false

/-- The command with its candidate buckets owned and read. -/
def WarrenJob.keyed (j : WarrenJob) (c : Nat × Nat) : WarrenJob := { j with owns := [c.1, c.2], read := [c.2, c.1] }

theorem State.fresh_takenJob (s : State) (e op t : Nat) (static peek valid : Bool) : (s.takenJob e op t static peek valid).Fresh e t :=
  ⟨rfl, rfl, rfl, rfl, rfl, rfl, rfl, rfl⟩

namespace WarrenServes

section
variable {s u : State} {e t n : Nat} {j : WarrenJob} {c : Nat × Nat} (he : e < 4) (ht : t < 16) (hfresh : j.Fresh e t)
include he ht hfresh

/-- A writer of a key owns its candidate buckets and reads them, and then works on the key. -/
theorem keyed (h : WarrenServes s e t j (n + 2) u) (hc : s.candidates t j.key = c) (hop : j.op ≠ 0 ∧ j.op ≠ 4) (hvalid : j.op = 5 → j.valid = true)
    (hfree : u.wConflict e t [c.1, c.2] = false) (hreach : Reach s t c.1) (hreach' : Reach s t c.2) :
    ∃ v, u.wWrites j = v.wWork (j.keyed c) c.1 c.2 ∧ WarrenServes s e t (j.keyed c) n v := by
  have hne : c.1 ≠ c.2 := hc ▸ s.candidates_ne t j.key
  have hcand : u.candidates t j.key = c := (h.work.candidates _).trans hc
  have hset : ¬ (j.op = 5 ∧ (!j.valid) = true) := fun ⟨hindex, hclear⟩ => by
    rw [hvalid hindex] at hclear
    exact Bool.noConfusion hclear
  have hneeds : u.wNeeds j = [c.1, c.2] := by
    rw [State.wNeeds, if_neg (not_or.2 hop), if_neg hset, hfresh.table, hfresh.plan]
    exact (congrArg (fun c => pathBuckets c.1 c.2 []) hcand).trans (pathBuckets_nil hne)
  obtain ⟨v1, hown, h1⟩ := h.own he hfresh.who hfresh.owns (hfresh.table ▸ hfree)
  obtain ⟨v2, hread1, h2⟩ := h1.reads he ht hfresh.who [c.2] hreach hfresh.paid (by simp [hfresh.read])
  obtain ⟨v3, hread2, h3⟩ := h2.reads he ht hfresh.who [] hreach' hfresh.paid (by simp [hfresh.read, hne.symm])
  simp only [hfresh.read] at h3
  refine ⟨v3, ?_, h3⟩
  simp only [State.wWrites, hneeds, hown, if_neg hset, hfresh.table, hcand, hfresh.who, hread1, hread2]
  rw [State.wReads]
  simp only [h3.front]
  rfl

end

/-! ### The work on a key -/

section
variable {s u : State} {e t n : Nat} {k : WarrenJob} {key : List Byte} (hwho : k.who = e) (htable : k.table = t) (hkey : s.wtKey t k.key = key)
include hwho htable hkey

theorem wWork_absent (h : WarrenServes s e t k n u) (habsent : KeyAbsent s t key) :
    u.wWork k (s.candidates t key).1 (s.candidates t key).2 =
      if k.op = 5 then u.writeIndex k none
      else if k.op = 1 ∨ 16 ≤ k.op then u.addKey k (s.candidates t key).1 (s.candidates t key).2 else u.wEnd k (endCode 1) := by
  obtain ⟨hpurge, hfind⟩ := h.search_absent habsent e
  rw [State.wWork, hwho, htable, h.work.wtKey, hkey, hpurge]
  simp only [h.work.wtKey, hkey, hfind]

theorem wWork_at {b w : Nat} (h : WarrenServes s e t k n u) (hat : KeyAt s t key b w) :
    u.wWork k (s.candidates t key).1 (s.candidates t key).2 =
      if k.op = 5 then u.writeIndex k (some (b, w))
      else if k.op = 1 then u.wEnd k (endEntry 2 b w (s.way t b w))
      else if 16 ≤ k.op then u.serveLearn k b w else u.changeKey k b w := by
  obtain ⟨hpurge, hfind⟩ := h.search_at hat e
  rw [State.wWork, hwho, htable, h.work.wtKey, hkey, hpurge]
  simp only [h.work.wtKey, hkey, hfind, h.way]

end

section
variable {s u : State} {e t n : Nat} {k : WarrenJob} (he : e < 4) (ht : t < 16) (hwho : k.who = e) (htable : k.table = t)
include he hwho

theorem mayWrite_block : k.mayWrite = actionListed k.data := by
  rw [WarrenJob.mayWrite, hwho, decide_eq_false (by omega), Bool.false_or]

include ht htable

section
variable (h : WarrenServes s e t k (n + 1) u)
include h

/-- A command that names its way, which is in reach, writes it. -/
theorem writeIndex_go {b w : Nat} (hreach : Reach s t b) (hw : w < 4) :
    let x := newEntry (s.wtSize t) k.static false 0 k.data (s.wtKey t k.key)
    (actionListed k.data = true → EndsWritten s (State.writeIndex.go u k b w) e t b w x) ∧
    (actionListed k.data = false → EndsRefused s (State.writeIndex.go u k b w) e t) := by
  intro x
  have hmay := mayWrite_block he hwho
  refine ⟨fun hlisted => ?_, fun hunlisted => ?_⟩
  · obtain ⟨v, hdraw, hv⟩ := h.draw he ht hwho
    rw [State.writeIndex.go, hmay, hlisted, Bool.not_true, if_neg Bool.false_ne_true, hwho, hdraw, htable, h.work.wtSize, h.work.wtKey]
    exact hv.writes he hwho ht hreach (length_newEntry _ _ _ _ _ _) hw
  · rw [State.writeIndex.go, hmay, hunlisted, Bool.not_false, if_pos rfl]
    exact h.refuses he hwho ht

/-- An insert that finds a free way in reach takes it. -/
theorem addKey_free {b0 b1 b w : Nat} (hop : k.op < 16) (hreach : Reach s t b)
    (hfree : b = b0 ∧ s.freeWay t b0 = some w ∨ b = b1 ∧ s.freeWay t b0 = none ∧ s.freeWay t b1 = some w) :
    let x := newEntry (s.wtSize t) k.static false 0 k.data (s.wtKey t k.key)
    (actionListed k.data = true → EndsWritten s (u.addKey k b0 b1) e t b w x ∧ Counted s (u.addKey k b0 b1) warrenWin (0x104C + 0x100 * t)) ∧
    (actionListed k.data = false → EndsRefused s (u.addKey k b0 b1) e t) := by
  intro x
  have hmay := mayWrite_block he hwho
  have hentry : u.jobEntry k = x := by rw [State.jobEntry, if_pos hop, htable, h.work.wtSize, h.work.wtKey]
  have hw : w < 4 := by
    have hfound (b' : Nat) (hsome : s.freeWay t b' = some w) : w < 4 := List.mem_range.1 (List.mem_of_find?_eq_some hsome)
    rcases hfree with ⟨-, hfirst⟩ | ⟨-, -, hsecond⟩
    · exact hfound _ hfirst
    · exact hfound _ hsecond
  refine ⟨fun hlisted => ?_, fun hunlisted => ?_⟩
  · obtain ⟨v, hdraw, hv⟩ := h.draw he ht hwho
    have hadd : u.addKey k b0 b1 = v.placeNew k x b w := by
      rcases hfree with ⟨rfl, hfirst⟩ | ⟨rfl, hnone, hsecond⟩
      · simp [State.addKey, htable, h.freeWay, hfirst, hentry, hwho, hmay, hlisted, hdraw]
      · simp [State.addKey, htable, h.freeWay, hnone, hsecond, hentry, hwho, hmay, hlisted, hdraw]
    rw [hadd, State.placeNew, if_pos hop, if_pos hop, htable]
    exact hv.writes_counted he hwho ht hreach (length_newEntry _ _ _ _ _ _) hw (i := 3) (by decide) (by decide) (by omega)
  · have hadd : u.addKey k b0 b1 = u.wRefuse k := by
      rcases hfree with ⟨rfl, hfirst⟩ | ⟨rfl, hnone, hsecond⟩
      · simp [State.addKey, htable, h.freeWay, hfirst, hmay, hunlisted]
      · simp [State.addKey, htable, h.freeWay, hnone, hsecond, hmay, hunlisted]
    rw [hadd]
    exact h.refuses he hwho ht

end
end
end WarrenServes
end Sys2Proof.Machine
end

section
/-! UPDATE, DELETE and COMPARE_WRITE of a key that one way holds, the ways that an index names, and LOOKUP (05, R124, R125). -/

namespace Sys2Proof.Machine

open Sys2Proof.Safety

namespace WarrenServes

section
variable {s u : State} {e t n : Nat} {k : WarrenJob} (he : e < 4) (ht : t < 16) (hwho : k.who = e) (htable : k.table = t)
include he ht hwho htable

/-! ### Changes of the way that holds a key -/

section
variable (h : WarrenServes s e t k (n + 1) u) {b w : Nat} (hreach : Reach s t b) (hw : w < 4)
include h hreach hw

theorem changeKey_update (hop : k.op = 2) :
    (actionListed k.data = true → EndsWritten s (u.changeKey k b w) e t b w
      (patchBytes (entSetFlag (entSetFlag (s.way t b w) 1 k.static) 2 true) 0x10 (leBytes 16 k.data.toNat))) ∧
    (actionListed k.data = false → EndsRefused s (u.changeKey k b w) e t) := by
  have hmay := mayWrite_block he hwho
  refine ⟨fun hlisted => ?_, fun hunlisted => ?_⟩
  · obtain ⟨v, hdraw, hv⟩ := h.draw he ht hwho
    have hchange : u.changeKey k b w = (v.setWay t b w (patchBytes (entSetFlag (entSetFlag (s.way t b w) 1 k.static) 2 true) 0x10
        (leBytes 16 k.data.toNat))).wEnd k (endEntry 0 b w (patchBytes (entSetFlag (entSetFlag (s.way t b w) 1 k.static) 2 true) 0x10
        (leBytes 16 k.data.toNat))) := by
      simp [State.changeKey, hop, htable, h.way, hmay, hlisted, hwho, hdraw]
    rw [hchange]
    exact hv.writes he hwho ht hreach (by rw [length_patchBytes, length_entSetFlag, length_entSetFlag, s.length_way]) hw
  · have hchange : u.changeKey k b w = u.wRefuse k := by simp [State.changeKey, hop, hmay, hunlisted]
    rw [hchange]
    exact h.refuses he hwho ht

theorem changeKey_delete (hop : k.op = 3) :
    EndsWritten s (u.changeKey k b w) e t b w (entSetFlag (s.way t b w) 0 false) ∧
    Counted s (u.changeKey k b w) warrenWin (0x1050 + 0x100 * t) := by
  obtain ⟨v, hdraw, hv⟩ := h.draw he ht hwho
  have hchange : u.changeKey k b w = ((v.setWay t b w (entSetFlag (s.way t b w) 0 false)).wtCount t 4).wEnd k
      (endEntry 0 b w (entSetFlag (s.way t b w) 0 false)) := by
    simp [State.changeKey, hop, htable, h.way, hwho, hdraw]
  rw [hchange]
  exact hv.writes_counted he hwho ht hreach (by rw [length_entSetFlag, s.length_way]) hw (i := 4) (by decide) (by decide) (by omega)

omit ht hreach hw in
theorem changeKey_differs (hop : k.op = 6) (hcmp : (entAction (s.way t b w)).toNat / 2 ^ 64 ≠ k.cmp.toNat) :
    EndsUnchanged s (u.changeKey k b w) e t (endEntry 4 b w (s.way t b w)) := by
  rw [State.changeKey, htable, h.way, if_pos ⟨hop, hcmp⟩]
  exact h.ends he hwho _

theorem changeKey_compares (hop : k.op = 6) (hcmp : (entAction (s.way t b w)).toNat / 2 ^ 64 = k.cmp.toNat) :
    EndsWritten s (u.changeKey k b w) e t b w (patchBytes (entSetFlag (s.way t b w) 2 true) 0x10
      (leBytes 16 ((entAction (s.way t b w)).toNat % 2 ^ 64 + k.data.toNat / 2 ^ 64 * 2 ^ 64))) := by
  obtain ⟨v, hdraw, hv⟩ := h.draw he ht hwho
  have hword : (BitVec.ofNat 128 ((entAction (s.way t b w)).toNat % 2 ^ 64 + k.data.toNat / 2 ^ 64 * 2 ^ 64)).toNat =
      (entAction (s.way t b w)).toNat % 2 ^ 64 + k.data.toNat / 2 ^ 64 * 2 ^ 64 := by
    rw [BitVec.toNat_ofNat]
    have hdata := k.data.isLt
    omega
  have hchange : u.changeKey k b w = (v.setWay t b w (patchBytes (entSetFlag (s.way t b w) 2 true) 0x10
      (leBytes 16 ((entAction (s.way t b w)).toNat % 2 ^ 64 + k.data.toNat / 2 ^ 64 * 2 ^ 64)))).wEnd k
      (endEntry 0 b w (patchBytes (entSetFlag (s.way t b w) 2 true) 0x10
        (leBytes 16 ((entAction (s.way t b w)).toNat % 2 ^ 64 + k.data.toNat / 2 ^ 64 * 2 ^ 64)))) := by
    rw [← hword]
    simp [State.changeKey, hop, htable, h.way, hcmp, hwho, hdraw, -BitVec.toNat_ofNat, -Nat.reducePow]
  rw [hchange]
  exact hv.writes he hwho ht hreach (by rw [length_patchBytes, length_entSetFlag, s.length_way]) hw

end

/-! ### Ways that an index names -/

section
variable {b w : Nat} (hb : k.index / 4 = b) (hw : k.index % 4 = w) (hreach : Reach s t b) (hread : k.read = []) (hpaid : k.paid = none)
include hb hw hreach hread hpaid

theorem wIndexWork_reads (h : WarrenServes s e t k (n + 1) u) (hop : k.op = 4) :
    EndsUnchanged s (u.wIndexWork k) e t (endEntry 0 b w (s.way t b w)) := by
  obtain ⟨v, hreads, hv⟩ := h.reads he ht hwho [] hreach hpaid (by simp [hread])
  have hreadb : u.wReads e t [b] = (.ok false, v) := hreads
  have hindex : u.wIndexWork k = v.wEnd k (endEntry 0 b w (s.way t b w)) := by
    simp [State.wIndexWork, hb, hw, hwho, htable, hreadb, hv.way, hop]
  rw [hindex]
  exact hv.ends he hwho _

theorem wIndexWork_clears (h : WarrenServes s e t k (n + 2) u) (hop : k.op ≠ 4) :
    EndsWritten s (u.wIndexWork k) e t b w (entSetFlag (s.way t b w) 0 false) := by
  obtain ⟨v, hreads, hv⟩ := h.reads he ht hwho [] hreach hpaid (by simp [hread])
  obtain ⟨v', hdraw, hv'⟩ := hv.draw he ht hwho
  have hw4 : w < 4 := hw ▸ Nat.mod_lt _ (by decide)
  have hlength : (entSetFlag (s.way t b w) 0 false).length = s.wtSize t := by rw [length_entSetFlag, s.length_way]
  have hreadb : u.wReads e t [b] = (.ok false, v) := hreads
  have hindex : u.wIndexWork k = (if entFlag (s.way t b w) 0 then (v'.setWay t b w (entSetFlag (s.way t b w) 0 false)).wtCount t 4
      else v'.setWay t b w (entSetFlag (s.way t b w) 0 false)).wEnd k (endEntry 0 b w (entSetFlag (s.way t b w) 0 false)) := by
    simp [State.wIndexWork, hb, hw, hwho, htable, hreadb, hv.way, hop, hdraw]
  rw [hindex]
  split
  · exact (hv'.writes_counted he hwho ht hreach hlength hw4 (i := 4) (by decide) (by decide) rfl).1
  · exact hv'.writes he hwho ht hreach hlength hw4

end

/-! ### LOOKUP -/

section
variable {key : List Byte} (hkey : s.wtKey t k.key = key) (hreach : Reach s t (s.candidates t key).1) (hreach' : Reach s t (s.candidates t key).2)
include hkey hreach hreach'

omit hwho htable in
/-- What a lookup that leaves the hit bit finds in buckets in reach. -/
theorem lookupKey_reach (h : WarrenServes s e t k n u) :
    ∃ v, WarrenServes s e t k n v ∧ (KeyAbsent s t key → u.lookupKey t k.key true false = (.miss, v)) ∧
      ∀ b w, KeyAt s t key b w → u.lookupKey t k.key true false = (.hit (4 * b + w) (s.way t b w), v.wtCount t 1) := by
  obtain ⟨v1, hload1, h1⟩ := h.load hreach none
  obtain ⟨v2, hload2, h2⟩ := h1.load hreach' none
  have h3 := h2.wtCount he ht (k := 0) (by decide)
  have hcand : u.candidates t key = s.candidates t key := h.work.candidates key
  refine ⟨_, h3, fun habsent => ?_, fun b w hat => ?_⟩
  · simp [State.lookupKey, h.work.wtKey, hkey, hcand, State.wHolds_reach (h.reach hreach), State.wHolds_reach (h.reach hreach'), State.wLoadAll,
      hload1, hload2, (h3.search_absent habsent e).2]
  · simp [State.lookupKey, h.work.wtKey, hkey, hcand, State.wHolds_reach (h.reach hreach), State.wHolds_reach (h.reach hreach'), State.wLoadAll,
      hload1, hload2, (h3.search_at hat e).2, h3.way]

end
end

section
variable {s u : State} {e t n : Nat} {j : WarrenJob} {key : List Byte} (he : e < 4) (ht : t < 16) (hfresh : j.Fresh e t) (hkey : s.wtKey t j.key = key)
  (hreach : Reach s t (s.candidates t key).1) (hreach' : Reach s t (s.candidates t key).2)
include he ht hfresh hkey hreach hreach'

/-- A LOOKUP reads both candidate buckets and searches them; a hit bit is set after that. -/
theorem wLookupWork_reach (h : WarrenServes s e t j (n + 2) u) :
    ∃ v, WarrenServes s e t { j with read := [(s.candidates t key).2, (s.candidates t key).1] } n v ∧
      (KeyAbsent s t key → u.wLookupWork j = v.wEnd j (endCode 1)) ∧
      ∀ b w, KeyAt s t key b w →
        let x := endEntry 0 b w (s.way t b w)
        u.wLookupWork j = if j.peek ∨ s.wtCfg t 12 12 = 1 then (v.wtCount t 1).wEnd j x
          else ((v.wtCount t 1).modFront e (fun k => { k with found := some x })).wHitDone { j with found := some x } x := by
  have hne := s.candidates_ne t key
  have hcand : u.candidates t j.key = s.candidates t key := by
    rw [h.work.candidates, ← hkey, s.candidates_wtKey]
  obtain ⟨v1, hread1, h1⟩ := h.reads he ht hfresh.who [(s.candidates t key).2] hreach hfresh.paid (by simp [hfresh.read])
  obtain ⟨v2, hread2, h2⟩ := h1.reads he ht hfresh.who [] hreach' hfresh.paid (by simp [hfresh.read, hne.symm])
  have hreads : u.wReads e t [(s.candidates t key).1, (s.candidates t key).2] = (.ok false, v2) := hread1.trans hread2
  simp only [hfresh.read] at h2
  obtain ⟨v, hv, hmiss, hhit⟩ := WarrenServes.lookupKey_reach (k := { j with read := [(s.candidates t key).2, (s.candidates t key).1] })
    he ht hkey hreach hreach' h2
  refine ⟨v, hv, fun habsent => ?_, fun b w hat => ?_⟩
  · have hpurge := (h2.search_absent habsent e).1
    have hmiss' : v2.lookupKey t j.key true false = (.miss, v) := hmiss habsent
    simp [State.wLookupWork, hfresh.table, hfresh.who, hcand, hfresh.found, hreads, h2.work.wtKey, hkey, hpurge, h2.front, hfresh.fromMem, hmiss']
  · have hw : w < 4 := hat.2.1.1
    have hpurge := (h2.search_at hat e).1
    have hhit' : v2.lookupKey t j.key true false = (.hit (4 * b + w) (s.way t b w), v.wtCount t 1) := hhit b w hat
    have hdiv : (4 * b + w) / 4 = b := by omega
    have hmod : w % 4 = w := Nat.mod_eq_of_lt hw
    simp [State.wLookupWork, hfresh.table, hfresh.who, hcand, hfresh.found, hreads, h2.work.wtKey, hkey, hpurge, h2.front, hfresh.fromMem, hhit',
      hdiv, hmod, h.work.wtCfg]

theorem wLookupWork_absent (h : WarrenServes s e t j (n + 2) u) (habsent : KeyAbsent s t key) :
    EndsUnchanged s (u.wLookupWork j) e t (endCode 1) := by
  obtain ⟨v, hv, hmiss, -⟩ := h.wLookupWork_reach he ht hfresh hkey hreach hreach'
  rw [hmiss habsent]
  exact hv.ends he hfresh.who _

section
variable {b w : Nat} (hat : KeyAt s t key b w)
include hat

theorem wLookupWork_peeks (h : WarrenServes s e t j (n + 2) u) (hpeek : j.peek = true) :
    EndsUnchanged s (u.wLookupWork j) e t (endEntry 0 b w (s.way t b w)) := by
  obtain ⟨v, hv, -, hhit⟩ := h.wLookupWork_reach he ht hfresh hkey hreach hreach'
  rw [hhit b w hat, if_pos (.inl hpeek)]
  exact (hv.wtCount he ht (by decide)).ends he hfresh.who _

/-- A LOOKUP that does not peek sets the hit bit of what it found, with a token for the write. -/
theorem wLookupWork_hits (h : WarrenServes s e t j (n + 3) u) (hpeek : j.peek = false) (hcfg : s.wtCfg t 12 12 = 0) :
    (u.wLookupWork j).way t b w = entSetFlag (s.way t b w) 2 true ∧ WarrenEnds (u.wLookupWork j) e (endEntry 0 b w (s.way t b w)) ∧
    OtherWays s (u.wLookupWork j) t b w ∧ OnlyWarren s (u.wLookupWork j) e := by
  obtain ⟨v, hv, -, hhit⟩ := WarrenServes.wLookupWork_reach (n := n + 1) he ht hfresh hkey hreach hreach' h
  rw [hhit b w hat, if_neg (by simp [hpeek, hcfg])]
  obtain ⟨hbucket, ⟨hw, hvalid, -⟩, -, -⟩ := hat
  have hreachb : Reach s t b := by rcases hbucket with rfl | rfl <;> assumption
  generalize hx : endEntry 0 b w (s.way t b w) = x
  have hindex : x.index = 4 * b + w := hx ▸ rfl
  have hxkey : x.key = entKey (s.way t b w) := hx ▸ rfl
  have hfound := (hv.wtCount he ht (k := 1) (by decide)).modFront he (f := fun k => { k with found := some x }) hfresh.who
  have hagain := hfound.reads_again hreachb (by rcases hbucket with rfl | rfl <;> simp)
  obtain ⟨v', hdraw, hv'⟩ := hfound.draw he ht hfresh.who
  have hdone : ((v.wtCount t 1).modFront e (fun k => { k with found := some x })).wHitDone { j with found := some x } x =
      (v'.setHit t b w true).wEnd { j with found := some x } x := by
    simp only [State.wHitDone, hindex, show (4 * b + w) / 4 = b by omega, show (4 * b + w) % 4 = w by omega, hfresh.who, hfresh.table, hagain,
      hfound.way, hvalid, hxkey, and_self, if_true, hdraw]
  obtain ⟨hself, hother⟩ := State.ways_wPut ht (hv'.reach hreachb) (w := w) (x := entSetFlag (v'.way t b w) 2 true)
    (by rw [length_entSetFlag, State.length_way]) hw
  have hqueue := (v'.wQueue_wPut t b (patchBytes (v'.wBucket t b) (w * v'.wtSize t) (entSetFlag (v'.way t b w) 2 true)) e).trans hv'.queue
  obtain ⟨hends, honly, hways, -⟩ := (hv'.work.trans (WarrenWork.wPut he ht v' b _)).ends (j := { j with found := some x }) he hfresh.who hqueue x
  rw [hdone]
  exact ⟨(hways b w).trans (hself.trans (by rw [hv'.way])), hends, fun b' w' hw' hne => ((hways b' w').trans (hother b' w' hw' hne)).trans (hv'.way b' w'),
    honly⟩

end
end
end WarrenServes
end Sys2Proof.Machine
end

section
/-! What each command of WARREN_CMD comes to (05, R117, R124, R125, R541). -/

namespace Sys2Proof.Machine

open Sys2Proof.Safety

/-- The index that a go captures. -/
def State.goIndex (s : State) (e : Nat) : Nat := s.rf (warrenEngineWin e) 0x1AC 25 0

theorem State.takenJob_index (s : State) (e op t : Nat) (static peek valid : Bool) : (s.takenJob e op t static peek valid).index = s.goIndex e := rfl

/-- A command holds what a go of it captured. -/
structure WarrenJob.Captured (s : State) (e op t : Nat) (static : Bool) (key : List Byte) (j : WarrenJob) : Prop where
  who : j.who = e
  table : j.table = t
  op : j.op = op
  static : j.static = static
  index : j.index = s.goIndex e
  key : s.wtKey t j.key = key
  data : j.data = BitVec.ofNat 128 (s.engWords e 0x180 4)
  cmp : j.cmp = BitVec.ofNat 64 (s.engWords e 0x190 2)

theorem State.candidates_takenJob (s : State) {e t : Nat} (op : Nat) (static peek valid : Bool) {key : List Byte}
    (hkey : s.wtKey t (leBytes 96 (s.engWords e 0x100 24)) = key) :
    s.candidates t (s.takenJob e op t static peek valid).key = s.candidates t key := by
  rw [← hkey, s.candidates_wtKey]
  rfl

/-! ### A go past its checks -/

section
variable {s : State} {e t : Nat} (op : Nat) (static peek valid : Bool) (he : e < 4) (ht : t < 16) (hempty : s.wQueue e = [])
  (hin : s.inService (warrenEngineWin e) = true)
include he ht hempty hin

theorem ends_disabled (hplace : s.wtPlace t = 0) (hop : op < 16) : EndsUnchanged s (s.warrenGo e op t static peek valid) e t (endCode 7) := by
  rw [State.warrenGo_eq op static peek valid he hin ht hempty, if_pos hplace, State.wStop,
    if_pos (show (s.takenJob e op t static peek valid).op < 16 from hop)]
  exact (State.serves_goTaken op static peek valid he ht (n := 0) fun h => absurd rfl h).ends he rfl _

end

/-- A go of engine e's block, which is in service and has no work, for a table that has a place. -/
structure GoPlaced (s : State) (e t : Nat) : Prop where
  block : e < 4
  table : t < 16
  empty : s.wQueue e = []
  inService : s.inService (warrenEngineWin e) = true
  place : s.wtPlace t ≠ 0

/-- Such a go for a key whose candidate buckets are free and in reach, with the tokens of R143. -/
structure GoSeeks (s : State) (e t : Nat) (key : List Byte) : Prop extends GoPlaced s e t where
  sought : s.wtKey t (leBytes 96 (s.engWords e 0x100 24)) = key
  first : Reach s t (s.candidates t key).1
  second : Reach s t (s.candidates t key).2
  tokens : HasTokens s 3 3 3
  free : s.wConflict e t [(s.candidates t key).1, (s.candidates t key).2] = false

namespace GoPlaced

section
variable {s : State} {e t : Nat} (op : Nat) (static peek valid : Bool) (h : GoPlaced s e t)
include h

theorem ends_range (hop : op = 4 ∨ op = 5) (hrange : 4 * s.wtBuckets t ≤ s.goIndex e) :
    EndsUnchanged s (s.warrenGo e op t static peek valid) e t (endCode 6) := by
  obtain ⟨he, ht, hempty, hin, hplace⟩ := h
  rw [State.warrenGo_eq op static peek valid he hin ht hempty, if_neg hplace, if_pos ⟨hop, hrange⟩]
  exact (State.serves_goTaken op static peek valid he ht (n := 0) fun hn => absurd rfl hn).ends he rfl _

theorem warrenGo_lookup : s.warrenGo e 0 t static peek valid = (s.goTaken e 0 t static peek valid).wLookupWork (s.takenJob e 0 t static peek valid) := by
  obtain ⟨he, ht, hempty, hin, hplace⟩ := h
  rw [State.warrenGo_eq 0 static peek valid he hin ht hempty, if_neg hplace, if_neg (by simp), if_pos rfl]

/-! ### Commands that name a way -/

section
variable (hindex : s.goIndex e < 4 * s.wtBuckets t)
include hindex

theorem reads_index {b w : Nat} (hb : s.goIndex e / 4 = b) (hw : s.goIndex e % 4 = w) (hreach : Reach s t b)
    (htokens : HasTokens s 3 3 1) : EndsUnchanged s (s.warrenGo e 4 t static peek valid) e t (endEntry 0 b w (s.way t b w)) := by
  obtain ⟨he, ht, hempty, hin, hplace⟩ := h
  rw [State.warrenGo_eq 4 static peek valid he hin ht hempty, if_neg hplace, if_neg fun hrange => absurd hrange.2 (Nat.not_le.2 hindex),
    if_neg (by decide), if_pos rfl]
  exact WarrenServes.wIndexWork_reads he ht rfl rfl hb hw hreach rfl rfl (State.serves_goTaken 4 static peek valid he ht fun _ => htokens) rfl

theorem clears_index {b w : Nat} (hb : s.goIndex e / 4 = b) (hw : s.goIndex e % 4 = w) (hreach : Reach s t b)
    (hfree : s.wConflict e t [b] = false) (htokens : HasTokens s 3 3 2) :
    EndsWritten s (s.warrenGo e 5 t static peek false) e t b w (entSetFlag (s.way t b w) 0 false) := by
  obtain ⟨he, ht, hempty, hin, hplace⟩ := h
  have htaken := State.serves_goTaken (s := s) 5 static peek false he ht fun _ => htokens
  obtain ⟨v, hown, hv⟩ := htaken.own he rfl rfl ((State.wConflict_goTaken 5 static peek false he hempty [b]).trans hfree)
  have hneeds : (s.goTaken e 5 t static peek false).wNeeds (s.takenJob e 5 t static peek false) = [b] := by
    rw [← hb]
    rfl
  have hwrites : (s.goTaken e 5 t static peek false).wWrites (s.takenJob e 5 t static peek false) =
      v.wIndexWork { s.takenJob e 5 t static peek false with owns := [b] } := by
    rw [State.wWrites, hneeds, hown]
    rfl
  rw [State.warrenGo_eq 5 static peek false he hin ht hempty, if_neg hplace, if_neg fun hrange => absurd hrange.2 (Nat.not_le.2 hindex), if_neg (by decide),
    if_neg (by decide), if_neg fun hset => Bool.noConfusion hset.2.1, hwrites]
  exact WarrenServes.wIndexWork_clears he ht rfl rfl hb hw hreach rfl rfl hv (show (5 : Nat) ≠ 4 by decide)

theorem ends_misplaced {key : List Byte} (hkey : s.wtKey t (leBytes 96 (s.engWords e 0x100 24)) = key)
    (hfirst : s.goIndex e / 4 ≠ (s.candidates t key).1) (hsecond : s.goIndex e / 4 ≠ (s.candidates t key).2) :
    EndsUnchanged s (s.warrenGo e 5 t static peek true) e t (endCode 5) := by
  obtain ⟨he, ht, hempty, hin, hplace⟩ := h
  have hcandidates := s.candidates_takenJob 5 static peek true hkey
  rw [State.warrenGo_eq 5 static peek true he hin ht hempty, State.takenJob_index, hcandidates, if_neg hplace,
    if_neg fun hrange => absurd hrange.2 (Nat.not_le.2 hindex), if_neg (by decide), if_neg (by decide), if_pos ⟨rfl, rfl, hfirst, hsecond⟩]
  exact (State.serves_goTaken 5 static peek true he ht (n := 0) fun hn => absurd rfl hn).ends he rfl _

end
end
end GoPlaced

/-! ### Commands that look for their key in both buckets -/

namespace GoSeeks

section
variable {s : State} {e t : Nat} (op : Nat) (static peek valid : Bool) {key : List Byte} (h : GoSeeks s e t key)
include h

/-- A writer of a key reaches its work, and a token of its three is left. -/
theorem warrenGo_writes (hop : op ≠ 0 ∧ op ≠ 4) (hindex : op = 5 → valid = true ∧ s.goIndex e < 4 * s.wtBuckets t ∧
      (s.goIndex e / 4 = (s.candidates t key).1 ∨ s.goIndex e / 4 = (s.candidates t key).2)) :
    ∃ j v, s.warrenGo e op t static peek valid = v.wWork j (s.candidates t key).1 (s.candidates t key).2 ∧ j.Captured s e op t static key ∧
      WarrenServes s e t j 1 v := by
  obtain ⟨⟨he, ht, hempty, hin, hplace⟩, hkey, hreach, hreach', htokens, hfree⟩ := h
  have hcandidates := s.candidates_takenJob op static peek valid hkey
  have htaken := State.serves_goTaken (s := s) op static peek valid he ht fun _ => htokens
  obtain ⟨v, hwrites, hv⟩ := htaken.keyed he ht (s.fresh_takenJob e op t static peek valid) hcandidates hop (fun hset => (hindex hset).1)
    ((State.wConflict_goTaken op static peek valid he hempty _).trans hfree) hreach hreach'
  refine ⟨_, v, ?_, ⟨rfl, rfl, rfl, rfl, rfl, hkey, rfl, rfl⟩, hv⟩
  have hrange : ¬ ((op = 4 ∨ op = 5) ∧ 4 * s.wtBuckets t ≤ s.goIndex e) := by
    rintro ⟨hop' | hop', hbeyond⟩
    · exact hop.2 hop'
    · exact absurd hbeyond (Nat.not_le.2 (hindex hop').2.1)
  have hplaced : ¬ (op = 5 ∧ valid = true ∧ s.goIndex e / 4 ≠ (s.candidates t (s.takenJob e op t static peek valid).key).1 ∧
      s.goIndex e / 4 ≠ (s.candidates t (s.takenJob e op t static peek valid).key).2) := by
    rw [hcandidates]
    rintro ⟨hop', -, hfirst, hsecond⟩
    exact (hindex hop').2.2.elim hfirst hsecond
  rw [State.warrenGo_eq op static peek valid he hin ht hempty, State.takenJob_index, if_neg hplace, if_neg hrange, if_neg hop.1, if_neg hop.2,
    if_neg hplaced]
  exact hwrites

theorem reach_candidate {b : Nat} (hbucket : b = (s.candidates t key).1 ∨ b = (s.candidates t key).2) : Reach s t b := by
  rcases hbucket with rfl | rfl
  · exact h.first
  · exact h.second

/-! #### The key is absent -/

section
variable (habsent : KeyAbsent s t key)
include habsent

theorem ends_notFound (hop : op = 2 ∨ op = 3 ∨ op = 6) : EndsUnchanged s (s.warrenGo e op t static peek valid) e t (endCode 1) := by
  obtain ⟨j, v, hgo, hj, hv⟩ := h.warrenGo_writes op static peek valid (by omega) (by omega)
  have hop' := hj.op
  rw [hgo, hv.wWork_absent hj.who hj.table hj.key habsent, if_neg (by omega), if_neg (by omega)]
  exact hv.ends h.block hj.who _

theorem inserts {b w : Nat} (hway : b = (s.candidates t key).1 ∧ s.freeWay t (s.candidates t key).1 = some w ∨
      b = (s.candidates t key).2 ∧ s.freeWay t (s.candidates t key).1 = none ∧ s.freeWay t (s.candidates t key).2 = some w) :
    let data := BitVec.ofNat 128 (s.engWords e 0x180 4)
    let u := s.warrenGo e 1 t static peek valid
    (actionListed data = true → EndsWritten s u e t b w (newEntry (s.wtSize t) static false 0 data key) ∧ Counted s u warrenWin (0x104C + 0x100 * t)) ∧
    (actionListed data = false → EndsRefused s u e t) := by
  intro data u
  obtain ⟨j, v, hgo, hj, hv⟩ := h.warrenGo_writes 1 static peek valid (by omega) (by omega)
  have hop' := hj.op
  have hu : u = v.addKey j (s.candidates t key).1 (s.candidates t key).2 := by
    rw [hv.wWork_absent hj.who hj.table hj.key habsent, if_neg (by omega), if_pos (.inl hop')] at hgo
    exact hgo
  have hreachb : Reach s t b := h.reach_candidate (hway.imp And.left And.left)
  have hadds := hv.addKey_free h.block h.table hj.who hj.table (by omega) hreachb hway
  rw [hj.data, hj.static, hj.key] at hadds
  rw [hu]
  exact hadds

end

/-! #### One way holds the key -/

section
variable {b w : Nat} (hat : KeyAt s t key b w)
include hat

theorem ends_exists : EndsUnchanged s (s.warrenGo e 1 t static peek valid) e t (endEntry 2 b w (s.way t b w)) := by
  obtain ⟨j, v, hgo, hj, hv⟩ := h.warrenGo_writes 1 static peek valid (by omega) (by omega)
  have hop' := hj.op
  rw [hgo, hv.wWork_at hj.who hj.table hj.key hat, if_neg (by omega), if_pos hop']
  exact hv.ends h.block hj.who _

/-- A command that changes the entry of its key finds the way that holds it. -/
theorem warrenGo_changes (hop : op = 2 ∨ op = 3 ∨ op = 6) :
    ∃ j v, s.warrenGo e op t static peek valid = v.changeKey j b w ∧ j.Captured s e op t static key ∧ WarrenServes s e t j 1 v := by
  obtain ⟨j, v, hgo, hj, hv⟩ := h.warrenGo_writes op static peek valid (by omega) (by omega)
  have hop' := hj.op
  refine ⟨j, v, hgo.trans ?_, hj, hv⟩
  rw [hv.wWork_at hj.who hj.table hj.key hat, if_neg (by omega), if_neg (by omega), if_neg (by omega)]

theorem updates :
    let data := BitVec.ofNat 128 (s.engWords e 0x180 4)
    let u := s.warrenGo e 2 t static peek valid
    (actionListed data = true →
      EndsWritten s u e t b w (patchBytes (entSetFlag (entSetFlag (s.way t b w) 1 static) 2 true) 0x10 (leBytes 16 data.toNat))) ∧
    (actionListed data = false → EndsRefused s u e t) := by
  intro data u
  obtain ⟨j, v, hgo, hj, hv⟩ := h.warrenGo_changes 2 static peek valid hat (by omega)
  have hchange := hv.changeKey_update h.block h.table hj.who hj.table (h.reach_candidate hat.1) hat.2.1.1 hj.op
  rw [hj.data, hj.static] at hchange
  rw [show u = _ from hgo]
  exact hchange

theorem deletes :
    let u := s.warrenGo e 3 t static peek valid
    EndsWritten s u e t b w (entSetFlag (s.way t b w) 0 false) ∧ Counted s u warrenWin (0x1050 + 0x100 * t) := by
  intro u
  obtain ⟨j, v, hgo, hj, hv⟩ := h.warrenGo_changes 3 static peek valid hat (by omega)
  rw [show u = _ from hgo]
  exact hv.changeKey_delete h.block h.table hj.who hj.table (h.reach_candidate hat.1) hat.2.1.1 hj.op

theorem compares :
    let data := BitVec.ofNat 128 (s.engWords e 0x180 4)
    let cmp := BitVec.ofNat 64 (s.engWords e 0x190 2)
    let x := s.way t b w
    let u := s.warrenGo e 6 t static peek valid
    ((entAction x).toNat / 2 ^ 64 ≠ cmp.toNat → EndsUnchanged s u e t (endEntry 4 b w x)) ∧
    ((entAction x).toNat / 2 ^ 64 = cmp.toNat → EndsWritten s u e t b w (patchBytes (entSetFlag x 2 true) 0x10
      (leBytes 16 ((entAction x).toNat % 2 ^ 64 + data.toNat / 2 ^ 64 * 2 ^ 64)))) := by
  intro data cmp x u
  obtain ⟨j, v, hgo, hj, hv⟩ := h.warrenGo_changes 6 static peek valid hat (by omega)
  rw [show u = _ from hgo, show data = j.data from hj.data.symm, show cmp = j.cmp from hj.cmp.symm]
  exact ⟨hv.changeKey_differs h.block hj.who hj.table hj.op,
    hv.changeKey_compares h.block h.table hj.who hj.table (h.reach_candidate hat.1) hat.2.1.1 hj.op⟩

end

/-! #### WRITE_INDEX of a valid entry -/

section
variable {b w : Nat} (hindex : s.goIndex e < 4 * s.wtBuckets t) (hb : s.goIndex e / 4 = b) (hw : s.goIndex e % 4 = w)
  (hbucket : b = (s.candidates t key).1 ∨ b = (s.candidates t key).2)
include hindex hb hw hbucket

theorem writes_index (hplaced : KeyAbsent s t key ∨ KeyAt s t key b w) :
    let data := BitVec.ofNat 128 (s.engWords e 0x180 4)
    let u := s.warrenGo e 5 t static peek true
    (actionListed data = true → EndsWritten s u e t b w (newEntry (s.wtSize t) static false 0 data key)) ∧
    (actionListed data = false → EndsRefused s u e t) := by
  intro data u
  obtain ⟨j, v, hgo, hj, hv⟩ := h.warrenGo_writes 5 static peek true (by decide) fun _ => ⟨rfl, hindex, hb ▸ hbucket⟩
  have hu : u = State.writeIndex.go v j b w := by
    rcases hplaced with habsent | hat
    · rw [hv.wWork_absent hj.who hj.table hj.key habsent, if_pos hj.op, State.writeIndex, hj.index, hb, hw] at hgo
      exact hgo
    · rw [hv.wWork_at hj.who hj.table hj.key hat, if_pos hj.op, State.writeIndex, hj.index, hb, hw] at hgo
      simpa using hgo
  have hwrite := hv.writeIndex_go h.block h.table hj.who hj.table (h.reach_candidate hbucket) (hw ▸ Nat.mod_lt _ (by decide) : w < 4)
  rw [hj.data, hj.static, hj.key] at hwrite
  rw [hu]
  exact hwrite

theorem ends_elsewhere {b' w' : Nat} (hat : KeyAt s t key b' w') (hne : (b', w') ≠ (b, w)) :
    EndsUnchanged s (s.warrenGo e 5 t static peek true) e t (endEntry 2 b w (s.way t b' w')) := by
  obtain ⟨j, v, hgo, hj, hv⟩ := h.warrenGo_writes 5 static peek true (by decide) fun _ => ⟨rfl, hindex, hb ▸ hbucket⟩
  rw [hgo, hv.wWork_at hj.who hj.table hj.key hat, if_pos hj.op, State.writeIndex, hj.index, hb, hw]
  dsimp only
  rw [if_pos hne, hj.table, hv.way]
  exact hv.ends h.block hj.who _

end

/-! #### LOOKUP -/

theorem lookup_absent (habsent : KeyAbsent s t key) : EndsUnchanged s (s.warrenGo e 0 t static peek valid) e t (endCode 1) := by
  rw [h.toGoPlaced.warrenGo_lookup static peek valid]
  exact WarrenServes.wLookupWork_absent h.block h.table (s.fresh_takenJob e 0 t static peek valid) h.sought h.first h.second
    (State.serves_goTaken (n := 1 + 2) 0 static peek valid h.block h.table fun _ => h.tokens) habsent

section
variable {b w : Nat} (hat : KeyAt s t key b w)
include hat

theorem lookup_peeks : EndsUnchanged s (s.warrenGo e 0 t static true valid) e t (endEntry 0 b w (s.way t b w)) := by
  rw [h.toGoPlaced.warrenGo_lookup static true valid]
  exact WarrenServes.wLookupWork_peeks h.block h.table (s.fresh_takenJob e 0 t static true valid) h.sought h.first h.second hat
    (State.serves_goTaken (n := 1 + 2) 0 static true valid h.block h.table fun _ => h.tokens) rfl

theorem lookup_hits (hcfg : s.wtCfg t 12 12 = 0) :
    let u := s.warrenGo e 0 t static false valid
    u.way t b w = entSetFlag (s.way t b w) 2 true ∧ WarrenEnds u e (endEntry 0 b w (s.way t b w)) ∧ OtherWays s u t b w ∧ OnlyWarren s u e := by
  intro u
  rw [show u = _ from h.toGoPlaced.warrenGo_lookup static false valid]
  exact WarrenServes.wLookupWork_hits h.block h.table (s.fresh_takenJob e 0 t static false valid) h.sought h.first h.second hat
    (State.serves_goTaken (n := 0 + 3) 0 static false valid h.block h.table fun _ => h.tokens) rfl hcfg

end
end
end GoSeeks
end Sys2Proof.Machine
end

section
/-! The commands of WARREN_CMD as the obligation states them (05, R117, R124 to R127, R143, R541). -/

namespace Sys2Proof.Safety

open Sys2Proof.Machine

/-- Settles O35, by the checks of a go in their order and, past them, by what the search of the two candidate buckets comes to: the key is absent, or
one way holds it. -/
theorem warrenCommandsActOnWays : Obligations.WarrenCommandsActOnWays := by
  unfold Obligations.WarrenCommandsActOnWays
  intro s n table e t win key data cmp index c unchanged wrote refused
  have he : e < 4 := n.isLt
  have ht : t < 16 := table.isLt
  have hkey : s.wtKey t (leBytes 96 (s.engWords e 0x100 24)) = key := rfl
  clear_value key
  refine ⟨fun hempty hin hplace f v => ?_, fun ⟨hempty, hin, hplace, hfree⟩ hreach hreach' htokens f => ?_, fun hempty hin hplace hrange f v => ?_,
    fun hindex hempty hin hplace => ⟨fun hreach htokens => ?_, fun hreach htokens hfree f => ?_, fun hfirst hsecond f => ?_,
      fun hbucket hfree hreach hreach' htokens f => ⟨fun hplaced => ?_, fun b' w' hat hne => ?_⟩⟩⟩
  case refine_1 =>
    have hends (op : Nat) (hop : op < 16) (static peek valid : Bool) := ends_disabled op static peek valid he ht hempty hin hplace hop
    exact ⟨⟨_, rfl, hends 0 (by decide) _ _ _⟩, ⟨_, rfl, hends 1 (by decide) _ _ _⟩, ⟨_, rfl, hends 2 (by decide) _ _ _⟩,
      ⟨_, rfl, hends 3 (by decide) _ _ _⟩, ⟨_, rfl, hends 4 (by decide) _ _ _⟩, ⟨_, rfl, hends 5 (by decide) _ _ _⟩,
      ⟨_, rfl, hends 6 (by decide) _ _ _⟩⟩
  case refine_2 =>
    have h : GoSeeks s e t key := ⟨⟨he, ht, hempty, hin, hplace⟩, hkey, hreach, hreach', htokens, hfree⟩
    refine ⟨fun habsent => ⟨⟨_, rfl, h.lookup_absent _ _ _ habsent⟩, ⟨_, rfl, h.ends_notFound 2 _ _ _ habsent (by decide)⟩,
      ⟨_, rfl, h.ends_notFound 3 _ _ _ habsent (by decide)⟩, ⟨_, rfl, h.ends_notFound 6 _ _ _ habsent (by decide)⟩, fun b w hway => ?_⟩,
      fun b w hat => ?_⟩
    · obtain ⟨hlisted, hreserved⟩ := h.inserts f (s.cmdBit e 18) (s.cmdBit e 17) habsent hway
      exact ⟨fun haction => ⟨_, rfl, hlisted haction⟩, fun haction => ⟨_, rfl, hreserved haction⟩⟩
    · obtain ⟨hlisted, hreserved⟩ := h.updates f (s.cmdBit e 18) (s.cmdBit e 17) hat
      obtain ⟨hdiffers, hequal⟩ := h.compares (s.cmdBit e 19) (s.cmdBit e 18) (s.cmdBit e 17) hat
      exact ⟨⟨_, rfl, h.lookup_peeks _ _ hat⟩, fun hcfg => ⟨_, rfl, h.lookup_hits _ _ hat hcfg⟩, ⟨_, rfl, h.ends_exists _ _ _ hat⟩,
        fun haction => ⟨_, rfl, hlisted haction⟩, fun haction => ⟨_, rfl, hreserved haction⟩, ⟨_, rfl, h.deletes _ _ _ hat⟩,
        fun hcmp => ⟨_, rfl, hdiffers hcmp⟩, fun hcmp => ⟨_, rfl, hequal hcmp⟩⟩
  case refine_3 =>
    have h : GoPlaced s e t := ⟨he, ht, hempty, hin, hplace⟩
    exact ⟨⟨_, rfl, h.ends_range 4 _ _ _ (by decide) hrange⟩, ⟨_, rfl, h.ends_range 5 _ _ _ (by decide) hrange⟩⟩
  case refine_4 => exact ⟨_, rfl, GoPlaced.reads_index _ _ _ ⟨he, ht, hempty, hin, hplace⟩ hindex rfl rfl hreach htokens⟩
  case refine_5 => exact ⟨_, rfl, GoPlaced.clears_index _ _ ⟨he, ht, hempty, hin, hplace⟩ hindex rfl rfl hreach hfree htokens⟩
  case refine_6 => exact ⟨_, rfl, GoPlaced.ends_misplaced _ _ ⟨he, ht, hempty, hin, hplace⟩ hindex hkey hfirst hsecond⟩
  case refine_7 =>
    have h : GoSeeks s e t key := ⟨⟨he, ht, hempty, hin, hplace⟩, hkey, hreach, hreach', htokens, hfree⟩
    obtain ⟨hlisted, hreserved⟩ := h.writes_index f (s.cmdBit e 18) hindex rfl rfl hbucket hplaced
    exact ⟨fun haction => ⟨_, rfl, hlisted haction⟩, fun haction => ⟨_, rfl, hreserved haction⟩⟩
  case refine_8 =>
    have h : GoSeeks s e t key := ⟨⟨he, ht, hempty, hin, hplace⟩, hkey, hreach, hreach', htokens, hfree⟩
    exact ⟨_, rfl, h.ends_elsewhere _ _ hindex rfl rfl hbucket hat hne⟩

end Sys2Proof.Safety
end

section
/-! What Kettle's operations leave of its tables, and what the references to a packet's cells and the locks that a thread gives up leave beside them
(06, R146 to R167; 10, R296; 11, R312). -/

namespace Sys2Proof.Machine

/-! ### Tables after one number is put -/

section
variable {α : Type} (m : SMap α) (k : Nat) (v : α)

theorem SMap.eq_of_mem_put {w : α} (h : (k, w) ∈ SMap.put m k v) : w = v := by
  rcases SMap.mem_insert h with heq | hold
  · exact congrArg Prod.snd heq
  · exact absurd rfl (SMap.mem_erase hold).2

theorem SMap.mem_erase_of_ne {e : Nat × α} (h : e.1 ≠ k) : e ∈ SMap.erase m k ↔ e ∈ m := by
  induction m with
  | nil => rfl
  | cons f m ih =>
    obtain ⟨j, w⟩ := f
    by_cases hj : k = j
    · have hne : e ≠ (j, w) := fun he => h (by rw [he, hj])
      simp [SMap.erase, hj, hne, ← ih]
    · simp [SMap.erase, hj, ih]

theorem SMap.mem_insert_of_ne {e : Nat × α} (h : e.1 ≠ k) : e ∈ SMap.insert m k v ↔ e ∈ m := by
  have hne : e ≠ (k, v) := fun he => h (by rw [he])
  induction m with
  | nil => simp [SMap.insert, hne]
  | cons f m ih =>
    obtain ⟨j, w⟩ := f
    by_cases hj : k < j
    · simp [SMap.insert, hj, hne]
    · simp [SMap.insert, hj, ih]

theorem SMap.mem_put_of_ne {e : Nat × α} (h : e.1 ≠ k) : e ∈ SMap.put m k v ↔ e ∈ m := by
  rw [SMap.put, SMap.mem_insert_of_ne _ _ _ h, SMap.mem_erase_of_ne _ _ h]

theorem SMap.mem_of_find {m : SMap α} {k : Nat} {v : α} (h : SMap.find m k = some v) : (k, v) ∈ m := by
  induction m with
  | nil => simp at h
  | cons f m ih =>
    obtain ⟨j, w⟩ := f
    by_cases hj : k = j
    · simp only [SMap.find, hj, if_true, Option.some.injEq] at h
      simp [hj, h]
    · simp only [SMap.find, hj, if_false] at h
      exact List.mem_cons_of_mem _ (ih h)

theorem SMap.erase_of_find_none {m : SMap α} {k : Nat} (h : SMap.find m k = none) : SMap.erase m k = m := by
  induction m with
  | nil => rfl
  | cons f m ih =>
    obtain ⟨j, w⟩ := f
    by_cases hj : k = j
    · simp [SMap.find, hj] at h
    · simp only [SMap.find, hj, if_false] at h
      simp [SMap.erase, hj, ih h]

/-- What no entry put counts for is counted as before. -/
theorem SMap.countP_put {m : SMap α} {k : Nat} {v : α} (f : Nat × α → Bool) (hnew : SMap.find m k = none) (hf : f (k, v) = false) :
    (SMap.put m k v).countP f = m.countP f := by
  rw [SMap.put, SMap.erase_of_find_none hnew]
  clear hnew
  induction m with
  | nil => simp [SMap.insert, hf]
  | cons e m ih =>
    obtain ⟨j, w⟩ := e
    by_cases hj : k < j
    · simp [SMap.insert, hj, List.countP_cons, hf]
    · simp [SMap.insert, hj, List.countP_cons, ih]

end

/-- A property that speaks of smaller numbers only is held by an entry as before. -/
theorem SMap.exists_lt_put {α : Type} (m : SMap α) (k : Nat) (v : α) (P : α → Prop) :
    (∃ e ∈ SMap.put m k v, e.1 < k ∧ P e.2) ↔ ∃ e ∈ m, e.1 < k ∧ P e.2 :=
  exists_congr fun _ => and_congr_left fun ⟨hlt, _⟩ => SMap.mem_put_of_ne m k v (Nat.ne_of_lt hlt)

namespace State

/-! ### Kettle after each of its updates -/

section
variable (s : State)

@[simp] theorem kettle_setTask (k : Nat) (t : Task) : (s.setTask k t).kettle = { s.kettle with tasks := SMap.put s.kettle.tasks k t } := rfl
@[simp] theorem kettle_setPosition (k : Nat) (p : Position) :
    (s.setPosition k p).kettle = { s.kettle with positions := SMap.put s.kettle.positions k p } := rfl
@[simp] theorem kettle_setTokensOf (t n : Nat) :
    (s.setTokensOf t n).kettle = { s.kettle with tokens := SMap.set (fun _ => 0) s.kettle.tokens t n } := rfl
@[simp] theorem kettle_setTaskCountOf (t n : Nat) :
    (s.setTaskCountOf t n).kettle = { s.kettle with taskCount := SMap.set (fun _ => 0) s.kettle.taskCount t n } := rfl
@[simp] theorem kettle_setReg (w off : Nat) (v : Word32) : (s.setReg w off v).kettle = s.kettle := by rw [State.setReg]
@[simp] theorem kettle_countBy (w off n : Nat) : (s.countBy w off n).kettle = s.kettle := s.kettle_setReg _ _ _
@[simp] theorem kettle_count (w off : Nat) : (s.count w off).kettle = s.kettle := s.kettle_setReg _ _ _
@[simp] theorem kettle_setEvent (w off b : Nat) : (s.setEvent w off b).kettle = s.kettle := s.kettle_setReg _ _ _
@[simp] theorem kettle_report (t : Nat) (ts : Word64) (l : List (Nat × Nat)) : (s.report t ts l).kettle = s.kettle := rfl
@[simp] theorem kettle_modThread (t : Nat) (f : Thread → Thread) : (s.modThread t f).kettle = s.kettle := rfl

end

section
variable {s u : State} (h : u.kettle = s.kettle)
include h

theorem task_of_kettle (k : Nat) : u.task k = s.task k := by rw [State.task, h, State.task]
theorem position_of_kettle (k : Nat) : u.position k = s.position k := by rw [State.position, h, State.position]
theorem tokensOf_of_kettle (t : Nat) : u.tokensOf t = s.tokensOf t := by rw [State.tokensOf, h, State.tokensOf]
theorem taskCountOf_of_kettle (t : Nat) : u.taskCountOf t = s.taskCountOf t := by rw [State.taskCountOf, h, State.taskCountOf]

end

/-! ### References and locks (R296, R312) -/

/-- The state without its registers, its memory errors, its memories, Loft's cells, the ports, the packets and the locks: what neither references to
packets' cells nor the departure of a holder of locks changes. -/
def beyondRefs (s : State) : State := { s.beyondCells with packets := [], stile := State.reset.stile }

section
variable {s u : State} (h : u.beyondRefs = s.beyondRefs)
include h

theorem kettle_of_beyondRefs : u.kettle = s.kettle := show u.beyondRefs.kettle = s.beyondRefs.kettle from congrArg State.kettle h
theorem reports_of_beyondRefs : u.reports = s.reports := show u.beyondRefs.reports = s.beyondRefs.reports from congrArg State.reports h
theorem drover_of_beyondRefs : u.drover = s.drover := show u.beyondRefs.drover = s.beyondRefs.drover from congrArg State.drover h
theorem threads_of_beyondRefs : u.threads = s.threads := show u.beyondRefs.threads = s.beyondRefs.threads from congrArg State.threads h

end

section
variable (s : State)

theorem beyondRefs_of_beyondCells {s u : State} (h : u.beyondCells = s.beyondCells) : u.beyondRefs = s.beyondRefs :=
  congrArg (fun v : State => { v with packets := [], stile := State.reset.stile }) h

@[simp] theorem beyondRefs_refDec (handle : Nat) : (s.refDec handle).beyondRefs = s.beyondRefs := beyondRefs_of_beyondCells (s.beyondCells_refDec handle)

@[simp] theorem beyondRefs_refInc (handle : Nat) : (s.refInc handle).beyondRefs = s.beyondRefs :=
  beyondRefs_of_beyondCells (by simp [State.refInc])

@[simp] theorem beyondRefs_packets (m : SMap Packet) : ({ s with packets := m } : State).beyondRefs = s.beyondRefs := rfl
@[simp] theorem beyondRefs_setPacket (pid : Nat) (p : Packet) : (s.setPacket pid p).beyondRefs = s.beyondRefs := rfl

@[simp] theorem beyondRefs_takeRef (pid : Nat) : (s.takeRef pid).beyondRefs = s.beyondRefs := by
  fun_cases State.takeRef s pid <;> simp

@[simp] theorem beyondRefs_releaseRef (pid : Nat) : (s.releaseRef pid).beyondRefs = s.beyondRefs := by
  fun_cases State.releaseRef s pid <;> simp +zetaDelta

@[simp] theorem beyondRefs_endPacket (pid : Nat) : (s.endPacket pid).beyondRefs = s.beyondRefs := by
  fun_cases State.endPacket s pid <;> simp +zetaDelta

@[simp] theorem beyondRefs_modStile (f : StileSt → StileSt) : (s.modStile f).beyondRefs = s.beyondRefs := rfl
@[simp] theorem beyondRefs_setLock (l : Nat) (x : LockSt) : (s.setLock l x).beyondRefs = s.beyondRefs := rfl

@[simp] theorem beyondRefs_setReg (w off : Nat) (v : Word32) : (s.setReg w off v).beyondRefs = s.beyondRefs :=
  beyondRefs_of_beyondCells (s.beyondCells_setReg w off v)

@[simp] theorem beyondRefs_abandon (l : Nat) : (s.abandon l).beyondRefs = s.beyondRefs := by
  rw [State.abandon, State.setEvent, beyondRefs_setReg, State.stileCount, State.count, State.countBy, beyondRefs_setReg, beyondRefs_setLock]

@[simp] theorem beyondRefs_ite (c : Prop) [Decidable c] (u : State) :
    (if c then s else u).beyondRefs = if c then s.beyondRefs else u.beyondRefs := apply_ite State.beyondRefs c s u

theorem beyondRefs_depart (w : Nat) : (s.depart w).beyondRefs = s.beyondRefs := by
  rw [State.depart, foldl_keeps (g := State.beyondRefs) (fun v e => ?_), beyondRefs_modStile]
  simp

theorem lowRegs_takeRef (pid : Nat) : (s.takeRef pid).lowRegs = s.lowRegs := by
  fun_cases State.takeRef s pid <;> simp [State.refInc]

theorem lowRegs_releaseRef (pid : Nat) : (s.releaseRef pid).lowRegs = s.lowRegs := by
  have herase (v : State) : ({ v with packets := SMap.erase v.packets pid } : State).lowRegs = v.lowRegs := rfl
  fun_cases State.releaseRef s pid <;> simp +zetaDelta [herase]

@[simp] theorem kettle_takeRef (pid : Nat) : (s.takeRef pid).kettle = s.kettle := kettle_of_beyondRefs (s.beyondRefs_takeRef pid)
@[simp] theorem kettle_releaseRef (pid : Nat) : (s.releaseRef pid).kettle = s.kettle := kettle_of_beyondRefs (s.beyondRefs_releaseRef pid)
@[simp] theorem kettle_endPacket (pid : Nat) : (s.endPacket pid).kettle = s.kettle := kettle_of_beyondRefs (s.beyondRefs_endPacket pid)
@[simp] theorem kettle_depart (w : Nat) : (s.depart w).kettle = s.kettle := kettle_of_beyondRefs (s.beyondRefs_depart w)

end
end State
end Sys2Proof.Machine
end

section
/-! Dispatch: which tasks wait for their tenant's quota, what the binding of a task to a Leaf leaves, and what the choice of R153 reads (06, R153, R156). -/

namespace Sys2Proof.Machine

/-- Task k, x before, is bound to Leaf l: it stands on its ready list as the newest, its order domain follows it, and it counts for its tenant. -/
def BoundTo (s u : State) (k l : Nat) (x : Task) : Prop :=
  u.task k = some { x with leaf := some l, quotaWait := false, arrived := s.kettle.nextSeq } ∧ SMap.find u.kettle.affinity x.od = some l ∧
  u.taskCountOf x.tenant = s.taskCountOf x.tenant + 1 ∧ u = { s with kettle := u.kettle } ∧ ∀ j, j ≠ k → u.task j = s.task j

namespace State

section
variable (s : State) (k : Nat) (x : Task)

/-! ### Binding -/

theorem bindTask_eq (l : Nat) : s.bindTask k x l = { s with kettle := { s.kettle with
    tasks := SMap.put s.kettle.tasks k { x with leaf := some l, quotaWait := false, arrived := s.kettle.nextSeq }
    nextSeq := s.kettle.nextSeq + 1
    affinity := SMap.put s.kettle.affinity x.od l
    taskCount := SMap.set (fun _ => 0) s.kettle.taskCount x.tenant (s.taskCountOf x.tenant + 1) } } := by
  simp only [State.bindTask, State.setTask, State.modKettle, State.setTaskCountOf, State.taskCountOf]

theorem kettle_bindTask (l : Nat) : (s.bindTask k x l).kettle = { s.kettle with
    tasks := SMap.put s.kettle.tasks k { x with leaf := some l, quotaWait := false, arrived := s.kettle.nextSeq }
    nextSeq := s.kettle.nextSeq + 1
    affinity := SMap.put s.kettle.affinity x.od l
    taskCount := SMap.set (fun _ => 0) s.kettle.taskCount x.tenant (s.taskCountOf x.tenant + 1) } := by rw [bindTask_eq]

@[simp] theorem reports_setTask : (s.setTask k x).reports = s.reports := rfl
@[simp] theorem regs_setTask : (s.setTask k x).regs = s.regs := rfl
@[simp] theorem reports_bindTask (l : Nat) : (s.bindTask k x l).reports = s.reports := by rw [bindTask_eq]
@[simp] theorem regs_bindTask (l : Nat) : (s.bindTask k x l).regs = s.regs := by rw [bindTask_eq]

theorem boundTo_bindTask (l : Nat) : BoundTo s (s.bindTask k x l) k l x := by
  refine ⟨?_, ?_, ?_, by rw [bindTask_eq], fun j hj => ?_⟩
  · simp [State.task, kettle_bindTask]
  · simp [kettle_bindTask]
  · simp [State.taskCountOf, kettle_bindTask]
  · simp [State.task, kettle_bindTask, SMap.find_put_of_ne _ _ hj]

/-! ### The cases of a dispatch -/

/-- A root waits while its tenant's count is at its quota, or an older root of the tenant waits. -/
theorem rootWaits_iff : s.rootWaits k x = true ↔ x.child = false ∧ (s.quotaOf (s.kettleClass x.tenant) ≤ s.taskCountOf x.tenant ∨
    ∃ e ∈ s.kettle.tasks, e.1 < k ∧ e.2.quotaWait = true ∧ e.2.tenant = x.tenant) := by
  simp [State.rootWaits, and_assoc]

theorem olderHeld_iff : s.olderHeld k = true ↔
    ∃ e ∈ s.kettle.tasks, e.1 < k ∧ e.2.leaf.isNone = true ∧ e.2.taken.isNone = true ∧ e.2.quotaWait = false := by
  simp [State.olderHeld, and_assoc]

variable {s k x}

/-- A task may go first that is a child, or whose tenant is below its quota with no older root that waits. -/
theorem rootWaits_eq_false_iff : s.rootWaits k x = false ↔ x.child = true ∨ (s.taskCountOf x.tenant < s.quotaOf (s.kettleClass x.tenant) ∧
    ∀ e ∈ s.kettle.tasks, e.1 < k → e.2.quotaWait = true → e.2.tenant ≠ x.tenant) := by
  rw [← Bool.not_eq_true, rootWaits_iff, not_and_or, Bool.not_eq_false, not_or, Nat.not_le]
  refine or_congr_right (and_congr_right fun _ => ?_)
  simp only [not_exists, not_and, ne_eq]

section
variable (htask : s.task k = some x)
include htask

theorem dispatch_waits (hwaits : s.rootWaits k x = true) : s.dispatch k = s.setTask k { x with quotaWait := true } := by
  simp only [State.dispatch, htask, hwaits, if_true]

theorem dispatch_binds {l : Nat} (hfirst : s.rootWaits k x = false) (hnoOlder : s.olderHeld k = false) (hleaf : s.chooseLeaf x.od = some l) :
    s.dispatch k = s.bindTask k x l := by
  simp only [State.dispatch, State.place, htask, hfirst, hnoOlder, hleaf, Bool.false_eq_true, if_false]

/-- A task that need not wait for its tenant's quota is bound, or held in the store. -/
theorem dispatch_places (hfirst : s.rootWaits k x = false) :
    s.dispatch k = s.setTask k { x with quotaWait := false } ∨ ∃ l, s.dispatch k = s.bindTask k x l := by
  simp only [State.dispatch, State.place, htask, hfirst, Bool.false_eq_true, if_false]
  split
  · exact .inl rfl
  · split
    · exact .inr ⟨_, rfl⟩
    · exact .inl rfl

end

/-! ### A new task among those there are -/

variable (s) in
/-- A new task is the youngest of its tenant's: it waits as its tenant's quota and older roots say. -/
theorem rootWaits_setTask (y : Task) : (s.setTask k y).rootWaits k x = s.rootWaits k x := by
  rw [Bool.eq_iff_iff, rootWaits_iff, rootWaits_iff, kettle_setTask]
  rw [SMap.exists_lt_put s.kettle.tasks k y (fun e => e.quotaWait = true ∧ e.tenant = x.tenant)]
  rfl

variable (s) in
theorem olderHeld_setTask (y : Task) : (s.setTask k y).olderHeld k = s.olderHeld k := by
  rw [Bool.eq_iff_iff, olderHeld_iff, olderHeld_iff, kettle_setTask]
  exact SMap.exists_lt_put s.kettle.tasks k y (fun e => e.leaf.isNone = true ∧ e.taken.isNone = true ∧ e.quotaWait = false)

/-- The choice of R153 reads the Gatherings, the affinity map and the lengths of the ready lists. -/
theorem chooseLeaf_congr {s u : State} (hgath : u.gath = s.gath) (haffinity : u.kettle.affinity = s.kettle.affinity)
    (hwaiting : u.waitingOf = s.waitingOf) (hlist : u.readyList = s.readyList) (od : Nat) : u.chooseLeaf od = s.chooseLeaf od := by
  have heligible : u.leafEligible = s.leafEligible := by
    have hgathOf : u.gathOf = s.gathOf := funext fun w => by rw [State.gathOf, hgath, State.gathOf]
    funext l
    simp only [State.leafEligible, hgathOf]
  have hleast : u.leastLeaf = s.leastLeaf := by
    funext q
    simp only [State.leastLeaf, hwaiting, heligible]
  have hquire : u.leastQuire = s.leastQuire := by
    have hload : u.quireLoad = s.quireLoad := by
      funext q
      simp only [State.quireLoad, hwaiting, heligible]
    simp only [State.leastQuire, hload, hleast, hlist]
  simp only [State.chooseLeaf, haffinity, heligible, hwaiting, hleast, hlist, hquire]

/-- A new task that no Leaf has leaves the choice of R153 as it was. -/
theorem chooseLeaf_setTask (s : State) {k : Nat} (hnew : s.task k = none) {y : Task} (hy : y.leaf = none) (od : Nat) :
    (s.setTask k y).chooseLeaf od = s.chooseLeaf od := by
  refine chooseLeaf_congr (s := s) (u := s.setTask k y) rfl rfl (funext fun l => ?_) (funext fun q => ?_) od
  · exact SMap.countP_put _ hnew (by simp [hy])
  · exact SMap.countP_put _ hnew (by simp [hy])

end
end State
end Sys2Proof.Machine
end

section
/-! A packet at a lane's intake takes its position: the position, its token and its report, and its root task (06, R146, R148, R152, R156, R157). -/

namespace Sys2Proof.Machine

open Sys2Proof.Safety

/-! ### What dispatch reads of Kettle's registers -/

theorem mdTenant_lt (md : BitVec 512) : mdTenant md < 16384 := BitVec.isLt _

namespace State

theorem kettleClass_lt (s : State) (t : Nat) : s.kettleClass t < 16 := by
  have hbits : 4 * (t % 8) + 3 - 4 * (t % 8) + 1 = 4 := by omega
  exact (fld_lt _ _ _).trans_eq (by rw [hbits]; rfl)

theorem rf_of_reg {s u : State} {w o : Nat} (h : u.reg w o = s.reg w o) (hi lo : Nat) : u.rf w o hi lo = s.rf w o hi lo := by
  rw [State.rf, h, State.rf]

section
variable {s u : State} (h : ∀ o, o < 0x10000 → u.reg kettleWin o = s.reg kettleWin o)
include h

theorem kettleClass_congr {t : Nat} (ht : t < 16384) : u.kettleClass t = s.kettleClass t := rf_of_reg (h _ (by omega)) _ _

theorem budgetOfClass_congr {k : Nat} (hk : k < 16) : u.budgetOfClass k = s.budgetOfClass k := by
  have hsel : u.rf kettleWin (0x200 + 8 * k) 13 12 = s.rf kettleWin (0x200 + 8 * k) 13 12 := rf_of_reg (h _ (by omega)) _ _
  have hlt : s.rf kettleWin (0x200 + 8 * k) 13 12 < 4 := fld_lt _ _ _
  rw [State.budgetOfClass, hsel, State.budgetOfClass]
  exact rf_of_reg (h _ (by omega)) _ _

end

/-! ### The position, its token and its report -/

section
variable (s : State)

/-- The head of an order domain that notes its time is a position of it whose release has not begun. -/
theorem noteHead_cases (od : Nat) : s.noteHead od = s ∨
    ∃ k p, (k, p) ∈ s.kettle.positions ∧ p.releasing = false ∧ s.noteHead od = s.setPosition k { p with headSince := some s.time.cycles } := by
  unfold State.noteHead
  split
  · next k p hhead =>
    have hnot := List.find?_some hhead
    simp only [Bool.and_eq_true, Bool.not_eq_true'] at hnot
    split
    · exact .inr ⟨k, p, List.mem_of_find?_eq_some hhead, hnot.2, rfl⟩
    · exact .inl rfl
  · exact .inl rfl

theorem noteHead_frame (od : Nat) :
    s.noteHead od = { s with kettle := { s.kettle with positions := (s.noteHead od).kettle.positions } } := by
  rcases s.noteHead_cases od with h | ⟨k, p, -, -, h⟩
  · rw [h]
  · rw [h]; rfl

theorem nextTask_noteHead (od : Nat) : (s.noteHead od).kettle.nextTask = s.kettle.nextTask := by
  have hnext := congrArg (fun v : State => v.kettle.nextTask) (s.noteHead_frame od)
  exact hnext

/-- A position listed once stays but for the moment since when it is head. -/
theorem position_noteHead {s : State} {k : Nat} {p : Position} (hp : s.position k = some p)
    (honce : ∀ q, (k, q) ∈ s.kettle.positions → q = p) (od : Nat) :
    ∃ since, (s.noteHead od).position k = some { p with headSince := since } := by
  rcases s.noteHead_cases od with h | ⟨j, q, hmem, -, h⟩
  · exact ⟨p.headSince, by rw [h, hp]⟩
  · rw [h]
    by_cases hj : k = j
    · subst hj
      exact ⟨_, by simp [State.position, honce q hmem]; rfl⟩
    · exact ⟨p.headSince, by simpa [State.position, SMap.find_put_of_ne _ _ hj] using hp⟩

theorem rickFlow_congr {s u : State} (h : ∀ o, o < 0x10000 → u.reg sheafWin o = s.reg sheafWin o) (md : BitVec 512) :
    u.rickFlow md = s.rickFlow md := by
  simp only [State.rickFlow, State.rf, h 0x200 (by decide), h 0x204 (by decide)]

variable (lane : Nat) (i : Intake) (p : Packet)

/-- The packet has left the intake, with its position and its token. -/
def numbered : State :=
  let s1 := s.modKettle (fun x => { x with nextPos := s.kettle.nextPos + 1, intake := SMap.erase x.intake lane })
  (s1.setPosition s.kettle.nextPos (newPosition i p)).setTokensOf (mdTenant p.md) (s.tokensOf (mdTenant p.md) + 1)

/-- Its position is stored, reported, and noted if it is head. -/
def positioned : State :=
  (((s.numbered lane i p).writeItem kettleWin 0 s.kettle.nextPos).reportFlow p.md (mdTenant p.md) p.ts [(0, 1), (1, p.bytes.length)]).noteHead
    (mdOd p.md)

theorem takePosition_eq : s.takePosition lane i p = if i.needsTask then
    (s.positioned lane i p).createRoot ((s.positioned lane i p).rootTask s.kettle.nextPos i p) else s.positioned lane i p := rfl

end
end State

/-- A packet has its position, and its root task at most a number (R152). -/
structure HasPosition (s v : State) (lane : Nat) (i : Intake) (p : Packet) : Prop where
  kettle : v.kettle = { s.kettle with
    nextPos := s.kettle.nextPos + 1, intake := SMap.erase s.kettle.intake lane, positions := v.kettle.positions, nextTask := v.kettle.nextTask
    tokens := SMap.set (fun _ => 0) s.kettle.tokens (mdTenant p.md) (s.tokensOf (mdTenant p.md) + 1) }
  position : ∃ since, v.position s.kettle.nextPos = some { newPosition i p with headSince := since }
  reports : v.reports = s.reports ++ [⟨mdTenant p.md, p.ts, [(0, 1), (1, p.bytes.length)], s.rickFlow p.md⟩]
  gath : v.gath = s.gath
  reg : ∀ o, o < 0x10000 → o ≠ 0x300 → v.reg kettleWin o = s.reg kettleWin o

section
variable (s : State) (lane : Nat) (i : Intake) (p : Packet)

theorem State.reg_positioned {o : Nat} (ho : o < 0x10000) : (s.positioned lane i p).reg kettleWin o = s.reg kettleWin o := by
  have hwindows := (LingWork.eccWrite (s.numbered lane i p) kettleWin 0 (Config.stateAddr (128 * kettleWin + 0) s.kettle.nextPos) 16).windows
  exact (State.reg_of_regs (congrArg State.regs (State.noteHead_frame _ _)) _ _).trans (hwindows kettleWin o (by decide) ho)

theorem State.nextTask_positioned : (s.positioned lane i p).kettle.nextTask = s.kettle.nextTask := by
  have hkettle := State.kettle_of_beyondCells ((s.numbered lane i p).beyondCells_writeItem kettleWin 0 s.kettle.nextPos)
  have hnext := congrArg KettleSt.nextTask hkettle
  exact (State.nextTask_noteHead _ _).trans hnext

theorem hasPosition_positioned : HasPosition s (s.positioned lane i p) lane i p := by
  have hreg (o : Nat) (ho : o < 0x10000) := s.reg_positioned lane i p ho
  have hbeyond := (s.numbered lane i p).beyondCells_writeItem kettleWin 0 s.kettle.nextPos
  have hwindows := (LingWork.eccWrite (s.numbered lane i p) kettleWin 0 (Config.stateAddr (128 * kettleWin + 0) s.kettle.nextPos) 16).windows
  have hflow : ((s.numbered lane i p).writeItem kettleWin 0 s.kettle.nextPos).rickFlow p.md = s.rickFlow p.md :=
    State.rickFlow_congr (fun o ho => hwindows sheafWin o (by decide) ho) _
  have hkettle := State.kettle_of_beyondCells hbeyond
  rw [State.positioned] at hreg ⊢
  generalize (s.numbered lane i p).writeItem kettleWin 0 s.kettle.nextPos = v at hbeyond hflow hkettle hreg ⊢
  have hreported : (v.reportFlow p.md (mdTenant p.md) p.ts [(0, 1), (1, p.bytes.length)]).kettle = (s.numbered lane i p).kettle := hkettle
  have hreports : (v.reportFlow p.md (mdTenant p.md) p.ts [(0, 1), (1, p.bytes.length)]).reports =
      s.reports ++ [⟨mdTenant p.md, p.ts, [(0, 1), (1, p.bytes.length)], s.rickFlow p.md⟩] := by
    rw [State.reportFlow, hflow, State.reports_of_beyondCells hbeyond]; rfl
  have hgath : (v.reportFlow p.md (mdTenant p.md) p.ts [(0, 1), (1, p.bytes.length)]).gath = s.gath :=
    show v.beyondCells.gath = (s.numbered lane i p).beyondCells.gath from congrArg State.gath hbeyond
  generalize v.reportFlow p.md (mdTenant p.md) p.ts [(0, 1), (1, p.bytes.length)] = w at hreported hreports hgath hreg ⊢
  have hframe := w.noteHead_frame (mdOd p.md)
  refine ⟨?_, State.position_noteHead (p := newPosition i p) ?_ (fun q hq => ?_) _, (congrArg State.reports hframe).trans hreports,
    (congrArg State.gath hframe).trans hgath, fun o ho _ => hreg o ho⟩
  · have hw := congrArg State.kettle hframe
    generalize w.noteHead (mdOd p.md) = u at hw ⊢
    rw [hw, hreported]
    rfl
  · rw [State.position_of_kettle hreported]
    exact SMap.find_put_self _ _ _
  · rw [hreported] at hq
    exact SMap.eq_of_mem_put s.kettle.positions _ _ hq

end

/-- What a packet that takes its position leaves of the lane, the order, the tokens and the reports. -/
def TakesPosition (s u : State) (lane : Nat) (i : Intake) (p : Packet) : Prop :=
  SMap.find u.kettle.intake lane = none ∧ u.kettle.nextPos = s.kettle.nextPos + 1 ∧
  u.tokensOf (mdTenant p.md) = s.tokensOf (mdTenant p.md) + 1 ∧
  u.reports = s.reports ++ [⟨mdTenant p.md, p.ts, [(0, 1), (1, p.bytes.length)], s.rickFlow p.md⟩] ∧
  ∃ x, u.position s.kettle.nextPos = some x ∧ x.pid = i.pid ∧ x.tenant = mdTenant p.md ∧ x.od = mdOd p.md ∧ x.nextNode = 1 ∧
    x.mirror = i.mirror ∧ x.dropped = none ∧ x.releasing = false ∧ x.ownRef = i.alive ∧
    x.live = (if i.alive && i.exception.isNone then [0] else [])

/-- A root task of the packet, as R152 writes it. -/
def IsRoot (s : State) (i : Intake) (p : Packet) (x : Task) : Prop :=
  x.pos = s.kettle.nextPos ∧ x.node = 0 ∧ x.tenant = mdTenant p.md ∧ x.od = mdOd p.md ∧ x.entry = mdEntry p.md ∧ x.pid = i.pid ∧
  x.budget = s.budgetOfClass (s.kettleClass (mdTenant p.md)) ∧ x.hdr = p.bytes.take 512 ∧ x.frameLen = p.bytes.length ∧ x.slots = 0 ∧
  x.taken = none ∧ x.ts = p.ts

theorem isRoot_rootTask (s : State) (lane : Nat) (i : Intake) (p : Packet) :
    IsRoot s i p ((s.positioned lane i p).rootTask s.kettle.nextPos i p) := by
  have hreg (o : Nat) (ho : o < 0x10000) := s.reg_positioned lane i p ho
  refine ⟨rfl, rfl, rfl, rfl, rfl, rfl, ?_, rfl, rfl, rfl, rfl, rfl⟩
  rw [← State.budgetOfClass_congr hreg (s.kettleClass_lt _), ← State.kettleClass_congr hreg (mdTenant_lt _)]
  rfl

/-- A root task of tenant t joins its tenant's quota list (R156). -/
def RootQueues (s : State) (t : Nat) : Prop :=
  s.quotaOf (s.kettleClass t) ≤ s.taskCountOf t ∨ ∃ e ∈ s.kettle.tasks, e.1 < s.kettle.nextTask ∧ e.2.quotaWait = true ∧ e.2.tenant = t

/-- The number of the next task is given out, and the root counted. -/
def State.countedRoot (v : State) : State := (v.modKettle (fun k => { k with nextTask := v.kettle.nextTask + 1 })).count kettleWin 0x300

theorem State.createRoot_eq (v : State) (x : Task) :
    v.createRoot x = (v.countedRoot.setTask v.kettle.nextTask x).dispatch v.kettle.nextTask := rfl

theorem counted_of_regs {s v u : State} (h : u.regs = v.regs) {w o : Nat} (hcounted : Counted s v w o) : Counted s u w o := by
  rw [Counted, State.reg_of_regs h]; exact hcounted

namespace HasPosition

variable {s v : State} {lane : Nat} {i : Intake} {p : Packet}

section
variable (h : HasPosition s v lane i p)
include h

theorem countedRoot : HasPosition s v.countedRoot lane i p := by
  obtain ⟨hkettle, hposition, hreports, hgath, hreg⟩ := h
  refine ⟨?_, hposition, hreports, hgath, fun o ho hne => (State.reg_count_of_off_ne (v.modKettle _) kettleWin hne).trans (hreg o ho hne)⟩
  rw [State.countedRoot, State.kettle_count, State.modKettle_kettle, hkettle]

theorem takes {u : State} (hintake : u.kettle.intake = v.kettle.intake) (hnext : u.kettle.nextPos = v.kettle.nextPos)
    (htokens : u.kettle.tokens = v.kettle.tokens) (hpositions : u.kettle.positions = v.kettle.positions) (hreports : u.reports = v.reports) :
    TakesPosition s u lane i p := by
  obtain ⟨since, hpos⟩ := h.position
  refine ⟨?_, ?_, ?_, hreports.trans h.reports, { newPosition i p with headSince := since }, ?_, rfl, rfl, rfl, rfl, rfl, rfl, rfl, rfl, rfl⟩
  · rw [hintake, h.kettle]; exact SMap.find_erase_self _ _
  · rw [hnext, h.kettle]
  · rw [State.tokensOf, htokens, h.kettle]; simp
  · rw [State.position, hpositions]; exact hpos

theorem tasks : v.kettle.tasks = s.kettle.tasks := by rw [h.kettle]

theorem taskCountOf (t : Nat) : v.taskCountOf t = s.taskCountOf t := by rw [State.taskCountOf, h.kettle, State.taskCountOf]

/-! ### The root task is dispatched -/

theorem rootWaits_iff {x : Task} (hchild : x.child = false) (htenant : x.tenant < 16384) :
    v.rootWaits s.kettle.nextTask x = true ↔ RootQueues s x.tenant := by
  have hclass : v.kettleClass x.tenant = s.kettleClass x.tenant := State.rf_of_reg (h.reg _ (by omega) (by omega)) _ _
  have hlt := s.kettleClass_lt x.tenant
  have hquota : v.quotaOf (s.kettleClass x.tenant) = s.quotaOf (s.kettleClass x.tenant) :=
    State.rf_of_reg (h.reg _ (by omega) (by omega)) _ _
  rw [State.rootWaits_iff, hclass, hquota, h.taskCountOf, h.tasks, RootQueues]
  simp only [hchild, true_and]

theorem chooseLeaf (od : Nat) : v.chooseLeaf od = s.chooseLeaf od := by
  have htasks := h.tasks
  refine State.chooseLeaf_congr h.gath (by rw [h.kettle]) (funext fun _ => ?_) (funext fun _ => ?_) od
  · rw [State.waitingOf, htasks, State.waitingOf]
  · rw [State.readyList, htasks, State.readyList]

variable {x : Task} (hcounted : Counted s v kettleWin 0x300) (hroot : IsRoot s i p x) (hchild : x.child = false)
include hcounted hroot hchild

/-- A root whose tenant's list it must join waits there. -/
theorem root_waits (hleaf : x.leaf = none) (hwaits : RootQueues s (mdTenant p.md)) :
    ∃ u, (v.setTask s.kettle.nextTask x).dispatch s.kettle.nextTask = u ∧ TakesPosition s u lane i p ∧ Counted s u kettleWin 0x300 ∧
      u.taskCountOf (mdTenant p.md) = s.taskCountOf (mdTenant p.md) ∧
      ∃ y, u.task s.kettle.nextTask = some y ∧ IsRoot s i p y ∧ y.quotaWait = true ∧ y.leaf = none := by
  have ⟨_, _, htenant, _⟩ := hroot
  have hqueues := (h.rootWaits_iff hchild (htenant ▸ mdTenant_lt _)).2 (htenant ▸ hwaits)
  rw [← State.rootWaits_setTask _ x] at hqueues
  refine ⟨_, State.dispatch_waits (State.task_setTask_self _ _ _) hqueues, h.takes rfl rfl rfl rfl rfl, counted_of_regs (v := v) (by simp) hcounted, h.taskCountOf _, _,
    State.task_setTask_self _ _ _, hroot, rfl, hleaf⟩

/-- A root that need not wait is bound to the Leaf of R153. -/
theorem root_binds {l : Nat} (hleaf : x.leaf = none) (hnew : s.task s.kettle.nextTask = none) (hfirst : ¬ RootQueues s (mdTenant p.md))
    (hnoOlder : s.olderHeld s.kettle.nextTask = false) (hchosen : s.chooseLeaf (mdOd p.md) = some l) :
    ∃ u, (v.setTask s.kettle.nextTask x).dispatch s.kettle.nextTask = u ∧ TakesPosition s u lane i p ∧ Counted s u kettleWin 0x300 ∧
      u.taskCountOf (mdTenant p.md) = s.taskCountOf (mdTenant p.md) + 1 ∧ SMap.find u.kettle.affinity (mdOd p.md) = some l ∧
      ∃ y, u.task s.kettle.nextTask = some y ∧ IsRoot s i p y ∧ y.quotaWait = false ∧ y.leaf = some l := by
  have ⟨_, _, htenant, hod, _⟩ := hroot
  have hgoes : (v.setTask s.kettle.nextTask x).rootWaits s.kettle.nextTask x = false := by
    rw [State.rootWaits_setTask, ← Bool.not_eq_true, h.rootWaits_iff hchild (htenant ▸ mdTenant_lt _), htenant]; exact hfirst
  have hnone : (v.setTask s.kettle.nextTask x).olderHeld s.kettle.nextTask = false := by
    rw [State.olderHeld_setTask, State.olderHeld, h.tasks]; exact hnoOlder
  have hchoice : (v.setTask s.kettle.nextTask x).chooseLeaf x.od = some l := by
    rw [State.chooseLeaf_setTask v (by rw [State.task, h.tasks]; exact hnew) hleaf, h.chooseLeaf, hod]; exact hchosen
  obtain ⟨htask, haffinity, hcount, -, -⟩ := State.boundTo_bindTask (v.setTask s.kettle.nextTask x) s.kettle.nextTask x l
  rw [htenant] at hcount
  rw [hod] at haffinity
  have hunbound : (v.setTask s.kettle.nextTask x).taskCountOf (mdTenant p.md) = s.taskCountOf (mdTenant p.md) := h.taskCountOf _
  rw [hunbound] at hcount
  exact ⟨_, State.dispatch_binds (State.task_setTask_self _ _ _) hgoes hnone hchoice, h.takes rfl rfl rfl rfl (by simp),
    counted_of_regs (v := v) (by simp) hcounted, hcount, haffinity, _, htask, hroot, rfl, rfl⟩

end
end HasPosition
end Sys2Proof.Machine
end

section
/-! Each row of the intake and of dispatch as the obligation states it (06, R146, R148, R152, R153, R156, R157, R169). -/

namespace Sys2Proof.Machine.State

open Sys2Proof.Safety

/-! ### What R157 answers -/

section
variable {s : State} {t : Nat}

theorem tokenFor_take (h : s.tokensOf t < s.tokenReserve (s.kettleClass t) ∧ 0 < 16384 - s.kettle.positions.length ∨
    s.tokensOf t < s.tokenCap (s.kettleClass t) ∧ s.tokensOwed t < 16384 - s.kettle.positions.length) : s.tokenFor t = .take := by
  simp only [State.tokenFor]
  split
  · rfl
  · next hreserve => rw [if_pos (h.resolve_left hreserve)]

section
variable (hreserve : ¬ (s.tokensOf t < s.tokenReserve (s.kettleClass t) ∧ 0 < 16384 - s.kettle.positions.length))
include hreserve

theorem tokenFor_refuse (hcap : s.tokenCap (s.kettleClass t) ≤ s.tokensOf t) : s.tokenFor t = .refuse := by
  simp only [State.tokenFor]
  rw [if_neg hreserve, if_neg (by omega), if_pos hcap]

theorem tokenFor_stall (hcap : s.tokensOf t < s.tokenCap (s.kettleClass t)) (howed : 16384 - s.kettle.positions.length ≤ s.tokensOwed t) :
    s.tokenFor t = .stall := by
  simp only [State.tokenFor]
  rw [if_neg hreserve, if_neg (by omega), if_neg (by omega)]

end
end

/-! ### A lane's step (R146) -/

/-- The lane has stalled with its packet, and counts it. -/
def stalledLane (s : State) (n : Nat) (i : Intake) : State :=
  (s.modKettle (fun k => { k with intake := SMap.put k.intake n { i with stalled := true } })).count kettleWin 0x328

theorem stalledLane_stalls (s : State) (n : Nat) (i : Intake) : SMap.find (s.stalledLane n i).kettle.intake n = some { i with stalled := true } ∧
    Counted s (s.stalledLane n i) kettleWin 0x328 ∧ (s.stalledLane n i).kettle.positions = s.kettle.positions ∧
    (s.stalledLane n i).packets = s.packets ∧ (s.stalledLane n i).reports = s.reports :=
  ⟨SMap.find_put_self _ _ _, toNat_reg_countBy (s.modKettle _) kettleWin 0x328 1, rfl, rfl, rfl⟩

section
variable {s : State} {n : Nat} {i : Intake} {p : Packet} (hintake : SMap.find s.kettle.intake n = some i) (hpacket : s.packet i.pid = some p)
  (hserves : s.serving kettleWin = true) (hlane : s.serving (412 + n) = true)
include hintake hpacket hserves hlane

theorem intakeStep_takes (htoken : s.tokenFor (mdTenant p.md) = .take) (hroom : i.needsTask = true → s.kettle.tasks.length < 28672) :
    s.intakeStep n = s.takePosition n i p := by
  have hfits : (i.alive && i.exception.isNone && decide (28672 ≤ s.kettle.tasks.length)) = false := by
    cases hneeds : i.needsTask with
    | false => rw [Intake.needsTask] at hneeds; rw [hneeds]; rfl
    | true => rw [decide_eq_false (Nat.not_le.2 (hroom hneeds)), Bool.and_false]
  simp [State.intakeStep, hintake, hpacket, hserves, hlane, htoken, hfits]

theorem intakeStep_refuses (htoken : s.tokenFor (mdTenant p.md) = .refuse) : s.intakeStep n = s.refuseIntake n i p := by
  simp [State.intakeStep, hintake, hpacket, hserves, hlane, htoken]

theorem intakeStep_stalls (htoken : s.tokenFor (mdTenant p.md) = .stall) : s.intakeStep n = s.stalledLane n i := by
  simp [State.intakeStep, State.stalledLane, hintake, hpacket, hserves, hlane, htoken]

end

/-! ### A packet refused under KETTLE_CAP (R157) -/

section
variable (s : State) (n : Nat) (i : Intake) (p : Packet)

/-- The packet has left the intake and its drop is reported: only its references are left to be released. -/
def capDropped : State :=
  ((s.modKettle (fun k => { k with intake := SMap.erase k.intake n })).count kettleWin 0x310).reportDrop (mdTenant p.md) p.ts 38 p.bytes.length

theorem refuseIntake_eq : s.refuseIntake n i p =
    let u := if i.mirror.isSome then (s.capDropped n p).releaseRef i.pid else s.capDropped n p
    if i.alive then u.endPacket i.pid else u := rfl

theorem beyondRefs_refuseIntake : (s.refuseIntake n i p).beyondRefs = (s.capDropped n p).beyondRefs := by
  rw [refuseIntake_eq]
  simp

theorem lowRegs_refuseIntake : (s.refuseIntake n i p).lowRegs = (s.capDropped n p).lowRegs := by
  rw [refuseIntake_eq]
  simp [lowRegs_releaseRef]

theorem refuseIntake_drops : SMap.find (s.refuseIntake n i p).kettle.intake n = none ∧
    (s.refuseIntake n i p).kettle.positions = s.kettle.positions ∧ (s.refuseIntake n i p).kettle.tasks = s.kettle.tasks ∧
    Counted s (s.refuseIntake n i p) kettleWin 0x310 ∧
    (s.refuseIntake n i p).reports = s.reports ++ [dropReport (mdTenant p.md) p.ts 38 p.bytes.length] := by
  have hkettle : (s.refuseIntake n i p).kettle = { s.kettle with intake := SMap.erase s.kettle.intake n } :=
    kettle_of_beyondRefs (s.beyondRefs_refuseIntake n i p)
  refine ⟨?_, ?_, ?_, ?_, reports_of_beyondRefs (s.beyondRefs_refuseIntake n i p)⟩
  · rw [hkettle]; exact SMap.find_erase_self _ _
  · rw [hkettle]
  · rw [hkettle]
  · rw [Counted, reg_of_lowRegs (s.lowRegs_refuseIntake n i p) (by decide) (by decide) (by decide)]
    exact toNat_reg_countBy (s.modKettle (fun k => { k with intake := SMap.erase k.intake n })) kettleWin 0x310 1

end

/-! ### Tasks held and tasks that waited (R153, R156) -/

section
variable {s : State} {k : Nat} {x : Task} (htask : s.task k = some x)
include htask

theorem dispatch_bound {l : Nat} (hfirst : s.rootWaits k x = false) (hnoOlder : s.olderHeld k = false) (hleaf : s.chooseLeaf x.od = some l) :
    BoundTo s (s.dispatch k) k l x := by
  rw [dispatch_binds htask hfirst hnoOlder hleaf]
  exact boundTo_bindTask s k x l

theorem dispatch_queued (hwaits : s.rootWaits k x = true) : (s.dispatch k).task k = some { x with quotaWait := true } ∧
    (s.dispatch k).taskCountOf x.tenant = s.taskCountOf x.tenant ∧ s.dispatch k = { s with kettle := (s.dispatch k).kettle } ∧
    ∀ j, j ≠ k → (s.dispatch k).task j = s.task j := by
  rw [dispatch_waits htask hwaits]
  exact ⟨task_setTask_self _ _ _, rfl, rfl, fun j hj => task_setTask_of_ne _ _ hj⟩

end
end Sys2Proof.Machine.State

namespace Sys2Proof.Safety

open Sys2Proof.Machine

/-- A lane with a packet at its intake takes its step: by its own row, or once it has stalled by the retry's. -/
theorem exec_intake {s : State} {n : Lane} {i : Intake} (h : SMap.find s.kettle.intake n = some i) :
    exec (if i.stalled then .intakeStallRetry n else .rootTaskCreate n) s = .next (s.intakeStep n) := by
  cases hstalled : i.stalled
  · show execRootTaskCreate n s = _
    simp [execRootTaskCreate, h, hstalled]
  · show execIntakeStallRetry n s = _
    simp [execIntakeStallRetry, h, hstalled]

theorem heldTaskDispatch_dispatches {s : State} {k : Nat} {x : Task}
    (h : s.kettle.tasks.find? (fun e => e.2.leaf.isNone && e.2.taken.isNone && !e.2.quotaWait) = some (k, x)) :
    exec .heldTaskDispatch s = .next (s.dispatch k) := by
  show execHeldTaskDispatch s = _
  simp only [execHeldTaskDispatch, h]

theorem quotaRelease_dispatches {s : State} {t : BitVec 14} {k : Nat} {x : Task} (hbelow : s.taskCountOf t.toNat < s.quotaOf (s.kettleClass t.toNat))
    (h : s.kettle.tasks.find? (fun e => e.2.quotaWait && e.2.tenant == t.toNat) = some (k, x)) :
    exec (.quotaRelease t) s = .next (s.dispatch k) := by
  show execQuotaRelease t s = _
  simp only [execQuotaRelease, hbelow, h, if_true]

/-- An exception packet's position holds its own output, and it has no task (R148). -/
theorem takePosition_exception (s : State) (n : Nat) {i : Intake} (p : Packet) {q : Nat} (halive : i.alive = true) (hexc : i.exception = some q) :
    TakesPosition s (s.takePosition n i p) n i p ∧ (s.takePosition n i p).kettle.tasks = s.kettle.tasks ∧
    ∃ x, (s.takePosition n i p).position s.kettle.nextPos = some x ∧
      x.outs.map (fun e => (e.1, e.2.pid, e.2.queue, e.2.exc)) = [(0, i.pid, q, true)] := by
  have hneeds : i.needsTask = false := by simp [Intake.needsTask, hexc]
  have hpos := hasPosition_positioned s n i p
  obtain ⟨since, hposition⟩ := hpos.position
  rw [State.takePosition_eq, hneeds, if_neg (by decide)]
  refine ⟨hpos.takes rfl rfl rfl rfl rfl, hpos.tasks, _, hposition, ?_⟩
  simp [newPosition, Intake.outs, halive, hexc, excOut]

section
variable {s : State} {n : Nat} {i : Intake} {p : Packet} (halive : i.alive = true) (hgoes : i.exception = none)
include halive hgoes

theorem takePosition_root : s.takePosition n i p = ((s.positioned n i p).countedRoot.setTask s.kettle.nextTask
    ((s.positioned n i p).rootTask s.kettle.nextPos i p)).dispatch s.kettle.nextTask := by
  have hneeds : i.needsTask = true := by simp [Intake.needsTask, halive, hgoes]
  rw [State.takePosition_eq, hneeds, if_pos rfl, State.createRoot_eq, State.nextTask_positioned]

end

theorem counted_root (s : State) (n : Nat) (i : Intake) (p : Packet) : Counted s (s.positioned n i p).countedRoot kettleWin 0x300 := by
  rw [Counted, ← s.reg_positioned n i p (show 0x300 < 0x10000 by decide)]
  exact State.toNat_reg_countBy ((s.positioned n i p).modKettle _) kettleWin 0x300 1

/-- Settles O37: at the intake by what R157 answers, and for tasks held or waiting by the cases of a dispatch. -/
theorem kettleCreatesAndDispatchesTasks : Obligations.KettleCreatesAndDispatchesTasks := by
  unfold Obligations.KettleCreatesAndDispatchesTasks
  refine ⟨fun s n i p hintake hpacket hserves hlane => ?_, fun s k l x htask => ⟨fun hoff => ⟨?_, ?_⟩, ?_⟩⟩
  · refine ⟨fun htake => ⟨fun halive hgoes hroom hnew => ?_, fun q halive hexc => ?_⟩, fun hreserve hcap => ?_, fun hreserve hcap howed => ?_⟩
    · have hstep := State.intakeStep_takes hintake hpacket hserves hlane (State.tokenFor_take htake) fun _ => hroom
      have hpos := (hasPosition_positioned s n i p).countedRoot
      have hcounted := counted_root s n i p
      have hroot := isRoot_rootTask s n i p
      rw [takePosition_root halive hgoes] at hstep
      refine ⟨fun hwaits => ?_, fun l hfirst hnoOlder hleaf => ?_⟩
      · obtain ⟨u, hu, hholds⟩ := hpos.root_waits hcounted hroot rfl rfl hwaits
        exact ⟨u, by rw [exec_intake hintake, hstep, hu], hholds⟩
      · obtain ⟨u, hu, hholds⟩ := hpos.root_binds hcounted hroot rfl rfl hnew hfirst hnoOlder hleaf
        exact ⟨u, by rw [exec_intake hintake, hstep, hu], hholds⟩
    · have hneeds : i.needsTask = false := by simp [Intake.needsTask, hexc]
      have hstep := State.intakeStep_takes hintake hpacket hserves hlane (State.tokenFor_take htake) fun h => absurd h (by simp [hneeds])
      exact ⟨_, by rw [exec_intake hintake, hstep], takePosition_exception s n p halive hexc⟩
    · have hstep := State.intakeStep_refuses hintake hpacket hserves hlane (State.tokenFor_refuse hreserve hcap)
      exact ⟨_, by rw [exec_intake hintake, hstep], s.refuseIntake_drops n i p⟩
    · have hstep := State.intakeStep_stalls hintake hpacket hserves hlane (State.tokenFor_stall hreserve hcap howed)
      exact ⟨_, by rw [exec_intake hintake, hstep], s.stalledLane_stalls n i⟩
  · exact fun hfirst hnoOlder hleaf =>
      ⟨_, heldTaskDispatch_dispatches hoff, State.dispatch_bound htask (State.rootWaits_eq_false_iff.2 hfirst) hnoOlder hleaf⟩
  · intro hnotFirst
    have hwaits := (Bool.not_eq_false _).mp (mt State.rootWaits_eq_false_iff.1 hnotFirst)
    exact ⟨_, heldTaskDispatch_dispatches hoff, State.dispatch_queued htask hwaits⟩
  · exact fun t hbelow hfirst hnoOlder hleaf hoff =>
      ⟨_, quotaRelease_dispatches hbelow hoff, State.dispatch_bound htask (State.rootWaits_eq_false_iff.2 hfirst) hnoOlder hleaf⟩

end Sys2Proof.Safety
end

section
/-! Release in order: the head that begins its release, and the delivery of the earliest begun to Drover (06, R163 to R165). -/

namespace Sys2Proof.Machine

open Sys2Proof.Safety

/-! ### The head begins its release (R163) -/

namespace State

section
variable {s : State} {od k : Nat} {p : Position}

theorem mem_of_headOf (h : s.headOf od = some (k, p)) : (k, p) ∈ s.kettle.positions ∧ p.releasing = false := by
  refine ⟨List.mem_of_find?_eq_some h, ?_⟩
  have hnot := List.find?_some h
  simp only [Bool.and_eq_true, Bool.not_eq_true'] at hnot
  exact hnot.2

/-- A position whose release has begun is head no more. -/
theorem position_noteHead_of_releasing (hp : s.position k = some p) (honce : ∀ q, (k, q) ∈ s.kettle.positions → q = p)
    (hreleasing : p.releasing = true) (od : Nat) : (s.noteHead od).position k = some p := by
  rcases s.noteHead_cases od with h | ⟨j, q, hmem, hnot, h⟩
  · rw [h, hp]
  · have hj : k ≠ j := by
      rintro rfl
      rw [honce q hmem, hreleasing] at hnot
      exact absurd hnot (by decide)
    rw [h, ← hp]
    exact SMap.find_put_of_ne _ _ hj

/-- The position releases, and stands last in the order of release. -/
def begun (s : State) (k : Nat) (p : Position) : State :=
  (s.setPosition k { p with releasing := true }).modKettle (fun x => { x with releaseQ := x.releaseQ ++ [k] })

theorem releaseBegin_begins (s : State) (od k : Nat) (p : Position) :
    ((s.begun k p).noteHead od).position k = some { p with releasing := true } ∧
    ((s.begun k p).noteHead od).kettle.releaseQ = s.kettle.releaseQ ++ [k] ∧
    (s.begun k p).noteHead od = { s with kettle := { s.kettle with
      positions := ((s.begun k p).noteHead od).kettle.positions, releaseQ := ((s.begun k p).noteHead od).kettle.releaseQ } } := by
  refine ⟨position_noteHead_of_releasing (s := s.begun k p) (SMap.find_put_self s.kettle.positions k _) (fun q hq => SMap.eq_of_mem_put s.kettle.positions k _ hq) rfl od, ?_⟩
  rcases (s.begun k p).noteHead_cases od with h | ⟨j, q, -, -, h⟩ <;> rw [h] <;> exact ⟨rfl, rfl⟩

end

/-! ### Delivery (R164, R165) -/

/-- The state without what references and reports change. -/
def beyondDrops (s : State) : State := { s.beyondRefs with reports := [] }

section
variable (s : State)

theorem beyondDrops_of_beyondRefs {s u : State} (h : u.beyondRefs = s.beyondRefs) : u.beyondDrops = s.beyondDrops :=
  congrArg (fun v : State => { v with reports := [] }) h

@[simp] theorem beyondDrops_takeRef (pid : Nat) : (s.takeRef pid).beyondDrops = s.beyondDrops := beyondDrops_of_beyondRefs (s.beyondRefs_takeRef pid)
@[simp] theorem beyondDrops_releaseRef (pid : Nat) : (s.releaseRef pid).beyondDrops = s.beyondDrops :=
  beyondDrops_of_beyondRefs (s.beyondRefs_releaseRef pid)
@[simp] theorem beyondDrops_endPacket (pid : Nat) : (s.endPacket pid).beyondDrops = s.beyondDrops :=
  beyondDrops_of_beyondRefs (s.beyondRefs_endPacket pid)
@[simp] theorem beyondDrops_report (t : Nat) (ts : Word64) (l : List (Nat × Nat)) : (s.report t ts l).beyondDrops = s.beyondDrops := rfl
@[simp] theorem beyondDrops_reportDropFlow (md : BitVec 512) (t : Nat) (ts : Word64) (diag bytes : Nat) :
    (s.reportDropFlow md t ts diag bytes).beyondDrops = s.beyondDrops := rfl

theorem kettle_of_beyondDrops {s u : State} (h : u.beyondDrops = s.beyondDrops) : u.kettle = s.kettle :=
  show u.beyondDrops.kettle = s.beyondDrops.kettle from congrArg State.kettle h
theorem drover_of_beyondDrops {s u : State} (h : u.beyondDrops = s.beyondDrops) : u.drover = s.drover :=
  show u.beyondDrops.drover = s.beyondDrops.drover from congrArg State.drover h

@[simp] theorem beyondDrops_ite (c : Prop) [Decidable c] (u : State) :
    (if c then s else u).beyondDrops = if c then s.beyondDrops else u.beyondDrops := apply_ite State.beyondDrops c s u

@[simp] theorem beyondDrops_foldl {α : Type} {f : State → α → State} (h : ∀ s a, (f s a).beyondDrops = s.beyondDrops) (l : List α) (s : State) :
    (l.foldl f s).beyondDrops = s.beyondDrops := foldl_keeps h l s

@[simp] theorem lowRegs_report (t : Nat) (ts : Word64) (l : List (Nat × Nat)) : (s.report t ts l).lowRegs = s.lowRegs := rfl
@[simp] theorem lowRegs_reportDropFlow (md : BitVec 512) (t : Nat) (ts : Word64) (diag bytes : Nat) :
    (s.reportDropFlow md t ts diag bytes).lowRegs = s.lowRegs := rfl

end

/-- The position is gone, with its token, and its outputs have reached Drover. -/
def handedOver (s : State) (pos : Nat) (rest : List Nat) (p : Position) : State :=
  let s1 := s.modKettle (fun x => { x with releaseQ := rest, positions := SMap.erase x.positions pos })
  let s2 := s1.setTokensOf p.tenant (s.tokensOf p.tenant - 1)
  let s3 := (s2.count kettleWin 0x308).countBy kettleWin 0x30C p.outputs.length
  s3.modDrover (fun d => { d with handed := d.handed ++ p.outputs.zipIdx.map (fun e => (e.2 == 0, e.1)) })

/-- Its outputs take their references, its drops and exceptions are reported, and its own references end. -/
def settled (s : State) (p : Position) : State :=
  let s1 := (p.outputs.filter (fun o => o.mirrorTrunc.isNone)).foldl (fun (s : State) o => s.takeRef o.pid) s
  let s2 := (p.nodeDrops ++ p.dropped.toList).foldl (fun s d => s.reportDropFlow p.md p.tenant p.ts d p.len) s1
  let s3 := if p.allDropped && p.mirror.isSome then s2.releaseRef p.pid else s2
  let s4 := (p.outputs.filter (·.exc)).foldl (fun s _ => s.report p.tenant p.ts [(9, 1)]) s3
  if p.ownRef then s4.endPacket p.pid else s4

section
variable (s : State) (p : Position)

theorem beyondDrops_settled : (s.settled p).beyondDrops = s.beyondDrops := by
  simp only [State.settled, beyondDrops_ite, beyondDrops_endPacket, beyondDrops_releaseRef, ite_self,
    beyondDrops_foldl (fun v (_ : OutDesc) => v.beyondDrops_report p.tenant p.ts [(9, 1)]),
    beyondDrops_foldl (fun v d => v.beyondDrops_reportDropFlow p.md p.tenant p.ts d p.len), beyondDrops_foldl fun v (o : OutDesc) => v.beyondDrops_takeRef o.pid]

theorem lowRegs_settled : (s.settled p).lowRegs = s.lowRegs := by
  simp only [State.settled, lowRegs_ite, lowRegs_endPacket, lowRegs_releaseRef, ite_self,
    lowRegs_foldl (fun v (_ : OutDesc) => v.lowRegs_report p.tenant p.ts [(9, 1)]),
    lowRegs_foldl (fun v d => v.lowRegs_reportDropFlow p.md p.tenant p.ts d p.len), lowRegs_foldl fun v (o : OutDesc) => v.lowRegs_takeRef o.pid]

/-- A position that was not dropped, whose nodes did not drop and whose outputs are no exceptions is reported no further. -/
theorem reports_settled (hkept : p.dropped = none) (hnodes : p.nodeDrops = []) (hplain : ∀ e ∈ p.outputs, e.exc = false) :
    (s.settled p).reports = s.reports := by
  have hexc : p.outputs.filter (·.exc) = [] := List.filter_eq_nil_iff.2 fun e he => by simp [hplain e he]
  refine reports_of_beyondRefs ?_
  have hrefs : ∀ (l : List OutDesc) (v : State), (l.foldl (fun (s : State) o => s.takeRef o.pid) v).beyondRefs = v.beyondRefs :=
    foldl_keeps fun v o => v.beyondRefs_takeRef o.pid
  simp [State.settled, hkept, hnodes, hexc, hrefs]

variable {s p}

theorem releaseDeliver_delivers {k : Nat} {rest : List Nat} (hqueue : s.kettle.releaseQ = k :: rest) (hp : s.position k = some p)
    (htakes : p.outputs = [] ∨ s.inService droverWin = true) : s.releaseDeliver k = .next ((s.handedOver k rest p).settled p) := by
  have hgo : ¬ (k ≠ k ∨ (p.outputs ≠ [] ∧ ¬ s.inService droverWin = true)) := by
    rintro (h | ⟨hsome, hnot⟩)
    · exact h rfl
    · exact htakes.elim hsome hnot
  simp only [State.releaseDeliver, hqueue, hp, if_neg hgo]
  rfl

end

section
variable (s : State) (k : Nat) (rest : List Nat) (p : Position)

theorem counted_handedOver : Counted s (s.handedOver k rest p) kettleWin 0x308 := by
  have hregs : (s.handedOver k rest p).regs = ((s.count kettleWin 0x308).countBy kettleWin 0x30C p.outputs.length).regs := rfl
  rw [Counted, reg_of_regs hregs, State.countBy, reg_setReg_of_off_ne _ _ _ (by decide)]
  exact toNat_reg_countBy s kettleWin 0x308 1

theorem settled_delivers : let u := (s.handedOver k rest p).settled p
    u.position k = none ∧ (∀ j, j ≠ k → u.position j = s.position j) ∧ u.kettle.releaseQ = rest ∧
    u.tokensOf p.tenant = s.tokensOf p.tenant - 1 ∧ u.drover.handed.map (·.2) = s.drover.handed.map (·.2) ++ p.outputs ∧
    Counted s u kettleWin 0x308 ∧ u.kettle.tasks = s.kettle.tasks ∧
    (p.dropped = none → p.nodeDrops = [] → (∀ e ∈ p.outputs, e.exc = false) → u.reports = s.reports) := by
  intro u
  have hbeyond : u.beyondDrops = (s.handedOver k rest p).beyondDrops := beyondDrops_settled _ p
  have hkettle : u.kettle = (s.handedOver k rest p).kettle := kettle_of_beyondDrops hbeyond
  have hdrover : u.drover = (s.handedOver k rest p).drover := drover_of_beyondDrops hbeyond
  refine ⟨?_, fun j hj => ?_, ?_, ?_, ?_, ?_, ?_, reports_settled (s.handedOver k rest p) p⟩
  · rw [position_of_kettle hkettle]; exact SMap.find_erase_self _ _
  · rw [position_of_kettle hkettle]; exact SMap.find_erase_of_ne _ hj
  · rw [hkettle]; rfl
  · rw [tokensOf_of_kettle hkettle]; simp [State.handedOver, State.tokensOf]
  · have hhanded : (s.handedOver k rest p).drover.handed = s.drover.handed ++ p.outputs.zipIdx.map (fun e => (e.2 == 0, e.1)) := rfl
    rw [hdrover, hhanded]
    simp [Function.comp_def, List.zipIdx_map_fst]
  · rw [Counted, reg_of_lowRegs (lowRegs_settled _ p) (by decide) (by decide) (by decide)]
    exact s.counted_handedOver k rest p
  · rw [hkettle]; rfl

end

/-- The earliest position begun is read first; where its item is clean it is delivered. -/
theorem withItem_of_clean {s : State} {w inst item : Nat} (h : CleanItem s w inst item) (go : State → Res) : s.withItem w inst item go = go s := by
  have hread : s.readItem w inst item = (false, s) := eccRead_of_errsIn_nil s h
  simp only [State.withItem, hread, Bool.false_eq_true, if_false]

end State

/-- The outputs of a position, unless all its nodes dropped (R164). -/
theorem Position.outputs_eq (p : Position) : p.outputs = if p.outs = [] ∧ p.nodeDrops ≠ [] then []
    else p.mirror.toList ++ (List.range 16).flatMap (fun n => (p.outs.filter (fun e => e.1 = n)).map (·.2)) := by
  have hall : p.allDropped = true ↔ p.outs = [] ∧ p.nodeDrops ≠ [] := by simp [Position.allDropped]
  rw [Position.outputs]
  exact if_congr hall rfl rfl

end Sys2Proof.Machine
end

section
/-! A head that stays incomplete past its limit is dropped, with its outputs and the tasks that no thread has taken (06, R166, R167). -/

namespace Sys2Proof.Machine.State

open Sys2Proof.Safety

/-! ### Joins of children that are gone (R201) -/

section
variable (s : State)

theorem kettle_cleanJoins : s.cleanJoins.kettle = s.kettle :=
  foldl_keeps (g := State.kettle) (fun v e => by split <;> rfl) _ _
theorem reports_cleanJoins : s.cleanJoins.reports = s.reports :=
  foldl_keeps (g := State.reports) (fun v e => by split <;> rfl) _ _
theorem regs_cleanJoins : s.cleanJoins.regs = s.regs :=
  foldl_keeps (g := State.regs) (fun v e => by split <;> rfl) _ _

/-! ### Tasks that no thread has taken (R167) -/

/-- A listed task is removed if it belongs to position k and no thread has taken it; so are all of a list. -/
def removeFree (k : Nat) (s : State) (e : Nat × Task) : State := if e.2.pos == k && e.2.taken.isNone then s.removeUntaken e.1 e.2 else s
def removeListed (s : State) (k : Nat) (l : List (Nat × Task)) : State := l.foldl (removeFree k) s

theorem removeFree_cases (k : Nat) (e : Nat × Task) : removeFree k s e = s ∨ removeFree k s e = s.removeUntaken e.1 e.2 := by
  rw [removeFree]
  split
  · exact .inr rfl
  · exact .inl rfl

section
variable (m : Nat) (x : Task)

theorem kettle_removeUntaken : (s.removeUntaken m x).kettle =
    { s.kettle with tasks := SMap.erase s.kettle.tasks m, taskCount := (s.removeUntaken m x).kettle.taskCount } := by
  unfold State.removeUntaken
  split <;> split <;> simp

theorem reports_removeUntaken : (s.removeUntaken m x).reports = s.reports := by
  unfold State.removeUntaken
  have hrefs (v : State) := reports_of_beyondRefs (v.beyondRefs_releaseRef x.pid)
  split <;> split <;> simp [hrefs] <;> rfl

theorem lowRegs_removeUntaken : (s.removeUntaken m x).lowRegs = s.lowRegs := by
  unfold State.removeUntaken
  split <;> split <;> simp [lowRegs_releaseRef] <;> rfl

theorem task_removeUntaken_self : (s.removeUntaken m x).task m = none := by
  rw [State.task, kettle_removeUntaken]; exact SMap.find_erase_self _ _

theorem task_removeUntaken_of_none {j : Nat} (h : s.task j = none) : (s.removeUntaken m x).task j = none := by
  rw [State.task, kettle_removeUntaken]
  by_cases hj : j = m
  · rw [hj]; exact SMap.find_erase_self _ _
  · exact (SMap.find_erase_of_ne _ hj).trans h

end

section
variable (k : Nat) (l : List (Nat × Task))

theorem positions_removeListed : (s.removeListed k l).kettle.positions = s.kettle.positions := by
  refine foldl_keeps (g := fun v : State => v.kettle.positions) (fun v e => ?_) l s
  rcases v.removeFree_cases k e with h | h <;> rw [h]
  rw [kettle_removeUntaken]

theorem reports_removeListed : (s.removeListed k l).reports = s.reports := by
  refine foldl_keeps (g := State.reports) (fun v e => ?_) l s
  rcases v.removeFree_cases k e with h | h <;> rw [h]
  exact v.reports_removeUntaken _ _

theorem lowRegs_removeListed : (s.removeListed k l).lowRegs = s.lowRegs := by
  refine foldl_keeps (g := State.lowRegs) (fun v e => ?_) l s
  rcases v.removeFree_cases k e with h | h <;> rw [h]
  exact v.lowRegs_removeUntaken _ _

end
end

section
variable {k j : Nat}

/-- A task that is gone does not come back. -/
theorem task_removeListed_of_none {l : List (Nat × Task)} {s : State} (h : s.task j = none) : (s.removeListed k l).task j = none := by
  induction l generalizing s with
  | nil => exact h
  | cons e l ih =>
    refine ih ?_
    rcases s.removeFree_cases k e with he | he <;> rw [he]
    · exact h
    · exact s.task_removeUntaken_of_none _ _ h

theorem task_removeListed_of_mem {l : List (Nat × Task)} (s : State) {x : Task} (hmem : (j, x) ∈ l) (hpos : x.pos = k) (hfree : x.taken = none) :
    (s.removeListed k l).task j = none := by
  induction l generalizing s with
  | nil => exact absurd hmem List.not_mem_nil
  | cons e l ih =>
    rcases List.mem_cons.1 hmem with rfl | hrest
    · have hremoved : removeFree k s (j, x) = s.removeUntaken j x := by simp [removeFree, hpos, hfree]
      exact task_removeListed_of_none (s := removeFree k s (j, x)) (hremoved ▸ s.task_removeUntaken_self j x)
    · exact ih _ hrest

end

/-! ### The drop of a position (R166) -/

/-- The position is counted as dropped and holds nothing any more; its tasks are still there. -/
def dropMarked (s : State) (k diag : Nat) (p : Position) : State :=
  let s1 := (s.count kettleWin (0x300 + 4 * (diag - 41))).setEvent kettleWin 0x380 (diag - 47)
  let s2 := if p.mirror.isSome then s1.releaseRef p.pid else s1
  s2.setPosition k { p with dropped := some diag, outs := [], mirror := none }

section
variable {s : State} {k diag : Nat} {p : Position} (hdiag : diag = 47 ∨ diag = 48)

section
variable (s k diag p)

theorem kettle_dropMarked : (s.dropMarked k diag p).kettle =
    { s.kettle with positions := SMap.put s.kettle.positions k { p with dropped := some diag, outs := [], mirror := none } } := by
  simp only [State.dropMarked, kettle_setPosition]
  split <;> simp

theorem reports_dropMarked : (s.dropMarked k diag p).reports = s.reports := by
  have hrefs (v : State) := reports_of_beyondRefs (v.beyondRefs_releaseRef p.pid)
  show (State.reports (if _ then _ else _)) = _
  split
  · rw [hrefs]; rfl
  · rfl

theorem lowRegs_dropMarked : (s.dropMarked k diag p).lowRegs =
    ((s.count kettleWin (0x300 + 4 * (diag - 41))).setEvent kettleWin 0x380 (diag - 47)).lowRegs := by
  show (State.lowRegs (if _ then _ else _)) = _
  split
  · exact lowRegs_releaseRef _ _
  · rfl

end

include hdiag

theorem dropPosition_eq (hp : s.position k = some p) (hkept : p.dropped = none) (hwaits : p.releasing = false) :
    s.dropPosition k diag = (s.dropMarked k diag p).removeListed k s.kettle.tasks := by
  have htasks : (s.dropMarked k diag p).kettle.tasks = s.kettle.tasks := by rw [kettle_dropMarked]
  have hmarked : s.dropPosition k diag = (s.dropMarked k diag p).removeListed k (s.dropMarked k diag p).kettle.tasks := by
    have hgo : ¬ (p.dropped.isSome = true ∨ p.releasing = true) := by simp [hkept, hwaits]
    simp only [State.dropPosition, hp, if_neg hgo]
    rcases hdiag with rfl | rfl <;> rfl
  rw [hmarked, htasks]

/-- A position is dropped under KETTLE_CNT_6 or KETTLE_CNT_7, with its event. -/
theorem dropPos_drops (hp : s.position k = some p) (hkept : p.dropped = none) (hwaits : p.releasing = false) :
    (s.dropPos k diag).position k = some { p with dropped := some diag, outs := [], mirror := none } ∧
    (∀ m x, s.task m = some x → x.pos = k → x.taken = none → (s.dropPos k diag).task m = none) ∧
    Counted s (s.dropPos k diag) kettleWin (0x300 + 4 * (diag - 41)) ∧ ((s.dropPos k diag).reg kettleWin 0x380).getLsbD (diag - 47) = true ∧
    (s.dropPos k diag).reports = s.reports := by
  have hkettle : (s.dropPos k diag).kettle = (s.dropPosition k diag).kettle := kettle_cleanJoins _
  have hreg (o : Nat) (hlow : 0x200 ≤ o) (hhigh : o < 0x10000) : (s.dropPos k diag).reg kettleWin o =
      ((s.count kettleWin (0x300 + 4 * (diag - 41))).setEvent kettleWin 0x380 (diag - 47)).reg kettleWin o := by
    rw [State.dropPos, reg_of_regs (regs_cleanJoins _), dropPosition_eq hdiag hp hkept hwaits,
      reg_of_lowRegs ((lowRegs_removeListed _ _ _).trans (s.lowRegs_dropMarked k diag p)) (by decide) hlow hhigh]
  refine ⟨?_, fun m x hm hpos hfree => ?_, ?_, ?_, ?_⟩
  · rw [position_of_kettle hkettle, dropPosition_eq hdiag hp hkept hwaits, State.position, positions_removeListed, kettle_dropMarked]
    exact SMap.find_put_self _ _ _
  · rw [task_of_kettle hkettle, dropPosition_eq hdiag hp hkept hwaits]
    exact task_removeListed_of_mem _ (SMap.mem_of_find hm) hpos hfree
  · rw [Counted, hreg _ (by omega) (by omega), State.setEvent, reg_setReg_of_off_ne _ _ _ (by omega)]
    exact toNat_reg_countBy s kettleWin _ 1
  · rw [hreg _ (by decide) (by decide)]
    exact getLsbD_setEvent_self _ _ _ (by omega)
  · rw [State.dropPos, reports_cleanJoins, dropPosition_eq hdiag hp hkept hwaits, reports_removeListed, reports_dropMarked]

end
end Sys2Proof.Machine.State

namespace Sys2Proof.Safety

open Sys2Proof.Machine

theorem releaseBegin_head {s : State} {od : BitVec 16} {k : Nat} {p : Position} (hhead : s.headOf od.toNat = some (k, p))
    (hcomplete : p.dropped.isSome = true ∨ p.live = []) : exec (.releaseBegin od) s = .next ((s.begun k p).noteHead od.toNat) := by
  have hdone : p.complete = true := by simpa [Position.complete] using hcomplete
  show execReleaseBegin od s = _
  simp only [execReleaseBegin, hhead, hdone, if_true]
  rfl

theorem releaseDeliver_earliest {s : State} {k : Nat} {rest : List Nat} {p : Position} (hqueue : s.kettle.releaseQ = k :: rest)
    (hp : s.position k = some p) (hclean : CleanItem s kettleWin 0 k) (htakes : p.outputs = [] ∨ s.inService droverWin = true) :
    exec (.releaseDeliver k) s = .next ((s.handedOver k rest p).settled p) := by
  have hfirst : s.kettle.releaseQ.head? = some k := by rw [hqueue]; rfl
  show execReleaseDeliver k s = _
  rw [execReleaseDeliver, if_pos hfirst, State.withItem_of_clean hclean, State.releaseDeliver_delivers hqueue hp htakes]

section
variable {s : State} {od : BitVec 16} {k : Nat} {p : Position} (hhead : s.headOf od.toNat = some (k, p)) (hopen : p.complete = false)
include hhead hopen

theorem headTimeout_late (hfree : s.heldByDebug k = none)
    (hlate : p.headSince.getD s.time.cycles + 1000000 * s.rf kettleWin 0x100 31 16 < s.time.cycles) :
    exec (.headTimeout od) s = .next (s.dropPos k 48) := by
  show execHeadTimeout od s = _
  simp [execHeadTimeout, hhead, hopen, hfree, hlate]

theorem debugHeld_late {h : Nat} (hheld : s.heldByDebug k = some h)
    (hlate : max (p.headSince.getD s.time.cycles) h + 1000 * s.rf kettleWin 0x100 15 0 < s.time.cycles) :
    exec (.debugHeld od) s = .next (s.dropPos k 47) := by
  show execDebugHeld od s = _
  simp only [execDebugHeld, hhead, hheld, hopen, hlate]
  rfl

end

/-- Settles O38: the begin of a release, its delivery, and the two limits of a head that stays incomplete. -/
theorem kettleReleasesInOrder : Obligations.KettleReleasesInOrder := by
  unfold Obligations.KettleReleasesInOrder
  refine ⟨fun s od k p hhead hcomplete => ?_, fun s k rest p hqueue hp => ?_, fun s od k p hhead hp hkept hlive => ?_⟩
  · exact ⟨_, releaseBegin_head hhead hcomplete, s.releaseBegin_begins od.toNat k p⟩
  · intro handed hclean htakes
    have houts : handed = p.outputs := p.outputs_eq.symm
    rw [houts] at htakes ⊢
    exact ⟨_, releaseDeliver_earliest hqueue hp hclean htakes, s.settled_delivers k rest p⟩
  · have hwaits := (State.mem_of_headOf hhead).2
    have hopen : p.complete = false := by simp [Position.complete, hkept, hlive]
    exact ⟨fun hfree hlate => ⟨_, headTimeout_late hhead hopen hfree hlate, State.dropPos_drops (.inr rfl) hp hkept hwaits⟩,
      fun h hheld hlate => ⟨_, debugHeld_late hhead hopen hheld hlate, State.dropPos_drops (.inl rfl) hp hkept hwaits⟩⟩

end Sys2Proof.Safety
end

section
/-! Posts to Kettle: what a thread is after its post is accepted, and how an EMIT or a DROP ends its task (06, R159, R160; 07, R192; 10, R296). -/

namespace Sys2Proof.Machine

open Sys2Proof.Safety

/-! ### Where a thread stands -/

/-- Where a thread stands and what it has posted: what neither an event, a child that is gone, nor the moments of R166 and R188 change. -/
def Thread.stands (th : Thread) : Nat × Bool × Option Nat × Option Nat × Wait × Bool × SMap Word64 × SMap Word64 × List LeafOp :=
  (th.pc, th.inDelay, th.after, th.task, th.wait, th.handler, th.bank0, th.bank1, th.ops)

/-- A thread goes on after its post: it waits no more, has passed the instruction, and its bank is zero (R192). -/
def GoesPast (th x : Thread) : Prop := x.wait = .none ∧ x.pc = nextPc th ∧ ∀ i, i < 8 → x.bankWord i = 0

section
variable {th x y : Thread} (h : x.stands = y.stands)
include h

theorem ops_of_stands : x.ops = y.ops := congrArg (fun c => c.2.2.2.2.2.2.2.2) h
theorem task_of_stands : x.task = y.task := congrArg (fun c => c.2.2.2.1) h

theorem goesPast_of_stands (hy : GoesPast th y) : GoesPast th x := by
  simp only [Thread.stands, Prod.mk.injEq] at h
  obtain ⟨hpc, -, -, -, hwait, hhandler, hbank0, hbank1, -⟩ := h
  simp only [GoesPast, Thread.bankWord, Thread.bank, hpc, hwait, hhandler, hbank0, hbank1]
  exact hy

theorem nextPc_of_stands : nextPc x = nextPc y := by
  simp only [Thread.stands, Prod.mk.injEq] at h
  obtain ⟨hpc, hdelay, hafter, -⟩ := h
  simp only [nextPc, hpc, hdelay, hafter]

end

theorem Thread.goesPast_accepted (th : Thread) : GoesPast th th.accepted := by
  unfold Thread.accepted Thread.stepped Thread.setBank
  split <;> split <;> exact ⟨rfl, rfl, fun i _ => by simp_all [Thread.bankWord, Thread.bank, Thread.goOn, SMap.get]⟩

/-- A thread whose task has ended by a post: its lock operations have ended with it. -/
def Thread.postDone (th : Thread) : Thread := { th.accepted.noTask with ops := th.ops.filter (fun o => o.kind ≠ .lock) }

theorem Thread.goesPast_postDone (th : Thread) : GoesPast th th.postDone := by
  rw [Thread.postDone, Thread.noTask]
  exact th.goesPast_accepted

theorem Thread.task_accepted (th : Thread) : th.accepted.task = th.task := by
  unfold Thread.accepted Thread.stepped Thread.setBank
  split <;> split <;> rfl

namespace State

section
variable (s : State)

theorem stands_setThread_self (t : Nat) (th : Thread) : ((s.setThread t th).thread t).stands = th.stands := by
  rw [thread_setThread_self]; rfl

theorem stands_modThread {f : Thread → Thread} (h : ∀ th, (f th).stands = th.stands) (t y : Nat) :
    ((s.modThread t f).thread y).stands = (s.thread y).stands := by
  rw [State.modThread]
  by_cases hy : y = t
  · rw [hy, stands_setThread_self, h]
  · rw [thread_setThread_of_ne _ _ hy]

theorem stands_cleanJoins (y : Nat) : (s.cleanJoins.thread y).stands = (s.thread y).stands := by
  refine foldl_keeps (g := fun v : State => (v.thread y).stands) (fun v e => ?_) _ _
  split
  · refine v.stands_modThread (fun _ => ?_) _ _
    rfl
  · rfl

theorem stands_joinEvent (x : Task) (y : Nat) : ((s.joinEvent x).thread y).stands = (s.thread y).stands := by
  unfold State.joinEvent
  split
  · split
    · refine s.stands_modThread (fun _ => ?_) _ _
      rfl
    · rfl
  · rfl

theorem kettle_joinEvent (x : Task) : (s.joinEvent x).kettle = s.kettle := by
  unfold State.joinEvent
  split
  · split <;> rfl
  · rfl

theorem reports_joinEvent (x : Task) : (s.joinEvent x).reports = s.reports := by
  unfold State.joinEvent
  split
  · split <;> rfl
  · rfl

theorem thread_of_threads {s u : State} (h : u.threads = s.threads) (t : Nat) : u.thread t = s.thread t := by rw [State.thread, h, State.thread]

end

/-! ### The end of a task by its post (R160, R163, R296) -/

section
variable (s : State) (t k : Nat) (x : Task)

/-- A task has ended: its join's event is raised, and its locks are given up. -/
def departed : State := (s.joinEvent x).depart (tidWord t)

/-- Its thread goes on without it. -/
def withoutTask : State := ((s.departed t x).modThread t Thread.postDone).cleanJoins

theorem endByPost_eq : s.endByPost t k x = (s.endTask k).withoutTask t x := rfl

theorem stands_departed (y : Nat) : ((s.departed t x).thread y).stands = (s.thread y).stands := by
  rw [State.departed, thread_of_threads (threads_of_beyondRefs (beyondRefs_depart _ _)), stands_joinEvent]

theorem stands_withoutTask : ((s.withoutTask t x).thread t).stands = ((s.departed t x).thread t).postDone.stands := by
  rw [State.withoutTask, stands_cleanJoins]
  exact stands_setThread_self _ _ _

theorem kettle_endByPost : (s.endByPost t k x).kettle = (s.endTask k).kettle := by
  rw [endByPost_eq, State.withoutTask, kettle_cleanJoins, kettle_modThread, State.departed, kettle_depart, kettle_joinEvent]

theorem reports_endByPost : (s.endByPost t k x).reports = (s.endTask k).reports := by
  have hdeparted := reports_of_beyondRefs (((s.endTask k).joinEvent x).beyondRefs_depart (tidWord t))
  rw [reports_joinEvent] at hdeparted
  rw [endByPost_eq, State.withoutTask, reports_cleanJoins]
  exact hdeparted

end

section
variable {s : State} {k : Nat} {x : Task} {p : Position} (htask : s.task k = some x) (hp : s.position x.pos = some p)

/-- The task is reported and gone, and its packet's reference with a child. -/
def taskGone (s : State) (k : Nat) (x : Task) : State :=
  let s1 := s.report x.tenant x.ts [(4, x.slots), (7, 1)]
  let s2 := (s1.setTaskCountOf x.tenant (s1.taskCountOf x.tenant - 1)).modKettle (fun y => { y with tasks := SMap.erase y.tasks k })
  if x.child then s2.releaseRef x.pid else s2

theorem beyondRefs_taskGone (s : State) (k : Nat) (x : Task) : (s.taskGone k x).beyondRefs =
    (((s.report x.tenant x.ts [(4, x.slots), (7, 1)]).setTaskCountOf x.tenant (s.taskCountOf x.tenant - 1)).modKettle
      (fun y => { y with tasks := SMap.erase y.tasks k })).beyondRefs := by
  rw [State.taskGone]
  simp only [beyondRefs_ite, beyondRefs_releaseRef, ite_self]
  rfl

include htask hp

theorem endTask_eq : s.endTask k = (s.taskGone k x).setPosition x.pos { p with live := p.live.filter (· ≠ x.node) } := by
  have hpos : (s.taskGone k x).position x.pos = some p := by
    rw [State.position, kettle_of_beyondRefs (s.beyondRefs_taskGone k x)]; exact hp
  simp only [State.endTask, htask]
  split
  · next q hq =>
    cases hq.symm.trans hpos
    rfl
  · next hnone => exact absurd (hnone.symm.trans hpos) (by simp)

/-- A task that ends by its post is gone, from its thread as from its position and its tenant's count, and the thread goes on. -/
theorem endByPost_ends {t : Nat} {th : Thread} (hth : s.thread t = th) : let u := s.endByPost t k x
    u.task k = none ∧ (u.thread t).task = none ∧ GoesPast th (u.thread t) ∧
    u.position x.pos = some { p with live := p.live.filter (· ≠ x.node) } ∧
    u.reports = s.reports ++ [⟨x.tenant, x.ts, [(4, x.slots), (7, 1)], none⟩] ∧ u.taskCountOf x.tenant = s.taskCountOf x.tenant - 1 := by
  have hgone := s.beyondRefs_taskGone k x
  have hended : (s.endByPost t k x).kettle = { s.kettle with
      tasks := SMap.erase s.kettle.tasks k, taskCount := SMap.set (fun _ => 0) s.kettle.taskCount x.tenant (s.taskCountOf x.tenant - 1)
      positions := SMap.put s.kettle.positions x.pos { p with live := p.live.filter (· ≠ x.node) } } := by
    rw [kettle_endByPost, endTask_eq htask hp, kettle_setPosition, kettle_of_beyondRefs hgone]
    rfl
  have hreports := reports_of_beyondRefs hgone
  have hthreads := threads_of_beyondRefs hgone
  have hbefore : ((s.endTask k).thread t).stands = th.stands := by
    rw [endTask_eq htask hp, ← hth]
    exact congrArg Thread.stands (thread_of_threads hthreads t)
  have hafter := (s.endTask k).stands_withoutTask t x
  refine ⟨?_, task_of_stands hafter, ?_, ?_, ?_, ?_⟩
  · rw [State.task, hended]; exact SMap.find_erase_self _ _
  · have hgoes := goesPast_of_stands hafter (Thread.goesPast_postDone _)
    rw [GoesPast, nextPc_of_stands (((s.endTask k).stands_departed t x t).trans hbefore)] at hgoes
    exact hgoes
  · rw [State.position, hended]; exact SMap.find_put_self _ _ _
  · rw [reports_endByPost, endTask_eq htask hp]
    exact hreports
  · rw [State.taskCountOf, hended]; simp

end

/-! ### EMIT and DROP (R160) -/

/-- The script that an EMIT names in local memory (R160). -/
def postedScript (s : State) (t : Nat) (th : Thread) : List Byte :=
  Memory.readBytes (s.thread t).mem (0x400 + 8 * bitsOf (th.bankWord 0) 28 22) (bitsOf (th.bankWord 0) 39 29)

/-- An EMIT without hint, no field out of range, whose script is read without an error and makes a frame of `len` bytes (R160, R355). -/
structure EmitsWell (s : State) (t : Nat) (th : Thread) (x : Task) (len : Nat) : Prop where
  op : th.bankWord 0 % 32 = 0
  high : th.bankWord 0 / 2 ^ 40 = 0
  fits : 8 * bitsOf (th.bankWord 0) 28 22 + bitsOf (th.bankWord 0) 39 29 ≤ 1024
  clean : s.errsIn (tidLeafWin t) 0 (localBase t + (0x400 + 8 * bitsOf (th.bankWord 0) 28 22)) (bitsOf (th.bankWord 0) 39 29) = []
  edit : editedLength (s.postedScript t th) x.frameLen = some len

section
variable {s : State} {t k : Nat} {th : Thread} {x : Task} {p : Position}

theorem thread_of_posting {target : Nat} (h : s.posting t target = some th) : s.thread t = th := by
  simp only [State.posting] at h
  split at h
  · split_ifs at h
    exact Option.some.inj h
  · exact absurd h (by simp)

theorem task_of_heldTask (h : s.heldTask t = some (k, x)) : s.task k = some x := by
  unfold State.heldTask at h
  split at h
  · obtain ⟨y, hy, heq⟩ := Option.map_eq_some_iff.1 h
    cases heq
    exact hy
  · exact absurd h (by simp)

theorem posEnded_of_open (hp : s.position k = some p) (hkept : p.dropped = none) (hopen : p.releasing = false) : s.posEnded k = false := by
  simp [State.posEnded, hp, hkept, hopen]

/-- A read of local memory that meets no codeword in error (R405). -/
theorem localRead_of_errsIn_nil {a n : Nat} (h : s.errsIn (tidLeafWin t) 0 (localBase t + a) n = []) :
    s.localRead t a n = (false, Memory.readBytes (s.thread t).mem a n, s) := by
  have hfixed (data : List Byte) (hlen : data.length = n) : s.eccFixed (tidLeafWin t) 0 (localBase t + a) data = data := by
    rw [State.eccFixed, hlen, h]; rfl
  rw [State.localRead, eccRead_of_errsIn_nil s h, hfixed _ (Memory.length_readBytes _ _ _)]

/-- The output of an EMIT that is well formed. -/
theorem emitBody_outputs {pk : Packet} {len : Nat} (hp : s.position x.pos = some p) (hkept : p.dropped = none) (hopen : p.releasing = false)
    (hpacket : s.packet x.pid = some pk) (hrest : th.restZero = true) (h : EmitsWell s t th x len) :
    ∃ d : OutDesc, d.pid = x.pid ∧ d.tenant = x.tenant ∧ d.queue = bitsOf (th.bankWord 0) 21 5 ∧ d.len = len ∧
      s.emitBody t th x = s.setPosition x.pos { p with outs := p.outs ++ [(x.node, d)] } := by
  obtain ⟨hop, hhigh, hfits, hclean, hedit⟩ := h
  have hplain : (th.bankWord 0).testBit 4 = false := by
    rw [Nat.testBit_eq_decide_div_mod_eq, decide_eq_false_iff_not]; omega
  refine ⟨⟨x.pid, x.tenant, bitsOf (th.bankWord 0) 21 5, none, s.postedScript t th, pk.md, false, len, pk.ts⟩, rfl, rfl, rfl, rfl, ?_⟩
  simp only [State.emitBody, posEnded_of_open hp hkept hopen, hhigh, hrest, Nat.not_lt.2 hfits, hplain, localRead_of_errsIn_nil hclean,
    State.nodeOutput, hp, hpacket, Bool.false_eq_true, ne_eq, not_true_eq_false, Bool.not_true, false_and, or_self, if_false]
  rw [State.postedScript] at hedit
  rw [hedit]
  rfl

theorem nodeDrop_adds (hp : s.position x.pos = some p) (hkept : p.dropped = none) :
    s.nodeDrop x 42 = s.setPosition x.pos { p with nodeDrops := p.nodeDrops ++ [42] } := by
  simp [State.nodeDrop, hp, hkept]

variable (hpost : s.posting t 0 = some th) (hheld : s.heldTask t = some (k, x))
include hpost hheld

theorem kettlePost_of_op {op : Nat → Bool} (hop : op (th.bankWord 0 % 16) = true) (hwrites : th.ops.any LeafOp.writes = false) :
    s.kettlePost t op = some (th, k, x) := by
  simp only [State.kettlePost, hpost, hheld, hop, hwrites, Bool.not_false, Bool.and_self, if_true]

theorem kettlePost_of_not_op {op : Nat → Bool} (hop : op (th.bankWord 0 % 16) = false) : s.kettlePost t op = none := by
  simp only [State.kettlePost, hpost, hheld, hop, Bool.false_and, Bool.false_eq_true, if_false]

end
end State
end Sys2Proof.Machine

namespace Sys2Proof.Safety

open Sys2Proof.Machine

section
variable {s : State} {t : Tid} {th : Thread} {k : Nat} {x : Task} (hpost : s.posting t 0 = some th) (hheld : s.heldTask t = some (k, x))
include hpost hheld

/-- A post with a reserved op is accepted, and that is all. -/
theorem kettleDrop_reserved (hop : 3 ≤ th.bankWord 0 % 16) :
    Leaves (.kettleDrop t) s (fun u => GoesPast th (u.thread t) ∧ (u.thread t).task = th.task ∧ u = { s with threads := u.threads }) := by
  have hpost' := State.kettlePost_of_not_op hpost hheld (op := fun op => op == 1) (beq_false_of_ne (by omega))
  have hexec : exec (.kettleDrop t) s = .next (s.setThread t th.accepted) := by
    show execKettleDrop t s = _
    simp only [execKettleDrop, hpost', State.reservedPost, hpost, hop, if_true]
  have hstands := s.stands_setThread_self t th.accepted
  exact ⟨_, hexec, goesPast_of_stands hstands th.goesPast_accepted, (task_of_stands hstands).trans th.task_accepted, rfl⟩

section
variable {p : Position} (hp : s.position x.pos = some p) (hkept : p.dropped = none) (hopen : p.releasing = false)
  (hwrites : th.ops.any LeafOp.writes = false) (hrest : th.restZero = true)
include hp hkept hopen hwrites hrest

theorem kettleEmit_outputs {pk : Packet} {len : Nat} (hpacket : s.packet x.pid = some pk) (hemit : State.EmitsWell s t th x len) :
    Leaves (.kettleEmit t) s (fun u => u.task k = none ∧ (u.thread t).task = none ∧ GoesPast th (u.thread t) ∧
      (∃ q, u.position x.pos = some q ∧ q.live = p.live.filter (· ≠ x.node) ∧ q.dropped = none ∧ q.outs.take p.outs.length = p.outs ∧
        (q.outs.drop p.outs.length).map (fun e => (e.1, e.2.pid, e.2.tenant, e.2.queue, e.2.len)) =
          [(x.node, x.pid, x.tenant, bitsOf (th.bankWord 0) 21 5, len)]) ∧
      u.reports = s.reports ++ [⟨x.tenant, x.ts, [(4, x.slots), (7, 1)], none⟩] ∧ u.taskCountOf x.tenant = s.taskCountOf x.tenant - 1) := by
  have hpost' := State.kettlePost_of_op hpost hheld (op := fun op => op == 0) (beq_iff_eq.2 (by have := hemit.op; omega)) hwrites
  obtain ⟨d, hpid, htenant, hqueue, hdlen, hbody⟩ := State.emitBody_outputs hp hkept hopen hpacket hrest hemit
  have hexec : exec (.kettleEmit t) s = .next ((s.emitBody t.val th x).endByPost t.val k x) := by
    show execKettleEmit t s = _
    simp only [execKettleEmit, hpost']
  rw [hbody] at hexec
  obtain ⟨hgone, hthread, hgoes, hposition, hreports, hcount⟩ :=
    State.endByPost_ends (s := s.setPosition x.pos { p with outs := p.outs ++ [(x.node, d)] }) (State.task_of_heldTask hheld)
      (SMap.find_put_self _ _ _) (State.thread_of_posting hpost)
  exact ⟨_, hexec, hgone, hthread, hgoes, ⟨_, hposition, rfl, hkept, List.take_left, by simp [hpid, htenant, hqueue, hdlen]⟩, hreports, hcount⟩

theorem kettleDrop_drops (hop : th.bankWord 0 = 1) :
    Leaves (.kettleDrop t) s (fun u => u.task k = none ∧ (u.thread t).task = none ∧ GoesPast th (u.thread t) ∧
      u.position x.pos = some { p with live := p.live.filter (· ≠ x.node), nodeDrops := p.nodeDrops ++ [42] } ∧
      u.reports = s.reports ++ [⟨x.tenant, x.ts, [(4, x.slots), (7, 1)], none⟩] ∧ u.taskCountOf x.tenant = s.taskCountOf x.tenant - 1) := by
  have hpost' := State.kettlePost_of_op hpost hheld (op := fun op => op == 1) (by rw [hop]; rfl) hwrites
  have hexec : exec (.kettleDrop t) s = .next ((s.nodeDrop x 42).endByPost t.val k x) := by
    show execKettleDrop t s = _
    simp [execKettleDrop, hpost', State.posEnded_of_open hp hkept hopen, hrest, hop]
  rw [State.nodeDrop_adds hp hkept] at hexec
  exact ⟨_, hexec, State.endByPost_ends (s := s.setPosition x.pos { p with nodeDrops := p.nodeDrops ++ [42] }) (State.task_of_heldTask hheld)
    (SMap.find_put_self _ _ _) (State.thread_of_posting hpost)⟩

end

end
end Sys2Proof.Safety
end

section
/-! FORK: the child it creates, its refusal past the limit of children, and the status that the thread receives (06, R151, R159, R161, R162). -/

namespace Sys2Proof.Machine

open Sys2Proof.Safety

namespace State

/-! ### Dispatch leaves all but Kettle as it was -/

theorem dispatch_frame (s : State) (k : Nat) : s.dispatch k = { s with kettle := (s.dispatch k).kettle } := by
  unfold State.dispatch State.place
  split
  · rfl
  · split
    · rfl
    · split
      · rfl
      · split
        · rfl
        · split
          · rw [bindTask_eq]
          · rfl

theorem threads_dispatch (s : State) (k : Nat) : (s.dispatch k).threads = s.threads := by
  have h := congrArg State.threads (s.dispatch_frame k)
  exact h

theorem regs_dispatch (s : State) (k : Nat) : (s.dispatch k).regs = s.regs := by
  have h := congrArg State.regs (s.dispatch_frame k)
  exact h

/-- A task dispatched stays the task it was but for its Leaf and its place in the order; positions and other tasks stay as they were. -/
theorem dispatch_child {s : State} {k : Nat} {x : Task} (htask : s.task k = some x) (hchild : x.child = true) :
    (∃ leaf arrived, (s.dispatch k).task k = some { x with leaf := leaf, quotaWait := false, arrived := arrived }) ∧
    (∀ j, j ≠ k → (s.dispatch k).task j = s.task j) ∧ (s.dispatch k).kettle.positions = s.kettle.positions := by
  rcases dispatch_places htask (rootWaits_eq_false_iff.2 (.inl hchild)) with h | ⟨l, h⟩ <;> rw [h]
  · exact ⟨⟨x.leaf, x.arrived, task_setTask_self _ _ _⟩, fun j hj => task_setTask_of_ne _ _ hj, rfl⟩
  · obtain ⟨hbound, -, -, -, hothers⟩ := s.boundTo_bindTask k x l
    exact ⟨⟨_, _, hbound⟩, hothers, by rw [kettle_bindTask]⟩

/-! ### The child (R151, R161) -/

section
variable (s : State) (t : Nat) (th : Thread) (k : Nat) (x : Task) (p : Position) (hdr : List Byte)

/-- The join that a FORK asks for. -/
def joinOf : Option (Nat × Nat × Nat) := if (th.bankWord 0).testBit 16 then some (t, bitsOf (th.bankWord 0) 21 17, k) else none

/-- The child as it is created. -/
def childOf : Task := { x with
  node := p.nextNode, parent := x.node, child := true, entry := bitsOf (th.bankWord 0) 15 4
  budget := s.budgetOfClass (s.kettleClass x.tenant), args := (List.range 4).map (fun i => BitVec.ofNat 64 (th.bankWord (i + 1))), hdr := hdr
  forks := 0, join := joinOf t th k, leaf := none, taken := none, slots := 0, quotaWait := false }

/-- The parent has forked, its position has one more node, and the child's reference is taken. -/
def forked : State :=
  (((s.modKettle (fun y => { y with nextTask := s.kettle.nextTask + 1 })).setTask k { x with forks := x.forks + 1 }).setPosition x.pos
    { p with nextNode := p.nextNode + 1, live := p.live ++ [p.nextNode] }).takeRef x.pid

/-- The forking thread knows its child where it asked for a join. -/
def joined : State :=
  if (joinOf t th k).isSome then (s.forked k x p).modThread t (fun th => { th with joins := th.joins ++ [s.kettle.nextTask] }) else s.forked k x p

/-- The child is stored and counted. -/
def childStored : State := ((s.joined t th k x p).setTask s.kettle.nextTask (s.childOf t th k x p hdr)).count kettleWin 0x304

theorem createChild_eq (hp : s.position x.pos = some p) :
    s.createChild t th k x hdr = (s.childStored t th k x p hdr).dispatch s.kettle.nextTask := by
  rw [State.createChild, hp]
  rfl

theorem kettle_forked : (s.forked k x p).kettle = { s.kettle with
    nextTask := s.kettle.nextTask + 1, tasks := SMap.put s.kettle.tasks k { x with forks := x.forks + 1 }
    positions := SMap.put s.kettle.positions x.pos { p with nextNode := p.nextNode + 1, live := p.live ++ [p.nextNode] } } := by
  rw [State.forked, kettle_takeRef]
  rfl

theorem kettle_joined : (s.joined t th k x p).kettle = (s.forked k x p).kettle := by
  rw [State.joined]
  split <;> rfl

theorem regs_joined : (s.joined t th k x p).regs = (s.forked k x p).regs := by
  rw [State.joined]
  split <;> rfl

theorem threads_forked : (s.forked k x p).threads = s.threads := by
  have h := threads_of_beyondRefs (((((s.modKettle (fun y => { y with nextTask := s.kettle.nextTask + 1 })).setTask k
    { x with forks := x.forks + 1 }).setPosition x.pos { p with nextNode := p.nextNode + 1, live := p.live ++ [p.nextNode] })).beyondRefs_takeRef x.pid)
  exact h

theorem stands_childStored (y : Nat) : ((s.childStored t th k x p hdr).thread y).stands = (s.thread y).stands := by
  have hforked : ((s.forked k x p).thread y).stands = (s.thread y).stands := by rw [thread_of_threads (s.threads_forked k x p)]
  have hjoined : ((s.joined t th k x p).thread y).stands = (s.thread y).stands := by
    rw [State.joined, ← hforked]
    split
    · refine stands_modThread _ (fun _ => ?_) _ _
      rfl
    · rfl
  exact hjoined

theorem counted_childStored : Counted s (s.childStored t th k x p hdr) kettleWin 0x304 := by
  have hforked : (s.forked k x p).reg kettleWin 0x304 = s.reg kettleWin 0x304 := reg_of_lowRegs (lowRegs_takeRef _ _) (by decide) (by decide) (by decide)
  have hjoined := reg_of_regs (s.regs_joined t th k x p) kettleWin 0x304
  rw [Counted, ← hforked, ← hjoined]
  exact toNat_reg_countBy ((s.joined t th k x p).setTask _ _) kettleWin 0x304 1

theorem kettle_childStored : (s.childStored t th k x p hdr).kettle = { s.kettle with
    nextTask := s.kettle.nextTask + 1
    tasks := SMap.put (SMap.put s.kettle.tasks k { x with forks := x.forks + 1 }) s.kettle.nextTask (s.childOf t th k x p hdr)
    positions := SMap.put s.kettle.positions x.pos { p with nextNode := p.nextNode + 1, live := p.live ++ [p.nextNode] } } := by
  rw [State.childStored, kettle_count, kettle_setTask, kettle_joined, kettle_forked]

/-- What a FORK leaves that creates its child. -/
def Forks (u : State) : Prop := Counted s u kettleWin 0x304 ∧
  (∃ c, u.task s.kettle.nextTask = some c ∧ c.pos = x.pos ∧ c.node = p.nextNode ∧ c.parent = x.node ∧ c.child = true ∧ c.tenant = x.tenant ∧
    c.od = x.od ∧ c.entry = bitsOf (th.bankWord 0) 15 4 ∧ c.budget = s.budgetOfClass (s.kettleClass x.tenant) ∧
    c.args = (List.range 4).map (fun i => BitVec.ofNat 64 (th.bankWord (i + 1))) ∧ c.hdr = hdr ∧ c.slots = 0 ∧ c.taken = none) ∧
  u.task k = some { x with forks := x.forks + 1 } ∧
  u.position x.pos = some { p with nextNode := p.nextNode + 1, live := p.live ++ [p.nextNode] }

variable {s p}

theorem createChild_forks (hp : s.position x.pos = some p) (hne : s.kettle.nextTask ≠ k) :
    Forks s th k x p hdr (s.createChild t th k x hdr) ∧ ∀ y, ((s.createChild t th k x hdr).thread y).stands = (s.thread y).stands := by
  rw [createChild_eq s t th k x p hdr hp]
  have hkettle := s.kettle_childStored t th k x p hdr
  have hcounted := s.counted_childStored t th k x p hdr
  have hstands := s.stands_childStored t th k x p hdr
  have hstored : (s.childStored t th k x p hdr).task s.kettle.nextTask = some (s.childOf t th k x p hdr) := by
    rw [State.task, hkettle]; exact SMap.find_put_self _ _ _
  obtain ⟨⟨leaf, arrived, hchild⟩, hothers, hpositions⟩ := dispatch_child hstored rfl
  refine ⟨⟨counted_of_regs (regs_dispatch _ _) hcounted, ⟨_, hchild, rfl, rfl, rfl, rfl, rfl, rfl, rfl, rfl, rfl, rfl, rfl, rfl⟩, ?_, ?_⟩, fun y => ?_⟩
  · rw [hothers k hne.symm, State.task, hkettle]
    exact (SMap.find_put_of_ne _ _ hne.symm).trans (SMap.find_put_self _ _ _)
  · rw [State.position, hpositions, hkettle]
    exact SMap.find_put_self _ _ _
  · rw [thread_of_threads (threads_dispatch _ _), hstands y]

end

/-! ### The answer of a FORK -/

theorem forkBad_eq_false {th : Thread} (hhigh : th.bankWord 0 / 2 ^ 32 = 0) (hdst : bitsOf (th.bankWord 0) 26 22 < 30)
    (hzero : ∀ i ∈ [5, 6, 7], th.bankWord i = 0) : th.forkBad = false := by
  have hlow : th.bankWord 0 < 4294967296 := by omega
  simp only [List.mem_cons, List.not_mem_nil, or_false, forall_eq_or_imp, forall_eq] at hzero
  simp [Thread.forkBad, hlow, hzero, hdst]

section
variable {s : State} {th : Thread} {x : Task} {p : Position} (hhigh : th.bankWord 0 / 2 ^ 32 = 0) (hdst : bitsOf (th.bankWord 0) 26 22 < 30)
  (hzero : ∀ i ∈ [5, 6, 7], th.bankWord i = 0) (hp : s.position x.pos = some p) (hkept : p.dropped = none) (hopen : p.releasing = false)
include hhigh hdst hzero hp hkept hopen

theorem forkResult_limit (hforks : 8 ≤ x.forks) : s.forkResult th x = 1 := by
  simp [State.forkResult, forkBad_eq_false hhigh hdst hzero, posEnded_of_open hp hkept hopen, hforks]

theorem forkResult_ok (hforks : x.forks < 8) (hnode : p.nextNode < 16) (hroom : s.kettle.tasks.length < 32768) : s.forkResult th x = 0 := by
  simp [State.forkResult, forkBad_eq_false hhigh hdst hzero, posEnded_of_open hp hkept hopen, hp, Nat.not_le.2 hforks, Nat.not_le.2 hnode,
    Nat.not_le.2 hroom]

end

/-- The operation in which the status of a FORK stands until it is written. -/
def forkOp (th : Thread) (status : Nat) : LeafOp :=
  ⟨0, th.issued - 1, .fork, 5, bitsOf (th.bankWord 0) 26 22, some (bitsOf (th.bankWord 0) 31 27), 0, 0, 0, 0, leBytes 8 status, none, 0⟩

/-- A post is accepted, with one more operation outstanding. -/
def posted (s : State) (t : Nat) (o : LeafOp) : State := s.modThread t (fun y => { y.accepted with ops := y.ops ++ [o] })

theorem warren_posted (s : State) (t : Nat) (o : LeafOp) : (s.posted t o).warren = s.warren := rfl

theorem posted_goes {s : State} {t : Nat} {th : Thread} (h : (s.thread t).stands = th.stands) (o : LeafOp) :
    ((s.posted t o).thread t).ops = th.ops ++ [o] ∧ GoesPast th ((s.posted t o).thread t) := by
  have hafter : ((s.posted t o).thread t).stands = ({ (s.thread t).accepted with ops := (s.thread t).ops ++ [o] } : Thread).stands :=
    s.stands_setThread_self t _
  refine ⟨(ops_of_stands hafter).trans (by rw [ops_of_stands h]), ?_⟩
  have hgoes := goesPast_of_stands hafter (s.thread t).goesPast_accepted
  rw [GoesPast, nextPc_of_stands h] at hgoes
  exact hgoes

end State
end Sys2Proof.Machine

namespace Sys2Proof.Safety

open Sys2Proof.Machine

/-- A FORK's answer: an operation with its destination, event and status, and a thread that goes on. -/
def ForkAnswers (th : Thread) (t : Nat) (code : Nat) (u : State) : Prop := (∃ o, (u.thread t).ops = th.ops ++ [o] ∧ o.kind = .fork ∧
  o.dst = bitsOf (th.bankWord 0) 26 22 ∧ o.ev = some (bitsOf (th.bankWord 0) 31 27) ∧ o.data = leBytes 8 code) ∧ GoesPast th (u.thread t)

theorem forkAnswers_posted {s : State} {t : Nat} {th : Thread} (h : (s.thread t).stands = th.stands) (code : Nat) :
    ForkAnswers th t code (s.posted t (State.forkOp th code)) := by
  obtain ⟨hops, hgoes⟩ := State.posted_goes h (State.forkOp th code)
  exact ⟨⟨_, hops, rfl, rfl, rfl, rfl⟩, hgoes⟩

section
variable {s : State} {t : Tid} {th : Thread} {k : Nat} {x : Task} {p : Position} (hpost : s.posting t 0 = some th)
  (hheld : s.heldTask t = some (k, x)) (hp : s.position x.pos = some p) (hkept : p.dropped = none) (hopen : p.releasing = false)
  (hop : th.bankWord 0 % 16 = 2) (hhigh : th.bankWord 0 / 2 ^ 32 = 0) (hdst : bitsOf (th.bankWord 0) 26 22 < 30)
  (hzero : ∀ i ∈ [5, 6, 7], th.bankWord i = 0) (hroom : th.outstanding < 16)
  (hclean : s.errsIn (tidLeafWin t) 0 (localBase t + 0x200) 512 = [])
include hpost hheld hp hkept hopen hop hhigh hdst hzero hroom hclean

theorem kettleFork_limit (hforks : 8 ≤ x.forks) :
    Leaves (.kettleFork t) s (fun u => ForkAnswers th t 1 u ∧ Counted s u kettleWin 0x324 ∧ u.kettle = s.kettle) := by
  have hresult := State.forkResult_limit hhigh hdst hzero hp hkept hopen hforks
  have hgo : ¬ (th.bankWord 0 % 16 ≠ 2 ∨ 16 ≤ th.outstanding) := by omega
  have hexec : exec (.kettleFork t) s = .next ((s.count kettleWin 0x324).posted t (State.forkOp th 1)) := by
    show execKettleFork t s = _
    simp only [execKettleFork, hpost, hheld, if_neg hgo, State.localRead_of_errsIn_nil hclean, hresult, Bool.false_eq_true, if_false, one_ne_zero]
    rfl
  have hstands : ((s.count kettleWin 0x324).thread t).stands = th.stands := congrArg Thread.stands (State.thread_of_posting hpost)
  exact ⟨_, hexec, forkAnswers_posted hstands 1, State.toNat_reg_countBy s kettleWin 0x324 1, rfl⟩

theorem kettleFork_creates (hforks : x.forks < 8) (hnode : p.nextNode < 16) (htasks : s.kettle.tasks.length < 32768) (hne : s.kettle.nextTask ≠ k) :
    Leaves (.kettleFork t) s (fun u => ForkAnswers th t (256 * p.nextNode) u ∧
      State.Forks s th k x p (Memory.readBytes (s.thread t).mem 0x200 512) u) := by
  have hresult := State.forkResult_ok hhigh hdst hzero hp hkept hopen hforks hnode htasks
  have hgo : ¬ (th.bankWord 0 % 16 ≠ 2 ∨ 16 ≤ th.outstanding) := by omega
  have hexec : exec (.kettleFork t) s =
      .next ((s.createChild t th k x (Memory.readBytes (s.thread t).mem 0x200 512)).posted t (State.forkOp th (256 * p.nextNode))) := by
    show execKettleFork t s = _
    simp only [execKettleFork, hpost, hheld, if_neg hgo, State.localRead_of_errsIn_nil hclean, hresult, hp, Bool.false_eq_true, if_false, if_true,
      Option.map_some, Option.getD_some, Nat.zero_add]
    rfl
  obtain ⟨hforked, hstands⟩ := State.createChild_forks t th k x (Memory.readBytes (s.thread t).mem 0x200 512) hp hne
  have hthread : ((s.createChild t th k x (Memory.readBytes (s.thread t).mem 0x200 512)).thread t).stands = th.stands := by
    rw [hstands, State.thread_of_posting hpost]
  exact ⟨_, hexec, forkAnswers_posted hthread _, hforked⟩

end
end Sys2Proof.Safety
end

section
/-! The ends of operations at their thread, and Warren commands that threads post (05, R129 to R132, R547; 06, R161; 07, R226; 00, R39). -/

namespace Sys2Proof.Machine

open Sys2Proof.Safety

/-! ### Asynchronous results (R226) -/

namespace Thread

section
variable (th : Thread) (no : Nat)

theorem g_asyncResult_self {r : Nat} (v : Word64) (h : r ≠ 0) : (th.asyncResult no r v).g r = v := by
  simp [Thread.asyncResult, Thread.g, Thread.setG, h]

theorem g_asyncResult_of_ne {r q : Nat} (v : Word64) (h : q ≠ r) : (th.asyncResult no r v).g q = th.g q := by
  by_cases hr : r = 0
  · simp [Thread.asyncResult, Thread.g, Thread.setG, hr]
  · simp [Thread.asyncResult, Thread.g, Thread.setG, hr, SMap.get_set_of_ne _ _ _ h]

end

/-- The results of an operation reach their registers. -/
def results (th : Thread) (no : Nat) (vals : List (Nat × Word64)) : Thread := vals.foldl (fun th v => th.asyncResult no v.1 v.2) th

/-- An operation of a thread has ended: register, then event (R39). -/
def opEnded (th : Thread) (o : LeafOp) (vals : List (Nat × Word64)) : Thread :=
  let y := { th.results o.no vals with ops := removeFirst (fun x => decide (x = o)) th.ops, stalled := false }
  match o.ev with
  | some b => y.setEv b
  | none => y

theorem g_opEnded (th : Thread) (o : LeafOp) (vals : List (Nat × Word64)) (r : Nat) : (th.opEnded o vals).g r = (th.results o.no vals).g r := by
  unfold Thread.opEnded
  dsimp only
  split <;> rfl

theorem events_opEnded (th : Thread) {o : LeafOp} (vals : List (Nat × Word64)) {b : Nat} (hev : o.ev = some b) (hb : b < 32) :
    (th.opEnded o vals).events.getLsbD b = true := by
  simp only [Thread.opEnded, hev, Thread.getLsbD_setEv _ hb]
  simp

end Thread

namespace State

section
variable (s : State) (t : Nat) (o : LeafOp) (vals : List (Nat × Word64))

theorem ops_results (th : Thread) (no : Nat) : (th.results no vals).ops = th.ops := by
  refine foldl_keeps (g := Thread.ops) (fun x v => ?_) vals th
  rw [Thread.asyncResult, Thread.setG_keeps]

theorem endOp_eq : s.endOp t o vals = s.setThread t ((s.thread t).opEnded o vals) := by
  rw [State.endOp, State.modThread, Thread.opEnded, ← ops_results vals (s.thread t) o.no]
  rfl

theorem g_endOp (r : Nat) : ((s.endOp t o vals).thread t).g r = ((s.thread t).results o.no vals).g r := by
  rw [endOp_eq, thread_setThread_self, ← Thread.g_opEnded]
  rfl

theorem events_endOp {o : LeafOp} {b : Nat} (hev : o.ev = some b) (hb : b < 32) :
    ((s.endOp t o vals).thread t).events.getLsbD b = true := by
  rw [endOp_eq, thread_setThread_self]
  exact Thread.events_opEnded _ vals hev hb

theorem thread_endOp_of_ne {y : Nat} (h : y ≠ t) : (s.endOp t o vals).thread y = s.thread y := by
  rw [endOp_eq, thread_setThread_of_ne _ _ h]

end

/-! ### The queues of threads at Warren -/

section
variable (s : State) (t : Nat) (l : List WarrenJob)

theorem wQueue_setQueue_thread : (s.setQueue (8 + t) l).wQueue (8 + t) = l := by
  have hblock : ¬ 8 + t < 4 := by omega
  have hlearn : ¬ 8 + t = 4 := by omega
  simp only [State.wQueue, State.setQueue, modWarren_warren, if_neg hblock, if_neg hlearn]
  exact SMap.get_set_self _ _ _ _

end

/-! ### What R547 answers a post -/

section
variable {s : State} {th : Thread} (hgood : th.warrenBad = false)
include hgood

theorem warrenCheck_run (hmode : s.wtCfg (bitsOf (th.bankWord 0) 7 4) 14 13 = 2 ∨
      s.wtCfg (bitsOf (th.bankWord 0) 7 4) 14 13 = 1 ∧ th.bankWord 0 % 16 = 0)
    (hplace : s.wtPlace (bitsOf (th.bankWord 0) 7 4) ≠ 0) (hkey : s.wtKeyLen (bitsOf (th.bankWord 0) 7 4) ≤ 40) : s.warrenCheck th = .run := by
  have hmay : ¬ (s.wtCfg (bitsOf (th.bankWord 0) 7 4) 14 13 = 0 ∨
      s.wtCfg (bitsOf (th.bankWord 0) 7 4) 14 13 = 1 ∧ th.bankWord 0 % 16 ≠ 0) := by omega
  simp only [State.warrenCheck, hgood, Bool.false_eq_true, if_false, if_neg hmay, if_neg hplace, if_neg (Nat.not_lt.2 hkey)]

theorem warrenCheck_domain (hmode : s.wtCfg (bitsOf (th.bankWord 0) 7 4) 14 13 = 0 ∨
    s.wtCfg (bitsOf (th.bankWord 0) 7 4) 14 13 = 1 ∧ th.bankWord 0 % 16 ≠ 0) : s.warrenCheck th = .domain := by
  simp only [State.warrenCheck, hgood, Bool.false_eq_true, if_false, if_pos hmode]

end

/-- Key bytes 0 and 1 of a posted command are its tenant's (R131). -/
theorem key_warrenJobOf (t : Nat) (th : Thread) (x : Task) (engine : Option Nat) (ended : Option WarrenEnd) :
    (warrenJobOf t th x engine ended).key.take 2 = leBytes 2 x.tenant := rfl

/-- The operation of a command posted, until it has ended. -/
def warrenOp (s : State) (t : Nat) (th : Thread) : LeafOp :=
  ⟨0, th.issued - 1, .warren, 5, bitsOf (th.bankWord 0) 14 10, some (bitsOf (th.bankWord 0) 20 16), 0, 0, 0, s.fetch t th.pc, [], none, 0⟩

/-- A command that has ended waits for no more of Warren. -/
theorem warrenAdvance_of_ended {s : State} {who : Nat} {j : WarrenJob} (hfront : s.wFront who = some j) (hended : j.ended.isSome = true) :
    s.warrenAdvance who = s := by
  simp only [State.warrenAdvance, hfront, hended, true_or, if_true]

end State
end Sys2Proof.Machine

namespace Sys2Proof.Safety

open Sys2Proof.Machine

/-- The oldest status of a thread's FORKs is written, and its event raised. -/
theorem forkStatus_writes {s : State} {t : Tid} {o : LeafOp} (h : (s.thread t).ops.find? (fun o => o.kind == .fork) = some o) :
    Leaves (.forkStatus t) s (fun u => (o.dst ≠ 0 → (u.thread t).g o.dst = BitVec.ofNat 64 (leNat o.data)) ∧
      (∀ b, o.ev = some b → b < 32 → (u.thread t).events.getLsbD b = true) ∧ (∀ r, r ≠ 0 → r ≠ o.dst → (u.thread t).g r = (s.thread t).g r) ∧
      (∀ y, y ≠ t.val → u.thread y = s.thread y) ∧ u = { s with threads := u.threads }) := by
  have hexec : exec (.forkStatus t) s = .next (s.endOp t o [(o.dst, BitVec.ofNat 64 (leNat o.data))]) := by
    show execForkStatus t s = _
    simp only [execForkStatus, h]
  refine ⟨_, hexec, fun hdst => ?_, fun b hev hb => s.events_endOp t _ hev hb, fun r _ hne => ?_, fun y hy => s.thread_endOp_of_ne t o _ hy, rfl⟩
  · rw [State.g_endOp]
    exact Thread.g_asyncResult_self _ _ _ hdst
  · rw [State.g_endOp]
    exact Thread.g_asyncResult_of_ne _ _ _ hne

section
variable {s : State} {t : Tid} {th : Thread} {k : Nat} {x : Task} {e : Nat} (hpost : s.posting t 1 = some th) (hheld : s.heldTask t = some (k, x))
  (hengine : s.engineFor (8 + t.val) = some e) (hroom : th.outstanding < 16)
include hpost hheld hengine hroom

/-- A command that R547 lets through is accepted with its tenant's key bytes (R131). -/
theorem warrenThreadPost_accepts (hcheck : s.warrenCheck th = .run) : Leaves (.warrenThreadPost t) s (fun u =>
    (∃ j, u.wQueue (8 + t.val) = s.wQueue (8 + t.val) ++ [j] ∧ j.op = th.bankWord 0 % 16 ∧ j.table = bitsOf (th.bankWord 0) 7 4 ∧
      j.key.take 2 = leBytes 2 x.tenant ∧ j.engine = some e ∧ j.dst = bitsOf (th.bankWord 0) 14 10 ∧ j.event = bitsOf (th.bankWord 0) 20 16 ∧
      j.ended = none) ∧
    (∃ o, (u.thread t).ops = th.ops ++ [o] ∧ o.kind = .warren) ∧ (u.thread t).wait = .none ∧ (u.thread t).pc = nextPc th) := by
  have hexec : exec (.warrenThreadPost t) s = .next
      ((s.setQueue (8 + t.val) (s.wQueue (8 + t.val) ++ [warrenJobOf t th x (some e) none])).posted t (s.warrenOp t th)) := by
    show execWarrenThreadPost t s = _
    simp only [execWarrenThreadPost, hpost, hheld, hengine, if_neg (Nat.not_le.2 hroom), hcheck]
    rfl
  have hstands : ((s.setQueue (8 + t.val) (s.wQueue (8 + t.val) ++ [warrenJobOf t th x (some e) none])).thread t).stands = th.stands :=
    congrArg Thread.stands (State.thread_of_posting hpost)
  obtain ⟨hops, hwait, hpc, -⟩ := State.posted_goes hstands (s.warrenOp t th)
  have hjob := (State.wQueue_of_warren (State.warren_posted _ t.val (s.warrenOp t th)) _).trans
    (s.wQueue_setQueue_thread t.val (s.wQueue (8 + t.val) ++ [warrenJobOf t th x (some e) none]))
  exact ⟨_, hexec, ⟨_, hjob, rfl, rfl, State.key_warrenJobOf _ _ _ _ _, rfl, rfl, rfl, rfl⟩, ⟨_, hops, rfl⟩, hwait, hpc⟩

/-- A command on a table that threads may not use so stops its thread with DOMAIN. -/
theorem warrenThreadPost_faults (hcheck : s.warrenCheck th = .domain) : Leaves (.warrenThreadPost t) s (fun u =>
    (∃ f, (u.thread t).fault = some f ∧ f.kind = fDOMAIN ∧ f.async = false) ∧ u.warren = s.warren) := by
  have hexec : exec (.warrenThreadPost t) s = .next (s.stopThread t fDOMAIN false (s.fetch t th.pc) 0) := by
    show execWarrenThreadPost t s = _
    simp only [execWarrenThreadPost, hpost, hheld, hengine, if_neg (Nat.not_le.2 hroom), hcheck]
  refine ⟨_, hexec, ?_, rfl⟩
  rw [State.stopThread, State.thread_setThread_self]
  exact ⟨_, rfl, rfl, rfl⟩

end

/-- The registers that an ended command writes: its status, and after a LOOKUP that hit its action word (R130, R132). -/
def warrenResults (j : WarrenJob) (x : WarrenEnd) : List (Nat × Word64) :=
  (j.dst, BitVec.ofNat 64 (x.code + x.flags + x.index * 2 ^ 32)) ::
    if j.op = 0 ∧ x.code = 0 ∧ j.dst ≠ 0 then [(j.dst + 1, x.action.setWidth 64), (j.dst + 2, (x.action >>> 64).setWidth 64)] else []

section
variable (th : Thread) (no : Nat) (j : WarrenJob) (x : WarrenEnd)

theorem g_results_action (hop : j.op = 0) (hcode : x.code = 0) (hdst : j.dst ≠ 0) :
    (th.results no (warrenResults j x)).g (j.dst + 1) = x.action.setWidth 64 ∧
    (th.results no (warrenResults j x)).g (j.dst + 2) = (x.action >>> 64).setWidth 64 := by
  rw [warrenResults, if_pos ⟨hop, hcode, hdst⟩]
  constructor
  · exact (Thread.g_asyncResult_of_ne _ _ _ (by omega)).trans (Thread.g_asyncResult_self _ _ _ (by omega))
  · exact Thread.g_asyncResult_self _ _ _ (by omega)

theorem g_results_status (hdst : j.dst ≠ 0) :
    (th.results no (warrenResults j x)).g j.dst = BitVec.ofNat 64 (x.code + x.flags + x.index * 2 ^ 32) := by
  rw [warrenResults]
  split
  · exact (Thread.g_asyncResult_of_ne _ _ _ (by omega)).trans ((Thread.g_asyncResult_of_ne _ _ _ (by omega)).trans (Thread.g_asyncResult_self _ _ _ hdst))
  · exact Thread.g_asyncResult_self _ _ _ hdst

end

/-- The oldest command of a thread, once ended, writes its registers and raises its event. -/
theorem warrenThreadComplete_writes {s : State} {t : Tid} {j : WarrenJob} {rest : List WarrenJob} {x : WarrenEnd} {o : LeafOp}
    (hqueue : s.wQueue (8 + t.val) = j :: rest) (hended : j.ended = some x) (hpid : j.pid = none) (hcode : x.code ≠ 8)
    (hop : (s.thread t).ops.find? (fun o => o.kind == .warren) = some o) :
    Leaves (.warrenThreadComplete t) s (fun u => u.wQueue (8 + t.val) = rest ∧ u.reports = s.reports ++ [⟨j.tenant, j.ts, [(6, 1)], none⟩] ∧
      (j.dst ≠ 0 → (u.thread t).g j.dst = BitVec.ofNat 64 (x.code + x.flags + x.index * 2 ^ 32)) ∧
      (j.op = 0 → x.code = 0 → j.dst ≠ 0 → (u.thread t).g (j.dst + 1) = x.action.setWidth 64 ∧
        (u.thread t).g (j.dst + 2) = (x.action >>> 64).setWidth 64) ∧
      (∀ b, o.ev = some b → b < 32 → (u.thread t).events.getLsbD b = true) ∧ (∀ y, y ≠ t.val → u.thread y = s.thread y)) := by
  have hfront : s.wFront (8 + t.val) = some j := by rw [State.wFront, hqueue]; rfl
  have hstays := State.warrenAdvance_of_ended hfront (by rw [hended]; rfl)
  have hexec : exec (.warrenThreadComplete t) s =
      .next (((s.setQueue (8 + t.val) rest).report j.tenant j.ts [(6, 1)]).endOp t o (warrenResults j x)) := by
    have hop' : ((((s.setQueue (8 + t.val) rest).report j.tenant j.ts [(6, 1)]).thread t).ops.find? (fun o => o.kind == .warren)) = some o := hop
    show execWarrenThreadComplete t s = _
    simp only [execWarrenThreadComplete, hstays, hfront, hended, hqueue, List.drop_succ_cons, List.drop_zero, hop', hpid, Option.isSome_none,
      Bool.false_eq_true, if_false, if_neg hcode]
    rfl
  have hthread (y : Nat) : ((s.setQueue (8 + t.val) rest).report j.tenant j.ts [(6, 1)]).thread y = s.thread y := rfl
  refine ⟨_, hexec, s.wQueue_setQueue_thread t.val rest, rfl, fun hdst => ?_, fun hlookup hhit hdst => ?_,
    fun b hev hb => State.events_endOp _ t _ hev hb, fun y hy => (State.thread_endOp_of_ne _ t o _ hy).trans (hthread y)⟩
  · rw [State.g_endOp]
    exact g_results_status _ _ j x hdst
  · rw [State.g_endOp, State.g_endOp]
    exact g_results_action _ _ j x hlookup hhit hdst

/-- Settles O39: EMIT, DROP, reserved posts and FORK, the status of a FORK, and the posts to Warren with their ends. -/
theorem threadsPostToKettleAndWarren : Obligations.ThreadsPostToKettleAndWarren := by
  unfold Obligations.ThreadsPostToKettleAndWarren
  refine ⟨?_, fun s t o => forkStatus_writes, ?_,
    fun s t j rest x o hqueue hended hpid hcode => warrenThreadComplete_writes hqueue hended hpid hcode⟩
  · intro s t th k x p pk w goesOn hpost hheld hp hkept hopen hpacket
    refine ⟨fun hwrites hrest => ⟨fun len hop hhigh hfits hclean hedit => ?_, fun hop => ?_⟩, fun hop => ?_, ?_⟩
    · exact kettleEmit_outputs hpost hheld hp hkept hopen hwrites hrest hpacket ⟨hop, hhigh, hfits, hclean, hedit⟩
    · exact kettleDrop_drops hpost hheld hp hkept hopen hwrites hrest hop
    · exact kettleDrop_reserved hpost hheld hop
    · intro hop hhigh hdst hzero hroom hclean n answers
      exact ⟨fun hforks hnode htasks hne _ =>
          kettleFork_creates hpost hheld hp hkept hopen hop hhigh hdst hzero hroom hclean hforks hnode htasks hne,
        fun hforks => kettleFork_limit hpost hheld hp hkept hopen hop hhigh hdst hzero hroom hclean hforks⟩
  · intro s t th k x e hpost hheld hengine hroom w table mode who hgood
    exact ⟨fun hmode hplace hkey => warrenThreadPost_accepts hpost hheld hengine hroom (State.warrenCheck_run hgood hmode hplace hkey),
      fun hmode => warrenThreadPost_faults hpost hheld hengine hroom (State.warrenCheck_domain hgood hmode)⟩

end Sys2Proof.Safety
end

section
/-! An entry at a forced boundary whose handler address is still on its way: where it goes (07, R187, R188, R213). -/

namespace Sys2Proof.Safety

open Sys2Proof.Machine

/-- Thread 1 has asked for a prompt entry since cycle 0, and 1,024 cycles have passed. Its last instruction was an MTT of 0x40 to THR_EVEC, which only
the second instruction after it sees, and keeps the boundary from being quiet. -/
def lateHandler : State :=
  { State.reset with
    gath := [(29, { State.reset.gathOf 29 with own := .inService })]
    time := { State.reset.time with cycles := 1024 }
    threads := [(1, { Thread.zero with
      started := true, issued := 1, pc := 16, events := 1, prompt := 1, reqSince := some 0, pend := [⟨0, 2, 35, 0x40⟩] })] }

/-- The MTT lands at the forced boundary, before the entry (R188): the entry goes to 0x40, where THR_EVEC was 0. -/
theorem forcedBoundary_lateHandler :
    nextHolds (fun u => decide ((u.thread 1).pc = (lateHandler.thread 1).landed.evec)) (exec (.forcedBoundary 1) lateHandler) = false := by
  decide +kernel

theorem lateHandler_enters :
    lateHandler.threadLive 1 = true ∧ (lateHandler.thread 1).landed.wantEntry (lateHandler.isSup 1) = true ∧
    (lateHandler.thread 1).landed.haltReq = false ∧ (lateHandler.thread 1).landed.atBoundary = false ∧
    lateHandler.forcedDue (lateHandler.thread 1).landed = true := by
  decide +kernel

/-- Refutes O13, in its clause of the entry at a forced boundary: the results on their way land first, and a write of THR_EVEC may be among them, but the
statement sends the entry to the THR_EVEC from before they landed. -/
theorem not_entriesHaltsAndTimer : ¬ Obligations.EntriesHaltsAndTimer := by
  intro h
  obtain ⟨hlive, hwants, hnoHalt, hbusy, hdue⟩ := lateHandler_enters
  have hleaves := ((h lateHandler 1).1 hlive hwants hnoHalt).2 hbusy hdue
  have hgoes := nextHolds_of_leaves (p := fun u => decide ((u.thread 1).pc = (lateHandler.thread 1).landed.evec)) hleaves
    fun u ⟨_, hpc, _⟩ => decide_eq_true hpc
  rw [forcedBoundary_lateHandler] at hgoes
  exact Bool.noConfusion hgoes

end Sys2Proof.Safety
end

section
/-! What the slot of a SYSTEM instruction leaves: one that goes on, that holds its thread, that jumps, or that faults (07, R173, R174, R195, R203, R208). -/

namespace Sys2Proof.Machine

open Sys2Proof.Safety

/-! ### A thread replaced twice -/

section
variable {α : Type} (m : SMap α) (k : Nat)

theorem SMap.erase_erase_self : SMap.erase (SMap.erase m k) k = SMap.erase m k := SMap.erase_of_find_none (SMap.find_erase_self m k)

theorem SMap.erase_insert_self (v : α) : SMap.erase (SMap.insert m k v) k = SMap.erase m k := by
  induction m with
  | nil => simp [SMap.insert, SMap.erase]
  | cons e m ih =>
    obtain ⟨j, w⟩ := e
    by_cases hlt : k < j
    · simp [SMap.insert, hlt, SMap.erase]
    · by_cases hj : k = j <;> simp [SMap.insert, hlt, SMap.erase, hj, ih]
      exact hj ▸ ih

/-- The last of two values set at a number stands. -/
theorem SMap.set_set [DecidableEq α] (d : Nat → α) (v w : α) : SMap.set d (SMap.set d m k v) k w = SMap.set d m k w := by
  have herased : SMap.erase (SMap.set d m k v) k = SMap.erase m k := by
    unfold SMap.set
    split
    · exact SMap.erase_erase_self m k
    · rw [SMap.put, SMap.erase_insert_self, SMap.erase_erase_self]
  simp only [SMap.set, SMap.put] at herased ⊢
  rw [herased]

end

theorem State.setThread_setThread (s : State) (t : Nat) (a b : Thread) : (s.setThread t a).setThread t b = s.setThread t b := by
  simp only [State.setThread, State.modThreads]
  rw [SMap.set_set]
  rfl

/-! ### The slot of an instruction that changed its own thread only -/

section
variable {s : State} {t : Nat}

/-- A task that a thread holds is in the table. -/
theorem held_of_heldTask {k : Nat} {x : Task} (h : s.heldTask t = some (k, x)) : (s.thread t).task = some k ∧ s.task k = some x := by
  unfold State.heldTask at h
  split at h
  · next j hj =>
    obtain ⟨y, hy, heq⟩ := Option.map_eq_some_iff.1 h
    cases heq
    exact ⟨hj, hy⟩
  · exact absurd h (by simp)

/-- A thread becomes `a`, the slot is charged, and control changes by `f`: nothing else but the episode of quiet deadlock is touched. -/
theorem onlyThread_settled (a : Thread) (f : Thread → Thread) :
    let u := (((s.setThread t a).charge (s.thread t).task 1).modThread t f).endEpisode t
    OnlyThread s u t ∧ u.thread t = (f (a.noted s.time.cycles (s.isSup t))).noted s.time.cycles (s.isSup t) := by
  intro u
  obtain ⟨hframe, hthread, htask, hquire⟩ :=
    State.endEpisode_frame (((s.setThread t a).charge (s.thread t).task 1).modThread t f) t
  refine ⟨⟨?_, fun x hx => ?_, fun k x hk => ?_, fun k hk => ?_, fun q => ?_⟩, ?_⟩
  · show u = _
    simp only [u]
    rw [hframe]
    simp only [State.modThread]
    rw [State.setThread_frame, State.charge_frame]
    rfl
  · rw [hthread, State.modThread, State.thread_setThread_of_ne _ _ hx, State.thread_charge, State.thread_setThread_of_ne _ _ hx]
  · obtain ⟨hheld, hlisted⟩ := held_of_heldTask hk
    rw [htask, State.modThread, State.task_setThread, hheld]
    exact State.task_charge_self _ _ ((State.task_setThread _ _ _ _).trans hlisted)
  · rw [htask, State.modThread, State.task_setThread, State.task_charge_of_ne _ _ hk, State.task_setThread]
  · rw [hquire, State.modThread, State.quire_setThread, State.quire_charge, State.quire_setThread]
  · rw [hthread]
    simp [State.modThread]

end

/-! ### Instructions that hold their thread, or jump -/

section
variable {s : State} {t : Nat} {w : Word32} {body : State → Thread → LeafAct} (h : Issues s t w) (known : leafKnown w = true)
include h known

theorem leafRun_hold {th' : Thread} (hb : body (s.setThread t (ready s t)) (ready s t) = .hold (s.setThread t th')) :
    ∃ u, s.leafRun t w body = .next u ∧ OnlyThread s u t ∧
      u.thread t = ((th'.noted s.time.cycles (s.isSup t)).counted).noted s.time.cycles (s.isSup t) := by
  obtain ⟨-, -, htask, -⟩ := Thread.landed_keeps (s.thread t)
  refine ⟨_, State.leafRun_issues h known (by rw [hb]; intros; simp), ?_⟩
  rw [hb, show (ready s t).task = (s.thread t).task from htask]
  exact onlyThread_settled th' Thread.counted

/-- An instruction whose thread then waits holds it. -/
theorem leafRun_holds {th' : Thread} (hb : body (s.setThread t (ready s t)) (ready s t) = .hold (s.setThread t th')) (hwaits : th'.waits = true)
    (hpc : th'.pc = (ready s t).pc) (hissued : th'.issued = (ready s t).issued) : ∃ u, s.leafRun t w body = .next u ∧ Holds s u t th' := by
  obtain ⟨u, hrun, honly, hthread⟩ := leafRun_hold h known hb
  have hcounted : ((th'.noted s.time.cycles (s.isSup t)).counted) = { th'.noted s.time.cycles (s.isSup t) with issued := th'.issued + 1 } :=
    if_pos hwaits
  rw [hcounted] at hthread
  refine ⟨u, hrun, honly, ?_⟩
  rw [hthread, ← hpc, ← hissued]
  exact ⟨rfl, rfl, rfl, rfl, rfl, rfl, rfl, rfl, rfl, rfl⟩

/-- An instruction that jumps without a delay slot. -/
theorem leafRun_jump {th' : Thread} {target : Nat} (hb : body (s.setThread t (ready s t)) (ready s t) = .jump (s.setThread t th') target) :
    ∃ u, s.leafRun t w body = .next u ∧ OnlyThread s u t ∧ u.thread t =
      ({ th'.noted s.time.cycles (s.isSup t) with pc := target }.counted).noted s.time.cycles (s.isSup t) := by
  obtain ⟨-, -, htask, -⟩ := Thread.landed_keeps (s.thread t)
  refine ⟨_, State.leafRun_issues h known (by rw [hb]; intros; simp), ?_⟩
  rw [hb, show (ready s t).task = (s.thread t).task from htask]
  exact onlyThread_settled th' (fun th => { th with pc := target }.counted)

/-- An instruction that changed nothing at all goes on. -/
theorem leafRun_goes (hb : body (s.setThread t (ready s t)) (ready s t) = .next (s.setThread t (ready s t))) :
    ∃ u, s.leafRun t w body = .next u ∧ Retires s u t (ready s t) :=
  leafRun_retires h known (by rw [hb, State.setThread_setThread]) rfl rfl rfl rfl

end

/-! ### Faults (R195) -/

/-- Landing does not look at the moments that a thread notes (R188, R201, R166). -/
theorem Thread.landN_noted (now : Nat) (sup : Bool) (n j : Nat) (th : Thread) :
    ((th.noted now sup).landN n j).regs = (th.landN n j).regs ∧ ((th.noted now sup).landN n j).flags = (th.landN n j).flags := by
  have hmarks (r q d : Option Nat) : ({ th with reqSince := r, quietSince := q, haltedSince := d } : Thread).landN n j =
      { th.landN n j with reqSince := r, quietSince := q, haltedSince := d } := by
    induction n generalizing th with
    | zero => rfl
    | succ n ih =>
      unfold Thread.landN
      rw [show ({ th with reqSince := r, quietSince := q, haltedSince := d } : Thread).nextDue j = th.nextDue j from rfl]
      cases th.nextDue j with
      | none => rfl
      | some p =>
        refine Eq.trans (congrArg (Thread.landN n j) ?_) (ih (th.landOne p))
        unfold Thread.landOne Thread.setG Thread.writeTcr
        dsimp only
        split
        · split <;> rfl
        · split <;> [(split <;> rfl); rfl]
  rw [Thread.noted_eq, hmarks]
  exact ⟨rfl, rfl⟩

/-- A thread that stops with a fault, and what of it no instruction has touched. -/
theorem thread_stopThread (s : State) (t kind : Nat) (w : Word32) (detail : Nat) :
    ∃ f, ((s.stopThread t kind false w detail).thread t).fault = some f ∧ f.kind = kind ∧ f.async = false ∧ f.insn = w ∧
      f.pc = (s.thread t).landAll.pc ∧ f.detail = BitVec.ofNat 64 detail ∧ f.time = s.time.ns ∧ f.recorded = false := by
  rw [State.stopThread, State.thread_setThread_self]
  exact ⟨_, rfl, rfl, rfl, rfl, rfl, rfl, rfl, rfl⟩

theorem leafRun_faults {s : State} {t : Nat} {w : Word32} {body : State → Thread → LeafAct} (h : Issues s t w) (known : leafKnown w = true)
    {kind detail : Nat} (hkind : kind ≠ fBUDGET)
    (hb : body (s.setThread t (ready s t)) (ready s t) = .fault (s.setThread t (ready s t)) kind detail) :
    ∃ u, s.leafRun t w body = .next u ∧ Faults s u t kind w detail ∧ NoEffect s u t := by
  refine ⟨_, State.leafRun_issues h known (by rw [hb]; intros; simp), ?_⟩
  rw [hb]
  simp only [settleAct, if_neg hkind]
  obtain ⟨hframe, hthread, -, -⟩ := State.endEpisode_frame ((s.setThread t (ready s t)).charge (ready s t).task 1) t
  generalize hv : ((s.setThread t (ready s t)).charge (ready s t).task 1).endEpisode t = v at hframe hthread ⊢
  have hself : v.thread t = (ready s t).noted s.time.cycles (s.isSup t) := by rw [hthread]; simp
  have htime : v.time = s.time := by rw [hframe]; simp
  obtain ⟨hpc, hissued, -, -, -, -, -, hmem, hops, -, -⟩ :=
    Thread.landN_keeps (v.thread t).pend.length ((v.thread t).issued + 32) (v.thread t)
  obtain ⟨hregs, hflags⟩ := Thread.landN_noted s.time.cycles (s.isSup t) (v.thread t).pend.length ((v.thread t).issued + 32) (ready s t)
  obtain ⟨f, hf, hfkind, hasync, hinsn, hfpc, hdetail, hftime, hrecorded⟩ := thread_stopThread v t kind w detail
  have hfpc' : f.pc = (ready s t).pc := hfpc.trans (hpc.trans (by rw [hself]; rfl))
  refine ⟨⟨fun x hx => ?_, ?_, ?_, f, hf, hfkind, hasync, hinsn, hfpc', hdetail, htime ▸ hftime, hrecorded⟩, ?_, ?_, ?_, ?_⟩
  · rw [State.stopThread, State.thread_setThread_of_ne _ _ hx, hthread, State.thread_charge, State.thread_setThread_of_ne _ _ hx]
  all_goals
    rw [State.stopThread, State.thread_setThread_self]
  · exact hissued.trans (by rw [hself]; rfl)
  · exact hpc.trans (by rw [hself]; rfl)
  · rw [hself] at hregs
    rw [hself]
    exact hregs
  · rw [hself] at hflags
    rw [hself]
    exact hflags
  · exact hmem.trans (by rw [hself]; rfl)
  · exact hops.trans (by rw [hself]; rfl)

/-! ### The words of SYSTEM instructions (R246) -/

theorem fld_encR {major gd gs gt func : Nat} (hd : gd < 32) (hs : gs < 32) (ht : gt < 32) (hf : func < 2048) (hm : major < 64) :
    fld (encR major gd gs gt func) 31 26 = major ∧ fld (encR major gd gs gt func) 10 0 = func ∧ fld (encR major gd gs gt func) 25 21 = gd ∧
    fld (encR major gd gs gt func) 20 16 = gs ∧ fld (encR major gd gs gt func) 15 11 = gt := by
  have hword : (encR major gd gs gt func).toNat = major * 2 ^ 26 + gd * 2 ^ 21 + gs * 2 ^ 16 + gt * 2 ^ 11 + func := by
    rw [encR, wordOf, BitVec.toNat_ofNat, Nat.mod_eq_of_lt (by omega)]
  simp only [fld, bitsOf, hword, Nat.shiftRight_eq_div_pow]
  omega

/-- Whether a word of major 0x20 is known is a matter of its function and its unused fields. -/
theorem leafKnown_system {gd gs gt func : Nat} (hd : gd < 32) (hs : gs < 32) (ht : gt < 32) (hf : func < 2048) :
    leafKnown (encR 0x20 gd gs gt func) = systemKnown func gd gs gt := by
  obtain ⟨hmajor, hfunc, hgd, hgs, hgt⟩ := fld_encR hd hs ht hf (major := 0x20) (by decide)
  simp [leafKnown, hmajor, hfunc, hgd, hgs, hgt]

end Sys2Proof.Machine
end

section
/-! What is read of the memories does not look at the threads, and leaves them alone (02, R315; 16, R402 to R408). -/

namespace Sys2Proof.Machine

/-- The state with other threads. -/
def State.withThreads (s : State) (m : SMap Thread) : State := { s with threads := m }

namespace State

section
variable (s : State) (m : SMap Thread)

@[simp] theorem setSummary_withThreads (w b : Nat) : (s.withThreads m).setSummary w b = (s.setSummary w b).withThreads m := rfl
@[simp] theorem setInstLog_withThreads (w inst : Nat) (l : InstLog) :
    (s.withThreads m).setInstLog w inst l = (s.setInstLog w inst l).withThreads m := rfl
@[simp] theorem summarise_withThreads (w inst addr : Nat) (ucor hard : Bool) :
    (s.withThreads m).summarise w inst addr ucor hard = (s.summarise w inst addr ucor hard).withThreads m := rfl
@[simp] theorem instLog_withThreads (w inst : Nat) : (s.withThreads m).instLog w inst = s.instLog w inst := rfl
@[simp] theorem rf_withThreads (w off hi lo : Nat) : (s.withThreads m).rf w off hi lo = s.rf w off hi lo := rfl

@[simp] theorem becomeHard_withThreads (w inst addr : Nat) (ucor : Bool) :
    (s.withThreads m).becomeHard w inst addr ucor = (s.becomeHard w inst addr ucor).withThreads m := by
  let v := ((s.count 426 0x80C).setEvent 426 0x780 1).summarise w inst addr ucor true
  show (if v.mower.hardQueue.length < 64 then _ else _) = State.withThreads (if v.mower.hardQueue.length < 64 then _ else _) m
  split <;> rfl

@[simp] theorem logError_withThreads (w inst addr : Nat) (ucor : Bool) (syndrome : Nat) :
    (s.withThreads m).logError w inst addr ucor syndrome = (s.logError w inst addr ucor syndrome).withThreads m := by
  simp only [State.logError, setSummary_withThreads, instLog_withThreads, rf_withThreads, setInstLog_withThreads, summarise_withThreads]
  split
  · split_ifs <;> simp only [becomeHard_withThreads]
  · split
    · split_ifs <;> simp only [becomeHard_withThreads]
    · rfl

/-- One error that a read has found is logged. -/
def logFound (w inst : Nat) (s : State) (e : EccErr) : State := s.logError w inst e.addr (s.errFatal e) (s.syndrome e % 2 ^ 32)

theorem eccRead_withThreads (w inst addr len : Nat) :
    (s.withThreads m).eccRead w inst addr len = ((s.eccRead w inst addr len).1, (s.eccRead w inst addr len).2.withThreads m) := by
  have hlog (v : State) (e : EccErr) : logFound w inst (v.withThreads m) e = (logFound w inst v e).withThreads m :=
    v.logError_withThreads m _ _ _ _ _
  have hfold (l : List EccErr) (v : State) : l.foldl (logFound w inst) (v.withThreads m) = (l.foldl (logFound w inst) v).withThreads m := by
    induction l generalizing v with
    | nil => rfl
    | cons e l ih => rw [List.foldl_cons, hlog, ih, List.foldl_cons]
  exact Prod.ext rfl (hfold ((s.errsIn w inst addr len).filter EccErr.shows) s)

theorem touchChannel_withThreads (w : Nat) : (s.withThreads m).touchChannel w = (s.touchChannel w).withThreads m := by
  unfold State.touchChannel
  rw [show (s.withThreads m).chanAvail w = s.chanAvail w from rfl]
  split
  · rfl
  · show (if (s.chan w).selfRefresh.isSome then _ else _) = State.withThreads (if (s.chan w).selfRefresh.isSome then _ else _) m
    split <;> rfl
  · rfl

theorem readMeta_withThreads (ptr : Nat) : (s.withThreads m).readMeta ptr = ((s.readMeta ptr).1, (s.readMeta ptr).2.withThreads m) := by
  unfold State.readMeta
  rw [show (s.withThreads m).metaPlace ptr = s.metaPlace ptr from rfl]
  split
  · next p _ =>
    rw [show (s.withThreads m).chanAvail p.1 = s.chanAvail p.1 from rfl, touchChannel_withThreads, eccRead_withThreads, eccRead_withThreads]
    split_ifs <;> rfl
  · rfl

theorem chain_withThreads (fuel ptr : Nat) : (s.withThreads m).chain fuel ptr = s.chain fuel ptr := by
  induction fuel generalizing ptr with
  | zero => rfl
  | succ fuel ih =>
    unfold State.chain
    rw [State.cellBad, readMeta_withThreads, ← State.cellBad, show (s.withThreads m).cell ptr = s.cell ptr from rfl, ih]

theorem cellData_withThreads (p : Packet) (i ptr : Nat) : (s.withThreads m).cellData p i ptr = s.cellData p i ptr := by
  unfold State.cellData
  rw [show (s.withThreads m).bmMap ((s.withThreads m).cellAddr ptr) = s.bmMap (s.cellAddr ptr) from rfl]
  split_ifs
  · rfl
  · split <;> rfl

theorem packetData_withThreads (p : Packet) : (s.withThreads m).packetData p = s.packetData p := by
  unfold State.packetData
  split
  · next h _ =>
    simp only [show (s.withThreads m).chainOf h = s.chainOf h from s.chain_withThreads m _ h, cellData_withThreads]
  · rfl

/-- A task's header copy is the same whatever the threads do. -/
theorem withHeader_withThreads (x : Task) : (s.withThreads m).withHeader x = s.withHeader x := by
  rw [State.withHeader, show (s.withThreads m).packet x.pid = s.packet x.pid from rfl, funext (s.packetData_withThreads m), State.withHeader]

theorem packetCells_withThreads (pid : Nat) : (s.withThreads m).packetCells pid = s.packetCells pid := by
  have hchain (h : Nat) : (s.withThreads m).chainOf h = s.chainOf h := s.chain_withThreads m _ h
  unfold State.packetCells
  simp only [hchain]
  rfl

theorem followChain_withThreads (handle : Nat) : (s.withThreads m).followChain handle = (s.followChain handle).withThreads m := by
  have hfold (l : List Nat) (v : State) :
      l.foldl (fun v p => (v.readMeta p).2) (v.withThreads m) = (l.foldl (fun v p => (v.readMeta p).2) v).withThreads m := by
    induction l generalizing v with
    | nil => rfl
    | cons p l ih => rw [List.foldl_cons, readMeta_withThreads, ih, List.foldl_cons]
  unfold State.followChain
  rw [show (s.withThreads m).chainOf handle = s.chainOf handle from s.chain_withThreads m _ handle]
  exact hfold _ s

theorem readCell_withThreads (ptr : Nat) : (s.withThreads m).readCell ptr = ((s.readCell ptr).1, (s.readCell ptr).2.withThreads m) := by
  unfold State.readCell
  rw [show (s.withThreads m).bmMap ((s.withThreads m).cellAddr ptr) = s.bmMap (s.cellAddr ptr) from rfl]
  split
  · exact s.eccRead_withThreads m _ _ _ _
  · split
    · exact s.eccRead_withThreads m _ _ _ _
    · rfl

theorem readCells_withThreads (ptrs : List Nat) : (s.withThreads m).readCells ptrs = ((s.readCells ptrs).1, (s.readCells ptrs).2.withThreads m) := by
  have hfold (b : Bool) (v : State) :
      ptrs.foldl (fun acc p => let r := acc.2.readCell p; (acc.1 || r.1, r.2)) (b, v.withThreads m) =
        (let r := ptrs.foldl (fun acc p => let r := acc.2.readCell p; (acc.1 || r.1, r.2)) (b, v); (r.1, r.2.withThreads m)) := by
    induction ptrs generalizing b v with
    | nil => rfl
    | cons p l ih => simp only [List.foldl_cons, readCell_withThreads, ih]
  exact hfold false s

/-- A stretch of a packet's cells reads the same whatever the threads do. -/
theorem readPacket_withThreads (pid first n : Nat) :
    (s.withThreads m).readPacket pid first n = ((s.readPacket pid first n).1, (s.readPacket pid first n).2.withThreads m) := by
  have hfollowed : (((s.withThreads m).packet pid).bind (·.handle)).elim (s.withThreads m) (s.withThreads m).followChain =
      (((s.packet pid).bind (·.handle)).elim s s.followChain).withThreads m := by
    rw [show (s.withThreads m).packet pid = s.packet pid from rfl]
    cases (s.packet pid).bind (·.handle) with
    | none => rfl
    | some h => exact s.followChain_withThreads m h
  simp only [State.readPacket, packetCells_withThreads, hfollowed, readCells_withThreads]

@[simp] theorem beyondCells_readCells (ptrs : List Nat) : (s.readCells ptrs).2.beyondCells = s.beyondCells := by
  have hcell (v : State) (ptr : Nat) : (v.readCell ptr).2.beyondCells = v.beyondCells := by
    unfold State.readCell
    split
    · exact v.beyondCells_eccRead _ _ _ _
    · split
      · exact v.beyondCells_eccRead _ _ _ _
      · rfl
  refine foldl_keeps (g := fun acc : Bool × State => acc.2.beyondCells) (fun acc p => ?_) ptrs (false, s)
  exact hcell acc.2 p

@[simp] theorem beyondCells_readPacket (pid first n : Nat) : (s.readPacket pid first n).2.beyondCells = s.beyondCells := by
  simp only [State.readPacket, beyondCells_readCells]
  cases (s.packet pid).bind (·.handle) with
  | none => rfl
  | some h => exact s.beyondCells_followChain h

end
end State
end Sys2Proof.Machine
end

section
/-! What a thread is once it has received a task, and what the reset of its coprocessor contexts leaves alone (06, R150 to R154; 09, R258). -/

namespace Sys2Proof.Machine

/-! ### The reset of a thread's contexts -/

/-- The state without what the reset of a thread's contexts, its shared memory and its operations there change: threads, Quires, registers, memories, ports
and free values. -/
def State.beyondLeaf (s : State) : State := { s.beyondCells with threads := [], quires := [], fresh := 0 }

/-- What the roles of threads come from, with the time: each Quire's supervisor Leaf and its Sheet set's addresses. -/
def State.roles (s : State) : TimeSt × (Nat → Nat × Option (Nat × Nat × Nat × Nat)) := (s.time, fun q => ((s.quire q).sup, (s.quire q).entries))

/-- What a task leaves of the thread that receives it: its registers and results, and where it stands. -/
def Thread.course (th : Thread) : SMap Word64 × List Pend × Nat × Nat × Bool × Option Nat :=
  (th.regs, th.pend, th.issued, th.pc, th.inDelay, th.after)

namespace State

theorem beyondLeaf_of_beyondCells {s u : State} (h : u.beyondCells = s.beyondCells) : u.beyondLeaf = s.beyondLeaf :=
  congrArg (fun v : State => { v with threads := [], quires := [], fresh := 0 }) h

section
variable {s u : State}

theorem kettle_of_beyondLeaf (h : u.beyondLeaf = s.beyondLeaf) : u.kettle = s.kettle := by
  have := congrArg State.kettle h
  exact this
theorem packets_of_beyondLeaf (h : u.beyondLeaf = s.beyondLeaf) : u.packets = s.packets := by
  have := congrArg State.packets h
  exact this
theorem quires_of_beyondCells (h : u.beyondCells = s.beyondCells) : u.quires = s.quires := by
  have := congrArg State.quires h
  exact this
theorem threads_of_beyondCells (h : u.beyondCells = s.beyondCells) : u.threads = s.threads := by
  have := congrArg State.threads h
  exact this
theorem time_of_beyondCells (h : u.beyondCells = s.beyondCells) : u.time = s.time := by
  have := congrArg State.time h
  exact this
theorem quire_of_quires (h : u.quires = s.quires) (q : Nat) : u.quire q = s.quire q := by rw [State.quire, h, State.quire]

/-- A header window is made of the task and its packet. -/
theorem headerWindow_of_packets (h : u.packets = s.packets) (x : Task) : u.headerWindow x = s.headerWindow x := by
  unfold State.headerWindow State.descriptor State.packet
  rw [h]

end

section
variable (s : State)

@[simp] theorem beyondLeaf_setThread (t : Nat) (th : Thread) : (s.setThread t th).beyondLeaf = s.beyondLeaf := rfl
@[simp] theorem beyondLeaf_modThread (t : Nat) (f : Thread → Thread) : (s.modThread t f).beyondLeaf = s.beyondLeaf := rfl
@[simp] theorem beyondLeaf_setQuire (q : Nat) (x : QuireSt) : (s.setQuire q x).beyondLeaf = s.beyondLeaf := rfl
@[simp] theorem beyondLeaf_count (w off : Nat) : (s.count w off).beyondLeaf = s.beyondLeaf := rfl
@[simp] theorem beyondLeaf_stepFresh : s.stepFresh.beyondLeaf = s.beyondLeaf := rfl
@[simp] theorem beyondLeaf_eccWrite (w inst addr len : Nat) : (s.eccWrite w inst addr len).beyondLeaf = s.beyondLeaf :=
  beyondLeaf_of_beyondCells (s.beyondCells_eccWrite w inst addr len)

@[simp] theorem beyondLeaf_claspStart (q : Nat) : (s.claspStart q).beyondLeaf = s.beyondLeaf := by
  fun_cases State.claspStart s q <;> simp +zetaDelta [apply_ite State.beyondLeaf]

@[simp] theorem beyondLeaf_clearSave (q n : Nat) : (s.clearSave q n).beyondLeaf = s.beyondLeaf := by
  fun_cases State.clearSave s q n <;> simp

@[simp] theorem beyondLeaf_cpReset (t : Nat) : (s.cpReset t).beyondLeaf = s.beyondLeaf := by simp [State.cpReset]

@[simp] theorem roles_setThread (t : Nat) (th : Thread) : (s.setThread t th).roles = s.roles := rfl
@[simp] theorem roles_setReg (w off : Nat) (v : Word32) : (s.setReg w off v).roles = s.roles := rfl
@[simp] theorem roles_count (w off : Nat) : (s.count w off).roles = s.roles := rfl
@[simp] theorem roles_stepFresh : s.stepFresh.roles = s.roles := rfl

theorem roles_of_quires {s u : State} (htime : u.time = s.time) (hquires : u.quires = s.quires) : u.roles = s.roles := by
  rw [State.roles, htime]
  exact congrArg _ (funext fun q => by rw [quire_of_quires hquires])

theorem roles_of_beyondCells {s u : State} (h : u.beyondCells = s.beyondCells) : u.roles = s.roles :=
  roles_of_quires (time_of_beyondCells h) (quires_of_beyondCells h)

/-- A Quire replaced by one of the same roles. -/
theorem roles_setQuire {q : Nat} {x : QuireSt} (hsup : x.sup = (s.quire q).sup) (hentries : x.entries = (s.quire q).entries) :
    (s.setQuire q x).roles = s.roles := by
  refine Prod.ext rfl (funext fun r => ?_)
  show (((s.setQuire q x).quire r).sup, ((s.setQuire q x).quire r).entries) = _
  by_cases hr : r = q
  · rw [hr, quire_setQuire_self, hsup, hentries]; rfl
  · rw [quire_setQuire_of_ne _ _ hr]; rfl

@[simp] theorem roles_eccWrite (w inst addr len : Nat) : (s.eccWrite w inst addr len).roles = s.roles :=
  roles_of_beyondCells (s.beyondCells_eccWrite w inst addr len)

@[simp] theorem roles_claspStart (q : Nat) : (s.claspStart q).roles = s.roles := by
  fun_cases State.claspStart s q <;> simp +zetaDelta [apply_ite State.roles]

@[simp] theorem roles_clearSave (q n : Nat) : (s.clearSave q n).roles = s.roles := by
  fun_cases State.clearSave s q n <;> simp +zetaDelta [roles_setQuire]

@[simp] theorem roles_cpReset (t : Nat) : (s.cpReset t).roles = s.roles := by
  rw [State.cpReset, roles_claspStart, roles_clearSave, roles_setQuire]
  · rfl
  · rfl
  · rfl

/-- The operation that Clasp starts is of the oldest context that waits: another thread is as it was. -/
theorem thread_claspStart_of_ne {q t : Nat} (h : ∀ c ∈ (s.quire q).claspQ, ctxThread q c ≠ t) : (s.claspStart q).thread t = s.thread t := by
  cases hq : (s.quire q).claspQ with
  | nil => simp only [State.claspStart, hq]
  | cons c l =>
    have hne : t ≠ ctxThread q c := fun he => h c (by rw [hq]; exact List.mem_cons_self) he.symm
    simp only [State.claspStart, hq]
    split
    · split
      · rfl
      · split_ifs <;> exact s.thread_setThread_of_ne _ hne
    · rfl

theorem threads_clearSave (q n : Nat) : (s.clearSave q n).threads = s.threads := by
  simp only [State.clearSave]
  split
  · rfl
  · exact (threads_of_beyondCells (beyondCells_eccWrite _ _ _ _ _)).trans rfl

theorem claspQ_clearSave (q n : Nat) : ((s.clearSave q n).quire q).claspQ = (s.quire q).claspQ := by
  simp only [State.clearSave]
  split
  · rfl
  · rw [quire_of_quires (quires_of_beyondCells (beyondCells_eccWrite _ _ _ _ _)), quire_setQuire_self]

/-- The thread whose contexts are reset: nothing of it but they. -/
theorem thread_cpReset_self (t : Nat) : (s.cpReset t).thread t =
    ({ s.thread t with awl := ⟨[], []⟩, clasp := ⟨[], []⟩, hidden := .zero, custom := [] } : Thread).noted s.time.cycles (s.isSup t) := by
  have hctx : ctxThread (tidQuire t) (ctxOf t) = t := Nat.div_add_mod t 72
  rw [State.cpReset, thread_claspStart_of_ne, State.thread, threads_clearSave]
  · exact s.thread_setThread_self t _
  · intro c hc he
    rw [claspQ_clearSave, quire_setQuire_self] at hc
    have hne := (List.mem_filter.1 hc).2
    rw [ctxThread] at he hctx
    exact absurd (show c = ctxOf t by omega) (by simpa using hne)

/-! ### A task is received (R150 to R154) -/

theorem thread_giveTask_self (t k : Nat) (x : Task) : let v := (s.giveTask t k x).thread t
    v.task = some k ∧ v.mem = Memory.writeBytes [] 0 (s.headerWindow x) ∧ v.course = (s.thread t).course := by
  have hthreads := threads_of_beyondCells (beyondCells_eccWrite (((s.setTask k { x with taken := some t }).cpReset t).modThread t
    (fun th => { th with task := some k, mem := Memory.writeBytes [] 0 (((s.setTask k { x with taken := some t }).cpReset t).headerWindow x) }))
    (tidLeafWin t) 0 (localBase t) 6144)
  have hpackets := packets_of_beyondLeaf ((s.setTask k { x with taken := some t }).beyondLeaf_cpReset t)
  rw [State.giveTask, thread_of_threads hthreads, State.modThread, thread_setThread_self, headerWindow_of_packets hpackets, thread_cpReset_self]
  exact ⟨rfl, rfl, rfl⟩

theorem task_giveTask_self (t k : Nat) (x : Task) : (s.giveTask t k x).task k = some { x with taken := some t } := by
  have hkettle := kettle_of_beyondLeaf ((s.setTask k { x with taken := some t }).beyondLeaf_cpReset t)
  have hwritten : (s.giveTask t k x).kettle = ((s.setTask k { x with taken := some t }).cpReset t).kettle := by
    rw [State.giveTask, kettle_of_beyondLeaf (beyondLeaf_eccWrite _ _ _ _ _)]
    rfl
  rw [task_of_kettle (hwritten.trans hkettle), task_setTask_self]

/-- TAKE gives the oldest descriptor, where it is a child's or its header copy succeeds. -/
theorem takeTask_gives {s : State} {t k : Nat} {x : Task} {n : Nat} (hready : s.readyTask (tidLeaf t) = some (k, x))
    (hcopy : x.child = true ∨ (s.readPacket x.pid 0 2).1 = false) :
    ∃ v : State, v.beyondCells = s.beyondCells ∧ s.takeTask t (n + 1) = (true, v.giveTask t k (s.withHeader x)) := by
  cases hchild : x.child
  · have hread : (s.readPacket x.pid 0 2).1 = false := hcopy.resolve_left (by simp [hchild])
    exact ⟨_, s.beyondCells_readPacket x.pid 0 2, by simp [State.takeTask, hready, hchild, hread]⟩
  · exact ⟨s, rfl, by simp [State.takeTask, hready, hchild]⟩

theorem takeTask_none {s : State} {t : Nat} (n : Nat) (hready : s.readyTask (tidLeaf t) = none) : s.takeTask t n = (false, s) := by
  cases n <;> simp [State.takeTask, hready]

/-- A descriptor that is ready is in the table. -/
theorem tasks_ne_nil_of_readyTask {s : State} {leaf k : Nat} {x : Task} (h : s.readyTask leaf = some (k, x)) : ∃ n, s.kettle.tasks.length = n + 1 := by
  cases htasks : s.kettle.tasks with
  | nil => simp [State.readyTask, htasks] at h
  | cons e l => exact ⟨l.length, rfl⟩

end
end State
end Sys2Proof.Machine
end

section
/-! Waits begin and end, and events arrive (06, R154, R180 to R185, R189, R192; 08, R243, R247). -/

namespace Sys2Proof.Safety

open Sys2Proof.Machine

/-! ### What control leaves of a thread -/

/-- Only the marks of STEP and of halting depend on whether a STEP ends here (R208). -/
theorem stepped_eq (th : Thread) : th.stepped = { th with
    step := th.stepped.step, halted := th.stepped.halted, haltReq := th.stepped.haltReq, haltForced := th.stepped.haltForced,
    forced := th.stepped.forced } := by
  unfold Thread.stepped
  split <;> rfl

theorem counted_eq (th : Thread) : th.counted = { th with
    issued := th.issued + 1, step := th.counted.step, halted := th.counted.halted, haltReq := th.counted.haltReq,
    haltForced := th.counted.haltForced, forced := th.counted.forced } := by
  unfold Thread.counted
  dsimp only
  split
  · rfl
  · exact stepped_eq _

/-- A thread that neither waits nor steps is only counted. -/
theorem counted_of_not_step {th : Thread} (h : th.step = false) : th.counted = { th with issued := th.issued + 1 } := by
  unfold Thread.counted Thread.stepped
  simp [h]

theorem withResult_eq_result (th : Thread) (gd d : Nat) (v : Word64) : withResult th gd d v false false = th.result gd d v := by
  unfold withResult Thread.result
  by_cases hgd : gd = 0 <;> simp [hgd]

/-- Clearing the events that a mask hits is clearing the mask. -/
theorem and_not_and_self (e m : Word32) : e &&& ~~~(e &&& m) = e &&& ~~~m := by
  rw [BitVec.not_and, BitVec.and_or_distrib_left, BitVec.and_not_self]
  exact BitVec.zero_or

/-! ### WFE, WAITT, FENCE, CHPOST, BKPT and ERET -/

section
variable {s : State} {t : Tid} {gd gt gm : Reg}

theorem wfe_goes_on (h : Issues s t (encR 0x20 gd.val gm.val 0 0x001))
    (hhit : (ready s t).events &&& ((ready s t).g gm).setWidth 32 ≠ 0) : Leaves (.wfe t gd gm) s (fun u => Retires s u t
      (withResult { ready s t with events := (ready s t).events &&& ~~~((ready s t).g gm).setWidth 32 } gd.val 1
        (((ready s t).events &&& ((ready s t).g gm).setWidth 32).setWidth 64) false false)) := by
  refine leafRun_retires h ?_ ?_ rfl rfl rfl rfl
  · rw [leafKnown_system gd.isLt gm.isLt (by decide) (by decide)]; rfl
  · simp only [if_pos hhit, withResult_eq_result, and_not_and_self]

theorem wfe_waits (h : Issues s t (encR 0x20 gd.val gm.val 0 0x001))
    (hhit : (ready s t).events &&& ((ready s t).g gm).setWidth 32 = 0) : Leaves (.wfe t gd gm) s (fun u => Holds s u t
      { ready s t with wait := .wfe gd.val (((ready s t).g gm).setWidth 32) }) := by
  refine leafRun_holds h ?_ ?_ rfl rfl rfl
  · rw [leafKnown_system gd.isLt gm.isLt (by decide) (by decide)]; rfl
  · simp only [if_neg (not_not_intro hhit), State.setThread_setThread]

theorem waitt_goes_on (h : Issues s t (encR 0x20 gd.val gt.val gm.val 0x002))
    (hhit : (ready s t).events &&& ((ready s t).g gm).setWidth 32 ≠ 0) : Leaves (.waitt t gd gt gm) s (fun u => Retires s u t
      (withResult { ready s t with timer := (ready s t).g gt, tctl := (ready s t).tctl &&& ~~~1,
                                   events := (ready s t).events &&& ~~~((ready s t).g gm).setWidth 32 } gd.val 1
        (((ready s t).events &&& ((ready s t).g gm).setWidth 32).setWidth 64) false false)) := by
  refine leafRun_retires h ?_ ?_ rfl rfl rfl rfl
  · rw [leafKnown_system gd.isLt gt.isLt gm.isLt (by decide)]; rfl
  · simp only [if_pos hhit, withResult_eq_result, and_not_and_self]

theorem waitt_is_over (h : Issues s t (encR 0x20 gd.val gt.val gm.val 0x002))
    (hhit : (ready s t).events &&& ((ready s t).g gm).setWidth 32 = 0) (htime : ((ready s t).g gt).toNat ≤ s.time.ns.toNat) :
    Leaves (.waitt t gd gt gm) s (fun u => Retires s u t
      (withResult { ready s t with timer := (ready s t).g gt, tctl := (ready s t).tctl &&& ~~~1 } gd.val 1 0 false false)) := by
  refine leafRun_retires h ?_ ?_ rfl rfl rfl rfl
  · rw [leafKnown_system gd.isLt gt.isLt gm.isLt (by decide)]; rfl
  · refine (if_neg (not_not_intro hhit)).trans ((if_pos htime).trans ?_)
    rw [withResult_eq_result]

theorem waitt_waits (h : Issues s t (encR 0x20 gd.val gt.val gm.val 0x002))
    (hhit : (ready s t).events &&& ((ready s t).g gm).setWidth 32 = 0) (htime : s.time.ns.toNat < ((ready s t).g gt).toNat) :
    Leaves (.waitt t gd gt gm) s (fun u => Holds s u t
      { ready s t with timer := (ready s t).g gt, tctl := (ready s t).tctl &&& ~~~1,
                       wait := .waitt gd.val (((ready s t).g gm).setWidth 32) ((ready s t).g gt) }) := by
  refine leafRun_holds h ?_ ?_ rfl rfl rfl
  · rw [leafKnown_system gd.isLt gt.isLt gm.isLt (by decide)]; rfl
  · refine (if_neg (not_not_intro hhit)).trans ((if_neg (not_le.2 htime)).trans ?_)
    rw [State.setThread_setThread]

theorem fence_goes_on (h : Issues s t (encR 0x20 0 0 0 0x005)) (hwrites : (ready s t).ops.any LeafOp.writes = false) :
    Leaves (.fence t) s (fun u => Retires s u t (ready s t)) := by
  refine leafRun_goes h ?_ ?_
  · rw [leafKnown_system (by decide) (by decide) (by decide) (by decide)]; rfl
  · rw [if_neg (by simp [hwrites])]

theorem fence_waits (h : Issues s t (encR 0x20 0 0 0 0x005)) (hwrites : (ready s t).ops.any LeafOp.writes = true) :
    Leaves (.fence t) s (fun u => Holds s u t { ready s t with wait := .fence }) := by
  refine leafRun_holds h ?_ ?_ rfl rfl rfl
  · rw [leafKnown_system (by decide) (by decide) (by decide) (by decide)]; rfl
  · rw [if_pos hwrites, State.setThread_setThread]

/-- Who may post where (R176, R193). -/
theorem mayNotPost_iff (n : BitVec 5) (sup : Bool) (task : Option Nat) : (if n.toNat = 2 then !sup else sup || task.isNone) = true ↔
    if n = 2 then sup = false else sup = true ∨ task = none := by
  have htwo : n.toNat = 2 ↔ n = 2 := BitVec.toNat_inj (y := (2 : BitVec 5))
  by_cases hn : n = 2 <;> simp [htwo, hn]

theorem mayPost_iff (n : BitVec 5) (sup : Bool) (task : Option Nat) : (if n.toNat = 2 then !sup else sup || task.isNone) = false ↔
    if n = 2 then sup = true else sup = false ∧ task.isSome = true := by
  have htwo : n.toNat = 2 ↔ n = 2 := BitVec.toNat_inj (y := (2 : BitVec 5))
  by_cases hn : n = 2 <;> simp [htwo, hn, Option.isSome_iff_ne_none]

section
variable {n : BitVec 5} (hn : n.toNat < 3) (h : Issues s t (encR 0x20 0 0 n.toNat 0x00B))
include hn

theorem leafKnown_chpost : leafKnown (encR 0x20 0 0 n.toNat 0x00B) = true := by
  rw [leafKnown_system (by decide) (by decide) n.isLt (by decide)]
  simp [systemKnown, hn]

include h

theorem chpost_waits (hdom : (if n.toNat = 2 then !s.isSup t else s.isSup t || (ready s t).task.isNone) = false)
    (hroom : (ready s t).postCounts n.toNat = true → (ready s t).outstanding < 16) :
    Leaves (.chpost t n) s (fun u => Holds s u t { ready s t with wait := .post n.toNat }) := by
  refine leafRun_holds h (leafKnown_chpost hn) ?_ rfl rfl rfl
  have hfree : ((ready s t).postCounts n.toNat && decide (16 ≤ (ready s t).outstanding)) = false := by
    cases hcounts : (ready s t).postCounts n.toNat
    · rfl
    · simpa using hroom hcounts
  simp [not_le.2 hn, hdom, hfree, State.setThread_setThread]

theorem chpost_faults (hdom : (if n.toNat = 2 then !s.isSup t else s.isSup t || (ready s t).task.isNone) = true) :
    Leaves (.chpost t n) s (fun u => Faults s u t fDOMAIN (encR 0x20 0 0 n.toNat 0x00B) 0 ∧ NoEffect s u t) := by
  refine leafRun_faults h (leafKnown_chpost hn) (by decide) ?_
  simp [not_le.2 hn, hdom]

end

theorem bkpt_goes_on (h : Issues s t (encR 0x20 0 0 0 0x00C)) (hdebug : s.threadDebug = false) :
    Leaves (.bkpt t) s (fun u => Retires s u t (ready s t)) := by
  refine leafRun_goes h ?_ ?_
  · rw [leafKnown_system (by decide) (by decide) (by decide) (by decide)]; rfl
  · exact if_neg (Bool.eq_false_iff.1 hdebug)

theorem bkpt_halts (h : Issues s t (encR 0x20 0 0 0 0x00C)) (hdebug : s.threadDebug = true) :
    Leaves (.bkpt t) s (fun u => OnlyThread s u t ∧ (u.thread t).halted = true ∧ (u.thread t).forced = false ∧
      (u.thread t).pc = (ready s t).pc ∧ (u.thread t).regs = (ready s t).regs) := by
  obtain ⟨u, hexec, honly, hthread⟩ := leafRun_hold h (th' := { ready s t with
      halted := true, haltReq := false, haltForced := false, forced := false, wait := .none, stalled := false, step := false, micro := false })
    (body := fun s th => if s.threadDebug then .hold (s.haltThread t th false) else .next s)
    (by rw [leafKnown_system (by decide) (by decide) (by decide) (by decide)]; rfl)
    ((if_pos hdebug).trans (congrArg LeafAct.hold (State.setThread_setThread _ _ _ _)))
  rw [counted_of_not_step (by rfl)] at hthread
  refine ⟨u, hexec, honly, ?_⟩
  rw [hthread]
  exact ⟨rfl, rfl, rfl, rfl⟩

theorem eret_returns (h : Issues s t (encR 0x20 0 0 0 0x006)) (hhandler : (ready s t).handler = true) :
    Leaves (.eret t) s (fun u => OnlyThread s u t ∧ (u.thread t).pc = (ready s t).epc ∧ (u.thread t).handler = false ∧
      (u.thread t).regs = (ready s t).regs ∧ (u.thread t).pend = (ready s t).pend) := by
  obtain ⟨u, hexec, honly, hthread⟩ := leafRun_jump h (th' := { ready s t with handler := false }) (target := (ready s t).epc)
    (body := fun s th => if !th.handler then .fault s fUNDEF 0 else .jump (s.setThread t { th with handler := false }) th.epc)
    (by rw [leafKnown_system (by decide) (by decide) (by decide) (by decide)]; rfl)
    (by rw [if_neg (by simp [hhandler]), State.setThread_setThread])
  rw [counted_eq] at hthread
  refine ⟨u, hexec, honly, ?_⟩
  rw [hthread]
  exact ⟨rfl, rfl, rfl, rfl⟩

theorem eret_faults (h : Issues s t (encR 0x20 0 0 0 0x006)) (hhandler : (ready s t).handler = false) :
    Leaves (.eret t) s (fun u => Faults s u t fUNDEF (encR 0x20 0 0 0 0x006) 0 ∧ NoEffect s u t) := by
  refine leafRun_faults h ?_ (by decide) ?_
  · rw [leafKnown_system (by decide) (by decide) (by decide) (by decide)]; rfl
  · exact if_pos (by simpa using hhandler)

/-! ### TAKE (R150 to R154, R183) -/

theorem leafKnown_take : leafKnown (encR 0x20 gd.val 0 0 0x004) = true := by
  rw [leafKnown_system gd.isLt (by decide) (by decide) (by decide)]; rfl

theorem take_faults (h : Issues s t (encR 0x20 gd.val 0 0 0x004)) (hdom : s.isSup t = true ∨ (ready s t).task.isSome = true) :
    Leaves (.take t gd) s (fun u => Faults s u t fDOMAIN (encR 0x20 gd.val 0 0 0x004) 0 ∧ NoEffect s u t) :=
  leafRun_faults h leafKnown_take (by decide) (if_pos (Bool.or_eq_true_iff.2 hdom))

/-- The body of TAKE. -/
def execTakeBody (t : Tid) (gd : Reg) (s : State) (th : Thread) : LeafAct :=
  if s.isSup t || th.task.isSome then .fault s fDOMAIN 0
  else
    let r := s.takeTask t s.kettle.tasks.length
    if r.1 then .next (r.2.modThread t (fun th => th.result gd 1 1)) else .hold (r.2.modThread t (fun th => { th with wait := .take gd }))

/-- The body of TAKE, for a thread of a worker that holds no task. -/
theorem take_body (hsup : s.isSup t = false) (htask : (ready s t).task = none) (v : State) (hv : v.isSup t = s.isSup t) {α : Type} (a b : α) :
    (if (v.isSup t || (ready s t).task.isSome) = true then a else b) = b := if_neg (by simp [hv, hsup, htask])

theorem take_waits (h : Issues s t (encR 0x20 gd.val 0 0 0x004)) (hsup : s.isSup t = false) (htask : (ready s t).task = none)
    (hready : s.readyTask (tidLeaf t) = none) : Leaves (.take t gd) s (fun u => Holds s u t { ready s t with wait := .take gd.val }) := by
  obtain ⟨u, hexec, hholds⟩ := leafRun_holds h leafKnown_take
    (th' := { (ready s t).noted s.time.cycles (s.isSup t) with wait := .take gd.val })
    (body := execTakeBody t gd) (by
      have hnone := State.takeTask_none (s := s.setThread t (ready s t)) (t := t) s.kettle.tasks.length hready
      refine (take_body hsup htask _ (State.isSup_setThread _ _ _ _) _ _).trans ?_
      simp only [State.kettle_setThread, hnone, Bool.false_eq_true, if_false, State.modThread, State.thread_setThread_self, State.setThread_setThread])
    rfl rfl rfl
  exact ⟨u, hexec, hholds⟩

theorem course_fields {z th : Thread} (h : z.course = th.course) : z.regs = th.regs ∧ z.pend = th.pend ∧ z.issued = th.issued ∧ z.pc = th.pc ∧
    z.inDelay = th.inDelay ∧ z.after = th.after := by
  simpa [Thread.course] using h

theorem nextPc_of_course {z th : Thread} (h : z.course = th.course) : nextPc z = nextPc th := by
  obtain ⟨-, -, -, hpc, hdelay, hafter⟩ := course_fields h
  rw [nextPc, hpc, hdelay, hafter, nextPc]

/-- A thread of the course of `th` that goes on with a result. -/
theorem goOn_of_course {z th : Thread} (h : z.course = th.course) (gd d : Nat) (v : Word64) (now : Nat) (sup : Bool) :
    let r := ((z.result gd d v).noted now sup).goOn.counted
    r.regs = th.regs ∧ r.pend = (withResult th gd d v false false).pend ∧ r.pc = nextPc th ∧ r.task = z.task ∧ r.mem = z.mem := by
  intro r
  obtain ⟨hregs, hpend, hissued, hpc, hdelay, hafter⟩ := course_fields h
  have hr : r = ((z.result gd d v).noted now sup).goOn.counted := rfl
  rw [withResult_eq_result]
  rw [counted_eq] at hr
  rw [hr, nextPc, ← hregs, ← hpc, ← hdelay, ← hafter]
  unfold Thread.result
  by_cases hgd : gd = 0
  · simp [hgd, hpend, Thread.goOn, Thread.noted]
  · simp [hgd, hpend, hissued, Thread.goOn, Thread.noted]

/-- An instruction with a result, of a thread that held no task as it began. -/
theorem settle_free {g : State} {t : Nat} {th : Thread} (h : (g.thread t).course = th.course) (gd d : Nat) (v : Word64) (w : Word32) :
    let u := settleAct t w none (.next (g.modThread t (fun x => x.result gd d v)))
    ((u.thread t).regs = th.regs ∧ (u.thread t).pend = (withResult th gd d v false false).pend ∧ (u.thread t).pc = nextPc th ∧
      (u.thread t).task = (g.thread t).task ∧ (u.thread t).mem = (g.thread t).mem) ∧ ∀ k, u.task k = g.task k := by
  intro u
  let m := g.modThread t (fun x => x.result gd d v)
  obtain ⟨-, hthread, htask, -⟩ := State.endEpisode_frame (m.modThread t (fun th => th.goOn.counted)) t
  have hself : u.thread t = ((((g.thread t).result gd d v).noted g.time.cycles (g.isSup t)).goOn.counted).noted m.time.cycles (m.isSup t) := by
    refine (hthread t).trans ?_
    simp only [m, State.modThread, State.thread_setThread_self]
  refine ⟨?_, fun k => htask k⟩
  rw [hself]
  exact goOn_of_course h gd d v _ _

theorem take_gives (h : Issues s t (encR 0x20 gd.val 0 0 0x004)) (hsup : s.isSup t = false) (htask : (ready s t).task = none) {k : Nat} {x : Task}
    (hready : s.readyTask (tidLeaf t) = some (k, x)) (hcopy : x.child = true ∨ (s.readPacket x.pid 0 2).1 = false) :
    Leaves (.take t gd) s (fun u => (u.thread t).task = some k ∧ (∃ y, u.task k = some y ∧ y.taken = some t.val) ∧
      (u.thread t).mem = Memory.writeBytes [] 0 (s.headerWindow (s.withHeader x)) ∧ (u.thread t).regs = (ready s t).regs ∧
      (u.thread t).pend = (withResult (ready s t) gd.val 1 1 false false).pend ∧ (u.thread t).pc = nextPc (ready s t)) := by
  let b := s.setThread t (ready s t)
  have hread := s.readPacket_withThreads b.threads x.pid 0 2
  have hheader : b.withHeader x = s.withHeader x := s.withHeader_withThreads b.threads x
  obtain ⟨n, hn⟩ := State.tasks_ne_nil_of_readyTask hready
  obtain ⟨v, hv, hgiven⟩ := State.takeTask_gives (s := b) (t := t) (n := n) hready (hcopy.imp_right (fun hx => (congrArg Prod.fst hread).trans hx))
  have hbody : execTakeBody t gd b (ready s t) =
      .next ((v.giveTask t k (s.withHeader x)).modThread t (fun th => th.result gd 1 1)) := by
    refine (take_body hsup htask b (State.isSup_setThread _ _ _ _) _ _).trans ?_
    rw [State.kettle_setThread, hn, hgiven, hheader]
    rfl
  have hrun := State.leafRun_issues h leafKnown_take (body := execTakeBody t gd) (by rw [hbody]; intros; simp)
  rw [hbody, htask] at hrun
  refine ⟨_, hrun, ?_⟩
  have hthread : v.thread t = (ready s t).noted s.time.cycles (s.isSup t) :=
    (State.thread_of_threads (State.threads_of_beyondCells hv) t).trans (State.thread_setThread_self _ _ _)
  obtain ⟨htaken, hmem, hcourse⟩ := v.thread_giveTask_self t k (s.withHeader x)
  rw [State.headerWindow_of_packets ((State.packets_of_beyondCells hv).trans rfl)] at hmem
  have hsame : _ = (ready s t).course := hcourse.trans ((congrArg Thread.course hthread).trans rfl)
  obtain ⟨⟨hregs, hpend, hpc, hkept, hmemkept⟩, htasks⟩ := settle_free hsame gd 1 1 (encR 0x20 gd.val 0 0 0x004)
  exact ⟨hkept.trans htaken, ⟨_, (htasks k).trans (v.task_giveTask_self t k _), rfl⟩, hmemkept.trans hmem, hregs, hpend, hpc⟩

end

/-- Settles O12: each wait and return by what its slot leaves. -/
theorem waitsAndReturnsBegin : Obligations.WaitsAndReturnsBegin := by
  unfold Obligations.WaitsAndReturnsBegin
  intro s t gd gt gm n th m hit
  refine ⟨fun h => ⟨wfe_goes_on h, wfe_waits h⟩, fun h => ⟨waitt_goes_on h, waitt_is_over h, waitt_waits h⟩,
    fun h => ⟨fence_goes_on h, fence_waits h⟩, fun h hsup htask => ⟨take_waits h hsup htask, fun k x => take_gives h hsup htask⟩,
    take_faults, fun h hn => ⟨fun hdom hroom => chpost_waits hn h ((mayPost_iff n _ _).2 hdom) hroom, fun hdom => chpost_faults hn h ((mayNotPost_iff n _ _).2 hdom)⟩,
    fun h => ⟨bkpt_goes_on h, bkpt_halts h⟩, fun h => ⟨eret_returns h, eret_faults h⟩⟩

end Sys2Proof.Safety
end

section
/-! Waits end and events arrive (06, R154; 07, R180 to R185). -/

namespace Sys2Proof.Safety

open Sys2Proof.Machine

/-! ### A wait that has ended -/

/-- What a thread of a wait that has ended is, once control has gone on. -/
theorem goOn_waitResult (z : Thread) (gd : Nat) (v : Word64) (now : Nat) (sup : Bool) :
    let r := ((z.waitResult gd v).goOn.stepped).noted now sup
    r.wait = z.wait ∧ r.events = z.events ∧ r.pend = z.pend ++ (if gd = 0 then [] else [⟨z.issued - 1, z.issued, gd, v⟩]) ∧
      r.pc = nextPc z ∧ r.regs = z.regs ∧ r.task = z.task ∧ r.mem = z.mem := by
  intro r
  have hr : r = ((z.waitResult gd v).goOn.stepped).noted now sup := rfl
  rw [stepped_eq] at hr
  rw [hr]
  unfold Thread.waitResult
  by_cases hgd : gd = 0
  · rw [if_pos hgd, if_pos hgd, List.append_nil]
    exact ⟨rfl, rfl, rfl, rfl, rfl, rfl, rfl⟩
  · rw [if_neg hgd, if_neg hgd]
    exact ⟨rfl, rfl, rfl, rfl, rfl, rfl, rfl⟩

section
variable (s : State) (t gd : Nat) (v : Word64) (f : Thread → Thread)

theorem thread_endWait_self : (s.endWait t gd v f).thread t =
    (((f { s.thread t with wait := .none }).waitResult gd v).goOn.stepped).noted s.time.cycles (s.isSup t) := State.thread_setThread_self _ _ _

theorem thread_endWait_of_ne {x : Nat} (h : x ≠ t) : (s.endWait t gd v f).thread x = s.thread x := State.thread_setThread_of_ne _ _ h

end

section
variable {s : State} {t : Tid}

theorem wfeWake_ends {gd : Nat} {m : Word32} (hwait : (s.thread t).wait.masked = some (gd, m)) (hhit : (s.thread t).events &&& m ≠ 0)
    (hwake : s.mayWake t = true) : Leaves (.wfeWake t) s (fun u => (u.thread t).wait = .none ∧ (u.thread t).events = (s.thread t).events &&& ~~~m ∧
      (u.thread t).pend = (s.thread t).pend ++
        (if gd = 0 then [] else [⟨(s.thread t).issued - 1, (s.thread t).issued, gd, ((s.thread t).events &&& m).setWidth 64⟩]) ∧
      (u.thread t).pc = nextPc (s.thread t) ∧ (u.thread t).regs = (s.thread t).regs ∧ ∀ x, x ≠ t.val → u.thread x = s.thread x) := by
  have hexec : exec (.wfeWake t) s = .next (s.endWait t gd (((s.thread t).events &&& m).setWidth 64)
      (fun th => { th with events := th.events &&& ~~~((s.thread t).events &&& m) })) := by
    show execWfeWake t s = _
    simp only [execWfeWake, State.wakeByEvent, hwait]
    rw [if_neg (not_or.2 ⟨hhit, by simp [hwake]⟩)]
  obtain ⟨hnone, hevents, hpend, hpc, hregs, -, -⟩ := goOn_waitResult
    { s.thread t with wait := .none, events := (s.thread t).events &&& ~~~((s.thread t).events &&& m) } gd
    (((s.thread t).events &&& m).setWidth 64) s.time.cycles (s.isSup t)
  refine ⟨_, hexec, ?_⟩
  beta_reduce
  rw [thread_endWait_self]
  exact ⟨hnone, hevents.trans (and_not_and_self _ _), hpend, hpc, hregs, fun x hx => thread_endWait_of_ne _ _ _ _ _ hx⟩

theorem waittTimeout_ends {gd : Nat} {m : Word32} {till : Word64} (hwait : (s.thread t).wait = .waitt gd m till) (hwake : s.mayWake t = true)
    (htime : till.toNat ≤ s.time.ns.toNat) : Leaves (.waittTimeout t) s (fun u => (u.thread t).wait = .none ∧
      (u.thread t).events = (s.thread t).events ∧
      (u.thread t).pend = (s.thread t).pend ++ (if gd = 0 then [] else [⟨(s.thread t).issued - 1, (s.thread t).issued, gd, 0⟩]) ∧
      (u.thread t).pc = nextPc (s.thread t) ∧ ∀ x, x ≠ t.val → u.thread x = s.thread x) := by
  have hexec : exec (.waittTimeout t) s = .next (s.endWait t gd 0 id) := by
    show execWaittTimeout t s = _
    simp only [execWaittTimeout, hwait]
    rw [if_pos ⟨hwake, htime⟩]
  obtain ⟨hnone, hevents, hpend, hpc, -, -, -⟩ := goOn_waitResult { s.thread t with wait := .none } gd 0 s.time.cycles (s.isSup t)
  refine ⟨_, hexec, ?_⟩
  beta_reduce
  rw [thread_endWait_self]
  exact ⟨hnone, hevents, hpend, hpc, fun x hx => thread_endWait_of_ne _ _ _ _ _ hx⟩

theorem takeWake_ends {gd k : Nat} {y : Task} (hwait : (s.thread t).wait = .take gd) (hwake : s.mayWake t = true)
    (hready : s.readyTask (tidLeaf t) = some (k, y)) (hcopy : y.child = true ∨ (s.readPacket y.pid 0 2).1 = false) :
    Leaves (.takeWake t) s (fun u => (u.thread t).wait = .none ∧ (u.thread t).task = some k ∧
      (u.thread t).mem = Memory.writeBytes [] 0 (s.headerWindow (s.withHeader y)) ∧ (u.thread t).pc = nextPc (s.thread t)) := by
  obtain ⟨n, hn⟩ := State.tasks_ne_nil_of_readyTask hready
  obtain ⟨v, hv, hgiven⟩ := State.takeTask_gives (t := t) (n := n) hready hcopy
  have hexec : exec (.takeWake t) s = .next ((v.giveTask t k (s.withHeader y)).endWait t gd 1 id) := by
    show execTakeWake t s = _
    simp [execTakeWake, hwait, hwake, hn, hgiven]
  obtain ⟨htaken, hmem, hcourse⟩ := v.thread_giveTask_self t k (s.withHeader y)
  rw [State.headerWindow_of_packets (State.packets_of_beyondCells hv)] at hmem
  rw [State.thread_of_threads (State.threads_of_beyondCells hv)] at hcourse
  generalize v.giveTask t k (s.withHeader y) = g at hexec htaken hmem hcourse
  obtain ⟨hnone, -, -, hnext, -, htask, hkept⟩ := goOn_waitResult { g.thread t with wait := .none } gd 1 g.time.cycles (g.isSup t)
  refine ⟨_, hexec, ?_⟩
  beta_reduce
  rw [thread_endWait_self]
  exact ⟨hnone, htask.trans htaken, hkept.trans hmem, hnext.trans (nextPc_of_course hcourse)⟩

/-! ### SEV (R184, R185) -/

theorem heldTask_of_task {u : State} {x : Nat} (hthread : (u.thread x).task = (s.thread x).task) (hkettle : u.kettle = s.kettle) :
    u.heldTask x = s.heldTask x := by
  simp only [State.heldTask, hthread, State.task_of_kettle hkettle]

/-- A SEV that has left its thread. -/
theorem sevAllowed_modThread (rest : List Nat) (x : Nat) :
    (s.modThread t (fun th => { th with sevs := rest })).sevAllowed t x = s.sevAllowed t x := by
  have hheld (y : Nat) : (s.modThread t (fun th => { th with sevs := rest })).heldTask y = s.heldTask y := by
    refine heldTask_of_task ?_ rfl
    by_cases hy : y = t
    · rw [hy, State.modThread, State.thread_setThread_self]; rfl
    · rw [State.modThread, State.thread_setThread_of_ne _ _ hy]
  simp only [State.sevAllowed, hheld]
  rfl

theorem sevDelivery_sets {v : Nat} {rest : List Nat} {x : Nat} (hsevs : (s.thread t).sevs = v :: rest) (htarget : s.sevTarget v = some x)
    (hallowed : s.sevAllowed t x = true) : Leaves (.sevDelivery t) s (fun u => (u.thread t).sevs = rest ∧
      (∀ b, (u.thread x).events.getLsbD b = ((s.thread x).events.getLsbD b || b == v % 32)) ∧
      ∀ y, y ≠ t.val → y ≠ x → u.thread y = s.thread y) := by
  let s1 := s.modThread t (fun th => { th with sevs := rest })
  have hexec : exec (.sevDelivery t) s = .next (s1.modThread x (fun th => th.setEv (v % 32))) := by
    show execSevDelivery t s = _
    simp only [execSevDelivery, hsevs, show s1.sevTarget v = some x from htarget, sevAllowed_modThread, hallowed, s1]
    rfl
  have hleft : s1.thread t = ({ s.thread t with sevs := rest } : Thread).noted s.time.cycles (s.isSup t) := State.thread_setThread_self _ _ _
  have hevents : (s1.thread x).events = (s.thread x).events := by
    by_cases hx : x = t
    · rw [hx, hleft]; rfl
    · rw [show s1.thread x = s.thread x from State.thread_setThread_of_ne _ _ hx]
  refine ⟨_, hexec, ?_, fun b => ?_, fun y ht hx => ?_⟩
  · by_cases hx : t = x
    · rw [State.modThread, ← hx, State.thread_setThread_self, hleft]; rfl
    · rw [State.modThread, State.thread_setThread_of_ne _ _ hx, hleft]; rfl
  · rw [State.modThread, State.thread_setThread_self]
    refine (Thread.getLsbD_setEv (s1.thread x) (Nat.mod_lt v (by decide)) b).trans ?_
    rw [hevents]
    rfl
  · rw [State.modThread, State.thread_setThread_of_ne _ _ hx]
    exact State.thread_setThread_of_ne _ _ ht

theorem sevDelivery_discards {v : Nat} {rest : List Nat} (hsevs : (s.thread t).sevs = v :: rest)
    (hnot : s.sevTarget v = none ∨ ∃ x, s.sevTarget v = some x ∧ s.sevAllowed t x = false) :
    Leaves (.sevDelivery t) s (fun u => (u.thread t).sevs = rest ∧ (u.thread t).events = (s.thread t).events ∧
      (u.reg (quireWin (tidQuire t)) 0x104).toNat = min 0xFFFFFFFF ((s.reg (quireWin (tidQuire t)) 0x104).toNat + 1) ∧
      ∀ y, y ≠ t.val → u.thread y = s.thread y) := by
  let s1 := s.modThread t (fun th => { th with sevs := rest })
  have hexec : exec (.sevDelivery t) s = .next (s1.count (quireWin (tidQuire t)) 0x104) := by
    show execSevDelivery t s = _
    rcases hnot with hnone | ⟨x, hsome, hbarred⟩
    · simp only [execSevDelivery, hsevs, show s1.sevTarget v = none from hnone, s1]
    · simp only [execSevDelivery, hsevs, show s1.sevTarget v = some x from hsome, sevAllowed_modThread, hbarred, s1]
      rfl
  have hleft : s1.thread t = ({ s.thread t with sevs := rest } : Thread).noted s.time.cycles (s.isSup t) := State.thread_setThread_self _ _ _
  have hthreads (y : Nat) : (s1.count (quireWin (tidQuire t)) 0x104).thread y = s1.thread y := rfl
  refine ⟨_, hexec, ?_, ?_, State.toNat_reg_countBy s1 _ _ 1, fun y hy => State.thread_setThread_of_ne _ _ hy⟩
  · rw [hthreads, hleft]; rfl
  · rw [hthreads, hleft]; rfl

end

/-- Settles O14: each end of a wait and each delivery by what its command leaves. -/
theorem waitsEndAndEventsArrive : Obligations.WaitsEndAndEventsArrive := by
  unfold Obligations.WaitsEndAndEventsArrive
  intro s t th
  exact ⟨fun gd m => wfeWake_ends, fun gd m till => waittTimeout_ends, fun gd k y => takeWake_ends, fun v rest x => sevDelivery_sets,
    fun v rest => sevDelivery_discards⟩

end Sys2Proof.Safety
end

section
/-! Quiet deadlock is detected and escalates (07, R201 to R203). -/

namespace Sys2Proof.Safety

open Sys2Proof.Machine

section
variable {s : State} {q : Fin 24} {since : Nat}

theorem supOf_setQuire {x : QuireSt} (hsup : x.sup = (s.quire q).sup) : (s.setQuire q x).supOf q = s.supOf q := by
  rw [State.supOf, State.quire_setQuire_self, hsup, State.supOf]

/-- A detection: the spell is noted, the episode begins or goes on, and quiet_deadlock and the detections stand before the entry (R202, R203). -/
theorem quietDeadlock_detects (hquiet : s.allQuiet q = some since) (hlong : since + 128 ≤ s.time.cycles)
    (hnew : (s.quire q).deadSeen ≠ some since) : Leaves (.quietDeadlock q) s (fun u => (u.quire q).deadSeen = some since ∧
      (u.quire q).episode = (match (s.quire q).episode with | some e => some e | none => some (s.time.cycles, false)) ∧
      (u.reg (quireWin q) 0x1910).getLsbD 1 = true ∧ u.rf (quireWin q) 0x1920 15 0 = min 0xFFFF (s.rf (quireWin q) 0x1920 15 0 + 1) ∧
      (u.thread (s.supOf q)).nmi = true ∧ ∀ y, y ≠ s.supOf q → u.thread y = s.thread y) := by
  let x : QuireSt := { s.quire q with deadSeen := some since, episode := (s.quire q).episode <|> some (s.time.cycles, false) }
  let found := (s.setQuire q x).setEvent (quireWin q) 0x1910 1
  let v := found.setRf (quireWin q) 0x1920 15 0 (min 0xFFFF (s.rf (quireWin q) 0x1920 15 0 + 1))
  have hexec : exec (.quietDeadlock q) s = .next (v.raiseNmi q) := by
    show execQuietDeadlock q s = _
    simp only [execQuietDeadlock, hquiet]
    exact if_pos ⟨hlong, hnew⟩
  have hsup : v.supOf q = s.supOf q := supOf_setQuire (x := x) rfl
  have hquire : (v.raiseNmi q).quire q = x := State.quire_setQuire_self _ _ _
  have hregs : (v.raiseNmi q).regs = v.regs := rfl
  refine ⟨_, hexec, by rw [hquire], ?_, ?_, ?_, ?_, fun y hy => ?_⟩
  · rw [hquire]
    show ((s.quire q).episode <|> some (s.time.cycles, false)) = _
    cases (s.quire q).episode <;> rfl
  · rw [State.reg_of_regs hregs, show v.reg (quireWin q) 0x1910 = found.reg (quireWin q) 0x1910 from State.reg_setReg_of_off_ne _ _ _ (by decide)]
    exact State.getLsbD_setEvent_self _ _ _ (by decide)
  · rw [State.rf, State.reg_of_regs hregs]
    exact (State.rf_setRf_self _ _ _ _ (by decide) (by decide)).trans (Nat.mod_eq_of_lt (by omega))
  · rw [State.raiseNmi, hsup, State.modThread, State.thread_setThread_self]; rfl
  · rw [State.raiseNmi, hsup, State.modThread, State.thread_setThread_of_ne _ _ hy]; rfl

theorem deadlockEscalation_escalates (hepisode : (s.quire q).episode = some (since, false)) (hlimit : (s.reg (quireWin q) 0x191C).toNat ≠ 0)
    (hlong : since + 1000 * (s.reg (quireWin q) 0x191C).toNat < s.time.cycles) : Leaves (.deadlockEscalation q) s (fun u =>
      (u.quire q).episode = some (since, true) ∧ (u.reg (quireWin q) 0x100).getLsbD 0 = true ∧ u.threads = s.threads) := by
  have hexec : exec (.deadlockEscalation q) s =
      .next ((s.setQuire q { s.quire q with episode := some (since, true) }).setEvent (quireWin q) 0x100 0) := by
    show execDeadlockEscalation q s = _
    simp only [execDeadlockEscalation, hepisode]
    exact if_pos ⟨hlimit, hlong⟩
  refine ⟨_, hexec, ?_, State.getLsbD_setEvent_self _ _ _ (by decide), rfl⟩
  exact congrArg QuireSt.episode (State.quire_setQuire_self s q { s.quire q with episode := some (since, true) })

end

/-- Settles O18: the detection and the escalation by what each leaves. -/
theorem quietDeadlockIsDetectedAndEscalates : Obligations.QuietDeadlockIsDetectedAndEscalates := by
  unfold Obligations.QuietDeadlockIsDetectedAndEscalates
  intro s q w x
  exact ⟨fun since => quietDeadlock_detects, fun since => deadlockEscalation_escalates⟩

end Sys2Proof.Safety
end

section
/-! What a thread that stops or is reset leaves of its Quire: the roles of threads, the Quires' own registers, and the faults of other threads
(06, R166; 07, R197, R198, R205, R210). -/

namespace Sys2Proof.Machine

/-- A thread at its role's entry (R175). -/
def Thread.atEntry (th : Thread) (sup : Bool) (e : Nat × Nat × Nat × Nat) (halted : Bool) (since : Nat) : Thread :=
  { th.kept with started := true, pc := programAddr (if sup then e.1 else e.2.2.1), evec := programAddr (if sup then e.2.1 else e.2.2.2), halted := halted,
                 notBefore := since }

namespace State

/-! ### The view -/

/-- The registers from offset 0x200 up of the windows below Kettle's, 411: those of the Quires and Leaves among them. -/
def quireRegs (s : State) (x : Fin 411 × Fin 0xFE00) : Word32 := s.reg x.1 (0x200 + x.2)

/-- What the loss of a task leaves alone: what roles come from, the Quires' registers, and each thread's fault. -/
def upkeep (s : State) : (TimeSt × (Nat → Nat × Option (Nat × Nat × Nat × Nat))) × (Fin 411 × Fin 0xFE00 → Word32) × (Nat → Option FaultInfo) :=
  (s.roles, s.quireRegs, fun y => (s.thread y).fault)

section
variable {s u : State}

theorem reg_of_upkeep (h : u.upkeep = s.upkeep) {w off : Nat} (hw : w < 411) (hlow : 0x200 ≤ off) (hhigh : off < 0x10000) : u.reg w off = s.reg w off := by
  have hreg := congrFun (congrArg (fun v => v.2.1) h) (⟨w, hw⟩, ⟨off - 0x200, by omega⟩)
  simp only [upkeep, quireRegs] at hreg
  rwa [Nat.add_sub_cancel' hlow] at hreg

theorem roles_of_upkeep (h : u.upkeep = s.upkeep) : u.roles = s.roles := congrArg Prod.fst h

theorem fault_of_upkeep (h : u.upkeep = s.upkeep) (y : Nat) : (u.thread y).fault = (s.thread y).fault := congrFun (congrArg (fun v => v.2.2) h) y

section
variable (h : u.roles = s.roles)
include h

theorem time_of_roles : u.time = s.time := congrArg Prod.fst h
theorem sup_of_roles (q : Nat) : (u.quire q).sup = (s.quire q).sup := congrArg Prod.fst (congrFun (congrArg Prod.snd h) q)
theorem entries_of_roles (q : Nat) : (u.quire q).entries = (s.quire q).entries := congrArg Prod.snd (congrFun (congrArg Prod.snd h) q)
theorem isSup_of_roles (t : Nat) : u.isSup t = s.isSup t := by rw [State.isSup, sup_of_roles h, State.isSup]
theorem supOf_of_roles (q : Nat) : u.supOf q = s.supOf q := by rw [State.supOf, sup_of_roles h, State.supOf]

end

theorem upkeep_of_beyondRefs (h : u.beyondRefs = s.beyondRefs) (hregs : u.lowRegs = s.lowRegs) : u.upkeep = s.upkeep := by
  have htime : u.time = s.time := show u.beyondRefs.time = s.beyondRefs.time from congrArg State.time h
  have hquires : u.quires = s.quires := show u.beyondRefs.quires = s.beyondRefs.quires from congrArg State.quires h
  refine Prod.ext (roles_of_quires htime hquires) (Prod.ext (funext fun x => ?_) (funext fun y => ?_))
  · exact reg_of_lowRegs hregs (by omega) (by omega) (by omega)
  · exact congrArg Thread.fault (thread_of_threads (threads_of_beyondRefs h) y)

end

/-! ### What it stays under -/

section
variable (s : State)

@[simp] theorem upkeep_releaseRef (pid : Nat) : (s.releaseRef pid).upkeep = s.upkeep :=
  upkeep_of_beyondRefs (s.beyondRefs_releaseRef pid) (s.lowRegs_releaseRef pid)

@[simp] theorem upkeep_modKettle (f : KettleSt → KettleSt) : (s.modKettle f).upkeep = s.upkeep := rfl
@[simp] theorem upkeep_setTaskCountOf (t n : Nat) : (s.setTaskCountOf t n).upkeep = s.upkeep := rfl
@[simp] theorem upkeep_setPosition (k : Nat) (p : Position) : (s.setPosition k p).upkeep = s.upkeep := rfl
@[simp] theorem upkeep_report (tenant : Nat) (ts : Word64) (adds : List (Nat × Nat)) : (s.report tenant ts adds).upkeep = s.upkeep := rfl

@[simp] theorem upkeep_setReg_kettle (off : Nat) (v : Word32) : (s.setReg kettleWin off v).upkeep = s.upkeep := by
  refine Prod.ext rfl (Prod.ext (funext fun x => SMap.get_set_of_ne _ _ _ ?_) rfl)
  have hwin : kettleWin = 411 := rfl
  omega

@[simp] theorem upkeep_count_kettle (off : Nat) : (s.count kettleWin off).upkeep = s.upkeep := s.upkeep_setReg_kettle _ _
@[simp] theorem upkeep_setEvent_kettle (off b : Nat) : (s.setEvent kettleWin off b).upkeep = s.upkeep := s.upkeep_setReg_kettle _ _

theorem upkeep_modThread {f : Thread → Thread} (h : ∀ th, (f th).fault = th.fault) (t : Nat) : (s.modThread t f).upkeep = s.upkeep := by
  refine Prod.ext rfl (Prod.ext rfl (funext fun y => ?_))
  show ((s.modThread t f).thread y).fault = _
  rw [State.modThread]
  by_cases hy : y = t
  · rw [hy, thread_setThread_self]; exact h _
  · rw [thread_setThread_of_ne _ _ hy]; rfl

@[simp] theorem upkeep_ite (c : Prop) [Decidable c] (u : State) : (if c then s else u).upkeep = if c then s.upkeep else u.upkeep :=
  apply_ite State.upkeep c s u
@[simp] theorem roles_ite (c : Prop) [Decidable c] (u : State) : (if c then s else u).roles = if c then s.roles else u.roles :=
  apply_ite State.roles c s u

@[simp] theorem upkeep_foldl {α : Type} {f : State → α → State} (h : ∀ s a, (f s a).upkeep = s.upkeep) (l : List α) (s : State) :
    (l.foldl f s).upkeep = s.upkeep := foldl_keeps h l s
@[simp] theorem roles_foldl {α : Type} {f : State → α → State} (h : ∀ s a, (f s a).roles = s.roles) (l : List α) (s : State) :
    (l.foldl f s).roles = s.roles := foldl_keeps h l s

@[simp] theorem upkeep_cleanJoins : s.cleanJoins.upkeep = s.upkeep := by
  refine foldl_keeps (g := State.upkeep) (fun v e => ?_) _ _
  split
  · refine v.upkeep_modThread (fun _ => ?_) _
    rfl
  · rfl

@[simp] theorem upkeep_removeUntaken (k : Nat) (x : Task) : (s.removeUntaken k x).upkeep = s.upkeep := by simp [State.removeUntaken]

@[simp] theorem upkeep_dropPosition (k diag : Nat) : (s.dropPosition k diag).upkeep = s.upkeep := by
  fun_cases State.dropPosition s k diag <;> simp +zetaDelta

@[simp] theorem upkeep_endTask (k : Nat) : (s.endTask k).upkeep = s.upkeep := by
  fun_cases State.endTask s k <;> simp +zetaDelta

@[simp] theorem upkeep_loseTask (t diag : Nat) : (s.loseTask t diag).upkeep = s.upkeep := by
  unfold State.loseTask
  split
  · rfl
  · rw [upkeep_cleanJoins, upkeep_modThread (f := Thread.noTask) _ (fun _ => rfl), upkeep_endTask, State.dropPos, upkeep_cleanJoins,
      upkeep_dropPosition]

/-! ### Operations under way at a reset -/

@[simp] theorem roles_modWarren (f : WarrenSt → WarrenSt) : (s.modWarren f).roles = s.roles := rfl

@[simp] theorem roles_eccRead (w inst addr len : Nat) : (s.eccRead w inst addr len).2.roles = s.roles :=
  roles_of_beyondCells (s.beyondCells_eccRead w inst addr len)

@[simp] theorem roles_depart (w : Nat) : (s.depart w).roles = s.roles := by
  have h := s.beyondRefs_depart w
  have htime : (s.depart w).time = s.time := show (s.depart w).beyondRefs.time = s.beyondRefs.time from congrArg State.time h
  have hquires : (s.depart w).quires = s.quires := show (s.depart w).beyondRefs.quires = s.beyondRefs.quires from congrArg State.quires h
  exact roles_of_quires htime hquires

@[simp] theorem roles_sharedWrite (q a : Nat) (data : List Byte) : (s.sharedWrite q a data).roles = s.roles := by
  rw [State.sharedWrite, roles_eccWrite, roles_setQuire] <;> rfl

@[simp] theorem roles_sharedRead (q a n : Nat) : (s.sharedRead q a n).2.2.roles = s.roles := s.roles_eccRead _ _ _ _

@[simp] theorem roles_pageRead (q off : Nat) : (s.pageRead q off).2.roles = s.roles := by
  fun_cases State.pageRead s q off <;> rfl

@[simp] theorem roles_pageBytes (q off n : Nat) : (s.pageBytes q off n).2.roles = s.roles :=
  foldl_keeps (g := fun acc : List Byte × State => acc.2.roles) (fun acc _ => acc.2.roles_pageRead q _) _ _

@[simp] theorem roles_pageWriteQuiet (q off : Nat) (v : Word32) : (s.pageWriteQuiet q off v).roles = s.roles := by
  simp [State.pageWriteQuiet]

theorem roles_performShared {write : State → Nat → Nat → Word32 → State} (h : ∀ v q off x, (write v q off x).roles = v.roles) (t : Nat) (o : LeafOp) :
    (s.performShared write t o).2.2.roles = s.roles := by
  fun_cases State.performShared s write t o <;> simp +zetaDelta [h, apply_ite Prod.snd]

/-! ### A thread as it starts (R175) -/

theorem thread_startThread {t : Nat} {e : Nat × Nat × Nat × Nat} (hentries : (s.quire (tidQuire t)).entries = some e) (halted : Bool) (delay : Nat) :
    (s.startThread t halted delay).thread t =
      ((s.thread t).atEntry (s.isSup t) e halted (s.time.cycles + delay)).noted s.time.cycles (s.isSup t) := by
  have hroles := s.roles_cpReset t
  have hentry := (entries_of_roles hroles (tidQuire t)).trans hentries
  obtain ⟨se, sh, we, wh⟩ := e
  simp only [State.startThread, hentry, thread_setThread_self, isSup_of_roles hroles, time_of_roles hroles, Thread.atEntry]
  cases s.isSup t <;> rfl

/-- A thread reset, where its Quire's entries are known. -/
theorem thread_resetThread {t : Nat} {e : Nat × Nat × Nat × Nat} (hentries : (s.quire (tidQuire t)).entries = some e) (halted : Bool) (delay : Nat) :
    ∃ th : Thread, (s.resetThread t halted delay).thread t =
      (th.atEntry (s.isSup t) e halted (s.time.cycles + delay)).noted s.time.cycles (s.isSup t) := by
  let performed := ((s.thread t).ops.filter (fun o => o.writes && o.sp == 0)).foldl (fun (s : State) o => (s.performShared State.pageWriteQuiet t o).2.2) s
  let idled := performed.modWarren
    (fun w => { w with threads := w.threads.map (fun e => if e.1 = t then (t, e.2.map (fun j => { j with pid := some 0 })) else e) })
  let left := (idled.loseTask t 60).depart (tidWord t)
  have hperformed : performed.roles = s.roles := roles_foldl (fun v o => v.roles_performShared roles_pageWriteQuiet t o) _ _
  have hleft : left.roles = s.roles := (roles_depart _ _).trans ((roles_of_upkeep (upkeep_loseTask _ _ _)).trans hperformed)
  have hstart := left.thread_startThread ((entries_of_roles hleft (tidQuire t)).trans hentries) halted delay
  rw [isSup_of_roles hleft, time_of_roles hleft] at hstart
  refine ⟨left.thread t, ?_⟩
  rw [← hstart]
  show ((left.startThread t halted delay).eccWrite (tidLeafWin t) 0 (localBase t) 6144).thread t = _
  rw [thread_of_threads (threads_of_beyondCells (beyondCells_eccWrite _ _ _ _ _))]

end
end State
end Sys2Proof.Machine
end

section
/-! Debug commands on threads, faults recorded by a Quire, and restarts (07, R197 to R199, R204 to R210). -/

namespace Sys2Proof.Safety

open Sys2Proof.Machine

/-! ### Debug commands (R206 to R210) -/

section
variable {s : State} {t : Tid}

/-- What a debug command that changes its thread by f leaves. -/
theorem debugCmd_modThread (h : s.threadDebug = true) (f : Thread → Thread) :
    s.debugCmd t (fun s => s.modThread t f) = s.setThread t (f (s.thread t)) := if_pos h

theorem dbgHalt_asks (h : s.threadDebug = true) (hstarted : (s.thread t).started = true) (hruns : (s.thread t).halted = false)
    (hsound : (s.thread t).fault = none) : Leaves (.dbgHalt t) s (fun u => (u.thread t).haltReq = true ∧ (u.thread t).pc = (s.thread t).pc ∧
      (u.thread t).regs = (s.thread t).regs ∧ ∀ x, x ≠ t.val → u.thread x = s.thread x) := by
  have hexec : exec (.dbgHalt t) s = .next (s.setThread t { s.thread t with haltReq := true }) := by
    show execDbgHalt t s = _
    rw [execDbgHalt, State.dbgHaltCmd, debugCmd_modThread h, if_pos (by simp [hstarted, hruns, hsound])]
  refine ⟨_, hexec, ?_⟩
  beta_reduce
  rw [State.thread_setThread_self]
  exact ⟨rfl, rfl, rfl, fun x hx => State.thread_setThread_of_ne _ _ hx⟩

theorem dbgResume_lets_go (h : s.threadDebug = true) (hhalted : (s.thread t).halted = true) : Leaves (.dbgResume t) s (fun u =>
    (u.thread t).halted = false ∧ (u.thread t).step = false ∧ (u.thread t).pc = (s.thread t).pc ∧ (u.thread t).regs = (s.thread t).regs ∧
    ∀ x, x ≠ t.val → u.thread x = s.thread x) := by
  have hexec : exec (.dbgResume t) s =
      .next (s.setThread t { s.thread t with halted := false, haltReq := false, haltForced := false, step := false }) := by
    show execDbgResume t s = _
    rw [execDbgResume, State.dbgResumeCmd, debugCmd_modThread h, if_pos hhalted]
  refine ⟨_, hexec, ?_⟩
  beta_reduce
  rw [State.thread_setThread_self]
  exact ⟨rfl, rfl, rfl, rfl, fun x hx => State.thread_setThread_of_ne _ _ hx⟩

theorem dbgStep_lets_go (h : s.threadDebug = true) (hhalted : (s.thread t).halted = true) : Leaves (.dbgStep t) s (fun u =>
    (u.thread t).halted = false ∧ (u.thread t).step = true ∧ (u.thread t).pc = (s.thread t).pc ∧ (u.thread t).regs = (s.thread t).regs ∧
    ∀ x, x ≠ t.val → u.thread x = s.thread x) := by
  have hexec : exec (.dbgStep t) s =
      .next (s.setThread t { s.thread t with halted := false, haltReq := false, haltForced := false, step := true }) := by
    show execDbgStep t s = _
    rw [execDbgStep, State.dbgStepCmd, debugCmd_modThread h, if_pos hhalted]
  refine ⟨_, hexec, ?_⟩
  beta_reduce
  rw [State.thread_setThread_self]
  exact ⟨rfl, rfl, rfl, rfl, fun x hx => State.thread_setThread_of_ne _ _ hx⟩

theorem resetThread_halts (h : s.threadDebug = true) {e : Nat × Nat × Nat × Nat} (hentries : (s.quire (tidQuire t)).entries = some e) :
    Leaves (.resetThread t) s (fun u => (u.thread t).halted = true ∧
      (u.thread t).pc = programAddr (if s.isSup t then e.1 else e.2.2.1) ∧ (u.thread t).regs = [] ∧ (u.thread t).mem = [] ∧
      (u.thread t).task = none) := by
  have hexec : exec (.resetThread t) s = .next (s.resetThread t true 0) := congrArg Host.Outcome.next (if_pos h)
  obtain ⟨th, hthread⟩ := s.thread_resetThread hentries true 0
  refine ⟨_, hexec, ?_⟩
  beta_reduce
  rw [hthread]
  exact ⟨rfl, rfl, rfl, rfl, rfl⟩

/-- Without authenticated debug a command only sets `refused` at its Leaf (R206). -/
theorem debugCmd_refused (h : s.threadDebug = false) (f : State → State) : let u := s.debugCmd t f
    (u.reg (tidLeafWin t) 0x104).getLsbD 0 = true ∧ u.threads = s.threads ∧ u.quires = s.quires := by
  rw [State.debugCmd, if_neg (by simp [h])]
  exact ⟨State.getLsbD_setEvent_self _ _ _ (by decide), rfl, rfl⟩

end

/-- Settles O19: each command by what it leaves, under authenticated debug and without it. -/
theorem debugCommandsActOnThreads : Obligations.DebugCommandsActOnThreads := by
  unfold Obligations.DebugCommandsActOnThreads
  intro s t th others
  refine ⟨fun h => ⟨dbgHalt_asks h, dbgResume_lets_go h, dbgStep_lets_go h, fun e => resetThread_halts h⟩, fun h i hi => ?_⟩
  simp only [List.mem_cons, List.not_mem_nil, or_false] at hi
  obtain rfl | rfl | rfl | rfl := hi
  all_goals exact ⟨_, rfl, debugCmd_refused h _⟩

/-! ### A stretch of registers written word by word -/

section
variable (s : State) (w base : Nat) (v : Nat → Word32)

/-- The first n of a stretch's 32-bit registers written. -/
def writtenRegs (n : Nat) : State := (List.range n).foldl (fun (s : State) k => s.setReg w (base + 4 * k) (v k)) s

theorem writtenRegs_succ (n : Nat) : writtenRegs s w base v (n + 1) = (writtenRegs s w base v n).setReg w (base + 4 * n) (v n) := by
  rw [writtenRegs, List.range_succ, List.foldl_append]; rfl

theorem reg_writtenRegs {n k : Nat} (h : k < n) : (writtenRegs s w base v n).reg w (base + 4 * k) = v k := by
  induction n with
  | zero => exact absurd h (Nat.not_lt_zero k)
  | succ n ih =>
    rw [writtenRegs_succ]
    by_cases hk : k = n
    · rw [hk, State.reg_setReg_self]
    · rw [State.reg_setReg_of_off_ne _ _ _ (by omega), ih (by omega)]

theorem reg_writtenRegs_beyond {n o : Nat} (h : o < base ∨ base + 4 * n ≤ o) : (writtenRegs s w base v n).reg w o = s.reg w o := by
  induction n with
  | zero => rfl
  | succ n ih => rw [writtenRegs_succ, State.reg_setReg_of_off_ne _ _ _ (by omega), ih (by omega)]

theorem threads_writtenRegs (n : Nat) : (writtenRegs s w base v n).threads = s.threads :=
  foldl_keeps (g := State.threads) (f := fun (s : State) k => s.setReg w (base + 4 * k) (v k)) (fun _ _ => rfl) _ _

theorem roles_writtenRegs (n : Nat) : (writtenRegs s w base v n).roles = s.roles := State.roles_foldl (fun x _ => x.roles_setReg _ _ _) _ _

end

/-! ### The record of a fault (R197) -/

theorem leNat_leBytes (n v : Nat) : leNat (leBytes n v) = v % 256 ^ n := by
  induction n generalizing v with
  | zero => rw [Nat.pow_zero, Nat.mod_one]; rfl
  | succ n ih =>
    rw [leBytes, leNat, ih, BitVec.toNat_ofNat, show 256 ^ (n + 1) = 256 * 256 ^ n from Nat.pow_succ', Nat.mod_mul]

/-- Word k of a fault's record. -/
def recordWord (f : FaultInfo) (k : Nat) : Word32 := BitVec.ofNat 32 (leNat (bytesAt (recordWords f) (4 * k) 4))

theorem toNat_recordWord_zero {f : FaultInfo} (hkind : f.kind ≤ 8) :
    (recordWord f 0).toNat = f.kind + 256 * (bit f.hadTask + 2 * bit f.async + 4 * bit f.handler) + 65536 * (f.tenant % 65536) := by
  have hbit (b : Bool) : bit b ≤ 1 := by cases b <;> decide
  have hhad := hbit f.hadTask
  have hasync := hbit f.async
  have hhandler := hbit f.handler
  have hword : bytesAt (recordWords f) (4 * 0) 4 =
      [BitVec.ofNat 8 f.kind, BitVec.ofNat 8 (bit f.hadTask + 2 * bit f.async + 4 * bit f.handler), BitVec.ofNat 8 f.tenant, BitVec.ofNat 8 (f.tenant / 256)] := rfl
  rw [recordWord, hword]
  simp only [leNat, BitVec.toNat_ofNat]
  omega

theorem recordWord_two (f : FaultInfo) : recordWord f 2 = f.insn := by
  refine BitVec.eq_of_toNat_eq ?_
  rw [recordWord, show bytesAt (recordWords f) (4 * 2) 4 = leBytes 4 f.insn.toNat from rfl, leNat_leBytes, BitVec.toNat_ofNat]
  have hword := f.insn.isLt
  omega

theorem toNat_recordWord_three (f : FaultInfo) : (recordWord f 3).toNat = f.pc % 2 ^ 32 := by
  rw [recordWord, show bytesAt (recordWords f) (4 * 3) 4 = leBytes 4 f.pc from rfl, leNat_leBytes, BitVec.toNat_ofNat]
  omega

section
variable (s : State) (t : Nat) (f : FaultInfo)

/-- The record of a fault as its words stand in the Quire's page, with its map bit and its counter. -/
def recorded : State :=
  ((writtenRegs s (quireWin (tidQuire t)) (0x1000 + 0x20 * (t % 72)) (recordWord f) 8).setRf (quireWin (tidQuire t)) (0x1900 + 4 * (t % 72 / 32))
    (t % 72 % 32) (t % 72 % 32) 1).count (quireWin (tidQuire t)) (0x1940 + 4 * (f.kind - 1))

theorem roles_recorded : (recorded s t f).roles = s.roles := by
  have hmarked (v : State) (w o b c : Nat) : ((v.setRf w o b b 1).count w c).roles = v.roles := rfl
  rw [recorded, hmarked, roles_writtenRegs]

theorem reg_recorded_word {k : Nat} (hk : k < 8) :
    (recorded s t f).reg (quireWin (tidQuire t)) (0x1000 + 0x20 * (t % 72) + 4 * k) = recordWord f k := by
  rw [recorded, State.count, State.countBy, State.setRf, State.reg_setReg_of_off_ne _ _ _ (by omega), State.reg_setReg_of_off_ne _ _ _ (by omega),
    reg_writtenRegs _ _ _ _ hk]

theorem getLsbD_recorded_map : ((recorded s t f).reg (quireWin (tidQuire t)) (0x1900 + 4 * (t % 72 / 32))).getLsbD (t % 72 % 32) = true := by
  rw [recorded, State.count, State.countBy, State.setRf, State.reg_setReg_of_off_ne _ _ _ (by omega), State.reg_setReg_self]
  exact (getLsbD_putFld_bit _ _ true _).trans (if_pos ⟨rfl, Nat.mod_lt _ (by decide)⟩)

theorem toNat_reg_recorded_counter : ((recorded s t f).reg (quireWin (tidQuire t)) (0x1940 + 4 * (f.kind - 1))).toNat =
    min 0xFFFFFFFF ((s.reg (quireWin (tidQuire t)) (0x1940 + 4 * (f.kind - 1))).toNat + 1) := by
  rw [recorded, State.count, State.toNat_reg_countBy, State.setRf, State.reg_setReg_of_off_ne _ _ _ (by omega), reg_writtenRegs_beyond]
  omega

end

/-! ### The Quire records a fault (R197 to R199) -/

section
variable (v : State) (t : Nat) (f : FaultInfo)

/-- A recorded fault noted, before its thread's task is lost: whether it restarts by itself, and a supervisor's fault raises the Quire's event. -/
def faultNoted : State :=
  let noted := v.modThread t (fun th => { th with
    fault := some { f with recorded := true, restart := (v.reg (quireWin (tidQuire t)) 0x1918).getLsbD (f.kind - 1) && !v.isSup t } })
  if noted.isSup t then noted.setEvent (quireWin (tidQuire t)) 0x100 1 else noted

theorem roles_faultNoted : (faultNoted v t f).roles = v.roles := by
  simp only [faultNoted, State.roles_ite]
  split_ifs <;> rfl

theorem fault_faultNoted : ∃ g, ((faultNoted v t f).thread t).fault = some g ∧ g.recorded = true := by
  let g : FaultInfo := { f with recorded := true, restart := (v.reg (quireWin (tidQuire t)) 0x1918).getLsbD (f.kind - 1) && !v.isSup t }
  refine ⟨g, ?_, rfl⟩
  unfold faultNoted
  dsimp only
  split_ifs <;> exact congrArg Thread.fault (v.thread_setThread_self t { v.thread t with fault := some g })

theorem reg_faultNoted {o : Nat} (ho : o ≠ 0x100) : (faultNoted v t f).reg (quireWin (tidQuire t)) o = v.reg (quireWin (tidQuire t)) o := by
  unfold faultNoted
  dsimp only
  split_ifs
  · exact State.reg_setReg_of_off_ne _ _ _ ho
  · rfl

end

section
variable {s : State} {t : Tid}

theorem faultRecord_records {f : FaultInfo} (hfault : (s.thread t).fault = some f) (hnew : f.recorded = false) (hkind : 1 ≤ f.kind) (hkind' : f.kind ≤ 8) :
    Leaves (.faultRecord t) s (fun u =>
      (u.reg (quireWin (tidQuire t)) (0x1000 + 0x20 * (t.val % 72))).toNat =
        f.kind + 256 * (bit f.hadTask + 2 * bit f.async + 4 * bit f.handler) + 65536 * (f.tenant % 65536) ∧
      u.reg (quireWin (tidQuire t)) (0x1000 + 0x20 * (t.val % 72) + 8) = f.insn ∧
      (u.reg (quireWin (tidQuire t)) (0x1000 + 0x20 * (t.val % 72) + 12)).toNat = f.pc % 2 ^ 32 ∧
      (u.reg (quireWin (tidQuire t)) (0x1900 + 4 * (t.val % 72 / 32))).getLsbD (t.val % 72 % 32) = true ∧
      (u.reg (quireWin (tidQuire t)) (0x1940 + 4 * (f.kind - 1))).toNat =
        min 0xFFFFFFFF ((s.reg (quireWin (tidQuire t)) (0x1940 + 4 * (f.kind - 1))).toNat + 1) ∧
      (∃ g, (u.thread t).fault = some g ∧ g.recorded = true) ∧ (u.thread (s.supOf (tidQuire t))).nmi = true) := by
  let v := (faultNoted (recorded s t f) t f).loseTask t (faultDiag f.kind)
  have hexec : exec (.faultRecord t) s = .next (v.raiseNmi (tidQuire t)) := by
    show execFaultRecord t s = _
    simp only [execFaultRecord, hfault]
    exact if_neg (by simp [hnew])
  have hkeeps : v.upkeep = (faultNoted (recorded s t f) t f).upkeep := State.upkeep_loseTask _ _ _
  have hraised : (v.raiseNmi (tidQuire t)).upkeep = v.upkeep := State.upkeep_modThread (f := fun th => { th with nmi := true }) _ (fun _ => rfl) _
  have hwin : quireWin (tidQuire t) < 411 := by have ht := t.isLt; unfold quireWin tidQuire; omega
  have hreg {o : Nat} (hlow : 0x200 ≤ o) (hhigh : o < 0x10000) :
      (v.raiseNmi (tidQuire t)).reg (quireWin (tidQuire t)) o = (recorded s t f).reg (quireWin (tidQuire t)) o :=
    (State.reg_of_upkeep (hraised.trans hkeeps) hwin hlow hhigh).trans (reg_faultNoted _ t f (by omega))
  have hsup : v.supOf (tidQuire t) = s.supOf (tidQuire t) :=
    State.supOf_of_roles ((State.roles_of_upkeep hkeeps).trans ((roles_faultNoted _ t f).trans (roles_recorded s t f))) _
  obtain ⟨g, hg, hrecorded⟩ := fault_faultNoted (recorded s t f) t f
  refine ⟨_, hexec, ?_, ?_, ?_, ?_, ?_, ⟨g, ?_, hrecorded⟩, ?_⟩
  · rw [hreg (by omega) (by omega)]
    exact (congrArg BitVec.toNat (reg_recorded_word s t f (k := 0) (by decide))).trans (toNat_recordWord_zero hkind')
  · rw [hreg (by omega) (by omega)]
    exact (reg_recorded_word s t f (k := 2) (by decide)).trans (recordWord_two f)
  · rw [hreg (by omega) (by omega)]
    exact (congrArg BitVec.toNat (reg_recorded_word s t f (k := 3) (by decide))).trans (toNat_recordWord_three f)
  · rw [hreg (by omega) (by omega), getLsbD_recorded_map]
  · rw [hreg (by omega) (by omega), toNat_reg_recorded_counter]
  · rw [State.fault_of_upkeep (hraised.trans hkeeps), hg]
  · rw [State.raiseNmi, hsup, State.modThread, State.thread_setThread_self]; rfl

/-! ### Restarts (R198, R204, R205) -/

/-- A thread reset and started at its role's entry, 16 LEAF cycles later. -/
theorem resetThread_restarts {e : Nat × Nat × Nat × Nat} (hentries : (s.quire (tidQuire t)).entries = some e) {u : State}
    (hthreads : u.threads = (s.resetThread t false 8).threads) : (u.thread t).started = true ∧ (u.thread t).fault = none ∧
      (u.thread t).pc = programAddr (if s.isSup t then e.1 else e.2.2.1) ∧ (u.thread t).evec = programAddr (if s.isSup t then e.2.1 else e.2.2.2) ∧
      (u.thread t).regs = [] ∧ (u.thread t).task = none ∧ (u.thread t).notBefore = s.time.cycles + 8 := by
  obtain ⟨th, hthread⟩ := s.thread_resetThread hentries false 8
  rw [State.thread_of_threads hthreads, hthread]
  exact ⟨rfl, rfl, rfl, rfl, rfl, rfl, rfl⟩

/-- A thread's record and its map bit cleared. -/
theorem clearRecord_clears (v : State) (t : Nat) : let u := v.clearRecord t
    (u.reg (quireWin (tidQuire t)) (0x1900 + 4 * (t % 72 / 32))).getLsbD (t % 72 % 32) = false ∧
      u.reg (quireWin (tidQuire t)) (0x1000 + 0x20 * (t % 72)) = 0 ∧ u.threads = v.threads := by
  intro u
  have hu : u = (writtenRegs v (quireWin (tidQuire t)) (0x1000 + 0x20 * (t % 72)) (fun _ => 0) 8).setRf (quireWin (tidQuire t))
      (0x1900 + 4 * (t % 72 / 32)) (t % 72 % 32) (t % 72 % 32) 0 := rfl
  refine ⟨?_, ?_, ?_⟩
  · rw [hu, State.setRf, State.reg_setReg_self]
    exact (getLsbD_putFld_bit _ _ false _).trans (if_pos ⟨rfl, Nat.mod_lt _ (by decide)⟩)
  · rw [hu, State.setRf, State.reg_setReg_of_off_ne _ _ _ (by omega)]
    exact reg_writtenRegs _ _ _ _ (k := 0) (by decide)
  · have hmarked (x : State) (w o b : Nat) : (x.setRf w o b b 0).threads = x.threads := rfl
    rw [hu, hmarked, threads_writtenRegs]

section
variable {r : Fin 24} (hr : r.val = tidQuire t)
include hr

/-- The number in a command of a Quire's page, and the thread it names. -/
theorem named_thread : (BitVec.ofNat 7 (t.val % 72)).toNat = t.val % 72 ∧ 72 * r.val + t.val % 72 = t := by
  refine ⟨?_, by rw [hr]; exact Nat.div_add_mod t.val 72⟩
  rw [BitVec.toNat_ofNat]
  omega

theorem threadCmd_restart : s.threadCmd r 1 (BitVec.ofNat 7 (t.val % 72)).toNat = s.restartThread t := by
  obtain ⟨hn, hthread⟩ := named_thread hr
  rw [State.threadCmd, hn, if_neg (by omega), hthread]

theorem threadCmd_clearRecord : s.threadCmd r 2 (BitVec.ofNat 7 (t.val % 72)).toNat = s.clearRecordCmd t := by
  obtain ⟨hn, hthread⟩ := named_thread hr
  rw [State.threadCmd, hn, if_neg (by omega), hthread]

end
/-- What a restarted thread is, where its Quire names its entries. -/
def Restarted (s u : State) (t : Nat) : Prop := ∀ e, (s.quire (tidQuire t)).entries = some e → (u.thread t).started = true ∧ (u.thread t).fault = none ∧
  (u.thread t).pc = programAddr (if s.isSup t then e.1 else e.2.2.1) ∧ (u.thread t).evec = programAddr (if s.isSup t then e.2.1 else e.2.2.2) ∧
  (u.thread t).regs = [] ∧ (u.thread t).task = none ∧ (u.thread t).notBefore = s.time.cycles + 8

theorem autoRestart_restarts {f : FaultInfo} (hfault : (s.thread t).fault = some f) (hrecorded : f.recorded = true) (hrestart : f.restart = true)
    (hserves : s.leafServes t = true) : Leaves (.autoRestart t) s (fun u => Restarted s u t) := by
  have hexec : exec (.autoRestart t) s = .next (s.resetThread t false 8) := by
    show execAutoRestart t s = _
    rw [execAutoRestart, hfault]
    exact if_pos (by simp [hrecorded, hrestart, hserves])
  exact ⟨_, hexec, fun e he => resetThread_restarts he rfl⟩

section
variable {r : Fin 24} (hr : r.val = tidQuire t) (hserves : s.leafServes t = true)
include hr hserves

theorem threadRestart_restarts : Leaves (.threadRestart r (BitVec.ofNat 7 (t.val % 72))) s (fun u => Restarted s u t ∧
    (u.reg (quireWin (tidQuire t)) (0x1900 + 4 * (t.val % 72 / 32))).getLsbD (t.val % 72 % 32) = false) := by
  have hexec : exec (.threadRestart r (BitVec.ofNat 7 (t.val % 72))) s = .next ((s.resetThread t false 8).clearRecord t) := by
    show execThreadRestart r _ s = _
    rw [execThreadRestart, threadCmd_restart hr, State.restartThread, if_pos hserves]
  obtain ⟨hmap, -, hthreads⟩ := clearRecord_clears (s.resetThread t false 8) t
  exact ⟨_, hexec, fun e he => resetThread_restarts he hthreads, hmap⟩

theorem clearRecord_leaves : Leaves (.clearRecord r (BitVec.ofNat 7 (t.val % 72))) s (fun u =>
    (u.reg (quireWin (tidQuire t)) (0x1900 + 4 * (t.val % 72 / 32))).getLsbD (t.val % 72 % 32) = false ∧
    u.reg (quireWin (tidQuire t)) (0x1000 + 0x20 * (t.val % 72)) = 0 ∧ u.threads = s.threads) := by
  have hexec : exec (.clearRecord r (BitVec.ofNat 7 (t.val % 72))) s = .next (s.clearRecord t) := by
    show execClearRecord r _ s = _
    rw [execClearRecord, threadCmd_clearRecord hr, State.clearRecordCmd, if_pos hserves]
  exact ⟨_, hexec, clearRecord_clears s t⟩

end
end

/-- Settles O17: the record by its words, and each restart by the thread as it starts. -/
theorem faultsAreRecordedAndThreadsRestart : Obligations.FaultsAreRecordedAndThreadsRestart := by
  unfold Obligations.FaultsAreRecordedAndThreadsRestart
  intro s t q w n restarted
  exact ⟨fun f => faultRecord_records, fun f => autoRestart_restarts,
    fun hserves r hr => ⟨threadRestart_restarts hr hserves, clearRecord_leaves hr hserves⟩⟩

end Sys2Proof.Safety
end

section
/-! The doorbells of a queue pair and the descriptors it fetches (18, R445 to R450). -/

namespace Sys2Proof.Machine.State

/-! ### Queue pairs -/

section
variable (s : State)

@[simp] theorem qp_setQp_self (q : Nat) (x : QpSt) : (s.setQp q x).qp q = x := SMap.get_set_self _ _ _ _

theorem qp_setQp_of_ne {q k : Nat} (x : QpSt) (h : k ≠ q) : (s.setQp q x).qp k = s.qp k := SMap.get_set_of_ne _ _ _ h

theorem qp_of_qps {s u : State} (h : u.qps = s.qps) (q : Nat) : u.qp q = s.qp q := by rw [State.qp, h, State.qp]

theorem port_setPort_self (n : Nat) (p : PortSt) : (s.setPort n p).port n = p := SMap.get_set_self _ _ _ _

theorem port_setPort_of_ne {n k : Nat} (p : PortSt) (h : k ≠ n) : (s.setPort n p).port k = s.port k := SMap.get_set_of_ne _ _ _ h

theorem length_hostRead (a n : Nat) : (s.hostRead a n).length = n := Memory.length_readBytes _ _ _

end

/-- What a port's receive buffer holds is a matter of the port, the packets and the cells. -/
theorem rxHeld_setQp (s : State) (q : Nat) (x : QpSt) (n : Nat) : (s.setQp q x).rxHeld n = s.rxHeld n := by
  have hlinked (fuel ptr : Nat) : (s.setQp q x).linked fuel ptr = s.linked fuel ptr := by
    induction fuel generalizing ptr with
    | zero => rfl
    | succ fuel ih => rw [State.linked, ih, State.linked]; rfl
  have hcells : (s.setQp q x).rxCells = s.rxCells := by
    funext f
    unfold State.rxCells State.cellsOf
    simp only [hlinked]
    rfl
  rw [State.rxHeld, hcells, show (s.setQp q x).port n = s.port n from rfl, State.rxHeld]

/-- A frame that finds room joins its port's receive buffer. -/
theorem bufferFrame_eq {s : State} {n : Nat} {f : RxFrame} (h : s.rxHeld n + f.bytes.length ≤ 32768) :
    s.bufferFrame n f = s.setPort n { s.port n with rx := (s.port n).rx ++ [f] } := if_neg (Nat.not_lt.2 h)

end Sys2Proof.Machine.State

namespace Sys2Proof.Safety

open Sys2Proof.Machine

section
variable {s : State} {q : Fin 256}

/-! ### Doorbells (R448) -/

theorem vectorsOf_le (f : Nat) : vectorsOf f ≤ 256 := by
  unfold vectorsOf
  split <;> decide

/-- A write of a doorbell page by the function that owns it. -/
theorem writeDoorbell_eq {f off : Nat} (howner : (s.qp q).owner = some f) (hf : f < 64) (hserving : s.serving pcieWin = true) (hoff : off < 0x1000)
    (v : Word32) : s.writeDoorbell q off v = s.setQp q ((s.qp q).writePage off v) := by
  have hq := q.isLt
  have hvectors := vectorsOf_le f
  have hplace : (0x400000 + 0x1000 * q.val + off - 0x400000) / 0x1000 = q := by omega
  have hpage : (0x400000 + 0x1000 * q.val + off) % 0x1000 = off := by omega
  have howned : 0x400000 ≤ 0x400000 + 0x1000 * q.val + off ∧ 0x400000 + 0x1000 * q.val + off < 0x500000 ∧
      (s.qp ((0x400000 + 0x1000 * q.val + off - 0x400000) / 0x1000)).owner = some f := ⟨by omega, by omega, by rw [hplace, howner]⟩
  simp only [State.writeDoorbell, howner, State.writeBar, hserving, Bool.not_true, Bool.false_eq_true, if_false]
  rw [if_neg (by omega), if_neg (by omega), if_neg (by omega), if_neg (by omega), if_neg (by omega), if_neg (by omega), if_neg (by omega),
    if_neg (by omega), if_pos howned, hplace, hpage]

/-- A queue pair replaced. -/
theorem leaves_setQp (x : QpSt) : s.setQp q x = { s with qps := (s.setQp q x).qps } ∧ (s.setQp q x).qp q = x ∧ OtherPairs s (s.setQp q x) q :=
  ⟨rfl, s.qp_setQp_self q x, fun _ hk => s.qp_setQp_of_ne x hk⟩

theorem fld_setWidth (v : BitVec 16) : fld (v.setWidth 32) 15 0 = v.toNat := by
  have hv := v.isLt
  simp only [fld, bitsOf, BitVec.toNat_setWidth, Nat.shiftRight_eq_div_pow]
  omega

theorem qpDoorbell_writes {f : Nat} {v : BitVec 16} (howner : (s.qp q).owner = some f) (hf : f < 64) (hserving : s.serving pcieWin = true) :
    Leaves (.qpDoorbell q v) s (fun u => u = { s with qps := u.qps } ∧ u.qp q = { s.qp q with sqTail := v.toNat } ∧ OtherPairs s u q) := by
  have hexec : exec (.qpDoorbell q v) s = .next (s.setQp q { s.qp q with sqTail := v.toNat }) := by
    show execQpDoorbell q v s = _
    rw [execQpDoorbell, writeDoorbell_eq howner hf hserving (by decide), QpSt.writePage, fld_setWidth]
  exact ⟨_, hexec, leaves_setQp _⟩

theorem qpCqHeadWrite_writes {f : Nat} {v : BitVec 16} (howner : (s.qp q).owner = some f) (hf : f < 64) (hserving : s.serving pcieWin = true) :
    Leaves (.qpCqHeadWrite q v) s (fun u => u = { s with qps := u.qps } ∧ u.qp q = { s.qp q with cqHead := v.toNat } ∧ OtherPairs s u q) := by
  have hexec : exec (.qpCqHeadWrite q v) s = .next (s.setQp q { s.qp q with cqHead := v.toNat }) := by
    show execQpCqHeadWrite q v s = _
    rw [execQpCqHeadWrite, writeDoorbell_eq howner hf hserving (by decide), QpSt.writePage, fld_setWidth]
  exact ⟨_, hexec, leaves_setQp _⟩

/-! ### Descriptors fetched (R445, R447) -/

theorem nextDesc_of_hasPosted {kind : Nat} (h : HasPosted s q kind) (hkind : kind = 1 ∨ kind = 2) :
    s.nextDesc q = some ((s.qp q).sqHead % 65536, postedDesc s q) := by
  obtain ⟨hk, hposted, htakes⟩ := h
  exact if_neg (by rw [htakes, hk]; simp [hposted]; omega)

theorem fetched_takeDesc {v : State} (hqps : v.qps = s.qps) (req : Option Nat) (ended : Option (Nat × Nat × Bool × Nat)) :
    Fetched s (v.takeDesc q (qpDescOf ((s.qp q).sqHead % 65536) (postedDesc s q) req ended)) q req ended := by
  refine ⟨?_, fun k hk => ?_⟩
  · rw [State.takeDesc, State.qp_setQp_self, State.qp_of_qps hqps]
  · rw [State.takeDesc, State.qp_setQp_of_ne _ _ hk, State.qp_of_qps hqps]

section
variable (h : HasPosted s q 1)
include h

/-- A frame sent: the descriptor is fetched, and the frame stands in the receive buffer of port 32. -/
theorem dmaTx_sends (hop : descOp (postedDesc s q) = 1) (hclean : descClean (postedDesc s q) = true) (hlow : 60 ≤ descLen (postedDesc s q))
    (hhigh : descLen (postedDesc s q) ≤ 9596) (hroom : s.rxHeld 32 + descLen (postedDesc s q) ≤ 32768) : Leaves (.dmaTx q) s (fun u =>
      Fetched s u q none none ∧ u = { s with qps := u.qps, ports := u.ports } ∧ (∀ n, n ≠ 32 → u.port n = s.port n) ∧
      u.port 32 = { s.port 32 with rx := (s.port 32).rx ++
        [⟨s.hostRead (descHost (postedDesc s q)) (descLen (postedDesc s q)), s.hostRead (descHost (postedDesc s q)) (descLen (postedDesc s q)), s.time.ns,
          true, some (if (s.qp q).owner = some 0 ∧ (descCtxOf (postedDesc s q)).testBit 15 = true then descCtxOf (postedDesc s q) % 128 else (s.qp q).ctx),
          none, none, false, none, false, some (q.val, (s.qp q).sqHead % 65536)⟩] }) := by
  let d := postedDesc s q
  let v := s.takeDesc q (qpDescOf ((s.qp q).sqHead % 65536) d none none)
  let frame : RxFrame := ⟨s.hostRead (descHost d) (descLen d), s.hostRead (descHost d) (descLen d), s.time.ns, true, some ((s.qp q).txContext d), none, none,
    false, none, false, some (q.val, (s.qp q).sqHead % 65536)⟩
  have hfits : v.rxHeld 32 + frame.bytes.length ≤ 32768 := by
    rw [show frame.bytes.length = descLen d from s.length_hostRead _ _, show v.rxHeld 32 = s.rxHeld 32 from s.rxHeld_setQp _ _ _]
    exact hroom
  have hexec : exec (.dmaTx q) s = .next (v.setPort 32 { v.port 32 with rx := (v.port 32).rx ++ [frame] }) := by
    show execDmaTx q s = _
    simp only [execDmaTx, nextDesc_of_hasPosted h (.inl rfl)]
    rw [if_neg (by rw [h.1, hop]; decide), if_neg (by rw [hop, hclean]; simp; omega), if_neg (by omega)]
    exact congrArg Host.Outcome.next (State.bufferFrame_eq hfits)
  refine ⟨_, hexec, fetched_takeDesc rfl none none, rfl, fun n hn => State.port_setPort_of_ne _ _ hn, State.port_setPort_self _ _ _⟩

/-- A descriptor that a PACKET pair does not know, or that is malformed, ends with BAD_DESC. -/
theorem dmaTx_refuses (hop : descOp (postedDesc s q) ≠ 2) (hbad : descOp (postedDesc s q) ≠ 1 ∨ descClean (postedDesc s q) = false ∨
    descLen (postedDesc s q) < 60 ∨ 9596 < descLen (postedDesc s q)) :
    Leaves (.dmaTx q) s (fun u => Fetched s u q none (some (1, 0, false, 0)) ∧ u = { s with qps := u.qps }) := by
  have hexec : exec (.dmaTx q) s =
      .next (s.takeDesc q (qpDescOf ((s.qp q).sqHead % 65536) (postedDesc s q) none (some (1, 0, false, 0)))) := by
    show execDmaTx q s = _
    simp only [execDmaTx, nextDesc_of_hasPosted h (.inl rfl)]
    rw [if_neg (by rw [h.1]; simp [hop]), if_pos (by simpa using hbad)]
  exact ⟨_, hexec, fetched_takeDesc rfl _ _, rfl⟩

theorem dmaRxBuf_posts (hop : descOp (postedDesc s q) = 2) (hclean : descClean (postedDesc s q) = true) (hlow : 256 ≤ descLen (postedDesc s q))
    (hhigh : descLen (postedDesc s q) ≤ 16384) : Leaves (.dmaRxBuf q) s (fun u => u = { s with qps := u.qps } ∧ OtherPairs s u q ∧
      u.qp q = { s.qp q with sqHead := (s.qp q).sqHead + 1,
                             descs := (s.qp q).descs ++ [qpDescOf ((s.qp q).sqHead % 65536) (postedDesc s q) none none],
                             stalled := false, fullSince := none }) := by
  let v := s.takeDesc q (qpDescOf ((s.qp q).sqHead % 65536) (postedDesc s q) none none)
  have hexec : exec (.dmaRxBuf q) s = .next (v.setQp q { v.qp q with stalled := false, fullSince := none }) := by
    show execDmaRxBuf q s = _
    simp only [execDmaRxBuf, nextDesc_of_hasPosted h (.inl rfl)]
    rw [if_neg (by rw [h.1, hop]; decide), if_neg (by rw [hclean]; simp; omega)]
  obtain ⟨hpair, hothers⟩ : Fetched s v q none none := fetched_takeDesc rfl none none
  refine ⟨_, hexec, rfl, fun k hk => (v.qp_setQp_of_ne _ hk).trans (hothers k hk), ?_⟩
  rw [State.qp_setQp_self, hpair]

theorem dmaRxBuf_refuses (hop : descOp (postedDesc s q) = 2)
    (hbad : descClean (postedDesc s q) = false ∨ descLen (postedDesc s q) < 256 ∨ 16384 < descLen (postedDesc s q)) :
    Leaves (.dmaRxBuf q) s (fun u => Fetched s u q none (some (1, 0, false, 0)) ∧ u = { s with qps := u.qps }) := by
  have hexec : exec (.dmaRxBuf q) s =
      .next (s.takeDesc q (qpDescOf ((s.qp q).sqHead % 65536) (postedDesc s q) none (some (1, 0, false, 0)))) := by
    show execDmaRxBuf q s = _
    simp only [execDmaRxBuf, nextDesc_of_hasPosted h (.inl rfl)]
    rw [if_neg (by rw [h.1, hop]; decide), if_pos (by simpa using hbad)]
  exact ⟨_, hexec, fetched_takeDesc rfl _ _, rfl⟩

end

/-! ### MEM descriptors (R449, R450) -/

section
variable {write err : Bool} {i : Instr} (hi : (i = .dmaMemRead q err ∧ write = false) ∨ (i = .dmaMemWrite q err ∧ write = true))
include hi

theorem exec_memDescriptor : exec i s = .next (s.memDescriptor q write err) := by
  obtain ⟨rfl, rfl⟩ | ⟨rfl, rfl⟩ := hi <;> rfl

/-- A MEM descriptor ends at once with a status. -/
theorem memDescriptor_stops {status : Nat} (hstop : s.memDescriptor q write err =
      s.takeDesc q (qpDescOf ((s.qp q).sqHead % 65536) (postedDesc s q) none (some (status, 0, false, 0)))) :
    Leaves i s (fun u => Fetched s u q none (some (status, 0, false, 0)) ∧ u = { s with qps := u.qps }) :=
  ⟨_, (exec_memDescriptor hi).trans (congrArg Host.Outcome.next hstop), fetched_takeDesc rfl _ _, rfl⟩

section
variable (h : HasPosted s q 2) (hop : descOp (postedDesc s q) = 4 ↔ write = true)
include h hop

omit hi in
/-- The descriptor of a MEM pair is looked at. -/
theorem memDescriptor_eq : s.memDescriptor q write err =
    (let d := postedDesc s q
     let stop (status : Nat) : State := s.takeDesc q (qpDescOf ((s.qp q).sqHead % 65536) d none (some (status, 0, false, 0)))
     if !descMemOk d then stop 1
     else if !(s.func ((s.qp q).owner.getD 64)).dmaOk (bitsOf (descDev d) 63 62) (bitsOf (descDev d) 47 0) (descLen d) write then stop 2
     else if err then stop 3
     else
       let r := s.issueMem (8192 + q) (newReq (decide (bitsOf (descDev d) 63 62 = 2)) (bitsOf (descDev d) 47 0) (descLen d)
         (if write then some (s.hostRead (descHost d) (descLen d)) else none) none (some 5))
       r.2.takeDesc q (qpDescOf ((s.qp q).sqHead % 65536) d (some r.1) none)) := by
  simp only [State.memDescriptor, nextDesc_of_hasPosted h (.inr rfl)]
  rw [if_neg]
  rw [h.1]
  cases write <;> simp [hop]

theorem memDescriptor_malformed (hbad : descMemOk (postedDesc s q) = false) :
    Leaves i s (fun u => Fetched s u q none (some (1, 0, false, 0)) ∧ u = { s with qps := u.qps }) :=
  memDescriptor_stops hi ((memDescriptor_eq h hop).trans (if_pos (by simp [hbad])))

section
variable (hok : descMemOk (postedDesc s q) = true)
include hok

theorem memDescriptor_denied (hbarred : (s.func ((s.qp q).owner.getD 64)).dmaOk (bitsOf (descDev (postedDesc s q)) 63 62)
      (bitsOf (descDev (postedDesc s q)) 47 0) (descLen (postedDesc s q)) write = false) :
    Leaves i s (fun u => Fetched s u q none (some (2, 0, false, 0)) ∧ u = { s with qps := u.qps }) :=
  memDescriptor_stops hi ((memDescriptor_eq h hop).trans ((if_neg (by simp [hok])).trans (if_pos (by simp [hbarred]))))

section
variable (hgranted : (s.func ((s.qp q).owner.getD 64)).dmaOk (bitsOf (descDev (postedDesc s q)) 63 62)
  (bitsOf (descDev (postedDesc s q)) 47 0) (descLen (postedDesc s q)) write = true)
include hgranted

theorem memDescriptor_fails (herr : err = true) :
    Leaves i s (fun u => Fetched s u q none (some (3, 0, false, 0)) ∧ u = { s with qps := u.qps }) :=
  memDescriptor_stops hi ((memDescriptor_eq h hop).trans ((if_neg (by simp [hok])).trans ((if_neg (by simp [hgranted])).trans (if_pos herr))))

theorem memDescriptor_asks (herr : err = false) : Leaves i s (fun u => ∃ m, Fetched s u q (some m.id) none ∧
    u.memWaiting (8192 + q) = s.memWaiting (8192 + q) ++ [m] ∧ m.addr = bitsOf (descDev (postedDesc s q)) 47 0 ∧ m.len = descLen (postedDesc s q) ∧
    m.table = decide (bitsOf (descDev (postedDesc s q)) 63 62 = 2) ∧ m.amo = none ∧
    m.write = (if write then some (s.hostRead (descHost (postedDesc s q)) (descLen (postedDesc s q))) else none) ∧ u.mem.buffer = s.mem.buffer ∧
    u.mem.table = s.mem.table ∧ u.spine = s.spine) := by
  have heq := (memDescriptor_eq h hop (err := err)).trans ((if_neg (by simp [hok])).trans ((if_neg (by simp [hgranted])).trans (if_neg (by simp [herr]))))
  refine ⟨_, (exec_memDescriptor hi).trans (congrArg Host.Outcome.next heq), _, fetched_takeDesc rfl _ none, SMap.get_set_self _ _ _ _, rfl, rfl, rfl, rfl,
    rfl, rfl, rfl, rfl⟩

end
end
end
end

/-! ### Stalls (R447) -/

theorem rxStallTimeout_stalls {t o : Nat} {y : Output} (hfull : (s.qp q).fullSince = some t) (hready : s.readyOutput 32 = some (o, y))
    (hqueue : y.desc.queue % 256 = q.val) (hplace : (s.qp q).rxPlace y.frame.length = none) (hkind : (s.qp q).kind = 1)
    (hlate : t + 1000 * (s.qp q).stallUs ≤ s.time.cycles) : Leaves (.rxStallTimeout q) s (fun u =>
      u = { s with qps := u.qps } ∧ u.qp q = { s.qp q with stalled := true } ∧ OtherPairs s u q) := by
  have hexec : exec (.rxStallTimeout q) s = .next (s.setQp q { s.qp q with stalled := true }) := by
    show execRxStallTimeout q s = _
    simp only [execRxStallTimeout, hfull, hready]
    exact if_pos ⟨by simp [hqueue, hplace], hkind, hlate⟩
  exact ⟨_, hexec, leaves_setQp _⟩

end
end Sys2Proof.Safety
end

section
/-! Outputs to the host: what leaves Finisher, and a frame in the receive buffers of a queue pair (13, R352, R358; 18, R446, R447). -/

namespace Sys2Proof.Machine.State

/-! ### An output leaves the table (R328) -/

/-- The state without the running states of Drover's nodes and their order. -/
def beyondNodes (s : State) : State := { s with drover := { s.drover with dyn := [], seq := 0 } }

section
variable {s u : State} (h : u.beyondNodes = s.beyondNodes)
include h

theorem outs_of_beyondNodes : u.drover.outs = s.drover.outs := by
  have := congrArg (fun v : State => v.drover.outs) h
  exact this
theorem qps_of_beyondNodes : u.qps = s.qps := by
  have := congrArg State.qps h
  exact this
theorem spine_of_beyondNodes : u.spine = s.spine := by
  have := congrArg State.spine h
  exact this
theorem reports_of_beyondNodes : u.reports = s.reports := by
  have := congrArg State.reports h
  exact this

end

section
variable (s : State)

@[simp] theorem beyondNodes_setNode (k : Nat) (d : NodeDyn) : (s.setNode k d).beyondNodes = s.beyondNodes := rfl

@[simp] theorem beyondNodes_noteRound (k : Nat) : (s.noteRound k).beyondNodes = s.beyondNodes := by
  unfold State.noteRound
  split <;> rfl

@[simp] theorem beyondNodes_setInRing (k : Nat) (b : Bool) : (s.setInRing k b).beyondNodes = s.beyondNodes := beyondNodes_noteRound _ _

@[simp] theorem beyondNodes_settleUp (fuel k : Nat) : (s.settleUp fuel k).beyondNodes = s.beyondNodes := by
  induction fuel generalizing s k with
  | zero => rfl
  | succ fuel ih =>
    simp only [State.settleUp]
    split <;> split <;> simp [ih]

section
variable (o : Nat) (x : Output)

/-- The output is erased, and with it its entries in the lists of its port and lane; the nodes are not settled yet. -/
def outputErased : State :=
  let v := (s.eraseOutput o).setPort x.port { s.port x.port with txq := (s.port x.port).txq.filter (· ≠ o) }
  v.modDrover (fun d => { d with selected := SMap.set (fun _ => []) d.selected (laneOf x.port) ((v.selectedOf (laneOf x.port)).filter (· ≠ o)) })

theorem outputErased_eq : s.outputErased o x = { s with ports := (s.outputErased o x).ports, drover := (s.outputErased o x).drover } := rfl

/-- An output that leaves is in the table no more; queue pairs, host memory and the reports are as they were. -/
theorem leaveOutput_leaves : let u := s.leaveOutput o x
    u.output o = none ∧ u.qps = s.qps ∧ u.spine = s.spine ∧ u.reports = s.reports := by
  intro u
  have hu : u.beyondNodes = (s.outputErased o x).beyondNodes := beyondNodes_settleUp _ _ _
  have herased : (s.outputErased o x).drover.outs = SMap.erase s.drover.outs o := rfl
  refine ⟨?_, (qps_of_beyondNodes hu).trans ?_, (spine_of_beyondNodes hu).trans ?_, (reports_of_beyondNodes hu).trans ?_⟩
  · rw [State.output, outs_of_beyondNodes hu, herased, SMap.find_erase_self]
  all_goals rw [outputErased_eq]

/-- A drop is counted in Finisher or at a port, told to Sheaf, and its output leaves (R358). -/
theorem countedDrop_leaves {w off : Nat} (hoff : off < 65536) (hne : off ≠ 0x200 ∧ off ≠ 0x204) (diag : Nat) :
    let u := ((s.count w off).tellOutDrop x.desc x.len diag).leaveOutput o x
    u.output o = none ∧ u.qps = s.qps ∧ u.spine = s.spine ∧ u.reports = s.reports ++ [Safety.outDropReport s x.desc diag x.len] := by
  have hkept {k : Nat} (hk : off ≠ k) (hlt : k < 65536) : (s.count w off).reg sheafWin k = s.reg sheafWin k :=
    reg_setReg_of_ne _ _ (fun h => hk (congrArg Prod.snd h).symm) hlt hoff
  have hflow (md : BitVec 512) : (s.count w off).rickFlow md = s.rickFlow md := by
    simp only [State.rickFlow, State.rf, hkept hne.1 (by decide), hkept hne.2 (by decide)]
  obtain ⟨hnone, hqps, hspine, hreports⟩ := ((s.count w off).tellOutDrop x.desc x.len diag).leaveOutput_leaves o x
  refine ⟨hnone, hqps.trans rfl, hspine.trans rfl, hreports.trans ?_⟩
  show s.reports ++ [⟨_, _, _, (s.count w off).rickFlow x.desc.md⟩] = _
  rw [hflow]
  rfl

/-- An output whose cells Finisher has read is dropped because its queue pair refuses it (R446, R447). -/
theorem finisherDrop_leaves {diag : Nat} (hplace : x.place = .edited) (hdiag : diag = 56 ∨ diag = 51) : let u := s.finisherDrop o x diag
    u.output o = none ∧ u.qps = s.qps ∧ u.spine = s.spine ∧ u.reports = s.reports ++ [Safety.outDropReport s x.desc diag x.len] := by
  have hheld : ¬ x.holdsCells = true := by rw [Output.holdsCells, hplace]; decide
  intro u
  obtain rfl | rfl := hdiag
  · have hu : u = ((s.count (portWin x.port) 0x228).tellOutDrop x.desc x.len 56).leaveOutput o x := congrArg (State.leaveOutput · o x) (if_neg hheld)
    rw [hu]
    exact s.countedDrop_leaves o x (by decide) (by decide) 56
  · have hu : u = ((s.count finisherWin 0x114).tellOutDrop x.desc x.len 51).leaveOutput o x := congrArg (State.leaveOutput · o x) (if_neg hheld)
    rw [hu]
    exact s.countedDrop_leaves o x (by decide) (by decide) 51

end
end
/-! ### A frame in one receive buffer (R446, R447) -/

/-- No buffer is taken only for no bytes. -/
theorem eq_zero_of_rxBuffers_nil {l : List QpDesc} {n : Nat} (h : rxBuffers l n = some []) : n = 0 := by
  by_contra hn
  induction l with
  | nil => simp [rxBuffers, hn] at h
  | cons e l ih =>
    simp only [rxBuffers, if_neg hn] at h
    split at h
    · simp at h
    · exact ih h

/-- The one buffer that a frame takes is posted, has not ended, and holds it. -/
theorem rxBuffers_one {l : List QpDesc} {n : Nat} {d : QpDesc} (h : rxBuffers l n = some [d]) : d ∈ l ∧ d.ended = none ∧ n ≤ d.len := by
  induction l with
  | nil => unfold rxBuffers at h; split at h <;> simp at h
  | cons e l ih =>
    unfold rxBuffers at h
    split at h
    · simp at h
    · split at h
      · next hopen =>
        obtain ⟨rest, hrest, heq⟩ := Option.map_eq_some_iff.1 h
        obtain ⟨rfl, rfl⟩ := List.cons.inj heq
        have hnil := eq_zero_of_rxBuffers_nil hrest
        exact ⟨List.mem_cons_self, by simpa using (Bool.and_eq_true_iff.1 hopen).2, by omega⟩
      · obtain ⟨hmem, hended, hlen⟩ := ih h
        exact ⟨List.mem_cons_of_mem _ hmem, hended, hlen⟩

theorem rxPlace_one {x : QpSt} {n : Nat} {d : QpDesc} (h : x.rxPlace n = some [d]) : d ∈ x.descs ∧ d.ended = none ∧ n ≤ d.len := by
  unfold QpSt.rxPlace at h
  split at h
  · next l hl =>
    split at h
    · cases h
      exact rxBuffers_one hl
    · simp at h
  · simp at h

/-! ### A descriptor ends (R445, R446) -/

/-- The oldest descriptor of an index that has not ended ends. -/
def descsEnded (index : Nat) (e : Nat × Nat × Bool × Nat) : List QpDesc → List QpDesc
  | [] => []
  | d :: l => if d.index == index && d.ended.isNone then { d with ended := some e } :: l else d :: descsEnded index e l

/-- One descriptor looked at as `endDesc` goes through them. -/
def endStep (index : Nat) (e : Nat × Nat × Bool × Nat) (acc : List QpDesc × Bool) (d : QpDesc) : List QpDesc × Bool :=
  if !acc.2 && d.index == index && d.ended.isNone then (acc.1 ++ [{ d with ended := some e }], true) else (acc.1 ++ [d], acc.2)

theorem foldl_endStep_of_found (index : Nat) (e : Nat × Nat × Bool × Nat) (l acc : List QpDesc) :
    (l.foldl (endStep index e) (acc, true)).1 = acc ++ l := by
  induction l generalizing acc with
  | nil => simp
  | cons d l ih => rw [List.foldl_cons, show endStep index e (acc, true) d = (acc ++ [d], true) from rfl, ih, List.append_assoc]; rfl

theorem foldl_endStep (index : Nat) (e : Nat × Nat × Bool × Nat) (l acc : List QpDesc) :
    (l.foldl (endStep index e) (acc, false)).1 = acc ++ descsEnded index e l := by
  induction l generalizing acc with
  | nil => simp [descsEnded]
  | cons d l ih =>
    rw [List.foldl_cons, descsEnded]
    by_cases hd : (d.index == index && d.ended.isNone) = true
    · rw [if_pos hd, show endStep index e (acc, false) d = (acc ++ [{ d with ended := some e }], true) from if_pos hd, foldl_endStep_of_found,
        List.append_assoc]
      rfl
    · rw [if_neg hd, show endStep index e (acc, false) d = (acc ++ [d], false) from if_neg hd, ih, List.append_assoc]
      rfl

theorem endDesc_eq (s : State) (q index status len : Nat) (last : Bool) (queue : Nat) : s.endDesc q index status len last queue =
    s.setQp q { s.qp q with descs := descsEnded index (status, len, last, queue) (s.qp q).descs } := by
  have hfold := foldl_endStep index (status, len, last, queue) (s.qp q).descs []
  rw [List.nil_append] at hfold
  rw [← hfold]
  rfl

/-- A descriptor that has not ended: one of its index ends so. -/
theorem exists_descsEnded {index : Nat} {e : Nat × Nat × Bool × Nat} {l : List QpDesc} {d : QpDesc} (hmem : d ∈ l) (hindex : d.index = index)
    (hended : d.ended = none) : ∃ c ∈ descsEnded index e l, c.index = index ∧ c.ended = some e := by
  induction l with
  | nil => simp at hmem
  | cons c l ih =>
    rw [descsEnded]
    by_cases hc : (c.index == index && c.ended.isNone) = true
    · rw [if_pos hc]
      exact ⟨_, List.mem_cons_self, by simpa using (Bool.and_eq_true_iff.1 hc).1, rfl⟩
    · rw [if_neg hc]
      rcases List.mem_cons.1 hmem with rfl | hl
      · exact absurd (by simp [hindex, hended]) hc
      · obtain ⟨x, hx, hxe⟩ := ih hl
        exact ⟨x, List.mem_cons_of_mem _ hx, hxe⟩

/-! ### Host memory -/

theorem hostRead_of_spine {s u : State} (h : u.spine = s.spine) (a n : Nat) : u.hostRead a n = s.hostRead a n := by
  rw [State.hostRead, h, State.hostRead]

theorem hostRead_hostWrite_self (s : State) (a : Nat) (data : List Byte) : (s.hostWrite a data).hostRead a data.length = data :=
  Memory.readBytes_writeBytes_self _ _ _

theorem read_hostWrite_outside (s : State) {a c : Nat} {data : List Byte} (h : c < a ∨ a + data.length ≤ c) :
    Memory.read (s.hostWrite a data).spine.host c = Memory.read s.spine.host c := Memory.read_writeBytes_outside _ _ _ _ h

end Sys2Proof.Machine.State

namespace Sys2Proof.Safety

open Sys2Proof.Machine

/-! ### The next output to the host (R446, R447) -/

section
variable {s : State} {o : Nat} {y : Output}

theorem place_of_readyOutput {n : Nat} (h : s.readyOutput n = some (o, y)) : y.place = .edited := by
  unfold State.readyOutput at h
  split at h
  · split at h
    · split at h
      · next hplace => cases h; exact hplace
      · simp at h
    · simp at h
  · simp at h

theorem pairRefuses_reason {k tenant diag : Nat} (h : s.pairRefuses k tenant = some diag) : diag = 56 ∨ diag = 51 := by
  simp only [State.pairRefuses] at h
  split_ifs at h <;> simp_all

section
variable {i : Instr} (hi : i = .port32Output ∨ i = .internalPortOutput 0) (hruns : s.finisherRuns = true)
include hi hruns

theorem exec_port32 : exec i s = .next s.port32 := by
  obtain rfl | rfl := hi
  · exact congrArg Host.Outcome.next (if_pos hruns)
  · exact if_neg (by simp [hruns])

variable (hready : s.readyOutput 32 = some (o, y))
include hready

theorem port32_discards {diag : Nat} (hrefuses : s.pairRefuses (y.desc.queue % 256) y.desc.tenant = some diag) : Leaves i s (fun u =>
    u.output o = none ∧ u.qps = s.qps ∧ u.spine = s.spine ∧ u.reports = s.reports ++ [outDropReport s y.desc diag y.len]) := by
  have hexec : exec i s = .next (s.finisherDrop o y diag) := by
    rw [exec_port32 hi hruns]
    simp only [State.port32, hready, hrefuses]
  exact ⟨_, hexec, s.finisherDrop_leaves o y (place_of_readyOutput hready) (pairRefuses_reason hrefuses)⟩

section
variable (hadmits : s.pairRefuses (y.desc.queue % 256) y.desc.tenant = none) (htakes : s.hostTakes = true)
include hadmits htakes

theorem port32_waits (hplace : (s.qp (y.desc.queue % 256)).rxPlace y.frame.length = none) (hfull : (s.qp (y.desc.queue % 256)).fullSince = none) :
    Leaves i s (fun u => u = { s with qps := u.qps } ∧ u.qp (y.desc.queue % 256) = { s.qp (y.desc.queue % 256) with fullSince := some s.time.cycles } ∧
      OtherPairs s u (y.desc.queue % 256)) := by
  let x := s.qp (y.desc.queue % 256)
  have hexec : exec i s = .next (s.setQp (y.desc.queue % 256) { x with fullSince := some s.time.cycles }) := by
    rw [exec_port32 hi hruns]
    simp only [State.port32, hready, hadmits, htakes, hplace, hfull, Bool.not_true, Bool.false_eq_true, if_false, Option.isSome_none, x]
  exact ⟨_, hexec, rfl, State.qp_setQp_self _ _ _, fun k hk => State.qp_setQp_of_ne _ _ hk⟩

/-- A frame that one buffer takes is written there whole, and the completion says so. -/
theorem port32_delivers {d : QpDesc} (hplace : (s.qp (y.desc.queue % 256)).rxPlace y.frame.length = some [d]) : Leaves i s (fun u =>
    u.output o = none ∧ u.hostRead d.host y.frame.length = y.frame ∧
    (∃ e ∈ (u.qp (y.desc.queue % 256)).descs, e.index = d.index ∧ e.ended = some (0, y.frame.length, true, y.desc.queue)) ∧
    (u.qp (y.desc.queue % 256)).fullSince = none ∧
    ∀ a, a < d.host ∨ d.host + y.frame.length ≤ a → Memory.read u.spine.host a = Memory.read s.spine.host a) := by
  let k := y.desc.queue % 256
  let filled := (s.hostWrite d.host y.frame).endDesc k d.index 0 y.frame.length true y.desc.queue
  let v := filled.setQp k { filled.qp k with fullSince := none }
  obtain ⟨hmem, hopen, hlen⟩ := State.rxPlace_one hplace
  have hwhole : y.frame.take d.len = y.frame := List.take_of_length_le hlen
  have hexec : exec i s = .next (v.leaveOutput o y) := by
    have hfilled : s.fillBuffers k y.desc.queue [d] y.frame = filled := by
      simp only [State.fillBuffers, hwhole, List.isEmpty_nil, filled]
    rw [exec_port32 hi hruns]
    simp only [State.port32, hready, hadmits, htakes, hplace, Bool.not_true, Bool.false_eq_true, if_false]
    rw [hfilled]
  obtain ⟨hnone, hqps, hspine, -⟩ := v.leaveOutput_leaves o y
  have hwritten : v.spine = (s.hostWrite d.host y.frame).spine := rfl
  have hpair : v.qp k = { filled.qp k with fullSince := none } := State.qp_setQp_self _ _ _
  have hdescs : (filled.qp k).descs = State.descsEnded d.index (0, y.frame.length, true, y.desc.queue) (s.qp k).descs := by
    simp only [filled, State.endDesc_eq, State.qp_setQp_self]
    rfl
  refine ⟨_, hexec, hnone, ?_, ?_, ?_, fun a ha => ?_⟩
  · rw [State.hostRead_of_spine (hspine.trans hwritten), State.hostRead_hostWrite_self]
  · rw [State.qp_of_qps hqps, hpair]
    exact hdescs ▸ State.exists_descsEnded hmem rfl hopen
  · rw [State.qp_of_qps hqps, hpair]
  · rw [hspine, hwritten, State.read_hostWrite_outside s ha]

end
end
end
end Sys2Proof.Safety
end

section
/-! Completions are written whole in ring order (18, R405, R448, R450). -/

namespace Sys2Proof.Machine

/-- Where the next completion of a queue pair goes. -/
def QpSt.nextEntry (x : QpSt) : Nat := x.cqBase.toNat + 16 * (x.written % 2 ^ x.cqLog)

namespace State

open Sys2Proof.Safety

section
variable (s : State) (q : Nat) (d : QpDesc) (e : Nat × Nat × Bool × Nat)

/-- The bytes of a completion entry. -/
def entryOf (x : QpSt) : List Byte := completionOf x d e.1 e.2.1 e.2.2.1 e.2.2.2

/-- What the writing of a completion leaves. -/
theorem writeCompletion_leaves : let u := s.writeCompletion q d e
    u.qps = (s.setQp q { s.qp q with written := (s.qp q).written + 1 }).qps ∧ u.spine = (s.hostWrite (s.qp q).nextEntry (entryOf d e (s.qp q))).spine ∧
      u.ev.raised = s.ev.raised ++ (if d.irq = true then [576 + q] else []) ∧ u.mem = s.mem := by
  intro u
  have hu : u = if d.irq then ((s.hostWrite (s.qp q).nextEntry (entryOf d e (s.qp q))).setQp q { s.qp q with written := (s.qp q).written + 1 }).raise (576 + q)
      else (s.hostWrite (s.qp q).nextEntry (entryOf d e (s.qp q))).setQp q { s.qp q with written := (s.qp q).written + 1 } := rfl
  rw [hu]
  split_ifs
  · exact ⟨rfl, rfl, rfl, rfl⟩
  · exact ⟨rfl, rfl, (List.append_nil _).symm, rfl⟩

theorem completeAll_nil {s : State} {q : Nat} (h : (s.qp q).descs = []) (fuel : Nat) : s.completeAll q fuel = s := by
  cases fuel with
  | zero => rfl
  | succ fuel => simp only [State.completeAll, h]

/-- The completion of a queue pair's one descriptor, which has ended. -/
theorem completeAll_one {s : State} {q : Nat} {d : QpDesc} {e : Nat × Nat × Bool × Nat} (hdescs : (s.qp q).descs = [d]) (hended : d.ended = some e)
    (hroom : (s.qp q).room ≠ 0) (fuel : Nat) : let u := s.completeAll q (fuel + 1)
    u.spine = (s.hostWrite (s.qp q).nextEntry (entryOf d e (s.qp q))).spine ∧ u.qp q = { s.qp q with written := (s.qp q).written + 1, descs := [] } ∧
      OtherPairs s u q ∧ u.ev.raised = s.ev.raised ++ (if d.irq = true then [576 + q] else []) ∧ u.mem = s.mem := by
  intro u
  let w := s.writeCompletion q d e
  obtain ⟨hqps, hspine, hraised, hmem⟩ := s.writeCompletion_leaves q d e
  have hu : u = w.setQp q { w.qp q with descs := [] } := by
    simp only [u, State.completeAll, hdescs, hended, if_neg hroom]
    exact completeAll_nil (by rw [qp_setQp_self]) fuel
  have hself : w.qp q = { s.qp q with written := (s.qp q).written + 1 } := by rw [qp_of_qps hqps, qp_setQp_self]
  rw [hu]
  refine ⟨hspine, ?_, fun k hk => ?_, hraised, hmem⟩
  · rw [qp_setQp_self, hself]
  · rw [qp_setQp_of_ne _ _ hk, qp_of_qps hqps, qp_setQp_of_ne _ _ hk]

end
end State
end Sys2Proof.Machine

namespace Sys2Proof.Safety

open Sys2Proof.Machine

section
variable {s : State} {q : Fin 256} {d : QpDesc} (hup : s.hostUp = true) (hdescs : (s.qp q).descs = [d])
include hup hdescs

theorem exec_descriptorComplete : exec (.descriptorComplete q) s = .next ((s.collectDesc q d).completeAll q 65536) := by
  show execDescriptorComplete q s = _
  rw [execDescriptorComplete, hdescs, if_neg (by simp [hup])]
  rfl

/-- A descriptor of no request that has not ended waits on. -/
theorem descriptorComplete_waits (hopen : d.ended = none) (hreq : d.req = none) :
    Leaves (.descriptorComplete q) s (fun u => u.qp q = s.qp q ∧ u.spine = s.spine) := by
  have hcollect : s.collectDesc q d = s := by simp only [State.collectDesc, hopen, hreq]
  have hcomplete : s.completeAll q 65536 = s := by
    show s.completeAll q (65535 + 1) = s
    simp only [State.completeAll, hdescs, hopen]
  refine ⟨_, exec_descriptorComplete hup hdescs, ?_⟩
  rw [hcollect, hcomplete]
  exact ⟨rfl, rfl⟩

variable (hroom : (s.qp q).room ≠ 0)
include hroom

theorem descriptorComplete_writes {st len : Nat} {last : Bool} {queue : Nat} (hended : d.ended = some (st, len, last, queue)) :
    Leaves (.descriptorComplete q) s (fun u => (u.hostRead (s.qp q).nextEntry 16 = completionOf (s.qp q) d st len last queue ∧
      u.qp q = { s.qp q with written := (s.qp q).written + 1, descs := [] } ∧ OtherPairs s u q ∧
      u.ev.raised = s.ev.raised ++ (if d.irq = true then [576 + q.val] else [])) ∧
      ∀ a, a < (s.qp q).nextEntry ∨ (s.qp q).nextEntry + 16 ≤ a → Memory.read u.spine.host a = Memory.read s.spine.host a) := by
  have hcollect : s.collectDesc q d = s := by simp only [State.collectDesc, hended]
  obtain ⟨hspine, hpair, hothers, hraised, -⟩ := State.completeAll_one hdescs hended hroom 65535
  refine ⟨_, exec_descriptorComplete hup hdescs, ?_⟩
  rw [hcollect]
  refine ⟨⟨?_, hpair, hothers, hraised⟩, fun a ha => ?_⟩
  · rw [State.hostRead_of_spine hspine]
    exact s.hostRead_hostWrite_self _ (State.entryOf d (st, len, last, queue) (s.qp q))
  · rw [hspine]
    exact s.read_hostWrite_outside (data := State.entryOf d (st, len, last, queue) (s.qp q)) ha

/-- A request that memory has answered: what a read returned stands in host memory, and the descriptor's completion behind it. -/
theorem descriptorComplete_collects {id : Nat} {m : MemDone} (hopen : d.ended = none) (hreq : d.req = some id) (hserved : s.served id = true)
    (hdone : SMap.find s.mem.done id = some m) : Leaves (.descriptorComplete q) s (fun u =>
      (u.hostRead (s.qp q).nextEntry 16 =
        completionOf (s.qp q) d (if m.bad then 5 else 0) (d.len - (if m.data.isEmpty then sumOf m.poison (·.2) else 0)) false 0 ∧
      u.qp q = { s.qp q with written := (s.qp q).written + 1, descs := [] } ∧ OtherPairs s u q ∧
      u.ev.raised = s.ev.raised ++ (if d.irq = true then [576 + q.val] else [])) ∧
      SMap.find u.mem.done id = none ∧
      (m.data ≠ [] → u.spine.poisoned = s.spine.poisoned ++ m.poison.map (fun p => (d.host + p.1, p.2))) ∧
      (d.host + m.data.length ≤ (s.qp q).nextEntry ∨ (s.qp q).nextEntry + 16 ≤ d.host → u.hostRead d.host m.data.length = m.data)) := by
  let e : Nat × Nat × Bool × Nat := (if m.bad then 5 else 0, d.len - (if m.data.isEmpty then sumOf m.poison (·.2) else 0), false, 0)
  let moved := (s.modMem (fun x => { x with done := SMap.erase x.done id })).hostWritePoisoned d.host m.data (if m.data.isEmpty then [] else m.poison)
  let v := moved.setQp q { s.qp q with descs := [{ d with ended := some e }] }
  have hcollect : s.collectDesc q d = v := by
    have hanswered : s.answered id = some m := by rw [State.answered, if_pos hserved, hdone]
    simp only [State.collectDesc, hopen, hreq, hanswered]
    rw [State.endDesc_eq]
    have hends : State.descsEnded d.index e [d] = [{ d with ended := some e }] := if_pos (by simp [hopen])
    show moved.setQp q { s.qp q with descs := State.descsEnded d.index e (s.qp q).descs } = v
    rw [hdescs, hends]
  have hself : v.qp q = { s.qp q with descs := [{ d with ended := some e }] } := State.qp_setQp_self _ _ _
  obtain ⟨hspine, hpair, hothers, hraised, hmem⟩ :=
    State.completeAll_one (s := v) (q := q) (d := { d with ended := some e }) (e := e) (by rw [hself]) rfl (by rw [hself]; exact hroom) 65535
  rw [hself] at hspine hpair
  have hentry : State.entryOf { d with ended := some e } e { s.qp q with descs := [{ d with ended := some e }] } =
    completionOf (s.qp q) d (if m.bad then 5 else 0) (d.len - (if m.data.isEmpty then sumOf m.poison (·.2) else 0)) false 0 := rfl
  refine ⟨_, exec_descriptorComplete hup hdescs, ?_⟩
  rw [hcollect]
  refine ⟨⟨?_, hpair, fun k hk => (hothers k hk).trans (State.qp_setQp_of_ne _ _ hk), hraised⟩, ?_, fun hdata => ?_, fun hapart => ?_⟩
  · rw [State.hostRead_of_spine hspine, ← hentry]
    exact State.hostRead_hostWrite_self _ _ _
  · rw [hmem]
    exact SMap.find_erase_self _ _
  · have hpoison : (if m.data.isEmpty then [] else m.poison) = m.poison := if_neg (by simpa using hdata)
    rw [hspine]
    show s.spine.poisoned ++ (if m.data.isEmpty then [] else m.poison).map _ = _
    rw [hpoison]
  · rw [State.hostRead_of_spine hspine]
    refine (Memory.readBytes_writeBytes_apart _ _ _ _ _ hapart).trans ?_
    exact Memory.readBytes_writeBytes_self _ _ _

end
end Sys2Proof.Safety
end

section
/-! A supervisor's DMA posts are accepted (06, R192, R193; 18, R451). -/

namespace Sys2Proof.Safety

open Sys2Proof.Machine

/-- The bytes that a DMA post moves. -/
def postLen (th : Thread) : Nat := if bitsOf (th.bankWord 0) 39 16 = 0 then 16777216 else bitsOf (th.bankWord 0) 39 16

/-- A DMA post of thread t, th before, has been accepted as operation o (R192). -/
def PostAccepted (s u : State) (t : Nat) (th : Thread) (o : LeafOp) : Prop :=
  u.thread t = { th.accepted with ops := th.ops ++ [o], reqSince := (u.thread t).reqSince, quietSince := (u.thread t).quietSince,
                                  haltedSince := (u.thread t).haltedSince } ∧
  o.kind = .dma ∧ o.dst = bitsOf (th.bankWord 0) 8 4 ∧ o.ev = some (bitsOf (th.bankWord 0) 13 9) ∧ ∀ y, y ≠ t → u.thread y = s.thread y

/-- A post's operation put into its thread. -/
def takePost (v : State) (t : Nat) (th : Thread) (o : LeafOp) : State := v.setThread t { th.accepted with ops := th.ops ++ [o] }

theorem postAccepted_takePost {s v : State} {t : Nat} {th : Thread} (hv : v.threads = s.threads) (op id a len host : Nat) (data : List Byte) :
    PostAccepted s (takePost v t th (dmaOp th (th.bankWord 0) op id a len host data)) t th (dmaOp th (th.bankWord 0) op id a len host data) := by
  refine ⟨?_, rfl, rfl, rfl, fun y hy => ?_⟩
  · rw [takePost, State.thread_setThread_self]
    exact Thread.noted_eq _ _ _
  · rw [takePost, State.thread_setThread_of_ne _ _ hy, State.thread_of_threads hv]

section
variable {s : State} {t : Tid} {th : Thread} {write : Bool} {i : Instr}

/-- A post that ends as it is accepted carries its status. -/
theorem dmaPost_stops {status : Nat} (hexec : exec i s = .next (takePost s t th (dmaOp th (th.bankWord 0) 0 0 status 0 (th.bankWord 2) []))) :
    Leaves i s (fun u => ∃ o, PostAccepted s u t th o ∧ o.word = 0 ∧ o.addr = status ∧ o.len = 0) :=
  ⟨_, hexec, _, postAccepted_takePost rfl _ _ _ _ _ _, rfl, rfl, rfl⟩

variable (hi : (i = .supMemRead t ∧ write = false) ∨ (i = .supMemWrite t ∧ write = true)) (hpost : s.posting t 2 = some th)
  (hop : bitsOf (th.bankWord 0) 3 0 = 4 ↔ write = true)
include hi hpost hop

omit hpost hop in
theorem exec_dmaPost : exec i s = .next (s.dmaPost t write) := by
  obtain ⟨rfl, rfl⟩ | ⟨rfl, rfl⟩ := hi <;> rfl

omit hi hpost in
/-- The command is the one of the post's operation. -/
theorem rightCommand : ¬ decide (bitsOf (th.bankWord 0) 3 0 = 4) ≠ write := by cases write <;> simp [hop]

theorem dmaPost_without_pair (hpair : s.supPair (tidQuire t) = none) :
    Leaves i s (fun u => ∃ o, PostAccepted s u t th o ∧ o.word = 0 ∧ o.addr = 1 ∧ o.len = 0) := by
  refine dmaPost_stops ((exec_dmaPost hi).trans (congrArg Host.Outcome.next ?_))
  simp only [State.dmaPost, hpost, hpair]
  exact if_neg (rightCommand hop)

section
variable {k : Nat} {x : QpSt} (hpair : s.supPair (tidQuire t) = some (k, x))
  (hroom : th.ops.countP (fun o => o.kind = .dma) + th.orphans.length < 64)
include hpair hroom

/-- What is done with a post whose queue pair has room for it. -/
theorem exec_dmaPost_of_room : exec i s = .next (
    if !th.dmaOk (th.bankWord 0) (postLen th) then takePost s t th (dmaOp th (th.bankWord 0) 0 0 1 0 (th.bankWord 2) [])
    else if s.spaceSize (bitsOf (th.bankWord 0) 15 14) < th.bankWord 1 + postLen th ∨
        (bitsOf (th.bankWord 0) 15 14 = 0 ∧ 0x3A0000 < th.bankWord 1 + postLen th) ∨
        !s.windowCovers (tidQuire t) 0 (bitsOf (th.bankWord 0) 15 14) (th.bankWord 1) (postLen th) (!write) write then
      takePost s t th (dmaOp th (th.bankWord 0) 0 0 2 0 (th.bankWord 2) [])
    else if write ∧ !s.hostUp then takePost s t th (dmaOp th (th.bankWord 0) 0 0 3 0 (th.bankWord 2) [])
    else if bitsOf (th.bankWord 0) 15 14 = 0 then
      takePost s t th (dmaOp th (th.bankWord 0) (if write then 4 else 3) 0 (th.bankWord 1) (postLen th) (th.bankWord 2)
        (if write then s.hostRead (th.bankWord 2) (postLen th) else []))
    else
      let r := s.issueMem (8192 + k) (newReq (decide (bitsOf (th.bankWord 0) 15 14 = 2)) (th.bankWord 1) (postLen th)
        (if write then some (if write then s.hostRead (th.bankWord 2) (postLen th) else []) else none) none (some 5))
      takePost r.2 t th (dmaOp th (th.bankWord 0) (if write then 4 else 3) r.1 (th.bankWord 1) (postLen th) (th.bankWord 2) [])) := by
  refine (exec_dmaPost hi).trans (congrArg Host.Outcome.next ?_)
  simp only [State.dmaPost, hpost, hpair]
  exact (if_neg (rightCommand hop)).trans (if_neg (Nat.not_le.2 hroom))

theorem dmaPost_malformed (hbad : th.dmaOk (th.bankWord 0) (postLen th) = false) :
    Leaves i s (fun u => ∃ o, PostAccepted s u t th o ∧ o.word = 0 ∧ o.addr = 1 ∧ o.len = 0) := by
  have hexec := exec_dmaPost_of_room hi hpost hop hpair hroom
  rw [if_pos (by simp [hbad])] at hexec
  exact dmaPost_stops hexec

section
variable (hok : th.dmaOk (th.bankWord 0) (postLen th) = true)
include hok

theorem dmaPost_denied (hbarred : s.spaceSize (bitsOf (th.bankWord 0) 15 14) < th.bankWord 1 + postLen th ∨
      s.windowCovers (tidQuire t) 0 (bitsOf (th.bankWord 0) 15 14) (th.bankWord 1) (postLen th) (!write) write = false) :
    Leaves i s (fun u => ∃ o, PostAccepted s u t th o ∧ o.word = 0 ∧ o.addr = 2 ∧ o.len = 0) := by
  have hexec := exec_dmaPost_of_room hi hpost hop hpair hroom
  rw [if_neg (by simp [hok]), if_pos (hbarred.imp_right (fun h => .inr (by simp [h])))] at hexec
  exact dmaPost_stops hexec

section
variable (hinside : th.bankWord 1 + postLen th ≤ s.spaceSize (bitsOf (th.bankWord 0) 15 14))
  (hshared : bitsOf (th.bankWord 0) 15 14 = 0 → th.bankWord 1 + postLen th ≤ 0x3A0000)
  (hgranted : s.windowCovers (tidQuire t) 0 (bitsOf (th.bankWord 0) 15 14) (th.bankWord 1) (postLen th) (!write) write = true)
  (hup : write = true → s.hostUp = true)
include hinside hshared hgranted hup

/-- A post that is performed: in shared memory by its own command, elsewhere as a request of memory. -/
theorem exec_dmaPost_performed : exec i s = .next (if bitsOf (th.bankWord 0) 15 14 = 0 then
      takePost s t th (dmaOp th (th.bankWord 0) (if write then 4 else 3) 0 (th.bankWord 1) (postLen th) (th.bankWord 2)
        (if write then s.hostRead (th.bankWord 2) (postLen th) else []))
    else
      let r := s.issueMem (8192 + k) (newReq (decide (bitsOf (th.bankWord 0) 15 14 = 2)) (th.bankWord 1) (postLen th)
        (if write then some (if write then s.hostRead (th.bankWord 2) (postLen th) else []) else none) none (some 5))
      takePost r.2 t th (dmaOp th (th.bankWord 0) (if write then 4 else 3) r.1 (th.bankWord 1) (postLen th) (th.bankWord 2) [])) := by
  have hexec := exec_dmaPost_of_room hi hpost hop hpair hroom
  have hwithin : ¬ (s.spaceSize (bitsOf (th.bankWord 0) 15 14) < th.bankWord 1 + postLen th ∨
      (bitsOf (th.bankWord 0) 15 14 = 0 ∧ 0x3A0000 < th.bankWord 1 + postLen th) ∨
      (!s.windowCovers (tidQuire t) 0 (bitsOf (th.bankWord 0) 15 14) (th.bankWord 1) (postLen th) (!write) write) = true) := by
    rintro (hbeyond | ⟨hzero, hbeyond⟩ | hbarred)
    · omega
    · have := hshared hzero
      omega
    · simp [hgranted] at hbarred
  have hreaches : ¬ (write = true ∧ (!s.hostUp) = true) := fun ⟨hwrite, hdown⟩ => by simp [hup hwrite] at hdown
  rw [if_neg (by simp [hok]), if_neg hwithin, if_neg hreaches] at hexec
  exact hexec

theorem dmaPost_shared (hspace : bitsOf (th.bankWord 0) 15 14 = 0) : Leaves i s (fun u => ∃ o, PostAccepted s u t th o ∧
    o.word = (if write then 4 else 3) ∧ o.sp = 0 ∧ o.addr = th.bankWord 1 ∧ o.len = postLen th ∧ o.loc = th.bankWord 2 ∧
    o.data = (if write then s.hostRead (th.bankWord 2) (postLen th) else [])) := by
  have hexec := exec_dmaPost_performed hi hpost hop hpair hroom hok hinside hshared hgranted hup
  rw [if_pos hspace] at hexec
  refine ⟨_, hexec, _, postAccepted_takePost rfl _ _ _ _ _ _, ?_, hspace, rfl, rfl, rfl, rfl⟩
  cases write <;> rfl

theorem dmaPost_asks (hspace : bitsOf (th.bankWord 0) 15 14 ≠ 0) : Leaves i s (fun u => ∃ o m, PostAccepted s u t th o ∧ o.id = m.id ∧
    o.addr = th.bankWord 1 ∧ o.len = postLen th ∧ o.loc = th.bankWord 2 ∧ u.memWaiting (8192 + k) = s.memWaiting (8192 + k) ++ [m] ∧
    m.addr = th.bankWord 1 ∧ m.len = postLen th ∧ m.table = decide (bitsOf (th.bankWord 0) 15 14 = 2) ∧
    m.write = (if write then some (s.hostRead (th.bankWord 2) (postLen th)) else none)) := by
  have hexec := exec_dmaPost_performed hi hpost hop hpair hroom hok hinside hshared hgranted hup
  rw [if_neg hspace] at hexec
  refine ⟨_, hexec, _, _, postAccepted_takePost rfl _ _ _ _ _ _, rfl, rfl, rfl, rfl, SMap.get_set_self _ _ _ _, rfl, rfl, rfl, ?_⟩
  cases write <;> rfl

end
end
end
end
end Sys2Proof.Safety
end

section
/-! A supervisor's DMA posts complete (07, R210; 18, R405, R451). -/

namespace Sys2Proof.Safety

open Sys2Proof.Machine

/-! ### Shared memory -/

section
variable (s : State) (q a : Nat) (data : List Byte)

theorem quire_sharedWrite_self : ((s.sharedWrite q a data).quire q).shared = Memory.writeBytes (s.quire q).shared a data := by
  rw [State.sharedWrite, State.quire_of_quires (State.quires_of_beyondCells (State.beyondCells_eccWrite _ _ _ _ _)), State.quire_setQuire_self]

theorem threads_sharedWrite : (s.sharedWrite q a data).threads = s.threads :=
  (State.threads_of_beyondCells (State.beyondCells_eccWrite _ _ _ _ _)).trans rfl

theorem spine_sharedWrite : (s.sharedWrite q a data).spine = s.spine := by
  have h := congrArg State.spine (State.beyondCells_eccWrite (s.setQuire q { s.quire q with shared := Memory.writeBytes (s.quire q).shared a data })
    (quireWin q) 0 a data.length)
  exact h

/-- A read of shared memory that meets no error. -/
theorem sharedRead_clean {n : Nat} (h : s.errsIn (quireWin q) 0 a n = []) :
    s.sharedRead q a n = (false, Memory.readBytes (s.quire q).shared a n, s) := by
  have hfixed : s.eccFixed (quireWin q) 0 a (Memory.readBytes (s.quire q).shared a n) = Memory.readBytes (s.quire q).shared a n := by
    simp [State.eccFixed, Memory.length_readBytes, h]
  rw [State.sharedRead, State.eccRead_of_errsIn_nil s h, hfixed]

end

/-! ### The end of a post -/

/-- The oldest of the posts that a thread left at its reset is gone, and nothing of it has reached the thread (R210). -/
def OrphanGone (s u : State) (t : Nat) (rest : List LeafOp) : Prop :=
  (u.thread t).orphans = rest ∧ (u.thread t).ops = (s.thread t).ops ∧ (u.thread t).regs = (s.thread t).regs ∧
  (u.thread t).events = (s.thread t).events ∧ ∀ y, y ≠ t → u.thread y = s.thread y

/-- A post has ended: its status word in the register it names, its event, and the post outstanding no more (R39, R451). -/
def PostEnded (s u : State) (t : Nat) (o : LeafOp) (status moved : Nat) : Prop :=
  (o.dst ≠ 0 → o.dst < 30 → (u.thread t).g o.dst = BitVec.ofNat 64 (status + moved * 2 ^ 32)) ∧
  (o.dst = 0 ∨ 30 ≤ o.dst → (u.thread t).regs = (s.thread t).regs) ∧
  (∀ b, o.ev = some b → b < 32 → (u.thread t).events.getLsbD b = true) ∧ (u.thread t).ops = removeFirst (fun x => decide (x = o)) (s.thread t).ops ∧
  ∀ y, y ≠ t → u.thread y = s.thread y

theorem ops_opEnded (th : Thread) (o : LeafOp) (vals : List (Nat × Word64)) :
    (th.opEnded o vals).ops = removeFirst (fun x => decide (x = o)) th.ops := by
  unfold Thread.opEnded
  dsimp only
  split <;> rfl

theorem regs_opEnded_nil (th : Thread) (o : LeafOp) : (th.opEnded o []).regs = th.regs := by
  unfold Thread.opEnded
  dsimp only
  split <;> rfl

section
variable {s v : State} {t : Nat} (hv : v.threads = s.threads)
include hv

theorem endDma_orphan {o : LeafOp} {rest : List LeafOp} (h : (s.thread t).orphans = o :: rest) (status moved : Nat) :
    v.endDma t o status moved = v.setThread t { s.thread t with orphans := rest } ∧ OrphanGone s (v.endDma t o status moved) t rest := by
  have hthread := State.thread_of_threads hv t
  have heq : v.endDma t o status moved = v.setThread t { s.thread t with orphans := rest } := by
    simp only [State.endDma, hthread, h, State.modThread]
  rw [heq]
  refine ⟨rfl, ?_⟩
  rw [OrphanGone, State.thread_setThread_self]
  exact ⟨rfl, rfl, rfl, rfl, fun y hy => (State.thread_setThread_of_ne _ _ hy).trans (State.thread_of_threads hv y)⟩

theorem endDma_ends (h : (s.thread t).orphans = []) (o : LeafOp) (status moved : Nat) :
    (∃ th, v.endDma t o status moved = v.setThread t th) ∧ PostEnded s (v.endDma t o status moved) t o status moved := by
  have hthread := State.thread_of_threads hv t
  let vals : List (Nat × Word64) := if o.dst = 0 ∨ 30 ≤ o.dst then [] else [(o.dst, BitVec.ofNat 64 (status + moved * 2 ^ 32))]
  have heq : v.endDma t o status moved = v.endOp t o vals := by simp only [State.endDma, hthread, h, vals]
  rw [heq]
  have hself : (v.endOp t o vals).thread t = ((s.thread t).opEnded o vals).noted v.time.cycles (v.isSup t) := by
    rw [State.endOp_eq, State.thread_setThread_self, hthread]
  refine ⟨⟨_, State.endOp_eq v t o vals⟩, fun hdst hlow => ?_, fun hnone => ?_, fun b hev hb => v.events_endOp t vals hev hb, ?_, fun y hy => ?_⟩
  · have hvals : vals = [(o.dst, BitVec.ofNat 64 (status + moved * 2 ^ 32))] := if_neg (by omega)
    rw [State.g_endOp, hvals]
    exact Thread.g_asyncResult_self _ _ _ hdst
  · have hvals : vals = [] := if_pos hnone
    rw [hself, hvals]
    exact regs_opEnded_nil _ _
  · rw [hself]
    exact ops_opEnded _ _ _
  · rw [State.thread_endOp_of_ne _ _ _ _ hy, State.thread_of_threads hv]

end

/-! ### Posts that a thread left at its reset (R210) -/

section
variable {s : State} {t : Tid} {o : LeafOp}

section
variable {rest : List LeafOp} (h : (s.thread t).orphans = o :: rest)
include h

theorem head_dmaPosts_orphan : (s.thread t).dmaPosts.head? = some o := by rw [Thread.dmaPosts, h]; rfl

theorem supDmaComplete_orphan_ended (hword : o.word = 0) : Leaves (.supDmaComplete t) s (fun u => OrphanGone s u t rest ∧ u.spine = s.spine ∧ u.mem = s.mem) := by
  have hexec : exec (.supDmaComplete t) s = .next (s.endDma t o o.addr o.len) := by
    show execSupDmaComplete t s = _
    simp only [execSupDmaComplete, head_dmaPosts_orphan h]
    rw [if_pos hword]
  obtain ⟨heq, hgone⟩ := endDma_orphan (s := s) (v := s) rfl h o.addr o.len
  refine ⟨_, hexec, hgone, ?_⟩
  rw [heq]
  exact ⟨rfl, rfl⟩

theorem supDmaComplete_orphan_writes (hword : o.word = 4) (hspace : o.sp = 0) : Leaves (.supDmaComplete t) s (fun u => OrphanGone s u t rest ∧
    ∀ c, Memory.read (u.quire (tidQuire t)).shared c = Memory.read (Memory.writeBytes (s.quire (tidQuire t)).shared o.addr o.data) c) := by
  have hexec : exec (.supDmaComplete t) s = .next ((s.sharedWrite (tidQuire t) o.addr o.data).endDma t o 0 o.len) := by
    show execSupDmaComplete t s = _
    simp only [execSupDmaComplete, head_dmaPosts_orphan h]
    rw [if_neg (by rw [hword]; decide), if_pos hspace, if_pos hword]
  obtain ⟨heq, hgone⟩ := endDma_orphan (threads_sharedWrite s (tidQuire t) o.addr o.data) h 0 o.len
  refine ⟨_, hexec, hgone, fun c => ?_⟩
  rw [heq, State.quire_setThread, quire_sharedWrite_self]

end

/-! ### Posts of a thread (R451) -/

section
variable (hfirst : (s.thread t).ops.find? (fun o => decide (o.kind = .dma)) = some o) (horphans : (s.thread t).orphans = [])
include hfirst horphans

theorem head_dmaPosts : (s.thread t).dmaPosts.head? = some o := by
  rw [Thread.dmaPosts, horphans, List.nil_append, List.head?_filter, hfirst]

theorem supDmaComplete_ended (hword : o.word = 0) :
    Leaves (.supDmaComplete t) s (fun u => PostEnded s u t o o.addr o.len ∧ u.spine = s.spine ∧ u.mem = s.mem) := by
  have hexec : exec (.supDmaComplete t) s = .next (s.endDma t o o.addr o.len) := by
    show execSupDmaComplete t s = _
    simp only [execSupDmaComplete, head_dmaPosts hfirst horphans]
    rw [if_pos hword]
  obtain ⟨⟨th, heq⟩, hended⟩ := endDma_ends (s := s) (v := s) rfl horphans o o.addr o.len
  refine ⟨_, hexec, hended, ?_⟩
  rw [heq]
  exact ⟨rfl, rfl⟩

theorem supDmaComplete_writes (hword : o.word = 4) (hspace : o.sp = 0) : Leaves (.supDmaComplete t) s (fun u => PostEnded s u t o 0 o.len ∧
    (∀ c, Memory.read (u.quire (tidQuire t)).shared c = Memory.read (Memory.writeBytes (s.quire (tidQuire t)).shared o.addr o.data) c) ∧
    u.spine = s.spine) := by
  have hexec : exec (.supDmaComplete t) s = .next ((s.sharedWrite (tidQuire t) o.addr o.data).endDma t o 0 o.len) := by
    show execSupDmaComplete t s = _
    simp only [execSupDmaComplete, head_dmaPosts hfirst horphans]
    rw [if_neg (by rw [hword]; decide), if_pos hspace, if_pos hword]
  obtain ⟨⟨th, heq⟩, hended⟩ := endDma_ends (threads_sharedWrite s (tidQuire t) o.addr o.data) horphans o 0 o.len
  refine ⟨_, hexec, hended, fun c => ?_, ?_⟩
  · rw [heq, State.quire_setThread, quire_sharedWrite_self]
  · rw [heq]
    exact spine_sharedWrite s _ _ _

omit hfirst in
/-- The end of a post whose data goes to host memory. -/
theorem endDmaRead_ends {v : State} (hv : v.threads = s.threads) (hspine : v.spine = s.spine) (hup : v.hostUp = true) (m : MemDone) :
    let u := v.endDmaRead t o m
    PostEnded s u t o (if m.bad then 5 else 0) m.data.length ∧ u.hostRead o.loc m.data.length = m.data ∧
      u.spine.poisoned = s.spine.poisoned ++ m.poison.map (fun p => (o.loc + p.1, p.2)) ∧ u.quires = v.quires ∧ u.mem = v.mem := by
  intro u
  let w := v.hostWritePoisoned o.loc m.data m.poison
  have hu : u = w.endDma t o (if m.bad then 5 else 0) m.data.length := if_neg (by simp [hup])
  obtain ⟨⟨th, heq⟩, hended⟩ := endDma_ends (s := s) (v := w) hv horphans o (if m.bad then 5 else 0) m.data.length
  have hw : u = w.setThread t th := hu.trans heq
  refine ⟨hu ▸ hended, ?_, ?_, by rw [hw]; rfl, by rw [hw]; rfl⟩
  · rw [hw]
    exact Memory.readBytes_writeBytes_self _ _ _
  · rw [hw, ← hspine]
    rfl

theorem supDmaComplete_reads (hword : o.word = 3) (hspace : o.sp = 0) (hup : s.hostUp = true)
    (hclean : s.errsIn (quireWin (tidQuire t)) 0 o.addr o.len = []) : Leaves (.supDmaComplete t) s (fun u => PostEnded s u t o 0 o.len ∧
      u.hostRead o.loc o.len = Memory.readBytes (s.quire (tidQuire t)).shared o.addr o.len ∧
      (u.quire (tidQuire t)).shared = (s.quire (tidQuire t)).shared) := by
  let data := Memory.readBytes (s.quire (tidQuire t)).shared o.addr o.len
  have hexec : exec (.supDmaComplete t) s = .next (s.endDmaRead t o ⟨data, false, []⟩) := by
    show execSupDmaComplete t s = _
    simp only [execSupDmaComplete, head_dmaPosts hfirst horphans]
    rw [if_neg (by rw [hword]; decide), if_pos hspace, if_neg (by rw [hword]; decide), sharedRead_clean s _ _ hclean]
    rfl
  obtain ⟨hended, hread, -, hquires, -⟩ := endDmaRead_ends horphans (v := s) rfl rfl hup ⟨data, false, []⟩
  have hlen : data.length = o.len := Memory.length_readBytes _ _ _
  dsimp only at hended hread
  rw [hlen] at hended hread
  exact ⟨_, hexec, hended, hread, congrArg QuireSt.shared (State.quire_of_quires hquires _)⟩

section
variable {m : MemDone} (hspace : o.sp ≠ 0) (hserved : s.served o.id = true) (hdone : SMap.find s.mem.done o.id = some m)
include hspace hserved hdone

theorem supDmaComplete_written (hword : o.word = 4) : Leaves (.supDmaComplete t) s (fun u =>
    PostEnded s u t o (if m.bad then 5 else 0) (o.len - sumOf m.poison (·.2)) ∧ SMap.find u.mem.done o.id = none ∧ u.spine = s.spine) := by
  let v := s.modMem (fun x => { x with done := SMap.erase x.done o.id })
  have hanswered : s.answered o.id = some m := by rw [State.answered, if_pos hserved, hdone]
  have hexec : exec (.supDmaComplete t) s = .next (v.endDma t o (if m.bad then 5 else 0) (o.len - sumOf m.poison (·.2))) := by
    show execSupDmaComplete t s = _
    simp only [execSupDmaComplete, head_dmaPosts hfirst horphans, hanswered]
    rw [if_neg (by rw [hword]; decide), if_neg hspace, if_pos hword]
  obtain ⟨⟨th, heq⟩, hended⟩ := endDma_ends (s := s) (v := v) rfl horphans o (if m.bad then 5 else 0) (o.len - sumOf m.poison (·.2))
  refine ⟨_, hexec, hended, ?_⟩
  rw [heq]
  exact ⟨SMap.find_erase_self _ _, rfl⟩

theorem supDmaComplete_read (hword : o.word = 3) (hup : s.hostUp = true) : Leaves (.supDmaComplete t) s (fun u =>
    PostEnded s u t o (if m.bad then 5 else 0) m.data.length ∧ u.hostRead o.loc m.data.length = m.data ∧
    u.spine.poisoned = s.spine.poisoned ++ m.poison.map (fun p => (o.loc + p.1, p.2)) ∧ SMap.find u.mem.done o.id = none) := by
  let v := s.modMem (fun x => { x with done := SMap.erase x.done o.id })
  have hanswered : s.answered o.id = some m := by rw [State.answered, if_pos hserved, hdone]
  have hexec : exec (.supDmaComplete t) s = .next (v.endDmaRead t o m) := by
    show execSupDmaComplete t s = _
    simp only [execSupDmaComplete, head_dmaPosts hfirst horphans, hanswered]
    rw [if_neg (by rw [hword]; decide), if_neg hspace, if_neg (by rw [hword]; decide)]
  obtain ⟨hended, hread, hpoisoned, -, hmem⟩ := endDmaRead_ends horphans (v := v) rfl rfl hup m
  refine ⟨_, hexec, hended, hread, hpoisoned, ?_⟩
  rw [hmem]
  exact SMap.find_erase_self _ _

end
end
end

/-- Settles O52: doorbells, descriptors, outputs, completions and posts, each by what its command leaves. -/
theorem queuePairsMoveData : Obligations.QueuePairsMoveData := by
  unfold Obligations.QueuePairsMoveData
  refine ⟨fun s q f v howner hf hserving => ⟨qpDoorbell_writes howner hf hserving, qpCqHeadWrite_writes howner hf hserving⟩,
    fun s q h => ⟨dmaTx_sends h, dmaTx_refuses h, dmaRxBuf_posts h, dmaRxBuf_refuses h⟩,
    fun s o y i hi hruns hready => ⟨fun diag => port32_discards hi hruns hready, fun hadmits htakes =>
      ⟨port32_waits hi hruns hready hadmits htakes, fun d => port32_delivers hi hruns hready hadmits htakes⟩⟩,
    fun s q t o y => rxStallTimeout_stalls,
    fun s q write err i hi h => ?_,
    fun s q d hup hdescs hroom => ⟨fun st len last queue => descriptorComplete_writes hup hdescs hroom,
      fun id m => descriptorComplete_collects hup hdescs hroom, descriptorComplete_waits hup hdescs⟩,
    fun s t th write i hi hpost => ?_,
    fun s t o rest h => ⟨supDmaComplete_orphan_ended h, supDmaComplete_orphan_writes h⟩,
    fun s t o hfirst horphans => ⟨supDmaComplete_ended hfirst horphans, supDmaComplete_writes hfirst horphans, supDmaComplete_reads hfirst horphans,
      fun m hspace hserved hdone => ⟨supDmaComplete_written hfirst horphans hspace hserved hdone, supDmaComplete_read hfirst horphans hspace hserved hdone⟩⟩⟩
  · intro d space a f granted hop
    exact ⟨memDescriptor_malformed hi h hop, memDescriptor_denied hi h hop, memDescriptor_fails hi h hop, memDescriptor_asks hi h hop⟩
  · intro w0 a host len sp accepted hop
    exact ⟨dmaPost_without_pair hi hpost hop, fun k x hpair hroom => ⟨dmaPost_malformed hi hpost hop hpair hroom, dmaPost_denied hi hpost hop hpair hroom,
      fun hok hinside hshared hgranted hup => ⟨dmaPost_shared hi hpost hop hpair hroom hok hinside hshared hgranted hup,
        dmaPost_asks hi hpost hop hpair hroom hok hinside hshared hgranted hup⟩⟩⟩

end Sys2Proof.Safety
end
